-- ==== Sys2Proof/Word.lean ====
section
/-! DEFINITION. The word and byte types of the device: every access moves 32-bit words (R26), memory is addressed by bytes. -/

namespace Sys2Proof

/-- A 32-bit register or memory word (R26). -/
abbrev Word := BitVec 32

/-- One byte of a memory window. -/
abbrev Byte := BitVec 8

end Sys2Proof
end

