-- ==== Sys2Proof/Syntax.lean ====
section
/-! DEFINITION. The syntax of the block: the types of the commands' operands and the one inductive of the commands. -/

namespace Sys2Proof

/-- The masters of an access (R40, Table 15); the ring carries the source device number. -/
inductive Master where
  | lamplighter
  | spi
  | i2c
  | ring (dev : Nat)
  | debug
  | preload
deriving DecidableEq, Repr

/-- The bias sources of R20, in their order. -/
inductive BiasSrc where
  | none
  | vib
  | startUp
  | vbus
deriving DecidableEq, Repr

/-- The converter outputs whose period boundary a command is: a balancing channel, the pack, SVC, the IBC, a POL; for an LDO the instant
its output sense is taken. -/
inductive Conv where
  | bal (n : Fin 16)
  | pack
  | svc
  | ibc
  | pol (k : Fin 4)
  | ldo (k : Fin 2)
deriving DecidableEq, Repr

/-- What RAIL's own senses give at a rail's period boundary: output voltage (IBC 10 mV, others mV), current (IBC: the phase currents in
mA; POL 10 mA; LDO mA), the highest current of the period in mA (IBC: of either phase), and for a POL light-load operation, for an LDO
dropout. -/
structure RailSense where
  v : Nat
  i0 : Int
  i1 : Int
  peak : Nat
  light : Bool
deriving DecidableEq, Repr

/-- What a slice's calibration measured (R118): its offset in 1/16 LSB, its gain error in 2^−16, and how far the verification conversions of
mid-scale and of 15/16 full scale lie from their expected codes, in LSB. -/
structure CalMeas where
  offset : Int
  gain : Int
  mid : Int
  top : Int
deriving DecidableEq, Repr

/-- A slot's opcode with its operands, as Table 5 of R94 lays them out. -/
inductive SlotOp where
  | nop
  | tableEnd
  | wait (n : Nat)
  | modejump (target : Nat)
  | rdv (role point ndep : Nat)
  | trigger (bank seq : Nat)
  | comp (unit : Nat) (shadow : Bool)
  | pwmload (out field : Nat) (imm : Bool) (value : Nat)
  | check (addr lsb width : Nat) (signed event : Bool) (line lo hi : Nat)
  | move (dst : Nat) (copy : Bool) (mask data : Nat)
  | linktx (target template node : Nat)
  | estupd (string first count pass : Nat)
  | rank (string modules : Nat)
  | dispatch (step : Nat)
  | select (string module : Nat)
deriving DecidableEq, Repr

/-- A slot that comes due: its lane, its word's index in the lane's partition and its table's level (0 cycle, 1 round, 2 frame); whether
the word reads with an uncorrectable error, or finds its resource still busy with an earlier slot (R72); how many of its results it has written
when its resource is stopped at the end of the budget, if it is (R58); and, under the built-in schedule, whose words stand in no store, the
slot itself (R73). -/
structure Slot where
  lane : Fin 6
  word : Nat
  level : Fin 3
  ecc : Bool
  busy : Bool
  stop : Option Nat
  rom : Option SlotOp
deriving DecidableEq, Repr

/-- How a long operation meets the attic: a write verify that fails, whether that is while the journal is written, and the addresses of
words whose attic read is uncorrectable. -/
structure OpEnd where
  verifyBad : Bool
  inJournal : Bool
  badWords : List Nat
deriving DecidableEq, Repr

/-- A frame of the plant ring (R459, Tables 3 and 4): the header's fields and the payload words. -/
structure RingFrame where
  typ : Nat
  turned : Bool
  bc : Bool
  hops : Nat
  src : Nat
  unasg : Bool
  dst : Nat
  tag : Nat
  rcount : Nat
  claimed : Bool
  outcome : Nat
  addr : Nat
  payload : List Nat
deriving DecidableEq, Repr

/-- The swaps of R442. -/
inductive PdSwap where
  | power
  | data
  | vconn
deriving DecidableEq, Repr

/-- A Power Delivery message on SOP (R427, R438): data objects and VDM words as 32-bit numbers. -/
inductive PdMsg where
  | accept
  | reject
  | wait
  | psRdy
  | softReset
  | hardReset
  | getSourceCap
  | getSinkCap
  | sourceCaps (pdos : List Nat)
  | sinkCaps (pdos : List Nat)
  | request (rdo : Nat)
  | swap (k : PdSwap)
  | frSwap
  | getStatus
  | status
  | vdm (words : List Nat)
  | notSupported
  | unsupported
deriving DecidableEq, Repr


/-- The host bytes of a frame between its CMD and device number and its CRC (R412, Table 1), and the CRC byte: CMD [4:0], BST, ADDR, the LEN byte
where BST = 1, the data words sent; words beyond LEN are bytes beyond the frame, and with fewer the frame has no CRC byte. -/
structure HostFrame where
  low : BitVec 5
  bst : Bool
  addr : BitVec 24
  len : BitVec 8
  data : List Word
  crc : BitVec 8
deriving DecidableEq, Repr

/-- How a transfer of the I²C controller ends (R424): done, a NACK of the address or of a data byte, arbitration lost, bus stuck. -/
inductive I2ccEnd where
  | ok
  | addrNack
  | dataNack (byte : Fin 32)
  | arbLost
  | stuck
deriving DecidableEq, Repr

/-- What a feed's monitors read at a cycle marker (R306): V_DS and V_GS, 8 bits of 0.3125 V. -/
structure FetSense where
  vds : Nat
  vgs : Nat
deriving DecidableEq, Repr

/-- The commands of the block: one constructor per row of spec/opcode_table.json, in the table's order. -/
inductive Instr where
  /-- BIAS_SOURCE_CHANGE (R509). The bias sources now present. -/
  | biasSourceChange (vib startUp vbus : Bool)
  /-- BIAS_LOST (R509). The bias sources still present. -/
  | biasLost (vib startUp vbus : Bool)
  /-- BIAS_GOOD (R488). The bias sources now present. -/
  | biasGood (vib startUp vbus : Bool)
  /-- CELLAR_POWER_ON (R377). -/
  | cellarPowerOn
  /-- DEVICE_RESET_RELEASE (R489). The strap levels, whether a write of the journal's replay fails its verify, and whether a read of the
  journal is uncorrectable. -/
  | deviceResetRelease (addr : Fin 8) (head img verifyBad readBad : Bool)
  /-- RESETIN_N_ASSERT (R488). -/
  | resetinNAssert
  /-- DEV_RESET (R488). -/
  | devReset (m : Master) (key : BitVec 16)
  /-- MODEREQ_RUN (R486). A request that loses to an earlier entry of R487 is superseded; badA and badB are the banks with an uncorrectable
  attic read. -/
  | modereqRun (m : Master) (key : BitVec 16) (superseded badA badB : Bool)
  /-- MODEREQ_SAFE (R486). -/
  | modereqSafe (m : Master) (key : BitVec 16) (superseded : Bool)
  /-- MODEREQ_SERVICE (R486). -/
  | modereqService (m : Master) (key : BitVec 16) (superseded : Bool)
  /-- MODEREQ_HIBERNATE (R495). -/
  | modereqHibernate (m : Master) (key : BitVec 16) (superseded : Bool)
  /-- MODEREQ_OFF (R486). -/
  | modereqOff (m : Master) (key : BitVec 16) (superseded : Bool)
  /-- POWERCYCLE (R499). -/
  | powercycle (m : Master) (key tOff : BitVec 16)
  /-- POWERCYCLE_OFF_EXPIRE (R499). -/
  | powercycleOffExpire
  /-- CELLAR_ON_REQUEST (R488). A wake source in the bits of CELLAR.WAKESRC, or an on request armed in the fall. -/
  | cellarOnRequest (src : Option (Fin 7))
  /-- FALL_COMPLETE (R499). -/
  | fallComplete
  /-- PLL_LOCK (R489). Whether the ring reference is external. -/
  | pllLock (ext : Bool)
  /-- START_UP_CALIBRATION_DONE (R123). What the calibrations of the five slices of ADCA to ADCD measured. -/
  | startUpCalibrationDone (a b c d : List CalMeas)
  /-- IMAGE_SELECTION (R492). The banks with an uncorrectable attic read. -/
  | imageSelection (badA badB : Bool)
  /-- PRELOAD_APPLY (R88). -/
  | preloadApply
  /-- RISE_END (R490). -/
  | riseEnd
  /-- RAIL_START_HOLD_END (R491). -/
  | railStartHoldEnd
  /-- WAKE (R496). The wake source, in the bits of CELLAR.WAKESRC. -/
  | wake (src : Fin 7)
  /-- STOP_AUTO_RESTART (R498). -/
  | stopAutoRestart
  /-- THERMAL_RELEASE (R352). -/
  | thermalRelease
  /-- REGISTER_WRITE (R32). -/
  | registerWrite (m : Master) (addr : BitVec 24) (v : Word)
  /-- MEMORY_WRITE (R29). -/
  | memoryWrite (m : Master) (addr : BitVec 24) (v : Word)
  /-- ATTIC_DIRECT_WRITE (R29). -/
  | atticDirectWrite (m : Master) (addr : BitVec 24) (v : Word)
  /-- UNMAPPED_ACCESS (R30). A write of a word, or a read. -/
  | unmappedAccess (m : Master) (addr : BitVec 24) (w : Option Word)
  /-- STATUS_W1C (R37). The bits written 1, and those set in the same owner clock. -/
  | statusW1c (m : Master) (addr : BitVec 24) (clr sets : Word)
  /-- FUNCTION_RESET (R34). The ENABLE bit of the same write. -/
  | functionReset (m : Master) (pg : Fin 1024) (enable : Bool)
  /-- FUNCTION_RESET_DONE (R34). -/
  | functionResetDone (pg : Fin 1024)
  /-- ERR_INJ_WRITE (R372). -/
  | errInjWrite (m : Master) (pg : Fin 1024) (checker : BitVec 5) (count : BitVec 4)
  /-- LONGOP_COMPLETE (R46). -/
  | longopComplete (e : OpEnd)
  /-- CYCLE_MARKER (R50). Whether it comes at least 1 µs after the latest mode change; whether V_SNS of the input path stands at V_ILIM; the
  feeds' monitors from FEED0 on, feeds beyond the list reading as before. -/
  | cycleMarker (settled inLimit : Bool) (fets : List FetSense)
  /-- GUARD_MARKER (R51). -/
  | guardMarker
  /-- HIBERNATE_MARKER (R52). The RAIL lane's marker, or the GUARD lane's. -/
  | hibernateMarker (rail settled : Bool)
  /-- ROUND_BOUNDARY (R14). -/
  | roundBoundary
  /-- FRAME_BOUNDARY (R15). -/
  | frameBoundary
  /-- EPOCH_BOUNDARY (R468). What CORR of the head's EPOCH starts with, in ns: the time from the boundary to its SOF. -/
  | epochBoundary (corr : Nat)
  /-- SLOT_NOP (R94). -/
  | slotNop (x : Slot)
  /-- SLOT_END (R94). -/
  | slotEnd (x : Slot)
  /-- SLOT_WAIT (R55). -/
  | slotWait (x : Slot)
  /-- WAIT_EXPIRE (R55). -/
  | waitExpire (lane : Fin 6) (level : Fin 3)
  /-- MODEJUMP (R65). -/
  | modejump (x : Slot)
  /-- RDV_GIVE (R60). -/
  | rdvGive (x : Slot)
  /-- RDV_TAKE (R62). -/
  | rdvTake (x : Slot)
  /-- TRIGGER (R109). -/
  | trigger (x : Slot)
  /-- COMP (R237). -/
  | comp (x : Slot)
  /-- PWMLOAD (R94). -/
  | pwmload (x : Slot)
  /-- CHECK (R94). -/
  | check (x : Slot)
  /-- MOVE (R94). -/
  | move (x : Slot)
  /-- LINKTX (R157). -/
  | linktx (x : Slot)
  /-- LINKTX_RING (R478). -/
  | linktxRing (x : Slot)
  /-- ESTUPD (R202). -/
  | estupd (x : Slot)
  /-- ESTUPD_DEMOD (R220). -/
  | estupdDemod (x : Slot)
  /-- RANK (R269). -/
  | rank (x : Slot)
  /-- DISPATCH_ROUND_STEP (R274). -/
  | dispatchRoundStep (x : Slot)
  /-- DISPATCH_FRAME_STEP (R270). -/
  | dispatchFrameStep (x : Slot)
  /-- SELECT (R253). -/
  | select (x : Slot)
  /-- SLOT_RESOURCE_FREE (R58). Clocks the resource took, and the budget of a built-in slot. -/
  | slotResourceFree (x : Slot) (used d : Nat)
  /-- SLOT_BUDGET_EXPIRE (R58). -/
  | slotBudgetExpire (x : Slot)
  /-- TABLE_CUT (R55). -/
  | tableCut (x : Slot)
  /-- LOCKSTEP_MISMATCH (R71). -/
  | lockstepMismatch (lane : Fin 6)
  /-- RELIGHT (R75). -/
  | relight (m : Master) (v : Word)
  /-- WARM_RELIGHT_COPY_DONE (R77). Whether the bank has an uncorrectable attic read. -/
  | warmRelightCopyDone (readBad : Bool)
  /-- COLD_RELIGHT_LOAD_DONE (R78). The banks with an uncorrectable attic read. -/
  | coldRelightLoadDone (badA badB : Bool)
  /-- SCHEDULE_STORE_WRITE (R81). -/
  | scheduleStoreWrite (m : Master) (addr : BitVec 24) (v : Word)
  /-- BUDGET_DATA_ACCESS (R56). A write of a word, or a read. -/
  | budgetDataAccess (m : Master) (w : Option Word)
  /-- IMAGE_SEGMENT (R98). -/
  | imageSegment (m : Master) (key : BitVec 16) (bank : BitVec 2)
  /-- IMAGE_SEAL (R98). -/
  | imageSeal (m : Master) (key : BitVec 16) (bank : BitVec 2)
  /-- IMAGE_ERASE (R98). -/
  | imageErase (m : Master) (key : BitVec 16) (bank : BitVec 2)
  /-- IMAGE_CHECK (R98). -/
  | imageCheck (m : Master) (key : BitVec 16) (bank : BitVec 2)
  /-- ATTIC_COMMIT (R102). -/
  | atticCommit (m : Master) (key : BitVec 16)
  /-- ATTIC_COMPARE (R101). -/
  | atticCompare (m : Master) (key : BitVec 16)
  /-- OCV_COMMIT (R193). -/
  | ocvCommit (m : Master) (key : BitVec 16) (set : BitVec 2)
  /-- OCV_RELOAD (R193). -/
  | ocvReload (m : Master) (key : BitVec 16) (set : BitVec 2)
  /-- OCV_CHECK (R193). -/
  | ocvCheck (m : Master) (key : BitVec 16) (set : BitVec 2)
  /-- OCV_SET_WRITE (R192). -/
  | ocvSetWrite (m : Master) (addr : BitVec 24) (v : Word)
  /-- SWTRIG (R112). -/
  | swtrig (m : Master) (bank : Fin 4) (seq : BitVec 2)
  /-- CONVERSION_RESULT (R110). The voltage at the slice's input in microvolts, as its corrected conversion takes it, the cycles since its
  sampling instant, and whether the released slice still made the conversion. -/
  | conversionResult (bank : Fin 4) (entry : Fin 16) (uv : Int) (ago : Nat) (onReleased : Bool)
  /-- SEQUENCE_DONE (R111). -/
  | sequenceDone (bank : Fin 4)
  /-- CAL_STEP (R119). -/
  | calStep (bank : Fin 4)
  /-- CAL_DONE (R121). What the calibration measured. -/
  | calDone (bank : Fin 4) (m : CalMeas)
  /-- CAL_SWEEP (R122). The BGEN bit of the same write. -/
  | calSweep (m : Master) (bank : Fin 4) (bgen : Bool)
  /-- FIFO_READ (R117). -/
  | fifoRead (m : Master) (bank : Fin 4)
  /-- FIFO_CLEAR (R117). The THR field of the same write. -/
  | fifoClear (m : Master) (bank : Fin 4) (thr : BitVec 7)
  /-- TRIP_COMPARATOR_TRIP (R131). The voltage at the input in microvolts, and the steps of 2 ns since the latest edge of each of its two kinds. -/
  | tripComparatorTrip (k : Fin 32) (uv : Int) (e0 e1 : Option Nat)
  /-- TRIP_COMPARATOR_RELEASE (R131). The voltage at the input in microvolts. -/
  | tripComparatorRelease (k : Fin 32) (uv : Int)
  /-- BLANKING_WINDOW_END (R132). -/
  | blankingWindowEnd (k : Fin 32)
  /-- HOLD_RELEASE (R134). -/
  | holdRelease (m : Master) (mask : Word)
  /-- WINDOW_TICK (R137). -/
  | windowTick
  /-- WINDOW_SAMPLE (R136). The voltage at the input in microvolts. -/
  | windowSample (n : Fin 16) (uv : Int)
  /-- WCAP_HI_READ (R140). -/
  | wcapHiRead (m : Master) (n : Fin 16)
  /-- LINK_ENUMERATE (R151). -/
  | linkEnumerate (m : Master) (n : Fin 16) (key : BitVec 16)
  /-- LINK_MEASURE (R153). -/
  | linkMeasure (m : Master) (n : Fin 16) (key : BitVec 16)
  /-- LINK_SEND (R163). -/
  | linkSend (m : Master) (n : Fin 16) (key : BitVec 16) (template : BitVec 5)
  /-- LINK_RETURN (R159). The pair, the LINK clocks since the SD end sent, the bytes from header byte 0 on, and whether a retry would fit the
  slot's budget. -/
  | linkReturn (n : Fin 16) (pairB : Bool) (rt : Nat) (bytes : List Byte) (fits : Bool)
  /-- RETURN_WINDOW_CLOSE (R158). Whether a retry fits the slot's budget. -/
  | returnWindowClose (n : Fin 16) (fits : Bool)
  /-- LINK_STALE (R162). -/
  | linkStale (n : Fin 16)
  /-- DESELECT_RETRY (R169). -/
  | deselectRetry (n : Fin 16)
  /-- SELOVR (R168). -/
  | selovr (m : Master) (n : Fin 16) (key : BitVec 16) (node : BitVec 6)
  /-- ACCUMULATION_STEP (R179). -/
  | accumulationStep
  /-- ISTR_READING (R182). -/
  | istrReading (n : Fin 16)
  /-- RECORD_WRITE (R204). -/
  | recordWrite (m : Master) (addr : BitVec 24) (v : Word)
  /-- STORE_ROOM_CLEAR_ALL (R207). -/
  | storeRoomClearAll (m : Master) (key : BitVec 16)
  /-- STORE_ROOM_CLEAR_STRING (R207). -/
  | storeRoomClearString (m : Master) (key : BitVec 16) (n : Fin 16)
  /-- TONE_START (R220). The other bits of the write of PERTn. -/
  | toneStart (m : Master) (n : Fin 16) (v : BitVec 31)
  /-- HEALTH_FLUSH (R227). -/
  | healthFlush (m : Master) (key : BitVec 16)
  /-- HEALTH_FLUSH_RETIRE (R227). -/
  | healthFlushRetire (m : Master) (key : BitVec 16) (string : Fin 16) (module : BitVec 6)
  /-- HOURLY_FLUSH (R227). -/
  | hourlyFlush
  /-- PERIOD_BOUNDARY (R245). The output, whether its pads mismatch, and for a rail what RAIL senses. -/
  | periodBoundary (u : Conv) (padsBad : Bool) (sense : RailSense)
  /-- HICCUP_END (R250). -/
  | hiccupEnd (n : Fin 16)
  /-- CHANNEL_SENSE_LOSS (R233). -/
  | channelSenseLoss (n : Fin 16)
  /-- SOFT_START_DONE (R243). -/
  | softStartDone (n : Fin 16)
  /-- STOP_CHECK (R244). -/
  | stopCheck (n : Fin 16)
  /-- INSTANT_NOTICE (R246). LOOP clocks after the cycle marker; for a BURST ARM its DELAY. -/
  | instantNotice (n : Fin 16) (clocks : Nat) (burst : Option Nat)
  /-- SELECT_POLL (R253). -/
  | selectPoll (n : Fin 16)
  /-- SELECT_OPEN_TIMEOUT (R254). -/
  | selectOpenTimeout (n : Fin 16)
  /-- SELECT_CLOSE_TIMEOUT (R254). -/
  | selectCloseTimeout (n : Fin 16)
  /-- SELECT_VERIFY_TIMEOUT (R254). -/
  | selectVerifyTimeout (n : Fin 16)
  /-- INPATH_RESULT (R260). 0 IN_CS, 1 IN_VS, 2 VHB. -/
  | inpathResult (which : Fin 3)
  /-- INPATH_SENSE_LOSS (R260). -/
  | inpathSenseLoss
  /-- INPATH_GATE_ENHANCED (R261). -/
  | inpathGateEnhanced
  /-- INPATH_START_TIMEOUT (R261). -/
  | inpathStartTimeout
  /-- INPATH_REVERSE_BLOCK (R262). The time since the last cycle marker in 2.5 ns. -/
  | inpathReverseBlock (after : Nat)
  /-- INPATH_CURRENT_LIMIT (R261). -/
  | inpathCurrentLimit
  /-- INPATH_FAST_TRIP (R265). -/
  | inpathFastTrip
  /-- INPATH_UVOV_RECOVER (R263). -/
  | inpathUvovRecover
  /-- INPATH_TIMED_TRIP (R265). -/
  | inpathTimedTrip
  /-- INPATH_RETRY (R265). -/
  | inpathRetry
  /-- INPATH_CONSEC_RESET (R265). -/
  | inpathConsecReset
  /-- INPUT_LOSS (R281). -/
  | inputLoss
  /-- RETURN_OK (R290). -/
  | returnOk
  /-- RSHED_ROUNDS (R289). -/
  | rshedRounds
  /-- RSHED_RESTORE (R289). -/
  | rshedRestore
  /-- PACK_PRESENCE (R300). Whether PACK_DET_N has been low for 50 ms. -/
  | packPresence (det : Bool)
  /-- PACK_PRECHARGE_TIMEOUT (R299). -/
  | packPrechargeTimeout
  /-- PACK_TERMINATION (R299). -/
  | packTermination
  /-- PACK_SAFETY_TIMEOUT (R302). -/
  | packSafetyTimeout
  /-- PACK_TOLATCH_CLEAR (R304). -/
  | packTolatchClear (m : Master) (key : BitVec 16)
  /-- PACK_RESTART (R304). -/
  | packRestart (m : Master) (key : BitVec 16)
  /-- PACK_HOLD (R304). -/
  | packHold (m : Master) (key : BitVec 16)
  /-- PACK_HICCUP_END (R297). -/
  | packHiccupEnd
  /-- PACK_SENSE_LOSS (R293). -/
  | packSenseLoss
  /-- FEED_CURRENT_RESULT (R306). -/
  | feedCurrentResult (n : Fin 8)
  /-- FEED_TIMED_TRIP (R311). -/
  | feedTimedTrip (n : Fin 8)
  /-- FEED_SENSE_LOSS (R306). -/
  | feedSenseLoss (n : Fin 8)
  /-- FEED_SEAT_CONFIRM (R308). -/
  | feedSeatConfirm (n : Fin 8)
  /-- FEED_SEAT_REMOVE (R308). -/
  | feedSeatRemove (n : Fin 8)
  /-- FEED_START (R309). -/
  | feedStart (n : Fin 8)
  /-- FEED_POWER_GOOD (R310). -/
  | feedPowerGood (n : Fin 8)
  /-- FEED_START_TIMEOUT (R311). -/
  | feedStartTimeout (n : Fin 8)
  /-- FEED_RETRY (R313). -/
  | feedRetry (n : Fin 8)
  /-- FEED_GOOD_TIMER (R313). -/
  | feedGoodTimer (n : Fin 8)
  /-- FEED_SHED (R314). -/
  | feedShed
  /-- FEEDS_CLEAR_LOCKED (R316). -/
  | feedsClearLocked (m : Master) (key : BitVec 16) (mask : BitVec 8)
  /-- FEEDS_RESTART (R307). -/
  | feedsRestart (m : Master) (key : BitVec 16) (mask : BitVec 8)
  /-- SUPERVISOR_JUDGEMENT (R319). Rails 0 to 14, 15 for VHB; the voltage in µV at the sense (an external rail: at EXTn_SNS) whose condition
  has held for T_DG. -/
  | supervisorJudgement (r : Fin 16) (uv : Nat)
  /-- SEQ_SLOT_BEGIN (R329). -/
  | seqSlotBegin
  /-- RAIL_DELAY_EXPIRE (R329). -/
  | railDelayExpire (r : Fin 15)
  /-- RAIL_RAMP_END (R330). -/
  | railRampEnd (r : Fin 15)
  /-- RAIL_POWER_GOOD (R331). -/
  | railPowerGood (r : Fin 15)
  /-- RAIL_RISE_TIMEOUT (R331). -/
  | railRiseTimeout (r : Fin 15)
  /-- FALL_SLOT (R332). -/
  | fallSlot
  /-- RAIL_FALL_TIMEOUT (R333). -/
  | railFallTimeout (r : Fin 15)
  /-- OFF_MIN_WAIT_END (R336). -/
  | offMinWaitEnd
  /-- RESET_OUTPUT_RELEASE (R337). -/
  | resetOutputRelease (g : Fin 4)
  /-- NATIVE_FALLBACK (R320). The IBC, a POL or an LDO. -/
  | nativeFallback (r : Fin 7)
  /-- RAIL_HICCUP_END (R323). Rails 0 to 14, 15 for SVC. -/
  | railHiccupEnd (r : Fin 16)
  /-- SVC_TARGET (R339). 10 mV and mA. -/
  | svcTarget (v amps : BitVec 16)
  /-- SENSOR_RESULT (R345). The entry of ADCD whose result is taken. -/
  | sensorResult (table : Fin 4) (entry : Fin 16)
  /-- READING_STALE (R347). 0 to 11 die sensors, 12 to 19 AUX inputs. -/
  | readingStale (r : Fin 20)
  /-- THERM_STEP (R349). -/
  | thermStep (m : Master)
  /-- THERM_AUTOSTEP (R349). -/
  | thermAutostep
  /-- THERMAL_SHUTDOWN (R351). -/
  | thermalShutdown (k : Fin 12)
  /-- CLOCK_MONITOR (R9). Bit 0 the reference, bits 1 to 6 the islands: off by more than 2 %, or without a clock. -/
  | clockMonitor (off stopped : BitVec 7)
  /-- ERROR_LINE_PULSE (R357). The sources whose lines pulse in one GUARD clock. -/
  | errorLinePulse (sources : List (Fin 64))
  /-- ERROR_LINE_DISAGREE (R357). -/
  | errorLineDisagree (k : Fin 64)
  /-- REACTION_END (R367). -/
  | reactionEnd
  /-- SNUFF_READBACK (R364). The PAD codes of the pads that are not at their safe-state level. -/
  | snuffReadback (bad : List (Fin 128))
  /-- FAULT_STATUS_CLEAR (R371). The status word, the bits written 1, and the sources that pulse in the same clock. -/
  | faultStatusClear (m : Master) (hi : Bool) (v : Word) (sources : List (Fin 64))
  /-- RAISE_SET (R376). -/
  | raiseSet (m : Master) (mask : BitVec 7)
  /-- RAISE_CLEAR (R376). -/
  | raiseClear (m : Master) (mask : BitVec 7)
  /-- FAULT_CFG_LOCK (R360). The other bits of the write of CFG. -/
  | faultCfgLock (m : Master) (rest : BitVec 31)
  /-- CLASS_WRITE (R360). -/
  | classWrite (m : Master) (j : Fin 8) (v : Word)
  /-- FAULT_LOG_WRITE (R375). -/
  | faultLogWrite
  /-- RTC_TICK (R380). The level of the PWRON pad. -/
  | rtcTick (padHigh : Bool)
  /-- CRYSTAL_STOP (R379). -/
  | crystalStop
  /-- CRYSTAL_RETURN (R379). -/
  | crystalReturn
  /-- RTC_TICK_LO_READ (R381). -/
  | rtcTickLoRead (m : Master)
  /-- RTC_TICK_HI_READ (R381). -/
  | rtcTickHiRead (m : Master)
  /-- RTC_FREEZE_TIMEOUT (R381). -/
  | rtcFreezeTimeout (m : Master)
  /-- RTC_SET (R382). -/
  | rtcSet (m : Master) (key : BitVec 16)
  /-- RTC_SET_LOAD (R382). -/
  | rtcSetLoad
  /-- PWRON_SET (R387). -/
  | pwronSet (m : Master)
  /-- PWRON_RELEASE (R387). The SET bit of the same write. -/
  | pwronRelease (m : Master) (set : Bool)
  /-- WDOG_CFG_WRITE (R388). -/
  | wdogCfgWrite (m : Master) (v : Word)
  /-- WDOG_CHECKIN (R390). The count of the window at the write. -/
  | wdogCheckin (m : Master) (mask count : BitVec 16)
  /-- WDOG_SERVICE (R391). The count of the window at the write. -/
  | wdogService (m : Master) (v : Word) (count : BitVec 16)
  /-- WDOG_WARN (R391). -/
  | wdogWarn
  /-- WDOG_CLOSE (R391). -/
  | wdogClose
  /-- MUTUAL_CLOCK_FAIL (R393). The GUARD RC, or the cellar clock. -/
  | mutualClockFail (guardRc : Bool)
  /-- EVENT_RECORD (R399). -/
  | eventRecord
  /-- RPTR_WRITE (R403). -/
  | rptrWrite (m : Master) (shelfB : Bool) (v : Word)
  /-- DONE_WRITE (R407). -/
  | doneWrite (m : Master) (src : BitVec 10)
  /-- IRQ_MODERATION_EXPIRE (R404). -/
  | irqModerationExpire (shelfB : Bool)
  /-- HOST_IDLE (R404). -/
  | hostIdle (shelfB : Bool)
  /-- SPI_LOCAL_WRITE (R414). -/
  | spiLocalWrite (f : HostFrame)
  /-- SPI_LOCAL_READ (R415). -/
  | spiLocalRead (f : HostFrame)
  /-- SPI_REMOTE_WRITE (R416). -/
  | spiRemoteWrite (dev : BitVec 16) (f : HostFrame)
  /-- SPI_REMOTE_READ (R416). -/
  | spiRemoteRead (dev : BitVec 16) (f : HostFrame)
  /-- SPI_ABORT (R414). -/
  | spiAbort
  /-- I2C_WRITE (R420). The command byte's low bits, a remote command's device number, and the bytes after the address up to P. -/
  | i2cWrite (low : BitVec 6) (dev : Option (BitVec 16)) (addr : BitVec 24) (data : List (BitVec 8))
  /-- I2C_LOCAL_READ (R420). The address and LEN byte of the read command, and how many bytes the host takes when not all. -/
  | i2cLocalRead (cmd : Option (BitVec 24 × BitVec 8)) (take : Option Nat)
  /-- I2C_REMOTE_READ (R420). -/
  | i2cRemoteRead (dev : BitVec 16) (addr : BitVec 24) (len : BitVec 8)
  /-- I2C_TIMEOUT (R420). -/
  | i2cTimeout
  /-- HOST_NOTIFY_REPEAT (R421). Whether the message got through. -/
  | hostNotifyRepeat (shelfB ok : Bool)
  /-- I2C_WAKE_MATCH (R422). -/
  | i2cWakeMatch
  /-- I2C_WAKE_TIMEOUT (R422). -/
  | i2cWakeTimeout
  /-- I2CC_GO (R423). The other fields of the write of XFER. -/
  | i2ccGo (m : Master) (v : BitVec 30)
  /-- I2CC_CLEAR (R424). The other fields of the write of XFER. -/
  | i2ccClear (m : Master) (v : BitVec 30)
  /-- I2CC_DONE (R424). Whether the bus check cleared the bus, how the transfer ends, and the bytes read. -/
  | i2ccDone (cleared : Bool) (e : I2ccEnd) (rx : List (BitVec 8))
  /-- I2CC_STRETCH_TIMEOUT (R424). -/
  | i2ccStretchTimeout
  /-- DEBUG_LINK_FRAME (R452). -/
  | debugLinkFrame (w : Bool) (dev : Option (BitVec 16)) (f : HostFrame)
  /-- TYPEC_TOGGLE (R430). -/
  | typecToggle
  /-- TYPEC_ATTACH (R430). The CC pin, the Rp seen, VBUS in 10 mV, and whether it began on the dead-battery Rd. -/
  | typecAttach (cc2 : Bool) (rp : Fin 3) (v : BitVec 12) (dead : Bool)
  /-- TRY_SNK_EXPIRE (R430). -/
  | trySnkExpire
  /-- TYPEC_DETACH (R430). -/
  | typecDetach (vbusLost : Bool)
  /-- ACCESSORY (R431). -/
  | accessory
  /-- VCONN_OVERCURRENT (R432). -/
  | vconnOvercurrent
  /-- TYPEC_ERROR_RECOVERY (R433). -/
  | typecErrorRecovery (m : Master) (key : BitVec 16)
  /-- ERROR_RECOVERY_END (R433). -/
  | errorRecoveryEnd
  /-- PD_SOURCE_CAPS_SEND (R439). Whether a GoodCRC answers. -/
  | pdSourceCapsSend (acked : Bool)
  /-- PD_SOURCE_CAPS_RX (R440). The PDOs, and whether the message's CRC is good. -/
  | pdSourceCapsRx (caps : List Word) (good : Bool)
  /-- PD_REQUEST_RX (R439). -/
  | pdRequestRx (rdo : Word) (good : Bool)
  /-- PD_PS_RDY_SEND (R441). -/
  | pdPsRdySend
  /-- PD_GOODCRC_TIMEOUT (R438). -/
  | pdGoodcrcTimeout
  /-- PD_SWAP_RX (R442). Whether VCONN_IN is above 4.75 V. -/
  | pdSwapRx (k : PdSwap) (vconnIn good : Bool)
  /-- PD_SWAP_TIMEOUT (R444). -/
  | pdSwapTimeout
  /-- PD_RENEGOTIATE (R454). -/
  | pdRenegotiate (m : Master) (key : BitVec 16)
  /-- PD_PR_SWAP (R444). -/
  | pdPrSwap (m : Master) (key : BitVec 16)
  /-- PD_DR_SWAP (R442). -/
  | pdDrSwap (m : Master) (key : BitVec 16)
  /-- PD_VCONN_SWAP (R442). -/
  | pdVconnSwap (m : Master) (key : BitVec 16)
  /-- PD_HARD_RESET_CMD (R445). -/
  | pdHardResetCmd (m : Master) (key : BitVec 16)
  /-- PD_SEND_VDM (R450). -/
  | pdSendVdm (m : Master) (key : BitVec 16)
  /-- PD_GET_STATUS (R454). -/
  | pdGetStatus (m : Master) (key : BitVec 16)
  /-- PD_HARD_RESET (R445). -/
  | pdHardReset
  /-- PD_HARD_RESET_VBUS_TIMEOUT (R445). -/
  | pdHardResetVbusTimeout
  /-- PD_FRS_SIGNAL (R447). -/
  | pdFrsSignal
  /-- PD_FRS_ACCEPT_TIMEOUT (R447). -/
  | pdFrsAcceptTimeout
  /-- SRC_OK_FALL (R449). -/
  | srcOkFall
  /-- PD_VDM_RX (R450). -/
  | pdVdmRx (words : List Word) (good : Bool)
  /-- PD_VDM_ANSWER_TIMEOUT (R450). -/
  | pdVdmAnswerTimeout
  /-- LANTERN_COMMAND (R451). -/
  | lanternCommand (words : List Word) (good : Bool)
  /-- RING_FRAME_RX (R460). The port, the frame, its CRC-32 and end marker, the plant time counter at its SOF, and its residence in 0.25 ns. -/
  | ringFrameRx (west : Bool) (f : RingFrame) (crc : BitVec 32) (eofb : Bool) (ns res : Nat)
  /-- REMOTE_READ_TIMEOUT (R476). -/
  | remoteReadTimeout (tag : BitVec 8)
  /-- ORDERED_SET_RX (R461). The port, the set, its CHK, and the time of R470 in 0.25 ns. -/
  | orderedSetRx (west : Bool) (otype b1 b2 b3 chk : BitVec 8) (rt : Nat)
  /-- SNUFF_REPEAT (R479). -/
  | snuffRepeat
  /-- RING_SNUFF_CMD (R479). -/
  | ringSnuffCmd (m : Master) (key : BitVec 16)
  /-- RING_PORT_DOWN (R462). -/
  | ringPortDown (west : Bool)
  /-- RING_PORT_UP (R462). -/
  | ringPortUp (west : Bool)
  /-- RFAULT_REPEAT (R462). -/
  | rfaultRepeat (west : Bool)
  /-- RING_QUIET (R462). -/
  | ringQuiet (west : Bool)
  /-- RING_HEAL (R465). -/
  | ringHeal
  /-- RING_ENUMERATE (R466). -/
  | ringEnumerate (m : Master) (key : BitVec 16)
  /-- RING_ENUM_STEP_TIMEOUT (R466). -/
  | ringEnumStepTimeout
  /-- DELAY_PROBE (R470). -/
  | delayProbe (west : Bool)
  /-- RING_REMEASURE (R470). -/
  | ringRemeasure (m : Master) (key : BitVec 16)
  /-- PILOT_SEND (R474). -/
  | pilotSend
  /-- PILOT_LOSS (R474). -/
  | pilotLoss
  /-- SUMMARY_SEND (R480). -/
  | summarySend
  /-- SUMMARY_DEADLINE (R481). -/
  | summaryDeadline
  /-- RING_WAKE_BURST (R482). -/
  | ringWakeBurst (m : Master) (key : BitVec 16)
  /-- EPSET_LOAD (R473). -/
  | epsetLoad (m : Master) (key : BitVec 16)
  /-- PD_MESSAGE_RX (R438). -/
  | pdMessageRx (x : PdMsg) (good : Bool)
  /-- PD_RESPONSE_TIMEOUT (R438). -/
  | pdResponseTimeout
  /-- PD_HARD_RESET_TIMER (R445). -/
  | pdHardResetTimer
  /-- VBUS_SAFE0V (R444). VBUS in 10 mV. -/
  | vbusSafe0v (v : BitVec 12)
  /-- VBUS_OVERVOLTAGE (R453). VBUS in 10 mV. -/
  | vbusOvervoltage (v : BitVec 12)
  /-- VDDIO_BANK_CHANGE (R503). -/
  | vddioBankChange (bank : Fin 5) (low : Bool)
  /-- TEST_ASSERT (R505). TEST goes high or falls. -/
  | testAssert (high : Bool)
  /-- JTAG_INSTRUCTION (R505). 0 BYPASS, 1 SAMPLE/PRELOAD, 2 EXTEST, 3 IDCODE. -/
  | jtagInstruction (instr : Fin 4)
deriving DecidableEq, Repr

end Sys2Proof
end

