-- ==== Sys2Proof/Decode.lean ====
section
/-! DEFINITION. The words of commands.  spec/opcode_table.json gives no row any bit: the block takes commands, and no word
spells one, so the table word reader answers none on every word. -/

namespace Sys2Proof

/-- The command that a table word spells: none, since no row of the table has bits. -/
def decodeTableWord (_nbits _w : Nat) : Option Instr := none

end Sys2Proof
end

