-- ==== Sys2Proof/Machine/Regs.lean ====
section
/-! DEFINITION. The register map: one row per register of the page maps of the spec (the page map
and field tables of chapters 02 to 22), with its offset, the bits a write stores, the bits a write of 1
clears, its reset values and its reset domain. Page numbers are those of R31, Table 3. -/

namespace Sys2Proof.Machine

/-- The reset domain of a register: device reset, function reset, cellar power-on, or a live value (R33, R34). -/
inductive Dom where
  | dr
  | fr
  | por
  | live
deriving DecidableEq, Repr

/-- One row of a page map.  `rw` holds the bits a write stores, `w1c` those a write of 1 clears; a register
repeated `count` times stands every `stride` bytes; `resets` holds one value, or one per copy. -/
structure RegInfo where
  off : Nat
  stride : Nat
  count : Nat
  rw : Nat
  w1c : Nat
  resets : List Nat
  dom : Dom
  lck : Bool
deriving DecidableEq, Repr

abbrev PG_DEV : Nat := 0
abbrev PG_LAMP : Nat := 1
abbrev PG_IMAGE : Nat := 2
abbrev PG_ATTIC : Nat := 3
abbrev PG_ADC : Nat := 4
abbrev PG_CMP : Nat := 8
abbrev PG_SLINK : Nat := 0x10
abbrev PG_EST : Nat := 0x20
abbrev PG_OCV : Nat := 0x21
abbrev PG_HEALTH : Nat := 0x22
abbrev PG_BAL : Nat := 0x30
abbrev PG_DISPATCH : Nat := 0x40
abbrev PG_INPATH : Nat := 0x41
abbrev PG_PACK : Nat := 0x42
abbrev PG_FEEDS : Nat := 0x43
abbrev PG_SVC : Nat := 0x44
abbrev PG_IBC : Nat := 0x48
abbrev PG_POL : Nat := 0x49
abbrev PG_LDO : Nat := 0x4d
abbrev PG_SEQ : Nat := 0x4e
abbrev PG_THERM : Nat := 0x4f
abbrev PG_FAULT : Nat := 0x50
abbrev PG_WDOG : Nat := 0x51
abbrev PG_RTC : Nat := 0x52
abbrev PG_CELLAR : Nat := 0x53
abbrev PG_EVQ : Nat := 0x54
abbrev PG_SPI : Nat := 0x58
abbrev PG_I2CT : Nat := 0x59
abbrev PG_I2CC : Nat := 0x5a
abbrev PG_TYPEC : Nat := 0x5c
abbrev PG_PD : Nat := 0x5d
abbrev PG_RING : Nat := 0x60

/-- The block registers of the DEV page map. -/
def devRegs : List RegInfo := [
  ⟨0x40, 0, 1, 0, 0, [0x1640b100], .dr, false⟩,  -- PART
  ⟨0x44, 0, 1, 0, 0, [0], .dr, false⟩,  -- MODE
  ⟨0x48, 0, 1, 0, 0, [0], .dr, false⟩,  -- MODEREQ
  ⟨0x4c, 0, 1, 0, 0, [0], .dr, false⟩,  -- MODERES
  ⟨0x50, 0, 1, 0, 0, [0], .dr, false⟩,  -- RESET
  ⟨0x54, 0, 1, 0, 0, [0], .dr, false⟩,  -- POWERCYCLE
  ⟨0x58, 0, 1, 0xfff03, 0, [0x30a03], .dr, true⟩,  -- CFG
  ⟨0x5c, 0, 1, 0, 0, [0], .dr, false⟩,  -- BOOT
  ⟨0x60, 0, 1, 3, 0, [0], .por, false⟩,  -- BOOTSEL
  ⟨0x64, 0, 1, 0, 0, [0], .dr, false⟩,  -- BOOTCHK
  ⟨0x68, 0, 1, 0, 0, [0], .dr, false⟩,  -- LONGOP
  ⟨0x6c, 4, 3, 0, 0, [0], .dr, false⟩,  -- SEQCNT
  ⟨0x80, 0, 1, 0, 0, [0], .dr, false⟩,  -- RMT_STAT
  ⟨0x100, 4, 64, 0, 0, [0], .dr, false⟩]  -- RMT_RESULT

/-- The block registers of the LAMP page map. -/
def lampRegs : List RegInfo := [
  ⟨0x40, 0, 1, 0, 0, [0], .dr, false⟩,  -- TIMING
  ⟨0x44, 0, 1, 0, 0, [0x70], .dr, false⟩,  -- STATE
  ⟨0x48, 0, 1, 0, 0, [0], .live, false⟩,  -- POSITION
  ⟨0x4c, 0, 1, 0, 0, [0], .dr, false⟩,  -- FRAME
  ⟨0x50, 0, 1, 0, 0, [0], .dr, false⟩,  -- RELIGHT
  ⟨0x54, 0, 1, 0, 0, [0], .dr, false⟩,  -- RELIGHT_RES
  ⟨0x58, 0, 1, 0, 0, [0], .dr, false⟩,  -- OVR_INFO
  ⟨0x5c, 0, 1, 0, 0, [0], .dr, false⟩,  -- RDV_INFO
  ⟨0x60, 0, 1, 0, 0, [0], .dr, false⟩,  -- LOCK_INFO
  ⟨0x64, 0, 1, 0, 0, [0], .dr, false⟩,  -- DEC_INFO
  ⟨0x68, 0, 1, 0, 0, [0], .dr, false⟩,  -- COUNTS
  ⟨0x6c, 0, 1, 0, 0, [0], .dr, false⟩,  -- ALIGN
  ⟨0x70, 4, 6, 0, 0, [0xffffff], .dr, false⟩,  -- MARGIN
  ⟨0x88, 4, 6, 0, 0, [0], .dr, false⟩,  -- BASE
  ⟨0xa0, 0, 1, 0x80003fff, 0, [0], .dr, false⟩,  -- BUDGET_ADDR
  ⟨0xa4, 0, 1, 0, 0, [0], .dr, false⟩]  -- BUDGET_DATA

/-- The block registers of the IMAGE page map. -/
def imageRegs : List RegInfo := [
  ⟨0x40, 0, 1, 0, 0, [0], .dr, false⟩,  -- CMD
  ⟨0x44, 0, 1, 0x1ffff, 0, [0], .dr, false⟩,  -- SEG_OFS
  ⟨0x48, 0, 1, 0x3fff, 0, [0], .dr, false⟩,  -- SEG_LEN
  ⟨0x4c, 0, 1, 0, 0, [0], .dr, false⟩,  -- RESULT
  ⟨0x50, 0, 1, 0, 0, [0], .dr, false⟩,  -- BANKA
  ⟨0x54, 0, 1, 0, 0, [0], .dr, false⟩,  -- BANKA_SERIAL
  ⟨0x58, 0, 1, 0, 0, [0], .dr, false⟩,  -- BANKA_CRC
  ⟨0x5c, 0, 1, 0, 0, [0], .dr, false⟩,  -- BANKB
  ⟨0x60, 0, 1, 0, 0, [0], .dr, false⟩,  -- BANKB_SERIAL
  ⟨0x64, 0, 1, 0, 0, [0], .dr, false⟩,  -- BANKB_CRC
  ⟨0x68, 0, 1, 0, 0, [0], .dr, false⟩]  -- LIT_SERIAL

/-- The block registers of the ATTIC page map. -/
def atticRegs : List RegInfo := [
  ⟨0x40, 0, 1, 0, 0, [0], .dr, false⟩,  -- CMD
  ⟨0x44, 0, 1, 0xffff, 0, [0], .dr, false⟩,  -- SEG_OFS
  ⟨0x48, 0, 1, 0x3fff, 0, [0], .dr, false⟩,  -- SEG_LEN
  ⟨0x4c, 0, 1, 0, 0, [0], .dr, false⟩,  -- RESULT
  ⟨0x50, 0, 1, 0, 0, [0], .dr, false⟩]  -- JOURNAL

/-- The block registers of the ADC page map. -/
def adcRegs : List RegInfo := [
  ⟨0x40, 0, 1, 0, 0, [0x77777], .live, false⟩,  -- STATE
  ⟨0x44, 0, 1, 0, 0, [0x700], .dr, false⟩,  -- CAL
  ⟨0x48, 0, 1, 1, 0, [1], .dr, false⟩,  -- CAL_CTRL
  ⟨0x4c, 0, 1, 0x1f1f1f1f, 0, [0], .dr, true⟩,  -- SEQ_LEN
  ⟨0x50, 0, 1, 0, 0, [0], .dr, false⟩,  -- SWTRIG
  ⟨0x54, 0, 1, 0, 0, [0], .fr, false⟩,  -- FIFO_DATA
  ⟨0x58, 0, 1, 0, 0, [0], .fr, false⟩,  -- FIFO_STAT
  ⟨0x5c, 0, 1, 0x7f, 0, [0x20], .dr, true⟩,  -- FIFO_CFG
  ⟨0x60, 0, 1, 0, 0, [0], .live, false⟩,  -- LIMFLAG0
  ⟨0x64, 0, 1, 0, 0, [0], .live, false⟩,  -- LIMFLAG1
  ⟨0x68, 0, 1, 0, 0, [0], .live, false⟩,  -- COUNT
  ⟨0x70, 4, 5, 0, 0, [0], .dr, false⟩,  -- TRIM
  ⟨0x100, 8, 64, 0x1ffff73f, 0, [0], .dr, true⟩,  -- ENTRY_CFG
  ⟨0x104, 8, 64, 0xfff0fff, 0, [0], .dr, true⟩,  -- ENTRY_LIM
  ⟨0x300, 4, 64, 0, 0, [0x7000], .fr, false⟩]  -- RESULT

/-- The block registers of the CMP page map. -/
def cmpRegs : List RegInfo := [
  ⟨0x40, 4, 32, 0x1fffefff, 0, [0], .dr, true⟩,  -- TCFG
  ⟨0xc0, 0, 1, 0, 0, [0], .live, false⟩,  -- TSTATE
  ⟨0xc4, 0, 1, 0, 0xffffffff, [0], .fr, true⟩,  -- HOLD
  ⟨0x100, 4, 16, 0x3fff, 0, [0], .dr, true⟩,  -- WCFG
  ⟨0x140, 4, 16, 0x3ff03ff, 0, [0x3ff0000], .dr, true⟩,  -- WTHR
  ⟨0x180, 0, 1, 0x1ffff, 0, [0x10ccd], .dr, true⟩,  -- WTICK
  ⟨0x184, 0, 1, 0, 0, [0], .live, false⟩,  -- WSTATE
  ⟨0x188, 0, 1, 0, 0xffffffff, [0], .fr, false⟩,  -- WFLAG
  ⟨0x1c0, 8, 16, 0, 0, [0], .dr, false⟩,  -- WCAP_LO
  ⟨0x1c4, 8, 16, 0, 0, [0], .dr, false⟩]  -- WCAP_HI

/-- The block registers of the SLINK page map. -/
def slinkRegs : List RegInfo := [
  ⟨0x40, 0, 1, 0x33f, 0, [0x300], .dr, true⟩,  -- CFG
  ⟨0x44, 0, 1, 0x3ffffff, 0, [0x21407d0], .dr, true⟩,  -- TIMING
  ⟨0x48, 0, 1, 0xffffff, 0, [0x30014], .dr, true⟩,  -- STALE
  ⟨0x4c, 0, 1, 0, 0, [0], .dr, false⟩,  -- CMD
  ⟨0x50, 0, 1, 0, 0, [0x3f3f00], .live, false⟩,  -- STATE
  ⟨0x54, 0, 1, 0, 0, [0], .dr, false⟩,  -- ENUM_RES
  ⟨0x58, 0, 1, 0, 0, [0], .live, false⟩,  -- VALID0
  ⟨0x5c, 0, 1, 0, 0, [0], .live, false⟩,  -- VALID1
  ⟨0x60, 4, 3, 0, 0, [0xffffffff, 0xffffffff, 0x3ffff], .dr, false⟩,  -- SELMAP
  ⟨0x6c, 0, 1, 0, 0, [0], .dr, false⟩,  -- SELOVR
  ⟨0x70, 0, 1, 0, 0, [0], .dr, false⟩,  -- LOOPDLY
  ⟨0x74, 0, 1, 0, 0, [0], .dr, false⟩,  -- COUNTS
  ⟨0x78, 0, 1, 0, 0, [0], .dr, false⟩,  -- LASTERR
  ⟨0x80, 4, 32, 0xffe00fff, 0, [0], .dr, true⟩,  -- TPL_A
  ⟨0x100, 4, 32, 0xffffffff, 0, [0], .dr, true⟩,  -- TPL_B
  ⟨0x180, 4, 41, 0, 0, [0], .dr, false⟩]  -- DLY

/-- The block registers of the EST page map. -/
def estRegs : List RegInfo := [
  ⟨0x40, 0, 1, 0x3f, 0, [0x3f], .dr, true⟩,  -- CFG
  ⟨0x44, 0, 1, 0xffffffff, 0, [0xe100578], .dr, true⟩,  -- REST
  ⟨0x48, 0, 1, 0xffffffff, 0, [0x140003], .dr, true⟩,  -- VOLT
  ⟨0x4c, 0, 1, 0xffffffff, 0, [0x1900c8], .dr, true⟩,  -- SLOPE
  ⟨0x50, 0, 1, 0xff0fffff, 0, [0x800636b0], .dr, true⟩,  -- MODEL
  ⟨0x54, 0, 1, 0xffff, 0, [0xe10], .dr, true⟩,  -- CONFDEC
  ⟨0x58, 0, 1, 0xffff, 0, [0x3e8], .dr, true⟩,  -- BRANCH
  ⟨0x5c, 0, 1, 0xffffffff, 0, [0x31407d0], .dr, true⟩,  -- XCHK
  ⟨0x60, 0, 1, 0xff, 0, [0], .dr, true⟩,  -- ACC
  ⟨0x64, 0, 1, 0, 0, [0], .dr, false⟩,  -- CMD
  ⟨0x68, 0, 1, 0, 0, [0], .live, false⟩,  -- XSTAT
  ⟨0x6c, 0, 1, 0, 0, [0], .por, false⟩,  -- HIB_LO
  ⟨0x70, 0, 1, 0, 0, [0], .por, false⟩,  -- HIB_HI
  ⟨0x74, 0, 1, 0, 0, [0], .dr, false⟩,  -- LASTUPD
  ⟨0x78, 0, 1, 0, 0xffff, [0], .dr, false⟩,  -- CLEARED
  ⟨0x80, 4, 16, 0xffffe000, 0, [0], .dr, true⟩,  -- STRCFG
  ⟨0xc0, 4, 16, 0xffffffff, 0, [0], .dr, true⟩,  -- ISTRCAL
  ⟨0x100, 4, 16, 0xfc00ffff, 0, [0x5440, 0x4005460, 0x8005480, 0xc0054a0, 0x100054c0, 0x140054e0, 0x18005500, 0x1c005520, 0x20005540, 0x24005560, 0x28005580, 0x2c0055a0, 0x300055c0, 0x340055e0, 0x38005600, 0x3c005620], .dr, true⟩]  -- WINSRC

/-- The block registers of the OCV page map. -/
def ocvRegs : List RegInfo := [
  ⟨0x40, 0, 1, 0, 0, [0], .dr, false⟩,  -- CMD
  ⟨0x44, 0, 1, 0, 0, [0], .dr, false⟩,  -- RESULT
  ⟨0x48, 0, 1, 0, 0, [0], .dr, false⟩]  -- VALID

/-- The block registers of the HEALTH page map. -/
def healthRegs : List RegInfo := [
  ⟨0x40, 0, 1, 0xf, 0, [0xe], .dr, true⟩,  -- CFG
  ⟨0x44, 0, 1, 0xffffffff, 0, [0x9c407d0], .dr, true⟩,  -- REP
  ⟨0x48, 0, 1, 0xffffffff, 0, [0x143201f4], .dr, true⟩,  -- LIMIT
  ⟨0x4c, 0, 1, 0xffffffff, 0, [0x8ca001f4], .dr, true⟩,  -- FULL
  ⟨0x50, 0, 1, 0xffffffff, 0, [0x6d6001f4], .dr, true⟩,  -- EMPTY
  ⟨0x54, 0, 1, 0xffffffff, 0, [0x12c36b0], .dr, true⟩,  -- TAPER
  ⟨0x58, 0, 1, 0xffff, 0, [0x4e20], .dr, true⟩,  -- CAPUPD
  ⟨0x5c, 0, 1, 0xffffffff, 0, [0xa0100fa], .dr, true⟩,  -- DRIFT
  ⟨0x60, 0, 1, 0xffff, 0, [0x48], .dr, true⟩,  -- NOREST
  ⟨0x64, 0, 1, 0xfff0ffff, 0, [0x322007d0], .dr, true⟩,  -- PERT
  ⟨0x68, 0, 1, 0xffff, 0, [0x8040], .dr, true⟩,  -- CONFSTEP
  ⟨0x6c, 4, 3, 0xfff7ffff, 0, [0x64a02710, 0x525000a, 0x3160001], .dr, true⟩,  -- TONE
  ⟨0x78, 0, 1, 0, 0, [0], .dr, false⟩,  -- CMD
  ⟨0x7c, 0, 1, 0, 0, [0], .live, false⟩,  -- RESTREQ
  ⟨0x80, 0, 1, 0, 0, [0], .dr, false⟩,  -- FLUSHES
  ⟨0xc0, 4, 16, 0, 0, [0], .dr, false⟩,  -- ENDST
  ⟨0x100, 4, 16, 0, 0, [0], .dr, false⟩,  -- VEXT
  ⟨0x140, 4, 16, 0, 0, [0], .dr, false⟩,  -- LASTREST
  ⟨0x180, 4, 16, 0x3f3000, 0, [0], .dr, true⟩,  -- PERTN
  ⟨0x1c0, 4, 16, 0xffff, 0, [0], .dr, true⟩]  -- PBUF

/-- The block registers of the BAL page map. -/
def balRegs : List RegInfo := [
  ⟨0x40, 0, 1, 0x7b, 0, [0x79], .dr, true⟩,  -- CFG
  ⟨0x44, 0, 1, 0xffff, 0, [0], .dr, true⟩,  -- PSET
  ⟨0x48, 0, 1, 0xffffffff, 0, [0x753005dc], .dr, true⟩,  -- LIMIT
  ⟨0x4c, 0, 1, 0xffffffff, 0, [0x40004000], .dr, true⟩,  -- CLAMP
  ⟨0x50, 0, 1, 0xffff, 0, [0x800], .dr, true⟩,  -- DPHI
  ⟨0x54, 0, 1, 0xffffff, 0, [0], .dr, true⟩,  -- B0
  ⟨0x58, 0, 1, 0xffffff, 0, [0], .dr, true⟩,  -- B1
  ⟨0x5c, 0, 1, 0xffffff, 0, [0], .dr, true⟩,  -- B2
  ⟨0x60, 0, 1, 0xffffff, 0, [0], .dr, true⟩,  -- A1
  ⟨0x64, 0, 1, 0xffffff, 0, [0], .dr, true⟩,  -- A2
  ⟨0x68, 0, 1, 0xffff, 0, [0], .dr, true⟩,  -- KDAB
  ⟨0x6c, 0, 1, 0xffffffff, 0, [0xf333f333], .dr, true⟩,  -- ETA
  ⟨0x70, 0, 1, 0xffffffff, 0, [0], .dr, true⟩,  -- CSCAL
  ⟨0x74, 0, 1, 0xffffffff, 0, [0], .dr, true⟩,  -- VSCAL
  ⟨0x78, 0, 1, 0xffffffff, 0, [0], .dr, true⟩,  -- VHBCAL
  ⟨0x7c, 0, 1, 0xffffffff, 0, [0x10020014], .dr, true⟩,  -- SOFT
  ⟨0x80, 0, 1, 0xffffffff, 0, [0x80064], .dr, true⟩,  -- HICCUP
  ⟨0x84, 0, 1, 0xffffffff, 0, [0x461388], .dr, true⟩,  -- DROOP
  ⟨0x88, 0, 1, 0xffff, 0, [0x16a8], .dr, true⟩,  -- BUSLIM
  ⟨0x8c, 0, 1, 0xffffffff, 0, [0x96000a], .dr, true⟩,  -- SEL
  ⟨0x90, 0, 1, 0x13f, 0, [0], .dr, true⟩,  -- SELREQ
  ⟨0x94, 0, 1, 0, 0, [0], .dr, false⟩,  -- SELSTATE
  ⟨0x98, 0, 1, 0, 0, [0], .live, false⟩,  -- STATE
  ⟨0x9c, 0, 1, 0, 0, [0], .live, false⟩,  -- I_CS
  ⟨0xa0, 0, 1, 0, 0, [0], .live, false⟩,  -- VOLT
  ⟨0xa4, 0, 1, 0, 0, [0], .live, false⟩,  -- PHI
  ⟨0xa8, 0, 1, 0, 0, [0], .live, false⟩,  -- P_BUS
  ⟨0xac, 0, 1, 0, 0, [0], .fr, false⟩,  -- ROUNDQ
  ⟨0xb0, 0, 1, 0, 0, [0], .fr, false⟩,  -- EOUT
  ⟨0xb4, 0, 1, 0, 0, [0], .fr, false⟩,  -- EIN
  ⟨0xb8, 0, 1, 0, 0, [0], .fr, false⟩,  -- IMOD_TI
  ⟨0xbc, 0, 1, 0, 0, [0], .fr, false⟩,  -- PERTRES
  ⟨0xc0, 0, 1, 0, 0xffffffff, [0], .dr, false⟩,  -- EXCL0
  ⟨0xc4, 0, 1, 0, 0xff, [0], .dr, false⟩,  -- EXCL1
  ⟨0xc8, 0, 1, 0, 0, [0], .dr, false⟩]  -- COUNTS

/-- The block registers of the DISPATCH page map. -/
def dispatchRegs : List RegInfo := [
  ⟨0x40, 0, 1, 0x1f, 0, [0x1d], .dr, true⟩,  -- CFG
  ⟨0x44, 0, 1, 0xffffffff, 0, [0x2ee0012c], .dr, true⟩,  -- INPUT
  ⟨0x48, 0, 1, 0xffffffff, 0, [0x1f40c80a], .dr, true⟩,  -- SHARE
  ⟨0x4c, 0, 1, 0xffffff, 0, [0xfa1f4], .dr, true⟩,  -- BAND
  ⟨0x50, 0, 1, 0xffffffff, 0, [0x3e800fa], .dr, true⟩,  -- MARGIN
  ⟨0x54, 0, 1, 0xffffffff, 0, [0x8aac7530], .dr, true⟩,  -- VBAL
  ⟨0x58, 0, 1, 0xfffffff, 0, [0x33212c0], .dr, true⟩,  -- INREG
  ⟨0x5c, 0, 1, 0xffffffff, 0, [0x641401f4], .dr, true⟩,  -- STEPS
  ⟨0x60, 0, 1, 0xffffffff, 0, [0x138803e8], .dr, true⟩,  -- RESTORE
  ⟨0x64, 0, 1, 0xffffffff, 0, [0x7d003e8], .dr, true⟩,  -- SUPP
  ⟨0x68, 0, 1, 0, 0, [0], .live, false⟩,  -- LOAD
  ⟨0x6c, 0, 1, 0, 0, [0], .live, false⟩,  -- SOURCES
  ⟨0x70, 0, 1, 0, 0, [0], .live, false⟩,  -- CELLS
  ⟨0x74, 0, 1, 0, 0, [0], .live, false⟩,  -- INCAP
  ⟨0x78, 0, 1, 0, 0, [0], .live, false⟩,  -- SUPPLY
  ⟨0x7c, 0, 1, 0, 0, [0], .live, false⟩,  -- DIR
  ⟨0x80, 0, 1, 0, 0, [0], .dr, false⟩,  -- FRAMEST
  ⟨0xc0, 4, 16, 0, 0, [0], .dr, false⟩]  -- RANK

/-- The block registers of the INPATH page map. -/
def inpathRegs : List RegInfo := [
  ⟨0x40, 0, 1, 0x3ff3, 0, [0x3100], .dr, true⟩,  -- CFG
  ⟨0x44, 0, 1, 0xffffffff, 0, [0x17700e10], .dr, true⟩,  -- VWIN
  ⟨0x48, 0, 1, 0xffffffff, 0, [0x64c8c8], .dr, true⟩,  -- VHYS
  ⟨0x4c, 0, 1, 0x3ff03ff, 0, [0x19000fa], .dr, true⟩,  -- ILIM
  ⟨0x50, 0, 1, 0x3ff03ff, 0, [0x320014], .dr, true⟩,  -- DIODE
  ⟨0x54, 0, 1, 0xffffffff, 0, [0x6408fc], .dr, true⟩,  -- OC
  ⟨0x58, 0, 1, 0xffffffff, 0, [0x3e8000a], .dr, true⟩,  -- TIMES
  ⟨0x5c, 0, 1, 0xffff, 0, [0x4196], .dr, true⟩,  -- TFET
  ⟨0x60, 4, 3, 0xffffffff, 0, [0], .dr, true⟩,  -- FOSTER
  ⟨0x6c, 0, 1, 0xffffffff, 0, [0], .dr, true⟩,  -- CSCAL
  ⟨0x70, 0, 1, 0xffffffff, 0, [0], .dr, true⟩,  -- VSCAL
  ⟨0x74, 0, 1, 0x3ffff, 0, [0x81], .dr, true⟩,  -- SRC
  ⟨0x78, 0, 1, 0, 0, [0], .live, false⟩,  -- STATE
  ⟨0x7c, 0, 1, 0, 0, [0], .live, false⟩,  -- VOLT
  ⟨0x80, 0, 1, 0, 0, [0], .live, false⟩,  -- I_IN
  ⟨0x84, 0, 1, 0, 0, [0], .live, false⟩,  -- TJ
  ⟨0x88, 0, 1, 0, 0, [0], .fr, false⟩,  -- EIN
  ⟨0x8c, 0, 1, 0, 0, [0], .fr, false⟩,  -- VINAVG
  ⟨0x90, 0, 1, 0, 0, [0], .dr, false⟩]  -- COUNTS

/-- The block registers of the PACK page map. -/
def packRegs : List RegInfo := [
  ⟨0x40, 0, 1, 0xeff1f, 0, [0xe0110], .dr, true⟩,  -- CFG
  ⟨0x44, 0, 1, 0xffffffff, 0, [0xd7a0dde], .dr, true⟩,  -- VCELL0
  ⟨0x48, 0, 1, 0xffffffff, 0, [0xa8c0af0], .dr, true⟩,  -- VCELL1
  ⟨0x4c, 0, 1, 0xffffffff, 0, [0x640064], .dr, true⟩,  -- VCELL2
  ⟨0x50, 0, 1, 0xffffffff, 0, [0x7d01f40], .dr, true⟩,  -- ICHG
  ⟨0x54, 0, 1, 0xffffffff, 0, [0x3c1e0a], .dr, true⟩,  -- TERM
  ⟨0x58, 0, 1, 0xffff, 0, [0x168], .dr, true⟩,  -- SAFE
  ⟨0x5c, 0, 1, 0xffffffff, 0, [0x5f553228], .dr, true⟩,  -- ZONE
  ⟨0x60, 0, 1, 0xffffff, 0, [0x26414], .dr, true⟩,  -- ZLIM
  ⟨0x64, 0, 1, 0xffff, 0, [0x61a8], .dr, true⟩,  -- DIS
  ⟨0x68, 0, 1, 0xffffffff, 0, [0x14128e], .dr, true⟩,  -- PDROOP
  ⟨0x6c, 0, 1, 0xffffffff, 0, [0x1194125c], .dr, true⟩,  -- SAG
  ⟨0x70, 0, 1, 0xffffffff, 0, [0x320fa0], .dr, true⟩,  -- LOSS
  ⟨0x74, 0, 1, 0xffffffff, 0, [0x7d011f8], .dr, true⟩,  -- RETURN
  ⟨0x78, 0, 1, 0x3ffff, 0, [0x101f4], .dr, true⟩,  -- HANDBACK
  ⟨0x7c, 0, 1, 0xffffffff, 0, [0x1068122a], .dr, true⟩,  -- SHED
  ⟨0x80, 0, 1, 0xffffffff, 0, [0x321e12f2], .dr, true⟩,  -- UNSHED
  ⟨0x84, 0, 1, 0xffffff, 0, [0], .dr, true⟩,  -- B0
  ⟨0x88, 0, 1, 0xffffff, 0, [0], .dr, true⟩,  -- B1
  ⟨0x8c, 0, 1, 0xffffff, 0, [0], .dr, true⟩,  -- B2
  ⟨0x90, 0, 1, 0xffffff, 0, [0], .dr, true⟩,  -- A1
  ⟨0x94, 0, 1, 0xffffff, 0, [0], .dr, true⟩,  -- A2
  ⟨0x98, 0, 1, 0xffffff00, 0, [0xc80d00], .dr, true⟩,  -- LOOP
  ⟨0x9c, 0, 1, 0xffffffff, 0, [0], .dr, true⟩,  -- CSCAL
  ⟨0xa0, 0, 1, 0xffffffff, 0, [0], .dr, true⟩,  -- VSCAL
  ⟨0xa4, 0, 1, 0xffffffff, 0, [0xf333f333], .dr, true⟩,  -- ETA
  ⟨0xa8, 0, 1, 0xffffff, 0, [0x80064], .dr, true⟩,  -- HICCUP
  ⟨0xac, 0, 1, 0xffff, 0, [0xfa0], .dr, true⟩,  -- QNOM
  ⟨0xb0, 0, 1, 0, 0, [0], .dr, false⟩,  -- CMD
  ⟨0xb4, 0, 1, 0, 0, [0], .live, false⟩,  -- STATE
  ⟨0xb8, 0, 1, 0, 0, [0], .live, false⟩,  -- MEAS
  ⟨0xbc, 0, 1, 0, 0, [0], .live, false⟩,  -- I_PACK
  ⟨0xc0, 0, 1, 0, 0, [0], .live, false⟩,  -- T_PACK
  ⟨0xc4, 0, 1, 0, 0, [0], .live, false⟩,  -- TIMERS
  ⟨0xc8, 0, 1, 0, 0, [0], .fr, false⟩,  -- ROUNDQ
  ⟨0xcc, 0, 1, 0, 0, [0], .fr, false⟩,  -- EOUT
  ⟨0xd0, 0, 1, 0, 0, [0], .fr, false⟩,  -- EIN
  ⟨0xd4, 0, 1, 0, 0, [0], .dr, false⟩]  -- COUNTS

/-- The block registers of the FEEDS page map. -/
def feedsRegs : List RegInfo := [
  ⟨0x40, 0, 1, 0xff00fff0, 0, [0x64001400], .dr, true⟩,  -- GCFG
  ⟨0x44, 0, 1, 0xffffffff, 0, [0x7d003e8], .dr, true⟩,  -- RETRY
  ⟨0x48, 0, 1, 0xffffffff, 0, [0x3c0341], .dr, true⟩,  -- GOOD
  ⟨0x4c, 0, 1, 0xffff00ff, 0, [0xc80096], .dr, true⟩,  -- LIMITS
  ⟨0x50, 4, 3, 0xffffffff, 0, [0], .dr, true⟩,  -- FOSTER
  ⟨0x5c, 0, 1, 0x1ff, 0, [0], .dr, true⟩,  -- PGMAP
  ⟨0x60, 0, 1, 0, 0, [0], .dr, false⟩,  -- CMD
  ⟨0x64, 0, 1, 0, 0, [0], .live, false⟩,  -- LEVEL
  ⟨0x68, 0, 1, 0, 0, [0], .live, false⟩,  -- SUMMARY
  ⟨0x80, 32, 8, 0xffff3f01, 0, [0x3b011000, 0x3b011100, 0x3b011200, 0x3b011300, 0x3b011400, 0x3b011500, 0x3b011600, 0x3b011700], .dr, true⟩,  -- CFG
  ⟨0x84, 32, 8, 0xffffffff, 0, [0xc801f4], .dr, true⟩,  -- LIM
  ⟨0x88, 32, 8, 0xffffffff, 0, [0], .dr, true⟩,  -- CSCAL
  ⟨0x8c, 32, 8, 0, 0, [0], .live, false⟩,  -- STATE
  ⟨0x90, 32, 8, 0, 0, [0], .live, false⟩,  -- I
  ⟨0x94, 32, 8, 0, 0, [0], .live, false⟩,  -- TJ
  ⟨0x98, 32, 8, 0, 0, [0], .live, false⟩,  -- TIME
  ⟨0x9c, 32, 8, 0, 0, [0], .dr, false⟩]  -- COUNTS

/-- The block registers of the SVC page map. -/
def svcRegs : List RegInfo := [
  ⟨0x40, 0, 1, 7, 0, [1], .dr, true⟩,  -- CFG
  ⟨0x44, 0, 1, 0, 0, [0], .dr, false⟩,  -- TARGET
  ⟨0x48, 0, 1, 0xffff, 0, [0x19], .dr, true⟩,  -- SLEW
  ⟨0x4c, 0, 1, 0xffffff, 0, [0], .dr, true⟩,  -- B0
  ⟨0x50, 0, 1, 0xffffff, 0, [0], .dr, true⟩,  -- B1
  ⟨0x54, 0, 1, 0xffffff, 0, [0], .dr, true⟩,  -- B2
  ⟨0x58, 0, 1, 0xffffff, 0, [0], .dr, true⟩,  -- A1
  ⟨0x5c, 0, 1, 0xffffff, 0, [0], .dr, true⟩,  -- A2
  ⟨0x60, 0, 1, 0xffffffff, 0, [0], .dr, true⟩,  -- CSCAL
  ⟨0x64, 0, 1, 0xffffffff, 0, [0], .dr, true⟩,  -- VSCAL
  ⟨0x68, 0, 1, 0, 0, [0], .live, false⟩,  -- STATE
  ⟨0x6c, 0, 1, 0, 0, [0], .live, false⟩]  -- MEAS

/-- The block registers of the IBC page map. -/
def ibcRegs : List RegInfo := [
  ⟨0x40, 0, 1, 0x1f, 0, [0x1d], .dr, true⟩,  -- CFG
  ⟨0x44, 0, 1, 0xffff, 0, [0x4b0], .dr, true⟩,  -- VSET
  ⟨0x48, 0, 1, 0xffffffff, 0, [0x51f0032], .dr, true⟩,  -- SOFT
  ⟨0x4c, 0, 1, 0xffffff, 0, [0x80064], .dr, true⟩,  -- HICCUP
  ⟨0x50, 0, 1, 0xffffff, 0, [0], .dr, true⟩,  -- B0
  ⟨0x54, 0, 1, 0xffffff, 0, [0], .dr, true⟩,  -- B1
  ⟨0x58, 0, 1, 0xffffff, 0, [0], .dr, true⟩,  -- B2
  ⟨0x5c, 0, 1, 0xffffff, 0, [0], .dr, true⟩,  -- A1
  ⟨0x60, 0, 1, 0xffffff, 0, [0], .dr, true⟩,  -- A2
  ⟨0x64, 0, 1, 0xffffffff, 0, [0x12c0000], .dr, true⟩,  -- BAL
  ⟨0x68, 0, 1, 0xffffffff, 0, [0], .dr, true⟩,  -- CSCAL0
  ⟨0x6c, 0, 1, 0xffffffff, 0, [0], .dr, true⟩,  -- CSCAL1
  ⟨0x70, 0, 1, 0xffffffff, 0, [0], .dr, true⟩,  -- VSCAL
  ⟨0x74, 0, 1, 0, 0, [0], .live, false⟩,  -- STATE
  ⟨0x78, 0, 1, 0, 0, [0], .live, false⟩,  -- MEAS
  ⟨0x7c, 0, 1, 0, 0, [0], .live, false⟩]  -- DUTY

/-- The block registers of the POL page map. -/
def polRegs : List RegInfo := [
  ⟨0x40, 0, 1, 0x1f, 0, [0x12], .dr, true⟩,  -- CFG
  ⟨0x44, 0, 1, 0xff, 0, [0x50], .dr, true⟩,  -- VSET
  ⟨0x48, 0, 1, 0xffff, 0, [0xa], .dr, true⟩,  -- SOFT
  ⟨0x4c, 0, 1, 0xffffffff, 0, [0x14080064], .dr, true⟩,  -- ILIM
  ⟨0x50, 0, 1, 0xff0f0000, 0, [0x6040000], .dr, true⟩,  -- TRIM
  ⟨0x54, 0, 1, 0, 0, [0], .live, false⟩,  -- MEAS
  ⟨0x58, 0, 1, 0, 0, [0], .live, false⟩]  -- STATE

/-- The block registers of the LDO page map. -/
def ldoRegs : List RegInfo := [
  ⟨0x40, 16, 2, 0xffffff00, 0, [0x2105e000], .dr, true⟩,  -- CTL
  ⟨0x44, 16, 2, 0xff0f0000, 0, [0x6040000], .dr, true⟩,  -- TRIM
  ⟨0x48, 16, 2, 0, 0, [0], .live, false⟩,  -- MEAS
  ⟨0x4c, 16, 2, 0, 0, [0], .live, false⟩]  -- STATE

/-- The block registers of the SEQ page map. -/
def seqRegs : List RegInfo := [
  ⟨0x40, 0, 1, 1, 0, [1], .dr, true⟩,  -- CFG
  ⟨0x44, 0, 1, 0xffffffff, 0, [0x320014], .dr, true⟩,  -- TIMES
  ⟨0x48, 0, 1, 0xffffffff, 0, [0x76c06a4], .dr, true⟩,  -- VHB
  ⟨0x4c, 0, 1, 0xffff, 0, [0x64], .dr, true⟩,  -- OFFMIN
  ⟨0x50, 0, 1, 0, 0, [0], .live, false⟩,  -- STATE
  ⟨0x54, 0, 1, 0, 0, [0], .live, false⟩,  -- PGOOD
  ⟨0x60, 0, 1, 0, 0, [0], .dr, false⟩,  -- FIRST
  ⟨0x64, 0, 1, 0, 0x7fff, [0], .dr, false⟩,  -- FORCED
  ⟨0x68, 0, 1, 0xf, 0, [0], .dr, true⟩,  -- RSTCTL
  ⟨0x70, 4, 4, 0x1ff7fff, 0, [0x140000], .dr, true⟩,  -- RSTG
  ⟨0x80, 4, 15, 0xcf7f3770, 0, [0x1150], .dr, true⟩]  -- RAIL

/-- The block registers of the THERM page map. -/
def thermRegs : List RegInfo := [
  ⟨0x40, 0, 1, 0xffffffff, 0, [0x9b68012c], .dr, true⟩,  -- CFG
  ⟨0x44, 0, 1, 0, 0, [0], .dr, true⟩,  -- STEP
  ⟨0x48, 0, 1, 0, 0, [0], .dr, false⟩,  -- LEVEL
  ⟨0x4c, 0, 1, 0, 0, [0], .dr, false⟩,  -- CHLVL0
  ⟨0x50, 0, 1, 0, 0, [0], .dr, false⟩,  -- CHLVL1
  ⟨0x54, 0, 1, 0xffffffff, 0, [0], .dr, true⟩,  -- CHSRC0
  ⟨0x58, 0, 1, 0xffffffff, 0, [0], .dr, true⟩,  -- CHSRC1
  ⟨0x5c, 0, 1, 0, 0, [0], .live, false⟩,  -- TEMP_MAX
  ⟨0x60, 4, 12, 0, 0, [0], .live, false⟩,  -- TS
  ⟨0x90, 4, 8, 0xc0ffffff, 0, [0x7d03e8], .dr, true⟩,  -- AUXCFG
  ⟨0xb0, 4, 8, 0xffffffff, 0, [0xd6b03e8], .dr, true⟩,  -- AUXNTC
  ⟨0xd0, 4, 8, 0, 0, [0], .live, false⟩,  -- AUXT
  ⟨0xf0, 0, 1, 0xfff0ffff, 0, [0x22000190], .dr, true⟩,  -- XTAL
  ⟨0xf4, 0, 1, 0, 0, [0], .live, false⟩]  -- COMP

/-- The block registers of the FAULT page map. -/
def faultRegs : List RegInfo := [
  ⟨0x40, 0, 1, 0, 0xffffffff, [0], .dr, false⟩,  -- STATUS_LO
  ⟨0x44, 0, 1, 0, 0xffffffff, [0], .dr, false⟩,  -- STATUS_HI
  ⟨0x48, 0, 1, 0, 0, [0], .live, false⟩,  -- ACTIVE_LO
  ⟨0x4c, 0, 1, 0, 0, [0], .live, false⟩,  -- ACTIVE_HI
  ⟨0x50, 0, 1, 0, 0, [0], .dr, false⟩,  -- REACT
  ⟨0x54, 0, 1, 0, 0, [0], .dr, false⟩,  -- MMASK_LO
  ⟨0x58, 0, 1, 0, 0, [0], .dr, false⟩,  -- MMASK_HI
  ⟨0x5c, 0, 1, 0, 0, [0], .live, false⟩,  -- HOLDS
  ⟨0x60, 0, 1, 0x7ffff, 0, [0x201f4], .dr, true⟩,  -- CFG
  ⟨0x64, 0, 1, 0, 0, [0], .dr, true⟩,  -- RAISE
  ⟨0x68, 0, 1, 0, 0, [0], .dr, false⟩,  -- COUNTS
  ⟨0x6c, 0, 1, 0, 0, [0], .dr, false⟩,  -- LOGSTAT
  ⟨0x70, 0, 1, 0, 0, [0], .dr, false⟩,  -- SNUFFRB
  ⟨0x74, 0, 1, 0, 0x7f, [0], .dr, false⟩,  -- CLKMON
  ⟨0x80, 4, 8, 0xffffffff, 0, [0x33333444, 0x2022200, 0, 0, 0x20000022, 0x20, 0, 0], .dr, true⟩]  -- CLASS

/-- The block registers of the WDOG page map. -/
def wdogRegs : List RegInfo := [
  ⟨0x40, 0, 1, 0xffff0007, 0, [0], .por, true⟩,  -- CFG
  ⟨0x44, 0, 1, 0xffffffff, 0, [0], .por, true⟩,  -- WIN
  ⟨0x48, 0, 1, 0xffffffff, 0, [0], .por, true⟩,  -- WIN1
  ⟨0x4c, 0, 1, 0xffff, 0, [0], .por, true⟩,  -- TASKEN
  ⟨0x50, 4, 4, 0xffffffff, 0, [0], .por, true⟩,  -- TASKLIM
  ⟨0x60, 0, 1, 0, 0, [0], .dr, true⟩,  -- SERVICE
  ⟨0x64, 0, 1, 0, 0, [0], .dr, true⟩,  -- CHECKIN
  ⟨0x68, 0, 1, 0, 0, [0], .live, false⟩,  -- STATE
  ⟨0x6c, 0, 1, 0, 0, [0], .live, false⟩,  -- TASKCNT0
  ⟨0x70, 0, 1, 0, 0, [0], .live, false⟩,  -- TASKCNT1
  ⟨0x74, 0, 1, 0, 0, [0], .dr, false⟩,  -- BITE0
  ⟨0x78, 0, 1, 0, 0, [0], .dr, false⟩]  -- BITE1

/-- The block registers of the RTC page map. -/
def rtcRegs : List RegInfo := [
  ⟨0x40, 0, 1, 0, 0, [0], .por, false⟩,  -- TICK_LO
  ⟨0x44, 0, 1, 0, 0, [0], .por, false⟩,  -- TICK_HI
  ⟨0x48, 0, 1, 0xffffffff, 0, [0], .dr, false⟩,  -- SET_LO
  ⟨0x4c, 0, 1, 0xffff, 0, [0], .dr, false⟩,  -- SET_HI
  ⟨0x50, 0, 1, 0, 0, [0], .dr, false⟩,  -- CMD
  ⟨0x54, 0, 1, 0x3fff, 0, [0], .por, false⟩,  -- TRIM
  ⟨0x58, 12, 2, 0xffffffff, 0, [0], .por, false⟩,  -- ALM_LO
  ⟨0x5c, 12, 2, 0x7ffff, 0, [0], .por, false⟩,  -- ALM_HI
  ⟨0x60, 12, 2, 0xffffffff, 0, [0], .por, false⟩,  -- ALM_PER
  ⟨0x70, 0, 1, 0, 0, [0], .live, false⟩]  -- SRC

/-- The block registers of the CELLAR page map. -/
def cellarRegs : List RegInfo := [
  ⟨0x40, 0, 1, 0, 0, [0], .por, false⟩,  -- PWRON
  ⟨0x44, 0, 1, 0x1f, 0, [0], .por, false⟩,  -- WAKEEN
  ⟨0x48, 0, 1, 0x1f, 0, [0], .por, false⟩,  -- PWRMAP
  ⟨0x4c, 0, 1, 0, 0, [0], .por, false⟩,  -- WAKESRC
  ⟨0x50, 0, 1, 0xffff, 0, [0xc8], .por, false⟩,  -- CFG
  ⟨0x54, 0, 1, 0, 0, [0], .live, false⟩]  -- SUPPLY

/-- The block registers of the EVQ page map. -/
def evqRegs : List RegInfo := [
  ⟨0x40, 0, 1, 0xffffff0e, 0, [0x3e8100e], .dr, true⟩,  -- CFGA
  ⟨0x44, 0, 1, 0xffffff0e, 0, [0x3e8100e], .dr, true⟩,  -- CFGB
  ⟨0x48, 0, 1, 0xffffffff, 0, [0xc800c8], .dr, true⟩,  -- IDLE
  ⟨0x4c, 0, 1, 0xffffffff, 0, [0], .dr, true⟩,  -- FROUTE_LO
  ⟨0x50, 0, 1, 0xffffffff, 0, [0], .dr, true⟩,  -- FROUTE_HI
  ⟨0x54, 0, 1, 0xffff, 0, [0], .dr, true⟩,  -- CROUTE
  ⟨0x58, 0, 1, 0x3ff, 0, [0], .dr, false⟩,  -- RPTRA
  ⟨0x5c, 0, 1, 0, 0, [0], .dr, false⟩,  -- WPTRA
  ⟨0x60, 0, 1, 0x3ff, 0, [0], .dr, false⟩,  -- RPTRB
  ⟨0x64, 0, 1, 0, 0, [0], .dr, false⟩,  -- WPTRB
  ⟨0x68, 0, 1, 0, 0, [0], .live, false⟩,  -- STATEA
  ⟨0x6c, 0, 1, 0, 0, [0], .live, false⟩,  -- STATEB
  ⟨0x70, 0, 1, 0, 0, [0], .dr, false⟩,  -- LOST
  ⟨0x74, 0, 1, 0, 0, [0], .dr, false⟩,  -- DONE
  ⟨0x78, 0, 1, 0x3ff, 0, [0], .dr, false⟩,  -- SRCQ
  ⟨0x7c, 0, 1, 0, 0, [0], .live, false⟩,  -- SRCSTATE
  ⟨0x80, 0, 1, 0, 0, [0], .dr, false⟩]  -- HOLD

/-- The block registers of the SPI page map. -/
def spiRegs : List RegInfo := [
  ⟨0x40, 0, 1, 0, 0, [0], .dr, false⟩,  -- COUNTS
  ⟨0x44, 0, 1, 0, 0, [0], .dr, false⟩]  -- LASTBAD

/-- The block registers of the I2CT page map. -/
def i2ctRegs : List RegInfo := [
  ⟨0x40, 0, 1, 0xffff000f, 0, [8], .dr, false⟩,  -- CFG
  ⟨0x44, 0, 1, 0, 0, [0], .dr, false⟩]  -- COUNTS

/-- The block registers of the I2CC page map. -/
def i2ccRegs : List RegInfo := [
  ⟨0x40, 0, 1, 0xff03, 0, [0xa01], .dr, true⟩,  -- CFG
  ⟨0x44, 0, 1, 0x7f1f1f, 0, [0], .dr, true⟩,  -- XFER
  ⟨0x48, 0, 1, 0, 0, [0], .dr, false⟩,  -- STATE
  ⟨0x4c, 4, 4, 0xffffffff, 0, [0], .dr, true⟩,  -- TX
  ⟨0x5c, 4, 4, 0, 0, [0], .dr, false⟩]  -- RX

/-- The block registers of the TYPEC page map. -/
def typecRegs : List RegInfo := [
  ⟨0x40, 0, 1, 0xff003f, 0, [0x140030], .dr, false⟩,  -- CFG
  ⟨0x44, 0, 1, 0xffff, 0, [0xbb8], .dr, false⟩,  -- SRCCOND
  ⟨0x48, 0, 1, 0, 0, [0], .dr, false⟩,  -- CMD
  ⟨0x4c, 0, 1, 0, 0, [0], .live, false⟩,  -- STATE
  ⟨0x50, 0, 1, 0, 0, [0], .live, false⟩]  -- VBUS

/-- The block registers of the PD page map. -/
def pdRegs : List RegInfo := [
  ⟨0x40, 0, 1, 0xff7f, 0, [0xf47], .dr, false⟩,  -- CFG
  ⟨0x44, 4, 4, 0xffffffff, 0, [0x2201912c, 0x2d12c, 0x4b12c, 0x640e1], .dr, false⟩,  -- SRCPDO
  ⟨0x54, 4, 4, 0xffffffff, 0, [0x2201912c, 0x2d12c, 0x4b12c, 0x6412c], .dr, false⟩,  -- SNKPDO
  ⟨0x64, 0, 1, 0xffff, 0, [0], .dr, false⟩,  -- SVID
  ⟨0x68, 0, 1, 0xffffffff, 0, [1], .dr, false⟩,  -- MODEVDO
  ⟨0x6c, 0, 1, 0xffffffff, 0, [0], .dr, false⟩,  -- IDHDR
  ⟨0x70, 0, 1, 0xffffffff, 0, [0], .dr, false⟩,  -- IDPROD
  ⟨0x74, 0, 1, 0, 0, [0], .live, false⟩,  -- CONTRACT
  ⟨0x78, 0, 1, 0, 0, [0], .live, false⟩,  -- RDO
  ⟨0x7c, 0, 1, 0, 0, [0], .live, false⟩,  -- PARTNER
  ⟨0x80, 0, 1, 0, 0, [0], .live, false⟩,  -- SNKLIM
  ⟨0x84, 0, 1, 0, 0, [0], .dr, false⟩,  -- CMD
  ⟨0xa0, 4, 7, 0xffffffff, 0, [0], .dr, false⟩,  -- TXVDM
  ⟨0xc0, 4, 7, 0, 0, [0], .dr, false⟩,  -- RXVDM
  ⟨0xdc, 0, 1, 0, 0, [0], .dr, false⟩,  -- RXINFO
  ⟨0xe0, 0, 1, 0, 0, [0], .dr, false⟩]  -- COUNTS

/-- The block registers of the RING page map. -/
def ringRegs : List RegInfo := [
  ⟨0x40, 0, 1, 0xffc0703e, 0, [0x3e], .dr, true⟩,  -- CFG
  ⟨0x44, 0, 1, 0xffffffff, 0, [0x10a00c8], .dr, true⟩,  -- TIMING
  ⟨0x48, 0, 1, 0xffff0000, 0, [0x1f40000], .dr, true⟩,  -- TIMING2
  ⟨0x4c, 0, 1, 0xffffffff, 0, [0x8012710], .dr, true⟩,  -- SERVO
  ⟨0x50, 0, 1, 0xffff, 0, [0x1388], .dr, true⟩,  -- SERVO2
  ⟨0x54, 0, 1, 0xffffffff, 0, [0], .dr, false⟩,  -- ASYM
  ⟨0x58, 0, 1, 0, 0, [0], .dr, false⟩,  -- CMD
  ⟨0x5c, 0, 1, 0xffffffff, 0, [0], .dr, false⟩,  -- EPSET
  ⟨0x60, 0, 1, 0, 0, [0], .live, false⟩,  -- STATE
  ⟨0x64, 0, 1, 0, 0, [0], .por, false⟩,  -- NUM
  ⟨0x68, 0, 1, 0, 0, [0], .dr, false⟩,  -- ENUM_RES
  ⟨0x6c, 0, 1, 0, 0, [0], .live, false⟩,  -- BRKPOS
  ⟨0x70, 0, 1, 0, 0, [0], .live, false⟩,  -- PTIME_E
  ⟨0x74, 0, 1, 0, 0, [0], .live, false⟩,  -- PTIME_NS
  ⟨0x78, 0, 1, 0, 0, [0], .dr, false⟩,  -- OFFSET
  ⟨0x7c, 0, 1, 0, 0, [0], .live, false⟩,  -- STEER
  ⟨0x80, 0, 1, 0, 0, [0], .dr, false⟩,  -- LINKDLY
  ⟨0x84, 0, 1, 0, 0, [0], .por, false⟩,  -- EPLAST
  ⟨0x88, 0, 1, 0, 0, [0], .por, false⟩,  -- EPRTC
  ⟨0x8c, 0, 1, 0, 0, [0], .dr, false⟩,  -- COUNTS
  ⟨0x90, 0, 1, 0, 0, [0], .dr, false⟩,  -- WBUSY
  ⟨0x94, 0, 1, 0, 0, [0], .dr, false⟩,  -- SNUFFLAST
  ⟨0x98, 4, 4, 0xffffffff, 0, [0], .dr, true⟩,  -- USER
  ⟨0xb0, 16, 8, 0xf9ff007f, 0, [0], .dr, true⟩,  -- TPL_A
  ⟨0xb4, 16, 8, 0xffffff, 0, [0], .dr, true⟩,  -- TPL_B
  ⟨0xb8, 16, 8, 0xffffffff, 0, [0], .dr, true⟩]  -- TPL_C

end Sys2Proof.Machine
end

