-- ==== Sys2Proof/Machine/Fields.lean ====
section
/-! DEFINITION. The named fields of the block registers, from the field tables of chapters 03 to 22: page of
instance 0, byte offset, distance between copies, low bit and width.  A name ST_ or ERR_ is the bit number of
that cause in the STATUS or the ERR register of the page. -/

namespace Sys2Proof.Machine

/-- A field of a register: the page of its first instance, the offset of the register in the page, the stride
of a repeated register, the low bit and the width. -/
structure Fld where
  pg : Nat
  off : Nat
  stride : Nat
  lo : Nat
  w : Nat
deriving DecidableEq, Repr

abbrev DEV_PART_PART : Fld := ⟨0, 0x40, 0, 16, 16⟩
abbrev DEV_MODE_STOPCNT : Fld := ⟨0, 0x44, 0, 16, 8⟩
abbrev DEV_MODE_CAUSE : Fld := ⟨0, 0x44, 0, 8, 4⟩
abbrev DEV_MODE_PREV : Fld := ⟨0, 0x44, 0, 4, 3⟩
abbrev DEV_MODE_CODE : Fld := ⟨0, 0x44, 0, 0, 3⟩
abbrev DEV_MODERES_CODE : Fld := ⟨0, 0x4c, 0, 0, 8⟩
abbrev DEV_CFG_STOPMAX : Fld := ⟨0, 0x58, 0, 16, 4⟩
abbrev DEV_CFG_STOPAUTO : Fld := ⟨0, 0x58, 0, 1, 1⟩
abbrev DEV_CFG_BLACKSTART : Fld := ⟨0, 0x58, 0, 0, 1⟩
abbrev DEV_BOOT_SOURCE : Fld := ⟨0, 0x5c, 0, 4, 3⟩
abbrev DEV_BOOT_RISECAUSE : Fld := ⟨0, 0x5c, 0, 0, 4⟩
abbrev DEV_BOOTSEL_STRAP : Fld := ⟨0, 0x60, 0, 8, 1⟩
abbrev DEV_BOOTSEL_ONCE : Fld := ⟨0, 0x60, 0, 0, 2⟩
abbrev DEV_BOOTCHK_CHECK_B : Fld := ⟨0, 0x64, 0, 16, 16⟩
abbrev DEV_BOOTCHK_CHECK_A : Fld := ⟨0, 0x64, 0, 0, 16⟩
abbrev DEV_LONGOP_RESULT : Fld := ⟨0, 0x68, 0, 16, 8⟩
abbrev DEV_LONGOP_LAST : Fld := ⟨0, 0x68, 0, 8, 4⟩
abbrev DEV_LONGOP_RUN : Fld := ⟨0, 0x68, 0, 0, 4⟩
abbrev DEV_SEQCNT_CNT_HI : Fld := ⟨0, 0x6c, 4, 16, 16⟩
abbrev DEV_SEQCNT_CNT_LO : Fld := ⟨0, 0x6c, 4, 0, 16⟩
abbrev DEV_RMT_STAT_STATE : Fld := ⟨0, 0x80, 0, 30, 2⟩
abbrev DEV_ST_STOPAUTO : Nat := 7
abbrev DEV_ST_HELD : Nat := 6
abbrev DEV_ST_NOIMAGE : Nat := 5
abbrev DEV_ST_BOOTALT : Nat := 4
abbrev DEV_ST_MODEREJ : Nat := 3
abbrev DEV_ST_MODECHG : Nat := 2
abbrev DEV_ST_LONGDONE : Nat := 1
abbrev DEV_ST_UNMAPPED : Nat := 0
abbrev DEV_ERR_STOPMAX : Nat := 2
abbrev DEV_ERR_RAILLIST : Nat := 1
abbrev LAMP_TIMING_TFRAME : Fld := ⟨1, 0x40, 0, 16, 3⟩
abbrev LAMP_TIMING_TCYC : Fld := ⟨1, 0x40, 0, 0, 2⟩
abbrev LAMP_STATE_HALTED : Fld := ⟨1, 0x44, 0, 16, 6⟩
abbrev LAMP_STATE_LOADED : Fld := ⟨1, 0x44, 0, 14, 2⟩
abbrev LAMP_STATE_RELIGHT : Fld := ⟨1, 0x44, 0, 12, 2⟩
abbrev LAMP_STATE_WARM_OK : Fld := ⟨1, 0x44, 0, 10, 1⟩
abbrev LAMP_STATE_BANKSTALE : Fld := ⟨1, 0x44, 0, 9, 1⟩
abbrev LAMP_STATE_MODIFIED : Fld := ⟨1, 0x44, 0, 8, 1⟩
abbrev LAMP_STATE_CLASS : Fld := ⟨1, 0x44, 0, 4, 3⟩
abbrev LAMP_STATE_SOURCE : Fld := ⟨1, 0x44, 0, 0, 3⟩
abbrev LAMP_POSITION_ROUND : Fld := ⟨1, 0x48, 0, 8, 12⟩
abbrev LAMP_POSITION_CYCLE : Fld := ⟨1, 0x48, 0, 0, 8⟩
abbrev LAMP_FRAME_NUMBER : Fld := ⟨1, 0x4c, 0, 0, 32⟩
abbrev LAMP_RELIGHT_RES_CHECK : Fld := ⟨1, 0x54, 0, 16, 16⟩
abbrev LAMP_RELIGHT_RES_KIND : Fld := ⟨1, 0x54, 0, 8, 1⟩
abbrev LAMP_RELIGHT_RES_CODE : Fld := ⟨1, 0x54, 0, 0, 8⟩
abbrev LAMP_OVR_INFO_VALID : Fld := ⟨1, 0x58, 0, 3, 1⟩
abbrev LAMP_RDV_INFO_VALID : Fld := ⟨1, 0x5c, 0, 14, 1⟩
abbrev LAMP_LOCK_INFO_LANES : Fld := ⟨1, 0x60, 0, 0, 6⟩
abbrev LAMP_DEC_INFO_VALID : Fld := ⟨1, 0x64, 0, 27, 1⟩
abbrev LAMP_COUNTS_LOCK : Fld := ⟨1, 0x68, 0, 24, 7⟩
abbrev LAMP_COUNTS_RDV : Fld := ⟨1, 0x68, 0, 12, 12⟩
abbrev LAMP_COUNTS_OVR : Fld := ⟨1, 0x68, 0, 0, 12⟩
abbrev LAMP_ALIGN_DONE : Fld := ⟨1, 0x6c, 0, 24, 1⟩
abbrev LAMP_ALIGN_CYCLES : Fld := ⟨1, 0x6c, 0, 16, 8⟩
abbrev LAMP_ALIGN_ROUNDS : Fld := ⟨1, 0x6c, 0, 0, 16⟩
abbrev LAMP_MARGIN_MIN : Fld := ⟨1, 0x70, 4, 0, 24⟩
abbrev LAMP_BASE_FIRST : Fld := ⟨1, 0x88, 4, 0, 12⟩
abbrev LAMP_BUDGET_ADDR_AINC : Fld := ⟨1, 0xa0, 0, 31, 1⟩
abbrev LAMP_BUDGET_ADDR_WORD : Fld := ⟨1, 0xa0, 0, 0, 14⟩
abbrev LAMP_BUDGET_DATA_D : Fld := ⟨1, 0xa4, 0, 0, 24⟩
abbrev LAMP_ST_BANKSTALE : Nat := 9
abbrev LAMP_ST_ALIGNED : Nat := 8
abbrev LAMP_ST_VARIANT : Nat := 7
abbrev LAMP_ST_RELIGHT_FAIL : Nat := 6
abbrev LAMP_ST_RELIGHT_DONE : Nat := 5
abbrev LAMP_ST_MODIFIED : Nat := 4
abbrev LAMP_ST_DECODE : Nat := 3
abbrev LAMP_ST_LOCKSTEP : Nat := 2
abbrev LAMP_ST_RDV : Nat := 1
abbrev LAMP_ST_OVERRUN : Nat := 0
abbrev LAMP_ERR_DECODE : Nat := 4
abbrev LAMP_ERR_LOCKSTEP : Nat := 3
abbrev LAMP_ERR_RDV : Nat := 2
abbrev LAMP_ERR_OVERRUN : Nat := 1
abbrev IMAGE_SEG_OFS_OFS : Fld := ⟨2, 0x44, 0, 0, 17⟩
abbrev IMAGE_SEG_LEN_LEN : Fld := ⟨2, 0x48, 0, 0, 14⟩
abbrev IMAGE_RESULT_CHECK : Fld := ⟨2, 0x4c, 0, 16, 16⟩
abbrev IMAGE_RESULT_CODE : Fld := ⟨2, 0x4c, 0, 0, 8⟩
abbrev IMAGE_ST_LITBANK : Nat := 2
abbrev IMAGE_ST_FAIL : Nat := 1
abbrev IMAGE_ST_DONE : Nat := 0
abbrev IMAGE_ERR_READ : Nat := 2
abbrev IMAGE_ERR_VERIFY : Nat := 1
abbrev ATTIC_SEG_OFS_OFS : Fld := ⟨3, 0x44, 0, 0, 16⟩
abbrev ATTIC_SEG_LEN_LEN : Fld := ⟨3, 0x48, 0, 0, 14⟩
abbrev ATTIC_RESULT_DIFF : Fld := ⟨3, 0x4c, 0, 16, 14⟩
abbrev ATTIC_RESULT_CODE : Fld := ⟨3, 0x4c, 0, 0, 8⟩
abbrev ATTIC_JOURNAL_ARMED : Fld := ⟨3, 0x50, 0, 31, 1⟩
abbrev ATTIC_JOURNAL_OFS : Fld := ⟨3, 0x50, 0, 0, 16⟩
abbrev ATTIC_ST_JLOST : Nat := 4
abbrev ATTIC_ST_REPLAY : Nat := 3
abbrev ATTIC_ST_DIRWR : Nat := 2
abbrev ATTIC_ST_FAIL : Nat := 1
abbrev ATTIC_ST_DONE : Nat := 0
abbrev ATTIC_ERR_READ : Nat := 2
abbrev ATTIC_ERR_VERIFY : Nat := 1
abbrev ADC_STATE_SWEEP : Fld := ⟨4, 0x40, 0, 29, 1⟩
abbrev ADC_STATE_BUSY : Fld := ⟨4, 0x40, 0, 28, 1⟩
abbrev ADC_STATE_SEQ : Fld := ⟨4, 0x40, 0, 26, 2⟩
abbrev ADC_STATE_RETIRED : Fld := ⟨4, 0x40, 0, 20, 5⟩
abbrev ADC_STATE_SPARE : Fld := ⟨4, 0x40, 0, 16, 3⟩
abbrev ADC_STATE_P0 : Fld := ⟨4, 0x40, 0, 0, 3⟩
abbrev ADC_CAL_COUNT : Fld := ⟨4, 0x44, 0, 16, 16⟩
abbrev ADC_CAL_BUSY : Fld := ⟨4, 0x44, 0, 11, 1⟩
abbrev ADC_CAL_SLICE : Fld := ⟨4, 0x44, 0, 8, 3⟩
abbrev ADC_CAL_LASTOK : Fld := ⟨4, 0x44, 0, 0, 5⟩
abbrev ADC_CAL_CTRL_SWEEP : Fld := ⟨4, 0x48, 0, 1, 1⟩
abbrev ADC_CAL_CTRL_BGEN : Fld := ⟨4, 0x48, 0, 0, 1⟩
abbrev ADC_SEQ_LEN_LEN0 : Fld := ⟨4, 0x4c, 0, 0, 5⟩
abbrev ADC_FIFO_STAT_DROPS : Fld := ⟨4, 0x58, 0, 8, 8⟩
abbrev ADC_FIFO_STAT_LEVEL : Fld := ⟨4, 0x58, 0, 0, 7⟩
abbrev ADC_FIFO_CFG_THR : Fld := ⟨4, 0x5c, 0, 0, 7⟩
abbrev ADC_COUNT_ROUND32 : Fld := ⟨4, 0x68, 0, 16, 5⟩
abbrev ADC_COUNT_CYCLE : Fld := ⟨4, 0x68, 0, 0, 16⟩
abbrev ADC_TRIM_GAIN : Fld := ⟨4, 0x70, 4, 16, 12⟩
abbrev ADC_TRIM_OFFSET : Fld := ⟨4, 0x70, 4, 0, 9⟩
abbrev ADC_ST_LIMIT : Nat := 12
abbrev ADC_ST_NOSPARE : Nat := 11
abbrev ADC_ST_BADENT : Nat := 10
abbrev ADC_ST_CALRETRY : Nat := 9
abbrev ADC_ST_HANDOVER : Nat := 8
abbrev ADC_ST_TRIGOFF : Nat := 7
abbrev ADC_ST_SWREJ : Nat := 6
abbrev ADC_ST_FIFO_OVF : Nat := 5
abbrev ADC_ST_FIFO_THR : Nat := 4
abbrev ADC_ST_DONE : Nat := 0
abbrev ADC_ERR_BANKFAIL : Nat := 3
abbrev ADC_ERR_CALFAIL : Nat := 2
abbrev ADC_ERR_LIMIT : Nat := 1
abbrev CMP_TCFG_ERRL : Fld := ⟨8, 0x40, 4, 28, 1⟩
abbrev CMP_TCFG_LATCH : Fld := ⟨8, 0x40, 4, 27, 1⟩
abbrev CMP_TCFG_KILL : Fld := ⟨8, 0x40, 4, 26, 1⟩
abbrev CMP_TCFG_TRIP : Fld := ⟨8, 0x40, 4, 25, 1⟩
abbrev CMP_TCFG_EN : Fld := ⟨8, 0x40, 4, 24, 1⟩
abbrev CMP_TCFG_BEDGE : Fld := ⟨8, 0x40, 4, 22, 2⟩
abbrev CMP_TCFG_BLANK : Fld := ⟨8, 0x40, 4, 15, 7⟩
abbrev CMP_TCFG_ABS : Fld := ⟨8, 0x40, 4, 14, 1⟩
abbrev CMP_TCFG_DIR : Fld := ⟨8, 0x40, 4, 13, 1⟩
abbrev CMP_TCFG_HYST : Fld := ⟨8, 0x40, 4, 10, 2⟩
abbrev CMP_TCFG_THR : Fld := ⟨8, 0x40, 4, 0, 10⟩
abbrev CMP_WCFG_HYST : Fld := ⟨8, 0x100, 4, 12, 2⟩
abbrev CMP_WCFG_SHELF : Fld := ⟨8, 0x100, 4, 11, 1⟩
abbrev CMP_WCFG_EVT : Fld := ⟨8, 0x100, 4, 10, 1⟩
abbrev CMP_WCFG_ERRL : Fld := ⟨8, 0x100, 4, 9, 1⟩
abbrev CMP_WCFG_WAKE : Fld := ⟨8, 0x100, 4, 8, 1⟩
abbrev CMP_WCFG_CAPT : Fld := ⟨8, 0x100, 4, 7, 1⟩
abbrev CMP_WCFG_FILT : Fld := ⟨8, 0x100, 4, 6, 1⟩
abbrev CMP_WCFG_SEL : Fld := ⟨8, 0x100, 4, 2, 4⟩
abbrev CMP_WCFG_MODE : Fld := ⟨8, 0x100, 4, 1, 1⟩
abbrev CMP_WCFG_EN : Fld := ⟨8, 0x100, 4, 0, 1⟩
abbrev CMP_WTHR_HI : Fld := ⟨8, 0x140, 4, 16, 10⟩
abbrev CMP_WTHR_LO : Fld := ⟨8, 0x140, 4, 0, 10⟩
abbrev CMP_WTICK_SPEN : Fld := ⟨8, 0x180, 0, 16, 1⟩
abbrev CMP_WSTATE_S : Fld := ⟨8, 0x184, 0, 0, 2⟩  -- repeats every 2 bits
abbrev CMP_WCAP_HI_VALID : Fld := ⟨8, 0x1c4, 8, 31, 1⟩
abbrev CMP_ERR_WMON : Nat := 2
abbrev CMP_ERR_TRIP : Nat := 1
abbrev SLINK_CFG_AUTOHEAL : Fld := ⟨0x10, 0x40, 0, 9, 1⟩
abbrev SLINK_CFG_ARMS : Fld := ⟨0x10, 0x40, 0, 8, 1⟩
abbrev SLINK_CFG_MODULES : Fld := ⟨0x10, 0x40, 0, 0, 6⟩
abbrev SLINK_TIMING_RETRY : Fld := ⟨0x10, 0x44, 0, 24, 2⟩
abbrev SLINK_TIMING_ACKW : Fld := ⟨0x10, 0x44, 0, 16, 8⟩
abbrev SLINK_TIMING_ALIGN : Fld := ⟨0x10, 0x44, 0, 0, 16⟩
abbrev SLINK_STALE_N_MISS : Fld := ⟨0x10, 0x48, 0, 16, 8⟩
abbrev SLINK_STALE_T_STALE : Fld := ⟨0x10, 0x48, 0, 0, 16⟩
abbrev SLINK_STATE_DESELECTING : Fld := ⟨0x10, 0x50, 0, 29, 1⟩
abbrev SLINK_STATE_MAINT : Fld := ⟨0x10, 0x50, 0, 28, 1⟩
abbrev SLINK_STATE_BUSY : Fld := ⟨0x10, 0x50, 0, 27, 1⟩
abbrev SLINK_STATE_USABLE : Fld := ⟨0x10, 0x50, 0, 26, 1⟩
abbrev SLINK_STATE_TOPO : Fld := ⟨0x10, 0x50, 0, 24, 2⟩
abbrev SLINK_STATE_ARMB_END : Fld := ⟨0x10, 0x50, 0, 16, 6⟩
abbrev SLINK_STATE_ARMA_END : Fld := ⟨0x10, 0x50, 0, 8, 6⟩
abbrev SLINK_STATE_COUNT : Fld := ⟨0x10, 0x50, 0, 0, 6⟩
abbrev SLINK_ENUM_RES_CODE : Fld := ⟨0x10, 0x54, 0, 0, 8⟩
abbrev SLINK_VALID1_UNREACH : Fld := ⟨0x10, 0x5c, 0, 16, 9⟩
abbrev SLINK_SELMAP_S : Fld := ⟨0x10, 0x60, 4, 0, 2⟩  -- repeats every 2 bits
abbrev SLINK_LOOPDLY_LAST : Fld := ⟨0x10, 0x70, 0, 16, 16⟩
abbrev SLINK_LOOPDLY_REF : Fld := ⟨0x10, 0x70, 0, 0, 16⟩
abbrev SLINK_COUNTS_EXH : Fld := ⟨0x10, 0x74, 0, 24, 7⟩
abbrev SLINK_COUNTS_RETRY : Fld := ⟨0x10, 0x74, 0, 12, 12⟩
abbrev SLINK_COUNTS_CRCERR : Fld := ⟨0x10, 0x74, 0, 0, 12⟩
abbrev SLINK_LASTERR_TYPE : Fld := ⟨0x10, 0x78, 0, 28, 4⟩
abbrev SLINK_LASTERR_NODE : Fld := ⟨0x10, 0x78, 0, 22, 6⟩
abbrev SLINK_LASTERR_OUTCOME : Fld := ⟨0x10, 0x78, 0, 8, 8⟩
abbrev SLINK_LASTERR_VALID : Fld := ⟨0x10, 0x78, 0, 0, 1⟩
abbrev SLINK_TPL_A_TYPE : Fld := ⟨0x10, 0x80, 4, 28, 4⟩
abbrev SLINK_TPL_A_ADDR : Fld := ⟨0x10, 0x80, 4, 22, 6⟩
abbrev SLINK_TPL_A_BC : Fld := ⟨0x10, 0x80, 4, 21, 1⟩
abbrev SLINK_TPL_A_LEN : Fld := ⟨0x10, 0x80, 4, 0, 12⟩
abbrev SLINK_TPL_B_PAY : Fld := ⟨0x10, 0x100, 4, 16, 16⟩
abbrev SLINK_TPL_B_DST : Fld := ⟨0x10, 0x100, 4, 0, 16⟩
abbrev SLINK_DLY_VALID : Fld := ⟨0x10, 0x180, 4, 31, 1⟩
abbrev SLINK_DLY_LATE : Fld := ⟨0x10, 0x180, 4, 30, 1⟩
abbrev SLINK_DLY_T : Fld := ⟨0x10, 0x180, 4, 0, 16⟩
abbrev SLINK_ST_REFUSED : Nat := 10
abbrev SLINK_ST_DESEL : Nat := 9
abbrev SLINK_ST_SILENT : Nat := 8
abbrev SLINK_ST_NAK : Nat := 7
abbrev SLINK_ST_DRIFT : Nat := 6
abbrev SLINK_ST_NODESTALE : Nat := 5
abbrev SLINK_ST_HEALED : Nat := 4
abbrev SLINK_ST_BREAK : Nat := 3
abbrev SLINK_ST_ENUMDONE : Nat := 2
abbrev SLINK_ST_HREJ : Nat := 1
abbrev SLINK_ST_HDONE : Nat := 0
abbrev SLINK_ERR_INTERLOCK : Nat := 7
abbrev SLINK_ERR_DESELFAIL : Nat := 6
abbrev SLINK_ERR_NODEFAULT : Nat := 5
abbrev SLINK_ERR_ENUMFAIL : Nat := 4
abbrev SLINK_ERR_BREAK : Nat := 3
abbrev SLINK_ERR_STALE : Nat := 2
abbrev SLINK_ERR_EXHAUSTED : Nat := 1
abbrev EST_CFG_HIBREST : Fld := ⟨0x20, 0x40, 0, 5, 1⟩
abbrev EST_CFG_XCHK_EN : Fld := ⟨0x20, 0x40, 0, 4, 1⟩
abbrev EST_CFG_SD_EN : Fld := ⟨0x20, 0x40, 0, 3, 1⟩
abbrev EST_CFG_REST_EN : Fld := ⟨0x20, 0x40, 0, 2, 1⟩
abbrev EST_CFG_MODEL_EN : Fld := ⟨0x20, 0x40, 0, 1, 1⟩
abbrev EST_CFG_FLATMODE : Fld := ⟨0x20, 0x40, 0, 0, 1⟩
abbrev EST_REST_T_REST : Fld := ⟨0x20, 0x44, 0, 16, 16⟩
abbrev EST_REST_I_REST : Fld := ⟨0x20, 0x44, 0, 0, 16⟩
abbrev EST_VOLT_V_ACC : Fld := ⟨0x20, 0x48, 0, 16, 16⟩
abbrev EST_VOLT_DV_REST : Fld := ⟨0x20, 0x48, 0, 0, 16⟩
abbrev EST_SLOPE_S_REJ : Fld := ⟨0x20, 0x4c, 0, 16, 16⟩
abbrev EST_SLOPE_S_MIN : Fld := ⟨0x20, 0x4c, 0, 0, 16⟩
abbrev EST_MODEL_CONF_MIN : Fld := ⟨0x20, 0x50, 0, 24, 8⟩
abbrev EST_MODEL_W_SHIFT : Fld := ⟨0x20, 0x50, 0, 16, 4⟩
abbrev EST_MODEL_I_MODEL : Fld := ⟨0x20, 0x50, 0, 0, 16⟩
abbrev EST_CONFDEC_N_CONF : Fld := ⟨0x20, 0x54, 0, 0, 16⟩
abbrev EST_BRANCH_Q_BRANCH : Fld := ⟨0x20, 0x58, 0, 0, 16⟩
abbrev EST_XCHK_N_XCHK : Fld := ⟨0x20, 0x5c, 0, 24, 8⟩
abbrev EST_XCHK_ISTR_TOL_REL : Fld := ⟨0x20, 0x5c, 0, 16, 8⟩
abbrev EST_XCHK_ISTR_TOL_ABS : Fld := ⟨0x20, 0x5c, 0, 0, 16⟩
abbrev EST_ACC_CYCLE : Fld := ⟨0x20, 0x60, 0, 0, 8⟩
abbrev EST_XSTAT_XFAIL : Fld := ⟨0x20, 0x68, 0, 16, 16⟩
abbrev EST_XSTAT_FALLBACK : Fld := ⟨0x20, 0x68, 0, 0, 16⟩
abbrev EST_LASTUPD_FRAME : Fld := ⟨0x20, 0x74, 0, 0, 32⟩
abbrev EST_CLEARED_STR : Fld := ⟨0x20, 0x78, 0, 0, 16⟩
abbrev EST_STRCFG_QNOM : Fld := ⟨0x20, 0x80, 4, 16, 16⟩
abbrev EST_STRCFG_SET : Fld := ⟨0x20, 0x80, 4, 14, 2⟩
abbrev EST_STRCFG_EN : Fld := ⟨0x20, 0x80, 4, 13, 1⟩
abbrev EST_ISTRCAL_GAIN : Fld := ⟨0x20, 0xc0, 4, 16, 16⟩
abbrev EST_ISTRCAL_OFFSET : Fld := ⟨0x20, 0xc0, 4, 0, 16⟩
abbrev EST_WINSRC_ISEQ : Fld := ⟨0x20, 0x100, 4, 30, 2⟩
abbrev EST_WINSRC_IENT : Fld := ⟨0x20, 0x100, 4, 26, 4⟩
abbrev EST_WINSRC_WDST : Fld := ⟨0x20, 0x100, 4, 0, 16⟩
abbrev EST_ST_SCRUB : Nat := 12
abbrev EST_ST_CLEARDONE : Nat := 11
abbrev EST_ST_WAKEACC : Nat := 10
abbrev EST_ST_XMISMATCH : Nat := 9
abbrev EST_ST_FALLBACK : Nat := 8
abbrev EST_ST_GAP : Nat := 7
abbrev EST_ST_MISSED : Nat := 6
abbrev EST_ST_FOLD : Nat := 5
abbrev EST_ST_INITANCH : Nat := 4
abbrev EST_ST_MODELANCH : Nat := 3
abbrev EST_ST_RESTREJ : Nat := 2
abbrev EST_ST_RESTANCH : Nat := 1
abbrev EST_ST_PASSDONE : Nat := 0
abbrev EST_ERR_NOOCV : Nat := 3
abbrev EST_ERR_ECC : Nat := 2
abbrev EST_ERR_XCHK : Nat := 1
abbrev OCV_RESULT_CHECK : Fld := ⟨0x21, 0x44, 0, 16, 16⟩
abbrev OCV_RESULT_CODE : Fld := ⟨0x21, 0x44, 0, 0, 8⟩
abbrev OCV_VALID_ATTIC : Fld := ⟨0x21, 0x48, 0, 8, 4⟩
abbrev OCV_VALID_RAM : Fld := ⟨0x21, 0x48, 0, 0, 4⟩
abbrev OCV_ST_EDITED : Nat := 2
abbrev OCV_ST_FAIL : Nat := 1
abbrev OCV_ST_DONE : Nat := 0
abbrev OCV_ERR_LOADFAIL : Nat := 2
abbrev OCV_ERR_VERIFY : Nat := 1
abbrev HEALTH_CFG_NOREST_EN : Fld := ⟨0x22, 0x40, 0, 3, 1⟩
abbrev HEALTH_CFG_CAP_EN : Fld := ⟨0x22, 0x40, 0, 2, 1⟩
abbrev HEALTH_CFG_TERM_EN : Fld := ⟨0x22, 0x40, 0, 1, 1⟩
abbrev HEALTH_CFG_NOFALL : Fld := ⟨0x22, 0x40, 0, 0, 1⟩
abbrev HEALTH_REP_SLEW_REP : Fld := ⟨0x22, 0x44, 0, 16, 16⟩
abbrev HEALTH_REP_I_DIR : Fld := ⟨0x22, 0x44, 0, 0, 16⟩
abbrev HEALTH_LIMIT_CAP_STEP : Fld := ⟨0x22, 0x48, 0, 24, 8⟩
abbrev HEALTH_LIMIT_CAP_BAND : Fld := ⟨0x22, 0x48, 0, 16, 8⟩
abbrev HEALTH_LIMIT_REP_FLOOR : Fld := ⟨0x22, 0x48, 0, 0, 16⟩
abbrev HEALTH_FULL_V_FULL : Fld := ⟨0x22, 0x4c, 0, 16, 16⟩
abbrev HEALTH_FULL_FULL_BAND : Fld := ⟨0x22, 0x4c, 0, 0, 16⟩
abbrev HEALTH_EMPTY_V_EMPTY : Fld := ⟨0x22, 0x50, 0, 16, 16⟩
abbrev HEALTH_EMPTY_EMPTY_BAND : Fld := ⟨0x22, 0x50, 0, 0, 16⟩
abbrev HEALTH_TAPER_T_HOLD : Fld := ⟨0x22, 0x54, 0, 16, 16⟩
abbrev HEALTH_TAPER_I_TAPER : Fld := ⟨0x22, 0x54, 0, 0, 16⟩
abbrev HEALTH_CAPUPD_DSOC_MIN : Fld := ⟨0x22, 0x58, 0, 0, 16⟩
abbrev HEALTH_DRIFT_DRIFT_RATE : Fld := ⟨0x22, 0x5c, 0, 24, 8⟩
abbrev HEALTH_DRIFT_DRIFT_HR : Fld := ⟨0x22, 0x5c, 0, 16, 8⟩
abbrev HEALTH_DRIFT_DRIFT_0 : Fld := ⟨0x22, 0x5c, 0, 0, 16⟩
abbrev HEALTH_NOREST_T_NOREST_MAX : Fld := ⟨0x22, 0x60, 0, 0, 16⟩
abbrev HEALTH_PERT_I_PSTAB : Fld := ⟨0x22, 0x64, 0, 24, 8⟩
abbrev HEALTH_PERT_Z_SHIFT : Fld := ⟨0x22, 0x64, 0, 20, 4⟩
abbrev HEALTH_PERT_I_PERT : Fld := ⟨0x22, 0x64, 0, 0, 16⟩
abbrev HEALTH_CONFSTEP_CONF_STEP_POL : Fld := ⟨0x22, 0x68, 0, 8, 8⟩
abbrev HEALTH_CONFSTEP_CONF_STEP_OHM : Fld := ⟨0x22, 0x68, 0, 0, 8⟩
abbrev HEALTH_TONE_NPER : Fld := ⟨0x22, 0x6c, 4, 24, 8⟩
abbrev HEALTH_TONE_RATE : Fld := ⟨0x22, 0x6c, 4, 16, 3⟩
abbrev HEALTH_TONE_FREQ : Fld := ⟨0x22, 0x6c, 4, 0, 16⟩
abbrev HEALTH_RESTREQ_REQ : Fld := ⟨0x22, 0x7c, 0, 0, 16⟩
abbrev HEALTH_FLUSHES_COUNT : Fld := ⟨0x22, 0x80, 0, 0, 32⟩
abbrev HEALTH_ENDST_TAPER_RND : Fld := ⟨0x22, 0xc0, 4, 8, 24⟩
abbrev HEALTH_ENDST_CAND : Fld := ⟨0x22, 0xc0, 4, 2, 2⟩
abbrev HEALTH_ENDST_LATCH : Fld := ⟨0x22, 0xc0, 4, 0, 2⟩
abbrev HEALTH_VEXT_V_HI : Fld := ⟨0x22, 0x100, 4, 16, 16⟩
abbrev HEALTH_VEXT_V_LO : Fld := ⟨0x22, 0x100, 4, 0, 16⟩
abbrev HEALTH_LASTREST_FRAME : Fld := ⟨0x22, 0x140, 4, 0, 32⟩
abbrev HEALTH_PERTN_MODULE : Fld := ⟨0x22, 0x180, 4, 16, 6⟩
abbrev HEALTH_PERTN_TONE : Fld := ⟨0x22, 0x180, 4, 12, 2⟩
abbrev HEALTH_PERTN_STATE : Fld := ⟨0x22, 0x180, 4, 10, 2⟩
abbrev HEALTH_PERTN_SETS : Fld := ⟨0x22, 0x180, 4, 0, 10⟩
abbrev HEALTH_PBUF_BUF : Fld := ⟨0x22, 0x1c0, 4, 0, 16⟩
abbrev HEALTH_ST_RETIRED : Nat := 11
abbrev HEALTH_ST_FLUSHDONE : Nat := 10
abbrev HEALTH_ST_BADTONE : Nat := 9
abbrev HEALTH_ST_PABORT : Nat := 8
abbrev HEALTH_ST_ZREJ : Nat := 7
abbrev HEALTH_ST_ZDONE : Nat := 6
abbrev HEALTH_ST_NOREST : Nat := 5
abbrev HEALTH_ST_EXCESS : Nat := 4
abbrev HEALTH_ST_CAPREJ : Nat := 3
abbrev HEALTH_ST_CAPUPD : Nat := 2
abbrev HEALTH_ST_TERMEMPTY : Nat := 1
abbrev HEALTH_ST_TERMFULL : Nat := 0
abbrev HEALTH_ERR_LIFEINIT : Nat := 3
abbrev HEALTH_ERR_LIFEREAD : Nat := 2
abbrev HEALTH_ERR_VERIFY : Nat := 1
abbrev BAL_CFG_PERT_EN : Fld := ⟨0x30, 0x40, 0, 6, 1⟩
abbrev BAL_CFG_FF_EN : Fld := ⟨0x30, 0x40, 0, 5, 1⟩
abbrev BAL_CFG_CHG_EN : Fld := ⟨0x30, 0x40, 0, 4, 1⟩
abbrev BAL_CFG_DIS_EN : Fld := ⟨0x30, 0x40, 0, 3, 1⟩
abbrev BAL_CFG_FSW : Fld := ⟨0x30, 0x40, 0, 0, 2⟩
abbrev BAL_PSET_P_SET : Fld := ⟨0x30, 0x44, 0, 0, 16⟩
abbrev BAL_LIMIT_I_MAX : Fld := ⟨0x30, 0x48, 0, 16, 16⟩
abbrev BAL_LIMIT_P_MAX : Fld := ⟨0x30, 0x48, 0, 0, 16⟩
abbrev BAL_CLAMP_U_CLAMP : Fld := ⟨0x30, 0x4c, 0, 16, 16⟩
abbrev BAL_CLAMP_PHI_MAX : Fld := ⟨0x30, 0x4c, 0, 0, 16⟩
abbrev BAL_DPHI_DPHI_MAX : Fld := ⟨0x30, 0x50, 0, 0, 16⟩
abbrev BAL_B0_COEF : Fld := ⟨0x30, 0x54, 0, 0, 24⟩
abbrev BAL_B1_COEF : Fld := ⟨0x30, 0x58, 0, 0, 24⟩
abbrev BAL_B2_COEF : Fld := ⟨0x30, 0x5c, 0, 0, 24⟩
abbrev BAL_A1_COEF : Fld := ⟨0x30, 0x60, 0, 0, 24⟩
abbrev BAL_A2_COEF : Fld := ⟨0x30, 0x64, 0, 0, 24⟩
abbrev BAL_KDAB_K_DAB : Fld := ⟨0x30, 0x68, 0, 0, 16⟩
abbrev BAL_ETA_ETA_C : Fld := ⟨0x30, 0x6c, 0, 16, 16⟩
abbrev BAL_ETA_ETA_D : Fld := ⟨0x30, 0x6c, 0, 0, 16⟩
abbrev BAL_CSCAL_GAIN : Fld := ⟨0x30, 0x70, 0, 16, 16⟩
abbrev BAL_CSCAL_OFFSET : Fld := ⟨0x30, 0x70, 0, 0, 16⟩
abbrev BAL_VSCAL_VGAIN : Fld := ⟨0x30, 0x74, 0, 16, 16⟩
abbrev BAL_VSCAL_VOFS : Fld := ⟨0x30, 0x74, 0, 0, 16⟩
abbrev BAL_VHBCAL_VGAIN : Fld := ⟨0x30, 0x78, 0, 16, 16⟩
abbrev BAL_VHBCAL_VOFS : Fld := ⟨0x30, 0x78, 0, 0, 16⟩
abbrev BAL_SOFT_N_STOP : Fld := ⟨0x30, 0x7c, 0, 24, 8⟩
abbrev BAL_SOFT_I_ZERO : Fld := ⟨0x30, 0x7c, 0, 16, 8⟩
abbrev BAL_SOFT_T_SS : Fld := ⟨0x30, 0x7c, 0, 0, 16⟩
abbrev BAL_HICCUP_HICMAX : Fld := ⟨0x30, 0x80, 0, 24, 8⟩
abbrev BAL_HICCUP_N_HIC : Fld := ⟨0x30, 0x80, 0, 16, 8⟩
abbrev BAL_DROOP_R_DROOP : Fld := ⟨0x30, 0x84, 0, 16, 16⟩
abbrev BAL_DROOP_V_RIDE : Fld := ⟨0x30, 0x84, 0, 0, 16⟩
abbrev BAL_BUSLIM_V_BUSMAX : Fld := ⟨0x30, 0x88, 0, 0, 16⟩
abbrev BAL_SEL_SEL_TOL : Fld := ⟨0x30, 0x8c, 0, 16, 16⟩
abbrev BAL_SEL_T_DWELL : Fld := ⟨0x30, 0x8c, 0, 0, 16⟩
abbrev BAL_SELREQ_FORCE : Fld := ⟨0x30, 0x90, 0, 8, 1⟩
abbrev BAL_SELREQ_MODULE : Fld := ⟨0x30, 0x90, 0, 0, 6⟩
abbrev BAL_SELSTATE_RESULT : Fld := ⟨0x30, 0x94, 0, 28, 4⟩
abbrev BAL_SELSTATE_STEP : Fld := ⟨0x30, 0x94, 0, 24, 4⟩
abbrev BAL_SELSTATE_TARGET : Fld := ⟨0x30, 0x94, 0, 8, 6⟩
abbrev BAL_SELSTATE_CUR : Fld := ⟨0x30, 0x94, 0, 0, 6⟩
abbrev BAL_STATE_THROTTLE : Fld := ⟨0x30, 0x98, 0, 28, 4⟩
abbrev BAL_STATE_GROUPEN : Fld := ⟨0x30, 0x98, 0, 24, 1⟩
abbrev BAL_STATE_MODE : Fld := ⟨0x30, 0x98, 0, 16, 2⟩
abbrev BAL_STATE_OVERLAY : Fld := ⟨0x30, 0x98, 0, 15, 1⟩
abbrev BAL_STATE_CODE : Fld := ⟨0x30, 0x98, 0, 0, 3⟩
abbrev BAL_I_CS_I : Fld := ⟨0x30, 0x9c, 0, 0, 32⟩
abbrev BAL_VOLT_V_HB : Fld := ⟨0x30, 0xa0, 0, 16, 16⟩
abbrev BAL_VOLT_V_MOD : Fld := ⟨0x30, 0xa0, 0, 0, 16⟩
abbrev BAL_PHI_PHI_FF : Fld := ⟨0x30, 0xa4, 0, 16, 16⟩
abbrev BAL_PHI_PHI : Fld := ⟨0x30, 0xa4, 0, 0, 16⟩
abbrev BAL_P_BUS_P : Fld := ⟨0x30, 0xa8, 0, 0, 32⟩
abbrev BAL_ROUNDQ_Q : Fld := ⟨0x30, 0xac, 0, 0, 32⟩
abbrev BAL_EOUT_E : Fld := ⟨0x30, 0xb0, 0, 0, 32⟩
abbrev BAL_EIN_E : Fld := ⟨0x30, 0xb4, 0, 0, 32⟩
abbrev BAL_IMOD_TI_I : Fld := ⟨0x30, 0xb8, 0, 0, 32⟩
abbrev BAL_PERTRES_PH_I : Fld := ⟨0x30, 0xbc, 0, 16, 16⟩
abbrev BAL_PERTRES_A_I : Fld := ⟨0x30, 0xbc, 0, 0, 16⟩
abbrev BAL_COUNTS_HIC : Fld := ⟨0x30, 0xc8, 0, 24, 7⟩
abbrev BAL_COUNTS_SEL : Fld := ⟨0x30, 0xc8, 0, 12, 12⟩
abbrev BAL_COUNTS_LIMCYC : Fld := ⟨0x30, 0xc8, 0, 0, 12⟩
abbrev BAL_ST_CLOSEDLOST : Nat := 9
abbrev BAL_ST_STOPPED : Nat := 8
abbrev BAL_ST_BADIN : Nat := 7
abbrev BAL_ST_OVLEND : Nat := 6
abbrev BAL_ST_BUSOV : Nat := 5
abbrev BAL_ST_SELREFUSED : Nat := 4
abbrev BAL_ST_SELDONE : Nat := 3
abbrev BAL_ST_SOFTDONE : Nat := 2
abbrev BAL_ST_HICCUP : Nat := 1
abbrev BAL_ST_LIMITED : Nat := 0
abbrev BAL_ERR_READBACK : Nat := 6
abbrev BAL_ERR_SENSE : Nat := 5
abbrev BAL_ERR_STOPFAIL : Nat := 4
abbrev BAL_ERR_OPENFAIL : Nat := 3
abbrev BAL_ERR_VERIFY : Nat := 2
abbrev BAL_ERR_HICLOCK : Nat := 1
abbrev DISPATCH_CFG_PACKSUP_EN : Fld := ⟨0x40, 0x40, 0, 4, 1⟩
abbrev DISPATCH_CFG_SHED_EN : Fld := ⟨0x40, 0x40, 0, 3, 1⟩
abbrev DISPATCH_CFG_CHG_EN : Fld := ⟨0x40, 0x40, 0, 2, 1⟩
abbrev DISPATCH_CFG_POLICY : Fld := ⟨0x40, 0x40, 0, 0, 2⟩
abbrev DISPATCH_INPUT_P_IN_MAX : Fld := ⟨0x40, 0x44, 0, 16, 16⟩
abbrev DISPATCH_INPUT_P_IN_MIN : Fld := ⟨0x40, 0x44, 0, 0, 16⟩
abbrev DISPATCH_SHARE_P_CHG_BAL : Fld := ⟨0x40, 0x48, 0, 20, 12⟩
abbrev DISPATCH_SHARE_P_BAL_INP : Fld := ⟨0x40, 0x48, 0, 8, 12⟩
abbrev DISPATCH_SHARE_P_STEP : Fld := ⟨0x40, 0x48, 0, 0, 8⟩
abbrev DISPATCH_BAND_DB_HYS : Fld := ⟨0x40, 0x4c, 0, 12, 12⟩
abbrev DISPATCH_BAND_DB : Fld := ⟨0x40, 0x4c, 0, 0, 12⟩
abbrev DISPATCH_MARGIN_P_CHG_MARGIN : Fld := ⟨0x40, 0x50, 0, 16, 16⟩
abbrev DISPATCH_MARGIN_SW_MARGIN : Fld := ⟨0x40, 0x50, 0, 0, 16⟩
abbrev DISPATCH_VBAL_V_MAX_BAL : Fld := ⟨0x40, 0x54, 0, 16, 16⟩
abbrev DISPATCH_VBAL_V_MIN_BAL : Fld := ⟨0x40, 0x54, 0, 0, 16⟩
abbrev DISPATCH_INREG_LF_SHIFT : Fld := ⟨0x40, 0x58, 0, 24, 4⟩
abbrev DISPATCH_INREG_V_INREG_HYS : Fld := ⟨0x40, 0x58, 0, 16, 8⟩
abbrev DISPATCH_INREG_V_INREG : Fld := ⟨0x40, 0x58, 0, 0, 16⟩
abbrev DISPATCH_STEPS_T_MOD_MAX : Fld := ⟨0x40, 0x5c, 0, 24, 8⟩
abbrev DISPATCH_STEPS_N_SHED : Fld := ⟨0x40, 0x5c, 0, 16, 8⟩
abbrev DISPATCH_STEPS_INREG_STEP : Fld := ⟨0x40, 0x5c, 0, 0, 16⟩
abbrev DISPATCH_RESTORE_T_RESTORE : Fld := ⟨0x40, 0x60, 0, 16, 16⟩
abbrev DISPATCH_RESTORE_P_RESTORE : Fld := ⟨0x40, 0x60, 0, 0, 16⟩
abbrev DISPATCH_SUPP_C_HB : Fld := ⟨0x40, 0x64, 0, 16, 16⟩
abbrev DISPATCH_SUPP_P_PACK_SUP : Fld := ⟨0x40, 0x64, 0, 0, 16⟩
abbrev DISPATCH_LOAD_P_LOAD_F : Fld := ⟨0x40, 0x68, 0, 16, 16⟩
abbrev DISPATCH_LOAD_P_LOAD : Fld := ⟨0x40, 0x68, 0, 0, 16⟩
abbrev DISPATCH_SOURCES_P_PACK : Fld := ⟨0x40, 0x6c, 0, 16, 16⟩
abbrev DISPATCH_SOURCES_P_IN : Fld := ⟨0x40, 0x6c, 0, 0, 16⟩
abbrev DISPATCH_CELLS_P_BAL : Fld := ⟨0x40, 0x70, 0, 0, 32⟩
abbrev DISPATCH_INCAP_SHEDLVL : Fld := ⟨0x40, 0x74, 0, 16, 2⟩
abbrev DISPATCH_INCAP_P_IN_CAP : Fld := ⟨0x40, 0x74, 0, 0, 16⟩
abbrev DISPATCH_SUPPLY_X : Fld := ⟨0x40, 0x78, 0, 16, 16⟩
abbrev DISPATCH_SUPPLY_PACK_BOOST : Fld := ⟨0x40, 0x78, 0, 0, 16⟩
abbrev DISPATCH_DIR_D : Fld := ⟨0x40, 0x7c, 0, 0, 2⟩  -- repeats every 2 bits
abbrev DISPATCH_FRAMEST_FRAME : Fld := ⟨0x40, 0x80, 0, 0, 32⟩
abbrev DISPATCH_RANK_LO : Fld := ⟨0x40, 0xc0, 4, 8, 6⟩
abbrev DISPATCH_RANK_HI : Fld := ⟨0x40, 0xc0, 4, 0, 6⟩
abbrev DISPATCH_ST_SHED : Nat := 7
abbrev DISPATCH_ST_PACKSUP : Nat := 6
abbrev DISPATCH_ST_CELLSUP : Nat := 5
abbrev DISPATCH_ST_INREG : Nat := 4
abbrev DISPATCH_ST_STALEIN : Nat := 3
abbrev DISPATCH_ST_FORCED : Nat := 2
abbrev DISPATCH_ST_FRAMEDONE : Nat := 1
abbrev DISPATCH_ST_ROUNDDONE : Nat := 0
abbrev DISPATCH_ERR_DEFICIT : Nat := 2
abbrev DISPATCH_ERR_STALE : Nat := 1
abbrev INPATH_CFG_RETRY_MAX : Fld := ⟨0x41, 0x40, 0, 12, 2⟩
abbrev INPATH_CFG_AMB_SRC : Fld := ⟨0x41, 0x40, 0, 4, 4⟩
abbrev INPATH_CFG_HIBON : Fld := ⟨0x41, 0x40, 0, 1, 1⟩
abbrev INPATH_CFG_SNUFFOFF : Fld := ⟨0x41, 0x40, 0, 0, 1⟩
abbrev INPATH_VWIN_V_IN_OV : Fld := ⟨0x41, 0x44, 0, 16, 16⟩
abbrev INPATH_VWIN_V_IN_UV : Fld := ⟨0x41, 0x44, 0, 0, 16⟩
abbrev INPATH_VHYS_OV_HYS : Fld := ⟨0x41, 0x48, 0, 8, 8⟩
abbrev INPATH_VHYS_UV_HYS : Fld := ⟨0x41, 0x48, 0, 0, 8⟩
abbrev INPATH_DIODE_V_FWD_ON : Fld := ⟨0x41, 0x50, 0, 16, 10⟩
abbrev INPATH_TFET_T_AMB : Fld := ⟨0x41, 0x5c, 0, 8, 8⟩
abbrev INPATH_TFET_T_FET_MAX : Fld := ⟨0x41, 0x5c, 0, 0, 8⟩
abbrev INPATH_FOSTER_TAU : Fld := ⟨0x41, 0x60, 4, 16, 16⟩
abbrev INPATH_FOSTER_RTH : Fld := ⟨0x41, 0x60, 4, 0, 16⟩
abbrev INPATH_CSCAL_GAIN : Fld := ⟨0x41, 0x6c, 0, 16, 16⟩
abbrev INPATH_CSCAL_OFFSET : Fld := ⟨0x41, 0x6c, 0, 0, 16⟩
abbrev INPATH_VSCAL_VGAIN : Fld := ⟨0x41, 0x70, 0, 16, 16⟩
abbrev INPATH_VSCAL_VOFS : Fld := ⟨0x41, 0x70, 0, 0, 16⟩
abbrev INPATH_SRC_VHB : Fld := ⟨0x41, 0x74, 0, 12, 6⟩
abbrev INPATH_SRC_VS : Fld := ⟨0x41, 0x74, 0, 6, 6⟩
abbrev INPATH_SRC_CS : Fld := ⟨0x41, 0x74, 0, 0, 6⟩
abbrev INPATH_STATE_CONSEC : Fld := ⟨0x41, 0x78, 0, 8, 8⟩
abbrev INPATH_STATE_CODE : Fld := ⟨0x41, 0x78, 0, 0, 3⟩
abbrev INPATH_VOLT_V_HB : Fld := ⟨0x41, 0x7c, 0, 16, 16⟩
abbrev INPATH_VOLT_V_IN : Fld := ⟨0x41, 0x7c, 0, 0, 16⟩
abbrev INPATH_I_IN_I : Fld := ⟨0x41, 0x80, 0, 0, 32⟩
abbrev INPATH_TJ_T : Fld := ⟨0x41, 0x84, 0, 0, 16⟩
abbrev INPATH_EIN_E : Fld := ⟨0x41, 0x88, 0, 0, 32⟩
abbrev INPATH_VINAVG_V_HB_END : Fld := ⟨0x41, 0x8c, 0, 16, 16⟩
abbrev INPATH_VINAVG_V_IN_MEAN : Fld := ⟨0x41, 0x8c, 0, 0, 16⟩
abbrev INPATH_COUNTS_TRIPS : Fld := ⟨0x41, 0x90, 0, 8, 8⟩
abbrev INPATH_COUNTS_RETRY : Fld := ⟨0x41, 0x90, 0, 0, 8⟩
abbrev INPATH_ST_LOST : Nat := 8
abbrev INPATH_ST_SOATRIP : Nat := 7
abbrev INPATH_ST_OCTRIP : Nat := 6
abbrev INPATH_ST_FASTTRIP : Nat := 5
abbrev INPATH_ST_UVOV : Nat := 4
abbrev INPATH_ST_BLOCK : Nat := 3
abbrev INPATH_ST_LIMIT : Nat := 2
abbrev INPATH_ST_ON : Nat := 1
abbrev INPATH_ERR_SENSE : Nat := 3
abbrev INPATH_ERR_GATE : Nat := 2
abbrev INPATH_ERR_LOCKED : Nat := 1
abbrev PACK_CFG_DETEN : Fld := ⟨0x42, 0x40, 0, 19, 1⟩
abbrev PACK_CFG_CHG_EN : Fld := ⟨0x42, 0x40, 0, 18, 1⟩
abbrev PACK_CFG_RIDE_EN : Fld := ⟨0x42, 0x40, 0, 17, 1⟩
abbrev PACK_CFG_TSRC : Fld := ⟨0x42, 0x40, 0, 12, 4⟩
abbrev PACK_CFG_OCVSET : Fld := ⟨0x42, 0x40, 0, 10, 2⟩
abbrev PACK_CFG_FSW : Fld := ⟨0x42, 0x40, 0, 8, 2⟩
abbrev PACK_CFG_NCELLS : Fld := ⟨0x42, 0x40, 0, 0, 5⟩
abbrev PACK_VCELL0_V_CHGW_C : Fld := ⟨0x42, 0x44, 0, 16, 16⟩
abbrev PACK_VCELL0_V_CHG_C : Fld := ⟨0x42, 0x44, 0, 0, 16⟩
abbrev PACK_VCELL1_V_PMIN_C : Fld := ⟨0x42, 0x48, 0, 16, 16⟩
abbrev PACK_VCELL1_V_LOWV_C : Fld := ⟨0x42, 0x48, 0, 0, 16⟩
abbrev PACK_VCELL2_V_CUTHYS_C : Fld := ⟨0x42, 0x4c, 0, 16, 16⟩
abbrev PACK_VCELL2_DV_RECH_C : Fld := ⟨0x42, 0x4c, 0, 0, 16⟩
abbrev PACK_ICHG_I_PRE : Fld := ⟨0x42, 0x50, 0, 16, 16⟩
abbrev PACK_ICHG_I_FAST : Fld := ⟨0x42, 0x50, 0, 0, 16⟩
abbrev PACK_TERM_T_TERM : Fld := ⟨0x42, 0x54, 0, 16, 16⟩
abbrev PACK_TERM_T_PRE : Fld := ⟨0x42, 0x54, 0, 8, 8⟩
abbrev PACK_TERM_K_TERM : Fld := ⟨0x42, 0x54, 0, 0, 8⟩
abbrev PACK_SAFE_T_SAFE : Fld := ⟨0x42, 0x58, 0, 0, 16⟩
abbrev PACK_ZONE_T_HOT : Fld := ⟨0x42, 0x5c, 0, 24, 8⟩
abbrev PACK_ZONE_T_WARM : Fld := ⟨0x42, 0x5c, 0, 16, 8⟩
abbrev PACK_ZONE_T_NORMAL : Fld := ⟨0x42, 0x5c, 0, 8, 8⟩
abbrev PACK_ZONE_T_COOL : Fld := ⟨0x42, 0x5c, 0, 0, 8⟩
abbrev PACK_ZLIM_T_ZHYS : Fld := ⟨0x42, 0x60, 0, 16, 8⟩
abbrev PACK_ZLIM_T_DHOT : Fld := ⟨0x42, 0x60, 0, 8, 8⟩
abbrev PACK_ZLIM_T_DCOLD : Fld := ⟨0x42, 0x60, 0, 0, 8⟩
abbrev PACK_DIS_I_DIS_MAX : Fld := ⟨0x42, 0x64, 0, 0, 16⟩
abbrev PACK_PDROOP_R_PDROOP : Fld := ⟨0x42, 0x68, 0, 16, 16⟩
abbrev PACK_PDROOP_V_PRIDE : Fld := ⟨0x42, 0x68, 0, 0, 16⟩
abbrev PACK_SAG_V_SAGOFF : Fld := ⟨0x42, 0x6c, 0, 16, 16⟩
abbrev PACK_SAG_V_SAG : Fld := ⟨0x42, 0x6c, 0, 0, 16⟩
abbrev PACK_LOSS_T_DETECT : Fld := ⟨0x42, 0x70, 0, 16, 16⟩
abbrev PACK_LOSS_V_INLOSS : Fld := ⟨0x42, 0x70, 0, 0, 16⟩
abbrev PACK_RETURN_T_RETURN : Fld := ⟨0x42, 0x74, 0, 16, 16⟩
abbrev PACK_RETURN_V_INOK : Fld := ⟨0x42, 0x74, 0, 0, 16⟩
abbrev PACK_HANDBACK_RIDE_SHED0 : Fld := ⟨0x42, 0x78, 0, 16, 2⟩
abbrev PACK_HANDBACK_T_HANDBACK : Fld := ⟨0x42, 0x78, 0, 0, 16⟩
abbrev PACK_SHED_V_SHEDFAST : Fld := ⟨0x42, 0x7c, 0, 16, 16⟩
abbrev PACK_SHED_V_SHED : Fld := ⟨0x42, 0x7c, 0, 0, 16⟩
abbrev PACK_UNSHED_N_RSHED : Fld := ⟨0x42, 0x80, 0, 24, 8⟩
abbrev PACK_UNSHED_T_RUNSHED : Fld := ⟨0x42, 0x80, 0, 16, 8⟩
abbrev PACK_UNSHED_V_UNSHED : Fld := ⟨0x42, 0x80, 0, 0, 16⟩
abbrev PACK_B0_COEF : Fld := ⟨0x42, 0x84, 0, 0, 24⟩
abbrev PACK_B1_COEF : Fld := ⟨0x42, 0x88, 0, 0, 24⟩
abbrev PACK_B2_COEF : Fld := ⟨0x42, 0x8c, 0, 0, 24⟩
abbrev PACK_A1_COEF : Fld := ⟨0x42, 0x90, 0, 0, 24⟩
abbrev PACK_A2_COEF : Fld := ⟨0x42, 0x94, 0, 0, 24⟩
abbrev PACK_LOOP_K_V : Fld := ⟨0x42, 0x98, 0, 16, 16⟩
abbrev PACK_LOOP_BBW : Fld := ⟨0x42, 0x98, 0, 8, 8⟩
abbrev PACK_CSCAL_GAIN : Fld := ⟨0x42, 0x9c, 0, 16, 16⟩
abbrev PACK_CSCAL_OFFSET : Fld := ⟨0x42, 0x9c, 0, 0, 16⟩
abbrev PACK_VSCAL_VGAIN : Fld := ⟨0x42, 0xa0, 0, 16, 16⟩
abbrev PACK_VSCAL_VOFS : Fld := ⟨0x42, 0xa0, 0, 0, 16⟩
abbrev PACK_ETA_ETA_C : Fld := ⟨0x42, 0xa4, 0, 16, 16⟩
abbrev PACK_ETA_ETA_D : Fld := ⟨0x42, 0xa4, 0, 0, 16⟩
abbrev PACK_HICCUP_N_HIC : Fld := ⟨0x42, 0xa8, 0, 16, 8⟩
abbrev PACK_QNOM_QNOM : Fld := ⟨0x42, 0xac, 0, 0, 16⟩
abbrev PACK_STATE_ZONE : Fld := ⟨0x42, 0xb4, 0, 29, 3⟩
abbrev PACK_STATE_PHASE : Fld := ⟨0x42, 0xb4, 0, 25, 4⟩
abbrev PACK_STATE_RSHED : Fld := ⟨0x42, 0xb4, 0, 23, 2⟩
abbrev PACK_STATE_HB : Fld := ⟨0x42, 0xb4, 0, 22, 1⟩
abbrev PACK_STATE_RETOK : Fld := ⟨0x42, 0xb4, 0, 21, 1⟩
abbrev PACK_STATE_LOSS : Fld := ⟨0x42, 0xb4, 0, 20, 1⟩
abbrev PACK_STATE_CUTLATCH : Fld := ⟨0x42, 0xb4, 0, 19, 1⟩
abbrev PACK_STATE_TOLATCH : Fld := ⟨0x42, 0xb4, 0, 18, 1⟩
abbrev PACK_STATE_PRESENT : Fld := ⟨0x42, 0xb4, 0, 17, 1⟩
abbrev PACK_STATE_CODE : Fld := ⟨0x42, 0xb4, 0, 0, 4⟩
abbrev PACK_MEAS_V_HB : Fld := ⟨0x42, 0xb8, 0, 16, 16⟩
abbrev PACK_MEAS_V_PACK : Fld := ⟨0x42, 0xb8, 0, 0, 16⟩
abbrev PACK_I_PACK_I : Fld := ⟨0x42, 0xbc, 0, 0, 32⟩
abbrev PACK_T_PACK_T : Fld := ⟨0x42, 0xc0, 0, 0, 16⟩
abbrev PACK_TIMERS_T_SAFE_EL : Fld := ⟨0x42, 0xc4, 0, 16, 16⟩
abbrev PACK_TIMERS_T_RET : Fld := ⟨0x42, 0xc4, 0, 0, 16⟩
abbrev PACK_ROUNDQ_Q : Fld := ⟨0x42, 0xc8, 0, 0, 32⟩
abbrev PACK_EOUT_E : Fld := ⟨0x42, 0xcc, 0, 0, 32⟩
abbrev PACK_EIN_E : Fld := ⟨0x42, 0xd0, 0, 0, 32⟩
abbrev PACK_COUNTS_HIC : Fld := ⟨0x42, 0xd4, 0, 24, 7⟩
abbrev PACK_COUNTS_CHARGES : Fld := ⟨0x42, 0xd4, 0, 12, 12⟩
abbrev PACK_COUNTS_RIDES : Fld := ⟨0x42, 0xd4, 0, 0, 12⟩
abbrev PACK_ST_BOOSTUNMET : Nat := 14
abbrev PACK_ST_SAG : Nat := 13
abbrev PACK_ST_ZONE : Nat := 12
abbrev PACK_ST_PRESENT : Nat := 11
abbrev PACK_ST_LIMITED : Nat := 10
abbrev PACK_ST_CUTOFF : Nat := 9
abbrev PACK_ST_PRETO : Nat := 8
abbrev PACK_ST_CHGTO : Nat := 7
abbrev PACK_ST_DONE : Nat := 6
abbrev PACK_ST_PHASE : Nat := 5
abbrev PACK_ST_RSHED : Nat := 4
abbrev PACK_ST_HBDONE : Nat := 3
abbrev PACK_ST_RETURN : Nat := 2
abbrev PACK_ST_RIDE : Nat := 1
abbrev PACK_ST_LOSS : Nat := 0
abbrev PACK_ERR_TSFAIL : Nat := 4
abbrev PACK_ERR_READBACK : Nat := 3
abbrev PACK_ERR_SENSE : Nat := 2
abbrev PACK_ERR_OV : Nat := 1
abbrev FEEDS_GCFG_K_RETRY : Fld := ⟨0x43, 0x40, 0, 24, 8⟩
abbrev FEEDS_GCFG_T_STAGGER : Fld := ⟨0x43, 0x40, 0, 8, 8⟩
abbrev FEEDS_GCFG_AMB_SRC : Fld := ⟨0x43, 0x40, 0, 4, 4⟩
abbrev FEEDS_RETRY_T_RETRY_MIN : Fld := ⟨0x43, 0x44, 0, 16, 16⟩
abbrev FEEDS_RETRY_T_ONCAP : Fld := ⟨0x43, 0x44, 0, 0, 16⟩
abbrev FEEDS_GOOD_T_GOOD : Fld := ⟨0x43, 0x48, 0, 16, 16⟩
abbrev FEEDS_GOOD_V_DS_PG : Fld := ⟨0x43, 0x48, 0, 8, 8⟩
abbrev FEEDS_GOOD_T_AMB : Fld := ⟨0x43, 0x48, 0, 0, 8⟩
abbrev FEEDS_LIMITS_T_START_MAX : Fld := ⟨0x43, 0x4c, 0, 16, 16⟩
abbrev FEEDS_LIMITS_T_FET_MAX : Fld := ⟨0x43, 0x4c, 0, 0, 8⟩
abbrev FEEDS_FOSTER_TAU : Fld := ⟨0x43, 0x50, 4, 16, 16⟩
abbrev FEEDS_FOSTER_RTH : Fld := ⟨0x43, 0x50, 4, 0, 16⟩
abbrev FEEDS_PGMAP_OE : Fld := ⟨0x43, 0x5c, 0, 8, 1⟩
abbrev FEEDS_PGMAP_MAP : Fld := ⟨0x43, 0x5c, 0, 0, 8⟩
abbrev FEEDS_LEVEL_L : Fld := ⟨0x43, 0x64, 0, 0, 2⟩
abbrev FEEDS_SUMMARY_SHED : Fld := ⟨0x43, 0x68, 0, 16, 8⟩
abbrev FEEDS_SUMMARY_SEATED : Fld := ⟨0x43, 0x68, 0, 8, 8⟩
abbrev FEEDS_SUMMARY_PG : Fld := ⟨0x43, 0x68, 0, 0, 8⟩
abbrev FEEDS_CFG_RETRY_LIM : Fld := ⟨0x43, 0x80, 32, 28, 4⟩
abbrev FEEDS_CFG_AUTO : Fld := ⟨0x43, 0x80, 32, 27, 1⟩
abbrev FEEDS_CFG_SAFEON : Fld := ⟨0x43, 0x80, 32, 26, 1⟩
abbrev FEEDS_CFG_CLASS : Fld := ⟨0x43, 0x80, 32, 24, 2⟩
abbrev FEEDS_CFG_TSRC : Fld := ⟨0x43, 0x80, 32, 20, 4⟩
abbrev FEEDS_CFG_SRC : Fld := ⟨0x43, 0x80, 32, 8, 6⟩
abbrev FEEDS_CFG_EN : Fld := ⟨0x43, 0x80, 32, 0, 1⟩
abbrev FEEDS_LIM_I_OC : Fld := ⟨0x43, 0x84, 32, 16, 16⟩
abbrev FEEDS_LIM_T_OC : Fld := ⟨0x43, 0x84, 32, 0, 16⟩
abbrev FEEDS_CSCAL_GAIN : Fld := ⟨0x43, 0x88, 32, 16, 16⟩
abbrev FEEDS_CSCAL_OFFSET : Fld := ⟨0x43, 0x88, 32, 0, 16⟩
abbrev FEEDS_STATE_CONSEC : Fld := ⟨0x43, 0x8c, 32, 8, 8⟩
abbrev FEEDS_STATE_PG : Fld := ⟨0x43, 0x8c, 32, 5, 1⟩
abbrev FEEDS_STATE_SEATED : Fld := ⟨0x43, 0x8c, 32, 4, 1⟩
abbrev FEEDS_STATE_CODE : Fld := ⟨0x43, 0x8c, 32, 0, 3⟩
abbrev FEEDS_I_I : Fld := ⟨0x43, 0x90, 32, 0, 32⟩
abbrev FEEDS_TJ_VDS : Fld := ⟨0x43, 0x94, 32, 24, 8⟩
abbrev FEEDS_TJ_T : Fld := ⟨0x43, 0x94, 32, 0, 16⟩
abbrev FEEDS_TIME_OFFREM : Fld := ⟨0x43, 0x98, 32, 16, 16⟩
abbrev FEEDS_TIME_TON : Fld := ⟨0x43, 0x98, 32, 0, 16⟩
abbrev FEEDS_COUNTS_START : Fld := ⟨0x43, 0x9c, 32, 24, 7⟩
abbrev FEEDS_COUNTS_OT : Fld := ⟨0x43, 0x9c, 32, 16, 8⟩
abbrev FEEDS_COUNTS_TIMED : Fld := ⟨0x43, 0x9c, 32, 8, 8⟩
abbrev FEEDS_COUNTS_FAST : Fld := ⟨0x43, 0x9c, 32, 0, 8⟩
abbrev FEEDS_ERR_TSFAIL : Nat := 3
abbrev FEEDS_ERR_SENSE : Nat := 2
abbrev FEEDS_ERR_LOCKED : Nat := 1
abbrev SVC_CFG_SAFEON : Fld := ⟨0x44, 0x40, 0, 2, 1⟩
abbrev SVC_CFG_FSW : Fld := ⟨0x44, 0x40, 0, 0, 2⟩
abbrev SVC_TARGET_I_LIM : Fld := ⟨0x44, 0x44, 0, 16, 16⟩
abbrev SVC_TARGET_V_TGT : Fld := ⟨0x44, 0x44, 0, 0, 16⟩
abbrev SVC_SLEW_SLEW : Fld := ⟨0x44, 0x48, 0, 0, 16⟩
abbrev SVC_B0_COEF : Fld := ⟨0x44, 0x4c, 0, 0, 24⟩
abbrev SVC_CSCAL_GAIN : Fld := ⟨0x44, 0x60, 0, 16, 16⟩
abbrev SVC_CSCAL_OFFSET : Fld := ⟨0x44, 0x60, 0, 0, 16⟩
abbrev SVC_VSCAL_VGAIN : Fld := ⟨0x44, 0x64, 0, 16, 16⟩
abbrev SVC_VSCAL_VOFS : Fld := ⟨0x44, 0x64, 0, 0, 16⟩
abbrev SVC_STATE_CODE : Fld := ⟨0x44, 0x68, 0, 0, 3⟩
abbrev SVC_MEAS_I : Fld := ⟨0x44, 0x6c, 0, 16, 16⟩
abbrev SVC_MEAS_V : Fld := ⟨0x44, 0x6c, 0, 0, 16⟩
abbrev SVC_ST_SOFTDONE : Nat := 3
abbrev SVC_ST_HICCUP : Nat := 2
abbrev SVC_ST_LIMITED : Nat := 1
abbrev SVC_ERR_READBACK : Nat := 4
abbrev SVC_ERR_SENSE : Nat := 3
abbrev IBC_CFG_SKIP_EN : Fld := ⟨0x48, 0x40, 0, 4, 1⟩
abbrev IBC_CFG_DE_EN : Fld := ⟨0x48, 0x40, 0, 3, 1⟩
abbrev IBC_CFG_PH2 : Fld := ⟨0x48, 0x40, 0, 2, 1⟩
abbrev IBC_CFG_FSW : Fld := ⟨0x48, 0x40, 0, 0, 2⟩
abbrev IBC_VSET_V_IB : Fld := ⟨0x48, 0x44, 0, 0, 16⟩
abbrev IBC_SOFT_D_SKIP : Fld := ⟨0x48, 0x48, 0, 16, 16⟩
abbrev IBC_SOFT_T_SS : Fld := ⟨0x48, 0x48, 0, 0, 16⟩
abbrev IBC_HICCUP_N_HIC : Fld := ⟨0x48, 0x4c, 0, 16, 8⟩
abbrev IBC_B0_COEF : Fld := ⟨0x48, 0x50, 0, 0, 24⟩
abbrev IBC_BAL_NATILIM : Fld := ⟨0x48, 0x64, 0, 16, 16⟩
abbrev IBC_BAL_K_BAL : Fld := ⟨0x48, 0x64, 0, 0, 16⟩
abbrev IBC_CSCAL0_GAIN : Fld := ⟨0x48, 0x68, 0, 16, 16⟩
abbrev IBC_CSCAL0_OFFSET : Fld := ⟨0x48, 0x68, 0, 0, 16⟩
abbrev IBC_CSCAL1_GAIN : Fld := ⟨0x48, 0x6c, 0, 16, 16⟩
abbrev IBC_CSCAL1_OFFSET : Fld := ⟨0x48, 0x6c, 0, 0, 16⟩
abbrev IBC_VSCAL_VGAIN : Fld := ⟨0x48, 0x70, 0, 16, 16⟩
abbrev IBC_VSCAL_VOFS : Fld := ⟨0x48, 0x70, 0, 0, 16⟩
abbrev IBC_STATE_NATIVE : Fld := ⟨0x48, 0x74, 0, 3, 1⟩
abbrev IBC_STATE_DE : Fld := ⟨0x48, 0x74, 0, 1, 2⟩
abbrev IBC_STATE_HIC : Fld := ⟨0x48, 0x74, 0, 0, 1⟩
abbrev IBC_MEAS_I_TOT : Fld := ⟨0x48, 0x78, 0, 16, 16⟩
abbrev IBC_MEAS_V_IB : Fld := ⟨0x48, 0x78, 0, 0, 16⟩
abbrev IBC_DUTY_D1 : Fld := ⟨0x48, 0x7c, 0, 16, 16⟩
abbrev IBC_DUTY_D0 : Fld := ⟨0x48, 0x7c, 0, 0, 16⟩
abbrev IBC_ST_TRIMSAT : Nat := 6
abbrev IBC_ST_NATIVE : Nat := 5
abbrev IBC_ST_DE : Nat := 4
abbrev IBC_ST_SOFTDONE : Nat := 3
abbrev IBC_ST_HICCUP : Nat := 2
abbrev IBC_ST_LIMITED : Nat := 1
abbrev IBC_ST_PG : Nat := 0
abbrev IBC_ERR_READBACK : Nat := 4
abbrev IBC_ERR_SENSE : Nat := 3
abbrev IBC_ERR_OV : Nat := 2
abbrev IBC_ERR_UV : Nat := 1
abbrev POL_CFG_ADIS : Fld := ⟨0x49, 0x40, 0, 4, 1⟩
abbrev POL_CFG_PHASE : Fld := ⟨0x49, 0x40, 0, 2, 2⟩
abbrev POL_CFG_LLM : Fld := ⟨0x49, 0x40, 0, 1, 1⟩
abbrev POL_CFG_FSW : Fld := ⟨0x49, 0x40, 0, 0, 1⟩
abbrev POL_VSET_VSET : Fld := ⟨0x49, 0x44, 0, 0, 8⟩
abbrev POL_SOFT_T_SS : Fld := ⟨0x49, 0x48, 0, 0, 16⟩
abbrev POL_ILIM_N_HIC : Fld := ⟨0x49, 0x4c, 0, 16, 8⟩
abbrev POL_ILIM_ILIM : Fld := ⟨0x49, 0x4c, 0, 24, 8⟩
abbrev POL_TRIM_TRIM_MAX : Fld := ⟨0x49, 0x50, 0, 24, 8⟩
abbrev POL_TRIM_KI : Fld := ⟨0x49, 0x50, 0, 16, 4⟩
abbrev POL_TRIM_TRIM : Fld := ⟨0x49, 0x50, 0, 0, 8⟩
abbrev POL_MEAS_I_OUT : Fld := ⟨0x49, 0x54, 0, 16, 16⟩
abbrev POL_MEAS_V_OUT : Fld := ⟨0x49, 0x54, 0, 0, 16⟩
abbrev POL_STATE_THROTTLE : Fld := ⟨0x49, 0x58, 0, 4, 4⟩
abbrev POL_STATE_DE : Fld := ⟨0x49, 0x58, 0, 0, 1⟩
abbrev LDO_CTL_ILIM : Fld := ⟨0x4d, 0x40, 16, 24, 8⟩
abbrev LDO_CTL_T_SS : Fld := ⟨0x4d, 0x40, 16, 16, 8⟩
abbrev LDO_CTL_ADIS : Fld := ⟨0x4d, 0x40, 16, 15, 1⟩
abbrev LDO_CTL_VSET : Fld := ⟨0x4d, 0x40, 16, 8, 7⟩
abbrev LDO_TRIM_TRIM_MAX : Fld := ⟨0x4d, 0x44, 16, 24, 8⟩
abbrev LDO_TRIM_KI : Fld := ⟨0x4d, 0x44, 16, 16, 4⟩
abbrev LDO_TRIM_TRIM : Fld := ⟨0x4d, 0x44, 16, 0, 8⟩
abbrev LDO_MEAS_I_OUT : Fld := ⟨0x4d, 0x48, 16, 16, 16⟩
abbrev LDO_MEAS_V_OUT : Fld := ⟨0x4d, 0x48, 16, 0, 16⟩
abbrev LDO_STATE_THROTTLE : Fld := ⟨0x4d, 0x4c, 16, 4, 4⟩
abbrev SEQ_CFG_AUTORST : Fld := ⟨0x4e, 0x40, 0, 0, 1⟩
abbrev SEQ_VHB_V_HBON : Fld := ⟨0x4e, 0x48, 0, 16, 16⟩
abbrev SEQ_VHB_V_HBFALL : Fld := ⟨0x4e, 0x48, 0, 0, 16⟩
abbrev SEQ_OFFMIN_T_OFF_MIN : Fld := ⟨0x4e, 0x4c, 0, 0, 16⟩
abbrev SEQ_STATE_PHASE : Fld := ⟨0x4e, 0x50, 0, 28, 4⟩
abbrev SEQ_STATE_SLOT : Fld := ⟨0x4e, 0x50, 0, 24, 4⟩
abbrev SEQ_PGOOD_ON : Fld := ⟨0x4e, 0x54, 0, 16, 15⟩
abbrev SEQ_PGOOD_PG : Fld := ⟨0x4e, 0x54, 0, 0, 15⟩
abbrev SEQ_FIRST_KIND : Fld := ⟨0x4e, 0x60, 0, 8, 8⟩
abbrev SEQ_FIRST_RAIL : Fld := ⟨0x4e, 0x60, 0, 0, 5⟩
abbrev SEQ_FORCED_R : Fld := ⟨0x4e, 0x64, 0, 0, 15⟩
abbrev SEQ_RSTCTL_LEVEL : Fld := ⟨0x4e, 0x68, 0, 16, 4⟩
abbrev SEQ_RSTCTL_FORCE : Fld := ⟨0x4e, 0x68, 0, 0, 4⟩
abbrev SEQ_RSTG_MASK : Fld := ⟨0x4e, 0x70, 4, 0, 15⟩
abbrev SEQ_RAIL_EN : Fld := ⟨0x4e, 0x80, 4, 31, 1⟩
abbrev SEQ_RAIL_HIBKEEP : Fld := ⟨0x4e, 0x80, 4, 30, 1⟩
abbrev SEQ_RAIL_ORDER : Fld := ⟨0x4e, 0x80, 4, 24, 4⟩
abbrev SEQ_RAIL_OFFC : Fld := ⟨0x4e, 0x80, 4, 12, 2⟩
abbrev SEQ_RAIL_OVC : Fld := ⟨0x4e, 0x80, 4, 8, 3⟩
abbrev SEQ_RAIL_UVC : Fld := ⟨0x4e, 0x80, 4, 4, 3⟩
abbrev THERM_CFG_T_THROTTLE : Fld := ⟨0x4f, 0x40, 0, 24, 8⟩
abbrev THERM_CFG_TD_MAX : Fld := ⟨0x4f, 0x40, 0, 20, 4⟩
abbrev THERM_CFG_TC_MAX : Fld := ⟨0x4f, 0x40, 0, 16, 4⟩
abbrev THERM_LEVEL_TD : Fld := ⟨0x4f, 0x48, 0, 0, 4⟩
abbrev THERM_CHLVL0_TC : Fld := ⟨0x4f, 0x4c, 0, 0, 4⟩  -- repeats every 4 bits
abbrev THERM_CHLVL1_TC : Fld := ⟨0x4f, 0x50, 0, 0, 4⟩  -- repeats every 4 bits
abbrev THERM_CHSRC0_SRC : Fld := ⟨0x4f, 0x54, 0, 0, 4⟩  -- repeats every 4 bits
abbrev THERM_CHSRC1_SRC : Fld := ⟨0x4f, 0x58, 0, 0, 4⟩  -- repeats every 4 bits
abbrev THERM_TEMP_MAX_VALID : Fld := ⟨0x4f, 0x5c, 0, 31, 1⟩
abbrev THERM_TEMP_MAX_SENSOR : Fld := ⟨0x4f, 0x5c, 0, 16, 4⟩
abbrev THERM_TEMP_MAX_T : Fld := ⟨0x4f, 0x5c, 0, 0, 16⟩
abbrev THERM_TS_VALID : Fld := ⟨0x4f, 0x60, 4, 31, 1⟩
abbrev THERM_TS_T : Fld := ⟨0x4f, 0x60, 4, 0, 16⟩
abbrev THERM_AUXCFG_MODE : Fld := ⟨0x4f, 0x90, 4, 30, 2⟩
abbrev THERM_AUXCFG_T_AUXTHR : Fld := ⟨0x4f, 0x90, 4, 16, 8⟩
abbrev THERM_AUXCFG_R_PU : Fld := ⟨0x4f, 0x90, 4, 0, 16⟩
abbrev THERM_AUXNTC_BETA : Fld := ⟨0x4f, 0xb0, 4, 16, 16⟩
abbrev THERM_AUXNTC_R0 : Fld := ⟨0x4f, 0xb0, 4, 0, 16⟩
abbrev THERM_AUXT_VALID : Fld := ⟨0x4f, 0xd0, 4, 31, 1⟩
abbrev THERM_AUXT_T : Fld := ⟨0x4f, 0xd0, 4, 0, 16⟩
abbrev THERM_XTAL_K : Fld := ⟨0x4f, 0xf0, 0, 24, 8⟩
abbrev THERM_XTAL_XTSRC : Fld := ⟨0x4f, 0xf0, 0, 20, 4⟩
abbrev THERM_XTAL_T0 : Fld := ⟨0x4f, 0xf0, 0, 0, 16⟩
abbrev THERM_COMP_XT : Fld := ⟨0x4f, 0xf4, 0, 16, 16⟩
abbrev THERM_COMP_GRC : Fld := ⟨0x4f, 0xf4, 0, 8, 8⟩
abbrev THERM_COMP_CRC : Fld := ⟨0x4f, 0xf4, 0, 0, 8⟩
abbrev THERM_ST_THRMAX : Nat := 6
abbrev THERM_ST_COOLED : Nat := 5
abbrev THERM_ST_HOT : Nat := 4
abbrev THERM_ST_AUTOSTEP : Nat := 3
abbrev THERM_ST_CHSTEP : Nat := 2
abbrev THERM_ST_STEPDN : Nat := 1
abbrev THERM_ST_STEPUP : Nat := 0
abbrev THERM_ERR_SHUT : Nat := 4
abbrev THERM_ERR_TSFAIL : Nat := 3
abbrev THERM_ERR_AUXFAIL : Nat := 2
abbrev THERM_ERR_STALE : Nat := 1
abbrev FAULT_REACT_BUSY : Fld := ⟨0x50, 0x50, 0, 31, 1⟩
abbrev FAULT_REACT_INJ : Fld := ⟨0x50, 0x50, 0, 30, 1⟩
abbrev FAULT_REACT_CLASS : Fld := ⟨0x50, 0x50, 0, 24, 3⟩
abbrev FAULT_REACT_FIRST : Fld := ⟨0x50, 0x50, 0, 16, 6⟩
abbrev FAULT_REACT_SEQ : Fld := ⟨0x50, 0x50, 0, 0, 16⟩
abbrev FAULT_MMASK_LO_MASK : Fld := ⟨0x50, 0x54, 0, 0, 32⟩
abbrev FAULT_MMASK_HI_MASK : Fld := ⟨0x50, 0x58, 0, 0, 32⟩
abbrev FAULT_HOLDS_HIGHEST : Fld := ⟨0x50, 0x5c, 0, 8, 3⟩
abbrev FAULT_HOLDS_FAULTN : Fld := ⟨0x50, 0x5c, 0, 3, 1⟩
abbrev FAULT_HOLDS_FULL : Fld := ⟨0x50, 0x5c, 0, 2, 1⟩
abbrev FAULT_HOLDS_HALT : Fld := ⟨0x50, 0x5c, 0, 1, 1⟩
abbrev FAULT_HOLDS_SHED : Fld := ⟨0x50, 0x5c, 0, 0, 1⟩
abbrev FAULT_CFG_LOCK : Fld := ⟨0x50, 0x60, 0, 31, 1⟩
abbrev FAULT_CFG_LOGMIN : Fld := ⟨0x50, 0x60, 0, 16, 3⟩
abbrev FAULT_RAISE_SET : Fld := ⟨0x50, 0x64, 0, 0, 7⟩
abbrev FAULT_COUNTS_STOPS : Fld := ⟨0x50, 0x68, 0, 24, 7⟩
abbrev FAULT_COUNTS_REPEAT : Fld := ⟨0x50, 0x68, 0, 12, 12⟩
abbrev FAULT_COUNTS_RECORDS : Fld := ⟨0x50, 0x68, 0, 0, 12⟩
abbrev FAULT_LOGSTAT_LOST : Fld := ⟨0x50, 0x6c, 0, 20, 12⟩
abbrev FAULT_LOGSTAT_PEND : Fld := ⟨0x50, 0x6c, 0, 16, 4⟩
abbrev FAULT_LOGSTAT_NEXT : Fld := ⟨0x50, 0x6c, 0, 0, 10⟩
abbrev FAULT_SNUFFRB_VALID : Fld := ⟨0x50, 0x70, 0, 31, 1⟩
abbrev FAULT_SNUFFRB_PAD : Fld := ⟨0x50, 0x70, 0, 0, 7⟩
abbrev FAULT_CLKMON_ISL : Fld := ⟨0x50, 0x74, 0, 1, 6⟩
abbrev FAULT_CLKMON_REF : Fld := ⟨0x50, 0x74, 0, 0, 1⟩
abbrev FAULT_CLASS_C : Fld := ⟨0x50, 0x80, 4, 0, 4⟩  -- repeats every 4 bits
abbrev FAULT_ST_LOGINIT : Nat := 5
abbrev FAULT_ST_LOGLOST : Nat := 4
abbrev FAULT_ST_CLRREF : Nat := 3
abbrev FAULT_ST_REPEAT : Nat := 2
abbrev FAULT_ST_REACTEND : Nat := 1
abbrev FAULT_ST_LATCH : Nat := 0
abbrev FAULT_ERR_LINE : Nat := 3
abbrev FAULT_ERR_SNUFFRB : Nat := 2
abbrev WDOG_CFG_DIV : Fld := ⟨0x51, 0x40, 0, 16, 16⟩
abbrev WDOG_CFG_HIBSTOP : Fld := ⟨0x51, 0x40, 0, 2, 1⟩
abbrev WDOG_CFG_ACTION : Fld := ⟨0x51, 0x40, 0, 1, 1⟩
abbrev WDOG_CFG_CLKSEL : Fld := ⟨0x51, 0x40, 0, 0, 1⟩
abbrev WDOG_WIN_CLOSE : Fld := ⟨0x51, 0x44, 0, 16, 16⟩
abbrev WDOG_WIN_OPEN : Fld := ⟨0x51, 0x44, 0, 0, 16⟩
abbrev WDOG_WIN1_CLOSE_FIRST : Fld := ⟨0x51, 0x48, 0, 16, 16⟩
abbrev WDOG_WIN1_WARN : Fld := ⟨0x51, 0x48, 0, 0, 16⟩
abbrev WDOG_TASKEN_EN : Fld := ⟨0x51, 0x4c, 0, 0, 16⟩
abbrev WDOG_TASKLIM_MAX : Fld := ⟨0x51, 0x50, 4, 4, 4⟩  -- repeats every 8 bits
abbrev WDOG_TASKLIM_MIN : Fld := ⟨0x51, 0x50, 4, 0, 4⟩  -- repeats every 8 bits
abbrev WDOG_STATE_COUNT : Fld := ⟨0x51, 0x68, 0, 0, 16⟩
abbrev WDOG_TASKCNT0_Ct : Fld := ⟨0x51, 0x6c, 0, 0, 4⟩  -- repeats every 4 bits
abbrev WDOG_TASKCNT1_Ct : Fld := ⟨0x51, 0x70, 0, 0, 4⟩  -- repeats every 4 bits
abbrev WDOG_BITE0_EXCESS : Fld := ⟨0x51, 0x74, 0, 16, 16⟩
abbrev WDOG_BITE0_MISSING : Fld := ⟨0x51, 0x74, 0, 0, 16⟩
abbrev WDOG_BITE1_CAUSE : Fld := ⟨0x51, 0x78, 0, 16, 3⟩
abbrev WDOG_BITE1_COUNT : Fld := ⟨0x51, 0x78, 0, 0, 16⟩
abbrev WDOG_ST_BITE : Nat := 2
abbrev WDOG_ST_WARN : Nat := 1
abbrev WDOG_ST_SERVICED : Nat := 0
abbrev WDOG_ERR_LOCKWR : Nat := 2
abbrev WDOG_ERR_CLKFAIL : Nat := 1
abbrev RTC_SET_HI_HI : Fld := ⟨0x52, 0x4c, 0, 0, 16⟩
abbrev RTC_TRIM_VALUE : Fld := ⟨0x52, 0x54, 0, 0, 14⟩
abbrev RTC_ALM_HI_WAKE : Fld := ⟨0x52, 0x5c, 12, 18, 1⟩
abbrev RTC_ALM_HI_PWRON : Fld := ⟨0x52, 0x5c, 12, 17, 1⟩
abbrev RTC_ALM_HI_EN : Fld := ⟨0x52, 0x5c, 12, 16, 1⟩
abbrev RTC_ALM_HI_HI : Fld := ⟨0x52, 0x5c, 12, 0, 16⟩
abbrev RTC_ALM_PER_PER : Fld := ⟨0x52, 0x60, 12, 0, 32⟩
abbrev RTC_SRC_FROZEN : Fld := ⟨0x52, 0x70, 0, 1, 1⟩
abbrev RTC_SRC_FALLBACK : Fld := ⟨0x52, 0x70, 0, 0, 1⟩
abbrev RTC_ST_XTOK : Nat := 4
abbrev RTC_ST_FRZTO : Nat := 3
abbrev RTC_ST_SETDONE : Nat := 2
abbrev RTC_ST_ALM1 : Nat := 1
abbrev RTC_ST_ALM0 : Nat := 0
abbrev RTC_ERR_XTAL : Nat := 1
abbrev CELLAR_PWRON_SET : Fld := ⟨0x53, 0x40, 0, 0, 1⟩
abbrev CELLAR_WAKEEN_SRC : Fld := ⟨0x53, 0x44, 0, 0, 5⟩
abbrev CELLAR_PWRMAP_SRC : Fld := ⟨0x53, 0x48, 0, 0, 5⟩
abbrev CELLAR_WAKESRC_ALM : Fld := ⟨0x53, 0x4c, 0, 5, 2⟩
abbrev CELLAR_WAKESRC_SRC : Fld := ⟨0x53, 0x4c, 0, 0, 5⟩
abbrev CELLAR_CFG_V_CELLLOW : Fld := ⟨0x53, 0x50, 0, 0, 16⟩
abbrev CELLAR_SUPPLY_LOWCELL : Fld := ⟨0x53, 0x54, 0, 1, 1⟩
abbrev CELLAR_SUPPLY_ONBIAS : Fld := ⟨0x53, 0x54, 0, 0, 1⟩
abbrev CELLAR_ST_LOWCELL : Nat := 3
abbrev CELLAR_ST_PWRON : Nat := 2
abbrev CELLAR_ST_WAKE : Nat := 1
abbrev CELLAR_ERR_PWRONRB : Nat := 2
abbrev CELLAR_ERR_RECCRC : Nat := 1
abbrev EVQ_CFGA_THR : Fld := ⟨0x54, 0x40, 0, 8, 8⟩
abbrev EVQ_CFGA_IDLEBYP : Fld := ⟨0x54, 0x40, 0, 3, 1⟩
abbrev EVQ_CFGA_DONEMODE : Fld := ⟨0x54, 0x40, 0, 2, 1⟩
abbrev EVQ_CFGA_IRQEN : Fld := ⟨0x54, 0x40, 0, 1, 1⟩
abbrev EVQ_CFGB_IRQEN : Fld := ⟨0x54, 0x44, 0, 1, 1⟩
abbrev EVQ_CROUTE_ROUTE : Fld := ⟨0x54, 0x54, 0, 0, 16⟩
abbrev EVQ_RPTRA_PTR : Fld := ⟨0x54, 0x58, 0, 0, 10⟩
abbrev EVQ_WPTRA_PTR : Fld := ⟨0x54, 0x5c, 0, 0, 10⟩
abbrev EVQ_RPTRB_PTR : Fld := ⟨0x54, 0x60, 0, 0, 10⟩
abbrev EVQ_WPTRB_PTR : Fld := ⟨0x54, 0x64, 0, 0, 10⟩
abbrev EVQ_STATEA_NEXTSEQ : Fld := ⟨0x54, 0x68, 0, 16, 16⟩
abbrev EVQ_STATEA_IRQ : Fld := ⟨0x54, 0x68, 0, 15, 1⟩
abbrev EVQ_STATEA_IDLE : Fld := ⟨0x54, 0x68, 0, 14, 1⟩
abbrev EVQ_STATEA_COUNT : Fld := ⟨0x54, 0x68, 0, 0, 10⟩
abbrev EVQ_STATEB_COUNT : Fld := ⟨0x54, 0x6c, 0, 0, 10⟩
abbrev EVQ_LOST_B : Fld := ⟨0x54, 0x70, 0, 16, 15⟩
abbrev EVQ_LOST_A : Fld := ⟨0x54, 0x70, 0, 0, 15⟩
abbrev EVQ_SRCQ_SRC : Fld := ⟨0x54, 0x78, 0, 0, 10⟩
abbrev EVQ_SRCSTATE_STATE : Fld := ⟨0x54, 0x7c, 0, 0, 2⟩
abbrev EVQ_HOLD_LOST : Fld := ⟨0x54, 0x80, 0, 8, 8⟩
abbrev EVQ_HOLD_LEVEL : Fld := ⟨0x54, 0x80, 0, 0, 5⟩
abbrev EVQ_ST_HELDLOST : Nat := 4
abbrev EVQ_ST_BADPTR : Nat := 3
abbrev EVQ_ST_BADDONE : Nat := 2
abbrev EVQ_ST_OVFB : Nat := 1
abbrev EVQ_ST_OVFA : Nat := 0
abbrev EVQ_ERR_STATEECC : Nat := 1
abbrev SPI_COUNTS_BAD : Fld := ⟨0x58, 0x40, 0, 16, 15⟩
abbrev SPI_COUNTS_GOOD : Fld := ⟨0x58, 0x40, 0, 0, 16⟩
abbrev SPI_LASTBAD_CMD : Fld := ⟨0x58, 0x44, 0, 24, 8⟩
abbrev SPI_LASTBAD_ADDR : Fld := ⟨0x58, 0x44, 0, 0, 24⟩
abbrev SPI_ST_CUT : Nat := 6
abbrev SPI_ST_RMTREJ : Nat := 5
abbrev SPI_ST_BUSYREJ : Nat := 4
abbrev SPI_ST_FRAME : Nat := 3
abbrev SPI_ST_CRCERR : Nat := 2
abbrev SPI_ST_ABORT : Nat := 1
abbrev SPI_ST_ACCEPT : Nat := 0
abbrev I2CT_CFG_T_HNREP : Fld := ⟨0x59, 0x40, 0, 16, 16⟩
abbrev I2CT_CFG_ADDR : Fld := ⟨0x59, 0x40, 0, 8, 3⟩
abbrev I2CT_CFG_TIMEOUT : Fld := ⟨0x59, 0x40, 0, 3, 1⟩
abbrev I2CT_CFG_HNB : Fld := ⟨0x59, 0x40, 0, 2, 1⟩
abbrev I2CT_CFG_HNA : Fld := ⟨0x59, 0x40, 0, 1, 1⟩
abbrev I2CT_CFG_PEC : Fld := ⟨0x59, 0x40, 0, 0, 1⟩
abbrev I2CT_COUNTS_BAD : Fld := ⟨0x59, 0x44, 0, 16, 15⟩
abbrev I2CT_COUNTS_GOOD : Fld := ⟨0x59, 0x44, 0, 0, 16⟩
abbrev I2CT_ST_WAKE : Nat := 9
abbrev I2CT_ST_HNFAIL : Nat := 8
abbrev I2CT_ST_HNSENT : Nat := 7
abbrev I2CT_ST_TIMEOUT : Nat := 6
abbrev I2CT_ST_RMTREJ : Nat := 5
abbrev I2CT_ST_NOCMD : Nat := 4
abbrev I2CT_ST_BUSYNAK : Nat := 3
abbrev I2CT_ST_PECERR : Nat := 2
abbrev I2CT_ST_FRAME : Nat := 1
abbrev I2CT_ST_ACCEPT : Nat := 0
abbrev I2CC_XFER_GO : Fld := ⟨0x5a, 0x44, 0, 31, 1⟩
abbrev I2CC_XFER_TARGET : Fld := ⟨0x5a, 0x44, 0, 16, 7⟩
abbrev I2CC_XFER_RDLEN : Fld := ⟨0x5a, 0x44, 0, 8, 5⟩
abbrev I2CC_XFER_WRLEN : Fld := ⟨0x5a, 0x44, 0, 0, 5⟩
abbrev I2CC_STATE_BUSY : Fld := ⟨0x5a, 0x48, 0, 31, 1⟩
abbrev I2CC_STATE_RESULT : Fld := ⟨0x5a, 0x48, 0, 16, 3⟩
abbrev I2CC_STATE_BYTE : Fld := ⟨0x5a, 0x48, 0, 8, 5⟩
abbrev I2CC_RX_B : Fld := ⟨0x5a, 0x5c, 4, 0, 32⟩
abbrev I2CC_ST_REJ : Nat := 2
abbrev I2CC_ST_FAIL : Nat := 1
abbrev I2CC_ST_DONE : Nat := 0
abbrev I2CC_ERR_STUCK : Nat := 1
abbrev TYPEC_CFG_VCONN_EN : Fld := ⟨0x5c, 0x40, 0, 5, 1⟩
abbrev TYPEC_CFG_RP : Fld := ⟨0x5c, 0x40, 0, 3, 2⟩
abbrev TYPEC_CFG_TRYSNK : Fld := ⟨0x5c, 0x40, 0, 2, 1⟩
abbrev TYPEC_CFG_ROLE : Fld := ⟨0x5c, 0x40, 0, 0, 2⟩
abbrev TYPEC_SRCCOND_V_HBSRC : Fld := ⟨0x5c, 0x44, 0, 0, 16⟩
abbrev TYPEC_STATE_SRC_OK : Fld := ⟨0x5c, 0x4c, 0, 9, 1⟩
abbrev TYPEC_STATE_DEADBAT : Fld := ⟨0x5c, 0x4c, 0, 8, 1⟩
abbrev TYPEC_STATE_FRSARM : Fld := ⟨0x5c, 0x4c, 0, 7, 1⟩
abbrev TYPEC_STATE_VCONN : Fld := ⟨0x5c, 0x4c, 0, 6, 1⟩
abbrev TYPEC_STATE_RPSEEN : Fld := ⟨0x5c, 0x4c, 0, 4, 2⟩
abbrev TYPEC_STATE_ORIENT : Fld := ⟨0x5c, 0x4c, 0, 3, 1⟩
abbrev TYPEC_STATE_CODE : Fld := ⟨0x5c, 0x4c, 0, 0, 3⟩
abbrev TYPEC_VBUS_V : Fld := ⟨0x5c, 0x50, 0, 0, 16⟩
abbrev TYPEC_ST_SRCLOST : Nat := 5
abbrev TYPEC_ST_ERRREC : Nat := 4
abbrev TYPEC_ST_VCONNOC : Nat := 3
abbrev TYPEC_ST_ACCESSORY : Nat := 2
abbrev TYPEC_ST_DETACH : Nat := 1
abbrev TYPEC_ST_ATTACH : Nat := 0
abbrev TYPEC_ERR_VBUSOV : Nat := 2
abbrev TYPEC_ERR_POLICY : Nat := 1
abbrev PD_CFG_SNKMIN : Fld := ⟨0x5d, 0x40, 0, 8, 8⟩
abbrev PD_CFG_LANTERN_AUTO : Fld := ⟨0x5d, 0x40, 0, 6, 1⟩
abbrev PD_CFG_FRS_SNK_EN : Fld := ⟨0x5d, 0x40, 0, 5, 1⟩
abbrev PD_CFG_FRS_SRC_EN : Fld := ⟨0x5d, 0x40, 0, 4, 1⟩
abbrev PD_CFG_ACC_VCS : Fld := ⟨0x5d, 0x40, 0, 3, 1⟩
abbrev PD_CFG_ACC_DRS : Fld := ⟨0x5d, 0x40, 0, 2, 1⟩
abbrev PD_CFG_ACC_PRS : Fld := ⟨0x5d, 0x40, 0, 1, 1⟩
abbrev PD_CFG_PD_EN : Fld := ⟨0x5d, 0x40, 0, 0, 1⟩
abbrev PD_SRCPDO_PDO : Fld := ⟨0x5d, 0x44, 4, 0, 32⟩
abbrev PD_SNKPDO_PDO : Fld := ⟨0x5d, 0x54, 4, 0, 32⟩
abbrev PD_SVID_SVID : Fld := ⟨0x5d, 0x64, 0, 0, 16⟩
abbrev PD_MODEVDO_VDO : Fld := ⟨0x5d, 0x68, 0, 0, 32⟩
abbrev PD_IDHDR_VDO : Fld := ⟨0x5d, 0x6c, 0, 0, 32⟩
abbrev PD_IDPROD_VDO : Fld := ⟨0x5d, 0x70, 0, 0, 32⟩
abbrev PD_CONTRACT_VALID : Fld := ⟨0x5d, 0x74, 0, 31, 1⟩
abbrev PD_CONTRACT_PROLE : Fld := ⟨0x5d, 0x74, 0, 30, 1⟩
abbrev PD_CONTRACT_DROLE : Fld := ⟨0x5d, 0x74, 0, 29, 1⟩
abbrev PD_CONTRACT_VCONNSRC : Fld := ⟨0x5d, 0x74, 0, 28, 1⟩
abbrev PD_CONTRACT_FIVEONLY : Fld := ⟨0x5d, 0x74, 0, 27, 1⟩
abbrev PD_CONTRACT_POS : Fld := ⟨0x5d, 0x74, 0, 24, 3⟩
abbrev PD_CONTRACT_V : Fld := ⟨0x5d, 0x74, 0, 14, 10⟩
abbrev PD_CONTRACT_I : Fld := ⟨0x5d, 0x74, 0, 0, 10⟩
abbrev PD_RDO_RDO : Fld := ⟨0x5d, 0x78, 0, 0, 32⟩
abbrev PD_PARTNER_FRSCUR : Fld := ⟨0x5d, 0x7c, 0, 0, 2⟩
abbrev PD_SNKLIM_I : Fld := ⟨0x5d, 0x80, 0, 0, 16⟩
abbrev PD_TXVDM_VDO : Fld := ⟨0x5d, 0xa0, 4, 0, 32⟩
abbrev PD_RXVDM_VDO : Fld := ⟨0x5d, 0xc0, 4, 0, 32⟩
abbrev PD_RXINFO_FULL : Fld := ⟨0x5d, 0xdc, 0, 3, 1⟩
abbrev PD_RXINFO_COUNT : Fld := ⟨0x5d, 0xdc, 0, 0, 3⟩
abbrev PD_COUNTS_HARD : Fld := ⟨0x5d, 0xe0, 0, 16, 8⟩
abbrev PD_COUNTS_SOFT : Fld := ⟨0x5d, 0xe0, 0, 8, 8⟩
abbrev PD_COUNTS_CRCERR : Fld := ⟨0x5d, 0xe0, 0, 0, 8⟩
abbrev PD_ST_SWAPLOST : Nat := 10
abbrev PD_ST_MISMATCH : Nat := 9
abbrev PD_ST_LANTERN : Nat := 8
abbrev PD_ST_VDMTXFAIL : Nat := 7
abbrev PD_ST_VDMTXDONE : Nat := 6
abbrev PD_ST_VDMRX : Nat := 5
abbrev PD_ST_HARDRESET : Nat := 4
abbrev PD_ST_FRS : Nat := 3
abbrev PD_ST_SWAP : Nat := 2
abbrev PD_ST_REJECT : Nat := 1
abbrev PD_ST_CONTRACT : Nat := 0
abbrev PD_ERR_NORESP : Nat := 2
abbrev PD_ERR_PDO : Nat := 1
abbrev RING_CFG_SIZE : Fld := ⟨0x60, 0x40, 0, 22, 10⟩
abbrev RING_CFG_SNUFFMIN : Fld := ⟨0x60, 0x40, 0, 12, 3⟩
abbrev RING_CFG_WAKEFWD : Fld := ⟨0x60, 0x40, 0, 5, 1⟩
abbrev RING_CFG_AUTOENUM : Fld := ⟨0x60, 0x40, 0, 4, 1⟩
abbrev RING_CFG_SUMEN : Fld := ⟨0x60, 0x40, 0, 3, 1⟩
abbrev RING_CFG_EPEN : Fld := ⟨0x60, 0x40, 0, 2, 1⟩
abbrev RING_CFG_TIMEEN : Fld := ⟨0x60, 0x40, 0, 1, 1⟩
abbrev RING_SERVO_KP : Fld := ⟨0x60, 0x4c, 0, 24, 8⟩
abbrev RING_SERVO_KI : Fld := ⟨0x60, 0x4c, 0, 16, 8⟩
abbrev RING_SERVO_STEER_MAX : Fld := ⟨0x60, 0x4c, 0, 0, 16⟩
abbrev RING_SERVO2_STEER_SLEW : Fld := ⟨0x60, 0x50, 0, 0, 16⟩
abbrev RING_ASYM_ASYM_E : Fld := ⟨0x60, 0x54, 0, 16, 16⟩
abbrev RING_ASYM_ASYM_W : Fld := ⟨0x60, 0x54, 0, 0, 16⟩
abbrev RING_EPSET_E : Fld := ⟨0x60, 0x5c, 0, 0, 32⟩
abbrev RING_STATE_HEAD : Fld := ⟨0x60, 0x60, 0, 31, 1⟩
abbrev RING_STATE_ENUM : Fld := ⟨0x60, 0x60, 0, 30, 1⟩
abbrev RING_STATE_LOCKED : Fld := ⟨0x60, 0x60, 0, 29, 1⟩
abbrev RING_STATE_TIMEVALID : Fld := ⟨0x60, 0x60, 0, 28, 1⟩
abbrev RING_STATE_HEADLOST : Fld := ⟨0x60, 0x60, 0, 27, 1⟩
abbrev RING_STATE_NOSTEER : Fld := ⟨0x60, 0x60, 0, 26, 1⟩
abbrev RING_STATE_TOPO : Fld := ⟨0x60, 0x60, 0, 24, 2⟩
abbrev RING_STATE_EUP : Fld := ⟨0x60, 0x60, 0, 23, 1⟩
abbrev RING_STATE_WUP : Fld := ⟨0x60, 0x60, 0, 22, 1⟩
abbrev RING_STATE_EQUIET : Fld := ⟨0x60, 0x60, 0, 21, 1⟩
abbrev RING_STATE_WQUIET : Fld := ⟨0x60, 0x60, 0, 20, 1⟩
abbrev RING_STATE_N : Fld := ⟨0x60, 0x60, 0, 0, 10⟩
abbrev RING_NUM_VALID : Fld := ⟨0x60, 0x64, 0, 15, 1⟩
abbrev RING_NUM_DEVNUM : Fld := ⟨0x60, 0x64, 0, 0, 9⟩
abbrev RING_ENUM_RES_COUNT : Fld := ⟨0x60, 0x68, 0, 16, 10⟩
abbrev RING_ENUM_RES_CODE : Fld := ⟨0x60, 0x68, 0, 0, 8⟩
abbrev RING_BRKPOS_VALID : Fld := ⟨0x60, 0x6c, 0, 31, 1⟩
abbrev RING_BRKPOS_WEST_END : Fld := ⟨0x60, 0x6c, 0, 16, 9⟩
abbrev RING_BRKPOS_EAST_END : Fld := ⟨0x60, 0x6c, 0, 0, 9⟩
abbrev RING_PTIME_E_E : Fld := ⟨0x60, 0x70, 0, 0, 32⟩
abbrev RING_PTIME_NS_NS : Fld := ⟨0x60, 0x74, 0, 0, 30⟩
abbrev RING_OFFSET_THETA : Fld := ⟨0x60, 0x78, 0, 0, 32⟩
abbrev RING_STEER_STEER : Fld := ⟨0x60, 0x7c, 0, 0, 16⟩
abbrev RING_LINKDLY_EAST : Fld := ⟨0x60, 0x80, 0, 16, 16⟩
abbrev RING_LINKDLY_WEST : Fld := ⟨0x60, 0x80, 0, 0, 16⟩
abbrev RING_EPLAST_E : Fld := ⟨0x60, 0x84, 0, 0, 32⟩
abbrev RING_EPRTC_RTC : Fld := ⟨0x60, 0x88, 0, 0, 32⟩
abbrev RING_COUNTS_CRCERR : Fld := ⟨0x60, 0x8c, 0, 20, 11⟩
abbrev RING_COUNTS_TTL : Fld := ⟨0x60, 0x8c, 0, 12, 8⟩
abbrev RING_COUNTS_SUMMISS : Fld := ⟨0x60, 0x8c, 0, 0, 12⟩
abbrev RING_WBUSY_COUNT : Fld := ⟨0x60, 0x90, 0, 16, 9⟩
abbrev RING_WBUSY_DEV : Fld := ⟨0x60, 0x90, 0, 0, 9⟩
abbrev RING_SNUFFLAST_VALID : Fld := ⟨0x60, 0x94, 0, 31, 1⟩
abbrev RING_USER_W : Fld := ⟨0x60, 0x98, 4, 0, 32⟩
abbrev RING_TPL_A_TYPE : Fld := ⟨0x60, 0xb0, 16, 28, 4⟩
abbrev RING_TPL_A_BC : Fld := ⟨0x60, 0xb0, 16, 27, 1⟩
abbrev RING_TPL_A_DST : Fld := ⟨0x60, 0xb0, 16, 16, 9⟩
abbrev RING_TPL_A_LEN : Fld := ⟨0x60, 0xb0, 16, 0, 7⟩
abbrev RING_TPL_B_ADDR : Fld := ⟨0x60, 0xb4, 16, 0, 24⟩
abbrev RING_TPL_C_PAY : Fld := ⟨0x60, 0xb8, 16, 16, 16⟩
abbrev RING_TPL_C_DST : Fld := ⟨0x60, 0xb8, 16, 0, 16⟩
abbrev RING_ST_MISMATCH : Nat := 13
abbrev RING_ST_QFULL : Nat := 12
abbrev RING_ST_TTL : Nat := 11
abbrev RING_ST_SNUFFTX : Nat := 10
abbrev RING_ST_EJUMP : Nat := 9
abbrev RING_ST_WBUSY : Nat := 8
abbrev RING_ST_SUMDONE : Nat := 7
abbrev RING_ST_HEADLOST : Nat := 6
abbrev RING_ST_ENUMDONE : Nat := 5
abbrev RING_ST_HEAL : Nat := 4
abbrev RING_ST_BREAK : Nat := 3
abbrev RING_ST_UNLOCK : Nat := 2
abbrev RING_ST_LOCK : Nat := 1
abbrev RING_ST_EPOCHRX : Nat := 0
abbrev RING_ERR_EJUMP : Nat := 6
abbrev RING_ERR_PILOTLOSS : Nat := 5
abbrev RING_ERR_BREAK : Nat := 4
abbrev RING_ERR_ENUMFAIL : Nat := 3
abbrev RING_ERR_TWOHEAD : Nat := 2
abbrev RING_ERR_SNUFFRX : Nat := 1

end Sys2Proof.Machine
end

