-- ==== Sys2Proof/Machine/RegMap.lean ====
section
/-! DEFINITION. Which register stands at a local address: the assigned pages of R31, Table 3, the common header of R33,
Table 4, and the block registers of each page map; reset values and write masks come from here. -/

namespace Sys2Proof.Machine

/-- The block registers of an assigned page and the page number of its first instance (R31, Table 3). -/
def pageRegs (pg : Nat) : Option (Nat × List RegInfo) :=
  if pg = PG_DEV then some (pg, devRegs)
  else if pg = PG_LAMP then some (pg, lampRegs)
  else if pg = PG_IMAGE then some (pg, imageRegs)
  else if pg = PG_ATTIC then some (pg, atticRegs)
  else if PG_ADC ≤ pg ∧ pg < PG_ADC + 4 then some (PG_ADC, adcRegs)
  else if pg = PG_CMP then some (pg, cmpRegs)
  else if PG_SLINK ≤ pg ∧ pg < PG_SLINK + 16 then some (PG_SLINK, slinkRegs)
  else if pg = PG_EST then some (pg, estRegs)
  else if pg = PG_OCV then some (pg, ocvRegs)
  else if pg = PG_HEALTH then some (pg, healthRegs)
  else if PG_BAL ≤ pg ∧ pg < PG_BAL + 16 then some (PG_BAL, balRegs)
  else if pg = PG_DISPATCH then some (pg, dispatchRegs)
  else if pg = PG_INPATH then some (pg, inpathRegs)
  else if pg = PG_PACK then some (pg, packRegs)
  else if pg = PG_FEEDS then some (pg, feedsRegs)
  else if pg = PG_SVC then some (pg, svcRegs)
  else if pg = PG_IBC then some (pg, ibcRegs)
  else if PG_POL ≤ pg ∧ pg < PG_POL + 4 then some (PG_POL, polRegs)
  else if pg = PG_LDO then some (pg, ldoRegs)
  else if pg = PG_SEQ then some (pg, seqRegs)
  else if pg = PG_THERM then some (pg, thermRegs)
  else if pg = PG_FAULT then some (pg, faultRegs)
  else if pg = PG_WDOG then some (pg, wdogRegs)
  else if pg = PG_RTC then some (pg, rtcRegs)
  else if pg = PG_CELLAR then some (pg, cellarRegs)
  else if pg = PG_EVQ then some (pg, evqRegs)
  else if pg = PG_SPI then some (pg, spiRegs)
  else if pg = PG_I2CT then some (pg, i2ctRegs)
  else if pg = PG_I2CC then some (pg, i2ccRegs)
  else if pg = PG_TYPEC then some (pg, typecRegs)
  else if pg = PG_PD then some (pg, pdRegs)
  else if pg = PG_RING then some (pg, ringRegs)
  else none

/-- Whether the page is assigned. -/
def pageAssigned (pg : Nat) : Bool := (pageRegs pg).isSome

/-- The pages of R35, whose CTRL.ENABLE reads 1 and which take no function reset. -/
def alwaysEnabled (pg : Nat) : Bool :=
  pg == PG_DEV || pg == PG_LAMP || pg == PG_FAULT || pg == PG_WDOG || pg == PG_RTC || pg == PG_CELLAR

/-- The value of a page's ID register (R33, Table 5; R501 for the DEV page). -/
def pageId (first pg : Nat) : Nat :=
  if pg = PG_DEV then 0x0000_01B1 else first * 0x1000000 + (pg - first) * 0x10000 + 0x100

/-- The header registers of page `pg` (Table 4).  CTRL, the write-only and the injection registers have their own write
rules, so their masks here store nothing by themselves. -/
def headerInfo (first pg off : Nat) : Option RegInfo :=
  if off = 0x000 then some ⟨0x000, 0, 1, 0, 0, [pageId first pg], .por, false⟩
  else if off = 0x004 then some ⟨0x004, 0, 1, 0, 0, [if alwaysEnabled pg then 1 else 0], .dr, true⟩
  else if off = 0x008 then
    some ⟨0x008, 0, 1, 0, 0xFFFFFFFF, [if pg = PG_CELLAR then 1 else 0], if pg = PG_CELLAR then .por else .fr, false⟩
  else if off = 0x00C then some ⟨0x00C, 0, 1, 0, 0, [0], .live, false⟩
  else if off = 0x010 then some ⟨0x010, 0, 1, 0xFFFFFFFF, 0, [0], .fr, true⟩
  else if off = 0x014 then some ⟨0x014, 0, 1, 0xFFFFFFFF, 0, [0], .fr, true⟩
  else if off = 0x018 then some ⟨0x018, 0, 1, 0, 0xFFFFFFFF, [0], .dr, false⟩
  else if off = 0x01C then some ⟨0x01C, 0, 1, 0x1F0F, 0, [0], .dr, false⟩
  else if off = 0x020 then some ⟨0x020, 0, 1, 0, 0, [0], .dr, false⟩
  else if off = 0x024 then some ⟨0x024, 0, 1, 0, 0, [0], .fr, false⟩
  else none

/-- Whether a row of a page map covers an offset. -/
def RegInfo.covers (r : RegInfo) (off : Nat) : Bool :=
  if r.stride = 0 then off == r.off
  else r.off ≤ off && (off - r.off) % r.stride == 0 && (off - r.off) / r.stride < r.count

/-- The reset value of the copy of a row at an offset. -/
def RegInfo.resetAt (r : RegInfo) (off : Nat) : Nat :=
  match r.resets with
  | [v] => v
  | l => (l[(off - r.off) / (if r.stride = 0 then 1 else r.stride)]?).getD 0

/-- The row of the register at a local address, if one stands there. -/
def regInfo (a : Nat) : Option RegInfo :=
  if a % 4 = 0 then
    match pageRegs (a / 0x400) with
    | none => none
    | some (first, l) =>
      match headerInfo first (a / 0x400) (a % 0x400) with
      | some r => some r
      | none => l.find? fun r => r.covers (a % 0x400)
  else none

/-- The reset value of the register at a local address; 0 where no register stands. -/
def regReset (a : Nat) : BitVec 32 :=
  match regInfo a with
  | some r => BitVec.ofNat 32 (r.resetAt (a % 0x400))
  | none => 0

/-- The reset domain of the register at a local address. -/
def regDom (a : Nat) : Dom :=
  match regInfo a with
  | some r => r.dom
  | none => .dr

end Sys2Proof.Machine
end

