-- ==== Sys2Proof/Config.lean ====
section
/-! DEFINITION. What one part or one board fixes, and the values the spec leaves open.  A free value is an opaque constant:
nothing can evaluate it, so a claim holds whatever it is. -/

namespace Sys2Proof

/-- A byte of the attic factory calibration (R28, R345): written at the factory, its layout and contents are not
given.  Free value, log entry 5. -/
opaque Config.factoryByte : Nat → BitVec 8

/-- The grade of the part in DEV.PART.GRADE (R2, R501): 0 for SW1640-FB484-I, 1 for -E.  It belongs to the part; log entry 6. -/
opaque Config.rawGrade : Nat

/-- The grade, 0 or 1. -/
def Config.grade : Nat := Config.rawGrade % 2

/-- The side on which an injected window sample is judged not INSIDE (R136, R372): the spec names none.  Free value, log
entry 7. -/
opaque Config.injectedSide : Nat → Bool

/-- Which Q15 value within one unit of the sine of a 32-bit phase the device's table holds (R220, R247).  Free value, log entry 11. -/
opaque Config.sinPick : Nat → Nat

/-- Which Q15 value within one unit of the cosine of a 32-bit phase the device's table holds (R220, R248).  Free value, log entry 11. -/
opaque Config.cosPick : Nat → Nat

/-- Which impedance magnitude within the accuracy of R220 the device gives, from numerators x and y over one denominator and the overlay
amplitude in mA; with no amplitude, the magnitude itself.  Free value, log entry 12. -/
opaque Config.zMagPick : Int → Int → Int → Nat → Nat

/-- Which impedance phase within the accuracy of R220 the device gives, from x, y and PH_I.  Free value, log entry 12. -/
opaque Config.zPhasePick : Int → Int → Int → Nat

/-- Which way round(z_mag × cos(z_ph)) of R222 goes at a tie.  Free value, log entry 12. -/
opaque Config.zOhmPick : Nat → Int → Nat

/-- Which angle θ = -arg W of R222 within 0.01 ° the device gives, from z_mag, z_ph and R_OHM.  Free value, log entry 12. -/
opaque Config.zThetaPick : Nat → Int → Nat → Nat

/-- Which TAU_POL_meas of R222 the accuracy of θ leaves, from z_mag, z_ph, R_OHM and the frequency in 0.1 Hz.  Free value, log entry 12. -/
opaque Config.zTauPick : Nat → Int → Nat → Nat → Nat

/-- Which R_POL_meas of R222 the accuracy of |W| and θ leaves.  Free value, log entry 12. -/
opaque Config.zPolPick : Nat → Int → Nat → Nat

/-- Which feed-forward phase of R238 the square root's accuracy leaves, from the product i_ref × v_hb, K_DAB, V_MOD and V_HB.  Free value,
log entry 13. -/
opaque Config.dabPick : Int → Nat → Nat → Nat → Nat

/-- Which overlay amplitude of R248 within one mA the device reports, from the correlation sums and the number of periods.  Free value, log
entry 12. -/
opaque Config.overlayAmpPick : Int → Int → Nat → Nat

/-- Which overlay phase of R248 within 0.01 ° the device reports.  Free value, log entry 12. -/
opaque Config.overlayPhasePick : Int → Int → Nat

/-- The factory code of die sensor k at 25 °C (R345): it stands in the attic factory calibration, whose layout is not given.
Free value, log entry 5, inside the range of Table 11 of the electrical chapter. -/
opaque Config.rawC25 : Nat → Nat

/-- See `Config.rawC25`. -/
def Config.tsC25 (k : Nat) : Nat := 1240 + Config.rawC25 k % 81

/-- The factory slope of die sensor k (R345).  Free value, log entry 5. -/
opaque Config.rawSlope : Nat → Nat

/-- The slope inside the range of Table 11 of the electrical chapter. -/
def Config.tsSlope (k : Nat) : Nat := 1164 + Config.rawSlope k % 73

/-- The state of charge that a pack voltage in 100 µV per cell gives while T_PACK has no value (R303): R191 needs a temperature.
Free value, log entry 17. -/
opaque Config.packSoc : Nat → Nat

/-- A pack state of charge with Q_CAP = 0 (R303), which divides by Q_CAP.  Free value, log entry 17. -/
opaque Config.packNoCap : Int → Int

/-- Which temperature of an NTC within 1/16 °C the device gives (R346, Table 2), from the code, R_PU, R0 and BETA; the temperature itself where
the formula gives none.  Free value, log entry 15. -/
opaque Config.ntcPick : Nat → Nat → Nat → Nat → Nat

/-- The correction that the factory coefficients ask of the GUARD RC (0) and of the cellar RC (1) at a temperature (R353): the
coefficients are not given.  Free value, log entry 16. -/
opaque Config.rcTrim : Nat → Int → Int

/-- The duty of output 36 or 37 from the SVC converter's current reference, its measured current and voltage, and V_HB (R339): the spec
does not state it.  Free value, log entry 22. -/
opaque Config.svcDuty : Nat → Int → Nat → Nat → Nat → Nat

/-- How far a long operation's attic writes had come when a device reset abandoned it (R48, R102).  Free value, log entry 25. -/
opaque Config.abandonedAt : Nat → Nat

/-- The state-of-charge extremes and mean of a summary that covers no string (R480, Table 10): the spec gives none.  Free value, log
entry 29. -/
opaque Config.noStrings : Nat → Nat

/-- The nanoseconds of the plant time that have passed within the cycle in progress (R484, PTIME_NS).  Free value, log entry 30. -/
opaque Config.nsInCycle : Nat → Nat

/-- The ticks the watchdog has counted since the last event that stamped its count (R388, WDOG.STATE.COUNT).  Free value, log entry
31. -/
opaque Config.wdogTicks : Nat → Nat

/-- DEV.BOOT.RISECAUSE after a device reset by TEST or by a bias below its limits with a source still present (R505, R509): Table 13 of
modes lists no code for them.  Free value, log entry 26. -/
opaque Config.rawRiseCause : Nat → Nat

/-- The code, of 4 bits. -/
def Config.riseCauseOpen (k : Nat) : Nat := Config.rawRiseCause k % 16

end Sys2Proof
end

