-- ==== Sys2Proof/Machine/Sparse.lean ====
section
/-! DEFINITION. Sparse tables: a list of (key, value) pairs in one canonical form (keys strictly rising, no entry equal to
what an unlisted key reads as), with one read and one write. -/

namespace Sys2Proof.Machine

/-- The listed value of a key. -/
def Sparse.look {α : Type} : List (Nat × α) → Nat → Option α
  | [], _ => none
  | (a, v) :: t, k => if a = k then some v else Sparse.look t k

/-- The value of a key: the listed one, else the default `d`. -/
def Sparse.get {α : Type} (d : Nat → α) (l : List (Nat × α)) (k : Nat) : α := (Sparse.look l k).getD (d k)

/-- The table without a key. -/
def Sparse.drop {α : Type} (l : List (Nat × α)) (k : Nat) : List (Nat × α) := l.filter fun e => e.1 != k

/-- The table with an entry put before the first greater key. -/
def Sparse.ins {α : Type} (k : Nat) (v : α) : List (Nat × α) → List (Nat × α)
  | [] => [(k, v)]
  | (a, x) :: t => if k < a then (k, v) :: (a, x) :: t else (a, x) :: Sparse.ins k v t

/-- The table with a key holding a value; a value equal to the default is not listed. -/
def Sparse.put {α : Type} [DecidableEq α] (d : Nat → α) (l : List (Nat × α)) (k : Nat) (v : α) : List (Nat × α) :=
  if v = d k then Sparse.drop l k else Sparse.ins k v (Sparse.drop l k)

/-- The keys rise strictly. -/
def Sparse.rising {α : Type} : List (Nat × α) → Bool
  | [] => true
  | [_] => true
  | (a, _) :: (b, y) :: t => decide (a < b) && Sparse.rising ((b, y) :: t)

/-- The canonical form: keys rise strictly and no entry equals the default. -/
def Sparse.wf {α : Type} [DecidableEq α] (d : Nat → α) (l : List (Nat × α)) : Bool :=
  Sparse.rising l && l.all fun e => decide (e.2 ≠ d e.1)

end Sys2Proof.Machine
end

