-- ==== Sys2Proof/Machine/Shipped.lean ====
section
/-! DEFINITION. What a byte of memory that nothing has written reads as: the attic contents Mehril ships (R87, R100, R225,
R374, R436, R493), the factory calibration (free), and 0 elsewhere (DESIGN CHOICE, log entry 3). -/

namespace Sys2Proof.Machine

/-- Byte `i` of a little-endian word list. -/
def wordsByte (ws : List Nat) (i : Nat) : Nat := (ws[i / 4]?).getD 0 / 256 ^ (i % 4) % 256

/-- The shipped policy block (R436, Table 6): the reset values of Tables 11 and 12 and their CHECK (log entry 4). -/
def shippedPolicy : List Nat :=
  [0x4C4F5044, 0x00140030, 0x00000BB8, 0x00000F47,
   0x2201912C, 0x0002D12C, 0x0004B12C, 0x000640E1,
   0x2201912C, 0x0002D12C, 0x0004B12C, 0x0006412C,
   0, 1, 0, 0, 0x0000FB32]

/-- The value of an unlisted byte. -/
def shippedByte (a : Nat) : BitVec 8 :=
  if a < 0x240000 then 0
  else if a < 0x240008 then BitVec.ofNat 8 (wordsByte [0x4546494C, 1] (a - 0x240000))
  else if a < 0x260000 then 0
  else if a < 0x260008 then BitVec.ofNat 8 (wordsByte [0x544C5546, 1] (a - 0x260000))
  else if a < 0x268000 then 0
  else if a < 0x270000 then Config.factoryByte (a - 0x268000)
  else if a < 0x270008 then 0xFF
  else if a < 0x27E000 then 0
  else if a < 0x27E008 then BitVec.ofNat 8 (wordsByte [0x54534C52, 0x036E0000] (a - 0x27E000))
  else if a < 0x27F000 then 0
  else if a < 0x27F044 then BitVec.ofNat 8 (wordsByte shippedPolicy (a - 0x27F000))
  else 0

end Sys2Proof.Machine
end

