-- ==== Sys2Proof/Machine/State.lean ====
section
/-! DEFINITION. The state of the block: plain data.  A register the spec gives stands in `regs`; a byte of a memory window in
`mem`; what no register shows stands in one structure per block. -/

namespace Sys2Proof.Machine

/-- Why the machine stops.  The block's own faults are effects on the state, never stops. -/
inductive Fault where
  /-- Raised by no meaning of a well-formed command: the command term spells no event of the hardware (an index beyond the
  block's instances, a burst of no words).  Safe: the model stops where there is no hardware behaviour to follow. -/
  | illFormed
deriving DecidableEq, Repr

/-- Why a command has no meaning. -/
inductive Refusal where
  /-- Raised by exec's arm of a command that has no meaning yet.  Safe. -/
  | notModelled (mnemonic : String)
deriving DecidableEq, Repr

/-- The eight modes of R21, Table 8. -/
inductive Mode where
  | cellar
  | hibernate
  | rise
  | run
  | ride
  | safe
  | service
  | fall
deriving DecidableEq, Repr

/-- The 3-bit code of a mode (R21, Table 8). -/
def Mode.code : Mode → Nat
  | .cellar => 0
  | .hibernate => 1
  | .rise => 2
  | .run => 3
  | .ride => 4
  | .safe => 5
  | .service => 6
  | .fall => 7

/-- A firing on its way to the EVQ: an occurrence that would make a record (R406, R398). -/
structure Firing where
  src : Nat
  cls : Nat
  merged : Bool
  shelfB : Bool
  stamp : Nat
  lo : Nat
  hi : Nat
deriving DecidableEq, Repr

/-- A pulse of an error line on its way to GUARD (R357): its source, whether an injected check raised it (R373), and the
data words of a check line or of a LAMP cause (R358, R83). -/
structure LinePulse where
  src : Nat
  inj : Bool
  lo : Nat
  hi : Nat
deriving DecidableEq, Repr

/-- A source of the EVQ that is not IDLE (R406): its id, whether a firing is pending, and what the REFIRE record carries. -/
structure SrcState where
  src : Nat
  pend : Bool
  f : Firing
deriving DecidableEq, Repr

/-- One shelf's interrupt line as it would be with IRQEN = 1 (R404, R421): asserted; whether T_MOD has passed since the last assertion
or none was made since RISE; whether the last RPTR write drained the shelf; whether the host is idle; whether the record that made COUNT
1 came while it was; a Host Notify message on its way. -/
structure IrqLine where
  asserted : Bool
  modOk : Bool
  drained : Bool
  idle : Bool
  bypass : Bool
  notify : Bool
deriving DecidableEq, Repr

/-- The EVQ beside its registers (R397 to R409). -/
structure EvqS where
  firings : List Firing
  held : List Firing
  active : List SrcState
  lineA : IrqLine
  lineB : IrqLine
deriving DecidableEq, Repr

/-- The fault collector beside its registers (R357 to R376): pulses on their way, the class each set bit latched with, what
the reaction in progress keeps (mode, RTC and ring number at its first latch, its first pulse's data words), the fault log queue, the pads
mismatched at the last readback and whether one fell in the reaction, the clocks that deviated at the last comparison (R9). -/
structure FaultS where
  lines : List LinePulse
  latched : List (Nat × Nat)
  reactMode : Nat
  reactRtc : Nat
  reactLo : Nat
  reactHi : Nat
  reactNum : Nat
  logq : List (List Byte)
  rbBad : List Nat
  rbFirst : Bool
  clkBad : Nat
deriving DecidableEq, Repr

/-- The DEV block beside its registers: the bias sources present and the one in use (R20), device reset held (R488), VHB above V_HBON (R491),
the PLL locked, the rows of RISE that have ended (R489), row F's enumeration still to begin, the entry to FALL or HIBERNATE in progress (1
selectors opening, 2 flush, R23, R495), a wake and an entry to SERVICE that wait (R361, R494), the armed T_OFF in ms (R499), an on request
during FALL (R336), the automatic restarts by RTC tick and a STOP since the last RISE (R498), the straps (R489), the levels of RESETIN_N, TEST
and of the VDDIO banks, the JTAG instruction (R505), the pages in a function reset (R34). -/
structure DevS where
  bias : BiasSrc
  biasMask : Nat
  held : Bool
  vhbOn : Bool
  pll : Bool
  rowC : Bool
  calDone : Bool
  imageDone : Bool
  preloadDone : Bool
  enumDue : Bool
  stage : Nat
  wakeBits : Option Nat
  servicePend : Bool
  armedOff : Option Nat
  onAtFall : Bool
  restarts : List Nat
  stopLatched : Bool
  strapHead : Bool
  strapImg : Bool
  resetIn : Bool
  testHigh : Bool
  vddioLow : Nat
  jtag : Nat
  freset : List Nat
deriving DecidableEq, Repr

/-- Where the run of a table stands (R53 to R55): none in progress; its slots come due in the cycle in progress; a WAIT with the cycles still
to pass; a cycle that ended before the run's next slot came due, so that only a cut is left. -/
inductive RunPhase where
  | idle
  | issuing
  | waiting (n : Nat)
  | behind
deriving DecidableEq, Repr

/-- The run of one table level of a lane: where it stands, its next slot as a word of the table (R54), the slots still to be left out by a
rendezvous (R62), whether a run has started in this round or frame (R55). -/
structure TableRun where
  phase : RunPhase
  next : Nat
  skip : Nat
  ran : Bool
deriving DecidableEq, Repr

/-- One lane (R49): poison (R59), the tick at which a slot last came due in the cycle (R54) and the runs of its three tables. -/
structure LaneS where
  poison : Bool
  clock : Option Nat
  cycleRun : TableRun
  roundRun : TableRun
  frameRun : TableRun
deriving DecidableEq, Repr

/-- A rendezvous token (R60): its point, its 2-bit cycle stamp, whether it is void, and the giver lane. -/
structure Token where
  point : Nat
  stamp : Nat
  void : Bool
  giver : Nat
deriving DecidableEq, Repr

/-- The lamplighter beside its registers: the lanes, rendezvous tokens and the points posted and tested in the cycle (R60), the cycle markers
since device reset, a class switch to come (R64), a MODEJUMP to RIDE since the last marker (R66), the budget memory, the relight (R75 to R79):
its bank, kind, stage in SERVICE (1 waiting for entry, 2 loading, 3 preload, 4 waiting for the frame boundary), whether it returns to RUN by
itself and the previous bank; per lane the first word and length of the image held and the length of the lit one; the held image's TIMING and
SERIAL; the offset in ns that the frame in progress aligns by (R69); the index of the frame in its epoch and the epoch number it began in
(R68); a frame or round boundary whose round or marker is to come; the giver of each point of the lit image. -/
structure LampS where
  lanes : Vector LaneS 6
  tokens : List Token
  posted : List Nat
  tested : List Nat
  cycleCount : Nat
  switchPending : Bool
  rideJump : Bool
  budgets : List (Nat × Nat)
  relightBank : Nat
  relightCold : Bool
  coldStage : Nat
  autoRun : Bool
  prevBank : Nat
  place : List (Nat × Nat)
  heldTiming : Nat
  heldSerial : Nat
  litLen : List Nat
  align : Option Int
  index : Nat
  frameE : Nat
  newFrame : Bool
  atRound : Bool
  givers : List (Nat × Nat)
deriving DecidableEq, Repr

/-- The level of an output pad. -/
inductive Lvl where
  | low
  | high
  | hiZ
  | switching
deriving DecidableEq, Repr

/-- The cellar and the RTC beside their registers (R379 to R387): the 48-bit count, the trim accumulator, a set waiting to
load, the frozen shadow of each master, the crystal state, the PWRON pad's mismatch streak, a power-on that no RISE has followed. -/
structure CellarS where
  count : Nat
  trimAcc : Int
  setWait : Option Nat
  frozen : List (Nat × Nat)
  fallback : Bool
  pwronMis : Nat
  powered : Bool
deriving DecidableEq, Repr

/-- The watchdog beside its registers (R388 to R392): on, the count at the last event that stamped it, the first window after RISE, each task's
check-ins, whether a window has begun. -/
structure WdogS where
  on : Bool
  count : Nat
  first : Bool
  checkins : List Nat
  window : Bool
deriving DecidableEq, Repr


/-- No run in progress, and none started in this round or frame. -/
def runIdle : TableRun := ⟨.idle, 0, 0, false⟩

/-- A lane with no run in progress. -/
def laneIdle : LaneS := ⟨false, none, runIdle, runIdle, runIdle⟩

/-- The record area's clear values (R384, Table 2): MAGIC and the CHECK over the cleared bytes; every other byte is 0. -/
def clearedRecord : List Host.Cell :=
  [(0x300000, 0x43), (0x300001, 0x4C), (0x300002, 0x41), (0x300003, 0x52), (0x30003C, 0x3B), (0x30003D, 0x99)]

/-- The long operation in progress whose effect stands until its completion (R45, R46): an image command, a user configuration command,
an OCV command, a store-room clear, a lifetime flush. -/
inductive LongOp where
  | segment (bank ofs len : Nat)
  | seal (bank : Nat)
  | erase (bank : Nat)
  | checkImage (bank : Nat)
  | commit (ofs len : Nat)
  | compare (ofs len : Nat)
  | ocvCommit (set : Nat)
  | ocvReload (set : Nat)
  | ocvCheck (set : Nat)
  | clear (string : Option (Fin 16))
  | flush (retire : Option (Nat × Nat))
deriving DecidableEq, Repr

/-- One PWM output (R94, R95): the shadow values a COMP wrote, the active values a PWMLOAD moved, and the values in use since
the last period boundary; period, phase and duty. -/
structure PwmOut where
  shPeriod : Nat
  shPhase : Nat
  shDuty : Nat
  acPeriod : Nat
  acPhase : Nat
  acDuty : Nat
  period : Nat
  phase : Nat
  duty : Nat
deriving DecidableEq, Repr

/-- An output at reset: it has the period of its reset frequency in steps of 125 ps, 100 kHz, or 1 MHz for the POL modulators, a balancing
channel's 50 % duty (R234), and the IBC's second phase its half period (R321). -/
def pwmStart (o : Nat) : PwmOut :=
  let p := if o < 38 then 80000 else 8000
  let d := if o < 32 then 40000 else 0
  let h := if o = 33 then 40000 else 0
  ⟨p, h, d, p, h, d, p, h, d⟩

/-- One converter bank beside its registers: the FIFO (R117), the copy of the running table (R109), the persistence counts
(R116), the rotation's next position (R119), a slice waiting for its retry (R121), the forced sweep and whether
a slice failed in it (R122), the ENTRY_CFG that each entry was converted by (R109). -/
structure AdcS where
  fifo : List Nat
  table : List (Nat × Nat)
  pers : List (Nat × Nat)
  nextPos : Nat
  retry : Option Nat
  sweeping : Bool
  swept : Nat
  sweepFail : Bool
  conv : List (Nat × Nat)
deriving DecidableEq, Repr

/-- One window monitor's filter (R136): the last samples, newest first, true for INSIDE, and the side of the latest sample that
was not INSIDE (1 BELOW, 2 ABOVE); what its comparators said at the last sample (R128); the samples that an injection still judges (R140). -/
structure WinMon where
  hist : List Bool
  side : Nat
  last : Nat
  inj : Nat
deriving DecidableEq, Repr

/-- A monitor with no history. -/
def monIdle : WinMon := ⟨[], 0, 0, 0⟩

/-- Comparators beside their registers: tripped ones that stand inside a blanking window (R132), ones whose TRIP holds their
targets idle until a period boundary (R131), ones that acted in the period in progress (R249), the window monitors, and the
monitors still to sample in the open SENSE_PWR window (R137). -/
structure CmpS where
  blanked : Nat
  idle : Nat
  acted : Nat
  mons : Vector WinMon 16
  due : Nat
deriving DecidableEq, Repr

/-- What a string link's engine does now (R157, R151, R153, R164, R166, R169). -/
inductive LinkPhase where
  | idle
  | frame
  | clear
  | assign
  | probe
  | ping
  | comp
  | search
  | desel
deriving DecidableEq, Repr

/-- Why a maintenance runs: enumeration, measurement, break search, heal. -/
inductive LinkWhy where
  | enumeration
  | measure
  | breakSearch
  | heal
deriving DecidableEq, Repr

/-- Who sent the command in progress: a LINKTX slot, a host SEND, the selection sequence, the heal probe, the engine. -/
inductive LinkFrom where
  | slot
  | host
  | select
  | healProbe
  | engine
deriving DecidableEq, Repr

/-- One frame on a pair: the header word and the payload bytes (R143, R145). -/
structure LinkTx where
  pairB : Bool
  hdr : Nat
  payload : List Byte
deriving DecidableEq, Repr

/-- The command in progress on a link: its frame, where its returns go, its retries, the returns it awaits on each pair and
what came back (R157 to R161), the tick at which it was issued (R155). -/
structure LinkCmd where
  source : LinkFrom
  typ : Nat
  bc : Bool
  addr : Nat
  turn : Bool
  arm : Option Bool
  payload : List Byte
  dst : Option Nat
  retries : Nat
  waitA : Bool
  waitB : Bool
  bad : Bool
  anyReturn : Bool
  nak : Bool
  got : List Nat
  segs : Nat
  off : Nat
  tick : Nat
deriving DecidableEq, Repr

/-- A node an enumeration found: its address, whether it is a head, its arm. -/
structure LinkNode where
  addr : Nat
  head : Bool
  pairB : Bool
deriving DecidableEq, Repr

/-- How a command of the selection sequence ended: frame type and OUTCOME (R157, R253). -/
structure LinkEnd where
  typ : Nat
  outcome : Nat
deriving DecidableEq, Repr

/-- One string link beside its registers: what its engine does and why, the command and the frames in flight (R157), node positions and delays
(R151, R152), missing blocks (R162), the heal (R166), staleness and the rounds since the last good READ of node 0 (R162), the safe deselect's nodes to
confirm and those still to be asked (R169), SAMPLE instants and those at the last READ of node 0 (R180). -/
structure LinkS where
  phase : LinkPhase
  why : LinkWhy
  cmd : LinkCmd
  tx : List LinkTx
  seq : Nat
  pos : Nat
  armB : Bool
  todo : List Nat
  nodes : List LinkNode
  delays : List (Nat × Int)
  miss : List (Nat × Nat)
  healOk : Nat
  stale : Bool
  staleDue : Bool
  tries : Nat
  inOp : Bool
  ended : Option LinkEnd
  blockAt : Option Nat
  samples : List (Nat × Int)
  closed : List Nat
  rounds : Nat
  left : List Nat
  base : List (Nat × Int)
deriving DecidableEq, Repr

/-- No command. -/
def linkNoCmd : LinkCmd :=
  ⟨.engine, 0, false, 0x3F, false, none, [], none, 0, false, false, false, false, false, [], 0, 12, 0⟩

/-- A link engine that has done nothing. -/
def linkIdle : LinkS := ⟨.idle, .enumeration, linkNoCmd, [], 0, 0, false, [], [], [], [], 0, false, false, 0, false, none, none, [], [], 0, [], []⟩

/-- The estimator's own state of one string: node 0 windows counted last (start, end, current), ISTR readings still to be
compared, the last instant counted in fallback, the charge counted from readings in the round, the candidate of the previous round, the end
point of the pass in progress with the extremes of this frame's valid blocks and whether there was one, the cells (a bit each) that have the
hibernated time still to take, that time and whether it was a rest, the cells that the latched end point gave 0 % or 100 %, the cells already
counted in the present rest, the size of the current at a tone's START and whether it has departed from it, the module closed at the round's
start, the matches in a row after a cross-check fault (R179 to R224). -/
structure EstStr where
  wins : List (Int × Int × Int)
  readings : List (Int × Int)
  lastT : Option Int
  fbQ : Int
  fbLen : Int
  prevCand : Nat
  term : Nat
  passHi : Nat
  passLo : Nat
  passAny : Bool
  wakeDue : Nat
  wakeE : Nat
  wakeRest : Bool
  atEnd : Nat
  restSeen : List Nat
  toneI : Nat
  toneOff : Bool
  closedAt : Nat
  good : Nat
deriving DecidableEq, Repr

/-- The estimator beside its records and registers: strings whose ISTR monitor stayed INSIDE in hibernation, OCV sets written
while an operation ran, the cell at which the next flush resumes, a flush that waits for a long operation, whether the lifetime
area is to be written whole. -/
structure EstS where
  strs : Vector EstStr 16
  quiet : Nat
  ocvEdited : Nat
  flushNext : Nat
  flushDue : Bool
  lifeInit : Bool
deriving DecidableEq, Repr

/-- A string nothing has been counted for. -/
def estStrIdle : EstStr := ⟨[], [], none, 0, 0, 0, 0, 0, 0, false, 0, 0, false, 0, [], 0, false, 0, 0⟩

/-- One balancing channel beside its registers: compensator states (R237; `u` in units of 2^-22), the soft start's begin, the stop in
progress, hiccup counts, sense loss, charge and energy remainders (R245), the overlay and its correlation (R247, R248), the instant to latch
(R246), the selection in progress (R253), whether a soft start is due at the next round boundary at which it may be made (R243), and whether a
function reset cut the selection short with a frame in flight (R254). -/
structure BalS where
  e1 : Int
  e2 : Int
  u1 : Int
  u2 : Int
  ssStart : Int
  leadUntil : Int
  refs : Bool
  stopPhi : Int
  stopLeft : Nat
  checkDue : Bool
  stopToOff : Bool
  stopFail : Bool
  limRun : Nat
  hicRun : Nat
  goodMs : Nat
  senseWait : Bool
  gotCs : Bool
  okPeriods : Nat
  qAcc : Int
  eOut : Nat
  eIn : Nat
  ranRound : Bool
  iMod : Int
  perT : Int
  ovReq : Bool
  ovPhase : Nat
  latchAt : Option Int
  burstAt : Option Int
  ovTheta0 : Nat
  ovCos : Int
  ovSin : Int
  ovN : Nat
  padMis : Bool
  closedT : Int
  readBackT : Int
  selOld : Nat
  selFail : Nat
  startDue : Bool
  selCut : Bool
deriving DecidableEq, Repr

/-- A channel at rest. -/
def balIdle : BalS :=
  ⟨0, 0, 0, 0, 0, 0, false, 0, 0, false, false, false, 0, 0, 0, false, false, 0, 0, 0, 0, false, 0, 0, false, 0, none, none, 0, 0, 0, 0,
    false, 0, 0, 0, 0, false, false⟩

/-- The dispatch beside its registers (R267 to R277): V_HB at the last round's start where
a result gave one, whether a VHB result came in the last round, the
load filter in 2^-16 W, counts of stale, short and surplus rounds, the setpoints of the last round step, per string the frame of the
last verified selection and the frames its ranking is stale, and the first round step of a hand-back with the path ON (R291). -/
structure HbS where
  v0 : Option Nat
  fresh : Bool
  filt : Int
  staleRun : Nat
  shortRun : Nat
  restoreRun : Nat
  setpoints : List Int
  selFrame : Vector (Option Nat) 16
  rankStale : List Nat
  backStart : Option Int
deriving DecidableEq, Repr

/-- The input path beside its registers (R260 to R266): consecutive samples outside the window and with V_IN clearly above V_HB,
the entries to START and BLOCK, an exit to START that RIDE holds back (R285), the junction model's stages in 2^-32 K, the energy and
the mean of the round in progress, whether results arrived since the last marker or in this round, the gate held in HIBERNATE, a loss not
yet seen by the ride detector, whether an IN_VS result has come in since device reset. -/
structure InpS where
  badRun : Nat
  fwdRun : Nat
  startT : Int
  blockT : Int
  ready : Bool
  dt1 : Int
  dt2 : Int
  dt3 : Int
  energy : Int
  sumIn : Nat
  numIn : Nat
  vsFresh : Bool
  hbFresh : Bool
  hibGate : Bool
  lost : Bool
  vinSeen : Bool
deriving DecidableEq, Repr

/-- The pack converter and the ride detector beside their registers (R281 to R303): LOW samples in a row, return time in µs, compensator (u in
units of 2^-22), limited cycles in a row, the state a hiccup resumes, a readback mismatch, a sense loss, markers in a row below V_PACK_MIN,
DONE rounds below the recharge threshold, a hold, a restart asked for, the safety time in half ms, accumulators (R296), the frame's current
samples, discharge in mAs not yet a whole Ah, the seat; whether PACK_CS and PACK_VS gave a result in the period and the cycle, periods in a
row without PACK_CS; whether the pack's conditions held at a marker of the round; the round's sums of V_HB and I_PACK and its markers; rounds
in a row below V_SHED, the time at or above V_UNSHED, rounds in CV below the termination current, rounds in PRECHARGE; a leg floating for the
period's rest. -/
structure PackS where
  lowRun : Nat
  retUs : Nat
  e1 : Int
  e2 : Int
  u1 : Int
  u2 : Int
  limRun : Nat
  hicFrom : Nat
  padMis : Bool
  senseStop : Bool
  cutRun : Nat
  rechRun : Nat
  hold : Bool
  restart : Bool
  safeHalf : Nat
  qAcc : Int
  eOut : Nat
  eIn : Nat
  iSum : Int
  iNum : Nat
  disMas : Nat
  det : Bool
  csFresh : Bool
  noCs : Nat
  vsFresh : Bool
  okSeen : Bool
  vhbSum : Nat
  roundI : Int
  marks : Nat
  shedRun : Nat
  unshedUs : Nat
  termMs : Nat
  preMs : Nat
  floats : Bool
deriving DecidableEq, Repr

/-- The pack at reset. -/
def packIdle : PackS :=
  { lowRun := 0, retUs := 0, e1 := 0, e2 := 0, u1 := 0, u2 := 0, limRun := 0, hicFrom := 0, padMis := false, senseStop := false, cutRun := 0,
    rechRun := 0, hold := false, restart := false, safeHalf := 0, qAcc := 0, eOut := 0, eIn := 0, iSum := 0, iNum := 0, disMas := 0, det := false,
    csFresh := false, noCs := 0, vsFresh := false, okSeen := false, vhbSum := 0, roundI := 0, marks := 0, shedRun := 0, unshedUs := 0, termMs := 0,
    preMs := 0, floats := false }

/-- One feed beside its registers (R306 to R316): the begin of the last attempt, the entry to ON, since when the monitors have held what
power-good wants, the last V_GS, the time of the last current result, the rounds without one in START or ON, whether that result was above
I_OC and the span so far (2.5 ns units), the off time left in ms, whether the last trip was one of temperature, the model's stages in 2^-32 K,
a direct reading that failed, a CMD restart in SERVICE, held off until SAFE is left for RUN. -/
structure FeedS where
  startT : Option Int
  onT : Int
  pgSince : Option Int
  vgs : Nat
  noRes : Nat
  hotTrip : Bool
  lastT : Option Int
  above : Bool
  span : Int
  offLeft : Nat
  dt1 : Int
  dt2 : Int
  dt3 : Int
  badTemp : Bool
  restart : Bool
  held : Bool
deriving DecidableEq, Repr

/-- A feed at rest. -/
def feedIdle : FeedS := ⟨none, 0, none, 0, 0, false, none, false, 0, 0, 0, 0, 0, false, false, false⟩

/-- Where a rail stands in the sequence (R329 to R333). -/
inductive RailPhase where
  | off
  | delay
  | ramp
  | ready
  | good
  | hiccup
  | falling
deriving DecidableEq, Repr

/-- One board rail beside its registers: its phase, the latest judgements, its reference in µV, whether it is in native control,
periods without an effective COMP, limited cycles in a row, a readback mismatch, periods without a sense result, whether it was turned
off until the next rise, the trim in 2^-15 mV, phases floating in the period in progress, whether it was forced off (R333, R335). -/
structure RailS where
  phase : RailPhase
  inside : Bool
  below : Bool
  vref : Nat
  native : Bool
  noComp : Nat
  limRun : Nat
  padMis : Bool
  noSense : Nat
  blocked : Bool
  trim : Int
  light : Nat
  forced : Bool
deriving DecidableEq, Repr

/-- A rail that is off. -/
def railOff : RailS := ⟨.off, false, true, 0, true, 0, 0, false, 0, false, 0, 0, false⟩

/-- A voltage law's state: errors and outputs, u in units of 2^-22. -/
structure LawS where
  e1 : Int
  e2 : Int
  u1 : Int
  u2 : Int
deriving DecidableEq, Repr

/-- The sequencer beside its registers: the first slot not begun, the hold of R491, the rails a fall keeps (R338), whether an on request
waits for the end of the fall (R336), whether VHB caused the fall, the reset groups whose stretch has ended, and the IBC's law
and phase currents in mA. -/
structure SeqS where
  next : Nat
  hold : Bool
  keep : Nat
  pendOn : Bool
  vhbFall : Bool
  released : Nat
  law : LawS
  i0 : Int
  i1 : Int
deriving DecidableEq, Repr

/-- The SVC converter beside its registers: whether the port asks for it, reference in mV, law, limited cycles in a row, a readback
mismatch, periods without a sense result. -/
structure SvcS where
  on : Bool
  vref : Nat
  law : LawS
  limRun : Nat
  padMis : Bool
  noSense : Nat
deriving DecidableEq, Repr

/-- A law at rest. -/
def lawIdle : LawS := ⟨0, 0, 0, 0⟩

/-- Temperature beside its registers: tripped shutdown comparators (R351), the time of the last slow round (R226). -/
structure ThermS where
  shut : Nat
  lastSlow : Option Int
deriving DecidableEq, Repr

/-- What the service port's PD logic waits for (R438 to R448): nothing; the answer to its Request; PS_RDY as sink; the SVC output as
source; Accept to its Soft Reset; the answer to its swap; a power swap to sink: VBUS off, the partner's PS_RDY; a power swap to
source: the partner's PS_RDY, the SVC output; a Fast Role Swap as initial sink: Accept, PS_RDY; as initial source: FR_Swap, VBUS below 5.5 V,
PS_RDY; a Hard Reset as source: 30 ms, VBUS off, 800 ms, an attach; a Hard Reset as sink: VBUS. -/
inductive PdStage where
  | idle
  | request
  | ready
  | supply
  | soft
  | swap (k : PdSwap)
  | toSnkDis
  | toSnkWait
  | toSrcWait
  | toSrcSupply
  | frsReq
  | frsWait
  | frsOffer
  | frsDrop
  | frsTake
  | hrHold
  | hrDis
  | hrOff
  | hrOn
  | hrSink
deriving DecidableEq, Repr

/-- The service port beside its registers: the switches SRC_EN and VBUS_DIS, what PD waits for, the last message sent and its retries,
the messages the last command sent, Source_Capabilities still to send and what they offer, the Request in progress (RDO, 50 mV, 10 mA), Hard
Resets without a response, service lantern mode, a VDM that awaits its answer, VCONN off until the next attach, an accessory seen in
this presentation, Try.SNK gone through, an SVC target on its way (10 mV, mA), an SVC hiccup seen, an upgrade asked for
(R435), VBUS above 22 V, a message sequence that waits for SinkTxOK (R442), and TYPEC.CFG, TYPEC.SRCCOND and PD.CFG as the attach or the
last negotiation took them (R436). -/
structure PortS where
  srcEn : Bool
  vbusDis : Bool
  stage : PdStage
  last : Option PdMsg
  retries : Nat
  sent : List PdMsg
  capsLeft : Nat
  offered : List Nat
  reqRdo : Nat
  reqV : Nat
  reqI : Nat
  hrCount : Nat
  lantern : Bool
  vdmWait : Bool
  vconnOff : Bool
  accessory : Bool
  tried : Bool
  target : Option (Nat × Nat)
  hiccup : Bool
  asked : Bool
  ov : Bool
  held : Option (PdMsg × PdStage)
  polC : Nat
  polS : Nat
  polP : Nat
deriving DecidableEq, Repr

/-- A port with nothing attached, under the reset policy. -/
def portIdle : PortS :=
  ⟨false, false, .idle, none, 0, [], 0, [], 0, 0, 0, 0, false, false, false, false, false, none, false, false, false, none, 0x140030, 0xbb8, 0xf47⟩

/-- What a ring port sends: a frame, whether it ends in EOFB; an ordered set's OTYPE, B1 to B3; a burst of idle (R457 to R459, R462,
R482). -/
inductive RingItem where
  | frame (f : RingFrame) (eofb : Bool)
  | oset (otype b1 b2 b3 : Nat)
  | burst
deriving DecidableEq, Repr

/-- A frame of the device's own that waits: its port (true WEST; none: as the topology asks), and where the result of a template frame
goes (R460, R463, R478). -/
structure RingTx where
  frame : RingFrame
  port : Option Bool
  result : Option Nat
deriving DecidableEq, Repr

/-- A remote read under way: its TAG, its target, the copies still to return, whether one came back claimed, and for a template where its
result goes (R476, R478). -/
structure RingRead where
  tag : Nat
  dev : Nat
  copies : Nat
  claimed : Bool
  result : Option Nat
deriving DecidableEq, Repr

/-- A master's own copy of DEV.RMT_STAT and DEV.RMT_RESULT (R416). -/
structure RmtCopy where
  state : Nat
  outcome : Nat
  count : Nat
  dev : Nat
  words : List Nat
deriving DecidableEq, Repr

/-- The delay probes of a port (R470): how many of a set of 16 are left, the sum of the delays of the set, the number of the last
probe, whether its answer is awaited. -/
structure ProbeS where
  left : Nat
  sum : Int
  no : Nat
  out : Bool
deriving DecidableEq, Repr

/-- The ring beside its registers: frames that wait, what the last command put on the ports, the TAG sequence, reads under way, each
master's copies; the enumeration's step (1 CLEAR, 2 ASSIGN east, 3 ASSIGN west, 4 MEASURE, 5 DONE, 6 waiting for the ports), tries, copies
awaited, the tags it sent, the NEXT that came back from each side, whether the ring is closed, a VERIFY awaited, a ring found not
usable; delay probes; steering held in enumeration; an EPOCH taken since the boundary, EPOCHs missed, the lock streak and the servo's
integral; an EPSET to load, an epoch whose first frame is to begin; SNUFF's SEQ and repeats left, the last SEQ of each origin;
the pilot count; the summary taken at the boundary. -/
structure RingS where
  txq : List RingTx
  sent : List (Bool × RingItem)
  tagSeq : Nat
  reads : List RingRead
  rmt : Vector RmtCopy 5
  step : Nat
  tries : Nat
  await : Nat
  tags : List Nat
  east : Nat
  west : Nat
  closed : Bool
  verify : Bool
  unusable : Bool
  probeE : ProbeS
  probeW : ProbeS
  hold : Bool
  took : Bool
  missed : Nat
  lockRun : Nat
  integ : Int
  epset : Bool
  newEpoch : Bool
  snuffSeq : Nat
  snuffLeft : Nat
  seen : List (Nat × Nat)
  pilots : Nat
  summary : Option (List Nat)
deriving DecidableEq, Repr

/-- A ring engine that has done nothing. -/
def ringIdle : RingS :=
  ⟨[], [], 0, [], Vector.replicate 5 ⟨0, 0, 0, 0, []⟩, 0, 0, 0, [], 0, 0, false, false, false, ⟨0, 0, 0, false⟩, ⟨0, 0, 0, false⟩, false, false, 0,
    0, 0, false, false, 0, 0, [], 0, none⟩

/-- The host buses beside their registers: CRC_ERR of the status bytes of host SPI and of the debug link (R413), whether the I²C
target's last transaction met a NACK (R420), TSCL held low by the recogniser (R422), whether the controller only clears its bus (R424) and the
bytes its transfer puts on it (R423). -/
structure BusS where
  spiBad : Bool
  dbgBad : Bool
  nack : Bool
  tsclHeld : Bool
  clearOnly : Bool
  ccOut : List Nat
deriving DecidableEq, Repr

/-- The state of the block. -/
structure State where
  /-- The commands that wait, first in first out. -/
  pending : List Instr
  /-- The registers that do not hold their reset value: local address and value, addresses rising. -/
  regs : List (Nat × BitVec 32)
  /-- The bytes of memory that do not read as shipped: address and value, addresses rising. -/
  mem : List Host.Cell
  /-- The mode in force (R21). -/
  mode : Mode
  /-- The model's own counter, the argument of free values that are fresh at each use; no register of the device. -/
  fresh : Nat
  /-- The words the last access answered with, as its master reads them. -/
  answer : List Nat
  dev : DevS
  evq : EvqS
  fault : FaultS
  lamp : LampS
  cellar : CellarS
  wdog : WdogS
  op : Option LongOp
  pwm : Vector PwmOut 42
  adc : Vector AdcS 4
  cmp : CmpS
  link : Vector LinkS 16
  est : EstS
  bal : Vector BalS 16
  hb : HbS
  inp : InpS
  pack : PackS
  feed : Vector FeedS 8
  feedL : Nat
  rail : Vector RailS 15
  seq : SeqS
  svc : SvcS
  therm : ThermS
  port : PortS
  ring : RingS
  bus : BusS
deriving DecidableEq, Repr

/-- The block right after the cellar's power-on: mode CELLAR, every register at its reset value, memory as shipped, the
cellar record area at its clear values (R377, R384), nothing waiting. -/
def State.reset : State :=
  { pending := [], regs := [], mem := clearedRecord, mode := .cellar, fresh := 0, answer := [],
    dev := { bias := .none, biasMask := 0, held := true, vhbOn := false, pll := false, rowC := false, calDone := false, imageDone := false, preloadDone := false, enumDue := false, stage := 0, wakeBits := none, servicePend := false, armedOff := none, onAtFall := false, restarts := [], stopLatched := false, strapHead := false, strapImg := false, resetIn := false, testHigh := false, vddioLow := 0, jtag := 0, freset := [] },
    evq := { firings := [], held := [], active := [], lineA := ⟨false, true, false, false, false, false⟩, lineB := ⟨false, true, false, false, false, false⟩ },
    fault := { lines := [], latched := [], reactMode := 0, reactRtc := 0, reactLo := 0, reactHi := 0, reactNum := 0, logq := [], rbBad := [], rbFirst := false, clkBad := 0 },
    lamp := { lanes := Vector.replicate 6 laneIdle, tokens := [], posted := [], tested := [], cycleCount := 0, switchPending := false, rideJump := false, budgets := [], relightBank := 0, relightCold := false, coldStage := 0, autoRun := false, prevBank := 0, place := [], heldTiming := 0, heldSerial := 0, litLen := [], align := none, index := 0, frameE := 0, newFrame := false, atRound := false, givers := [] },
    cellar := { count := 0, trimAcc := 0, setWait := none, frozen := [], fallback := false, pwronMis := 0, powered := true },
    wdog := { on := false, count := 0, first := false, checkins := [], window := false },
    op := none,
    pwm := Vector.ofFn fun i => pwmStart i.val,
    adc := Vector.replicate 4 ⟨[], [], [], 0, none, false, 0, false, []⟩,
    cmp := { blanked := 0, idle := 0, acted := 0, mons := Vector.replicate 16 monIdle, due := 0 },
    link := Vector.replicate 16 linkIdle,
    est := ⟨Vector.replicate 16 estStrIdle, 0, 0, 0, false, false⟩,
    bal := Vector.replicate 16 balIdle,
    hb := ⟨none, false, 0, 0, 0, 0, [], Vector.replicate 16 none, [], none⟩,
    inp := ⟨0, 0, 0, 0, false, 0, 0, 0, 0, 0, 0, false, false, false, false, false⟩,
    pack := packIdle,
    feed := Vector.replicate 8 feedIdle,
    feedL := 0,
    rail := Vector.replicate 15 railOff,
    seq := ⟨0, false, 0, false, false, 0, lawIdle, 0, 0⟩,
    svc := ⟨false, 0, lawIdle, 0, false, 0⟩,
    therm := ⟨0, none⟩,
    port := portIdle,
    ring := ringIdle,
    bus := ⟨false, false, false, false, false, []⟩ }

end Sys2Proof.Machine
end

