-- ==== Sys2Proof/Machine/Ops.lean ====
section
/-! DEFINITION. The named operations over registers, memory, status bits, error lines and event firings: the one
home of every read and write the blocks make. -/

namespace Sys2Proof.Machine

/-! ### Plain helpers -/

/-- Bit `k` of a number. -/
def bitOf (v k : Nat) : Bool := v / 2 ^ k % 2 == 1

/-- Bits `[lo + w - 1 : lo]` of a number. -/
def bitsOf (v lo w : Nat) : Nat := v / 2 ^ lo % 2 ^ w

/-- A number of `w` bits read as two's complement (R4, R7). -/
def toSigned (w v : Nat) : Int := if v % 2 ^ w < 2 ^ (w - 1) then (v % 2 ^ w : Nat) else ((v % 2 ^ w : Nat) : Int) - (2 ^ w : Nat)

/-- The `w`-bit two's complement code of an integer. -/
def ofSigned (w : Nat) (i : Int) : Nat := (i % ((2 ^ w : Nat) : Int)).toNat

/-- 1 for true, 0 for false. -/
def b2n (b : Bool) : Nat := if b then 1 else 0

/-- An integer clamped to `[lo, hi]`. -/
def clampI (lo hi v : Int) : Int := if v < lo then lo else if hi < v then hi else v

/-- A number clamped to `[lo, hi]`. -/
def clampN (lo hi v : Nat) : Nat := if v < lo then lo else if hi < v then hi else v

/-- Increment of a counter that saturates at `m`. -/
def satInc (m v : Nat) : Nat := if v < m then v + 1 else m

/-- `v`, with the value 0 acting as 1. -/
def atLeast1 (v : Nat) : Nat := if v = 0 then 1 else v

/-- Division of integers rounded to nearest, halves away from zero (R69, R187; log entry 45); a divisor of 0 gives 0. -/
def roundDiv (a b : Int) : Int :=
  if b = 0 then 0
  else
    let q := (2 * a.natAbs + b.natAbs) / (2 * b.natAbs)
    if (a < 0) = (b < 0) then (q : Int) else -(q : Int)

/-- The lowest set bit of a number below `n`, if any. -/
def lowestBit (v n : Nat) : Option Nat := (List.range n).find? (bitOf v)

/-- The number of set bits below `n`. -/
def popCount (v n : Nat) : Nat := ((List.range n).filter (bitOf v)).length

/-- `v` with bit `k` set to `b`. -/
def putBit (v k : Nat) (b : Bool) : Nat :=
  if bitOf v k = b then v else if b then v + 2 ^ k else v - 2 ^ k

/-- The value at an index of a list, or a default. -/
def nth (l : List Nat) (k : Nat) : Nat := (l[k]?).getD 0

/-! ### Registers -/

/-- The local byte address of a register field's register. -/
def Fld.addr (f : Fld) : Nat := f.pg * 0x400 + f.off

/-- The same field on the page of instance `n`. -/
def Fld.at (f : Fld) (n : Nat) : Fld := { f with pg := f.pg + n }

/-- The same field in copy `k` of a repeated register. -/
def Fld.el (f : Fld) (k : Nat) : Fld := { f with off := f.off + f.stride * k }

/-- The field `k` bits higher in the same register. -/
def Fld.sh (f : Fld) (k : Nat) : Fld := { f with lo := f.lo + k }

/-- A whole register as a field. -/
def Fld.whole (pg off : Nat) : Fld := ⟨pg, off, 4, 0, 32⟩

/-- The stored value of the register at a local address. -/
def State.rd (s : State) (a : Nat) : Word := Sparse.get regReset s.regs a

/-- The state with the register at a local address holding `v`. -/
def State.wr (s : State) (a : Nat) (v : Word) : State := { s with regs := Sparse.put regReset s.regs a v }

/-- The mask of a field of width `w` at bit `lo`. -/
def fldMask (lo w : Nat) : Word := (BitVec.ofNat 32 (2 ^ w - 1)) <<< lo

/-- A word with the field at `lo`, `w` bits wide, holding `v`. -/
def putBits (old : Word) (lo w v : Nat) : Word :=
  (old &&& ~~~(fldMask lo w)) ||| (((BitVec.ofNat 32 v) <<< lo) &&& fldMask lo w)

/-- The field of a word at `lo`, `w` bits wide. -/
def getBits (x : Word) (lo w : Nat) : Nat := (x >>> lo).toNat % 2 ^ w

/-- The value of a register field. -/
def State.get (s : State) (f : Fld) : Nat := getBits (s.rd f.addr) f.lo f.w

/-- The value of a register field read as two's complement. -/
def State.getI (s : State) (f : Fld) : Int := toSigned f.w (s.get f)

/-- Whether a one-bit field is 1. -/
def State.on (s : State) (f : Fld) : Bool := s.get f != 0

/-- The state with a register field holding `v`. -/
def State.put (s : State) (f : Fld) (v : Nat) : State := s.wr f.addr (putBits (s.rd f.addr) f.lo f.w v)

/-- The state with a register field holding the two's complement code of `v`. -/
def State.putI (s : State) (f : Fld) (v : Int) : State := s.put f (ofSigned f.w v)

/-- Header offsets (Table 4 of register pages). -/
def hdrCTRL : Nat := 0x004
def hdrSTATUS : Nat := 0x008
def hdrRAW : Nat := 0x00C
def hdrEVT_EN : Nat := 0x010
def hdrROUTE : Nat := 0x014
def hdrERR : Nat := 0x018
def hdrERR_INJ : Nat := 0x01C
def hdrLAST_WRITER : Nat := 0x020
def hdrCOLLIDE : Nat := 0x024

/-- A register of the header of page `pg`. -/
def hdrAddr (pg off : Nat) : Nat := pg * 0x400 + off

/-- A register of the header read as a number. -/
def State.hdr (s : State) (pg off : Nat) : Nat := (s.rd (hdrAddr pg off)).toNat

/-- CTRL.ENABLE of a page; it reads 1 on the pages of R35. -/
def State.enabled (s : State) (pg : Nat) : Bool := alwaysEnabled pg || bitOf (s.hdr pg hdrCTRL) 0

/-- Whether the block of a page may run: enabled and not in a function reset (R34). -/
def State.blockOn (s : State) (pg : Nat) : Bool := s.enabled pg && !s.dev.freset.contains pg

/-! ### Memory -/

/-- One byte of a memory window. -/
def State.byte (s : State) (a : Nat) : Byte := Sparse.get shippedByte s.mem a

/-- The state with one byte of memory written. -/
def State.putByte (s : State) (a : Nat) (b : Byte) : State := { s with mem := Sparse.put shippedByte s.mem a b }

/-- `n` bytes from an address, little-endian, as a number. -/
def State.load (s : State) (a : Nat) : Nat → Nat
  | 0 => 0
  | n + 1 => (s.byte a).toNat + 256 * State.load s (a + 1) n

/-- The state with the `n` low bytes of `v` written little-endian from an address. -/
def State.store (s : State) (a : Nat) : Nat → Nat → State
  | 0, _ => s
  | n + 1, v => State.store (s.putByte a (BitVec.ofNat 8 v)) (a + 1) n (v / 256)

/-- An `n`-byte two's complement number. -/
def State.loadI (s : State) (a n : Nat) : Int := toSigned (8 * n) (s.load a n)

/-- The state with an `n`-byte two's complement number written. -/
def State.storeI (s : State) (a n : Nat) (v : Int) : State := s.store a n (ofSigned (8 * n) v)

/-- The bytes of memory from an address. -/
def State.bytes (s : State) (a n : Nat) : List Byte := (List.range n).map fun i => s.byte (a + i)

/-- The state with a run of bytes written from an address. -/
def State.putBytes (s : State) (a : Nat) : List Byte → State
  | [] => s
  | b :: t => State.putBytes (s.putByte a b) (a + 1) t

/-- The state with every byte of `[a, a + n)` at 0. -/
def State.zeroRange (s : State) (a n : Nat) : State := s.putBytes a (List.replicate n 0)

/-- The state with the bytes of one range copied to another. -/
def State.copyRange (s : State) (src dst n : Nat) : State := s.putBytes dst (s.bytes src n)

/-! ### Cyclic redundancy checks (R85, R144) -/

/-- One bit step of a reflected CRC. -/
def crcBit (poly c : Nat) : Nat := if c % 2 = 1 then Nat.xor (c / 2) poly else c / 2

/-- `n` bit steps. -/
def crcBits (poly : Nat) : Nat → Nat → Nat
  | 0, c => c
  | n + 1, c => crcBits poly n (crcBit poly c)

/-- CRC-32 of R85: reflected polynomial 0xEDB8_8320, initial and final value all ones. -/
def crc32 (bs : List Byte) : Nat :=
  Nat.xor (bs.foldl (fun c b => crcBits 0xEDB88320 8 (Nat.xor c b.toNat)) 0xFFFFFFFF) 0xFFFFFFFF

/-- One bit step of the CRC-8, most significant bit first. -/
def crc8Step (c : Nat) : Nat := if c / 0x80 % 2 = 1 then Nat.xor (c * 2 % 0x100) 0x07 else c * 2 % 0x100

/-- `n` bit steps. -/
def crc8Steps : Nat → Nat → Nat
  | 0, c => c
  | n + 1, c => crc8Steps n (crc8Step c)

/-- CRC-8 with polynomial 0x07 from an initial value, no reflection, no final XOR: 0xFF in frames, 0 in the PEC of SMBus. -/
def crc8 (init : Nat) (bs : List Nat) : Nat := bs.foldl (fun c b => crc8Steps 8 (Nat.xor c b)) init

/-- A number as `n` bytes, most significant first (R412). -/
def msbBytes (n v : Nat) : List Nat := (List.range n).map fun i => v / 256 ^ (n - 1 - i) % 256

/-- One bit step of the CRC-16 of R144, most significant bit first. -/
def crc16Step (c : Nat) : Nat := if c / 0x8000 % 2 = 1 then Nat.xor (c * 2 % 0x10000) 0x1021 else c * 2 % 0x10000

/-- `n` bit steps of the CRC-16. -/
def crc16Steps : Nat → Nat → Nat
  | 0, c => c
  | n + 1, c => crc16Steps n (crc16Step c)

/-- CRC-16 of R144. -/
def crc16 (bs : List Byte) : Nat :=
  bs.foldl (fun c b => crc16Steps 8 (Nat.xor c (b.toNat * 256))) 0xFFFF

end Sys2Proof.Machine
end

