-- ==== Sys2Proof/Machine/Flags.lean ====
section
/-! DEFINITION. The flag computations of the common header: setting and clearing STATUS bits (R36, R37), ERR bits and
their error lines (R357), event firings (R401, R406, R409), error injection (R372). -/

namespace Sys2Proof.Machine

/-! ### Source IDs of status bits -/

/-- The first source ID of a page's status bits and how many of them make records (R401, Table 4). -/
def statusIds (pg : Nat) : Option (Nat × Nat) :=
  if pg = PG_DEV then some (0x060, 16)
  else if pg = PG_LAMP then some (0x070, 16)
  else if pg = PG_IMAGE then some (0x080, 8)
  else if pg = PG_ATTIC then some (0x088, 8)
  else if PG_ADC ≤ pg ∧ pg < PG_ADC + 4 then some (0x090 + 16 * (pg - PG_ADC), 16)
  else if pg = PG_CMP then some (0x0D0, 32)
  else if PG_SLINK ≤ pg ∧ pg < PG_SLINK + 16 then some (0x0F0 + 12 * (pg - PG_SLINK), 12)
  else if pg = PG_EST then some (0x1B0, 16)
  else if pg = PG_OCV then some (0x1C0, 8)
  else if pg = PG_HEALTH then some (0x1C8, 16)
  else if PG_BAL ≤ pg ∧ pg < PG_BAL + 16 then some (0x1D8 + 12 * (pg - PG_BAL), 12)
  else if pg = PG_DISPATCH then some (0x298, 8)
  else if pg = PG_INPATH then some (0x2A0, 16)
  else if pg = PG_PACK then some (0x2B0, 16)
  else if pg = PG_FEEDS then some (0x2C0, 32)
  else if pg = PG_SVC then some (0x2E0, 8)
  else if pg = PG_IBC then some (0x2E8, 8)
  else if PG_POL ≤ pg ∧ pg < PG_POL + 4 then some (0x2F0 + 8 * (pg - PG_POL), 8)
  else if pg = PG_LDO then some (0x310, 16)
  else if pg = PG_SEQ then some (0x320, 8)
  else if pg = PG_THERM then some (0x328, 8)
  else if pg = PG_FAULT then some (0x330, 8)
  else if pg = PG_WDOG then some (0x338, 8)
  else if pg = PG_RTC then some (0x340, 8)
  else if pg = PG_CELLAR then some (0x348, 8)
  else if pg = PG_EVQ then some (0x350, 8)
  else if pg = PG_SPI then some (0x358, 8)
  else if pg = PG_I2CT then some (0x360, 16)
  else if pg = PG_I2CC then some (0x370, 8)
  else if pg = PG_TYPEC then some (0x378, 16)
  else if pg = PG_PD then some (0x388, 32)
  else if pg = PG_RING then some (0x3A8, 32)
  else none

/-! ### Firings -/

/-- A firing goes to the EVQ; in HIBERNATE and RISE it is held in a queue of 16 or dropped and counted in HOLD.LOST, and in
CELLAR none can occur (R409, Table 9). -/
def State.fire (s : State) (f : Firing) : State :=
  match s.mode with
  | .cellar => s
  | .hibernate | .rise =>
    if s.evq.held.length < 16 then
      { (s.put EVQ_HOLD_LEVEL (s.evq.held.length + 1)) with evq.held := s.evq.held ++ [f] }
    else s.put EVQ_HOLD_LOST (satInc 255 (s.get EVQ_HOLD_LOST))
  | _ => { s with evq.firings := s.evq.firings ++ [f] }

/-- The low 32 bits of the RTC count, the stamp of a record (R398). -/
def State.stamp (s : State) : Nat := s.cellar.count % 2 ^ 32

/-- The firing of status bit `k` of page `pg`, when its event is enabled (R401, Table 3). -/
def State.fireStatus (s : State) (pg k : Nat) : State :=
  match statusIds pg with
  | none => s
  | some (first, width) =>
    if k < width ∧ bitOf (s.hdr pg hdrEVT_EN) k then
      s.fire { src := first + k, cls := 7, merged := false, shelfB := bitOf (s.hdr pg hdrROUTE) k,
               stamp := s.stamp, lo := s.hdr pg hdrSTATUS, hi := k * 256 + pg }
    else s

/-! ### STATUS -/

/-- An occurrence sets status bit `k` of page `pg`; each setting raises an event if enabled, also of a bit already 1
(R36, R37). -/
def State.raise (s : State) (pg k : Nat) : State :=
  (s.wr (hdrAddr pg hdrSTATUS) (s.rd (hdrAddr pg hdrSTATUS) ||| (1#32 <<< k))).fireStatus pg k

/-- An occurrence on the condition that `b` holds. -/
def State.raiseIf (s : State) (b : Bool) (pg k : Nat) : State := if b then s.raise pg k else s

/-- The level behind status bit `k` becomes `b`: STATUS_RAW follows it and a rising edge sets the status bit (R36). -/
def State.level (s : State) (pg k : Nat) (b : Bool) : State :=
  let raw := s.hdr pg hdrRAW
  let s' := s.wr (hdrAddr pg hdrRAW) (BitVec.ofNat 32 (putBit raw k b))
  if b && !bitOf raw k then s'.raise pg k else s'

/-- A W1C write `clr` to STATUS with the bits `sets` set in the same owner clock (R37, Table 16): a bit both set and cleared
stays 1, counts a collision and raises a fresh event. -/
def State.statusW1C (s : State) (pg : Nat) (clr sets : Word) : State :=
  let a := hdrAddr pg hdrSTATUS
  let c := hdrAddr pg hdrCOLLIDE
  let old := s.rd a
  let s1 := s.wr a ((old &&& ~~~clr) ||| sets)
  let n := popCount (clr &&& sets).toNat 32
  let s2 := if n = 0 then s1 else s1.wr c (BitVec.ofNat 32 (min 255 ((s.rd c).toNat % 256 + n)))
  (List.range 32).foldl (fun t k => if bitOf sets.toNat k then t.fireStatus pg k else t) s2

/-! ### ERR and the error lines -/

/-- The fault source whose line carries ERR bit `k` of page `pg` (R356, Table 1; R357). -/
def errSource (pg k : Nat) : Nat :=
  if pg = PG_DEV then 56
  else if pg = PG_LAMP then 7
  else if pg = PG_IMAGE then 8
  else if pg = PG_ATTIC then 9
  else if PG_ADC ≤ pg ∧ pg < PG_ADC + 4 then 10 + (pg - PG_ADC)
  else if pg = PG_CMP then 14
  else if PG_SLINK ≤ pg ∧ pg < PG_SLINK + 16 then 32
  else if pg = PG_EST then 34
  else if pg = PG_OCV then 35
  else if pg = PG_HEALTH then 36
  else if PG_BAL ≤ pg ∧ pg < PG_BAL + 16 then 33
  else if pg = PG_DISPATCH then 37
  else if pg = PG_INPATH then 38
  else if pg = PG_PACK then 39
  else if pg = PG_FEEDS then 40
  else if pg = PG_SVC then 41
  else if pg = PG_IBC then 42
  else if PG_POL ≤ pg ∧ pg < PG_POL + 4 then 43
  else if pg = PG_LDO then 44
  else if pg = PG_SEQ then (if k = 1 ∨ k = 2 then 1 else 45)
  else if pg = PG_THERM then (if k = THERM_ERR_SHUT then 0 else 15)
  else if pg = PG_FAULT then 6
  else if pg = PG_WDOG then 46
  else if pg = PG_RTC then 47
  else if pg = PG_CELLAR then 48
  else if pg = PG_EVQ then 49
  else if pg = PG_SPI then 50
  else if pg = PG_I2CT then 51
  else if pg = PG_I2CC then 52
  else if pg = PG_TYPEC then 53
  else if pg = PG_PD then 54
  else (if k = RING_ERR_SNUFFRX then 5 else 55)

/-- A pulse of a source's error line sets out for GUARD. -/
def State.pulse (s : State) (p : LinePulse) : State := { s with fault.lines := s.fault.lines ++ [p] }

/-- The data words a LAMP cause carries: the matching info register (R83). -/
def State.lampInfo (s : State) (k : Nat) : Nat :=
  if k = LAMP_ERR_OVERRUN then (s.rd (PG_LAMP * 0x400 + 0x058)).toNat
  else if k = LAMP_ERR_RDV then (s.rd (PG_LAMP * 0x400 + 0x05C)).toNat
  else if k = LAMP_ERR_LOCKSTEP then (s.rd (PG_LAMP * 0x400 + 0x060)).toNat
  else if k = LAMP_ERR_DECODE then (s.rd (PG_LAMP * 0x400 + 0x064)).toNat
  else 0

/-- A cause sets ERR bit `k` of page `pg`; a cause that becomes set pulses its line, one already set gives no pulse (R36,
R357).  `inj` marks the verdict of an injected check (R373). -/
def State.errI (s : State) (pg k : Nat) (inj : Bool) : State :=
  if bitOf (s.hdr pg hdrERR) k then s
  else
    (s.wr (hdrAddr pg hdrERR) (s.rd (hdrAddr pg hdrERR) ||| (1#32 <<< k))).pulse
      { src := errSource pg k, inj := inj, lo := 0, hi := if pg = PG_LAMP then s.lampInfo k else 0 }

/-- A cause that no injected check raised. -/
def State.err (s : State) (pg k : Nat) : State := s.errI pg k false

/-- A W1C write `clr` to ERR with the causes `sets` set in the same owner clock: such a bit stays 1, and its line pulses
again (R37, R357).  LAMP, SEQ and FAULT info registers lose VALID with their cause (Tables 23, 24, 26 of the lamplighter,
Table 12 of board rails, Table 13 of fault collection, Table 20 of string links). -/
def State.errW1C (s : State) (pg : Nat) (clr : Word) : State :=
  let a := hdrAddr pg hdrERR
  let new := s.rd a &&& ~~~clr
  let gone := (s.rd a &&& clr).toNat
  let s1 := s.wr a new
  if pg = PG_LAMP then
    let s2 := if bitOf gone LAMP_ERR_OVERRUN then s1.put LAMP_OVR_INFO_VALID 0 else s1
    let s3 := if bitOf gone LAMP_ERR_RDV then s2.put LAMP_RDV_INFO_VALID 0 else s2
    if bitOf gone LAMP_ERR_DECODE then s3.put LAMP_DEC_INFO_VALID 0 else s3
  else if pg = PG_SEQ then (if bitOf gone 1 then s1.wr (PG_SEQ * 0x400 + 0x060) 0 else s1)
  else if pg = PG_FAULT then (if bitOf gone FAULT_ERR_SNUFFRB then s1.put FAULT_SNUFFRB_VALID 0 else s1)
  else if PG_SLINK ≤ pg ∧ pg < PG_SLINK + 16 then
    (if bitOf gone SLINK_ERR_EXHAUSTED then s1.put (SLINK_LASTERR_VALID.at (pg - PG_SLINK)) 0 else s1)
  else s1

/-! ### Injection -/

/-- The highest checker code of a page's ERR_INJ (the ERR_INJ tables of the chapters). -/
def injMax (pg : Nat) : Nat :=
  if pg = PG_LAMP then 9
  else if pg = PG_IMAGE then 3
  else if pg = PG_RING then 3
  else if PG_BAL ≤ pg ∧ pg < PG_BAL + 16 then 3
  else if pg = PG_DEV ∨ pg = PG_CMP ∨ pg = PG_OCV ∨ pg = PG_DISPATCH ∨ pg = PG_INPATH ∨ pg = PG_SEQ ∨ pg = PG_RTC
      ∨ pg = PG_CELLAR ∨ pg = PG_EVQ ∨ pg = PG_SPI ∨ pg = PG_I2CT ∨ pg = PG_I2CC ∨ pg = PG_TYPEC ∨ pg = PG_PD then 1
  else 2

/-- A write of ERR_INJ: CHECKER and COUNT together, or 0 for a code the page does not define (R372). -/
def State.injWrite (s : State) (pg : Nat) (v : Nat) : State :=
  s.wr (hdrAddr pg hdrERR_INJ)
    (if bitsOf v 8 5 ≤ injMax pg then BitVec.ofNat 32 (bitsOf v 8 5 * 256 + bitsOf v 0 4) else 0)

/-- Whether the next check of checker `code` of a page is inverted. -/
def State.injOn (s : State) (pg code : Nat) : Bool :=
  bitsOf (s.hdr pg hdrERR_INJ) 8 5 == code && bitsOf (s.hdr pg hdrERR_INJ) 0 4 != 0

/-- The state after checker `code` of a page made one check: COUNT counts down, injection ends at 0 (R372). -/
def State.injTake (s : State) (pg code : Nat) : State :=
  if s.injOn pg code then
    s.wr (hdrAddr pg hdrERR_INJ) (s.rd (hdrAddr pg hdrERR_INJ) - 1)
  else s

/-! ### Long operations -/

/-- Whether a long operation runs (R46). -/
def State.busy (s : State) : Bool := s.get DEV_LONGOP_RUN != 0

/-- Long operation `code` starts (R46). -/
def State.longStart (s : State) (code : Nat) : State := s.put DEV_LONGOP_RUN code

/-- The running long operation ends with `result` (0 passed, 1 failed): its code and result are stored and LONGDONE is set
(R46). -/
def State.longEnd (s : State) (result : Nat) : State :=
  if s.busy then
    (((s.put DEV_LONGOP_LAST (s.get DEV_LONGOP_RUN)).put DEV_LONGOP_RESULT result).put DEV_LONGOP_RUN 0).raise
      PG_DEV DEV_ST_LONGDONE
  else s

/-! ### Writers (R40, R43) -/

/-- The ID of a master (Table 15). -/
def masterId : Master → Nat
  | .lamplighter => 0
  | .spi => 1
  | .i2c => 2
  | .ring _ => 3
  | .debug => 4
  | .preload => 5

/-- The source device number a master's writes carry. -/
def masterDev : Master → Nat
  | .ring d => d % 512
  | _ => 0

/-- The sequence counter of a master. -/
def seqCounter (m : Master) : Fld :=
  if masterId m % 2 = 0 then DEV_SEQCNT_CNT_LO.el (masterId m / 2) else DEV_SEQCNT_CNT_HI.el (masterId m / 2)

/-- An accepted write of a master to a register of page `pg`: its counter runs from 1 to 65,535 and back to 1, and the page's
LAST_WRITER shows it (R43). -/
def State.noteWrite (s : State) (m : Master) (pg : Nat) : State :=
  let c := s.get (seqCounter m)
  let c' := if c = 65535 then 1 else c + 1
  (s.put (seqCounter m) c').wr (hdrAddr pg hdrLAST_WRITER) (BitVec.ofNat 32 (c' * 65536 + masterDev m * 128 + masterId m))

/-- A write of the lamplighter to a field whose register it owns by R274 or R291; discarded while the page is in a function reset
(R34). -/
def State.schedPut (s : State) (f : Fld) (v : Nat) : State :=
  if s.dev.freset.contains f.pg then s else (s.put f v).noteWrite .lamplighter f.pg

/-! ### Answers -/

/-- The outcome of every command that has an effect or none: a next state. -/
def done (s : State) : Host.Outcome State Fault Refusal := .next s

/-- The state with the words an access answered with. -/
def State.reply (s : State) (ws : List Nat) : State := { s with answer := ws }

/-- A fresh number for a free value: the counter, then one more. -/
def State.tickFresh (s : State) : State := { s with fresh := s.fresh + 1 }

end Sys2Proof.Machine
end

