-- ==== Sys2Proof/Machine/Areas.lean ====
section
/-! DEFINITION. Where records stand in the store room, working SRAM and the attic, and the device's own time. -/

namespace Sys2Proof.Machine

/-! ### Time (R12 to R15) -/

/-- T_FRAME in milliseconds, one round each (Table 20 of the lamplighter). -/
def State.tFrame (s : State) : Nat :=
  match s.get LAMP_TIMING_TFRAME with
  | 0 => 250
  | 1 => 500
  | 2 => 1000
  | 3 => 2000
  | _ => 4000

/-- T_CYC in microseconds. -/
def State.tCyc (s : State) : Nat :=
  match s.get LAMP_TIMING_TCYC with
  | 0 => 5
  | 1 => 10
  | _ => 20

/-- The cycles of a round. -/
def State.nCyc (s : State) : Nat := 1000 / s.tCyc

/-- The frame in progress. -/
def State.frame (s : State) : Nat := s.get LAMP_FRAME_NUMBER

/-- The time of the cycle marker in force, in units of 2.5 ns counted from frame 0. -/
def State.tMarker (s : State) : Int :=
  (((s.frame * s.tFrame + s.get LAMP_POSITION_ROUND) * 400000 + s.get LAMP_POSITION_CYCLE * s.tCyc * 400 : Nat) : Int)

/-! ### The store room (R208) -/

/-- Cell `c` (0 to 639) of string `s`. -/
def cellAddr (s c : Nat) : Nat := 0x100000 + (s * 640 + c) * 48

/-- Module `m` (1 to 40) of string `s`. -/
def modAddr (s m : Nat) : Nat := 0x17A000 + (s * 40 + m - 1) * 32

/-- The string record. -/
def strAddr (s : Nat) : Nat := 0x178000 + s * 512

/-! ### The health work area (R226, Table 10); the layout inside a range is log entry 9 -/

/-- The demodulation sums of cell `j` of the module in measurement on string `n`. -/
def demodAddr (n j : Nat) : Nat := 0x1BF000 + 512 * n + 32 * j

/-- The pending counts of a cell. -/
def pendAddr (s c : Nat) : Nat := 0x1C1000 + s * 640 + c

/-- The module's entry: balancing charge, then the remainder and the selector operations. -/
def hwMod (s m : Nat) : Nat := 0x1C3800 + 8 * (s * 40 + m - 1)

/-- The string's entry: throughput (8 bytes), A_STRF, A_STRL. -/
def hwStr (s : Nat) : Nat := 0x1C4C00 + 16 * s

/-- The channel's entry: energy out and in (8 bytes each), running time, accepted tones. -/
def hwChan (n : Nat) : Nat := 0x1C4D00 + 32 * n

/-- Trips of a feed since the flush. -/
def hwFeed (i : Nat) : Nat := 0x1C4F00 + 4 * i

/-- Rail time in power-good since the flush, ms. -/
def hwRail (r : Nat) : Nat := 0x1C4F20 + 4 * r

/-- Histogram time of a bin since the flush, ms. -/
def hwHist (b : Nat) : Nat := 0x1C4F5C + 4 * b

/-- A counter of `n` bytes goes up by `v`, saturating. -/
def State.bump (s : State) (a n v : Nat) : State := s.store a n (min (256 ^ n - 1) (s.load a n + v))

/-- A selector operation of a module is counted (R225, Table 10). -/
def State.selOp (s : State) (n m : Nat) : State :=
  let a := hwMod n m + 4
  let v := s.load a 4
  s.store a 4 (v % 0x400000 + min 1023 (v / 0x400000 + 1) * 0x400000)

/-- The health work area is cleared (R226). -/
def State.clearHealthArea (s : State) : State :=
  { s with mem := s.mem.filter fun c => !(decide (0x1BF000 ≤ c.1) && decide (c.1 < 0x1C5000)) }

end Sys2Proof.Machine
end

