-- ==== Sys2Proof/Machine/Operands.lean ====
section
/-! DEFINITION. The slot words: opcodes and operands (R93, R94), the lanes and their clocks (R49, R51, R512), the islands of addresses
(R28, R31), budget floors (R92). -/

namespace Sys2Proof.Machine

/-! ### Lanes -/

/-- The size of a lane's partition in words (R49, Table 1). -/
def laneWords (n : Nat) : Nat := nth [3072, 1536, 2048, 2560, 1024, 2048] n

/-- The first word of a lane's partition in the schedule store. -/
def laneBase (n : Nat) : Nat := nth [0, 3072, 4608, 6656, 9216, 10240] n

/-- T_CYC in ps for a TCYC code. -/
def tcycPs (c : Nat) : Nat := nth [5000000, 10000000, 20000000] c

/-- N_CYC for a TCYC code. -/
def tcycN (c : Nat) : Nat := nth [200, 100, 50] c

/-- Rounds per frame for a TFRAME code. -/
def tframeRounds (c : Nat) : Nat := nth [250, 500, 1000, 2000, 4000] c

/-- A lane's ticks per cycle; N_GUARD on the GUARD lane (R49, R51). -/
def laneTicks (n tcyc : Nat) : Nat :=
  if n = 5 then tcycPs tcyc / 10100 - 3 else tcycPs tcyc / nth [4000, 15625, 12500, 5000, 40000] n

/-- The islands: 0 to 5 those of the lanes, then PORT, RING and CELLAR; the longest clock period in units of 1/3 ps (R8, R512). -/
def islandPeriod (i : Nat) : Nat := nth [12000, 46875, 37500, 15000, 120000, 30300, 62500, 48009, 92940000] i

/-- The handshake bound of R10 in 1/3 ps. -/
def handshake (src dst : Nat) : Nat := 2 * islandPeriod src + 3 * islandPeriod dst

/-- The owner island of a page (R31, Table 3). -/
def pageIsland (pg : Nat) : Nat :=
  if pg = PG_DEV ∨ pg = PG_THERM ∨ pg = PG_FAULT ∨ pg = PG_WDOG then 5
  else if PG_ADC ≤ pg ∧ pg < PG_ADC + 4 then 1
  else if pg = PG_CMP ∨ (PG_BAL ≤ pg ∧ pg < PG_BAL + 16) ∨ (PG_INPATH ≤ pg ∧ pg ≤ PG_SVC) then 0
  else if PG_SLINK ≤ pg ∧ pg < PG_SLINK + 16 then 2
  else if PG_IBC ≤ pg ∧ pg ≤ PG_SEQ then 4
  else if pg = PG_RTC ∨ pg = PG_CELLAR then 8
  else if PG_SPI ≤ pg ∧ pg ≤ PG_PD then 6
  else if pg = PG_RING then 7
  else 3

/-- The owner island of a local address, none where nothing stands (R28, R31). -/
def addrIsland (a : Nat) : Option Nat :=
  if a < 0x40000 then (if pageAssigned (a / 0x400) then some (pageIsland (a / 0x400)) else none)
  else if 0x100000 ≤ a ∧ a < 0x180000 then some 3
  else if 0x180000 ≤ a ∧ a < 0x198000 then
    (let w := (a - 0x180000) / 8
     some (((List.range 6).filter fun n => laneBase n ≤ w).length - 1))
  else if 0x1A0000 ≤ a ∧ a < 0x1C8000 then some 3
  else if 0x200000 ≤ a ∧ a < 0x280000 then some 3
  else if 0x300000 ≤ a ∧ a < 0x302000 then some 8
  else none

/-- Whether a register at an address is marked /L (R41); BALn.VHBCAL stands on BAL0 only (R257). -/
def lockedReg (a : Nat) : Bool :=
  match regInfo a with
  | some r => r.lck && !(decide (PG_BAL < a / 0x400) && decide (a / 0x400 < PG_BAL + 16) && a % 0x400 == 0x078)
  | none => false

/-- The store room and working SRAM. -/
def inStores (a : Nat) : Bool :=
  (decide (0x100000 ≤ a) && decide (a < 0x180000)) || (decide (0x1A0000 ≤ a) && decide (a < 0x1C8000))

/-! ### Slot words -/

/-- The opcode field of a slot word. -/
def wordOpcode (w : Nat) : Nat := bitsOf w 56 8

/-- The tick offset of a slot word. -/
def wordTick (w : Nat) : Nat := bitsOf w 40 16

/-- The opcodes whose slot word an extension word follows (R93). -/
def hasExt (opcode : Nat) : Bool := opcode == 0x13 || opcode == 0x14

/-- The opcode and operands of a slot word and its extension word; none for an undefined opcode (R94, Tables 4 and 5). -/
def decodeSlot (w ext : Nat) : Option SlotOp :=
  let f := fun (hi lo : Nat) => bitsOf w lo (hi - lo + 1)
  match wordOpcode w with
  | 0x00 => some .nop
  | 0x01 => some .tableEnd
  | 0x02 => some (.wait (f 39 24))
  | 0x03 => some (.modejump (f 39 37))
  | 0x04 => some (.rdv (f 39 38) (f 37 32) (f 31 28))
  | 0x10 => some (.trigger (f 39 38) (f 37 36))
  | 0x11 => some (.comp (f 39 34) (f 33 33 == 1))
  | 0x12 => some (.pwmload (f 39 34) (f 33 32) (f 31 31 == 1) (f 23 0))
  | 0x13 => some (.check (4 * f 39 18) (f 17 13) (f 12 8 + 1) (f 7 7 == 1) (f 6 6 == 1) (f 3 0) (bitsOf ext 0 32) (bitsOf ext 32 32))
  | 0x14 => some (.move (4 * f 39 18) (f 17 17 == 1) (bitsOf ext 32 32) (bitsOf ext 0 32))
  | 0x20 => some (.linktx (f 39 35) (f 34 30) (f 29 24))
  | 0x30 => some (.estupd (f 39 36) (f 35 26) (f 25 16 + 1) (f 15 14))
  | 0x31 => some (.rank (f 39 36) (f 35 30))
  | 0x32 => some (.dispatch (f 39 38))
  | 0x33 => some (.select (f 39 36) (f 35 30))
  | _ => none

/-- The opcode code of a slot. -/
def opCode : SlotOp → Nat
  | .nop => 0x00
  | .tableEnd => 0x01
  | .wait _ => 0x02
  | .modejump _ => 0x03
  | .rdv _ _ _ => 0x04
  | .trigger _ _ => 0x10
  | .comp _ _ => 0x11
  | .pwmload _ _ _ _ => 0x12
  | .check _ _ _ _ _ _ _ _ => 0x13
  | .move _ _ _ _ => 0x14
  | .linktx _ _ _ => 0x20
  | .estupd _ _ _ _ => 0x30
  | .rank _ _ => 0x31
  | .dispatch _ => 0x32
  | .select _ _ => 0x33

/-- The operand bits [39:0] that Table 5 defines for an opcode. -/
def operandMask : SlotOp → Nat
  | .nop | .tableEnd => 0
  | .wait _ => 0xFFFF000000
  | .modejump _ => 0xE000000000
  | .rdv role _ _ => if role = 1 then 0xFFF0000000 else 0xFF00000000
  | .trigger _ _ => 0xF000000000
  | .comp _ _ => 0xFE00000000
  | .pwmload _ _ imm _ => if imm then 0xFF80FFFFFF else 0xFF80000000
  | .check _ _ _ _ _ _ _ _ => 0xFFFFFFFFCF
  | .move _ _ _ _ => 0xFFFFFE0000
  | .linktx _ _ _ => 0xFFFF000000
  | .estupd _ _ _ _ => 0xFFFFFFC000
  | .rank _ _ => 0xFFC0000000
  | .dispatch _ => 0xC000000000
  | .select _ _ => 0xFFC0000000

/-- Whether a lane runs an opcode (Table 4). -/
def laneAllows (lane : Nat) : SlotOp → Bool
  | .nop | .tableEnd | .wait _ | .rdv _ _ _ | .check _ _ _ _ _ _ _ _ | .move _ _ _ _ => true
  | .modejump _ | .pwmload _ _ _ _ => lane == 0
  | .trigger _ _ => lane == 1
  | .comp _ _ => lane == 0 || lane == 4
  | .linktx _ _ _ | .select _ _ => lane == 2
  | .estupd _ _ _ _ | .rank _ _ | .dispatch _ => lane == 3

/-- Whether Table 4 marks an opcode untimed. -/
def untimed : SlotOp → Bool
  | .nop | .tableEnd | .wait _ | .rdv _ _ _ => true
  | _ => false

/-- The execution resource of an opcode on its lane, numbered per lane; none for an untimed opcode (Table 4). -/
def slotResource : SlotOp → Option Nat
  | .modejump _ => some 0
  | .check _ _ _ _ _ _ _ _ => some 1
  | .move _ _ _ _ => some 2
  | .comp _ _ => some 3
  | .trigger bank _ => some (4 + bank)
  | .pwmload out _ _ _ => some (16 + out)
  | .linktx target _ _ => some (80 + target)
  | .select string _ => some (80 + string)
  | .estupd _ _ _ _ => some 8
  | .rank _ _ => some 9
  | .dispatch _ => some 10
  | _ => none

/-- Division rounded up. -/
def ceilDiv (a b : Nat) : Nat := (a + b - 1) / b

/-- The lane clocks of a crossing, for a MOVE's floor: T_GUARD_MIN divides on the GUARD lane (R93). -/
def crossClocks (lane src dst : Nat) : Nat := ceilDiv (handshake src dst) (if lane = 5 then 29700 else islandPeriod lane)

/-- The island that a read of an address crosses into: the RTC's TICK and SRC have their read shadows in PORT (R31, R381, R394). -/
def readIsland (a : Nat) : Option Nat :=
  if a = PG_RTC * 0x400 + 0x40 ∨ a = PG_RTC * 0x400 + 0x44 ∨ a = RTC_SRC_FROZEN.addr then some 6 else addrIsland a

/-- The budget floor D_MIN of Table 4 without the accumulation steps of an ESTUPD. -/
def budgetFloor (lane : Nat) : SlotOp → Nat
  | .modejump _ => ceilDiv (2 * islandPeriod lane + 3 * 30300) (islandPeriod lane) + 1
  | .trigger _ _ => 56
  | .comp _ _ => if lane = 0 then 20 else 8
  | .pwmload _ _ _ _ => 4
  | .check _ _ _ _ _ _ _ _ => 3
  | .move dst copy _ data =>
    let d := match addrIsland dst with | some i => if i = lane then 0 else crossClocks lane lane i | none => 0
    let c := if copy then (match readIsland (4 * (data % 2 ^ 22)) with | some i => if i = lane then 0 else crossClocks lane i lane | none => 0) else 0
    2 + d + c
  | .linktx target _ _ => if target = 16 then 160 else 1024
  | .estupd _ _ count _ => 400 + 100 * count
  | .rank _ modules => 200 + 12 * modules
  | .dispatch step => if step = 0 then 600 else 2000
  | .select _ _ => 80000
  | _ => 0

/-- Word `w` of a lane's partition. -/
def State.slotWord (s : State) (lane w : Nat) : Nat := s.load (0x180000 + 8 * (laneBase lane + w)) 8

/-- The budget of a word of the schedule store (R56); an unlisted one is 0. -/
def State.budget (s : State) (w : Nat) : Nat := match s.lamp.budgets.find? (fun p => p.1 == w) with | some p => p.2 | none => 0

/-- The state with a budget written, in rising order of words. -/
def State.setBudget (s : State) (w d : Nat) : State :=
  { s with lamp.budgets := Sparse.put (fun _ => 0) s.lamp.budgets w d }

end Sys2Proof.Machine
end

