-- ==== Sys2Proof/Machine/ImageCheck.lean ====
section
/-! DEFINITION. The load-time checks of an image in an attic bank, in ascending code order (R96, Table 7).  `b` is the address of the
image's first byte. -/

namespace Sys2Proof.Machine

/-! ### Header (R86, Table 1) -/

/-- A header field of `n` bytes. -/
def State.ihd (s : State) (b o n : Nat) : Nat := s.load (b + o) n

/-- The lane section's offset. -/
def State.iOfs (s : State) (b n : Nat) : Nat := s.ihd b (0x34 + 8 * n) 4

/-- The lane section's words. -/
def State.iWords (s : State) (b n : Nat) : Nat := s.ihd b (0x38 + 8 * n) 2

/-- The words of all sections. -/
def State.iTotal (s : State) (b : Nat) : Nat := (List.range 6).foldl (fun (k n : Nat) => k + s.iWords b n) 0

/-- N_CYC of the image. -/
def State.iNcyc (s : State) (b : Nat) : Nat := tcycN (s.ihd b 0x20 1)

/-- Rounds per frame of the image. -/
def State.iRounds (s : State) (b : Nat) : Nat := tframeRounds (s.ihd b 0x21 1)

/-- Ticks per cycle of a lane under the image. -/
def State.iTicks (s : State) (b n : Nat) : Nat := laneTicks n (s.ihd b 0x20 1)

/-- The reserved bytes and bits of the header that are not 0 (0x0014). -/
def State.iReserved (s : State) (b : Nat) : Bool :=
  let z := fun (o n : Nat) => (List.range n).all fun i => s.byte (b + o + i) == 0
  !(z 0x06 2 && z 0x1C 4 && z 0x23 1 && z 0x64 140 && z 0xFC 4 && (List.range 6).all (fun n => z (0x3A + 8 * n) 2)) ||
    s.ihd b 0x13 1 / 4 != 0 || s.ihd b 0x19 1 / 128 != 0 || s.ihd b 0x1B 1 / 16 != 0

/-- Whether the offsets break the order of R86 (0x0021). -/
def State.iOrderBad (s : State) (b : Nat) : Bool :=
  s.ihd b 0x24 4 != 0x100 || s.iOfs b 0 != 0x100 + 8 * s.ihd b 0x28 4 ||
    (List.range 5).any (fun n => s.iOfs b (n + 1) != s.iOfs b n + 8 * s.iWords b n) ||
    s.ihd b 0x2C 4 != s.iOfs b 5 + 8 * s.iWords b 5

/-- Checks 0x0001 to 0x0024; 0 passes.  `hdrInj` and `sigInj` invert checks 0x0003 and 0x0005 (Table 14). -/
def State.checkHeader (s : State) (b : Nat) (hdrInj sigInj : Bool) : Nat :=
  let len := s.ihd b 0x08 4
  let board := s.load 0x270000 8
  let cert := s.ihd b 0x2C 4
  if s.ihd b 0 4 ≠ 0x4D495753 then 0x0001
  else if s.ihd b 4 2 ≠ 1 then 0x0002
  else if hdrInj ∨ crc32 (s.bytes b 0xF8) ≠ s.ihd b 0xF8 4 then 0x0003
  else if len < 0x200 ∨ 0x1FFF0 < len ∨ len % 4 ≠ 0 ∨ len ≠ cert + s.ihd b 0x30 4 + 4 then 0x0004
  else if sigInj ∨ crc32 (s.bytes b (len - 4)) ≠ s.ihd b (len - 4) 4 then 0x0005
  else if s.ihd b 0x10 2 ≠ 0x1640 then 0x0010
  else if s.ihd b 0x12 1 ≠ 0xB1 then 0x0011
  else if !bitOf (s.ihd b 0x13 1) Config.grade then 0x0012
  else if (s.load (b + 0x14) 8 &&& board) ≠ s.load (b + 0x14) 8 then 0x0013
  else if s.iReserved b then 0x0014
  else if 2 < s.ihd b 0x20 1 ∨ 4 < s.ihd b 0x21 1 ∨ s.ihd b 0x22 1 ≠ s.iNcyc b then 0x0020
  else if s.iOrderBad b then 0x0021
  else if 3072 < s.ihd b 0x28 4 then 0x0022
  else if (List.range 6).any (fun n => decide (s.iWords b n < 16) || decide (laneWords n < s.iWords b n)) then 0x0023
  else if s.ihd b 0x30 4 ≠ ceilDiv (256 + 3 * s.iTotal b) 4 * 4 ∨ s.load (b + cert) 4 ≠ 0x54524543 ∨ s.load (b + cert + 4) 4 ≠ s.iTotal b then 0x0024
  else 0

/-! ### Directories and tables (R89) -/

/-- Word `w` of lane `n`'s section. -/
def State.iWord (s : State) (b n w : Nat) : Nat := s.load (b + s.iOfs b n + 8 * w) 8

/-- The budget of word `w` of lane `n`'s section (R91). -/
def State.iBudget (s : State) (b n w : Nat) : Nat :=
  let before := (List.range n).foldl (fun (k m : Nat) => k + s.iWords b m) 0
  s.load (b + s.ihd b 0x2C 4 + 256 + 3 * (before + w)) 3

/-- START and LEN of the table of class `c` and level `v`. -/
def State.iTable (s : State) (b n c v : Nat) : Nat × Nat :=
  let w := s.iWord b n (1 + 3 * c + v)
  (bitsOf w 0 16, bitsOf w 16 16)

/-- C_RND, C_FRM and R_FRM of a lane. -/
def State.iCrnd (s : State) (b n : Nat) : Nat := bitsOf (s.iWord b n 0) 0 8
def State.iCfrm (s : State) (b n : Nat) : Nat := bitsOf (s.iWord b n 0) 16 8
def State.iRfrm (s : State) (b n : Nat) : Nat := bitsOf (s.iWord b n 0) 32 12

/-- Whether the directory of lane `n` is wrong (0x0030). -/
def State.dirBad (s : State) (b n : Nat) : Bool :=
  let w := s.iWord b n 0
  bitsOf w 56 8 != 0xD0 || bitsOf w 48 3 != n || bitsOf w 51 5 != 0 || bitsOf w 44 4 != 0 || bitsOf w 24 8 != 0 || bitsOf w 8 8 != 0 ||
    (List.range 15).any fun k => s.iWord b n (k + 1) / 2 ^ 32 != 0

/-- One slot of a table: its word's index in the section, opcode field, tick, operand bits, decoded form, extension word and budget. -/
structure ImgSlot where
  word : Nat
  code : Nat
  tick : Nat
  bits : Nat
  op : Option SlotOp
  ext : Nat
  budget : Nat
deriving DecidableEq, Repr

/-- The slots of the words from `w` on, `len` words long. -/
def State.slotsFrom (s : State) (b n : Nat) : Nat → Nat → List ImgSlot
  | 0, _ => []
  | len + 1, w =>
    let x := s.iWord b n w
    let e := s.iWord b n (w + 1)
    let slot : ImgSlot := ⟨w, wordOpcode x, wordTick x, bitsOf x 0 40, decodeSlot x e, e, s.iBudget b n w⟩
    if hasExt (wordOpcode x) then slot :: (match len with | 0 => [] | l + 1 => State.slotsFrom s b n l (w + 2))
    else slot :: State.slotsFrom s b n len (w + 1)

/-- A table of an image: lane, class, level and slots. -/
structure ImgTab where
  lane : Nat
  cls : Nat
  level : Nat
  slots : List ImgSlot
deriving DecidableEq, Repr

/-- Every table that is not empty. -/
def State.iTables (s : State) (b : Nat) : List ImgTab :=
  (List.range 6).flatMap fun n => (List.range 5).flatMap fun c => (List.range 3).filterMap fun v =>
    let t := s.iTable b n c v
    if t.2 = 0 then none else some ⟨n, c, v, s.slotsFrom b n t.2 t.1⟩

/-- Whether a table lies outside its section or does not end with its single END (0x0031). -/
def State.tableBad (s : State) (b n c v : Nat) : Bool :=
  let t := s.iTable b n c v
  if t.2 = 0 then false
  else if t.1 < 16 ∨ s.iWords b n < t.1 + t.2 then true
  else
    match (s.slotsFrom b n t.2 t.1).reverse with
    | [] => true
    | last :: rest => last.code != 1 || last.word != t.1 + t.2 - 1 || rest.any (fun x => x.code == 1)

/-- The tables of a lane that are not empty, as START and LEN. -/
def State.spans (s : State) (b n : Nat) : List (Nat × Nat) :=
  ((List.range 5).flatMap fun c => (List.range 3).map fun v => s.iTable b n c v).filter fun t => t.2 != 0

/-- Whether two tables of a lane overlap and differ. -/
def State.overlaps (s : State) (b n : Nat) : Bool :=
  (s.spans b n).any fun x => (s.spans b n).any fun y => x != y && decide (x.1 < y.1 + y.2) && decide (y.1 < x.1 + x.2)

/-- Checks 0x0030 to 0x0033.  A SERVICE-class directory word that is not 0 is refused even where its LEN is 0 (DESIGN CHOICE, log entry 156: R89 says
that these words are always 0, Table 7 names only a table that is not empty). -/
def State.checkDirs (s : State) (b : Nat) : Nat :=
  let lanes := List.range 6
  if lanes.any (fun n => s.dirBad b n) then 0x0030
  else if lanes.any (fun n => (List.range 5).any (fun c => (List.range 3).any fun v => s.tableBad b n c v) || s.overlaps b n) then 0x0031
  else if lanes.any (fun n => (List.range 3).any fun v => s.iWord b n (10 + v) != 0) ∨
      (List.range 4).any (fun n => (List.range 3).any fun v => (s.iTable b n 4 v).2 != 0) then 0x0032
  else if lanes.any (fun n => decide (s.iNcyc b ≤ s.iCrnd b n) || decide (s.iNcyc b ≤ s.iCfrm b n) || decide (s.iRounds b ≤ s.iRfrm b n)) then
    0x0033
  else 0

/-! ### Slots (R92 to R95) -/

/-- Whether the header maps hold the unit of a COMP on a lane. -/
def State.unitOk (s : State) (b lane unit : Nat) : Bool :=
  if unit < 16 then lane == 0 && bitOf (s.ihd b 0x14 2) unit
  else if unit = 16 ∨ unit = 17 then lane == 0 && bitOf (s.ihd b 0x1B 1) (unit - 16)
  else decide (32 ≤ unit) && decide (unit ≤ 38) && lane == 4 && bitOf (s.ihd b 0x19 1) (unit - 32)

/-- Whether the header maps hold a PWM output (R95). -/
def State.outOk (s : State) (b o : Nat) : Bool :=
  if o < 32 then bitOf (s.ihd b 0x14 2) (o / 2)
  else if o = 32 then bitOf (s.ihd b 0x19 1) 0
  else if o = 33 then bitOf (s.ihd b 0x19 1) 0 && bitOf (s.ihd b 0x1B 1) 3
  else if o < 36 then bitOf (s.ihd b 0x1B 1) 0
  else if o < 38 then bitOf (s.ihd b 0x1B 1) 1
  else decide (o < 42) && bitOf (s.ihd b 0x19 1) (o - 37)

/-- Whether a slot's operands are out of range, have reserved bits or name an absent block (0x0042).  The model's choices (DESIGN CHOICE, log
entries 155 and 157): a CHECK whose field reaches beyond bit 31 and a MOVE copy whose source stands nowhere are out of range; the STRING of
ESTUPD and RANK, a MOVE's addresses and a CHECK's do not count as naming a block of the header maps. -/
def State.operandBad (s : State) (b lane : Nat) (x : ImgSlot) : Bool :=
  match x.op with
  | none => false
  | some op =>
    (x.bits &&& operandMask op) != x.bits ||
    (match op with
     | .modejump t => t != 3 && t != 4
     | .rdv role _ _ => decide (1 < role)
     | .comp u _ => !s.unitOk b lane u
     | .pwmload o _ _ _ => !s.outOk b o
     | .check a lsb w _ _ _ _ _ => decide (32 < lsb + w) || addrIsland a != some lane
     | .move _ copy _ data => copy && (decide (2 ^ 22 ≤ data) || (addrIsland (4 * data)).isNone)
     | .linktx t _ node =>
       (if t = 16 then !bitOf (s.ihd b 0x1B 1) 2 else decide (16 < t) || !bitOf (s.ihd b 0x16 2) t) ||
         (decide (40 < node) && decide (node < 0x3F))
     | .estupd _ first count pass => decide (640 < first + count) || decide (1 < pass)
     | .rank _ m => decide (m = 0) || decide (40 < m)
     | .dispatch step => decide (1 < step)
     | .select n m => decide (40 < m) || !bitOf (s.ihd b 0x14 2) n || !bitOf (s.ihd b 0x16 2) n
     | _ => false)

/-- Ticks that do not rise strictly between WAITs (0x0047). -/
def ticksBad : Option Nat → List ImgSlot → Bool
  | _, [] => false
  | prev, x :: t =>
    (match prev with | some p => decide (x.tick ≤ p) | none => false) || ticksBad (if x.code = 2 then none else some x.tick) t

/-- The slots of a table with the cycles their WAITs put them later. -/
def placed : Nat → List ImgSlot → List (ImgSlot × Nat)
  | _, [] => []
  | w, x :: t => (x, w) :: placed (match x.op with | some (.wait n) => w + n | _ => w) t

/-- A slot's place: its cycle counted from the start of the round or frame, its clock on that count, and the period of its table. -/
structure ImgRun where
  lane : Nat
  cls : Nat
  level : Nat
  slot : ImgSlot
  cycle : Nat
  clock : Nat
  period : Nat
deriving DecidableEq, Repr

/-- The places of a table's slots. -/
def State.runsOf (s : State) (b : Nat) (t : ImgTab) : List ImgRun :=
  let k := s.iTicks b t.lane
  let nc := s.iNcyc b
  let base := if t.level = 0 then 0 else if t.level = 1 then s.iCrnd b t.lane else s.iRfrm b t.lane * nc + s.iCfrm b t.lane
  let per := if t.level = 0 then k else if t.level = 1 then nc * k else s.iRounds b * nc * k
  (placed 0 t.slots).map fun p => ⟨t.lane, t.cls, t.level, p.1, base + p.2, (base + p.2) * k + p.1.tick, per⟩

/-- Whether two slots of one lane and class can come due at one tick of one cycle (0x0048). -/
def sameTick (nc : Nat) (x y : ImgRun) : Bool :=
  x.lane == y.lane && x.cls == y.cls && decide (x.level < y.level) && x.slot.tick == y.slot.tick && (x.level == 0 || x.cycle % nc == y.cycle % nc)

/-- The register of a preload entry's address as check 0x0045 judges it. -/
def State.preloadBad (s : State) (b k : Nat) : Bool :=
  let a := s.load (b + 0x100 + 8 * k) 4
  a % 4 == 0 && decide (a < 2 ^ 24) && !lockedReg a

/-- Whether a preload entry's address is malformed (0x0070). -/
def State.preloadForm (s : State) (b k : Nat) : Bool :=
  let a := s.load (b + 0x100 + 8 * k) 4
  a % 4 != 0 || decide (2 ^ 24 ≤ a)

/-- Checks 0x0040 to 0x0048. -/
def State.checkSlots (s : State) (b : Nat) (tabs : List ImgTab) (runs : List ImgRun) : Nat :=
  let any := fun (p : ImgTab → ImgSlot → Bool) => tabs.any fun t => t.slots.any fun x => p t x
  if any (fun _ x => x.op.isNone) then 0x0040
  else if any (fun t x => match x.op with
      | some op => !laneAllows t.lane op || (match op with | .wait _ => t.level == 0 | .modejump _ => decide (1 < t.cls) | _ => false)
      | none => false) then 0x0041
  else if any (fun t x => s.operandBad b t.lane x) then 0x0042
  else if any (fun _ x => x.op == some (.wait 0)) then 0x0043
  else if any (fun t x => match x.op with | some (.modejump g) => g != (if t.cls = 0 then 4 else 3) | _ => false) then 0x0044
  else if any (fun _ x => match x.op with | some (.move dst _ _ _) => !(lockedReg dst || inStores dst) | _ => false) ∨
      (List.range (s.ihd b 0x28 4)).any (fun k => s.preloadBad b k) then 0x0045
  else if any (fun t x => decide (s.iTicks b t.lane ≤ x.tick)) then 0x0046
  else if tabs.any (fun t => ticksBad none t.slots) then 0x0047
  else if runs.any (fun x => runs.any fun y => sameTick (s.iNcyc b) x y) then 0x0048
  else 0

/-! ### Resources and budgets (R57, R92) -/

/-- The accumulation cycle check 0x0050 takes: the last preload entry of EST.ACC, or 0 (R179, R209). -/
def State.iAcc (s : State) (b : Nat) : Nat :=
  let v := (List.range (s.ihd b 0x28 4)).foldl
    (fun (v k : Nat) => if s.load (b + 0x100 + 8 * k) 4 = EST_ACC_CYCLE.addr then s.load (b + 0x104 + 8 * k) 1 else v) 0
  if v < s.iNcyc b then v else 0

/-- Whether two periodic uses of one resource overlap: of the two periods one divides the other. -/
def usesOverlap (o1 d1 p1 o2 d2 p2 : Nat) : Bool :=
  let p := min p1 p2
  let x := (o2 + p - o1 % p) % p
  let y := (o1 + p - o2 % p) % p
  (decide (0 < d1) && decide (0 < d2)) && (decide (x < d1) || decide (y < d2))

/-- Whether a slot's use overlaps its own next one. -/
def ImgRun.selfOverlap (x : ImgRun) : Bool := decide (x.period < x.slot.budget)

/-- The resource a run uses. -/
def ImgRun.res (x : ImgRun) : Option Nat := match x.slot.op with | some op => slotResource op | none => none

/-- Whether two runs use one resource at one time. -/
def runsClash (x y : ImgRun) : Bool :=
  x.lane == y.lane && x.cls == y.cls && x.res.isSome && x.res == y.res && (x.level != y.level || x.slot.word != y.slot.word) &&
    usesOverlap x.clock x.slot.budget x.period y.clock y.slot.budget y.period

/-- Whether a run is an ESTUPD. -/
def ImgRun.estupd (x : ImgRun) : Bool := x.slot.code == 0x30

/-- Whether an ESTUPD stands in ticks 0 to 500 of the accumulation cycle. -/
def accClash (nc acc : Nat) (x : ImgRun) : Bool :=
  x.estupd && decide (x.slot.tick ≤ 500) && (x.level == 0 || x.cycle % nc == acc)

/-- The accumulation steps of a round of `per` clocks, at `a`, that start within `[t, t + d)`. -/
def accSteps (per a t d : Nat) : Nat := ((t + d + per - 1 - a) / per) - ((t + per - 1 - a) / per)

/-- The accumulation steps a run of an ESTUPD can span. -/
def State.spanSteps (s : State) (b acc : Nat) (x : ImgRun) : Nat :=
  let k := s.iTicks b x.lane
  let per := s.iNcyc b * k
  if x.level = 0 then (List.range (s.iNcyc b)).foldl (fun (m c : Nat) => max m (accSteps per (acc * k) (c * k + x.slot.tick) x.slot.budget)) 0
  else accSteps per (acc * k) x.clock x.slot.budget

/-- The floor of a run's budget. -/
def State.runFloor (s : State) (b acc : Nat) (x : ImgRun) : Nat :=
  match x.slot.op with
  | some op => budgetFloor x.lane op + (if x.estupd then 500 * s.spanSteps b acc x else 0)
  | none => 0

/-- Whether a word of a lane's section stands in a table. -/
def State.inTable (s : State) (b n w : Nat) : Bool := (s.spans b n).any fun t => decide (t.1 ≤ w) && decide (w < t.1 + t.2)

/-- The slots that the words of a section in no table spell, from the first word of each run of them on (R92; DEDUCED, log entry 158). -/
def State.looseSlots (s : State) (b n : Nat) : List ImgSlot :=
  let free := fun (w : Nat) => decide (16 ≤ w) && decide (w < s.iWords b n) && !s.inTable b n w
  ((List.range (s.iWords b n)).filter fun w => free w && !free (w - 1)).flatMap fun w =>
    s.slotsFrom b n ((List.range (s.iWords b n - w)).takeWhile fun k => free (w + k)).length w

/-- Whether the slots of a lane's section have a budget that R92 requires to be 0. -/
def State.zeroBad (s : State) (b n : Nat) (l : List ImgSlot) : Bool :=
  l.any fun x => (match x.op with | some op => untimed op && x.budget != 0 | none => false) || (hasExt x.code && s.iBudget b n (x.word + 1) != 0)

/-- Whether a budget that R92 requires to be 0 is not. -/
def State.zeroBudgetBad (s : State) (b : Nat) (tabs : List ImgTab) : Bool :=
  (List.range 6).any (fun n => (List.range 16).any (fun w => s.iBudget b n w != 0) || s.zeroBad b n (s.looseSlots b n)) ||
    tabs.any fun t => s.zeroBad b t.lane t.slots

/-- Whether a timed word in no table has a budget below its floor. -/
def State.looseLow (s : State) (b n : Nat) : Bool :=
  (s.looseSlots b n).any fun x => match x.op with | some op => !untimed op && decide (x.budget < budgetFloor n op) | none => false

/-- Checks 0x0050 to 0x0054. -/
def State.checkBudgets (s : State) (b : Nat) (tabs : List ImgTab) (runs : List ImgRun) : Nat :=
  let acc := s.iAcc b
  if runs.any (fun x => accClash (s.iNcyc b) acc x || (x.res.isSome && x.selfOverlap) || runs.any fun y => runsClash x y) then 0x0050
  else if runs.any (fun x => x.level == 0 && decide (s.iTicks b x.lane < x.slot.tick + x.slot.budget)) then 0x0051
  else if runs.any (fun x => x.level != 0 && x.slot.code == 1 && decide (x.period ≤ x.clock)) then 0x0052
  else if runs.any (fun x => (match x.slot.op with | some op => !untimed op | none => false) && decide (x.slot.budget < s.runFloor b acc x)) ∨
      (List.range 6).any (s.looseLow b) then 0x0053
  else if s.zeroBudgetBad b tabs then 0x0054
  else 0

/-! ### Rendezvous (R60, R61) -/

/-- One RDV slot: lane, class, tick, the cycle it stands in and after how many cycles it comes again, role, point, N_DEP and the slots left before
END. -/
structure ImgRdv where
  lane : Nat
  cls : Nat
  tick : Nat
  cycle : Nat
  period : Nat
  role : Nat
  point : Nat
  ndep : Nat
  left : Nat
deriving DecidableEq, Repr

/-- The RDV slots of a table's slots, from the cycle it starts in. -/
def rdvSlots (lane cls base period : Nat) : List (ImgSlot × Nat) → List ImgRdv
  | [] => []
  | x :: t =>
    match x.1.op with
    | some (.rdv role point ndep) => ⟨lane, cls, x.1.tick, base + x.2, period, role, point, ndep, t.length - 1⟩ :: rdvSlots lane cls base period t
    | _ => rdvSlots lane cls base period t

/-- The RDV slots of a table. -/
def State.rdvsOf (s : State) (b : Nat) (t : ImgTab) : List ImgRdv :=
  let nc := s.iNcyc b
  if t.level = 0 then rdvSlots t.lane t.cls 0 1 (placed 0 t.slots)
  else if t.level = 1 then rdvSlots t.lane t.cls (s.iCrnd b t.lane) nc (placed 0 t.slots)
  else rdvSlots t.lane t.cls (s.iRfrm b t.lane * nc + s.iCfrm b t.lane) (s.iRounds b * nc) (placed 0 t.slots)

/-- Whether two RDV slots can fall in one cycle: of their periods one divides the other. -/
def rdvMeet (x y : ImgRdv) : Bool := x.cycle % min x.period y.period == y.cycle % min x.period y.period

/-- The latest time of a give's tick and the earliest of a take's, in 1/3 ps (R50, R51). -/
def giveTime (lane tick : Nat) : Nat := if lane = 5 then (tick + 3) * 30300 else tick * islandPeriod lane
def takeTime (lane tick : Nat) : Nat := if lane = 5 then tick * 29700 else tick * islandPeriod lane

/-- Whether a take can test before the token of a give in its cycle is visible (R60, R61). -/
def rdvEarly (g t : ImgRdv) : Bool :=
  g.role == 0 && t.role == 1 && g.point == t.point && g.cls == t.cls && rdvMeet g t &&
    decide (takeTime t.lane t.tick < giveTime g.lane g.tick + 3 * islandPeriod g.lane + 3 * islandPeriod t.lane)

/-- Checks 0x0060 to 0x0062.  Guarded slots of which the last is END itself count as running past END (DESIGN CHOICE, log entry 113). -/
def State.checkRdv (s : State) (b : Nat) (tabs : List ImgTab) : Nat :=
  let all := tabs.flatMap (s.rdvsOf b)
  if all.any (fun x => all.any fun y => x.point == y.point && ((x.role == y.role && x.lane != y.lane) || (x.role != y.role && x.lane == y.lane))) then
    0x0060
  else if all.any (fun g => all.any fun t => rdvEarly g t) then 0x0061
  else if all.any (fun t => t.role == 1 && (decide (t.left < t.ndep) || !all.any (fun g => g.role == 0 && g.point == t.point && g.cls == t.cls))) then
    0x0062
  else 0

/-! ### Certificate (R91) -/

/-- Busy clocks of a periodic use, from the start of time to clock `x`. -/
def busyUpTo (o d p : Nat) (x : Int) : Int := (x - o).fdiv p * d + min (d : Int) ((x - o).fmod p)

/-- Busy clocks of a run in cycle `c`, of `k` ticks. -/
def ImgRun.busyIn (x : ImgRun) (k c : Nat) : Nat :=
  (busyUpTo x.clock x.slot.budget x.period (((c + 1) * k : Nat) : Int) - busyUpTo x.clock x.slot.budget x.period ((c * k : Nat) : Int)).toNat

/-- B of a lane and class: over the cycles of a round, and over those in which a frame-table use begins, ends or lies whole. -/
def State.busyMost (s : State) (b lane : Nat) (runs : List ImgRun) : Nat :=
  let k := s.iTicks b lane
  let nc := s.iNcyc b
  let whole := s.iRounds b * nc
  let ress := runs.filterMap ImgRun.res
  let frames := runs.filter fun x => x.level == 2
  let at2 := frames.flatMap fun x => [x.cycle % whole, (x.cycle + 1) % whole, ((x.clock + x.slot.budget) / k) % whole]
  ress.foldl (fun (m r : Nat) =>
    let mine := runs.filter fun x => x.res == some r
    let rounds := (List.range nc).foldl
      (fun (m c : Nat) => max m ((mine.filter fun x => x.level != 2).foldl (fun (t : Nat) (x : ImgRun) => t + x.busyIn k c) 0)) m
    at2.foldl (fun (m c : Nat) => max m (mine.foldl (fun (t : Nat) (x : ImgRun) => t + x.busyIn k c) 0)) rounds) 0

/-- U and LAST of a lane and class. -/
def State.certOf (s : State) (b lane cls : Nat) (runs : List ImgRun) : Nat × Nat :=
  let mine := runs.filter fun x => x.lane == lane && x.cls == cls
  (min 65535 (65536 * s.busyMost b lane mine / s.iTicks b lane),
   (mine.filter fun x => x.level == 0).foldl (fun (m : Nat) (x : ImgRun) => max m (x.slot.tick + x.slot.budget)) 0)

/-- Check 0x0080. -/
def State.certBad (s : State) (b : Nat) (runs : List ImgRun) : Bool :=
  (List.range 6).any fun n => (List.range 5).any fun c =>
    let u := s.certOf b n c runs
    s.load (b + s.ihd b 0x2C 4 + 0x10 + 20 * n + 4 * c) 4 != u.1 + 65536 * u.2

/-! ### The whole check (R96) -/

/-- The code of the first failure after the header's checks, 0 when the image passes. -/
def State.checkBody (s : State) (b : Nat) : Nat :=
  let d := s.checkDirs b
  if d ≠ 0 then d
  else
    let tabs := s.iTables b
    let runs := tabs.flatMap fun t => s.runsOf b t
    let x := s.checkSlots b tabs runs
    if x ≠ 0 then x
    else
      let y := s.checkBudgets b tabs runs
      if y ≠ 0 then y
      else
        let z := s.checkRdv b tabs
        if z ≠ 0 then z
        else if (List.range (s.ihd b 0x28 4)).any (fun k => s.preloadForm b k) then 0x0070
        else if s.certBad b runs then 0x0080
        else 0

/-- The code of the first failure of the image at `b`, 0 when it passes; checkers 1 and 2 of the IMAGE page invert checks 0x0003 and
0x0005 when these are reached (Table 14).  A check whose attic read fails sets ERR.READ (`readBad`) and fails its signature. -/
def State.checkImage (s : State) (b : Nat) (readBad : Bool) : Nat × State :=
  let hi := s.injOn PG_IMAGE 1
  let si := s.injOn PG_IMAGE 2
  let h := s.checkHeader b hi (si || readBad)
  let s1 := if h = 1 ∨ h = 2 then s else s.injTake PG_IMAGE 1
  let s2 := if h = 0 ∨ 4 < h then s1.injTake PG_IMAGE 2 else s1
  let s3 : State := if readBad then s2.err PG_IMAGE IMAGE_ERR_READ else s2
  (if h ≠ 0 then h else s.checkBody b, s3)

end Sys2Proof.Machine
end

