-- ==== Sys2Proof/Machine/Approx.lean ====
section
/-! DEFINITION. The functions that the spec gives to an accuracy: sine and cosine, the square roots, the arctangents and the logarithm of
R220, R222, R238, R247, R248 and R346.  Each is computed here in fixed point with 60 fraction bits, to better than 2^-50, and what the
spec leaves open, which integer within the stated accuracy the device gives, is a free value (log entries 11 to 13 and 15). -/

namespace Sys2Proof.Machine

/-- One in fixed point. -/
def fixOne : Int := 2 ^ 60

/-- The error allowed to a fixed-point result. -/
def fixErr : Int := 2 ^ 10

/-- π in fixed point. -/
def fixPi : Int := 3622009729038561421

/-- ln 2 in fixed point. -/
def fixLn2 : Int := 799144290325165979

/-- The sum of the series whose term k + 1 is term k times `ratio k`, a number of fixed point divided by a natural one, over n terms. -/
def series (ratio : Nat → Int × Nat) (t : Int) (n : Nat) : Int :=
  ((List.range n).foldl (fun (p : Int × Int) (k : Nat) => (p.1 + p.2, p.2 * (ratio k).1 / fixOne / ((ratio k).2 : Int))) (0, t)).1

/-- sin x for 0 ≤ x ≤ π / 2. -/
def sinSeries (x : Int) : Int := series (fun k => (-(x * x / fixOne), (2 * k + 2) * (2 * k + 3))) x 14

/-- cos x for 0 ≤ x ≤ π / 2. -/
def cosSeries (x : Int) : Int := series (fun k => (-(x * x / fixOne), (2 * k + 1) * (2 * k + 2))) fixOne 15

/-- The sine of `num / den` of a turn. -/
def sinTurn (num : Int) (den : Nat) : Int :=
  let m := num % (den : Int) * 4
  let x := fixPi * (m % (den : Int)) / (2 * (den : Int))
  match m / (den : Int) with
  | 0 => sinSeries x
  | 1 => cosSeries x
  | 2 => -sinSeries x
  | _ => -cosSeries x

/-- The cosine of `num / den` of a turn. -/
def cosTurn (num : Int) (den : Nat) : Int := sinTurn (4 * num + (den : Int)) (4 * den)

/-- The greatest whole number whose square is at most n. -/
def isqrt (n : Nat) : Nat :=
  (List.range (Nat.log2 n / 2 + 1)).foldl
    (fun r k => let b := 2 ^ (Nat.log2 n / 2 - k); if (r + b) * (r + b) ≤ n then r + b else r) 0

/-- √(num / den) in fixed point. -/
def sqrtFix (num den : Nat) : Int := isqrt (num * 2 ^ 120 / den)

/-- The angle of the point (x, y), in 2^-40 of a turn, from -2^39 to 2^39. -/
def angle40 (x y : Int) : Int :=
  let a := (x.natAbs : Int)
  let b := (y.natAbs : Int)
  let t : Nat := (List.range 39).foldl
    (fun (r : Nat) (k : Nat) =>
      let q := r + 2 ^ (38 - k)
      if sinTurn q (2 ^ 40) * a ≤ cosTurn q (2 ^ 40) * b ∧ q ≤ 2 ^ 38 then q else r) 0
  let u : Int := if x < 0 then 2 ^ 39 - (t : Int) else t
  if y < 0 then -u else u

/-- ln (num / den) in fixed point, num and den positive. -/
def lnFix (num den : Nat) : Int :=
  let e : Int := (Nat.log2 num : Int) - (Nat.log2 den : Int)
  let n : Int := if e < 0 then (num : Int) * 2 ^ (-e).toNat else num
  let d : Int := if e < 0 then den else (den : Int) * 2 ^ e.toNat
  let z := (n - d) * fixOne / (n + d)
  let s := (List.range 24).foldl
    (fun (p : Int × Int) (k : Nat) => (p.1 + p.2 / ((2 * k + 1 : Nat) : Int), p.2 * (z * z / fixOne) / fixOne)) ((0, z) : Int × Int)
  2 * s.1 + e * fixLn2

/-- A whole number between the fixed-point bounds lo and hi, the free value `k` choosing which; where none lies between them, the least
above lo. -/
def between (lo hi : Int) (k : Nat) : Int :=
  let a := -((-(lo - fixErr)) / fixOne)
  let b := (hi + fixErr) / fixOne
  a + ((k : Int) % (max 1 (b - a + 1)))

/-- A whole number within one unit of the fixed-point number x. -/
def withinOne (x : Int) (k : Nat) : Int := between (x - fixOne) (x + fixOne) k

/-- sin_q15 of a 32-bit phase: Q15, within one unit of 32,768 times the sine (R220, R247; log entry 11). -/
def sinQ15 (th : Nat) : Int := clampI (-32768) 32767 (withinOne (32768 * sinTurn th (2 ^ 32)) (Config.sinPick th))

/-- cos_q15 of a 32-bit phase (R220; log entry 11). -/
def cosQ15 (th : Nat) : Int := clampI (-32768) 32767 (withinOne (32768 * cosTurn th (2 ^ 32)) (Config.cosPick th))

/-- An angle in 0.01 ° from -18,000 to 18,000. -/
def wrapAngle (a : Int) : Int := (a + 18000) % 36000 - 18000

/-- atan2 in 0.01 °, within 0.01 ° (R220): the angle of the point (x, y). At the point (0, 0) it is any angle. -/
def angleCdeg (x y : Int) (k : Nat) : Int :=
  if x = 0 ∧ y = 0 then (k % 36001 : Nat) - 18000 else withinOne (angle40 x y * 36000 * 2 ^ 20) k

/-- z_mag of R220 in µΩ from the numerators of x and y over one denominator in 100 µV, and the overlay amplitude in mA, within one µΩ,
2^-16 of full scale.  With no amplitude or no denominator it is any value (log entry 12). -/
def zMag (x y den : Int) (aI : Nat) : Nat :=
  let d := den.natAbs * aI
  if d = 0 then Config.zMagPick x y den aI
  else (withinOne (sqrtFix ((x.natAbs ^ 2 + y.natAbs ^ 2) * 100000 ^ 2) (d ^ 2)) (Config.zMagPick x y den aI)).toNat

/-- z_ph of R220 in 0.01 °: atan2(x, y) - ph_i, with x the cosine part and y the sine part (log entry 12). -/
def zPhase (x y phI : Int) : Int := wrapAngle (angleCdeg y x (Config.zPhasePick x y phI) - phI)

/-- round(z_mag × cos z_ph) of R222 (log entry 12). -/
def zOhm (zm : Nat) (zp : Int) : Nat :=
  let x := (zm : Int) * cosTurn zp 36000
  (between (x - fixOne / 2) (x + fixOne / 2) (Config.zOhmPick zm zp)).toNat

/-- W = Z - R_OHM of R222 in µΩ, its two parts in fixed point. -/
def zRest (zm : Nat) (zp : Int) (rOhm : Nat) : Int × Int :=
  ((zm : Int) * cosTurn zp 36000 - rOhm * fixOne, (zm : Int) * sinTurn zp 36000)

/-- θ = -arg W of R222 in 0.01 °, within 0.01 ° (log entry 12). -/
def zTheta (zm : Nat) (zp : Int) (rOhm : Nat) : Int :=
  -(angleCdeg (zRest zm zp rOhm).1 (zRest zm zp rOhm).2 (Config.zThetaPick zm zp rOhm))

/-- TAU_POL_meas of R222 in 10 ms for a θ from 15 ° to 75 ° and a frequency in 0.1 Hz: round(tan θ / (2π F) / 10 ms), θ within 0.01 ° of the
exact angle (log entry 12). -/
def zTau (zm : Nat) (zp : Int) (rOhm f : Nat) : Nat :=
  let th := zTheta zm zp rOhm
  let tau := fun (a : Int) => sinTurn a 36000 * 1000 * fixOne / (cosTurn a 36000 * 2) * fixOne / (fixPi * (atLeast1 f : Nat))
  (between (tau (th - 1) - fixOne / 2) (tau (th + 1) + fixOne / 2) (Config.zTauPick zm zp rOhm f)).toNat

/-- R_POL_meas of R222 in µΩ for a θ from 15 ° to 75 °: round(|W| / cos θ), |W| within one µΩ (log entry 12). -/
def zPol (zm : Nat) (zp : Int) (rOhm : Nat) : Nat :=
  let w := zRest zm zp rOhm
  let th := zTheta zm zp rOhm
  let m : Int := isqrt (w.1.natAbs ^ 2 + w.2.natAbs ^ 2)
  (between ((m - fixOne) * fixOne / cosTurn (th - 1) 36000 - fixOne / 2) ((m + fixOne) * fixOne / cosTurn (th + 1) 36000 + fixOne / 2)
    (Config.zPolPick zm zp rOhm)).toNat

/-- φ_FF of R238 from the product i_ref × v_hb in 10 µW, K_DAB in S / 4,096, and v_mod and v_hb in 10 mV: the square root is accurate to
2^-16, so that φ_FF lies within a quarter of the exact φ before it is rounded (log entry 13). -/
def dabPhase (p : Int) (k vmod vhb : Nat) : Int :=
  let d := 10 * k * vmod * vhb
  let n := min d (4 * p.natAbs * 4096)
  let x := 16384 * (fixOne - sqrtFix (d - n) d)
  let v := between (x - 3 * fixOne / 4) (x + 3 * fixOne / 4) (Config.dabPick p k vmod vhb)
  if p < 0 then -v else if p = 0 then 0 else v

/-- The overlay amplitude A_I of R248 in mA from the correlation sums over m periods, within one mA (log entry 12). -/
def overlayAmp (c s : Int) (m : Nat) : Nat :=
  if m = 0 then 0 else (withinOne (sqrtFix (4 * (c.natAbs ^ 2 + s.natAbs ^ 2)) ((32768 * m) ^ 2)) (Config.overlayAmpPick c s m)).toNat

/-- The overlay phase PH_I of R248 in 0.01 °, within 0.01 ° (log entry 12). -/
def overlayPhase (c s : Int) : Int := angleCdeg s c (Config.overlayPhasePick c s)

/-- The temperature of an NTC in 1/16 °C from its code, R_PU, R0 and BETA, within 1/16 °C (R346, Table 2; log entry 15).  With R_PU, R0 or
BETA 0, or a temperature that the formula does not give, it is any value. -/
def ntcTemp (code rPu r0 beta : Nat) : Int :=
  let k := Config.ntcPick code rPu r0 beta
  let n := rPu * code
  let d := (4096 - code) * r0
  let q := 100 * (beta : Int) * fixOne + 29815 * lnFix n d
  if n = 0 ∨ d = 0 ∨ beta = 0 ∨ q ≤ 0 then (k % 65536 : Nat) - 32768
  else withinOne (16 * (29815 * (beta : Int) * fixOne * fixOne / q) - 16 * 27315 * fixOne / 100) k

end Sys2Proof.Machine
end

