-- ==== Sys2Proof/Machine/Cmp.lean ====
section
/-! DEFINITION. Trip comparators and window monitors (chapter 06). -/

namespace Sys2Proof.Machine

/-- The register of comparator `k`'s configuration. -/
def tcfg (f : Fld) (k : Nat) : Fld := f.el k

/-- The comparators whose output goes only to diode emulation (R130). -/
def zeroCurrent (k : Nat) : Bool := k == 18 || k == 19 || k == 22

/-- Whether LOOP is clocked, so that trip comparators are powered: none is in HIBERNATE, CELLAR and RISE before the PLL locks (R133, R21). -/
def State.loopOn (s : State) : Bool := s.dev.pll && s.mode != .hibernate && s.mode != .cellar

/-- Bit `k` of CMP.TSTATE. -/
def cmpTState (k : Nat) : Fld := ⟨PG_CMP, 0x0C0, 0, k, 1⟩

/-- Bit `k` of CMP.HOLD. -/
def cmpHold (k : Nat) : Fld := ⟨PG_CMP, 0x0C4, 0, k, 1⟩

/-- Bit `k` of the level behind CMP.STATUS. -/
def cmpRaw (k : Nat) : Fld := ⟨PG_CMP, hdrRAW, 0, k, 1⟩

/-- The steps of 62.5 nV of a threshold: CODE × 2.34375 mV of a unipolar input, (CODE − 512) × 2.34375 mV of a bipolar one, CODE × 1.171875 mV
with ABS (R128, Table 1). -/
def thresholdStep (bipolar abs : Bool) (code : Nat) : Int :=
  if bipolar && abs then (code : Int) * 18750 else if bipolar then ((code : Int) - 512) * 37500 else (code : Int) * 37500

/-- A hysteresis code in the same steps: 0, 5, 10 or 20 mV. -/
def hystStep (code : Nat) : Int := nth [0, 80000, 160000, 320000] (code % 4)

/-- Whether the input of comparator `k` is bipolar: the currents but for the feeds' (R130; Tables 2 and 3 of sampling). -/
def cmpBipolar (k : Nat) : Bool := decide (k < 23)

/-- The input of comparator `k` at `uv` microvolts, as it is compared, in steps of 62.5 nV (R128). -/
def State.cmpInput (s : State) (k : Nat) (uv : Int) : Int :=
  if cmpBipolar k && s.on (tcfg CMP_TCFG_ABS k) then (uv.natAbs : Int) * 16 else uv * 16

/-- The threshold of comparator `k` (R128). -/
def State.cmpThreshold (s : State) (k : Nat) : Int :=
  thresholdStep (cmpBipolar k) (s.on (tcfg CMP_TCFG_ABS k)) (s.get (tcfg CMP_TCFG_THR k))

/-- Whether comparator `k` trips with its input at `uv` microvolts: above the threshold with DIR = 1, below it with DIR = 0 (R131). -/
def State.cmpBeyond (s : State) (k : Nat) (uv : Int) : Bool :=
  if s.on (tcfg CMP_TCFG_DIR k) then decide (s.cmpThreshold k < s.cmpInput k uv) else decide (s.cmpInput k uv < s.cmpThreshold k)

/-- Whether a tripped comparator `k` releases: the input has returned to the threshold less the hysteresis (R128, R131). -/
def State.cmpReturned (s : State) (k : Nat) (uv : Int) : Bool :=
  let h := hystStep (s.get (tcfg CMP_TCFG_HYST k))
  if s.on (tcfg CMP_TCFG_DIR k) then decide (s.cmpInput k uv ≤ s.cmpThreshold k - h) else decide (s.cmpThreshold k + h ≤ s.cmpInput k uv)

/-- Whether bit `i` of BEDGE names an edge of comparator `k` (R130, Table 2). -/
def cmpHasEdge (k i : Nat) : Bool := if k = 23 then false else if k = 22 ∨ 24 ≤ k then i == 0 else true

/-- Whether a window of comparator `k` is open `e` steps of 2 ns after the latest edge of kind `i`, if there was one (R132). -/
def State.cmpWindow (s : State) (k i : Nat) (e : Option Nat) : Bool :=
  match e with
  | some n => cmpHasEdge k i && bitOf (s.get (tcfg CMP_TCFG_BEDGE k)) i && decide (n < min 125 (s.get (tcfg CMP_TCFG_BLANK k)))
  | none => false

/-- Whether comparator `k` is tripped outside blanking (R131). -/
def State.cmpActing (s : State) (k : Nat) : Bool := s.on (cmpTState k) && !bitOf s.cmp.blanked k

/-- What of TRIP, LATCH, KILL and ERRL is to act on comparator `k`'s targets does, for those of the fields in `cfg` (R131, Table 3). -/
def State.cmpDrive (s : State) (k : Nat) (trip latch kill errl : Bool) : State :=
  if zeroCurrent k then s
  else
    let s2 : State := if trip || kill then { s with cmp.idle := putBit s.cmp.idle k true } else s
    let s3 := if (trip && latch) || kill then s2.put (cmpHold k) 1 else s2
    if errl then s3.err PG_CMP CMP_ERR_TRIP else s3

/-- A comparator acts outside blanking: STATUS, and TRIP, LATCH, KILL and ERRL as its configuration selects (R131, Table 3). -/
def State.cmpAct (s : State) (k : Nat) : State :=
  let s1 : State := { s.level PG_CMP k true with cmp.acted := putBit s.cmp.acted k true }
  s1.cmpDrive k (s1.on (tcfg CMP_TCFG_TRIP k)) (s1.on (tcfg CMP_TCFG_LATCH k)) (s1.on (tcfg CMP_TCFG_KILL k)) (s1.on (tcfg CMP_TCFG_ERRL k))

/-- The input of a comparator stands at `uv` microvolts, `e0` and `e1` steps of 2 ns after the latest edges of its two kinds: it trips when it
is beyond the threshold, without effect inside a blanking window; one tripped already goes without effect while a new window is open (R131,
R132). -/
def State.cmpTrip (s : State) (k : Nat) (uv : Int) (e0 e1 : Option Nat) : State :=
  if !s.loopOn || !s.on (tcfg CMP_TCFG_EN k) then s
  else
    let open1 := s.cmpWindow k 0 e0 || s.cmpWindow k 1 e1
    if s.on (cmpTState k) then
      (if open1 && !bitOf s.cmp.blanked k then { s.level PG_CMP k false with cmp.blanked := putBit s.cmp.blanked k true } else s)
    else if !s.cmpBeyond k uv then s
    else
      let s1 := s.put (cmpTState k) 1
      if open1 then { s1 with cmp.blanked := putBit s1.cmp.blanked k true } else s1.cmpAct k

/-- Comparator `k` is no longer tripped: PWM targets without a hold resume at their period boundary, a feed's gate, which has none, at once
(R131; DESIGN CHOICE for the gate, log entry 172). -/
def State.cmpClear (s : State) (k : Nat) : State :=
  let s1 : State := { (s.put (cmpTState k) 0).level PG_CMP k false with cmp.blanked := putBit s.cmp.blanked k false }
  if 24 ≤ k then { s1 with cmp.idle := putBit s1.cmp.idle k false } else s1

/-- The input is back at `uv` microvolts: a tripped comparator releases at its threshold less the hysteresis (R128, R131). -/
def State.cmpRelease (s : State) (k : Nat) (uv : Int) : State :=
  if s.on (cmpTState k) && s.cmpReturned k uv then s.cmpClear k else s

/-- A blanking window closes: a comparator still tripped acts at that instant (R132). -/
def State.cmpBlankEnd (s : State) (k : Nat) : State :=
  if bitOf s.cmp.blanked k then ({ s with cmp.blanked := putBit s.cmp.blanked k false }).cmpAct k else s

/-- TCFGk has been written over `old`: EN = 0 takes the comparator's power (R133); on one that is tripped outside blanking the fields newly
set act (R131). -/
def State.tcfgWritten (s : State) (k old : Nat) : State :=
  if !s.on (tcfg CMP_TCFG_EN k) then s.cmpClear k
  else if s.cmpActing k then
    let new := fun (f : Fld) => s.on (tcfg f k) && !bitOf old f.lo
    let latched := s.on (tcfg CMP_TCFG_TRIP k) && new CMP_TCFG_LATCH
    s.cmpDrive k (new CMP_TCFG_TRIP || latched) (s.on (tcfg CMP_TCFG_LATCH k)) (new CMP_TCFG_KILL) (new CMP_TCFG_ERRL)
  else s

/-- The trip comparators lose their power (R133). -/
def State.cmpStops (s : State) : State := (List.range 32).foldl (fun (t : State) (k : Nat) => t.cmpClear k) s

/-- A write of HOLD: each written bit releases its hold unless the comparator is still tripped, which counts a collision.  PWM targets stay
idle until their next period boundary (R134, Table 5). -/
def State.holdWrite (s : State) (v : Nat) : State :=
  (List.range 32).foldl
    (fun t k =>
      if !bitOf v k || !t.on (cmpHold k) then t
      else if t.on (cmpTState k) then
        t.wr (hdrAddr PG_CMP hdrCOLLIDE) (BitVec.ofNat 32 (min 255 (t.hdr PG_CMP hdrCOLLIDE % 256 + 1)))
      else { (t.put (cmpHold k) 0) with cmp.idle := putBit t.cmp.idle k (decide (k < 24)) }) s

/-- Whether comparator `k` keeps its targets at their idle level now: a TRIP that acts, or a hold (R131, R134). -/
def State.targetIdle (s : State) (k : Nat) : Bool := bitOf s.cmp.idle k || s.on (cmpHold k)

/-- Whether comparator `k` forces its targets at the pad (KILL, R131). -/
def State.killed (s : State) (k : Nat) : Bool := s.on (cmpHold k) && s.on (tcfg CMP_TCFG_KILL k)

/-- A period boundary of a comparator's target: whether the trip acted in the period, and the target resumes unless the
comparator is still tripped or holds (R131, R249). -/
def State.cmpBoundary (s : State) (k : Nat) : Bool × State :=
  (bitOf s.cmp.acted k,
   { s with cmp.acted := putBit s.cmp.acted k (s.on (cmpTState k) && bitOf s.cmp.idle k),
            cmp.idle := putBit s.cmp.idle k (bitOf s.cmp.idle k && s.on (cmpTState k)) })

/-! ### Window monitors -/

/-- The monitors that sample continuously now (R137, Table 6). -/
def State.monContinuous (s : State) (n : Nat) : Bool :=
  s.on (CMP_WCFG_EN.el n) && s.get (CMP_WCFG_MODE.el n) == 0 &&
    (match s.mode with | .run | .ride | .safe | .service => true | _ => false)

/-- The monitors that sample at the tick now (R137, Table 6). -/
def State.monSampled (s : State) (n : Nat) : Bool :=
  s.on (CMP_WCFG_EN.el n) &&
    (match s.mode with
     | .run | .ride | .safe | .service => s.get (CMP_WCFG_MODE.el n) == 1
     | .hibernate => true
     | _ => false)

/-- The sampled tick expires: the monitors in sampled operation are powered for t_WIN (R137, R138). -/
def State.windowTick (s : State) : State :=
  { s with cmp.due := (List.range 16).foldl (fun m n => if s.monSampled n then m + 2 ^ n else m) 0 }

/-- K and M of a monitor's filter (R136). -/
def monKM (filt : Bool) : Nat × Nat := if filt then (5, 9) else (3, 5)

/-- The filtered state of monitor `n` changes to `st` (R139, Table 7).  The Bool asks for a wake. -/
def State.monChange (s : State) (n st : Nat) : Bool × State :=
  let s0 : State := if st != 0 then { s with est.quiet := putBit s.est.quiet n false } else s
  let s1 := (s0.put (CMP_WSTATE_S.sh (2 * n)) st).put (⟨PG_CMP, 0x188, 0, n, 1⟩) 1
  let s2 :=
    if s1.on (CMP_WCFG_CAPT.el n) then
      let s' := if s1.on (CMP_WCAP_HI_VALID.el n) then s1.put (⟨PG_CMP, 0x188, 0, 16 + n, 1⟩) 1 else s1
      (s'.wr (PG_CMP * 0x400 + 0x1C0 + 8 * n) (BitVec.ofNat 32 s'.cellar.count)).wr (PG_CMP * 0x400 + 0x1C4 + 8 * n)
        (BitVec.ofNat 32 (0x80000000 + st * 0x10000 + s'.cellar.count / 2 ^ 32 % 2 ^ 16))
    else s1
  let s3 :=
    if s2.on (CMP_WCFG_EVT.el n) then
      s2.fire { src := 0x040 + n, cls := 7, merged := false, shelfB := s2.on (CMP_WCFG_SHELF.el n), stamp := s2.stamp,
                lo := st * 0x10000 + n, hi := 0 }
    else s2
  let s4 := if st != 0 && s3.on (CMP_WCFG_ERRL.el n) then s3.err PG_CMP CMP_ERR_WMON else s3
  (st != 0 && s4.on (CMP_WCFG_WAKE.el n) && s4.mode == .hibernate, s4)

/-- Whether monitor `n` watches a string's current sensor: SEL 0, and 9 to 15, which act as 0 (R135). -/
def State.monString (s : State) (n : Nat) : Bool := s.get (CMP_WCFG_SEL.el n) == 0 || decide (9 ≤ s.get (CMP_WCFG_SEL.el n))

/-- A threshold of monitor `n` in steps of 62.5 nV: the string sensors are bipolar, the AUX inputs unipolar (R135). -/
def State.monStep (s : State) (n code : Nat) : Int := thresholdStep (s.monString n) false code

/-- What monitor `n`'s comparators say of an input at `uv` microvolts after they last said `last`: 1 BELOW, 2 ABOVE, 0 INSIDE, with the
hysteresis on the return (R128, R135; that it holds from one sample to the next is DEDUCED, log entry 173). -/
def State.monSide (s : State) (n last : Nat) (uv : Int) : Nat :=
  let v := uv * 16
  let lo := s.monStep n (s.get (CMP_WTHR_LO.el n))
  let hi := s.monStep n (s.get (CMP_WTHR_HI.el n))
  let h := hystStep (s.get (CMP_WCFG_HYST.el n))
  if v < lo then 1 else if hi < v then 2
  else if last = 1 ∧ v < lo + h then 1
  else if last = 2 ∧ hi - h < v then 2
  else 0

/-- The samples of monitor `n` that an injection still judges not INSIDE: one is taken off, and ERR_INJ.COUNT shows the most that a monitor
has left (R140, R372; DEDUCED, log entry 174). -/
def State.monInjTake (s : State) (n : Fin 16) : State :=
  let s1 : State := { s with cmp.mons := s.cmp.mons.set n { s.cmp.mons[n] with inj := s.cmp.mons[n].inj - 1 } }
  let most := s1.cmp.mons.toList.foldl (fun (m : Nat) (x : WinMon) => max m x.inj) 0
  s1.wr (hdrAddr PG_CMP hdrERR_INJ) (BitVec.ofNat 32 (s1.hdr PG_CMP hdrERR_INJ / 16 * 16 + most))

/-- ERR_INJ of CMP has been written: checker 1 counts for each enabled monitor (R140). -/
def State.cmpInject (s : State) : State :=
  let c := if s.injOn PG_CMP 1 then bitsOf (s.hdr PG_CMP hdrERR_INJ) 0 4 else 0
  { s with cmp.mons := Vector.ofFn fun n : Fin 16 => { s.cmp.mons[n] with inj := if s.on (CMP_WCFG_EN.el n) then c else 0 } }

/-- The filtered state of a monitor after a sample, from the state before: K of the last M samples decide; OUTSIDE reports the side of the
latest sample that was not INSIDE (R136). -/
def monFilter (old k : Nat) (m : WinMon) : Nat :=
  if k ≤ (m.hist.filter (!·)).length then m.side
  else if k ≤ (m.hist.filter id).length then 0
  else if old ≠ 0 ∧ m.side ≠ 0 then m.side
  else old

/-- Monitor `n` takes a sample of its input at `uv` microvolts: BELOW, INSIDE or ABOVE, then the K of M filter
(R135, R136).  The side of an injected sample is free (log entry 7).  The Bool asks for a wake. -/
def State.windowSample (s : State) (n : Fin 16) (uv : Int) : Bool × State :=
  if !(s.monContinuous n || (bitOf s.cmp.due n && s.monSampled n)) then (false, s)
  else
    let s0 := { s with cmp.due := putBit s.cmp.due n false }
    let inj := decide (0 < s0.cmp.mons[n].inj)
    let s1 := if inj then s0.monInjTake n else s0
    let badThr := decide (s0.get (CMP_WTHR_HI.el n) < s0.get (CMP_WTHR_LO.el n))
    let s2 := if badThr then (s1.put (⟨PG_CMP, 0x188, 0, n, 1⟩) 1).put (⟨PG_CMP, 0x188, 0, 16 + n, 1⟩) 1 else s1
    let seen := s2.monSide n s2.cmp.mons[n].last uv
    let side := if badThr then 0 else seen
    let res := if inj && side == 0 then (if Config.injectedSide s2.fresh then 1 else 2, s2.tickFresh) else (side, s2)
    let side' := res.1
    let s3 := res.2
    let m := s3.cmp.mons[n]
    let km := monKM (s3.on (CMP_WCFG_FILT.el n))
    let m' : WinMon := { m with hist := ((side' == 0) :: m.hist).take km.2, side := if side' = 0 then m.side else side', last := seen }
    let s4 := { s3 with cmp.mons := s3.cmp.mons.set n m' }
    let old := s4.get (CMP_WSTATE_S.sh (2 * n))
    let new := monFilter old km.1 m'
    if new = old then (false, s4) else s4.monChange n new

/-- A write of WCFGn: the filter history is cleared when EN, SEL or FILT changes, and the state of a monitor switched off changes to INSIDE
(R136, R137, R139). -/
def State.wcfgWritten (s : State) (n : Fin 16) (old new : Nat) : State :=
  let chg := bitOf old 0 != bitOf new 0 || bitsOf old 2 4 != bitsOf new 2 4 || bitOf old 6 != bitOf new 6
  let s1 : State := if chg then { s with cmp.mons := s.cmp.mons.set n { monIdle with inj := s.cmp.mons[n].inj } } else s
  if bitOf new 0 || s1.get (CMP_WSTATE_S.sh (2 * n.val)) == 0 then s1 else (s1.monChange n 0).2

/-- The function reset of CMP releases every hold and clears the filter histories; a released PWM target resumes at its next period boundary,
and a TRIP that acts without a hold goes on (R134, R140). -/
def State.cmpReset (s : State) : State :=
  { s with
      cmp.mons := Vector.ofFn fun n : Fin 16 => { monIdle with inj := s.cmp.mons[n].inj },
      cmp.idle := (List.range 8).foldl (fun (m : Nat) (i : Nat) => putBit m (24 + i) (bitOf m (24 + i) && s.cmpActing (24 + i) && s.on (tcfg CMP_TCFG_TRIP (24 + i)))) s.cmp.idle }

end Sys2Proof.Machine
end

