-- ==== Sys2Proof/Machine/Links.lean ====
section
/-! DEFINITION. String links: frames, attempts and retries, enumeration, delays, breaks, selectors, safe deselect
(chapter 07). -/

namespace Sys2Proof.Machine

/-- Link `n` of the state. -/
def State.lk (s : State) (n : Fin 16) : LinkS := s.link[n]

/-- The link page. -/
def linkPage (n : Fin 16) : Nat := PG_SLINK + n

/-- Whether a phase is maintenance (R163) or the enumeration. -/
def LinkPhase.maint : LinkPhase → Bool
  | .clear | .assign | .probe | .ping | .comp | .search => true
  | .idle | .frame | .desel => false

/-- The state with link `n` replaced; STATE shows its phase. -/
def State.setLk (s : State) (n : Fin 16) (x : LinkS) : State :=
  let s1 := { s with link := s.link.set n x }
  let s2 := s1.put (SLINK_STATE_BUSY.at n) (b2n (decide (x.phase ≠ .idle)))
  let s3 := s2.put (SLINK_STATE_MAINT.at n) (b2n x.phase.maint)
  s3.put (SLINK_STATE_DESELECTING.at n) (b2n (decide (x.phase = .desel)))

/-- CFG.MODULES: above 40 acts as 40 (Table 18). -/
def State.modules (s : State) (n : Fin 16) : Nat := min 40 (s.get (SLINK_CFG_MODULES.at n))

/-- Whether the link is usable (Table 7). -/
def State.usable (s : State) (n : Fin 16) : Bool := s.on (SLINK_STATE_USABLE.at n)

/-- Whether the topology is two-armed. -/
def State.twoArmed (s : State) (n : Fin 16) : Bool := s.get (SLINK_STATE_TOPO.at n) == 2

/-- Whether the last enumeration found node `k`. -/
def State.nodeFound (s : State) (n : Fin 16) (k : Nat) : Bool := (s.lk n).nodes.any (·.addr == k)

/-- Whether node `k` is on arm B (R165). -/
def State.onArmB (s : State) (n : Fin 16) (k : Nat) : Bool :=
  s.twoArmed n && s.get (SLINK_STATE_ARMB_END.at n) != 0x3F && decide (s.get (SLINK_STATE_ARMB_END.at n) ≤ k)

/-- Whether node `k` is on arm A (R165). -/
def State.onArmA (s : State) (n : Fin 16) (k : Nat) : Bool :=
  s.twoArmed n && s.get (SLINK_STATE_ARMA_END.at n) != 0x3F && decide (k ≤ s.get (SLINK_STATE_ARMA_END.at n))

/-- Whether node `k` is reachable: found, and in two-armed operation on an arm (R164, R165). -/
def State.nodeReach (s : State) (n : Fin 16) (k : Nat) : Bool :=
  s.nodeFound n k && (!s.twoArmed n || s.onArmA n k || s.onArmB n k)

/-- The reachable nodes, ascending. -/
def State.reachable (s : State) (n : Fin 16) : List Nat := (List.range 41).filter (s.nodeReach n)

/-- Whether node `k` is valid: reachable, and its block not missing or bad in N_MISS consecutive COLLECTs (R162, Table 19). -/
def State.nodeValid (s : State) (n : Fin 16) (k : Nat) : Bool :=
  s.nodeReach n k && decide (Sparse.get (fun _ => 0) (s.lk n).miss k < atLeast1 (s.get (SLINK_STALE_N_MISS.at n)))

/-- The UNREACH bits of nodes 32 to 40: of a usable link's modules, those no arm reaches and those the enumeration missed (R151, R164, Table 19). -/
def State.syncReach (s : State) (n : Fin 16) : State :=
  s.put (SLINK_VALID1_UNREACH.at n)
    ((List.range 9).foldl (fun m i => if s.usable n && decide (32 + i ≤ s.modules n) && !s.nodeReach n (32 + i) then m + 2 ^ i else m) 0)

/-! ### The selector map (R167) -/

/-- Node `k`'s selector map field: 0 OPEN, 1 CLOSED, 2 MOVING, 3 UNKNOWN. -/
def selField (n : Fin 16) (k : Nat) : Fld := ((SLINK_SELMAP_S.el (k / 16)).sh (2 * (k % 16))).at n

/-- The entry of node `k`. -/
def State.sel (s : State) (n : Fin 16) (k : Nat) : Nat := s.get (selField n k)

/-- A tone is abandoned (R221, Table 7). -/
def State.toneAbort (s : State) (n : Fin 16) : State :=
  (s.put (HEALTH_PERTN_STATE.el n) 2).raise PG_HEALTH HEALTH_ST_PABORT

/-- Node `k`'s entry has become `v`: a tone in progress on its module is abandoned once the module has left CLOSED (R221). -/
def State.toneLeft (s : State) (n : Fin 16) (k v : Nat) : State :=
  if v ≠ 1 ∧ s.get (HEALTH_PERTN_STATE.el n) = 1 ∧ s.get (HEALTH_PERTN_MODULE.el n) = k then s.toneAbort n else s

/-- The state with an entry set.  OPEN_SINCE of the module's record is the frame in which the entry last became OPEN
(Table 15 of charge tracking), and each close and each open is one selector operation (R225). -/
def State.setSel (s : State) (n : Fin 16) (k v : Nat) : State :=
  let s1 := if v = s.sel n k then s.put (selField n k) v else (s.put (selField n k) v).toneLeft n k v
  if k = 0 ∨ v = s.sel n k then s1
  else if v = 0 then
    let s2 := s1.store (modAddr n k + 0x18) 4 s.frame
    if (s.lk n).closed.contains k then
      (s2.setLk n { s2.lk n with closed := (s2.lk n).closed.filter (· != k) }).selOp n k
    else s2
  else if v = 1 ∧ !(s.lk n).closed.contains k then
    (s1.setLk n { s1.lk n with closed := (s1.lk n).closed ++ [k] }).selOp n k
  else s1

/-- The map entry a SEL byte reports (Table 5, R167). -/
def selEntry (sel : Nat) : Nat :=
  match sel % 4 with
  | 0 => 0
  | 2 => 1
  | _ => 2

/-- Whether a SELECT to node `k` may be sent (R167). -/
def State.selectAllowed (s : State) (n : Fin 16) (k : Nat) : Bool :=
  (s.mode == .run || s.mode == .ride) && s.usable n && s.nodeReach n k && !(s.lk n).stale &&
    (s.lk n).nodes.all fun d => d.addr == k || s.sel n d.addr == 0

/-- A master sets an entry to OPEN (R168). -/
def State.selOvr (s : State) (n : Fin 16) (v : Nat) : State :=
  if v / 0x10000 = 0x0D5E ∧ v % 64 ≤ 40 then s.setSel n (v % 64) 0 else s

/-! ### Frames (R143 to R148) -/

/-- The header word (Table 2). -/
def linkHdr (typ addr seq : Nat) (bc turn : Bool) (len : Nat) : Nat :=
  typ * 0x10000000 + addr % 64 * 0x400000 + seq % 16 * 0x40000 + b2n bc * 0x20000 + b2n turn * 0x10000 + len % 4096

/-- A number as `n` bytes, most significant first. -/
def beBytes (n v : Nat) : List Byte := (List.range n).map fun i => BitVec.ofNat 8 (v / 256 ^ (n - 1 - i))

/-- Bytes, most significant first, as a number. -/
def beNat (bs : List Byte) : Nat := bs.foldl (fun a b => a * 256 + b.toNat) 0

/-- Byte `i` of a list, 0 beyond its end. -/
def byteAt (bs : List Byte) (i : Nat) : Nat := ((bs[i]?).getD 0).toNat

/-- The bytes of a frame on the line from header byte 0 to the frame check (Table 1). -/
def LinkTx.bytes (t : LinkTx) : List Byte :=
  let h := beBytes 4 t.hdr ++ t.payload
  h ++ beBytes 2 (crc16 h)

/-- The size of the segment that begins with these bytes, by frame type (Table 4). -/
def segSize (typ : Nat) (bs : List Byte) : Nat :=
  match typ with
  | 1 => 12
  | 3 => 44
  | 4 => 6 + 4 * byteAt bs 3
  | _ => 6

/-- The segments of a returned frame, each with the verdict of its own check over everything before it (R144). -/
def parseSegs (size : List Byte → Nat) : Nat → List Byte → List Byte → List (List Byte × Bool)
  | 0, _, _ => []
  | fuel + 1, seen, bs =>
    let z := size bs
    if bs.length < z ∨ z < 6 then []
    else
      let seg := bs.take z
      let ok := crc16 (seen ++ seg.take (z - 2)) == beNat (seg.drop (z - 2))
      (seg, ok) :: parseSegs size fuel (seen ++ seg) (bs.drop z)

/-- The most that LEN and the segments of a frame may hold (R143). -/
def linkMost : Nat := 2048

/-- A returned frame: whether its frame check is good, and its segments (R143, R144); a longer one than R143 allows is no frame (DEDUCED, log
entry 179). -/
def linkParse (typ : Nat) (fetch : Bool) (bs : List Byte) : Bool × List (List Byte × Bool) :=
  let len := beNat (bs.take 4) % 4096
  let head := bs.take (4 + len)
  let chk := (bs.drop (4 + len)).take 2
  let ok := decide (6 + len ≤ bs.length) && decide (bs.length ≤ 6 + linkMost) && crc16 head == beNat chk
  let size := fun b => if fetch then 8 + 32 * byteAt b 4 else segSize typ b
  (ok, if ok then parseSegs size bs.length (head ++ chk) (bs.drop (6 + len)) else [])

/-- The offsets of STATUS and, where the segment has one, SEL (Table 4). -/
def segStatus (typ : Nat) (seg : List Byte) : Nat := if typ = 1 then byteAt seg 6 else byteAt seg 1

/-- The SEL byte of a segment, where it has one. -/
def segSel (typ : Nat) (fetch : Bool) (seg : List Byte) : Option Nat :=
  if fetch then none
  else
    match typ with
    | 1 => some (byteAt seg 7)
    | 3 => some (byteAt seg 3)
    | 4 => none
    | _ => some (byteAt seg 2)

/-! ### The command's shape -/

/-- Whether the command is a BURST FETCH (R174). -/
def LinkCmd.fetch (c : LinkCmd) : Bool := c.typ == 8 && byteAt c.payload 0 == 2

/-- The first address a COLLECT asks for. -/
def LinkCmd.collectFrom (c : LinkCmd) : Nat := byteAt c.payload 1

/-- The nodes whose segment is expected (Table 3, Table 10). -/
def State.expectedNodes (s : State) (n : Fin 16) (c : LinkCmd) : List Nat :=
  if c.typ = 1 ∨ c.typ = 2 then []
  else if c.typ = 3 then (s.reachable n).filter fun k => decide (c.collectFrom ≤ k) || c.got.contains k
  else if c.typ = 7 ∧ c.bc then s.reachable n
  else if c.bc ∨ c.addr = 0x3F then []
  else [c.addr]

/-- Whether an attempt is never retried (Table 10). -/
def LinkCmd.noRetry (c : LinkCmd) : Bool := c.typ == 2 || (c.bc && c.typ != 3 && c.typ != 7)

/-- The payload the engine builds, or the template's bytes (R157, Table 3). -/
def State.linkPayload (s : State) (typ pay len : Nat) : List Byte :=
  match typ with
  | 2 => beBytes 4 (s.get LAMP_FRAME_NUMBER)
  | 3 => [BitVec.ofNat 8 (s.get LAMP_FRAME_NUMBER), 0]
  | _ => s.bytes (0x1A0000 + 4 * pay) len

/-- The command of template `k` (R157); `node` other than 0x3F replaces ADDR. -/
def State.linkTemplate (s : State) (n : Fin 16) (source : LinkFrom) (k node : Nat) : LinkCmd :=
  let typ := s.get ((SLINK_TPL_A_TYPE.el (k % 32)).at n)
  let bc := s.on ((SLINK_TPL_A_BC.el (k % 32)).at n)
  let dst := s.get ((SLINK_TPL_B_DST.el (k % 32)).at n)
  { linkNoCmd with
    source := source, typ := typ, bc := bc || typ == 2 || typ == 3,
    addr := if node = 0x3F then s.get ((SLINK_TPL_A_ADDR.el (k % 32)).at n) else node,
    payload := s.linkPayload typ (s.get ((SLINK_TPL_B_PAY.el (k % 32)).at n)) (s.get ((SLINK_TPL_A_LEN.el (k % 32)).at n)),
    dst := if dst = 0xFFFF then none else some (0x1A0000 + 4 * dst) }

/-- The bytes a command may write at DST: the result words and every segment at full size. -/
def State.linkRoom (s : State) (n : Fin 16) (c : LinkCmd) : Nat :=
  12 + (match c.typ with
        | 2 => 0
        | 3 => 44 * (s.modules n + 1)
        | 4 => 6 + 4 * byteAt c.payload 1
        | 8 => if c.fetch then 8 + 32 * byteAt c.payload 1 else 6
        | 7 => if c.bc then 6 * (s.modules n + 1) else 6
        | _ => 6)

/-- Whether template `k`'s payload or a command's returned data would reach beyond working SRAM (Table 21). -/
def State.linkBeyond (s : State) (n : Fin 16) (k : Nat) (c : LinkCmd) : Bool :=
  (c.typ != 2 && c.typ != 3 &&
    decide (0x1C8000 < 0x1A0000 + 4 * s.get ((SLINK_TPL_B_PAY.el (k % 32)).at n) + c.payload.length)) ||
  (match c.dst with
   | none => false
   | some a => decide (0x1C8000 < a + s.linkRoom n c))

/-! ### Sending -/

/-- Whether frames go round the loop: in loop operation, and in a heal, whose delays are measured round the loop (R164 to R166; DEDUCED for the heal's
compensations, log entry 181). -/
def State.loopNow (s : State) (n : Fin 16) : Bool := !s.twoArmed n || ((s.lk n).phase.maint && (s.lk n).why == .heal)

/-- The frames of one attempt: pair, ADDR and TURN by the topology (R164, R165). -/
def State.linkFrames (s : State) (n : Fin 16) (c : LinkCmd) : List LinkTx :=
  let seq := (s.lk n).seq
  let f := fun (pairB turn : Bool) (addr : Nat) => (⟨pairB, linkHdr c.typ addr seq c.bc turn c.payload.length, c.payload⟩ : LinkTx)
  match c.arm with
  | some b => [f b c.turn c.addr]
  | none =>
    if s.loopNow n then [f false false c.addr]
    else
      let ends := c.typ == 3 || (c.typ == 7 && c.bc)
      let armA := s.get (SLINK_STATE_ARMA_END.at n)
      let armB := s.get (SLINK_STATE_ARMB_END.at n)
      if c.bc then
        (if armA = 0x3F then [] else [f false ends (if ends then armA else c.addr)]) ++
          (if armB = 0x3F then [] else [f true ends (if ends then armB else c.addr)])
      else if c.addr = 0x3F then [f false false 0x3F]
      else [f (s.onArmB n c.addr) true c.addr]

/-- An attempt sets out: its frames, and the pairs on which returns are awaited (R157 to R159, R165).  In two-armed operation a
frame that is not turned awaits no return, but the heal probe waits on pair B.  A SAMPLE's common instant t_I (R155) is kept,
counted from its slot's tick (log entry 10), and where the blocks of a COLLECT go. -/
def State.linkAttempt (s : State) (n : Fin 16) (c : LinkCmd) : State :=
  let tx := s.linkFrames n c
  let back := fun (t : LinkTx) (pair : Bool) =>
    if bitOf t.hdr 16 then t.pairB == pair
    else (t.pairB != pair) && (s.loopNow n || c.source == .healProbe || c.arm != none)
  let x0 := s.lk n
  let x :=
    if c.typ = 2 ∧ c.retries = 0 then
      { x0 with samples := ((s.frame, s.tMarker + 5 * (c.tick : Int) + 980 + 4 * (s.get (SLINK_TIMING_ALIGN.at n) : Int)) :: x0.samples).take 8 }
    else if c.typ = 3 ∧ c.retries = 0 then { x0 with blockAt := c.dst }
    else x0
  let s1 := s.setLk n { x with cmd := { c with bad := false, waitA := tx.any (back · false), waitB := tx.any (back · true) }, tx := tx }
  if c.typ = 6 ∨ c.typ = 7 then
    if c.bc then (s.reachable n).foldl (fun t k => if k = 0 then t else t.setSel n k 2) s1
    else if c.addr ≤ 40 ∧ c.addr ≠ 0 then s1.setSel n c.addr 2 else s1
  else s1

/-- The result word (Table 9a). -/
def linkResult (c : LinkCmd) (seq outcome : Nat) : Nat :=
  c.typ * 0x10000000 + seq % 16 * 0x1000000 + outcome * 0x10000 + c.retries * 0x100 + min 255 c.segs

/-- The node bits of a list of nodes within `[lo, lo + w)`. -/
def nodeBits (l : List Nat) (lo w : Nat) : Nat :=
  (List.range w).foldl (fun m i => if l.contains (lo + i) then m + 2 ^ i else m) 0

/-- The result words of a command are written at DST; a frame that failed
(PARTIAL, NORETURN, NAK) is kept in LASTERR (R157, Table 20). -/
def State.linkReport (s : State) (n : Fin 16) (c : LinkCmd) (outcome : Nat) : State :=
  let s1 :=
    match c.dst with
    | none => s
    | some a =>
      let valid := (List.range 41).filter (s.nodeValid n)
      ((s.store a 4 (linkResult c (s.lk n).seq outcome)).store (a + 4) 4 (nodeBits valid 0 32)).store (a + 8) 4
        (nodeBits valid 32 9 + s.get LAMP_FRAME_NUMBER % 0x10000 * 0x10000)
  if outcome = 0 ∨ outcome = 3 ∨ outcome = 4 then s1
  else
    (((s1.put (SLINK_LASTERR_TYPE.at n) c.typ).put (SLINK_LASTERR_NODE.at n) c.addr).put (SLINK_LASTERR_OUTCOME.at n)
      outcome).put (SLINK_LASTERR_VALID.at n) 1

/-- One of the counts goes up by one, saturating (Table 20). -/
def State.countUp (s : State) (f : Fld) : State := s.put f (satInc (2 ^ f.w - 1) (s.get f))

/-- A command that ends in its issue clock with nothing sent. -/
def State.linkAtOnce (s : State) (n : Fin 16) (c : LinkCmd) (outcome : Nat) : State :=
  let s1 := s.linkReport n c outcome
  match c.source with
  | .host => s1.raise (linkPage n) SLINK_ST_HDONE
  | .select => s1.setLk n { s1.lk n with ended := some ⟨c.typ, outcome⟩ }
  | .slot | .healProbe | .engine => s1

/-- A SELECT that fails the interlock (R167). -/
def State.linkRefuseSelect (s : State) (n : Fin 16) (c : LinkCmd) : State :=
  let s1 := (s.linkAtOnce n c 3).raise (linkPage n) SLINK_ST_REFUSED
  if s.mode = .run ∨ s.mode = .ride then s1.err (linkPage n) SLINK_ERR_INTERLOCK else s1

/-- A new command begins on an idle engine: SEQ advances and the first attempt goes out; a command no arm can carry, or that awaits no return,
ends at once (R157, R160, R163, R165, R167).  Nothing is written beyond working SRAM.  A SELECT on a link that is not usable fails the
interlock (R167 over R151; DEDUCED, log entry 183); a template longer than R143 allows is refused (DESIGN CHOICE, log entry 179).  The Bool
says that the engine is now busy. -/
def State.linkBegin (s : State) (n : Fin 16) (cmd : LinkCmd) (beyond : Bool) : Bool × State :=
  let x := s.lk n
  let c : LinkCmd := if beyond then { cmd with dst := none } else cmd
  if c.typ = 6 ∧ !s.usable n then (false, s.linkRefuseSelect n c)
  else if x.phase.maint || x.phase == .desel || !s.usable n then (false, s.linkAtOnce n c 4)
  else if c.typ = 1 ∨ 9 ≤ c.typ ∨ beyond ∨ linkMost < c.payload.length then (false, s.linkAtOnce n c 3)
  else if c.typ = 6 ∧ (c.bc ∨ !s.selectAllowed n c.addr) then (false, s.linkRefuseSelect n c)
  else if s.twoArmed n ∧ !c.bc ∧ c.addr ≠ 0x3F ∧ !s.nodeReach n c.addr then (false, s.linkAtOnce n c 2)
  else
    let s1 := (s.setLk n { x with phase := .frame, seq := (x.seq + 1) % 16, ended := none }).linkAttempt n c
    let y := s1.lk n
    if y.cmd.waitA || y.cmd.waitB then (true, s1)
    else (false, (s1.setLk n { y with phase := .idle }).linkAtOnce n c 0)

/-! ### Judging what comes back -/

/-- What a good segment reports of its node: SILENT, FAULT or DISAGREE, the selector (Table 5, R167). -/
def State.segReport (s : State) (n : Fin 16) (typ : Nat) (fetch : Bool) (seg : List Byte) : State :=
  let k := byteAt seg 0 % 64
  let st := segStatus typ seg
  let s1 := s.raiseIf (bitOf st 7) (linkPage n) SLINK_ST_SILENT
  let dis := match segSel typ fetch seg with | some v => bitOf v 2 | none => false
  let s2 := if bitOf st 1 || dis then s1.err (linkPage n) SLINK_ERR_NODEFAULT else s1
  match segSel typ fetch seg with
  | some v => if k = 0 ∨ 40 < k then s2 else s2.setSel n k (selEntry v)
  | none => s2

/-- One segment of a returned frame of a command: kept at DST if it is good (R157, R159). -/
def State.segTake (s : State) (n : Fin 16) (seg : List Byte) (good : Bool) : State :=
  let x := s.lk n
  let c := x.cmd
  if !good then (s.countUp (SLINK_COUNTS_CRCERR.at n)).setLk n { x with cmd := { c with bad := true } }
  else
    let k := byteAt seg 0 % 64
    let s1 := s.segReport n c.typ c.fetch seg
    let nak := bitOf (segStatus c.typ seg) 3 && c.typ != 1
    let s2 :=
      match c.dst with
      | none => s1
      | some a => s1.putBytes (if c.typ = 3 then a + 12 + 44 * k else a + c.off) seg
    s2.setLk n { s2.lk n with
      cmd := { c with nak := c.nak || nak, got := if c.got.contains k then c.got else c.got ++ [k], segs := c.segs + 1,
                      off := c.off + seg.length } }

/-- Whether the SD end of a return on a pair lies inside the window (R158); `rt` counts LINK clocks of 12.5 ns from the SD end sent.  The node
that turned a frame of both arms is its pair's arm end.  Before the delay in question has been measured no window is known and every return is
inside. -/
def State.inWindow (s : State) (n : Fin 16) (pairB turned : Bool) (rt : Nat) : Bool :=
  let c := (s.lk n).cmd
  let ackw := 1000 * atLeast1 (s.get (SLINK_TIMING_ACKW.at n))
  let node := if c.typ = 3 ∨ c.bc then s.get ((if pairB then SLINK_STATE_ARMB_END else SLINK_STATE_ARMA_END).at n) else c.addr
  let expected :=
    if turned then
      (if node ≤ 40 ∧ s.on ((SLINK_DLY_VALID.el node).at n) then some (200 * s.get ((SLINK_DLY_T.el node).at n) + 110000) else none)
    else if s.get (SLINK_LOOPDLY_REF.at n) = 0 then none
    else some (100 * s.get (SLINK_LOOPDLY_REF.at n))
  match expected with
  | none => true
  | some e => decide (e ≤ 125 * rt + 10000) && decide (125 * rt < e + ackw)

/-- A frame came back round the closed loop: LOOPDLY.LAST, and DRIFT beyond 100 ns (R152, R153).  In two-armed operation it is not measured (R165). -/
def State.loopDelay (s : State) (n : Fin 16) (rt : Nat) : State :=
  if !s.loopNow n then s
  else
    let s1 := s.put (SLINK_LOOPDLY_LAST.at n) ((125 * rt + 50) / 100)
    let r := 100 * s.get (SLINK_LOOPDLY_REF.at n)
    s1.raiseIf (decide (r ≠ 0) && (decide (r + 1000 < 125 * rt) || decide (125 * rt + 1000 < r))) (linkPage n) SLINK_ST_DRIFT

/-! ### Maintenance frames -/

/-- A frame of the engine's own. -/
def linkOwn (typ addr : Nat) (bc turn : Bool) (arm : Bool) (payload : List Byte) : LinkCmd :=
  { linkNoCmd with typ := typ, addr := addr, bc := bc, turn := turn, arm := some arm, payload := payload }

/-- An ENUM frame (Table 3, R150). -/
def enumCmd (op base dir turnpos addr : Nat) (bc turn arm : Bool) : LinkCmd :=
  linkOwn 1 addr bc turn arm [BitVec.ofNat 8 op, BitVec.ofNat 8 base, BitVec.ofNat 8 dir, BitVec.ofNat 8 turnpos]

/-- A maintenance step sends its frame. -/
def State.linkStep (s : State) (n : Fin 16) (p : LinkPhase) (c : LinkCmd) : State :=
  let x := s.lk n
  (s.setLk n { x with phase := p, seq := (x.seq + 1) % 16 }).linkAttempt n c

/-- A PING to node `k` on its arm (R152). -/
def State.sendPing (s : State) (n : Fin 16) (p : LinkPhase) (k : Nat) (armB : Bool) : State :=
  s.linkStep n p (enumCmd 2 0 0 0x3F k false true armB)

/-- COMP of a node from its measured delay, 10 ns units, ties up; 0 when it exceeds T_ALIGN (R154).  `x` is
`200 t_k / 10 ns`. -/
def compValue (align : Nat) (x : Int) : Nat :=
  if x > 200 * align then 0 else ((200 * (align : Int) - x + 100) / 200).toNat % 65536

/-- A link's part of an enumeration is over: with the last one, the long operation ends (R46, R151). -/
def State.enumOver (s : State) (n : Fin 16) : State :=
  if s.get DEV_LONGOP_RUN = 6 && (s.lk n).inOp &&
      (List.finRange 16).all (fun m => m == n || !(s.lk m).inOp || !((s.lk m).phase.maint && (s.lk m).why == .enumeration)) then
    let bad := (List.finRange 16).any fun m => (s.lk m).inOp && decide (0x10 ≤ s.get (SLINK_ENUM_RES_CODE.at m))
    { (s.longEnd (b2n bad)) with link := (s.longEnd (b2n bad)).link.map fun y => { y with inOp := false } }
  else s

/-- What a link's engine does is cut off: a maintenance leaves off where it is, and an enumeration is over with the code it has (DESIGN
CHOICE, log entry 180). -/
def State.linkCut (s : State) (n : Fin 16) : State :=
  let x := s.lk n
  let s1 := s.setLk n { x with phase := .idle, tx := [], todo := [] }
  if x.phase.maint && x.why == .enumeration then s1.enumOver n else s1

/-- A maintenance ends: what it leaves (R151, R153, R164, R166). -/
def State.maintEnd (s : State) (n : Fin 16) : State :=
  let x := s.lk n
  let s1 := (s.setLk n { x with phase := .idle, todo := [], tx := [] }).syncReach n
  let ref := fun (t : State) => if t.twoArmed n then t else t.put (SLINK_LOOPDLY_REF.at n) (t.get (SLINK_LOOPDLY_LAST.at n))
  match x.why with
  | .enumeration =>
    let s2 := (if s1.usable n then ref s1 else s1).raise (linkPage n) SLINK_ST_ENUMDONE
    let s3 := if 0x10 ≤ s2.get (SLINK_ENUM_RES_CODE.at n) then s2.err (linkPage n) SLINK_ERR_ENUMFAIL else s2
    s3.enumOver n
  | .measure => ref s1
  | .breakSearch => (s1.raise (linkPage n) SLINK_ST_BREAK).err (linkPage n) SLINK_ERR_BREAK
  | .heal =>
    let s2 := ((s1.put (SLINK_STATE_TOPO.at n) 1).put (SLINK_STATE_ARMA_END.at n) 0x3F).put (SLINK_STATE_ARMB_END.at n) 0x3F
    ((ref s2).syncReach n).raise (linkPage n) SLINK_ST_HEALED

/-- The next compensation is written, or the maintenance ends (R154). -/
def State.compNext (s : State) (n : Fin 16) : State :=
  let x := s.lk n
  match x.todo with
  | [] => s.maintEnd n
  | k :: rest =>
    let align := s.get (SLINK_TIMING_ALIGN.at n)
    let d : Int := ((x.delays.find? (·.1 == k)).map (·.2)).getD 0
    let s1 := s.put ((SLINK_DLY_LATE.el k).at n) (b2n (decide (d > 200 * align)))
    let c := { linkNoCmd with typ := 5, addr := k, payload := [3, 1] ++ beBytes 4 (compValue align d) }
    (s1.setLk n { x with todo := rest, pos := k }).linkStep n .comp c

/-- The next PING of a measurement, or on to the compensations of the nodes measured (R152, R153). -/
def State.pingNext (s : State) (n : Fin 16) : State :=
  let x := s.lk n
  match x.todo with
  | [] => (s.setLk n { x with todo := (x.delays.map (·.1)) }).compNext n
  | k :: rest => (s.setLk n { x with todo := rest, pos := k }).sendPing n .ping k (s.onArmB n k && x.why != .heal)

/-- The hop delay of the node pinged, from the LINK clocks between the SD ends (R152). -/
def State.takeDelay (s : State) (n : Fin 16) (k rt : Nat) : State :=
  let x := s.lk n
  let d : Int := 125 * (rt : Int) - 110000
  ((s.put ((SLINK_DLY_T.el k).at n) (((d + 100) / 200).toNat % 65536)).put ((SLINK_DLY_VALID.el k).at n) 1).setLk n
    { x with delays := x.delays.filter (·.1 != k) ++ [(k, d)] }

/-- The outcome of an enumeration that found `nodes` (Table 7): the rows judged in the order the spec gives. -/
def enumCode (modules : Nat) (loop : Bool) (nodes : List LinkNode) : Nat :=
  if nodes.isEmpty then 0x13
  else if decide (modules + 1 < nodes.length) || nodes.any (fun d => d.pairB && nodes.any fun e => !e.pairB && e.addr == d.addr)
  then 0x11
  else if !(nodes.any fun d => d.addr == 0 && d.head) || nodes.any (fun d => d.addr != 0 && d.head) || nodes.any (fun d => d.addr == 0 && !d.head)
  then 0x12
  else if nodes.length < modules + 1 then 0x10
  else if loop then 0x01 else 0x02

/-- The nodes are known: code, COUNT, topology, then the delays if the link is usable (R151). -/
def State.enumJudge (s : State) (n : Fin 16) (loop : Bool) : State :=
  let x := s.lk n
  let code := enumCode (s.modules n) loop x.nodes
  let ok := code == 1 || code == 2 || code == 0x10
  let s1 := (((s.put (SLINK_ENUM_RES_CODE.at n) code).put (SLINK_STATE_COUNT.at n) x.nodes.length).put
    (SLINK_STATE_USABLE.at n) (b2n ok)).put (SLINK_STATE_TOPO.at n) (if x.nodes.isEmpty then 0 else if loop then 1 else 2)
  let s2 := if s1.nodeFound n 0 then s1.setSel n 0 0 else s1
  if ok then (s2.setLk n { s2.lk n with todo := s2.reachable n, delays := [] }).pingNext n else s2.maintEnd n

/-- The nodes of a returned ASSIGN (Table 4). -/
def enumNodes (pairB : Bool) (segs : List (List Byte × Bool)) : List LinkNode :=
  segs.map fun g => ⟨byteAt g.1 0 % 64, byteAt g.1 1 == 1, pairB⟩

/-- A probe on an arm: ASSIGN with TURNPOS `p` (R151). -/
def State.sendProbe (s : State) (n : Fin 16) (armB : Bool) (p : Nat) : State :=
  let x := s.lk n
  (s.setLk n { x with pos := p, armB := armB }).linkStep n .probe
    (enumCmd 1 (if armB then s.modules n else 0) (b2n armB) p 0x3F false true armB)

/-- The probes of an arm have ended (R151). -/
def State.probeEnd (s : State) (n : Fin 16) : State :=
  if !(s.lk n).armB && s.on (SLINK_CFG_ARMS.at n) then s.sendProbe n true 0 else s.enumJudge n false

/-- The break search begins (R164). -/
def State.searchBegin (s : State) (n : Fin 16) : State :=
  let x := s.lk n
  let s1 := (s.put (SLINK_STATE_ARMA_END.at n) 0x3F).put (SLINK_STATE_ARMB_END.at n) 0x3F
  (s1.setLk n { x with why := .breakSearch, pos := 0, armB := false, delays := [] }).sendPing n .search 0 false

/-- The arms are known: two-armed operation, and the compensations are written again (R164). -/
def State.searchEnd (s : State) (n : Fin 16) : State :=
  let s1 := (s.put (SLINK_STATE_TOPO.at n) 2).syncReach n
  let x := s1.lk n
  (s1.setLk n { x with todo := x.delays.map (·.1) }).compNext n

/-- The arm B half of a break search starts, or there is no node left for it (R164). -/
def State.searchArmB (s : State) (n : Fin 16) : State :=
  let a := s.get (SLINK_STATE_ARMA_END.at n)
  let m := s.modules n
  if a ≠ 0x3F ∧ m ≤ a then s.searchEnd n
  else (s.setLk n { s.lk n with pos := m, armB := true }).sendPing n .search m true

/-- A PING of the search has been judged: on pair A the first that does not return ends it, on pair B it goes down to the node after arm A's
end (R164). -/
def State.searchNext (s : State) (n : Fin 16) (ok : Bool) : State :=
  let x := s.lk n
  if !x.armB then
    if ok then
      let s1 := s.put (SLINK_STATE_ARMA_END.at n) x.pos
      if s.modules n ≤ x.pos then s1.searchEnd n
      else (s1.setLk n { x with pos := x.pos + 1 }).sendPing n .search (x.pos + 1) false
    else s.searchArmB n
  else
    let a := s.get (SLINK_STATE_ARMA_END.at n)
    let s1 := if ok then s.put (SLINK_STATE_ARMB_END.at n) x.pos else s
    if x.pos = 0 ∨ (a ≠ 0x3F ∧ x.pos ≤ a + 1) then s1.searchEnd n
    else (s1.setLk n { x with pos := x.pos - 1 }).sendPing n .search (x.pos - 1) true

/-- A maintenance frame has been judged: the next step (R151, R153, R164, R166). -/
def State.maintNext (s : State) (n : Fin 16) (ok : Bool) : State :=
  let x := s.lk n
  match x.phase with
  | .clear => s.linkStep n .assign (enumCmd 1 0 0 0x3F 0x3F false false false)
  | .assign => if ok then s.enumJudge n true else (s.setLk n { x with nodes := [] }).sendProbe n false 0
  | .probe =>
    if ok ∧ x.pos < 40 then s.sendProbe n x.armB (x.pos + 1) else s.probeEnd n
  | .ping => s.pingNext n
  | .comp => s.compNext n
  | .search => s.searchNext n ok
  | .idle | .frame | .desel => s

/-! ### Ends of a command -/

/-- The blocks of a finished COLLECT: the miss count of every enumerated node, and NODESTALE where one becomes stale (R162). -/
def State.collectDone (s : State) (n : Fin 16) (got : List Nat) : State :=
  (s.lk n).nodes.foldl
    (fun t d =>
      let k := d.addr
      let x := t.lk n
      let old := Sparse.get (fun _ => 0) x.miss k
      let m := if got.contains k then 0 else min 255 (old + 1)
      let nm := atLeast1 (s.get (SLINK_STALE_N_MISS.at n))
      (t.setLk n { x with miss := Sparse.put (fun _ => 0) x.miss k m }).raiseIf
        (decide (old < nm) && decide (nm ≤ m)) (linkPage n) SLINK_ST_NODESTALE) s

/-- The link becomes stale (R162): ERR.STALE. -/
def State.linkGoStale (s : State) (n : Fin 16) : State :=
  (s.setLk n { s.lk n with stale := true, staleDue := false }).err (linkPage n) SLINK_ERR_STALE

/-- A round has passed on a link: rounds since the last successful READ of node 0 (R162). -/
def State.linkRound (s : State) (n : Fin 16) : State :=
  { s with link := s.link.set n { s.lk n with rounds := min 65535 ((s.lk n).rounds + 1) } }

/-- LINK_STALE: T_STALE rounds have passed with no successful READ of node 0; deferred while a retry is in progress (R162).  An unused link is
none. -/
def State.linkStale (s : State) (n : Fin 16) : State :=
  let x := s.lk n
  if x.stale || s.modules n == 0 || decide (x.rounds < s.get (SLINK_STALE_T_STALE.at n)) then s
  else if x.phase = .frame ∧ 0 < x.cmd.retries then s.setLk n { x with staleDue := true }
  else s.linkGoStale n

/-- The engine sends the heal probe after a frame's COLLECT (R166). -/
def State.healProbe (s : State) (n : Fin 16) : State :=
  if s.twoArmed n && s.on (SLINK_CFG_AUTOHEAL.at n) && s.usable n then
    (s.linkBegin n { linkNoCmd with source := .healProbe, addr := 0x3F } false).2
  else s

/-- A heal probe has been judged; two in a row that return start the heal (R166). -/
def State.healJudge (s : State) (n : Fin 16) (ok : Bool) : State :=
  let x := s.lk n
  if !ok then s.setLk n { x with healOk := 0 }
  else if x.healOk + 1 < 2 then s.setLk n { x with healOk := x.healOk + 1 }
  else (s.setLk n { x with healOk := 0, why := .heal, todo := x.nodes.map (·.addr), delays := [] }).pingNext n

/-- The command in progress ends with `outcome`: a good READ of node 0's windows is given the SAMPLEs before its return (R180); results,
staleness, and what follows (R157 to R162, R164, R166). -/
def State.linkFinish (s : State) (n : Fin 16) (outcome : Nat) (lost : Bool) : State :=
  let c := (s.lk n).cmd
  let s0 := if c.typ = 3 then s.collectDone n c.got else s
  let x := s0.lk n
  let s1 := (s0.linkReport n c outcome).setLk n
    { x with phase := .idle, tx := [], ended := if c.source = .select then some ⟨c.typ, outcome⟩ else x.ended }
  let s2 := if c.source = .host then s1.raise (linkPage n) SLINK_ST_HDONE else s1
  let fresh0 := outcome == 0 && c.typ == 4 && c.addr == 0 && byteAt c.payload 0 == 0x20
  let s3 :=
    if fresh0 then
      s2.setLk n { s2.lk n with
        stale := false, staleDue := false, rounds := 0,
        base := (s2.lk n).samples.filter fun m => decide (m.2 < s2.tMarker + 400 * (s2.tCyc : Int)) }
    else s2
  let s4 := if (s3.lk n).staleDue then s3.linkGoStale n else s3
  if c.source = .healProbe then s4.healJudge n (outcome == 0)
  else if lost && s4.loopNow n && s4.on (SLINK_CFG_ARMS.at n) then s4.searchBegin n
  else if c.typ = 3 then s4.healProbe n
  else s4

/-- Every awaited return of the attempt has come or its window has closed: the attempt is judged, and retried, or the command ends (R159,
R161).  `fits` says that a retry at its worst case ends within the slot's budget.  A frame of a measurement that exhausts its retries with no
return in loop operation starts a break search like another (R164); the enumeration's steps have their own outcomes (R151). -/
def State.linkJudge (s : State) (n : Fin 16) (fits : Bool) : State :=
  let x := s.lk n
  let c := x.cmd
  let missing := (s.expectedNodes n c).filter fun k => !c.got.contains k
  let ok := !c.bad && missing.isEmpty
  if x.phase = .frame then
    if c.nak then (s.raise (linkPage n) SLINK_ST_NAK).linkFinish n 5 false
    else if ok then s.linkFinish n 0 false
    else if c.source = .healProbe then s.linkFinish n 2 false
    else if c.noRetry then (if c.anyReturn then s else s.countUp (SLINK_COUNTS_CRCERR.at n)).linkFinish n 0 false
    else if c.retries < min 2 (s.get (SLINK_TIMING_RETRY.at n)) && fits then
      let c1 := { c with retries := c.retries + 1,
                         payload := if c.typ = 3 then [BitVec.ofNat 8 (byteAt c.payload 0), BitVec.ofNat 8 ((missing.head?).getD 0)] else c.payload }
      (s.countUp (SLINK_COUNTS_RETRY.at n)).linkAttempt n c1
    else
      ((s.err (linkPage n) SLINK_ERR_EXHAUSTED).countUp (SLINK_COUNTS_EXH.at n)).linkFinish n
        (if c.segs = 0 then 2 else 1) (!c.anyReturn)
  else
    let most := if x.phase = .search then 0 else 2
    if ok then s.maintNext n true
    else if !(decide (c.retries < most)) then
      (if x.why = .measure then
         let s1 := (s.err (linkPage n) SLINK_ERR_EXHAUSTED).countUp (SLINK_COUNTS_EXH.at n)
         if !c.anyReturn && s1.loopNow n && s1.on (SLINK_CFG_ARMS.at n) then s1.searchBegin n else s1.maintNext n false
       else s.maintNext n false)
    else (s.countUp (SLINK_COUNTS_RETRY.at n)).linkAttempt n { c with retries := c.retries + 1 }

/-- The state with the pair's awaited return off. -/
def State.linkCome (s : State) (n : Fin 16) (pairB bad : Bool) : State :=
  let x := s.lk n
  s.setLk n { x with cmd := { x.cmd with waitA := x.cmd.waitA && pairB, waitB := x.cmd.waitB && !pairB, bad := x.cmd.bad || bad } }

/-! ### Safe deselect (R169) -/

/-- The selectors not confirmed open. -/
def State.unconfirmed (s : State) (n : Fin 16) : List Nat :=
  (s.reachable n).filter fun k => k != 0 && (s.lk n).todo.contains k

/-- The safe deselect ends. -/
def State.deselEnd (s : State) (n : Fin 16) : State :=
  let s1 := if (s.lk n).todo.isEmpty then s else s.err (linkPage n) SLINK_ERR_DESELFAIL
  (s1.setLk n { s1.lk n with phase := .idle, todo := [], tx := [], tries := 0 }).raise (linkPage n) SLINK_ST_DESEL

/-- A safe deselect starts on a link: whatever it sent is stopped, and the broadcast DESELECT goes out on every reachable arm.
A link that sends nothing takes no part (R151), and one in a safe deselect goes on with it (DESIGN CHOICE, log entry 184). -/
def State.safeDeselect (s : State) (n : Fin 16) : State :=
  if !s.usable n || (s.lk n).phase == .desel then s
  else
    let x := s.lk n
    let s0 :=
      if x.phase = .frame then
        (s.linkReport n x.cmd 4).raiseIf (x.cmd.source == .host) (linkPage n) SLINK_ST_HDONE
      else s
    let s1 := s0.linkCut n
    let y := s1.lk n
    let e := if x.phase = .frame ∧ x.cmd.source = .select then some ⟨x.cmd.typ, 4⟩ else y.ended
    let s2 := s1.setLk n
      { y with phase := .desel, todo := (s1.reachable n).filter (· != 0), tries := 0, left := [], ended := e, seq := (y.seq + 1) % 16 }
    s2.linkAttempt n { linkNoCmd with typ := 7, bc := true, addr := 0x3F }

/-- Segments that return in a safe deselect confirm the selectors they report OPEN. -/
def State.deselReturn (s : State) (n : Fin 16) (bs : List Byte) (inj : Bool) : State :=
  let p := linkParse 7 false bs
  if !p.1 || inj then s.countUp (SLINK_COUNTS_CRCERR.at n)
  else
    p.2.foldl
      (fun t g =>
        if g.2 then
          let k := byteAt g.1 0 % 64
          let t1 := t.segReport n 7 false g.1
          if byteAt g.1 2 % 4 = 0 then t1.setLk n { t1.lk n with todo := (t1.lk n).todo.filter (· != k) } else t1
        else t.countUp (SLINK_COUNTS_CRCERR.at n)) s

/-- The next addressed DESELECT of a retry goes out, once the one before has been answered or its window has closed; with every selector confirmed the
safe deselect ends (R169). -/
def State.deselNext (s : State) (n : Fin 16) : State :=
  let x := s.lk n
  if x.todo.isEmpty then s.deselEnd n
  else
    match x.left.filter fun k => x.todo.contains k with
    | [] => s.setLk n { x with left := [] }
    | k :: rest => (s.setLk n { x with left := rest, seq := (x.seq + 1) % 16 }).linkAttempt n { linkNoCmd with typ := 7, addr := k }

/-- 1 ms has passed in a safe deselect (R169): another addressed DESELECT to each node not confirmed open, at most 3, then the end. -/
def State.deselRetry (s : State) (n : Fin 16) : State :=
  let x := s.lk n
  if x.phase ≠ .desel then s
  else if x.todo.isEmpty || decide (3 ≤ x.tries) then s.deselEnd n
  else (s.setLk n { x with tries := x.tries + 1, left := x.todo }).deselNext n

/-! ### The two ends of an attempt -/

/-- A return window closes with no return on the pairs still awaited: a check of the attempt like a return (R158, R159, Table 17). -/
def State.windowClose (s : State) (n : Fin 16) (fits : Bool) : State :=
  let x := s.lk n
  if !(x.cmd.waitA || x.cmd.waitB) then s
  else
    let s1 := (s.injTake (linkPage n) 2).setLk n { x with cmd := { x.cmd with waitA := false, waitB := false, bad := true } }
    if x.phase = .desel then s1.deselNext n
    else if x.phase = .idle then s1
    else s1.linkJudge n fits

/-- A return of an attempt is taken: its checks, its segments, what the enumeration and the delays learn from it; then the attempt is judged
once no pair is awaited (R144, R147, R152, R159).  `inj` says that its frame check is judged to fail. -/
def State.linkTake (s : State) (n : Fin 16) (pairB : Bool) (rt : Nat) (bs : List Byte) (inj fits : Bool) : State :=
  let x := s.lk n
  let p := linkParse x.cmd.typ x.cmd.fetch bs
  let frameOk := p.1 && !inj
  let s3 := if frameOk then s else s.countUp (SLINK_COUNTS_CRCERR.at n)
  let s4 := (s3.linkCome n pairB (!frameOk)).setLk n
    { (s3.linkCome n pairB (!frameOk)).lk n with cmd := { ((s3.linkCome n pairB (!frameOk)).lk n).cmd with anyReturn := true } }
  let s5 := if frameOk then p.2.foldl (fun t g => t.segTake n g.1 g.2) s4 else s4
  let good := frameOk && p.2.all (·.2)
  let s6 :=
    if good && (x.phase == .assign || x.phase == .probe) then
      s5.setLk n { s5.lk n with
        nodes := (if x.phase = .probe then (s5.lk n).nodes.filter (·.pairB != x.armB) else []) ++ enumNodes (x.phase == .probe && x.armB) p.2 }
    else s5
  let s7 :=
    if good && x.phase == .probe then
      s6.put ((if x.armB then SLINK_STATE_ARMB_END else SLINK_STATE_ARMA_END).at n) (if x.armB then s6.modules n - x.pos else x.pos)
    else s6
  let s8 := if good && (x.phase == .ping || x.phase == .search) then s7.takeDelay n x.cmd.addr rt else s7
  if (s8.lk n).cmd.waitA || (s8.lk n).cmd.waitB then s8 else s8.linkJudge n fits

/-- A frame's SD end arrives `rt` LINK clocks after the SD end sent, with the bytes `bs` from header byte 0 on (R158, R159).  A PING's delay
is what is being measured, so no window holds it (DEDUCED, log entry 185). -/
def State.linkReturn (s : State) (n : Fin 16) (pairB : Bool) (rt : Nat) (bs : List Byte) (fits : Bool) : State :=
  let x := s.lk n
  let awaited := if pairB then x.cmd.waitB else x.cmd.waitA
  if !awaited || x.phase == .idle then s
  else
    let pg := linkPage n
    let noRet := s.injOn pg 2
    let s0 := s.injTake pg 2
    if noRet then
      let s1 := s0.setLk n { x with cmd := { x.cmd with waitA := false, waitB := false, bad := true } }
      if x.phase = .desel then s1.deselNext n else s1.linkJudge n fits
    else
      let turned := x.tx.any fun t => t.pairB == pairB && bitOf t.hdr 16
      if !(x.phase == .ping || x.phase == .search) && !s0.inWindow n pairB turned rt then s0
      else
        let inj := s0.injOn pg 1
        let s1 := s0.injTake pg 1
        let s2 := if !turned && pairB then s1.loopDelay n rt else s1
        if x.phase = .desel then
          let s3 := (s2.linkCome n pairB false).deselReturn n bs inj
          if (s3.lk n).cmd.waitA || (s3.lk n).cmd.waitB then s3 else s3.deselNext n
        else s2.linkTake n pairB rt bs inj fits

/-! ### Commands of a link's CMD register -/

/-- The enumeration of a link begins (R151).  MODULES = 0: code 0 and no frame. -/
def State.enumBegin (s : State) (n : Fin 16) : State :=
  if s.modules n = 0 then
    let s1 := (((s.put (SLINK_ENUM_RES_CODE.at n) 0).put (SLINK_STATE_USABLE.at n) 0).put (SLINK_STATE_TOPO.at n) 0).put (SLINK_STATE_COUNT.at n) 0
    let s2 := (s1.put (SLINK_STATE_ARMA_END.at n) 0x3F).put (SLINK_STATE_ARMB_END.at n) 0x3F
    ((s2.setLk n { s2.lk n with nodes := [], delays := [] }).syncReach n).raise (linkPage n) SLINK_ST_ENUMDONE
  else
    let s1 := (((s.put (SLINK_STATE_USABLE.at n) 0).put (SLINK_STATE_TOPO.at n) 0).put (SLINK_STATE_ARMA_END.at n) 0x3F).put
      (SLINK_STATE_ARMB_END.at n) 0x3F
    let s2 := (List.range 41).foldl (fun t k => (t.setSel n k 3).put ((SLINK_DLY_VALID.el k).at n) 0) s1
    (s2.setLk n { s2.lk n with why := .enumeration, nodes := [], delays := [], inOp := true, todo := [] }).linkStep n .clear
      (enumCmd 0 0 0 0x3F 0x3F true false false)

/-- CMD ENUMERATE: long operation 6 (R151).  Ignored while the engine is not idle (log entry 8). -/
def State.linkEnumerate (s : State) (n : Fin 16) : State :=
  if s.busy || (s.lk n).phase != .idle then s
  else
    let s1 := (s.longStart 6).enumBegin n
    if s.modules n = 0 then s1.longEnd 0 else s1

/-- CMD MEASURE (R153). -/
def State.linkMeasure (s : State) (n : Fin 16) : State :=
  if !s.usable n || (s.lk n).phase != .idle then s
  else (s.setLk n { s.lk n with why := .measure, todo := s.reachable n, delays := [] }).pingNext n

/-- CMD SEND of template `k`: accepted only on an idle engine (R163). -/
def State.linkHostSend (s : State) (n : Fin 16) (k : Nat) : State :=
  if (s.lk n).phase ≠ .idle then s.raise (linkPage n) SLINK_ST_HREJ
  else
    let c := s.linkTemplate n .host k 0x3F
    (s.linkBegin n c (s.linkBeyond n k c)).2

/-- A write of CMD (Table 18). -/
def State.linkCmd (s : State) (n : Fin 16) (v : Nat) : State :=
  if v / 0x10000 ≠ 0x5C1E then s
  else
    match v % 8 with
    | 1 => s.linkEnumerate n
    | 2 => s.linkMeasure n
    | 3 => s.linkHostSend n (bitsOf v 8 5)
    | _ => s

/-- A LINKTX slot on link `n`, issued at `tick` LINK clocks of its cycle (R94, R157).  The Bool says that the engine is busy with it afterwards. -/
def State.linkTx (s : State) (n : Fin 16) (k node tick : Nat) : Bool × State :=
  let c : LinkCmd := { s.linkTemplate n .slot k node with tick := tick }
  s.linkBegin n c (s.linkBeyond n k c)

/-- The function reset of a link page ends maintenance and host frames, and keeps the rest (R176). -/
def State.linkFuncReset (s : State) (n : Fin 16) : State :=
  let x := s.lk n
  if x.phase.maint || (x.phase == .frame && x.cmd.source == .host) then
    s.linkCut n
  else s

end Sys2Proof.Machine
end

