-- ==== Sys2Proof/Machine/EstCount.lean ====
section
/-! DEFINITION. Charge tracking of a string: windows, Q_STR, the ISTR cross-check, fallback, branch and rest (chapter 08). -/

namespace Sys2Proof.Machine

/-- The estimator's own state of string `n`. -/
def State.es (s : State) (n : Fin 16) : EstStr := s.est.strs[n]

/-- The state with it replaced. -/
def State.setEs (s : State) (n : Fin 16) (x : EstStr) : State := { s with est.strs := s.est.strs.set n x }

/-- A field of string `n`'s configuration. -/
def estF (f : Fld) (n : Fin 16) : Fld := f.el n

/-- Whether a string is tracked. -/
def State.tracked (s : State) (n : Fin 16) : Bool := s.on (estF EST_STRCFG_EN n)

/-- One bit of a string record's FLAGS. -/
def State.strFlag (s : State) (n : Fin 16) (k : Nat) : Bool := bitOf (s.load (strAddr n + 4) 4) k

/-- The state with it written. -/
def State.setStrFlag (s : State) (n : Fin 16) (k : Nat) (b : Bool) : State :=
  s.store (strAddr n + 4) 4 (putBit (s.load (strAddr n + 4) 4) k b)

/-- The string's branch: 0 discharge, 1 charge, 2 mixed (Table 16). -/
def State.branch (s : State) (n : Fin 16) : Nat := bitsOf (s.load (strAddr n + 4) 4) 4 2

/-- The state with the branch written. -/
def State.setBranch (s : State) (n : Fin 16) (b : Nat) : State :=
  let v := s.load (strAddr n + 4) 4
  s.store (strAddr n + 4) 4 (v - bitsOf v 4 2 * 16 + b * 16)

/-- Whether a string is in fallback (R183). -/
def State.inFallback (s : State) (n : Fin 16) : Bool := s.strFlag n 0

/-- EST.XSTAT, a live view of the records' FLAGS: bit n FALLBACK, bit 16 + n XFAIL of string n (Table 18). -/
def State.xstat (s : State) : Nat :=
  (List.finRange 16).foldl (fun (m : Nat) (n : Fin 16) => m + b2n (s.strFlag n 0) * 2 ^ n.val + b2n (s.strFlag n 2) * 2 ^ (16 + n.val)) 0

/-- A current over a time is added to Q_STR, the remainder carried (R179); `len` in 100 ns. -/
def State.addCharge (s : State) (n : Fin 16) (i len : Int) : State :=
  let a := strAddr n
  let acc := (s.load (a + 0x14) 4 : Int) + i * len
  let q := acc.fdiv 10000000
  (s.storeI (a + 0x08) 6 (s.loadI (a + 0x08) 6 + q)).store (a + 0x14) 4 (acc - 10000000 * q).toNat

/-- The absolute charge of a window in mAs, rounded (R226). -/
def absCharge (i len : Int) : Nat := (roundDiv ((i.natAbs : Int) * len) 10000000).toNat

/-- A current over a time is counted: Q_STR, A_STRF and the string's throughput (R179, R226). -/
def State.countSpan (s : State) (n : Fin 16) (i len : Int) : State :=
  ((s.addCharge n i len).bump (hwStr n + 8) 4 (absCharge i len)).bump (hwStr n) 8 (absCharge i len)

/-- Fallback starts when node 0 of a tracked string is stale (R183). -/
def State.fallbackStart (s : State) (n : Fin 16) : State :=
  if s.tracked n && !s.inFallback n then
    let last : Option Int := match (s.es n).lastT, (s.es n).wins with
      | some t, _ => some t
      | none, w :: _ => some w.2.1
      | none, [] => none
    ((s.setStrFlag n 0 true).setEs n { s.es n with lastT := last }).raise PG_EST EST_ST_FALLBACK
  else s

/-- A string whose node 0 is stale is in fallback, also one that is enabled or cleared while it is (R183). -/
def State.fallbackDue (s : State) (n : Fin 16) : State := if (s.lk n).stale then s.fallbackStart n else s

/-! ### Windows (R179, R180) -/

/-- A node 0 window as the buffer gives it. -/
structure CurWindow where
  frame : Nat
  tI : Int
  index : Nat
  len : Nat
  cur : Int

/-- The end of a window, in units of 2.5 ns (R173). -/
def CurWindow.stop (w : CurWindow) : Int := w.tI + 400000 * (w.index : Int)

/-- The start of a window (R173, R180). -/
def CurWindow.start (w : CurWindow) : Int := if w.index = 0 then w.tI - 40 * (w.len : Int) else w.stop - 400000

/-- The CUR pairs of the buffer, newest first, each given to the SAMPLE that restarted its INDEX (R180); pairs of LENGTH 0 hold
no window.  `prev` is the INDEX of the window before in the list. -/
def curWindows : List (Nat × Nat × Int) → List (Nat × Int) → Option Nat → List CurWindow
  | [], _, _ => []
  | _, [], _ => []
  | (idx, len, cur) :: rest, sm :: older, prev =>
    if len = 0 then curWindows rest (sm :: older) prev
    else
      let rose := match prev with | none => false | some p => decide (p ≤ idx)
      let list := if rose then older else sm :: older
      match list with
      | [] => []
      | m :: more => ⟨m.1, m.2, idx, len, cur⟩ :: curWindows rest (m :: more) (some idx)

/-- The pairs of a READ segment that begins at `a`: INDEX, LENGTH, current, most significant byte first (Table 14 of string
links). -/
def State.curPairs (s : State) (a : Nat) : List (Nat × Nat × Int) :=
  (List.range 8).map fun j =>
    let w := a + 4 + 8 * j
    (beNat (s.bytes w 2), beNat (s.bytes (w + 2) 2), toSigned 32 (beNat (s.bytes (w + 4) 4)))

/-- The windows in a string's buffer, newest first; none unless its result word shows OUTCOME 0 (R179).  They are dated by the SAMPLEs before the
READ's return (R180). -/
def State.bufferWindows (s : State) (n : Fin 16) : List CurWindow :=
  let a := 0x1A0000 + 4 * s.get (estF EST_WINSRC_WDST n)
  if bitsOf (s.load a 4) 16 8 ≠ 0 then [] else curWindows (s.curPairs (a + 12)) (s.lk n).base none

/-- Whether a window follows the last one counted (R180). -/
def State.newWindow (s : State) (n : Fin 16) (w : CurWindow) : Bool :=
  let wf := s.load (strAddr n + 0x10) 4
  let wi := s.load (strAddr n + 0x0E) 2
  decide (wf < w.frame) || (wf == w.frame && decide (wi < w.index)) ||
    (wf == 0 && wi == 0 && (s.es n).wins.isEmpty)

/-- A span of time is filled at the last I_ISTR (R180, R183). -/
def State.fillSpan (s : State) (n : Fin 16) (t0 t1 : Int) : State :=
  if t0 < t1 then s.countSpan n (s.loadI (strAddr n + 0x20) 4) ((t1 - t0) / 40) else s

/-- Whether windows were lost between the last one counted, which ended at `stop`, and `w` (R180): INDEX has jumped, window 0 of `w`'s SAMPLE or a
whole SAMPLE is missing, or window 0 leaves half a window's time uncovered, more than the node's clock may differ by (R173; log entry 186). -/
def State.windowLost (s : State) (n : Fin 16) (stop : Int) (w : CurWindow) : Bool :=
  let wf := s.load (strAddr n + 0x10) 4
  if w.frame = wf then decide (s.load (strAddr n + 0x0E) 2 + 1 < w.index)
  else w.index != 0 || decide (stop + 200000 ≤ w.start) || (s.lk n).base.any fun m => decide (wf < m.1) && decide (m.1 < w.frame)

/-- The windows lost before the oldest new one (R180): filled, GAP set.  A string that has counted no window has no gap. -/
def State.fillGap (s : State) (n : Fin 16) (w : CurWindow) : State :=
  match (s.es n).wins with
  | [] => s
  | (_, stop, _) :: _ =>
    if s.windowLost n stop w ∧ stop < w.start then
      ((s.fillSpan n stop w.start).setStrFlag n 1 true).raise PG_EST EST_ST_GAP
    else s

/-- One new window is counted (R179, R226). -/
def State.countWindow (s : State) (n : Fin 16) (w : CurWindow) : State :=
  let a := strAddr n
  let s1 := s.countSpan n w.cur w.len
  let s2 := if w.index = 0 then (s1.storeI (a + 0x38) 6 (s1.loadI (a + 0x08) 6)).store (a + 0x40) 4 w.frame else s1
  let s3 := (s2.store (a + 0x0E) 2 w.index).store (a + 0x10) 4 w.frame
  s3.setEs n { s3.es n with wins := ((w.start, w.stop, w.cur) :: (s3.es n).wins).take 8 }

/-- A window that begins before the last instant counted in fallback is passed over: its place is recorded and its charge is not
counted again (R180, R183). -/
def State.skipWindow (s : State) (n : Fin 16) (w : CurWindow) : State :=
  let a := strAddr n
  ((s.store (a + 0x0E) 2 w.index).store (a + 0x10) 4 w.frame).setEs n
    { s.es n with wins := ((w.start, w.stop, w.cur) :: (s.es n).wins).take 8 }

/-- The end of fallback: it ends at the first window delivered again (R183). -/
def State.fallbackEnd (s : State) (n : Fin 16) (ws : List CurWindow) : State :=
  if s.inFallback n && !(s.lk n).stale && !ws.isEmpty then s.setStrFlag n 0 false else s

/-- Accumulation resumes with the first whole window that starts at or after the last instant counted in fallback, and the time
between the two is filled (R183).  Answers the windows to count. -/
def State.resumeAt (s : State) (n : Fin 16) (t : Int) (ws : List CurWindow) : List CurWindow × State :=
  let s1 := (ws.takeWhile fun w => decide (w.start < t)).foldl (fun u w => u.skipWindow n w) s
  match ws.dropWhile (fun w => decide (w.start < t)) with
  | [] => ([], s1)
  | w :: rest => (w :: rest, (s1.setEs n { s1.es n with lastT := none }).fillSpan n t w.start)

/-- The windows to count, oldest first, after what stands between them and the last instant counted is settled (R180, R183). -/
def State.beforeWindows (s : State) (n : Fin 16) (ws : List CurWindow) : List CurWindow × State :=
  match (s.es n).lastT with
  | some t => s.resumeAt n t ws
  | none => (ws, match ws with | w :: _ => s.fillGap n w | [] => s)

/-! ### The cross-check (R181, R182) -/

/-- I_ISTR from a code (R181). -/
def State.istr (s : State) (n : Fin 16) (code : Nat) : Int :=
  roundDiv (((code : Int) - 2048 - s.getI (estF EST_ISTRCAL_OFFSET n)) * (s.get (estF EST_ISTRCAL_GAIN n) : Int)) 16

/-- One comparison of a reading with the node 0 current of its window (Table 2). -/
def State.crossCheck (s : State) (n : Fin 16) (i node : Int) : State :=
  let inj := s.injOn PG_EST 2
  let s0 := s.injTake PG_EST 2
  let tol := 1000 * s.get EST_XCHK_ISTR_TOL_ABS + s.get EST_XCHK_ISTR_TOL_REL * node.natAbs
  let bad := inj || decide (tol < 1000 * (i - node).natAbs)
  let nx := atLeast1 (s.get EST_XCHK_N_XCHK)
  let cnt := s0.load (strAddr n + 0x24) 1
  let good := (s0.es n).good
  if bad then
    let c := min 255 (cnt + 1)
    let s1 := ((s0.store (strAddr n + 0x24) 1 c).setEs n { s0.es n with good := 0 }).raise PG_EST EST_ST_XMISMATCH
    if c < nx then s1
    else (s1.errI PG_EST EST_ERR_XCHK inj).setStrFlag n 2 true
  else
    let s1 := s0.store (strAddr n + 0x24) 1 0
    if s1.strFlag n 2 then
      if good + 1 < nx then s1.setEs n { s1.es n with good := good + 1 }
      else (s1.setEs n { s1.es n with good := 0 }).setStrFlag n 2 false
    else s1

/-- The readings whose window is at hand are compared; those whose window has not come within 10 rounds are dropped (R182). -/
def State.compareReadings (s : State) (n : Fin 16) : State :=
  (s.es n).readings.foldl
    (fun t r =>
      match (t.es n).wins.find? (fun w => decide (w.1 ≤ r.1) && decide (r.1 < w.2.1)) with
      | some w =>
        let t1 := t.setEs n { t.es n with readings := (t.es n).readings.filter (· != r) }
        if t1.on EST_CFG_XCHK_EN && !t1.inFallback n then t1.crossCheck n r.2 w.2.2 else t1
      | none =>
        if r.1 + 4000000 < t.tMarker then t.setEs n { t.es n with readings := (t.es n).readings.filter (· != r) } else t) s

/-- The modes in which charge is counted: those that run a schedule but for HIBERNATE, where Q_STR is not advanced (R205). -/
def Mode.counts : Mode → Bool
  | .run | .ride | .safe | .service => true
  | .cellar | .rise | .hibernate | .fall => false

/-- A new ISTR reading: scaled and kept, compared, or counted in fallback (R181 to R183).  A span is counted in whole 100 ns and
what is left goes into the next one, so that the spans join. -/
def State.istrReading (s : State) (n : Fin 16) : State :=
  if !s.tracked n || !s.mode.counts then s
  else
    let s := s.fallbackDue n
    let seq := s.get (estF EST_WINSRC_ISEQ n)
    let ent := s.get (estF EST_WINSRC_IENT n)
    let r := (s.rd ((PG_ADC + 3) * 0x400 + 0x300 + 4 * (16 * seq + ent))).toNat
    if bitsOf r 12 3 = 7 then s
    else
      let i := s.istr n (bitsOf r 0 12)
      let ago := (s.get (ADC_COUNT_CYCLE.at 3) + 65536 - bitsOf r 16 16) % 65536
      let t := s.tMarker - 400 * (ago * s.tCyc : Nat)
      let s1 := s.storeI (strAddr n + 0x20) 4 i
      if s1.inFallback n then
        let t0 := (s1.es n).lastT.getD t
        let len := if t0 < t then (t - t0) / 40 else 0
        let s2 := if 0 < len then s1.countSpan n i len else s1
        s2.setEs n { s2.es n with lastT := some (t0 + 40 * len), fbQ := (s2.es n).fbQ + i * len, fbLen := (s2.es n).fbLen + len }
      else (s1.setEs n { s1.es n with readings := (s1.es n).readings ++ [(t, i)] }).compareReadings n

/-! ### Branch and rest (R190, R197) -/

/-- The branch at a round step with mean current `i` (R190). -/
def State.branchStep (s : State) (n : Fin 16) (i : Int) : State :=
  let a := strAddr n
  let q := s.loadI (a + 0x08) 6
  let rev := s.loadI (a + 0x30) 6
  let rest : Int := s.get EST_REST_I_REST
  let move : Int := (s.get EST_BRANCH_Q_BRANCH * s.get (estF EST_STRCFG_QNOM n) * 18 : Nat)
  match s.branch n with
  | 0 => if rest < i then (s.setBranch n 2).storeI (a + 0x30) 6 q else s
  | 1 => if i < -rest then (s.setBranch n 2).storeI (a + 0x30) 6 q else s
  | _ =>
    if move < 25 * (rev - q) then (s.setBranch n 0).storeI (a + 0x30) 6 q
    else if move < 25 * (q - rev) then (s.setBranch n 1).storeI (a + 0x30) 6 q
    else s

/-- The rest counter at a round step (R197). -/
def State.restStep (s : State) (n : Fin 16) (i : Int) : State :=
  let a := strAddr n
  if i.natAbs ≤ s.get EST_REST_I_REST then
    let r := min 0xFFFFFFFF (s.load (a + 0x28) 4 + 1)
    let s1 := s.store (a + 0x28) 4 r
    if r % (atLeast1 (s.get EST_REST_T_REST) * 1000) = 0 then s1.store (a + 0x2C) 4 s.frame else s1
  else (s.store (a + 0x28) 4 0).setEs n { s.es n with restSeen := [] }

/-- A tone in progress notes that |I_ROUND| has departed from its value at START (R221). -/
def State.toneWatch (s : State) (n : Fin 16) (i : Int) : State :=
  let x := s.es n
  if s.get (HEALTH_PERTN_STATE.el n) = 1 ∧ 100 * s.get HEALTH_PERT_I_PSTAB < ((i.natAbs : Int) - x.toneI).natAbs then s.setEs n { x with toneOff := true }
  else s

/-- The accumulation step for one string (R179, R180, R182, R183, R190, R197). -/
def State.accumulate (s : State) (n : Fin 16) : State :=
  if !s.tracked n then s
  else
    let s := s.fallbackDue n
    let news := ((s.bufferWindows n).filter (s.newWindow n)).reverse
    let r := (s.fallbackEnd n news).beforeWindows n news
    let ws := r.1
    let s2 := r.2
    let s3 := ws.foldl (fun t w => t.countWindow n w) s2
    let q := ws.foldl (fun acc w => acc + w.cur * (w.len : Int)) (s3.es n).fbQ
    let len := ws.foldl (fun acc w => acc + (w.len : Int)) (s3.es n).fbLen
    let s4 := (s3.setEs n { s3.es n with fbQ := 0, fbLen := 0 }).compareReadings n
    if len = 0 then s4
    else
      let i := roundDiv q len
      (((s4.storeI (strAddr n + 0x1C) 4 i).toneWatch n i).branchStep n i).restStep n i

/-- The accumulation step over every string (R179). -/
def State.accStep (s : State) : State := (List.finRange 16).foldl (fun t n => t.accumulate n) s

/-! ### Round and frame boundaries (R184, R214, R215, R226) -/

/-- The taper count and the latch at a round boundary (R214, R215).  A latch that clears takes with it which cells its end point gave 0 % or 100 %
(R212). -/
def State.taperStep (s : State) (n : Fin 16) : State :=
  let i := s.loadI (strAddr n + 0x1C) 4
  let low := decide (i.natAbs ≤ s.get HEALTH_TAPER_I_TAPER)
  let cand := s.get (HEALTH_ENDST_CAND.el n)
  let run := low && cand != 0 && cand == (s.es n).prevCand
  let s1 := s.put (HEALTH_ENDST_TAPER_RND.el n) (if run then satInc 0xFFFFFF (s.get (HEALTH_ENDST_TAPER_RND.el n)) else 0)
  let s2 := if low then s1 else s1.put (HEALTH_ENDST_LATCH.el n) 0
  s2.setEs n { s2.es n with prevCand := cand, atEnd := if low then (s2.es n).atEnd else 0 }

/-- The module whose selector the map shows CLOSED, 0 if none. -/
def State.closedModule (s : State) (n : Fin 16) : Nat := ((List.range 41).find? fun k => k != 0 && s.sel n k == 1).getD 0

/-- A channel's module-side charge of the round goes to its module (R184, R226). -/
def State.moduleCharge (s : State) (n : Fin 16) : State :=
  let m := (s.es n).closedAt
  let q := s.getI (BAL_ROUNDQ_Q.at n)
  let s1 :=
    if m = 0 || !s.tracked n then s
    else (s.storeI (modAddr n m + 0x10) 4 (s.loadI (modAddr n m + 0x10) 4 + q)).bump (hwMod n m) 4 q.natAbs
  s1.setEs n { s1.es n with closedAt := s1.closedModule n }

/-- The round boundary's work on every string (R184, R214, R215). -/
def State.estRound (s : State) : State :=
  (List.finRange 16).foldl (fun (t : State) (n : Fin 16) => let u := t.moduleCharge n; if u.tracked n then u.taperStep n else u) s

/-- The work at the round boundary that begins a frame, after that round's own: Q_MODF moves to Q_MODL and A_STRF to A_STRL (R184, R226). -/
def State.estFrame (s : State) : State :=
  (List.finRange 16).foldl
    (fun (t : State) (n : Fin 16) =>
      if !t.tracked n then t
      else
        let t1 := (List.range 40).foldl
          (fun u m => (u.store (modAddr n (m + 1) + 0x14) 4 (u.load (modAddr n (m + 1) + 0x10) 4)).store (modAddr n (m + 1) + 0x10) 4 0) t
        (t1.store (hwStr n + 12) 4 (t1.load (hwStr n + 8) 4)).store (hwStr n + 8) 4 0) s

/-! ### Clearing (R206, R207, Table 12) -/

/-- A cell record at its clear values. -/
def State.clearCell (s : State) (n : Fin 16) (c : Nat) : State :=
  let a := cellAddr n c
  let save := 0x242000 + 8 * (n.val * 640 + c)
  let q := s.load (save + 4) 2
  (((s.zeroRange a 48).store (a + 0x06) 2 (if q = 0 then s.get (estF EST_STRCFG_QNOM n) else q)).store (a + 0x08) 2
    (s.load (save + 6) 2)).store (a + 0x1C) 2 0x8000

/-- A module record at its clear values. -/
def State.clearMod (s : State) (n : Fin 16) (m : Nat) : State := (s.zeroRange (modAddr n m) 32).store (modAddr n m + 0x0F) 1 3

/-- A string record at its clear values. -/
def State.clearStr (s : State) (n : Fin 16) : State := ((s.zeroRange (strAddr n) 512).store (strAddr n) 4 0x53545231).setBranch n 2

/-- The records of a string at their clear values. -/
def State.clearString (s : State) (n : Fin 16) : State :=
  let s1 := (List.range 640).foldl (fun t c => t.clearCell n c) s
  let s2 := (List.range 40).foldl (fun t m => t.clearMod n (m + 1)) s1
  let s3 := s2.clearStr n
  (s3.setEs n estStrIdle).put EST_CLEARED_STR (putBit (s3.get EST_CLEARED_STR) n true)

/-- `k` whole records are read through ECC: whether the injected check judges one of them to hold an uncorrectable word, each read counting
COUNT down (Table 19). -/
def State.recordReads (s : State) (k : Nat) : Bool × State :=
  let a := hdrAddr PG_EST hdrERR_INJ
  if s.injOn PG_EST 1 then (true, s.wr a (BitVec.ofNat 32 ((s.rd a).toNat - min k (bitsOf (s.rd a).toNat 0 4)))) else (false, s)

/-- The scrub of RISE: strings without their SIG, or with an uncorrectable word in their 681 records, are cleared (R206). -/
def State.scrub (s : State) : State :=
  (List.finRange 16).foldl
    (fun (t : State) (n : Fin 16) =>
      let r := t.recordReads 681
      let bad := r.1
      let t1 := r.2
      if bad || t1.load (strAddr n) 4 != 0x53545231 then
        ((if bad then t1.errI PG_EST EST_ERR_ECC true else t1).clearString n).raise PG_EST EST_ST_SCRUB
      else t1) s

end Sys2Proof.Machine
end

