-- ==== Sys2Proof/Machine/EstCell.lean ====
section
/-! DEFINITION. The frame update of cell records: OCV lookups, anchors, capacity, drift bound, reported state (chapters 08
and 09). -/

namespace Sys2Proof.Machine

/-- A cell record (Table 13). -/
structure CellRec where
  vLast : Nat
  socTrue : Nat
  socRep : Nat
  qCap : Nat
  rOhm : Nat
  rPol : Nat
  tauPol : Nat
  vPol : Int
  qBal : Int
  anchor : Int
  tLast : Nat
  conf : Nat
  flags : Nat
  lastAnchor : Nat
  zMag : Nat
  zPh : Int
  qSd : Nat
  drift : Nat
  qExcess : Int
  socA : Nat

/-- The record of cell `c` of string `n`. -/
def State.loadCell (s : State) (n : Fin 16) (c : Nat) : CellRec :=
  let a := cellAddr n c
  { vLast := s.load a 2, socTrue := s.load (a + 2) 2, socRep := s.load (a + 4) 2, qCap := s.load (a + 6) 2,
    rOhm := s.load (a + 8) 2, rPol := s.load (a + 0x0A) 2, tauPol := s.load (a + 0x0C) 2, vPol := s.loadI (a + 0x0E) 2,
    qBal := s.loadI (a + 0x10) 4, anchor := s.loadI (a + 0x14) 6, tLast := s.load (a + 0x1A) 1, conf := s.load (a + 0x1B) 1,
    flags := s.load (a + 0x1C) 2, lastAnchor := s.load (a + 0x1E) 4, zMag := s.load (a + 0x22) 2, zPh := s.loadI (a + 0x24) 2,
    qSd := s.load (a + 0x26) 2, drift := s.load (a + 0x28) 2, qExcess := s.loadI (a + 0x2A) 2, socA := s.load (a + 0x2C) 2 }

/-- The state with the record of a cell written. -/
def State.storeCell (s : State) (n : Fin 16) (c : Nat) (r : CellRec) : State :=
  let a := cellAddr n c
  let s1 := ((((s.store a 2 r.vLast).store (a + 2) 2 r.socTrue).store (a + 4) 2 r.socRep).store (a + 6) 2 r.qCap).store (a + 8) 2 r.rOhm
  let s2 := (((s1.store (a + 0x0A) 2 r.rPol).store (a + 0x0C) 2 r.tauPol).storeI (a + 0x0E) 2 r.vPol).storeI (a + 0x10) 4 r.qBal
  let s3 := (((s2.storeI (a + 0x14) 6 r.anchor).store (a + 0x1A) 1 r.tLast).store (a + 0x1B) 1 r.conf).store (a + 0x1C) 2 r.flags
  let s4 := (((s3.store (a + 0x1E) 4 r.lastAnchor).store (a + 0x22) 2 r.zMag).storeI (a + 0x24) 2 r.zPh).store (a + 0x26) 2 r.qSd
  ((s4.store (a + 0x28) 2 r.drift).storeI (a + 0x2A) 2 r.qExcess).store (a + 0x2C) 2 r.socA

/-- One flag of a cell record. -/
def CellRec.flag (r : CellRec) (k : Nat) : Bool := bitOf r.flags k

/-- The record with a flag written. -/
def CellRec.setFlag (r : CellRec) (k : Nat) (b : Bool) : CellRec := { r with flags := putBit r.flags k b }

/-- The record with a field of FLAGS written. -/
def CellRec.setFlags (r : CellRec) (lo w v : Nat) : CellRec :=
  { r with flags := r.flags - bitsOf r.flags lo w * 2 ^ lo + v % 2 ^ w * 2 ^ lo }

/-- Flag numbers (Table 14). -/
def cfINIT : Nat := 15
def cfVSTALE : Nat := 14
def cfWEIGHTED : Nat := 11
def cfFOLD : Nat := 10
def cfCLAMP : Nat := 9
def cfREJ : Nat := 8
def cfMODEL : Nat := 7

/-- AKIND of a record: 0 initial, 1 rest, 2 terminal. -/
def CellRec.akind (r : CellRec) : Nat := bitsOf r.flags 12 2

/-! ### OCV tables (R188 to R191) -/

/-- The base of OCV set `k`. -/
def ocvBase (k : Nat) : Nat := 0x1A4000 + k % 4 * 0x2400

/-- Column temperature `j` of a set, 1/16 °C. -/
def State.tCol (s : State) (base j : Nat) : Int := s.loadI (base + 8 + 2 * j) 2

/-- Point P[j][b][i]. -/
def State.ocvPoint (s : State) (base j b i : Nat) : Nat := s.load (base + 0x100 + 2 * (130 * j + 65 * b + i)) 2

/-- A temperature's place between columns: the column, the offset and the width, in 1/16 °C (R189). -/
def State.ocvColumn (s : State) (base : Nat) (t16 : Int) : Nat × Int × Int :=
  let t := clampI (s.tCol base 0) (s.tCol base 7) t16
  let j := (((List.range 7).reverse.find? fun j => decide (s.tCol base j ≤ t))).getD 0
  (j, t - s.tCol base j, s.tCol base (j + 1) - s.tCol base j)

/-- Point `i` on a branch, as a numerator over twice the column width; branch 2 is the mean of the two (R189, R190). -/
def State.ocvAt (s : State) (base : Nat) (col : Nat × Int × Int) (branch i : Nat) : Int :=
  let p := fun b => (s.ocvPoint base col.1 b i : Int) * col.2.2 + ((s.ocvPoint base (col.1 + 1) b i : Int) - s.ocvPoint base col.1 b i) * col.2.1
  if branch = 2 then p 0 + p 1 else 2 * p branch

/-- The state of charge of a voltage, 100 µV (R191). -/
def State.soc (s : State) (base : Nat) (col : Nat × Int × Int) (branch : Nat) (v : Int) : Nat :=
  let p := s.ocvAt base col branch
  let x := v * (2 * col.2.2)
  if x ≤ p 0 then 0
  else if p 64 ≤ x then 50000
  else
    let i := (((List.range 64).reverse.find? fun i => decide (p i < x))).getD 0
    let j := ((((List.range 65)).find? fun j => decide (x < p j))).getD 64
    let a := x - p i
    let wa := p (i + 1) - p i
    let b := p j - x
    let wb := p j - p (j - 1)
    (roundDiv (3125 * ((i + j : Nat) * wa * wb + a * wb - b * wa)) (8 * wa * wb)).toNat

/-- What a voltage says about the state of charge: soc, LO, HI, and twice the effective slope used for anchors (none:
unlimited); on branch 2 half of S is used, kept exact (R190, R191). -/
structure OcvView where
  soc : Nat
  lo : Nat
  hi : Nat
  slope2 : Option Nat

/-- The view of a voltage (R191). -/
def State.ocvView (s : State) (base : Nat) (col : Nat × Int × Int) (branch : Nat) (v : Int) : OcvView :=
  let acc : Int := s.get EST_VOLT_V_ACC
  let lo := s.soc base col branch (v - acc)
  let hi := s.soc base col branch (v + acc)
  { soc := s.soc base col branch v, lo := lo, hi := hi,
    slope2 :=
      if hi ≤ lo then none
      else
        let sl := (roundDiv (10000 * acc) ((hi - lo : Nat) : Int)).toNat
        some (if branch = 2 then sl else 2 * sl) }

/-- Whether the slope reaches a limit. -/
def OcvView.steep (o : OcvView) (lim : Nat) : Bool :=
  match o.slope2 with
  | none => true
  | some x => decide (2 * lim ≤ x)

/-- W16 = floor(65,536 × S / S_MIN) (R198, R199). -/
def OcvView.w16 (o : OcvView) (smin : Nat) : Nat :=
  match o.slope2 with
  | none => 65536
  | some x => min 65536 (65536 * x / (2 * smin))

/-! ### Counting (R185 to R187) -/

/-- Values of the string that a pass reads at its start (R179, R202). -/
structure UpdCtx where
  n : Fin 16
  frame : Nat
  branch : Nat
  iInst : Int
  qTi : Int
  tiNow : Bool
  updFrame : Nat
  block : Option Nat
  aStrl : Nat

/-- Q_CNT of a record (R186). -/
def CellRec.qCnt (r : CellRec) (qTi : Int) : Int := (qTi - r.anchor) + r.qBal - 1000 * (r.qSd : Int)

/-- SOC_TRUE recomputed (R186), and whether the clamp acted. -/
def CellRec.count (r : CellRec) (qTi : Int) : CellRec :=
  if r.qCap = 0 then { r with socTrue := r.socA }
  else
    let v := (r.socA : Int) + roundDiv (r.qCnt qTi * 25) (18 * (r.qCap : Int))
    ({ r with socTrue := (clampI 0 50000 v).toNat }).setFlag cfCLAMP (decide (v < 0) || decide (50000 < v))

/-- Self-discharge of Q_CAP over a time given as a fraction of an hour, at a column place (R185, R205). -/
def State.sdLoss (s : State) (base : Nat) (col : Nat × Int × Int) (qCap : Nat) (num den : Nat) : Nat :=
  let rate := fun j => (s.load (base + 0x18 + 2 * j) 2 : Int)
  let r := rate col.1 * col.2.2 + (rate (col.1 + 1) - rate col.1) * col.2.1
  (roundDiv ((qCap * 36 : Nat) * r * num) (col.2.2 * (100000000 * den : Nat))).toNat

/-- The frames in an hour (R185). -/
def State.hourFrames (s : State) : Nat := 3600000 / s.tFrame

/-- How many multiples of `h` lie in `(a, b]`. -/
def multiples (h a b : Nat) : Nat := if h = 0 then 0 else b / h - a / h

/-! ### Capacity (R218) -/

/-- The capacity update at a full anchor of kind rest or terminal (Table 4). -/
def State.capUpdate (s : State) (n : Fin 16) (r : CellRec) (dq : Int) (dsoc : Int) : State × CellRec :=
  if !s.on HEALTH_CFG_CAP_EN || r.akind == 0 || r.flag cfFOLD then (s, r)
  else if dsoc.natAbs < s.get HEALTH_CAPUPD_DSOC_MIN then (s, r)
  else if dq = 0 ∨ dsoc = 0 ∨ (decide (dq < 0) != decide (dsoc < 0)) then (s.raise PG_HEALTH HEALTH_ST_CAPREJ, r)
  else
    let est := roundDiv ((dq.natAbs : Int) * 25) (18 * (dsoc.natAbs : Int))
    let qnom : Int := s.get (estF EST_STRCFG_QNOM n)
    let band : Int := s.get HEALTH_LIMIT_CAP_BAND
    if 100 * est < qnom * (100 - band) ∨ qnom * (100 + band) < 100 * est then (s.raise PG_HEALTH HEALTH_ST_CAPREJ, r)
    else
      let step : Int := ((r.qCap * s.get HEALTH_LIMIT_CAP_STEP + 999) / 1000 : Nat)
      let q : Int :=
        if r.qCap = 0 then est
        else if r.qExcess = 0 then (r.qCap : Int) + clampI (-step) step (roundDiv (est - r.qCap) 8)
        else (r.qCap : Int) + clampI (-step) step (est - r.qCap)
      (s.raise PG_HEALTH HEALTH_ST_CAPUPD, { r with qCap := (clampI 0 65535 q).toNat })

/-! ### Anchors (R196 to R201) -/

/-- What an anchor did, for the drift bound and the reported state (R213, R223). -/
inductive AnchorDone where
  | none
  | initial (o : OcvView)
  | band (full : Bool)
  | terminal (o : OcvView)
  | steep (o : OcvView)
  | confirmed (o : OcvView)
  | moved

/-- A full anchor (Table 10); `kind` 1 and 2 hand their interval to the capacity update first (R218). -/
def State.fullAnchor (s : State) (x : UpdCtx) (r : CellRec) (kind soc : Nat) : State × CellRec :=
  let res :=
    if kind = 0 then (s, r) else s.capUpdate x.n r (r.qCnt x.qTi) ((soc : Int) - (r.socA : Int))
  let s1 := res.1
  let r1 := res.2
  let r2 := { r1 with socA := soc, socTrue := soc, anchor := x.qTi, qBal := 0, qSd := 0, lastAnchor := x.frame }
  (s1, (((r2.setFlags 12 2 kind).setFlag cfFOLD false).setFlag cfWEIGHTED false).setFlag cfREJ false)

/-- A move of SOC_A by `d` (Table 10); with Q_CAP 0 it moves nothing (R186). -/
def CellRec.move (r : CellRec) (qTi d : Int) : CellRec :=
  if r.qCap = 0 then r
  else ({ r with socA := (clampI 0 50000 ((r.socA : Int) + d)).toNat }).count qTi

/-- A string's rest request follows its LASTREST (R224). -/
def State.restRequest (s : State) (n : Fin 16) : State :=
  let lim := s.get HEALTH_NOREST_T_NOREST_MAX * s.hourFrames
  let b := s.tracked n && s.on HEALTH_CFG_NOREST_EN && lim != 0 && decide (s.get (HEALTH_LASTREST_FRAME.el n) + lim ≤ s.frame)
  let old := bitOf (s.get HEALTH_RESTREQ_REQ) n
  let s1 := s.put HEALTH_RESTREQ_REQ (putBit (s.get HEALTH_RESTREQ_REQ) n b)
  let s2 := s1.wr (hdrAddr PG_HEALTH hdrRAW) (BitVec.ofNat 32 (putBit (s1.hdr PG_HEALTH hdrRAW) HEALTH_ST_NOREST (s1.get HEALTH_RESTREQ_REQ != 0)))
  s2.raiseIf (b && !old) PG_HEALTH HEALTH_ST_NOREST

/-- Every string's rest request (R224). -/
def State.restRequests (s : State) : State := (List.finRange 16).foldl (fun (t : State) (n : Fin 16) => t.restRequest n) s

/-- The latest rest or terminal anchor of a string, which ends its rest request, and a pending count of the lifetime records (R224, R225). -/
def State.anchorSeen (s : State) (x : UpdCtx) (c : Nat) (terminal : Bool) : State :=
  let s1 := (s.put (HEALTH_LASTREST_FRAME.el x.n) x.frame).restRequest x.n
  let v := s1.load (pendAddr x.n c) 1
  if terminal then s1.store (pendAddr x.n c) 1 (v % 16 + min 15 (v / 16 + 1) * 16)
  else if (s1.es x.n).restSeen.contains c then s1
  else (s1.setEs x.n { s1.es x.n with restSeen := (s1.es x.n).restSeen ++ [c] }).store (pendAddr x.n c) 1 (min 15 (v % 16 + 1) + v / 16 * 16)

/-- Whether a rest qualifies (Table 7). -/
def State.restQualifies (s : State) (x : UpdCtx) (m : Nat) (r : CellRec) (v k : Nat) (wake : Bool) : Bool :=
  let a := strAddr x.n
  let trest := atLeast1 (s.get EST_REST_T_REST)
  let opened := s.load (modAddr x.n m + 0x18) 4
  s.on EST_CFG_REST_EN && s.load (a + 0x2C) 4 == x.frame && decide (trest * 1000 ≤ s.load (a + 0x28) 4) &&
    decide ((trest * 1000 : Nat) ≤ ((x.frame : Int) - opened - 1) * s.tFrame) &&
    (wake || (k == 1 && decide (((v : Int) - r.vLast).natAbs ≤ s.get EST_VOLT_DV_REST))) && !r.flag cfVSTALE

/-- The rest anchor of Table 8 and Table 6, with the view of V_OCV. -/
def State.restAnchor (s : State) (x : UpdCtx) (c : Nat) (r : CellRec) (o : OcvView) : State × CellRec × AnchorDone :=
  let smin := atLeast1 (s.get EST_SLOPE_S_MIN)
  let flat := s.on EST_CFG_FLATMODE && o.steep (s.get EST_SLOPE_S_REJ)
  if o.steep smin then
    let res := s.fullAnchor x r 1 o.soc
    let s1 := res.1
    let r1 := res.2
    ((s1.anchorSeen x c false).raise PG_EST EST_ST_RESTANCH, r1, .steep o)
  else if !flat then (s.raise PG_EST EST_ST_RESTREJ, r.setFlag cfREJ true, .none)
  else
    let s1 := (s.anchorSeen x c false).raise PG_EST EST_ST_RESTANCH
    let r1 := r.setFlag cfWEIGHTED true
    if o.lo ≤ r.socTrue ∧ r.socTrue ≤ o.hi then (s1, r1, .confirmed o)
    else (s1, r1.move x.qTi (roundDiv (((o.soc : Int) - r.socTrue) * o.w16 smin) 65536), .moved)

/-- The terminal anchor of Table 3 (R216). -/
def State.termAnchor (s : State) (x : UpdCtx) (c : Nat) (r : CellRec) (base : Nat) (col : Nat × Int × Int) (v : Nat) (icell : Int) :
    State × CellRec × AnchorDone :=
  let e := s.es x.n
  let full := e.term == 1
  let inBand :=
    if full then decide (e.passHi ≤ v + s.get HEALTH_FULL_FULL_BAND)
    else decide (v ≤ e.passLo + s.get HEALTH_EMPTY_EMPTY_BAND)
  let branch := if full then 1 else 0
  let o := s.ocvView base col branch ((v : Int) - roundDiv (icell * r.rOhm) 100000)
  let res := s.fullAnchor x r 2 (if inBand then (if full then 50000 else 0) else o.soc)
  let s1 := res.1
  let r1 := res.2
  let s2 := s1.setEs x.n { s1.es x.n with atEnd := putBit (s1.es x.n).atEnd c inBand }
  (s2.anchorSeen x c true, r1.setFlags 5 2 (if inBand then bitsOf r1.flags 5 2 else branch), if inBand then .band full else .terminal o)

/-- The model anchor of Table 9, if its conditions hold (R199). -/
def State.modelAnchor (s : State) (x : UpdCtx) (r : CellRec) (o : OcvView) (k : Nat) (icell : Int) : State × CellRec × AnchorDone :=
  if s.on EST_CFG_MODEL_EN && decide (icell.natAbs < s.get EST_MODEL_I_MODEL) && decide (s.get EST_MODEL_CONF_MIN ≤ r.conf) && k == 1 &&
      o.steep (s.get EST_SLOPE_S_REJ) && (decide (r.socTrue < o.lo) || decide (o.hi < r.socTrue)) && r.qCap != 0 then
    let d := roundDiv (((o.soc : Int) - r.socTrue) * o.w16 (atLeast1 (s.get EST_SLOPE_S_MIN))) (65536 * (2 ^ s.get EST_MODEL_W_SHIFT : Nat))
    (s.raise PG_EST EST_ST_MODELANCH, (r.setFlag cfMODEL true).move x.qTi d, .moved)
  else (s, r, .none)

/-- The one anchor of an update (Table 6).  A rest that is rejected leaves the model anchor open, and the rest that R205 credits needs no k of
1 (DEDUCED, log entry 187: every update after a wake has k > 1, and R205 would credit nothing).  An initial anchor needs a valid set, a
terminal one does not (R192). -/
def State.anchorCell (s : State) (x : UpdCtx) (c : Nat) (r : CellRec) (base : Nat) (col : Nat × Int × Int) (ocvOk : Bool) (v k : Nat)
    (icell vocv : Int) (wake : Bool) : State × CellRec × AnchorDone :=
  let m := c / 16 + 1
  if r.flag cfINIT && ocvOk then
    let o := s.ocvView base col 2 vocv
    let res := s.fullAnchor x r 0 o.soc
    let s1 := res.1
    let r1 := res.2
    (s1.raise PG_EST EST_ST_INITANCH, (({ r1 with socRep := r1.socTrue, conf := 0 }).setFlag cfINIT false).setFlags 5 2 2, .initial o)
  else if (s.es x.n).term ≠ 0 then s.termAnchor x c r base col v icell
  else if (k > 1 ∧ !wake) ∨ !ocvOk then (s, r, .none)
  else
    let o := s.ocvView base col x.branch vocv
    let r1 := r.setFlags 5 2 x.branch
    if s.restQualifies x m r v k wake then
      let res := s.restAnchor x c r1 o
      match res.2.2 with
      | .none => res.1.modelAnchor x res.2.1 o k icell
      | _ => res
    else s.modelAnchor x r1 o k icell

/-! ### Past the end, drift, reported state (R212, R217, R223) -/

/-- Q_EXCESS (R217). -/
def CellRec.excess (r : CellRec) (qTi : Int) : Int :=
  if r.qCap = 0 then 0
  else
    let qx := r.qCnt qTi + roundDiv ((r.socA * r.qCap * 18 : Nat) : Int) 25
    let cap : Int := 36000 * (r.qCap : Int)
    if qx < 0 then clampI (-32767) 32767 (roundDiv qx 10000)
    else if cap < qx then clampI (-32767) 32767 (roundDiv (qx - cap) 10000)
    else 0

/-- DRIFT after an update (Table 8); `hours` counts hourly steps, `wakeHours` those of a wake. -/
def State.driftOf (s : State) (x : UpdCtx) (r : CellRec) (qModl : Int) (hours wakeHours : Nat) (d : AnchorDone) : Nat :=
  let d0 := s.get HEALTH_DRIFT_DRIFT_0
  let base := r.drift + s.get HEALTH_DRIFT_DRIFT_HR * (hours + wakeHours)
  let v :=
    match d with
    | .initial o => max d0 ((o.hi - o.lo + 1) / 2)
    | .terminal o => max d0 ((o.hi - o.lo + 1) / 2)
    | .steep o => max d0 ((o.hi - o.lo + 1) / 2)
    | .band _ => d0
    | .confirmed o => min base (max d0 (max (o.hi - r.socTrue) (r.socTrue - o.lo)))
    | .none | .moved =>
      if r.qCap = 0 then 50000
      else
        let den := 18 * r.qCap * 1000
        base + ((x.aStrl + qModl.natAbs) * 25 * s.get HEALTH_DRIFT_DRIFT_RATE + den - 1) / den
  if r.qCap = 0 then 50000 else min 50000 v

/-- SOC_REP of cell `c` by R212; `v` the voltage at t_I or V_LAST; `dt` in ticks of 1/32,768,000 s. -/
def State.socRep (s : State) (x : UpdCtx) (c : Nat) (r : CellRec) (rep trueC truePrev v dt : Nat) : Nat :=
  let slew := s.get HEALTH_REP_SLEW_REP
  let step : Int := ((slew * dt + 117964800000 - 1) / 117964800000 : Nat)
  let floor : Int := min 25000 (s.get HEALTH_LIMIT_REP_FLOOR)
  let idir : Int := s.get HEALTH_REP_I_DIR
  let latch := s.get (HEALTH_ENDST_LATCH.el x.n)
  let given := bitOf (s.es x.n).atEnd c
  let empty := decide (v ≤ s.get HEALTH_EMPTY_V_EMPTY) || (given && latch == 2)
  let full := decide (s.get HEALTH_FULL_V_FULL ≤ v) || (given && latch == 1)
  let repI : Int := rep
  let t0 := repI + ((trueC : Int) - truePrev)
  let t1 := t0 + clampI (-step) step ((r.socTrue : Int) - t0)
  let t2 := if x.iInst < -idir then min t1 repI else t1
  let t3 := if idir < x.iInst ∧ s.on HEALTH_CFG_NOFALL then max t2 repI else t2
  let t4 := if empty then t3 else max t3 (min repI floor)
  let t5 := if full then t4 else min t4 (max repI (50000 - floor))
  (clampI 0 50000 t5).toNat

/-! ### One cell (R202, R203, R211) -/

/-- Whether module `m`'s block in the buffer holds this frame's sample; the buffer's last word names the frame (R157). -/
def State.blockValid (s : State) (x : UpdCtx) (m : Nat) : Bool :=
  match x.block with
  | none => false
  | some a =>
    let bit := if m < 32 then bitOf (s.load (a + 4) 4) m else bitOf (s.load (a + 8) 4) (m - 32)
    bit && bitsOf (s.load (a + 8) 4) 16 16 == x.frame % 65536 && !bitOf (s.load (a + 12 + 44 * m + 1) 1) 0

/-- Byte address of a module's block. -/
def UpdCtx.blockAddr (x : UpdCtx) (m : Nat) : Nat := (x.block.getD 0) + 12 + 44 * m

/-- The update of one cell in the order of R185, R186, R187, R194, R196 to R201, R211.  A record without a usable voltage keeps INIT and is not
counted (R200).  A cell takes the hibernated time in its own first update after the wake (R205, R213, R223). -/
def State.updateCell (s : State) (x : UpdCtx) (c : Nat) : State :=
  let ecc := s.recordReads 1
  let s := ecc.2
  if ecc.1 then
    let s1 := (s.errI PG_EST EST_ERR_ECC true).clearCell x.n c
    s1.setEs x.n { s1.es x.n with atEnd := putBit (s1.es x.n).atEnd c false }
  else
    let m := c / 16 + 1
    let valid := s.blockValid x m
    let b := x.blockAddr m
    let v := beNat (s.bytes (b + 4 + 2 * (c % 16)) 2)
    let tRaw := s.load (b + 38 + c % 16 / 4) 1
    let setNo := s.get (estF EST_STRCFG_SET x.n)
    let base := ocvBase setNo
    let ocvOk := bitOf (s.get OCV_VALID_RAM) setNo
    let r0 := s.loadCell x.n c
    let k := if 1 < x.frame - x.updFrame then x.frame - x.updFrame else (x.frame + 16 - bitsOf r0.flags 0 4) % 16
    let e := s.es x.n
    let wake := bitOf e.wakeDue c
    let ticks := if wake then e.wakeE else 0
    let s := (if wake then s.setEs x.n { e with wakeDue := putBit e.wakeDue c false } else s).raiseIf (decide (1 < k)) PG_EST EST_ST_MISSED
    if r0.flag cfINIT && !(valid && x.tiNow && (ocvOk || e.term != 0)) then
      let r := (r0.setFlags 0 4 x.frame).setFlag cfVSTALE (!valid)
      s.storeCell x.n c (if valid then { r with vLast := v, tLast := tRaw } else r)
    else
      let col := s.ocvColumn base (16 * (((if valid then tRaw else r0.tLast : Nat) : Int) - 40))
      let colLast := s.ocvColumn base (16 * ((r0.tLast : Int) - 40))
      let sdOn := s.on EST_CFG_SD_EN
      let hours := if sdOn then multiples s.hourFrames (x.frame - k) x.frame else 0
      let qModl := s.loadI (modAddr x.n m + 0x14) 4
      let loss := hours * s.sdLoss base col r0.qCap 1 1 + (if wake && sdOn then s.sdLoss base colLast r0.qCap ticks 117964800 else 0)
      let decay := multiples (s.get EST_CONFDEC_N_CONF) (x.frame - k) x.frame
      let r1 := { r0 with qSd := min 65535 (r0.qSd + loss), qBal := if k = 0 then r0.qBal else r0.qBal + qModl, conf := r0.conf - decay }
      let r2 := (r1.count x.qTi).setFlag cfMODEL false
      let trueC := r2.socTrue
      let fold := decide (2 ^ 30 ≤ r2.qBal.natAbs) || decide (60000 ≤ r2.qSd) || decide (2 ^ 40 ≤ (x.qTi - r2.anchor).natAbs)
      let r3 := if fold then ({ r2 with socA := r2.socTrue, anchor := x.qTi, qBal := 0, qSd := 0 }).setFlag cfFOLD true else r2
      let s1 := s.raiseIf fold PG_EST EST_ST_FOLD
      let icell := x.iInst + (if s1.sel x.n m = 1 then s1.getI (BAL_IMOD_TI_I.at x.n) else 0)
      let dt : Int := (k * s1.tFrame : Nat)
      let r4 :=
        if valid then
          { r3 with vPol := r3.vPol + roundDiv (dt * (roundDiv (icell * r3.rPol) 100000 - r3.vPol)) ((r3.tauPol * 10 : Nat) + dt) }
        else r3
      let vocv := (v : Int) - roundDiv (icell * r4.rOhm) 100000 - r4.vPol
      let res :=
        if valid && x.tiNow then s1.anchorCell x c r4 base col ocvOk v k icell vocv (wake && e.wakeRest)
        else (s1, r4, AnchorDone.none)
      let s2 := res.1
      let r5 := res.2.1
      let d := res.2.2
      let ex := r5.excess x.qTi
      let s3 := s2.raiseIf (ex != 0 && r0.qExcess == 0) PG_HEALTH HEALTH_ST_EXCESS
      let r6 := { r5 with qExcess := ex }
      let wakeHours := if wake then (ticks + 117964799) / 117964800 else 0
      let r7 := { r6 with drift := s3.driftOf x r6 qModl hours wakeHours d }
      let rep :=
        match d with
        | .initial _ => r7.socTrue
        | .band full => if full then 50000 else 0
        | _ => s3.socRep x c r7 r0.socRep trueC r0.socTrue (if valid then v else r0.vLast) (k * s3.tFrame * 32768 + ticks * 1000)
      let r8 := (({ r7 with socRep := rep }).setFlags 0 4 x.frame).setFlag cfVSTALE (!valid)
      s3.storeCell x.n c (if valid then { r8 with vLast := v, tLast := tRaw } else r8)

/-! ### Module and string summaries (R202) -/

/-- The lowest and highest of a list with their positions; the lower position on ties. -/
def extremes (l : List Nat) : Nat × Nat × Nat × Nat :=
  (List.range l.length).foldl
    (fun a i => let v := nth l i
      (if i = 0 ∨ v < a.1 then v else a.1, if i = 0 ∨ v < a.1 then i else a.2.1,
       if i = 0 ∨ a.2.2.1 < v then v else a.2.2.1, if i = 0 ∨ a.2.2.1 < v then i else a.2.2.2)) (0, 0, 0, 0)

/-- The module's record when its last cell has been updated (Table 15). -/
def State.moduleDone (s : State) (x : UpdCtx) (m : Nat) : State :=
  let a := modAddr x.n m
  let valid := s.blockValid x m
  let b := x.blockAddr m
  let socs := (List.range 16).map fun j => s.load (cellAddr x.n (16 * (m - 1) + j) + 2) 2
  let e := extremes socs
  let s1 := (((s.store (a + 6) 2 e.1).store (a + 8) 2 e.2.2.1).store (a + 0x0A) 2 (roundDiv (socs.foldl (· + ·) 0 : Nat) 16).toNat).store
    (a + 0x0C) 1 (e.2.2.2 * 16 + e.2.1)
  let s2 := s1.store (a + 0x1D) 1 (putBit (s1.load (a + 0x1D) 1) 0 (!valid))
  if !valid then s2
  else
    let vs := (List.range 16).map fun j => beNat (s2.bytes (b + 4 + 2 * j) 2)
    let w := extremes vs
    let ts := (List.range 4).map fun i => s2.load (b + 38 + i) 1
    (((((s2.store a 2 (beNat (s2.bytes (b + 36) 2))).store (a + 2) 2 w.1).store (a + 4) 2 w.2.2.1).store (a + 0x0D) 1 (extremes ts).2.2.1).store
      (a + 0x0E) 1 (s2.load (b + 1) 1)).store (a + 0x0F) 1 (s2.load (b + 3) 1)

/-- The string summaries at the end of a pass (R202, R214). -/
def State.stringDone (s : State) (x : UpdCtx) (last : Nat) : State :=
  let a := strAddr x.n
  let mods := (List.range (last / 16 + 1)).map (· + 1)
  let upd := (List.range (last + 1)).filter fun c => bitsOf (s.load (cellAddr x.n c + 0x1C) 2) 0 4 == x.frame % 16
  let socs := upd.map fun c => s.load (cellAddr x.n c + 2) 2
  let e := extremes socs
  let vstr := mods.foldl (fun v m => v + s.load (modAddr x.n m) 2) 0
  let tmax := mods.foldl (fun v m => max v (s.load (modAddr x.n m + 0x0D) 1)) 0
  let s1 := (((s.store (a + 0x44) 4 x.frame).store (a + 0x48) 4 vstr).store (a + 0x4E) 2 e.1).store (a + 0x50) 2 e.2.2.1
  let s2 := (s1.store (a + 0x4C) 2 (roundDiv (socs.foldl (· + ·) 0 : Nat) socs.length).toNat).store (a + 0x52) 1 tmax
  let es := s2.es x.n
  let any := es.passAny
  let s3 := if any then (s2.put (HEALTH_VEXT_V_HI.el x.n) es.passHi).put (HEALTH_VEXT_V_LO.el x.n) es.passLo else s2
  let br := s3.branch x.n
  let cand :=
    if any && br == 1 && decide (s3.get HEALTH_FULL_V_FULL ≤ es.passHi) then 1
    else if any && br == 0 && decide (es.passLo ≤ s3.get HEALTH_EMPTY_V_EMPTY) then 2
    else 0
  let s4 := ((s3.put (HEALTH_ENDST_CAND.el x.n) cand).put EST_LASTUPD_FRAME x.frame).setEs x.n { s3.es x.n with term := 0 }
  (s4.raise PG_EST EST_ST_PASSDONE).restRequest x.n

/-- The start of a pass at cell 0: the extremes of this frame's valid blocks, and an end point if one is recognised (R214 to
R216). -/
def State.passBegin (s : State) (x : UpdCtx) : State :=
  let mods := ((List.range (s.modules x.n)).map (· + 1)).filter (s.blockValid x)
  let vs := mods.flatMap fun m => (List.range 16).map fun j => beNat (s.bytes (x.blockAddr m + 4 + 2 * j) 2)
  let e := extremes vs
  let cand := s.get (HEALTH_ENDST_CAND.el x.n)
  let hold := clampN 1 16000 (s.get HEALTH_TAPER_T_HOLD) * 1000
  let rec1 := s.on HEALTH_CFG_TERM_EN && s.get (HEALTH_ENDST_LATCH.el x.n) == 0 && cand != 0 && decide (hold ≤ s.get (HEALTH_ENDST_TAPER_RND.el x.n))
  let s1 := s.setEs x.n
    { s.es x.n with passHi := e.2.2.1, passLo := e.1, passAny := !mods.isEmpty, term := if rec1 then cand else 0,
                    atEnd := if rec1 then 0 else (s.es x.n).atEnd }
  if rec1 then
    ((s1.put (HEALTH_ENDST_LATCH.el x.n) cand).put (HEALTH_ENDST_TAPER_RND.el x.n) 0).raise PG_HEALTH
      (if cand = 1 then HEALTH_ST_TERMFULL else HEALTH_ST_TERMEMPTY)
  else s1

/-- A module's record is read when the pass comes to the module: an uncorrectable word sets ERR.ECC and leaves the clear values (R203). -/
def State.moduleRead (s : State) (n : Fin 16) (m : Nat) : State :=
  let r := s.recordReads 1
  if r.1 then (r.2.errI PG_EST EST_ERR_ECC true).clearMod n m else r.2

/-- The string's record is read at the start of a pass, as a module's is. -/
def State.stringRead (s : State) (n : Fin 16) : State :=
  let r := s.recordReads 1
  if r.1 then
    let s1 := (r.2.errI PG_EST EST_ERR_ECC true).clearStr n
    (s1.setEs n { s1.es n with wins := [], readings := [], lastT := none }).fallbackDue n
  else r.2

/-- An ESTUPD with PASS 0 over cells `first` to `first + count - 1` of string `n` (R202, R203). -/
def State.estUpdate (s : State) (n : Fin 16) (first count : Nat) : State :=
  if !s.tracked n then s
  else
    let setNo := s.get (estF EST_STRCFG_SET n)
    let s0 := (if bitOf (s.get OCV_VALID_RAM) setNo then s else s.err PG_EST EST_ERR_NOOCV).stringRead n
    let a := strAddr n
    let blk := (s0.lk n).blockAt
    let headOk : Bool :=
      match blk with
      | none => false
      | some d => bitOf (s0.load (d + 4) 4) 0 && bitsOf (s0.load (d + 8) 4) 16 16 == s0.frame % 65536 && !bitOf (s0.load (d + 13) 1) 0
    let s1 := if headOk then s0.storeI (a + 0x18) 4 (toSigned 32 (beNat (s0.bytes ((blk.getD 0) + 16) 4))) else s0
    let x : UpdCtx :=
      { n := n, frame := s1.frame, branch := s1.branch n, iInst := s1.loadI (a + 0x18) 4, qTi := s1.loadI (a + 0x38) 6,
        tiNow := s1.load (a + 0x40) 4 == s1.frame, updFrame := s1.load (a + 0x44) 4, block := blk, aStrl := s1.load (hwStr n + 12) 4 }
    let last := if s1.modules n = 0 then 639 else 16 * s1.modules n - 1
    let s2 := if first = 0 then s1.passBegin x else s1
    (List.range count).foldl
      (fun (t : State) (i : Nat) =>
        let c := first + i
        if last < c then t
        else
          let t1 := (if c % 16 = 0 ∨ i = 0 then t.moduleRead n (c / 16 + 1) else t).updateCell x c
          let t2 := if c % 16 = 15 then t1.moduleDone x (c / 16 + 1) else t1
          if c = last then t2.stringDone x last else t2) s2

end Sys2Proof.Machine
end

