-- ==== Sys2Proof/Machine/Health.lean ====
section
/-! DEFINITION. Tones and impedance, and the lifetime flush (chapter 09). -/

namespace Sys2Proof.Machine

/-! ### Tones (R219 to R222) -/

/-- The node burst rates of R174 in 0.1 Hz. -/
def burstRate (code : Nat) : Nat := nth [40000, 20000, 10000, 5000, 2500, 1000, 100] code

/-- A tone's frequency, rate and number of sets, if it is valid (R219). -/
def State.tone (s : State) (k : Nat) : Option (Nat × Nat × Nat) :=
  let f := s.get (HEALTH_TONE_FREQ.el k)
  let r := burstRate (s.get (HEALTH_TONE_RATE.el k))
  let nt := s.get (HEALTH_TONE_NPER.el k) * (r / f)
  if 3 ≤ k ∨ f < 1 ∨ 10000 < f ∨ r = 0 ∨ r % f ≠ 0 ∨ r / f < 4 ∨ 512 < nt then none else some (f, r, nt)

/-- A write of PERTn with START = 1 (R219 to R221). -/
def State.toneStart (s : State) (n : Fin 16) : State :=
  let s1 := if s.get (HEALTH_PERTN_STATE.el n) = 1 then s.raise PG_HEALTH HEALTH_ST_PABORT else s
  match s1.tone (s1.get (HEALTH_PERTN_TONE.el n)) with
  | none => (s1.put (HEALTH_PERTN_STATE.el n) 2).raise PG_HEALTH HEALTH_ST_BADTONE
  | some _ =>
    let s2 := ((s1.zeroRange (demodAddr n 0) 512).put (HEALTH_PERTN_SETS.el n) 0).put (HEALTH_PERTN_STATE.el n) 1
    s2.setEs n { s2.es n with toneI := (s2.loadI (strAddr n + 0x1C) 4).natAbs, toneOff := false }

/-- A filter step of R222. -/
def zFilter (shift p m : Nat) : Nat :=
  if p = 0 then m else ((p : Int) + roundDiv ((m : Int) - p) ((2 ^ shift : Nat) : Int)).toNat

/-- The trend-free sums of a cell: numerators of x and y over one denominator (R220). -/
def State.toneXY (s : State) (n : Fin 16) (j nt pinc : Nat) : Int × Int × Int :=
  let a := demodAddr n j
  let kc := (List.range nt).foldl (fun (t : Int) (i : Nat) => t + (i : Int) * cosQ15 (i * pinc % 2 ^ 32)) 0
  let ks := (List.range nt).foldl (fun (t : Int) (i : Nat) => t + (i : Int) * sinQ15 (i * pinc % 2 ^ 32)) 0
  let s0 := s.loadI a 8
  let s1 := s.loadI (a + 8) 8
  let sc := s.loadI (a + 16) 8
  let ss := s.loadI (a + 24) 8
  let m : Int := nt
  let bNum := 12 * s1 - 6 * (m - 1) * s0
  let bDen := m * (m * m - 1)
  (2 * (sc * bDen - bNum * kc), 2 * (ss * bDen - bNum * ks), 32768 * m * bDen)

/-- One cell's record after an accepted tone (R222).  A cell whose z_mag is above 65,535 is left alone. -/
def State.toneCell (s : State) (n : Fin 16) (k f nt pinc j : Nat) : State :=
  let c := 16 * (s.get (HEALTH_PERTN_MODULE.el n) - 1) + j
  let xy := s.toneXY n j nt pinc
  let zm := zMag xy.1 xy.2.1 xy.2.2 (s.get (BAL_PERTRES_A_I.at n))
  let zp := zPhase xy.1 xy.2.1 (s.getI (BAL_PERTRES_PH_I.at n))
  if 65535 < zm then s
  else
    let r := s.loadCell n c
    let sh := s.get HEALTH_PERT_Z_SHIFT
    if k = 0 then
      s.storeCell n c { r with rOhm := min 65535 (zFilter sh r.rOhm (zOhm zm zp)), conf := min 255 (r.conf + s.get HEALTH_CONFSTEP_CONF_STEP_OHM) }
    else
      let r1 := if k = 1 then { r with zMag := zm, zPh := zp } else r
      let th := zTheta zm zp r.rOhm
      if 1500 ≤ th ∧ th ≤ 7500 then
        s.storeCell n c { r1 with
          tauPol := min 65535 (zFilter sh r.tauPol (zTau zm zp r.rOhm f)),
          rPol := min 65535 (zFilter sh r.rPol (zPol zm zp r.rOhm)),
          conf := min 255 (r.conf + s.get HEALTH_CONFSTEP_CONF_STEP_POL) }
      else s.storeCell n c r1

/-- The last set has been taken: the tone is accepted or rejected (Table 7); accepted, it updates the cells `first` to `first + count - 1`. -/
def State.toneEnd (s : State) (n : Fin 16) (first count k f r nt : Nat) : State :=
  let inj := s.injOn PG_HEALTH 2
  let s0 := (s.injTake PG_HEALTH 2).put (HEALTH_PERTN_STATE.el n) 2
  let ip := min 2000 (s0.get HEALTH_PERT_I_PERT)
  if inj || decide (2 * s0.get (BAL_PERTRES_A_I.at n) < ip) || (s0.es n).toneOff then
    s0.raise PG_HEALTH HEALTH_ST_ZREJ
  else
    let pinc := (roundDiv ((2 ^ 32 * f : Nat) : Int) r).toNat
    let c0 := 16 * (s0.get (HEALTH_PERTN_MODULE.el n) - 1)
    let js := (List.range 16).filter fun j => decide (first ≤ c0 + j) && decide (c0 + j < first + count)
    let s1 := js.foldl (fun (t : State) (j : Nat) => t.toneCell n k f nt pinc j) s0
    (s1.bump (hwChan n + 20) 4 1).raise PG_HEALTH HEALTH_ST_ZDONE

/-- One set of a FETCH segment is added to the sums of the cells of the range (R220). -/
def State.demodSet (s : State) (n : Fin 16) (first count m i pinc a : Nat) : State :=
  (List.range 16).foldl
    (fun (t : State) (j : Nat) =>
      let c := 16 * (m - 1) + j
      if c < first ∨ first + count ≤ c then t
      else
        let v : Int := beNat (t.bytes (a + 2 * j) 2)
        let d := demodAddr n j
        let th := i * pinc % 2 ^ 32
        (((t.storeI d 8 (t.loadI d 8 + v)).storeI (d + 8) 8 (t.loadI (d + 8) 8 + i * v)).storeI (d + 16) 8
          (t.loadI (d + 16) 8 + v * cosQ15 th)).storeI (d + 24) 8 (t.loadI (d + 24) 8 + v * sinQ15 th)) s

/-- The sets of a segment in ascending order: sets already taken are skipped, a missing one abandons the tone (R220, R221). -/
def State.demodSets (s : State) (n : Fin 16) (first count m k f r nt seg : Nat) : Nat → State
  | 0 => s
  | q + 1 =>
    let t := State.demodSets s n first count m k f r nt seg q
    let i := beNat (t.bytes (seg + 2) 2) + q
    let sets := t.get (HEALTH_PERTN_SETS.el n)
    if t.get (HEALTH_PERTN_STATE.el n) ≠ 1 ∨ i < sets then t
    else if sets < i then t.toneAbort n
    else
      let pinc := (roundDiv ((2 ^ 32 * f : Nat) : Int) r).toNat
      let t1 := (t.demodSet n first count m i pinc (seg + 6 + 32 * q)).put (HEALTH_PERTN_SETS.el n) (sets + 1)
      if sets + 1 = nt then t1.toneEnd n first count k f r nt else t1

/-- An ESTUPD with PASS 1 (R220, R221).  It takes sets only for cells of its range that belong to the segment's module; with none it takes none. -/
def State.estDemod (s : State) (n : Fin 16) (first count : Nat) : State :=
  if s.get (HEALTH_PERTN_STATE.el n) ≠ 1 then s
  else
    let k := s.get (HEALTH_PERTN_TONE.el n)
    let m := s.get (HEALTH_PERTN_MODULE.el n)
    if s.sel n m ≠ 1 then s.toneAbort n
    else
      match s.tone k with
      | none => s
      | some (f, r, nt) =>
        let a := 0x1A0000 + 4 * s.get (HEALTH_PBUF_BUF.el n)
        if bitsOf (s.load a 4) 16 8 ≠ 0 ∨ s.load (a + 12) 1 % 64 ≠ m ∨ 16 * m ≤ first ∨ first + count ≤ 16 * (m - 1) then s
        else s.demodSets n first count m k f r nt (a + 12) (min 32 (s.load (a + 16) 1))

/-! ### The lifetime flush (R225 to R228) -/

/-- A word of the lifetime records is written where it changes; the count of words written. -/
def flushWord (p : State × Nat) (a v : Nat) : State × Nat :=
  if p.1.load a 4 = v then p else (p.1.store a 4 v, p.2 + 1)

/-- Whole units of an accumulator of `n` bytes move to a 4-byte counter; the remainder stays (R227). -/
def flushAcc (p : State × Nat) (acc n unit a : Nat) : State × Nat :=
  let v := p.1.load acc n
  flushWord (p.1.store acc n (v % unit), p.2) a (min 0xFFFFFFFF (p.1.load a 4 + v / unit))

/-- One channel's words (R227). -/
def flushChan (p : State × Nat) (n : Nat) : State × Nat :=
  let w := hwChan n
  let a := 0x240040 + 16 * n
  flushAcc (flushAcc (flushAcc (flushAcc p w 8 3600000 a) (w + 8) 8 3600000 (a + 4)) (w + 16) 4 1000 (a + 8)) (w + 20) 4 1 (a + 12)

/-- One module's words: throughput in Ah from the string's and its own charge, and selector operations (R227). -/
def flushMod (p : State × Nat) (n m : Nat) : State × Nat :=
  let w := hwMod n m
  let a := 0x240400 + 8 * (n * 40 + m - 1)
  let v := p.1.load (w + 4) 4
  let q := p.1.load (hwStr n) 8 + p.1.load w 4 + v % 0x400000
  let ops := v / 0x400000
  let s1 := (p.1.store w 4 0).store (w + 4) 4 (q % 3600000)
  flushWord (flushWord (s1, p.2) a (min 0xFFFFFFFF (p.1.load a 4 + q / 3600000))) (a + 4) (min 0xFFFFFFFF (p.1.load (a + 4) 4 + ops))

/-- One cell's words, with its pending counts (R227). -/
def flushCell (p : State × Nat) (i : Nat) : State × Nat :=
  let s := p.1
  let a := 0x242000 + 8 * i
  let pend := s.load (0x1C1000 + i) 1
  let rec_ := 0x100000 + 48 * i
  let w0 := min 0xFFFF (s.load a 2 + pend % 16) + min 0xFFFF (s.load (a + 2) 2 + pend / 16) * 0x10000
  let w1 := s.load (rec_ + 6) 2 + s.load (rec_ + 8) 2 * 0x10000
  flushWord (flushWord (s.store (0x1C1000 + i) 1 0, p.2) a w0) (a + 4) w1

/-- The cells, from the one at which the last flush stopped, until 16 KiB of words have changed, the header's five among them; the next cell to
begin with. -/
def flushCells : Nat → Nat → State × Nat → Nat × (State × Nat)
  | 0, i, p => (i, p)
  | fuel + 1, i, p => if 4089 < p.2 then (i, p) else flushCells fuel ((i + 1) % 10240) (flushCell p i)

/-- The entries of module `m` of string `n` at 0 before its pending counts are added (Table 12, CMD OP 2). -/
def State.retireModule (s : State) (n m : Nat) : State :=
  let s1 := s.zeroRange (0x240400 + 8 * (n * 40 + m - 1)) 8
  (s1.zeroRange (0x242000 + 8 * (n * 640 + 16 * (m - 1))) 128).raise PG_HEALTH HEALTH_ST_RETIRED

/-- The flush's writes (R227); `retire` is the module of CMD OP 2; `bad` the words whose attic read is uncorrectable; `verify`
whether every write verified (R228, R372). -/
def State.flush (s : State) (retire : Option (Nat × Nat)) (bad : List Nat) (verify : Bool) : State :=
  let inj := s.injOn PG_HEALTH 1
  let s0 := s.injTake PG_HEALTH 1
  let isBad := bad.any fun a => decide (0x240000 ≤ a) && decide (a < 0x260000)
  let s1 := if isBad then s0.err PG_HEALTH HEALTH_ERR_LIFEREAD else s0
  let s2 := bad.foldl (fun (t : State) a => if 0x240000 ≤ a ∧ a < 0x260000 then t.store (a / 4 * 4) 4 0 else t) s1
  let s3 := if s2.est.lifeInit then { (s2.zeroRange 0x240000 0x20000) with est.lifeInit := false } else s2
  let s4 := match retire with | some (n, m) => s3.retireModule n m | none => s3
  let p1 := (List.range 16).foldl flushChan (s4, 0)
  let p2 := (List.range 8).foldl (fun p i => flushAcc p (hwFeed i) 4 1 (0x240140 + 4 * i)) p1
  let p3 := (List.range 15).foldl (fun p r => flushAcc p (hwRail r) 4 1000 (0x240160 + 4 * r)) p2
  let p4 := (List.range 16).foldl (fun p b => flushAcc p (hwHist b) 4 60000 (0x2401A0 + 4 * b)) p3
  let p5 := (List.range 640).foldl (fun p i => flushMod p (i / 40) (i % 40 + 1)) p4
  let p6 := ((List.range 16).foldl (fun (t : State) n => t.store (hwStr n) 8 0) p5.1, p5.2)
  let res := flushCells 10240 s.est.flushNext p6
  let next := res.1
  let p7 := res.2
  let s5 := { p7.1 with est.flushNext := next }
  let s6 := (((s5.store 0x240000 4 0x4546494C).store 0x240004 4 1).store 0x240008 4 (min 0xFFFFFFFF (s5.load 0x240008 4 + 1))).store
    0x24000C 8 s5.cellar.count
  let s7 := s6.put HEALTH_FLUSHES_COUNT (s6.load 0x240008 4)
  let s8 := if verify && !inj then s7 else s7.errI PG_HEALTH HEALTH_ERR_VERIFY inj
  s8.raise PG_HEALTH HEALTH_ST_FLUSHDONE

/-- The lifetime header is read at RISE (R228). -/
def State.lifeCheck (s : State) : State :=
  if s.load 0x240000 4 = 0x4546494C ∧ s.load 0x240004 4 = 1 then s.put HEALTH_FLUSHES_COUNT (s.load 0x240008 4)
  else { (s.err PG_HEALTH HEALTH_ERR_LIFEINIT) with est.lifeInit := true }

/-- The function reset of HEALTH abandons every tone (R229). -/
def State.healthReset (s : State) : State :=
  (List.finRange 16).foldl
    (fun (t : State) (n : Fin 16) => if t.get (HEALTH_PERTN_STATE.el n) = 1 then t.toneAbort n else t) s

end Sys2Proof.Machine
end

