-- ==== Sys2Proof/Machine/Pwm.lean ====
section
/-! DEFINITION. PWM outputs and their registers (R94, R95, Table 6 of schedule images). -/

namespace Sys2Proof.Machine

/-- An output's values. -/
def State.pwmOut (s : State) (o : Nat) : PwmOut := (s.pwm[o]?).getD ⟨0, 0, 0, 0, 0, 0, 0, 0, 0⟩

/-- The state with an output's values replaced. -/
def State.setPwm (s : State) (o : Nat) (x : PwmOut) : State := { s with pwm := s.pwm.setIfInBounds o x }

/-- Shadow value of a field: 0 period, 1 phase, 2 duty. -/
def State.pwmShadow (s : State) (o field v : Nat) : State :=
  let x := s.pwmOut o
  s.setPwm o (match field with
    | 0 => { x with shPeriod := v % 2 ^ 24 }
    | 1 => { x with shPhase := v % 2 ^ 24 }
    | _ => { x with shDuty := v % 2 ^ 24 })

/-- PWMLOAD: the shadow value, or VALUE, moves into the output's active register (R94). -/
def State.pwmLoad (s : State) (o field : Nat) (imm : Option Nat) : State :=
  let x := s.pwmOut o
  let v := fun (sh : Nat) => imm.getD sh
  s.setPwm o (match field with
    | 0 => { x with acPeriod := v x.shPeriod }
    | 1 => { x with acPhase := v x.shPhase }
    | 2 => { x with acDuty := v x.shDuty }
    | _ => { x with acPeriod := v x.shPeriod, acPhase := v x.shPhase, acDuty := v x.shDuty })

/-- A period boundary of an output that switches every `tsw` ns: it uses its active values from now on, over its unit's own period of 8 steps a
nanosecond (R16, R95, R234). -/
def State.pwmBoundary (s : State) (o tsw : Nat) : State :=
  let x := s.pwmOut o
  s.setPwm o { x with shPeriod := 8 * tsw, acPeriod := 8 * tsw, period := 8 * tsw, phase := x.acPhase, duty := x.acDuty }

/-- An output whose unit sets phase and duty itself. -/
def State.pwmSet (s : State) (o phase duty : Nat) : State :=
  let x := s.pwmOut o
  s.setPwm o { x with shPhase := phase, acPhase := phase, phase := phase, shDuty := duty, acDuty := duty, duty := duty }

end Sys2Proof.Machine
end

