-- ==== Sys2Proof/Machine/Bal.lean ====
section
/-! DEFINITION. Balancing channels: senses, control law, states, charge, overlay (chapter 10). -/

namespace Sys2Proof.Machine

/-- Channel `n` beside its registers. -/
def State.bs (s : State) (n : Fin 16) : BalS := s.bal[n]

/-- The state with it replaced. -/
def State.setBs (s : State) (n : Fin 16) (x : BalS) : State := { s with bal := s.bal.set n x }

/-- The page of channel `n`. -/
def balPage (n : Fin 16) : Nat := PG_BAL + n

/-- The channel's state code (Table 4). -/
def State.balCode (s : State) (n : Fin 16) : Nat := s.get (BAL_STATE_CODE.at n)

/-- Whether a state code is SOFT, ACTIVE or STOPPING. -/
def balRunning (c : Nat) : Bool := c == 2 || c == 3 || c == 4

/-- The group enable follows the channels of the group (R242). -/
def State.syncGroup (s : State) (n : Fin 16) : State :=
  let g := n.val / 4
  let on := (List.range 4).any fun i => balRunning (s.get (BAL_STATE_CODE.at (4 * g + i)))
  (List.range 4).foldl (fun (t : State) i => t.put (BAL_STATE_GROUPEN.at (4 * g + i)) (b2n on)) s

/-- The mode a running channel works in: 1 power in RUN, 2 droop in RIDE (R240). -/
def State.balMode (s : State) : Nat := match s.mode with | .run => 1 | .ride => 2 | _ => 0

/-- The channel enters a state; MODE keeps the law it runs, power or droop, which STATE shows while the references run, and the group enable follows
(R240 to R242). -/
def State.setBalCode (s : State) (n : Fin 16) (c : Nat) : State :=
  ((s.put (BAL_STATE_CODE.at n) c).put (BAL_STATE_MODE.at n) (if balRunning c then s.balMode else 0)).syncGroup n

/-- The switching period in ns (R234). -/
def State.balTsw (s : State) (n : Fin 16) : Nat :=
  match s.get (BAL_CFG_FSW.at n) with
  | 0 => 20000
  | 2 => 5000
  | _ => 10000

/-- PERIOD of PB's phase register in 125 ps steps (R234). -/
def State.balPeriod (s : State) (n : Fin 16) : Nat := s.balTsw n * 8

/-- The module on the channel, 0 if none. -/
def State.balCur (s : State) (n : Fin 16) : Nat := s.get (BAL_SELSTATE_CUR.at n)

/-- PB's phase register for φ (R234). -/
def State.balPhase (s : State) (n : Fin 16) (phi : Int) : Nat :=
  let p : Int := s.balPeriod n
  ((roundDiv (phi * p) 65536) % p).toNat

/-- φ set by the channel itself, with the compensator frozen or cleared: PHI and PB's phase at 50 % duty (R234, R243, R244). -/
def State.balSetPhi (s : State) (n : Fin 16) (phi : Int) : State :=
  (s.putI (BAL_PHI_PHI.at n) phi).pwmSet (2 * n + 1) (s.balPhase n phi) (s.balPeriod n / 2)

/-- A selection is in progress on the channel (R253). -/
def State.selBusy (s : State) (n : Fin 16) : Bool := s.get (BAL_SELSTATE_STEP.at n) != 0

/-! ### Senses (R232) -/

/-- A scaled code: round((CODE - ofs) × gain / den). -/
def scaleCode (code : Nat) (ofs : Int) (gain den : Nat) : Int := roundDiv (((code : Int) - ofs) * gain) den

/-- P_BUS of the latest senses (R245). -/
def State.balPower (s : State) (n : Fin 16) : Int := roundDiv (s.getI (BAL_I_CS_I.at n) * s.get (BAL_VOLT_V_HB.at n)) 100

/-- P_BUS shows the latest power. -/
def State.syncPower (s : State) (n : Fin 16) : State := s.putI (BAL_P_BUS_P.at n) (s.balPower n)

/-- BUSOV follows V_HB and V_BUSMAX (R237, Table 9). -/
def State.busovSync (s : State) (n : Fin 16) : State :=
  s.level (balPage n) BAL_ST_BUSOV (decide (s.get (BAL_BUSLIM_V_BUSMAX.at n) < s.get (BAL_VOLT_V_HB.at n)))

/-- A result delivered to a channel input (Table 3). -/
def State.balInput (s : State) (n : Fin 16) (din code : Nat) : State :=
  match din with
  | 0 =>
    let i := scaleCode code (2048 + s.getI (BAL_CSCAL_OFFSET.at n)) (s.get (BAL_CSCAL_GAIN.at n)) 16
    let s1 := (s.putI (BAL_I_CS_I.at n) i).syncPower n
    s1.setBs n { s1.bs n with gotCs := true }
  | 1 =>
    let v := scaleCode code (s.getI (BAL_VSCAL_VOFS.at n)) (s.get (BAL_VSCAL_VGAIN.at n)) 256
    s.put (BAL_VOLT_V_MOD.at n) (clampI 0 65535 v).toNat
  | 2 =>
    let v := scaleCode code (s.getI BAL_VHBCAL_VOFS) (s.get BAL_VHBCAL_VGAIN) 256
    (List.finRange 16).foldl (fun (t : State) (k : Fin 16) => ((t.put (BAL_VOLT_V_HB.at k) (clampI 0 65535 v).toNat).syncPower k).busovSync k)
      (s.put PACK_MEAS_V_HB (clampI 0 65535 v).toNat)
  | _ => s.raise (balPage n) BAL_ST_BADIN

/-! ### The control law (R236 to R239) -/

/-- Whether a COMP in this cycle is effective for a unit with switching period `tsw` ns (R236). -/
def State.compEffective (s : State) (tsw : Nat) : Bool :=
  let m := tsw / (s.tCyc * 1000)
  decide (m < 2) || s.lamp.cycleCount % m == 0

/-- Whether a COMP of channel `n` is effective in this cycle. -/
def State.balEffective (s : State) (n : Fin 16) : Bool := s.compEffective (s.balTsw n)

/-- The soft-start limit now (R243). -/
def State.balIss (s : State) (n : Fin 16) : Int :=
  let imax : Int := s.get (BAL_LIMIT_I_MAX.at n)
  if s.balCode n = 2 then
    let t : Int := (atLeast1 (s.get (BAL_SOFT_T_SS.at n)) * 400000 : Nat)
    clampI 0 imax (imax * (s.tMarker - (s.bs n).ssStart) / t)
  else imax

/-- The reference before its limits, and the limits (R237). -/
def State.balRef (s : State) (n : Fin 16) : Int × Int × Int :=
  let vhb := s.get (BAL_VOLT_V_HB.at n)
  let vd := max vhb 1000
  let vmod := s.get (BAL_VOLT_V_MOD.at n)
  let plim := s.get (BAL_LIMIT_P_MAX.at n) * (8 - s.get (BAL_STATE_THROTTLE.at n))
  let top : Int := min (s.get (BAL_LIMIT_I_MAX.at n) : Int) (roundDiv (plim * 100000 : Nat) (8 * vd : Nat))
  let hi1 := if s.on (BAL_CFG_DIS_EN.at n) then top else 0
  let lo1 := if s.on (BAL_CFG_CHG_EN.at n) then -top else 0
  let hi2 := if s.get (BAL_BUSLIM_V_BUSMAX.at n) < vhb then min hi1 0 else hi1
  if s.get (BAL_STATE_MODE.at n) = 2 then
    (roundDiv (((s.get (BAL_DROOP_V_RIDE.at n) : Int) - vhb) * 10000) (atLeast1 (s.get (BAL_DROOP_R_DROOP.at n)) : Nat), 0, hi2)
  else
    let base := roundDiv (s.getI (BAL_PSET_P_SET.at n) * 100000) vd
    let ov :=
      if s.on (BAL_STATE_OVERLAY.at n) then
        roundDiv ((min 2000 (s.get HEALTH_PERT_I_PERT) : Nat) * sinQ15 (s.bs n).ovPhase * vmod) (32768 * vd : Nat)
      else 0
    (base - ov, lo1, hi2)

/-- The overlay ends: OVLEND, and A_I reported as 0 when it ended before its window had passed (R248). -/
def State.overlayEnd (s : State) (n : Fin 16) : State :=
  if !s.on (BAL_STATE_OVERLAY.at n) then s
  else
    let s1 := (s.put (BAL_STATE_OVERLAY.at n) 0).raise (balPage n) BAL_ST_OVLEND
    if (s1.bs n).burstAt.isSome then
      (s1.put (BAL_PERTRES_A_I.at n) 0).setBs n { s1.bs n with burstAt := none }
    else s1

/-- Whether the channel may carry the overlay (R247). -/
def State.overlayAllowed (s : State) (n : Fin 16) : Bool :=
  s.on (BAL_CFG_PERT_EN.at n) && s.balCode n == 3 && s.get (BAL_STATE_MODE.at n) == 1 &&
    s.balCur n == s.get (HEALTH_PERTN_MODULE.el n) && s.balCur n != 0

/-- The overlay ends in the clock in which one of its conditions ends, or its tone (R247). -/
def State.overlayCheck (s : State) (n : Fin 16) : State :=
  if s.on (BAL_STATE_OVERLAY.at n) && (!s.overlayAllowed n || s.get (HEALTH_PERTN_STATE.el n) != 1) then s.overlayEnd n else s

/-- φ_MAX and U_CLAMP: above 16,384 they act as 16,384 (R239). -/
def phiLimit (v : Nat) : Int := (min 16384 v : Nat)

/-- A compensator coefficient, Q2.22. -/
def State.balCoef (s : State) (f : Fld) (n : Fin 16) : Int := toSigned 24 (s.get (f.at n))

/-- One effective update of the channel's compensator (R237, R238, R247): φ and the compensator states. -/
def State.balComp (s : State) (n : Fin 16) (shadow : Bool) : State :=
  let s := s.overlayCheck n
  let code := s.balCode n
  if !s.balEffective n || !(code == 2 || code == 3) then s
  else
    let x := s.bs n
    let vhb := s.get (BAL_VOLT_V_HB.at n)
    let s0 := s.busovSync n
    let iss := s0.balIss n
    let r := s0.balRef n
    let iref := clampI (max r.2.1 (-iss)) (min r.2.2 iss) r.1
    let e := iref - s0.getI (BAL_I_CS_I.at n)
    let ucl := phiLimit (s0.get (BAL_CLAMP_U_CLAMP.at n)) * 2 ^ 22
    let acc := (s0.balCoef BAL_B0_COEF n * e + s0.balCoef BAL_B1_COEF n * x.e1 + s0.balCoef BAL_B2_COEF n * x.e2) * 2 ^ 22 -
      s0.balCoef BAL_A1_COEF n * x.u1 - s0.balCoef BAL_A2_COEF n * x.u2
    let u := clampI (-ucl) ucl (roundDiv acc (2 ^ 22))
    let ff :=
      if s0.on (BAL_CFG_FF_EN.at n) && s0.get (BAL_KDAB_K_DAB.at n) != 0 then
        dabPhase (iref * vhb) (s0.get (BAL_KDAB_K_DAB.at n)) (max 1000 (s0.get (BAL_VOLT_V_MOD.at n))) (max 1000 vhb)
      else 0
    let dmax : Int := atLeast1 (s0.get (BAL_DPHI_DPHI_MAX.at n))
    let prev := s0.getI (BAL_PHI_PHI.at n)
    let pmax := phiLimit (s0.get (BAL_CLAMP_PHI_MAX.at n))
    let phi := clampI (-pmax) pmax (clampI (prev - dmax) (prev + dmax) (ff + roundDiv u (2 ^ 22)))
    let s1 := ((s0.putI (BAL_PHI_PHI.at n) phi).putI (BAL_PHI_PHI_FF.at n) ff).setBs n
      { x with e2 := x.e1, e1 := e, u2 := x.u1, u1 := u,
               ovPhase := (x.ovPhase + (roundDiv ((2 ^ 32 * s0.get (HEALTH_TONE_FREQ.el (s0.get (HEALTH_PERTN_TONE.el n))) * s0.balTsw n : Nat) : Int)
                 10000000000).toNat) % 2 ^ 32 }
    if shadow then s1.pwmShadow (2 * n + 1) 1 (s1.balPhase n phi) else s1

/-! ### The overlay (R247, R248) -/

/-- The tone's sets over its rate, in units of 2.5 ns. -/
def State.toneSpan (s : State) (n : Fin 16) : Int :=
  match s.tone (s.get (HEALTH_PERTN_TONE.el n)) with
  | none => 0
  | some (_, r, nt) => ((nt * 4000000000 / r : Nat) : Int)

/-- A START reaches the channel: an overlay running ends, a new one is awaited (R247). -/
def State.overlayRequest (s : State) (n : Fin 16) : State :=
  let s1 := s.overlayEnd n
  (s1.put (BAL_PERTRES_A_I.at n) 0).setBs n { s1.bs n with ovReq := true, burstAt := none }

/-- The first cycle marker after a START (R247). -/
def State.overlayMarker (s : State) (n : Fin 16) : State :=
  let x := s.bs n
  if x.ovReq then
    if s.overlayAllowed n && s.get (HEALTH_PERTN_STATE.el n) == 1 then
      (s.put (BAL_STATE_OVERLAY.at n) 1).setBs n { x with ovReq := false, ovPhase := 0, ovTheta0 := 0, ovCos := 0, ovSin := 0, ovN := 0 }
    else s.setBs n { x with ovReq := false }
  else s.overlayCheck n

/-- An instant notice from the link engine (R246, R248); `clocks` LOOP clocks after the cycle marker, for a BURST ARM its DELAY. -/
def State.instantNotice (s : State) (n : Fin 16) (clocks : Nat) (burst : Option Nat) : State :=
  let t := s.tMarker + ((clocks * 8 / 5 : Nat) : Int)
  match burst with
  | none => s.setBs n { s.bs n with latchAt := some t }
  | some d => s.setBs n { s.bs n with burstAt := some (t + 40000 * (d : Int)), ovCos := 0, ovSin := 0, ovN := 0 }

/-- θ over a time of `dt` units of 2.5 ns at the tone's frequency. -/
def State.toneAngle (s : State) (n : Fin 16) (dt : Int) : Nat :=
  ((roundDiv (2 ^ 32 * (s.get (HEALTH_TONE_FREQ.el (s.get (HEALTH_PERTN_TONE.el n))) : Int) * dt) 4000000000) % 2 ^ 32).toNat

/-- The correlation of one switching period that began at `t0` (R248).  θ(t_S0) is θ in the period that holds t_S0, advanced from its start to
t_S0. -/
def State.correlate (s : State) (n : Fin 16) (t0 : Int) : State :=
  let x := s.bs n
  match x.burstAt with
  | none => s
  | some b =>
    if !s.on (BAL_STATE_OVERLAY.at n) || decide (t0 < b) then s.setBs n { x with ovTheta0 := x.ovPhase + s.toneAngle n (b - t0) }
    else if t0 < b + s.toneSpan n then
      let th := (x.ovPhase + 2 ^ 32 - x.ovTheta0 % 2 ^ 32) % 2 ^ 32
      s.setBs n { x with ovCos := x.ovCos + x.iMod * cosQ15 th, ovSin := x.ovSin + x.iMod * sinQ15 th, ovN := x.ovN + 1 }
    else
      ((s.put (BAL_PERTRES_A_I.at n) (overlayAmp x.ovCos x.ovSin x.ovN)).putI (BAL_PERTRES_PH_I.at n)
        (overlayPhase x.ovCos x.ovSin)).setBs n { x with burstAt := none }

/-! ### Stops and starts (R233, R241 to R244, R250) -/

/-- The references go low and the compensator is cleared. -/
def State.balRefsLow (s : State) (n : Fin 16) : State :=
  let s1 := s.overlayEnd n
  (s1.balSetPhi n 0).setBs n { s1.bs n with refs := false, e1 := 0, e2 := 0, u1 := 0, u2 := 0, stopLeft := 0, padMis := false }

/-- The channel goes to OFF at once (R241, R257). -/
def State.balOff (s : State) (n : Fin 16) : State :=
  let s1 := s.balRefsLow n
  let s2 := s1.setBs n { s1.bs n with checkDue := false, stopToOff := false, stopFail := false, senseWait := false, startDue := false }
  if s.balCode n = 6 then s2.setBalCode n 6 else s2.setBalCode n 0

/-- Every channel goes to OFF at once and every group enable falls (R241). -/
def State.balAllOff (s : State) : State := (List.finRange 16).foldl (fun (t : State) (n : Fin 16) => t.balOff n) s

/-- A stop of the channel at once, with no ramp and no stop check: STOPPED, its module kept closed (R233, R251). -/
def State.balStopNow (s : State) (n : Fin 16) : State :=
  let s1 := s.balRefsLow n
  (s1.setBs n { s1.bs n with checkDue := false, stopToOff := false, startDue := false }).setBalCode n (if (s.bs n).stopToOff then 0 else 1)

/-- A stop is made (R244); `off` when the channel then goes to OFF.  A channel that is not running has nothing to ramp; one whose stop check
failed stays with its references low, and a stop made again checks its current again (DEDUCED, log entry 193). -/
def State.balStop (s : State) (n : Fin 16) (off : Bool) : State :=
  let c := s.balCode n
  let x := s.bs n
  if c = 2 ∨ c = 3 then
    let s1 := s.overlayEnd n
    let y := s1.bs n
    (s1.setBs n { y with stopPhi := s1.getI (BAL_PHI_PHI.at n), stopLeft := s1.get (BAL_SOFT_N_STOP.at n), stopToOff := off }).setBalCode n 4
  else if c = 4 then s.setBs n { x with stopToOff := x.stopToOff || off, checkDue := x.checkDue || x.stopFail, stopFail := false }
  else if off && (c == 1 || c == 5) then s.balOff n
  else s

/-- STOP_CHECK: 2 × T_SW after the references went low the current is compared with ±I_ZERO (R244).  With the current outside, the channel
stays as it is, its references low.  The Bool says that a check was made. -/
def State.stopCheck (s : State) (n : Fin 16) : Bool × State :=
  let x := s.bs n
  if !x.checkDue then (false, s)
  else
    let inj := s.injOn (balPage n) 3
    let s0 := s.injTake (balPage n) 3
    let bad := inj || decide (100 * s0.get (BAL_SOFT_I_ZERO.at n) < (s0.getI (BAL_I_CS_I.at n)).natAbs)
    if bad then (true, (s0.setBs n { x with checkDue := false, stopFail := true }).errI (balPage n) BAL_ERR_STOPFAIL inj)
    else
      (true, ((s0.setBs n { x with checkDue := false, stopToOff := false }).setBalCode n (if x.stopToOff then 0 else 1)).raise (balPage n) BAL_ST_STOPPED)

/-- A channel with a closed module that is OFF for no reason left stands STOPPED: its page enabled again, or the halt strand released (Table 4). -/
def State.balStand (s : State) (n : Fin 16) : State :=
  let m := s.balCur n
  if s.balCode n = 0 ∧ m ≠ 0 ∧ s.sel n m = 1 ∧ s.enabled (balPage n) ∧ (s.mode = .run ∨ s.mode = .ride) ∧ !s.on FAULT_HOLDS_HALT then s.setBalCode n 1
  else s

/-- A soft start is due at the next round boundary at which it may be made (R243, R359). -/
def State.balDue (s : State) (n : Fin 16) : State := s.setBs n { s.bs n with startDue := true }

/-- A stale link stops its channel, which soft-starts once the link and the module are valid again (R243, R244). -/
def State.balStale (s : State) (n : Fin 16) : State := (s.balStop n false).balDue n

/-- Whether a channel that stands may soft-start at this round boundary: one of the cases of R243 has come, or the halt strand has released (R359). -/
def State.balStartable (s : State) (n : Fin 16) : Bool :=
  let c := s.balCode n
  let m := s.balCur n
  (c == 0 || c == 1) && (s.bs n).startDue && m != 0 && s.sel n m == 1 && s.blockOn (balPage n) && (s.mode == .run || s.mode == .ride) && s.usable n &&
    !(s.lk n).stale && !s.selBusy n && !(s.bs n).stopFail && !(s.bs n).senseWait && !(s.bs n).checkDue && !s.on FAULT_HOLDS_HALT

/-- When the references of a channel that starts now may begin: 20 µs later when the group enable was low, also where another channel of the
group, which starts at the same boundary, has just raised it (R242). -/
def State.groupLead (s : State) (n : Fin 16) : Int :=
  if !s.on (BAL_STATE_GROUPEN.at n) then s.tMarker + 8000
  else
    (List.finRange 16).foldl
      (fun (t : Int) (k : Fin 16) => if k.val / 4 = n.val / 4 ∧ s.balCode k = 2 then max t (s.bs k).leadUntil else t) s.tMarker

/-- A soft start (R242, R243). -/
def State.softStart (s : State) (n : Fin 16) : State :=
  let lead := s.groupLead n
  let s1 := s.balSetPhi n 0
  (s1.setBs n { s1.bs n with startDue := false, padMis := false, stopFail := false, e1 := 0, e2 := 0, u1 := 0, u2 := 0, ssStart := s1.tMarker, leadUntil := lead, refs := false, limRun := 0 }).setBalCode n 2

/-- i_ss reaches I_MAX (R243). -/
def State.softDone (s : State) (n : Fin 16) : State :=
  if s.balCode n = 2 then
    (((s.setBs n { s.bs n with goodMs := 0 }).setBalCode n 3).raise (balPage n) BAL_ST_SOFTDONE)
  else s

/-- T_HIC has passed: the channel soft-starts at the next round boundary (R250). -/
def State.hicEnd (s : State) (n : Fin 16) : State :=
  if s.balCode n = 5 then (s.setBalCode n (if s.balCur n = 0 then 0 else 1)).balDue n else s

/-- Four periods without I_CS (R233). -/
def State.balSenseLoss (s : State) (n : Fin 16) : State :=
  if balRunning (s.balCode n) && (s.bs n).refs then
    let s1 := (s.err (balPage n) BAL_ERR_SENSE).balStopNow n
    s1.setBs n { s1.bs n with senseWait := true, okPeriods := 0, gotCs := false }
  else s

/-! ### The period boundary (R234, R244, R245, R249 to R251) -/

/-- Charge and energy of the period that ends (R245); mA × ns and mW × ns. -/
def State.balAccumulate (s : State) (n : Fin 16) : State :=
  let x := s.bs n
  let p := s.balPower n
  let eta := fun (f : Fld) => (if s.get (f.at n) = 0 then 65535 else (s.get (f.at n)) : Nat)
  let pmod := if 0 ≤ p then roundDiv (p * 65536) (eta BAL_ETA_ETA_D : Nat) else roundDiv (p * (eta BAL_ETA_ETA_C : Nat)) 65536
  let imod := roundDiv (-pmod * 100) (max 1000 (s.get (BAL_VOLT_V_MOD.at n)) : Nat)
  let t := s.balTsw n
  s.setBs n { x with iMod := imod, qAcc := x.qAcc + imod * t, eOut := x.eOut + p.toNat * t, eIn := x.eIn + (-p).toNat * t }

/-- A limited cycle, or a good one (R249, R250). -/
def State.balLimited (s : State) (n : Fin 16) (acted : Bool) : State :=
  let x := s.bs n
  if !acted then s.setBs n { x with limRun := 0 }
  else
    let s1 := ((s.put (BAL_COUNTS_LIMCYC.at n) (satInc 4095 (s.get (BAL_COUNTS_LIMCYC.at n)))).raise (balPage n) BAL_ST_LIMITED).setBs n
      { x with limRun := x.limRun + 1, goodMs := 0 }
    if x.limRun + 1 < atLeast1 (s1.get (BAL_HICCUP_N_HIC.at n)) then s1
    else
      let s2 := s1.balRefsLow n
      let s3 := (s2.setBs n { s2.bs n with limRun := 0, hicRun := x.hicRun + 1 }).put (BAL_COUNTS_HIC.at n)
        (satInc 127 (s2.get (BAL_COUNTS_HIC.at n)))
      let s4 := s3.raise (balPage n) BAL_ST_HICCUP
      let hm := s4.get (BAL_HICCUP_HICMAX.at n)
      if hm ≠ 0 ∧ hm ≤ x.hicRun + 1 then (s4.setBalCode n 6).err (balPage n) BAL_ERR_HICLOCK else s4.setBalCode n 5

/-- The ramp of a stop (R244): from the first boundary after the request φ falls to 0 over N_STOP periods, and the references are held low from the
boundary at which it is 0. -/
def State.balRamp (s : State) (n : Fin 16) : State :=
  let x := s.bs n
  if s.balCode n ≠ 4 ∨ x.checkDue ∨ x.stopFail then s
  else if x.stopLeft = 0 then
    let s1 := s.balSetPhi n 0
    s1.setBs n { s1.bs n with refs := false, checkDue := true, e1 := 0, e2 := 0, u1 := 0, u2 := 0, padMis := false }
  else
    (s.balSetPhi n (roundDiv (x.stopPhi * (x.stopLeft : Int)) (atLeast1 (s.get (BAL_SOFT_N_STOP.at n)) : Nat))).setBs n { x with stopLeft := x.stopLeft - 1 }

/-- Pad readback at a boundary while the references run (R251). -/
def State.balReadback (s : State) (n : Fin 16) (padsBad : Bool) : State :=
  let inj := s.injOn (balPage n) 1
  let s0 := s.injTake (balPage n) 1
  let bad := padsBad || inj
  if bad && (s0.bs n).padMis then
    let s1 := (s0.setBs n { s0.bs n with padMis := false }).errI (balPage n) BAL_ERR_READBACK inj
    s1.balStopNow n
  else s0.setBs n { s0.bs n with padMis := bad }

/-- A switching period boundary of output 2n (R234, R245, R246, R249, R250, R251). -/
def State.balBoundary (s : State) (n : Fin 16) (padsBad : Bool) : State :=
  let t0 := (s.bs n).perT
  let tsw : Int := s.balTsw n * 2 / 5
  let now := if t0 < s.tMarker then s.tMarker else t0 + tsw
  let x0 := s.bs n
  let half := s.balPeriod n / 2
  let sA := (s.pwmBoundary (2 * n) (s.balTsw n)).pwmBoundary (2 * n + 1) (s.balTsw n)
  let s0 := (sA.pwmSet (2 * n) 0 half).pwmSet (2 * n + 1) (sA.pwmOut (2 * n + 1)).acPhase half
  let s1 := s0.setBs n { x0 with perT := now, gotCs := false, okPeriods := if x0.gotCs then x0.okPeriods + 1 else 0 }
  let s2 := if (s1.bs n).senseWait ∧ 4 ≤ (s1.bs n).okPeriods then s1.setBs n { s1.bs n with senseWait := false, startDue := true } else s1
  let res := s2.cmpBoundary n
  let acted := res.1
  let s3 := res.2
  let run := (s3.bs n).refs
  let s4 := if run then (s3.balAccumulate n).correlate n t0 else s3.setBs n { s3.bs n with iMod := 0 }
  let s5 :=
    match (s4.bs n).latchAt with
    | some t => if t < now then (s4.putI (BAL_IMOD_TI_I.at n) (if run then (s4.bs n).iMod else 0)).setBs n { s4.bs n with latchAt := none } else s4
    | none => s4
  let s6 := if run then (s5.balReadback n padsBad).balLimited n acted else s5
  let s7 := s6.balRamp n
  if s7.balCode n = 2 && !(s7.bs n).refs && decide ((s7.bs n).leadUntil ≤ now) then s7.setBs n { s7.bs n with refs := true } else s7

/-! ### Rounds and markers -/

/-- The round boundary of one channel: charge and energy handed on, running time, soft starts (R243, R245, R250). -/
def State.balRound (s : State) (n : Fin 16) : State :=
  let x := s.bs n
  let q := x.qAcc.tdiv 1000000000
  let eo := x.eOut / 1000000000
  let ei := x.eIn / 1000000000
  let s1 := ((s.putI (BAL_ROUNDQ_Q.at n) q).put (BAL_EOUT_E.at n) eo).put (BAL_EIN_E.at n) ei
  let s2 := ((s1.bump (hwChan n) 8 eo).bump (hwChan n + 8) 8 ei).bump (hwChan n + 16) 4 (b2n x.ranRound)
  let good := if s.balCode n = 3 then x.goodMs + 1 else 0
  let s3 := s2.setBs n { x with qAcc := x.qAcc - q * 1000000000, eOut := x.eOut % 1000000000, eIn := x.eIn % 1000000000,
                                goodMs := min 1000 good, hicRun := if 1000 ≤ good then 0 else x.hicRun }
  let sB := s3.balStand n
  let s4 := if sB.balStartable n then sB.softStart n else sB
  s4.setBs n { s4.bs n with ranRound := balRunning (s4.balCode n) }

/-- The class switch: running channels move between power and droop mode with their states kept (R241). -/
def State.balClass (s : State) : State :=
  (List.finRange 16).foldl
    (fun (t : State) (n : Fin 16) =>
      if balRunning (t.balCode n) then
        let t1 := t.put (BAL_STATE_MODE.at n) t.balMode
        if t.balMode = 2 then t1.overlayEnd n else t1
      else t) s

end Sys2Proof.Machine
end

