-- ==== Sys2Proof/Machine/Adc.lean ====
section
/-! DEFINITION. Sampling: converter banks, sequence tables, delivery of results, FIFO, calibration (chapter 05). -/

namespace Sys2Proof.Machine

/-- Bank `b` of the state. -/
def State.bank (s : State) (b : Fin 4) : AdcS := s.adc[b]

/-- The state with bank `b` replaced. -/
def State.setBank (s : State) (b : Fin 4) (x : AdcS) : State := { s with adc := s.adc.set b x }

/-- The page of bank `b`. -/
def adcPage (b : Fin 4) : Nat := PG_ADC + b

/-- The field holding the slice that serves position `p`. -/
def adcPos (b : Fin 4) (p : Nat) : Fld := (ADC_STATE_P0.sh (4 * (p % 4))).at b

/-- A field of a bank's page. -/
abbrev adcF (f : Fld) (b : Fin 4) : Fld := f.at b

/-- Whether an input number of a bank is reserved (R105, Tables 2 to 4). -/
def adcReserved (b : Fin 4) (i : Nat) : Bool :=
  if 56 ≤ i then false
  else if b.val < 2 then decide (16 ≤ i)
  else if b.val = 2 then i == 11 || decide (20 ≤ i)
  else i == 39

/-- Whether an input is bipolar (R105, Tables 2 to 4); a reserved or internal input reads as unipolar (DESIGN CHOICE, log entry 163). -/
def adcBipolar (b : Fin 4) (i : Nat) : Bool :=
  if b.val < 2 then decide (i < 8)
  else if b.val = 2 then i == 1 || i == 4 || i == 5 || i == 7 || i == 9
  else decide (i < 16)

/-- The corrected CODE of an entry whose input stands at `uv` microvolts (R107): 4,096 times the gain times the voltage over 2.4 V, rounded,
about 2,048 for a bipolar input, clamped to 12 bits. -/
def adcCode (b : Fin 4) (cfg : Nat) (uv : Int) : Nat :=
  let r := roundDiv (4096 * 2 ^ bitsOf cfg 12 2 * uv) 2400000
  (clampI 0 4095 (if adcBipolar b (bitsOf cfg 0 6) then 2048 + r else r)).toNat

/-- Whether a compensator input of a unit takes a result (R114). -/
def dinUnitOk (unit : Nat) : Bool := decide (unit ≤ 17) || unit == 32

/-! ### Tables -/

/-- The length of a table: a value above 16 acts as 16 (R108). -/
def State.seqLen (s : State) (b : Fin 4) (t : Nat) : Nat :=
  min 16 (s.get (adcF (ADC_SEQ_LEN_LEN0.sh (8 * (t % 4))) b))

/-- The configuration of the entry whose conversion gave the result register `i` its latest result, as the engine had copied it; 0 while it has
none (R109). -/
def State.resultCfg (s : State) (b : Fin 4) (i : Nat) : Nat := Sparse.get (fun _ => 0) (s.bank b).conv i

/-- The entries of a table as they stand (R109). -/
def State.seqEntries (s : State) (b : Fin 4) (t : Nat) : List (Nat × Nat) :=
  (List.range (s.seqLen b t)).map fun e =>
    ((s.rd (adcPage b * 0x400 + 0x100 + 8 * (16 * (t % 4) + e))).toNat,
     (s.rd (adcPage b * 0x400 + 0x104 + 8 * (16 * (t % 4) + e))).toNat)

/-- Whether the engine of a bank is busy (R111). -/
def State.bankBusy (s : State) (b : Fin 4) : Bool := s.on (adcF ADC_STATE_BUSY b) || s.dev.freset.contains (adcPage b)

/-- A table starts with the engine idle: the engine copies it and is busy; a table of length 0 completes at once; a disabled
bank converts nothing and sets TRIGOFF; without the SAMPLE clock nothing starts (R109, R111, R112, R126). -/
def State.startTable (s : State) (b : Fin 4) (t : Nat) : State :=
  if !s.dev.pll then s
  else if !s.enabled (adcPage b) then s.raise (adcPage b) ADC_ST_TRIGOFF
  else if s.seqLen b t = 0 then s.raise (adcPage b) (ADC_ST_DONE + t % 4)
  else
    (((s.put (adcF ADC_STATE_BUSY b) 1).put (adcF ADC_STATE_SEQ b) (t % 4)).setBank b
      { s.bank b with table := s.seqEntries b t })

/-- A write of SWTRIG: GO starts a table, or it is refused while the engine is busy (R112, Table 6). -/
def State.swTrig (s : State) (b : Fin 4) (v : Nat) : State :=
  if !bitOf v 8 then s
  else if s.enabled (adcPage b) && s.bankBusy b then s.raise (adcPage b) ADC_ST_SWREJ
  else s.startTable b (v % 4)

/-- The last result of the running table is delivered: the engine is free and STATUS.DONEs is set (R111). -/
def State.seqDone (s : State) (b : Fin 4) : State :=
  if s.on (adcF ADC_STATE_BUSY b) && !s.dev.freset.contains (adcPage b) then
    let t := s.get (adcF ADC_STATE_SEQ b)
    ((s.put (adcF ADC_STATE_BUSY b) 0).setBank b { s.bank b with table := [] }).raise (adcPage b) (ADC_ST_DONE + t)
  else s

/-! ### FIFO -/

/-- FIFO_CFG.THR: 0 acts as 1, above 64 as 64 (Table 24). -/
def State.fifoThr (s : State) (b : Fin 4) : Nat := clampN 1 64 (s.get (adcF ADC_FIFO_CFG_THR b))

/-- The FIFO of a bank holds `q`: LEVEL and the FIFO_THR level follow (Table 9). -/
def State.setFifo (s : State) (b : Fin 4) (q : List Nat) : State :=
  let s1 := (s.setBank b { s.bank b with fifo := q }).put (adcF ADC_FIFO_STAT_LEVEL b) q.length
  s1.level (adcPage b) ADC_ST_FIFO_THR (decide (s1.fifoThr b ≤ q.length))

/-- A result arrives at the FIFO (Table 9). -/
def State.fifoPush (s : State) (b : Fin 4) (w : Nat) : State :=
  if (s.bank b).fifo.length < 64 then s.setFifo b ((s.bank b).fifo ++ [w])
  else
    (s.put (adcF ADC_FIFO_STAT_DROPS b) (satInc 255 (s.get (adcF ADC_FIFO_STAT_DROPS b)))).raise
      (adcPage b) ADC_ST_FIFO_OVF

/-- A read of FIFO_DATA: the oldest word, removed; 0 when the FIFO is empty (R117). -/
def State.fifoPop (s : State) (b : Fin 4) : Nat × State :=
  match (s.bank b).fifo with
  | [] => (0, s)
  | w :: t => (w, s.setFifo b t)

/-! ### Results -/

/-- The persistence threshold of an entry: 1, 2, 4 or 8 (R116). -/
def persistN (cfg : Nat) : Nat := 2 ^ bitsOf cfg 26 2

/-- Whether a code lies outside the limits of an entry (R116). -/
def outside (cfg lim code : Nat) : Bool :=
  if bitOf cfg 28 then
    decide ((code : Int) - 2048 < toSigned 12 (bitsOf lim 0 12)) || decide (toSigned 12 (bitsOf lim 16 12) < (code : Int) - 2048)
  else decide (code < bitsOf lim 0 12) || decide (bitsOf lim 16 12 < code)

/-- The LIMFLAG field of an entry. -/
def limFlag (b : Fin 4) (t e : Nat) : Fld :=
  ⟨adcPage b, if t < 2 then 0x060 else 0x064, 0, 16 * (t % 2) + e % 16, 1⟩

/-- The limit check of a result: the count, the flag and the action of Table 8.  Answers OOL with the state (R116). -/
def State.limitCheck (s : State) (b : Fin 4) (t e cfg lim code : Nat) : Bool × State :=
  if bitsOf cfg 24 2 = 0 then
    (false, (s.setBank b { s.bank b with pers := Sparse.put (fun _ => 0) (s.bank b).pers (16 * t + e) 0 }).put (limFlag b t e) 0)
  else
    let inj := s.injOn (adcPage b) 1
    let s1 := s.injTake (adcPage b) 1
    let bad := inj || outside cfg lim code
    let n := if bad then min 255 (Sparse.get (fun _ => 0) (s.bank b).pers (16 * t + e) + 1) else 0
    let ool := decide (persistN cfg ≤ n)
    let s2 := (s1.setBank b { s1.bank b with pers := Sparse.put (fun _ => 0) (s1.bank b).pers (16 * t + e) n }).put
      (limFlag b t e) (b2n ool)
    let s3 :=
      if ool && bitsOf cfg 24 2 == 2 then s2.raise (adcPage b) ADC_ST_LIMIT
      else if ool && bitsOf cfg 24 2 == 3 then s2.errI (adcPage b) ADC_ERR_LIMIT inj
      else s2
    (ool, s3)

/-- A word of the STORE input table (R115), the same format as a result register. -/
def storeInput (i : Nat) : Nat := 0x1B5000 + 4 * (i % 64)

/-- The slice that converts entry `e` of a bank's running table: the one serving its position, or the released one when the conversion began before
a hand-over (R113, R120); 7 at a position no slice serves. -/
def State.convSlice (s : State) (b : Fin 4) (inp : Nat) (onReleased : Bool) : Nat :=
  if onReleased then s.get (adcF ADC_CAL_SLICE b) else s.get (adcPos b inp)

/-- The result of entry `e` of the running table with corrected code `c`, whose sampling instant lies `ago` cycles back: checked, stamped and at its
destinations in the bank and the STORE (R110, R113 to R117). -/
def State.deliver (s : State) (b : Fin 4) (e cfg lim slice c ago : Nat) : State :=
  let pg := adcPage b
  let t := s.get (adcF ADC_STATE_SEQ b)
  let stamp := (s.get (adcF ADC_COUNT_CYCLE b) + 65536 - ago % 65536) % 65536
  let res := s.limitCheck b t e cfg lim c
  let ool := res.1
  let s2 := res.2
  let w := stamp * 65536 + b2n ool * 32768 + slice * 4096 + c
  let s3 := (s2.wr (pg * 0x400 + 0x300 + 4 * (16 * t + e)) (BitVec.ofNat 32 w)).setBank b
    { s2.bank b with conv := Sparse.put (fun _ => 0) (s2.bank b).conv (16 * t + e) cfg }
  match bitsOf cfg 14 2 with
  | 1 => s3.fifoPush b (stamp % 1024 * 0x400000 + t * 0x100000 + e * 0x10000 + 0x8000 + slice * 4096 + c)
  | 2 =>
    if dinUnitOk (bitsOf cfg 16 6) then s3 else s3.raise pg ADC_ST_BADENT
  | 3 => s3.store (storeInput (bitsOf cfg 16 6)) 4 w
  | _ => s3

/-! ### Calibration -/

/-- Slice `x` of a bank begins calibrating. -/
def State.calBegin (s : State) (b : Fin 4) (x : Nat) : State :=
  (s.put (adcF ADC_CAL_BUSY b) 1).put (adcF ADC_CAL_SLICE b) x

/-- The hand-over of position `p` to the spare: the spare serves it, the released slice calibrates, HANDOVER is set (R120). -/
def State.handover (s : State) (b : Fin 4) (p : Nat) : State :=
  let x := s.get (adcPos b p)
  let y := s.get (adcF ADC_STATE_SPARE b)
  (((s.put (adcPos b p) y).put (adcF ADC_STATE_SPARE b) 7).calBegin b x).raise (adcPage b) ADC_ST_HANDOVER

/-- A background step of a bank at its designated round (R119 to R121).  The step that a retry takes leaves the rotation where it is (DESIGN CHOICE,
log entry 164). -/
def State.calStep (s : State) (b : Fin 4) : State :=
  let k := s.bank b
  if !s.dev.pll || k.sweeping || !s.on (adcF ADC_CAL_CTRL_BGEN b) || s.get (adcF ADC_STATE_RETIRED b) != 0 || s.on (adcF ADC_CAL_BUSY b) ||
      s.get (adcF ADC_COUNT_ROUND32 b) != 8 * b.val then s
  else
    match k.retry with
    | some x => s.calBegin b x
    | none =>
      if s.get (adcF ADC_STATE_SPARE b) = 7 then s
      else (s.handover b k.nextPos).setBank b { k with nextPos := (k.nextPos + 1) % 4 }

/-- The position of the lowest number whose slice has not been calibrated in the sweep. -/
def State.sweepPos (s : State) (b : Fin 4) : Option Nat :=
  (List.range 4).find? fun p => s.get (adcPos b p) != 7 && !bitOf (s.bank b).swept (s.get (adcPos b p))

/-- The retired slice of the lowest number that has not been calibrated in the sweep. -/
def State.sweepRetired (s : State) (b : Fin 4) : Option Nat :=
  (List.range 5).find? fun x => bitOf (s.get (adcF ADC_STATE_RETIRED b)) x && !bitOf (s.bank b).swept x

/-- A bank's part of the sweep ends; when every bank has ended, the long operation ends, with a pass when none retired a slice (R122). -/
def State.sweepBankEnd (s : State) (b : Fin 4) : State :=
  let s1 := (s.setBank b { s.bank b with sweeping := false, swept := 0 }).put (adcF ADC_STATE_SWEEP b) 0
  if s1.adc.toList.any (·.sweeping) then s1
  else
    let s2 := (List.finRange 4).foldl (fun t c => t.put (adcF ADC_CAL_CTRL_SWEEP c) 0) s1
    s2.longEnd (b2n (s2.adc.toList.any (·.sweepFail)))

/-- The sweep's next calibration in a bank: a retired slice, else a step at the lowest position; or the bank's end (R122). -/
def State.sweepNext (s : State) (b : Fin 4) : State :=
  match s.sweepRetired b with
  | some x => s.calBegin b x
  | none =>
    match s.sweepPos b with
    | some p => if s.get (adcF ADC_STATE_SPARE b) = 7 then s.sweepBankEnd b else s.handover b p
    | none => s.sweepBankEnd b

/-- A bank begins its part of the sweep: a retired slice first, a slice calibrating goes on, a slice waiting for its retry
next, otherwise a step (R122). -/
def State.sweepBegin (s : State) (b : Fin 4) : State :=
  let s1 := (s.setBank b { s.bank b with sweeping := true, swept := 0, sweepFail := false, retry := none }).put (adcF ADC_STATE_SWEEP b) 1
  if s1.on (adcF ADC_CAL_BUSY b) then s1
  else
    match (s.bank b).retry with
    | some x => s1.calBegin b x
    | none => s1.sweepNext b

/-- A write of CAL_CTRL.SWEEP starts the forced sweep of all four banks, long operation 5 (R122). -/
def State.calSweep (s : State) : State :=
  if s.busy then s
  else
    let s1 := (List.finRange 4).foldl (fun t c => t.put (adcF ADC_CAL_CTRL_SWEEP c) 1) (s.longStart 5)
    (List.finRange 4).foldl (fun t c => t.sweepBegin c) s1

/-- A sweep that a flush cuts off (R46, R227): nothing of it goes on, and its slices that calibrate are given up with it (DESIGN CHOICE, log entry
165). -/
def State.sweepAbandon (s : State) (b : Fin 4) : State :=
  let s1 := s.setBank b { s.bank b with sweeping := false, swept := 0 }
  (((s1.put (adcF ADC_STATE_SWEEP b) 0).put (adcF ADC_CAL_CTRL_SWEEP b) 0).put (adcF ADC_CAL_BUSY b) 0).put (adcF ADC_CAL_SLICE b) 7

/-- Whether a calibration passes (R118): the offset within 16 LSB, the gain error within 2 %, both verifications within 2 LSB. -/
def calPass (m : CalMeas) : Bool :=
  decide (m.offset.natAbs ≤ 16 * 16) && decide (100 * m.gain.natAbs ≤ 2 * 65536) && decide (m.mid.natAbs ≤ 2) && decide (m.top.natAbs ≤ 2)

/-- The trims of slice `x` after a passed calibration (R118); a correction of +16 LSB, which OFFSET cannot hold, is stored as the largest it holds
(DESIGN CHOICE, log entry 166). -/
def State.setTrim (s : State) (b : Fin 4) (x : Nat) (m : CalMeas) : State :=
  (s.putI (adcF (ADC_TRIM_GAIN.el x) b) m.gain).putI (adcF (ADC_TRIM_OFFSET.el x) b) (clampI (-256) 255 m.offset)

/-- A slice that passed becomes the spare; with a spare there already it serves the lowest position that has none (R122; DESIGN CHOICE for the second,
log entry 167). -/
def State.placeSlice (s : State) (b : Fin 4) (x : Nat) : State :=
  if s.get (adcF ADC_STATE_SPARE b) = 7 then s.put (adcF ADC_STATE_SPARE b) x
  else
    match (List.range 4).find? fun p => s.get (adcPos b p) == 7 with
    | some p => s.put (adcPos b p) x
    | none => s

/-- The calibration of the slice that calibrates ends with what it measured, passing or failing (R118, R121, R122).  STATUS_RAW.NOSPARE stands
while a slice is retired. -/
def State.calDone (s : State) (b : Fin 4) (m : CalMeas) : State :=
  if !s.dev.pll || !s.on (adcF ADC_CAL_BUSY b) || s.get (adcF ADC_CAL_SLICE b) == 7 then s
  else
    let pg := adcPage b
    let inj := s.injOn pg 2
    let s0 := s.injTake pg 2
    let x := s0.get (adcF ADC_CAL_SLICE b)
    let ok := calPass m && !inj
    let s1 := ((s0.put (adcF ADC_CAL_BUSY b) 0).put (adcF ADC_CAL_SLICE b) 7).put (adcF ADC_CAL_COUNT b)
      (s0.get (adcF ADC_CAL_COUNT b) + 1)
    let s2 := s1.put (adcF ADC_CAL_LASTOK b) (putBit (s1.get (adcF ADC_CAL_LASTOK b)) x ok)
    let k := s2.bank b
    if ok then
      let ret := putBit (s2.get (adcF ADC_STATE_RETIRED b)) x false
      let s3 := ((s2.setTrim b x m).placeSlice b x).put (adcF ADC_STATE_RETIRED b) ret
      let s4 := (s3.setBank b { k with retry := none, swept := putBit k.swept x k.sweeping }).level pg ADC_ST_NOSPARE (decide (ret ≠ 0))
      if k.sweeping then s4.sweepNext b else s4
    else if k.sweeping || k.retry == some x then
      let s3 := ((s2.put (adcF ADC_STATE_RETIRED b) (putBit (s2.get (adcF ADC_STATE_RETIRED b)) x true)).setBank b
        { k with retry := none, sweepFail := k.sweeping }).errI pg ADC_ERR_CALFAIL inj
      let s4 := s3.level pg ADC_ST_NOSPARE true
      if k.sweeping then s4.sweepBankEnd b else s4
    else (s2.setBank b { k with retry := some x }).raise pg ADC_ST_CALRETRY

/-- The start-up calibration of a bank begins with the PLL's lock: CAL.BUSY shows it, and SLICE names none of the five (R123; DEDUCED, log
entry 168). -/
def State.calStartBegin (s : State) : State := (List.finRange 4).foldl (fun t b => t.put (adcF ADC_CAL_BUSY b) 1) s

/-- The start-up calibration of one bank: the passing slices serve P0 to P3 and the spare in ascending order, the others are retired (R123;
with three or fewer passing, that they are shown RETIRED is a DESIGN CHOICE, log entry 169). -/
def State.calStartBank (s : State) (b : Fin 4) (res : List CalMeas) : State :=
  let pg := adcPage b
  let good := (List.range 5).filter fun k => ((res[k]?).map calPass).getD false
  let s1 := good.foldl (fun t k => match res[k]? with | some m => t.setTrim b k m | none => t) s
  let s2 := (List.range 4).foldl (fun t p => t.put (adcPos b p) ((good[p]?).getD 7)) s1
  let s3 := s2.put (adcF ADC_STATE_SPARE b) ((good[4]?).getD 7)
  let bad := (List.range 5).filter fun k => !good.contains k
  let s4 := s3.put (adcF ADC_STATE_RETIRED b) (bad.foldl (fun m k => m + 2 ^ k) 0)
  let s5 := s4.put (adcF ADC_CAL_LASTOK b) (good.foldl (fun m k => m + 2 ^ k) 0)
  let s6 := ((s5.put (adcF ADC_CAL_COUNT b) (s5.get (adcF ADC_CAL_COUNT b) + 5)).put (adcF ADC_CAL_BUSY b) 0).put (adcF ADC_CAL_SLICE b) 7
  let s7 := s6.setBank b { s6.bank b with nextPos := 0, retry := none, sweeping := false, swept := 0 }
  let s8 := s7.level pg ADC_ST_NOSPARE (decide (good.length < 5))
  if good.length = 5 then s8
  else if good.length = 4 then s8.err pg ADC_ERR_CALFAIL
  else s8.err pg ADC_ERR_BANKFAIL

/-- The SAMPLE clock stops: no conversion and no calibration goes on (R126).  What ran is given up; the start-up calibration of the next RISE
maps every slice again. -/
def State.samplingStops (s : State) : State :=
  (List.finRange 4).foldl
    (fun t b =>
      (((t.setBank b { t.bank b with table := [], retry := none }).put (adcF ADC_STATE_BUSY b) 0).put (adcF ADC_CAL_BUSY b) 0).put (adcF ADC_CAL_SLICE b) 7) s

/-- The word a cleared result register or STORE input table word holds (R126). -/
def clearedResult : Word := 0x7000

/-- The result registers, the STORE input table and the FIFO are cleared, as at the end of every RISE (R126). -/
def State.clearResults (s : State) : State :=
  let s1 := (List.finRange 4).foldl
    (fun t b => (List.range 64).foldl (fun u i => u.wr (adcPage b * 0x400 + 0x300 + 4 * i) clearedResult) (t.setFifo b [])) s
  (List.range 64).foldl (fun t i => t.store (storeInput i) 4 0x7000) s1

/-- The function reset of a bank stops its conversions; results not yet delivered, the FIFO and the persistence counts are gone, and with the
counts the limit flags that show them.  The engine is busy until the reset completes (R112, R116, R117, R34). -/
def State.adcReset (s : State) (b : Fin 4) : State :=
  let s1 := (s.setBank b { s.bank b with table := [], pers := [] }).setFifo b []
  (s1.wr (adcPage b * 0x400 + 0x060) 0).wr (adcPage b * 0x400 + 0x064) 0

/-- The function reset of a bank completes: the engine is free (R112). -/
def State.adcResetDone (s : State) (b : Fin 4) : State := s.put (adcF ADC_STATE_BUSY b) 0

/-- The persistence count of an entry is set to 0 (R116). -/
def State.persClear (s : State) (b : Fin 4) (i : Nat) : State :=
  (s.setBank b { s.bank b with pers := Sparse.put (fun _ => 0) (s.bank b).pers i 0 }).put (limFlag b (i / 16) (i % 16)) 0

/-- Register `off` of a bank's tables has been written over `old`: changing an entry's CHK, PERSIST or limits sets its persistence count to 0
(R116), and so does changing SGN, the form its limits take (DEDUCED, log entry 170). -/
def State.entryWritten (s : State) (b : Fin 4) (off : Nat) (old : Word) : State :=
  let chg := (old ^^^ s.rd (adcPage b * 0x400 + off)).toNat
  if off % 8 = 4 ∧ chg ≠ 0 ∨ off % 8 = 0 ∧ bitsOf chg 24 5 ≠ 0 then s.persClear b ((off - 0x100) / 8) else s

/-- Register `off` of a bank's tables takes a value. -/
def State.putEntry (s : State) (b : Fin 4) (off : Nat) (v : Word) : State :=
  (s.wr (adcPage b * 0x400 + off) v).entryWritten b off (s.rd (adcPage b * 0x400 + off))

/-- The configuration word of a built-in entry: input, TS = 1, destination. -/
def builtinEntry (inp dest unit din : Nat) : Nat := inp + 1 * 0x100 + dest * 0x4000 + unit * 0x10000 + din * 0x400000

/-- One built-in table: its length and its entries' registers. -/
def State.putTable (s : State) (b : Fin 4) (t : Nat) (cfgs : List Nat) : State :=
  let s1 := s.put (adcF (ADC_SEQ_LEN_LEN0.sh (8 * t)) b) cfgs.length
  (List.range cfgs.length).foldl
    (fun u e => (u.putEntry b (0x100 + 8 * (16 * t + e)) (BitVec.ofNat 32 (nth cfgs e))).putEntry b (0x104 + 8 * (16 * t + e)) 0) s1

/-- The built-in sequence tables are loaded and ADCC and ADCD enabled (R125, Table 13). -/
def State.loadBuiltinTables (s : State) : State :=
  let r0 := fun (l : List Nat) => l.map fun i => builtinEntry i 0 0 0
  let s1 := s.putTable 2 0
    [builtinEntry 0 2 17 2, builtinEntry 1 0 0 0, builtinEntry 2 0 0 0, builtinEntry 4 2 32 0, builtinEntry 5 2 32 2,
     builtinEntry 6 2 32 1, builtinEntry 7 2 17 0, builtinEntry 10 2 17 1]
  let s2 := s1.putTable 2 1 (r0 [12, 13, 14, 15, 16, 17, 18, 19, 3])
  let s3 := s2.putTable 3 0 (r0 (List.range 16))
  let s4 := s3.putTable 3 1 (r0 ((List.range 16).map (· + 16)))
  let s5 := s4.putTable 3 2 (r0 [32, 33, 34, 35, 36, 37, 38, 40, 41, 42, 43, 44, 45, 46, 47])
  let s6 := s5.putTable 3 3 (r0 ((List.range 8).map (· + 48)))
  (s6.wr (hdrAddr (adcPage 2) hdrCTRL) (s6.rd (hdrAddr (adcPage 2) hdrCTRL) ||| 1)).wr (hdrAddr (adcPage 3) hdrCTRL)
    (s6.rd (hdrAddr (adcPage 3) hdrCTRL) ||| 1)

end Sys2Proof.Machine
end

