-- ==== Sys2Proof/Machine/Therm.lean ====
section
/-! DEFINITION. Temperature and throttling (chapter 15). -/

namespace Sys2Proof.Machine

/-! ### Readings -/

/-- The temperature of AUX input `m` in 1/16 °C, if valid (R346). -/
def State.auxTemp (s : State) (m : Nat) : Option Int :=
  if m < 8 ∧ s.on (THERM_AUXT_VALID.el m) then some (s.getI (THERM_AUXT_T.el m)) else none

/-- The temperature of die sensor `k`, if valid (R345). -/
def State.dieTemp (s : State) (k : Nat) : Option Int :=
  if k < 12 ∧ s.on (THERM_TS_VALID.el k) then some (s.getI (THERM_TS_T.el k)) else none

/-- TEMP_MAX, if valid (R347). -/
def State.tempMax (s : State) : Option Int :=
  if s.on THERM_TEMP_MAX_VALID then some (s.getI THERM_TEMP_MAX_T) else none

/-- The highest valid die sensor; on ties the lower number (R345). -/
def State.hottest (s : State) : Option (Nat × Int) :=
  (List.range 12).foldl
    (fun best k =>
      match s.dieTemp k, best with
      | none, b => b
      | some t, none => some (k, t)
      | some t, some (j, u) => if u < t then some (k, t) else some (j, u)) none

/-- TEMP_MAX follows the die sensors; with none valid ERR.STALE is set (R345, R347). -/
def State.syncTempMax (s : State) (inj : Bool) : State :=
  match s.hottest with
  | some (k, t) => ((s.put THERM_TEMP_MAX_VALID 1).put THERM_TEMP_MAX_SENSOR k).putI THERM_TEMP_MAX_T t
  | none => (s.put THERM_TEMP_MAX_VALID 0).errI PG_THERM THERM_ERR_STALE inj

/-- A result of die sensor `k` taken at gain 2^g (R345). -/
def State.dieResult (s : State) (k g code : Nat) (stale : Bool) : State :=
  let t := 400 + roundDiv (((code : Int) - (Config.tsC25 k * 2 ^ g : Nat)) * Config.tsSlope k) (256 * 2 ^ g : Nat)
  let clamped := decide (0 < g) && decide (4095 ≤ code)
  if clamped || decide (t < -800) || decide (2800 < t) then
    ((s.put (THERM_TS_VALID.el k) 0).err PG_THERM THERM_ERR_TSFAIL).syncTempMax false
  else ((s.putI (THERM_TS_T.el k) t).put (THERM_TS_VALID.el k) (b2n (!stale))).syncTempMax stale

/-- A result of AUX input `m` (R346, Table 2). -/
def State.auxResult (s : State) (m c : Nat) (stale : Bool) : State :=
  match s.get (THERM_AUXCFG_MODE.el m) with
  | 1 =>
    if c < 41 ∨ 4054 < c then (s.put (THERM_AUXT_VALID.el m) 0).err PG_THERM THERM_ERR_AUXFAIL
    else
      (s.putI (THERM_AUXT_T.el m) (ntcTemp c (s.get (THERM_AUXCFG_R_PU.el m)) (s.get (THERM_AUXNTC_R0.el m))
        (s.get (THERM_AUXNTC_BETA.el m)))).put (THERM_AUXT_VALID.el m) (b2n (!stale))
  | 2 =>
    (s.putI (THERM_AUXT_T.el m) (roundDiv (((c : Int) - s.getI (THERM_AUXNTC_R0.el m)) * s.getI (THERM_AUXNTC_BETA.el m)) 256)).put
      (THERM_AUXT_VALID.el m) (b2n (!stale))
  | _ => s.put (THERM_AUXT_VALID.el m) 0

/-- A written MODE of 0 or 3 makes the input no temperature (R346). -/
def State.auxModes (s : State) : State :=
  (List.range 8).foldl
    (fun (t : State) (m : Nat) =>
      let mode := t.get (THERM_AUXCFG_MODE.el m)
      if mode = 1 ∨ mode = 2 then t else t.put (THERM_AUXT_VALID.el m) 0) s

/-- The latest result of entry `e` of ADCD table `t` is handed to THERM, for the input and gain it was converted with (R344, R109). -/
def State.sensorResult (s : State) (t e : Nat) : State :=
  let i := 16 * (t % 4) + e % 16
  let cfg := s.resultCfg 3 i
  let code := (s.rd (adcPage 3 * 0x400 + 0x300 + 4 * i)).toNat % 4096
  let inp := bitsOf cfg 0 6
  let g := bitsOf cfg 12 2
  if 40 ≤ inp ∧ inp ≤ 51 then
    let stale := s.injOn PG_THERM 2
    (s.injTake PG_THERM 2).dieResult (inp - 40) g code stale
  else if 16 ≤ inp ∧ inp ≤ 23 then
    let stale := s.injOn PG_THERM 2
    (s.injTake PG_THERM 2).auxResult (inp - 16) code stale
  else s

/-- No result for a reading within T_STALE (R347): readings 0 to 11 are TSk, 12 to 19 AUXTm. -/
def State.readingStale (s : State) (r : Fin 20) : State :=
  if r.val < 12 then (s.put (THERM_TS_VALID.el r.val) 0).syncTempMax false else s.put (THERM_AUXT_VALID.el (r.val - 12)) 0

/-! ### Throttling (R348 to R350) -/

/-- TD_MAX and TC_MAX: above 8 acts as 8. -/
def State.tdMax (s : State) : Nat := min 8 (s.get THERM_CFG_TD_MAX)

/-- See `State.tdMax`. -/
def State.tcMax (s : State) : Nat := min 8 (s.get THERM_CFG_TC_MAX)

/-- One level's change against a reading and a threshold in °C + 40 (Table 4). -/
def throttleStep (reading : Option Int) (thr top level : Nat) : Nat :=
  let t : Int := ((thr : Int) - 40) * 16
  match reading with
  | none => min top (level + 1)
  | some r => if t < r then min top (level + 1) else if r < t - 80 then min top (level - 1) else min top level

/-- The field of TC_n. -/
def tcField (n : Fin 16) : Fld := if n.val < 8 then THERM_CHLVL0_TC.sh (4 * n.val) else THERM_CHLVL1_TC.sh (4 * (n.val - 8))

/-- The field of the channel's source. -/
def chSrc (n : Fin 16) : Fld := if n.val < 8 then THERM_CHSRC0_SRC.sh (4 * n.val) else THERM_CHSRC1_SRC.sh (4 * (n.val - 8))

/-- The die level becomes `v` and reaches the converters that report it (Table 3, R350). -/
def State.setTd (s : State) (v : Nat) : State :=
  let s1 := (List.range 4).foldl (fun (t : State) (i : Nat) => t.put (POL_STATE_THROTTLE.at i) v) (s.put THERM_LEVEL_TD v)
  let s2 := (List.range 2).foldl (fun (t : State) (i : Nat) => t.put (LDO_STATE_THROTTLE.el i) v) s1
  s2.level PG_THERM THERM_ST_THRMAX (v == s2.tdMax)

/-- A channel level becomes `v` and reaches the channel. -/
def State.setTc (s : State) (n : Fin 16) (v : Nat) : State := (s.put (tcField n) v).put (BAL_STATE_THROTTLE.at n) v

/-- One channel's judgement. -/
def State.judgeTc (s : State) (n : Fin 16) : State :=
  let src := s.get (chSrc n)
  let old := s.get (tcField n)
  let new :=
    if src = 0 ∨ 8 < src then 0
    else throttleStep (s.auxTemp (src - 1)) (s.get (THERM_AUXCFG_T_AUXTHR.el (src - 1))) s.tcMax old
  if new = old then s else (s.setTc n new).raise PG_THERM THERM_ST_CHSTEP

/-- One throttle judgement (R349, Table 4). -/
def State.throttleJudge (s : State) : State :=
  if !s.enabled PG_THERM then (List.finRange 16).foldl (fun (t : State) (n : Fin 16) => t.setTc n 0) (s.setTd 0)
  else
    let old := s.get THERM_LEVEL_TD
    let new := throttleStep s.tempMax (s.get THERM_CFG_T_THROTTLE) s.tdMax old
    let s1 := s.setTd new
    let s2 := if old < new then s1.raise PG_THERM THERM_ST_STEPUP else if new < old then s1.raise PG_THERM THERM_ST_STEPDN else s1
    (List.finRange 16).foldl (fun (t : State) (n : Fin 16) => t.judgeTc n) s2

/-- A judgement without a STEP write (R349); with CTRL.ENABLE = 0 none is made, and the levels are 0 (Table 4). -/
def State.throttleAuto (s : State) : State :=
  if s.enabled PG_THERM then s.throttleJudge.raise PG_THERM THERM_ST_AUTOSTEP else s.throttleJudge

/-! ### Shutdown (R351) -/

/-- Shutdown comparator `k` trips: its source's line pulses at every trip. -/
def State.thermTrip (s : State) (k : Fin 12) : State :=
  let inj := s.injOn PG_THERM 1
  let s0 := s.injTake PG_THERM 1
  let s1 := { s0 with therm.shut := putBit s0.therm.shut k.val true }
  let s2 := s1.wr (hdrAddr PG_THERM hdrERR) (s1.rd (hdrAddr PG_THERM hdrERR) ||| (1#32 <<< THERM_ERR_SHUT))
  (s2.pulse { src := 0, inj := inj, lo := 0, hi := 0 }).level PG_THERM THERM_ST_HOT true

/-- Every shutdown comparator has released (R352). -/
def State.thermCool (s : State) : State := { s with therm.shut := 0 }.level PG_THERM THERM_ST_HOT false

/-! ### Slow rounds (R226, R353, R354) -/

/-- The histogram bin of a temperature in 1/16 °C. -/
def histBin (t : Int) : Nat := if t < 0 then 0 else min 15 (1 + t.toNat / 160)

/-- The crystal correction in 0.1 ppm (R354). -/
def State.xtCorrection (s : State) (t : Int) : Int :=
  clampI (-32768) 32767 (roundDiv ((s.get THERM_XTAL_K : Int) * (t - s.getI THERM_XTAL_T0) * (t - s.getI THERM_XTAL_T0)) 25600)

/-- After a completed slow round: the histogram takes TEMP_MAX, and the corrections move (R226, R353, R354). -/
def State.slowRound (s : State) : State :=
  let now := s.tMarker
  let ms := match s.therm.lastSlow with | some t => ((now - t) / 400000).toNat | none => 0
  let s1 := { s with therm.lastSlow := some now }
  let s2 := match s1.tempMax with | some t => s1.bump (hwHist (histBin t)) 4 ms | none => s1
  let s3 :=
    match s2.dieTemp 11 with
    | none => s2
    | some t =>
      let g := s2.getI THERM_COMP_GRC
      let c := s2.getI THERM_COMP_CRC
      (s2.putI THERM_COMP_GRC (clampI (-128) 127 (g + clampI (-5) 5 (Config.rcTrim 0 t - g)))).putI THERM_COMP_CRC
        (clampI (-128) 127 (c + clampI (-1) 1 (Config.rcTrim 1 t - c)))
  let src := s3.get THERM_XTAL_XTSRC
  match (if src = 0 ∨ 8 < src then s3.dieTemp 11 else s3.auxTemp (src - 1)) with
  | some t => s3.putI THERM_COMP_XT (s3.xtCorrection t)
  | none => s3

end Sys2Proof.Machine
end

