-- ==== Sys2Proof/Machine/Inpath.lean ====
section
/-! DEFINITION. The input path (chapter 11, R258 to R266). -/

namespace Sys2Proof.Machine

/-- Whether the PLL islands are clocked (R9, R22): from the PLL lock of RISE until HIBERNATE, CELLAR or device reset. -/
def State.pllOn (s : State) : Bool := s.dev.pll

/-- The path's state code (Table 2). -/
def State.inpCode (s : State) : Nat := s.get INPATH_STATE_CODE

/-- The path enters state `c`: its levels follow (R279). -/
def State.setInp (s : State) (c : Nat) : State :=
  let s1 := ((s.put INPATH_STATE_CODE c).level PG_INPATH INPATH_ST_BLOCK (c == 4)).level PG_INPATH INPATH_ST_LIMIT (c == 3)
  (s1.level PG_INPATH INPATH_ST_UVOV (c == 5)).level PG_INPATH INPATH_ST_ON (c == 2)

/-- The path enters START (R261). -/
def State.inpStart (s : State) : State :=
  let s1 := { s with inp.ready := false, inp.startT := s.tMarker }
  s1.setInp 1

/-- Whether an entry to TRIPPED, UVOV or LOCKED from this state is a loss (R265). -/
def inpLossy (c : Nat) : Bool := c == 1 || c == 2 || c == 3 || c == 4

/-- STATUS.LOST on leaving state `c` that way; the ride detector sees the pulse at its next marker (R281). -/
def State.inpLost (s : State) (c : Nat) : State :=
  if inpLossy c then { s.raise PG_INPATH INPATH_ST_LOST with inp.lost := true } else s

/-- A trip: TRIPPED, or LOCKED when it falls within 10 s of START and the consecutive count reaches RETRY_MAX (Table 3). -/
def State.inpTrip (s : State) : State :=
  let c := s.inpCode
  let n := satInc 255 (s.get INPATH_STATE_CONSEC)
  let s1 := { s.put INPATH_STATE_CONSEC n with inp.ready := false }
  let s2 :=
    if s.tMarker < s.inp.startT + 4000000000 ∧ atLeast1 (s.get INPATH_CFG_RETRY_MAX) ≤ n then
      (s1.setInp 7).err PG_INPATH INPATH_ERR_LOCKED
    else (s1.setInp 6).put INPATH_COUNTS_TRIPS (satInc 255 (s1.get INPATH_COUNTS_TRIPS))
  s2.inpLost c

/-- The path goes to UVOV (R263). -/
def State.inpUvov (s : State) : State :=
  ({ s with inp.ready := false }.setInp 5).inpLost s.inpCode

/-- The path goes to OFF; LOCKED is left by a function reset only (Table 2). -/
def State.inpOff (s : State) : State :=
  if s.inpCode = 7 then s else { s with inp.ready := false }.setInp 0

/-- CTRL.ENABLE as it stands takes effect (Table 2, R266). -/
def State.inpEnable (s : State) : State :=
  if !s.blockOn PG_INPATH then s.inpOff
  else if s.inpCode = 0 && s.pllOn then s.inpStart
  else s

/-- An exit to START, held back in RIDE (R285). -/
def State.inpExit (s : State) : State := if s.mode == .ride then { s with inp.ready := true } else s.inpStart

/-- V_GS reaches 7 V in START (R261). -/
def State.inpEnhanced (s : State) : State := if s.inpCode = 1 then s.setInp 2 else s

/-- 100 ms in START without it (Table 2). -/
def State.inpStartTimeout (s : State) : State := if s.inpCode = 1 then s.inpTrip.err PG_INPATH INPATH_ERR_GATE else s

/-- V_SNS falls below -V_IREV, `after` 2.5 ns units after the last marker (R262, R266). -/
def State.inpReverse (s : State) (after : Nat) : State :=
  if s.mode == .hibernate then { s with inp.hibGate := false }
  else if s.inpCode = 2 ∨ s.inpCode = 3 then { s with inp.blockT := s.tMarker + after, inp.ready := false }.setInp 4
  else s

/-- V_SNS reaches V_ILIM in ON. -/
def State.inpLimit (s : State) : State := if s.inpCode = 2 then s.setInp 3 else s

/-- V_SNS exceeds V_IFAST with the gate charged (Table 3, R266). -/
def State.inpFast (s : State) : State :=
  if s.mode == .hibernate then { s with inp.hibGate := false }
  else if s.inpCode = 1 ∨ s.inpCode = 2 ∨ s.inpCode = 3 then s.inpTrip.raise PG_INPATH INPATH_ST_FASTTRIP
  else s

/-- The timed over-current or the held limit trips the path (Table 3). -/
def State.inpTimed (s : State) : State :=
  if s.inpCode = 1 ∨ s.inpCode = 2 ∨ s.inpCode = 3 then s.inpTrip.raise PG_INPATH INPATH_ST_OCTRIP else s

/-- V_IN has stayed within the hysteresis window for T_OVREC (R263). -/
def State.inpRecover (s : State) : State := if s.inpCode = 5 then s.inpExit else s

/-- T_IN_RETRY has passed in TRIPPED; the junction must have cooled (Table 3). -/
def State.inpRetry (s : State) : State :=
  if s.inpCode = 6 ∧ s.getI INPATH_TJ_T ≤ 16 * ((s.get INPATH_TFET_T_FET_MAX : Int) - 20) then
    (if s.mode == .ride then s else s.put INPATH_COUNTS_RETRY (satInc 255 (s.get INPATH_COUNTS_RETRY))).inpExit
  else s

/-- 60 s in ON or BLOCK without a trip. -/
def State.inpConsecReset (s : State) : State :=
  if s.inpCode = 2 ∨ s.inpCode = 4 then s.put INPATH_STATE_CONSEC 0 else s

/-- Four cycles without an IN_CS result (R260). -/
def State.inpSenseLoss (s : State) : State := s.err PG_INPATH INPATH_ERR_SENSE

/-- The ADCC result named in a field of INPATH.SRC: its code. -/
def State.inpSource (s : State) (f : Fld) : Nat := (s.rd (adcPage 2 * 0x400 + 0x300 + 4 * s.get f)).toNat % 4096

/-- A result is handed to the input path (R260): 0 IN_CS, 1 IN_VS, 2 VHB. -/
def State.inpResult (s : State) (which : Fin 3) : State :=
  match which with
  | 0 =>
    s.putI INPATH_I_IN_I (scaleCode (s.inpSource INPATH_SRC_CS) (2048 + s.getI INPATH_CSCAL_OFFSET) (s.get INPATH_CSCAL_GAIN) 16)
  | 1 =>
    let v := scaleCode (s.inpSource INPATH_SRC_VS) (s.getI INPATH_VSCAL_VOFS) (s.get INPATH_VSCAL_VGAIN) 256
    { s.put INPATH_VOLT_V_IN (clampI 0 65535 v).toNat with inp.vsFresh := true, inp.vinSeen := true }
  | 2 =>
    let v := scaleCode (s.inpSource INPATH_SRC_VHB) (s.getI BAL_VHBCAL_VOFS) (s.get BAL_VHBCAL_VGAIN) 256
    { s.put INPATH_VOLT_V_HB (clampI 0 65535 v).toNat with inp.hbFresh := true }

/-- One stage of the junction model in 2^-32 K (R264); `p` in 10 µW. -/
def State.fosterStep (s : State) (k : Nat) (p dt : Int) : Int :=
  let rth : Int := s.get (INPATH_FOSTER_RTH.el k)
  let tau := s.get (INPATH_FOSTER_TAU.el k)
  dt + roundDiv ((roundDiv (p * rth * 4294967296) 100000000 - dt) * (s.tCyc : Int)) ((tau * 1000 + s.tCyc : Nat) : Int)

/-- T_AMB in 1/16 °C (R264). -/
def State.inpAmbient (s : State) : Int :=
  let src := s.get INPATH_CFG_AMB_SRC
  if src = 0 ∨ 8 < src then 16 * ((s.get INPATH_TFET_T_AMB : Int) - 40) else s.getI (THERM_AUXT_T.el (src - 1))

/-- The junction model of a cycle and its trip (R264, Table 3). -/
def State.inpModel (s : State) : State :=
  let c := s.inpCode
  let v : Int := (s.get INPATH_VOLT_V_IN : Int) - s.get INPATH_VOLT_V_HB
  let p : Int := if s.inp.vinSeen && (c == 1 || c == 2 || c == 3) then v * s.getI INPATH_I_IN_I else 0
  let d1 := s.fosterStep 0 p s.inp.dt1
  let d2 := s.fosterStep 1 p s.inp.dt2
  let d3 := s.fosterStep 2 p s.inp.dt3
  let tj := s.inpAmbient + roundDiv (d1 + d2 + d3) 268435456
  let inj := s.injOn PG_INPATH 1
  let s1 := { (s.injTake PG_INPATH 1).putI INPATH_TJ_T (clampI (-32768) 32767 tj) with inp.dt1 := d1, inp.dt2 := d2, inp.dt3 := d3 }
  if (inj || decide (16 * (s.get INPATH_TFET_T_FET_MAX : Int) ≤ tj)) && (inpLossy c || c == 5) then
    s1.inpTrip.raise PG_INPATH INPATH_ST_SOATRIP
  else s1

/-- The input path at a cycle marker (R261 to R264): before any IN_VS result there is no sample to judge (R260); `limiting` says that V_SNS
stands at V_ILIM. -/
def State.inpMarker (s : State) (limiting : Bool) : State :=
  let vin := s.get INPATH_VOLT_V_IN
  let vhb := s.get INPATH_VOLT_V_HB
  let seen := s.inp.vinSeen
  let bad := decide (vin < s.get INPATH_VWIN_V_IN_UV) || decide (s.get INPATH_VWIN_V_IN_OV < vin)
  let inside := decide (s.get INPATH_VWIN_V_IN_UV + s.get INPATH_VHYS_UV_HYS ≤ vin) &&
    decide (vin + s.get INPATH_VHYS_OV_HYS ≤ s.get INPATH_VWIN_V_IN_OV)
  let fwd := decide ((s.get INPATH_DIODE_V_FWD_ON : Int) ≤ 10 * ((vin : Int) - vhb))
  let x := s.inp
  let badRun := if seen && bad then min 2 (x.badRun + 1) else 0
  let fwdRun := if seen && fwd then min 2 (x.fwdRun + 1) else 0
  let s1 : State :=
    { s with inp := { x with badRun := badRun, fwdRun := fwdRun, sumIn := x.sumIn + (if seen then vin else 0), numIn := x.numIn + b2n seen,
                             energy := x.energy + vhb * s.getI INPATH_I_IN_I * s.tCyc } }
  let c := s1.inpCode
  let s2 :=
    if badRun = 2 ∧ c ≠ 0 ∧ c ≠ 5 ∧ c ≠ 7 then s1.inpUvov
    else if c = 5 ∧ !(seen && inside) then { s1 with inp.ready := false }
    else if c = 4 then
      (if fwdRun = 2 ∧ x.blockT + 4000 ≤ s.tMarker then s1.inpExit else { s1 with inp.ready := false })
    else if c = 3 ∧ !limiting then s1.setInp 2
    else s1
  s2.inpModel

/-- The input path at a round boundary: EIN in mJ and the means (R267, R275). -/
def State.inpRound (s : State) : State :=
  let x := s.inp
  let e := (x.energy.tdiv 100000000)
  let mean := if x.numIn = 0 then s.get INPATH_VOLT_V_IN else (2 * x.sumIn + x.numIn) / (2 * x.numIn)
  let s1 := (s.put INPATH_EIN_E e.toNat).put INPATH_VINAVG_V_IN_MEAN mean
  { s1.put INPATH_VINAVG_V_HB_END (s.get INPATH_VOLT_V_HB) with
    inp := { x with energy := x.energy - e * 100000000, sumIn := 0, numIn := 0 } }

/-- The path is released to START at the switch from RIDE to RUN (R291). -/
def State.inpRelease (s : State) : State :=
  if s.inp.ready then
    (if s.inpCode = 6 then s.put INPATH_COUNTS_RETRY (satInc 255 (s.get INPATH_COUNTS_RETRY)) else s).inpStart
  else s

/-- Whether the path would start, were it not held, or runs already (R290). -/
def State.inpReady (s : State) : Bool :=
  s.inp.ready || s.inpCode == 1 || s.inpCode == 2 || s.inpCode == 3

/-- The snuff strands reach the path only with CFG.SNUFFOFF (R266). -/
def State.inpSnuff (s : State) : State := if s.on INPATH_CFG_SNUFFOFF then s.inpOff else s

/-- The PLL locks in RISE: ENABLE becomes 1 and the path starts (R266). -/
def State.inpLock (s : State) : State :=
  let a := hdrAddr PG_INPATH hdrCTRL
  { s.wr a (s.rd a ||| 1) with inp.hibGate := false }.inpEnable

/-- Entry to HIBERNATE: a conducting path keeps its gate with HIBON (R266). -/
def State.inpHibernate (s : State) : State :=
  let keep := s.on INPATH_CFG_HIBON && (s.inpCode == 2 || s.inpCode == 3)
  { s.inpOff with inp.hibGate := keep }

/-- A function reset: OFF, the count cleared (Table 3). -/
def State.inpReset (s : State) : State := ({ s with inp.ready := false }.setInp 0).put INPATH_STATE_CONSEC 0

end Sys2Proof.Machine
end

