-- ==== Sys2Proof/Machine/Select.lean ====
section
/-! DEFINITION. The module selection sequence (R253 to R256), and what a link's events mean to its channel. -/

namespace Sys2Proof.Machine

/-- The state with the sequence in step `k`. -/
def State.setStep (s : State) (n : Fin 16) (k : Nat) : State := s.put (BAL_SELSTATE_STEP.at n) k

/-- The sequence's step. -/
def State.selStep (s : State) (n : Fin 16) : Nat := s.get (BAL_SELSTATE_STEP.at n)

/-- The target of the sequence. -/
def State.selTarget (s : State) (n : Fin 16) : Nat := s.get (BAL_SELSTATE_TARGET.at n)

/-- Bit of EXCL0 or EXCL1 of a module (R255). -/
def exclBit (n : Fin 16) (m : Nat) : Fld :=
  if m ≤ 32 then ⟨PG_BAL + n, 0x0C0, 0, m - 1, 1⟩ else ⟨PG_BAL + n, 0x0C4, 0, m - 33, 1⟩

/-- The sequence ends with a result (Tables 5 and 6). -/
def State.selEnd (s : State) (n : Fin 16) (result : Nat) : State :=
  let s1 := (s.setStep n 0).put (BAL_SELSTATE_RESULT.at n) result
  let s2 := s1.setBs n { s1.bs n with selFail := 0, selOld := 0 }
  let s3 :=
    if result = 1 then
      ((s2.put (BAL_SELSTATE_CUR.at n) (s2.selTarget n)).put (BAL_COUNTS_SEL.at n) (satInc 4095 (s2.get (BAL_COUNTS_SEL.at n)))).setBs n
        { s2.bs n with closedT := (s2.bs n).readBackT, stopFail := false, checkDue := false, startDue := true, selFail := 0, selOld := 0 }
    else s2
  let s4 := if result = 1 ∧ s3.balCode n = 0 then s3.setBalCode n 1 else s3
  let s5 := if result = 1 then { s4 with hb.selFrame := s4.hb.selFrame.set n (some s4.frame) } else s4
  s5.raise (balPage n) (if result ≤ 3 then BAL_ST_SELDONE else BAL_ST_SELREFUSED)

/-- OPEN is not read back: ERR.OPENFAIL, and RESULT 7 or the failure that led here (Table 6). -/
def State.selOpenFail (s : State) (n : Fin 16) : State :=
  let r := if (s.bs n).selFail = 0 then 7 else (s.bs n).selFail
  (s.err (balPage n) BAL_ERR_OPENFAIL).selEnd n r

/-- A frame of the sequence on the idle engine. -/
def State.selSend (s : State) (n : Fin 16) (typ k : Nat) : State :=
  (s.linkBegin n { linkNoCmd with source := .select, typ := typ, addr := k } false).2

/-- How the sequence's last frame ended, taken. -/
def State.selTake (s : State) (n : Fin 16) : State := s.setLk n { s.lk n with ended := none }

/-- DESELECT goes to module `m` (step 2). -/
def State.selDeselect (s : State) (n : Fin 16) (m : Nat) : State :=
  let s1 := ((s.setStep n 2).setBs n { s.bs n with selOld := m }).selSend n 7 m
  match (s1.lk n).ended with
  | none => s1
  | some e => if e.outcome = 4 then (s1.selTake n).selEnd n 10 else (s1.selTake n).selOpenFail n

/-- The target is deselected and excluded: RESULT 8 or 9 (Table 6, R255). -/
def State.selFailBack (s : State) (n : Fin 16) (result : Nat) (inj : Bool) : State :=
  let t := s.selTarget n
  let s1 := (s.put (exclBit n t) 1).errI (balPage n) BAL_ERR_VERIFY inj
  (s1.setBs n { s1.bs n with selFail := result }).selDeselect n t

/-- SELECT goes to the target (step 4); one the interlock refuses ends the sequence (log entry 14). -/
def State.selSelect (s : State) (n : Fin 16) : State :=
  let s1 := (s.setStep n 4).selSend n 6 (s.selTarget n)
  match (s1.lk n).ended with
  | none => s1
  | some e => if e.outcome = 4 then (s1.selTake n).selEnd n 10 else (s1.selTake n).selEnd n 5

/-- OPEN is read back (step 3). -/
def State.selOpened (s : State) (n : Fin 16) : State :=
  let s1 :=
    if s.balCur n = (s.bs n).selOld then
      let t := s.put (BAL_SELSTATE_CUR.at n) 0
      if t.balCode n = 1 then t.setBalCode n 0 else t
    else s
  if (s1.bs n).selFail ≠ 0 then s1.selEnd n (s1.bs n).selFail
  else if s1.selTarget n = 0 then s1.selEnd n 3
  else s1.selSelect n

/-- CLOSED is read back: the verification begins (step 5). -/
def State.selClosed (s : State) (n : Fin 16) : State :=
  (s.setStep n 5).setBs n { s.bs n with readBackT := s.tMarker + 400 * (s.tCyc : Int) }

/-- The channel stands: the closed module, if any, is deselected (step 2). -/
def State.selStopped (s : State) (n : Fin 16) : State :=
  let m := s.closedModule n
  if m = 0 then
    if s.selTarget n = 0 then (s.setStep n 3).selEnd n 3 else s.selSelect n
  else s.selDeselect n m

/-- Step 1 has ended. -/
def State.selAfterStop (s : State) (n : Fin 16) : State :=
  if s.selStep n ≠ 1 then s
  else if (s.bs n).stopFail then s.selEnd n 6
  else s.selStopped n

/-- A SELECT slot for string `n` (R253, R254, R522). -/
def State.selBegin (s : State) (n : Fin 16) (module : Nat) : State :=
  let t := if module = 0 then s.get (BAL_SELREQ_MODULE.at n) else module
  let s1 := s.put (BAL_SELSTATE_TARGET.at n) t
  let ph := (s.lk n).phase
  let dwell : Int := s.get (BAL_SEL_T_DWELL.at n) * 400000000
  if ph.maint || ph == .desel then s1.selEnd n 10
  else if t ≠ 0 ∧ t = s.balCur n ∧ s.sel n t = 1 then s1.selEnd n 2
  else if s.balCur n ≠ 0 ∧ s.sel n (s.balCur n) = 1 ∧ s.tMarker < (s.bs n).closedT + dwell ∧ !s.on (BAL_SELREQ_FORCE.at n) then s1.selEnd n 4
  else if (t ≠ 0 ∧ (s.modules n < t ∨ s.on (exclBit n t) ∨ !s.nodeReach n t)) ∨ !s.usable n ∨ !s.enabled (balPage n) ∨
      !(s.mode == .run || s.mode == .ride) then s1.selEnd n 5
  else if bitOf (s.hdr (balPage n) hdrERR) BAL_ERR_STOPFAIL then s1.selEnd n 6
  else
    let s2 := ((s1.setBs n { s1.bs n with startDue := false }).setStep n 1).balStop n false
    if s2.balCode n = 4 then s2 else s2.selStopped n

/-- What the end of the sequence's own frame means to it; after a function reset it only ends it (R254). -/
def State.selLink (s : State) (n : Fin 16) : State :=
  match (s.lk n).ended with
  | none => s
  | some e =>
    let s1 := s.selTake n
    if (s1.bs n).selCut then (s1.setBs n { s1.bs n with selCut := false }).selEnd n 10
    else if e.outcome = 4 then (if s1.selBusy n then s1.selEnd n 10 else s1)
    else if s1.selStep n = 2 then
      (if e.typ = 7 ∧ e.outcome ≠ 0 then s1.selOpenFail n
       else if s1.sel n (s1.bs n).selOld = 0 then s1.selOpened n
       else s1)
    else if s1.selStep n = 4 then
      (if e.typ = 6 ∧ e.outcome ≠ 0 then s1.selFailBack n 8 false
       else if s1.sel n (s1.selTarget n) = 1 then s1.selClosed n
       else s1)
    else s1

/-- T_POLL has passed: a NOP reads the selector back (R253). -/
def State.selPoll (s : State) (n : Fin 16) : State :=
  if (s.lk n).phase ≠ .idle ∨ (s.bs n).selCut then s
  else if s.selStep n = 2 then (s.selSend n 0 (s.bs n).selOld).selLink n
  else if s.selStep n = 4 then (s.selSend n 0 (s.selTarget n)).selLink n
  else s

/-- T_OPENMAX has passed (Table 6). -/
def State.selOpenTimeout (s : State) (n : Fin 16) : State := if s.selStep n = 2 ∧ !(s.bs n).selCut then s.selOpenFail n else s

/-- T_CLOSEMAX has passed (Table 6). -/
def State.selCloseTimeout (s : State) (n : Fin 16) : State := if s.selStep n = 4 ∧ !(s.bs n).selCut then s.selFailBack n 8 false else s

/-- 1 ms has passed with no BALn_VS result (Table 6). -/
def State.selVerifyTimeout (s : State) (n : Fin 16) : State := if s.selStep n = 5 then s.selFailBack n 9 false else s

/-- The first BALn_VS result sampled at least 20 µs after the read-back (R253): compared with the module record. -/
def State.selVerify (s : State) (n : Fin 16) (ago : Nat) : State :=
  if s.selStep n ≠ 5 ∨ s.tMarker - 400 * ((ago * s.tCyc : Nat) : Int) < (s.bs n).readBackT + 8000 then s
  else
    let inj := s.injOn (balPage n) 2
    let s0 := s.injTake (balPage n) 2
    let d := (s0.get (BAL_VOLT_V_MOD.at n) : Int) - s0.load (modAddr n (s0.selTarget n)) 2
    if inj || decide (s0.get (BAL_SEL_SEL_TOL.at n) < d.natAbs) then s0.selFailBack n 9 inj else s0.selEnd n 1

/-- A safe deselect ends the sequence at once (Table 6). -/
def State.selAbort (s : State) (n : Fin 16) : State :=
  if s.selBusy n then (s.setBs n { s.bs n with selCut := false }).selEnd n 10 else s

/-- A function reset ends the sequence; with a frame of it in flight, once that has come back (Table 6). -/
def State.selReset (s : State) (n : Fin 16) : State :=
  if (s.selStep n = 2 ∨ s.selStep n = 4) ∧ (s.lk n).phase = .frame ∧ (s.lk n).cmd.source = .select then s.setBs n { s.bs n with selCut := true }
  else s.selAbort n

/-- The selector map no longer shows the channel's module CLOSED, outside a selection (R244). -/
def State.closedLost (s : State) (n : Fin 16) : State :=
  let m := s.balCur n
  if m = 0 ∨ s.selBusy n ∨ s.sel n m = 1 then s
  else
    let s1 := s.put (BAL_SELSTATE_CUR.at n) 0
    if s1.balCode n = 0 ∨ s1.balCode n = 6 then s1
    else (s1.raise (balPage n) BAL_ST_CLOSEDLOST).balStop n true

/-- After an event on link `n`: the selection, and the channel's module. -/
def State.afterLink (s : State) (n : Fin 16) : State := ((s.selLink n).closedLost n).overlayCheck n

/-- The function reset of a channel page (R257). -/
def State.balFuncReset (s : State) (n : Fin 16) : State :=
  let s1 := s.selReset n
  let x := s1.bs n
  let s2 := (s1.balRefsLow n).setBs n { balIdle with closedT := x.closedT, readBackT := x.readBackT, selOld := x.selOld, selFail := x.selFail, selCut := x.selCut }
  s2.setBalCode n 0

/-- The safe deselect of every link, with the selections in progress ended (R169, R254). -/
def State.deselectAll (s : State) : State :=
  (List.finRange 16).foldl (fun (t : State) (n : Fin 16) => ((t.selAbort n).safeDeselect n).closedLost n) s

end Sys2Proof.Machine
end

