-- ==== Sys2Proof/Machine/HouseBus.lean ====
section
/-! DEFINITION. House bus dispatch: measurement, ranking, directions and selection requests, shares, supplements and shedding
(chapter 11, R267 to R278; the hand-back of R291). -/

namespace Sys2Proof.Machine

/-- The direction of string `n`: 0 I, 1 D, 2 C, 3 U (Table 12). -/
def dirField (n : Fin 16) : Fld := DISPATCH_DIR_D.sh (2 * n.val)

/-- The RANK byte of a module. -/
def State.rankByte (s : State) (n : Fin 16) (m : Nat) : Nat := s.load (modAddr n m + 0x1C) 1

/-- FLAGS[1] of a module record: excluded by RANK. -/
def State.excluded (s : State) (n : Fin 16) (m : Nat) : Bool := bitOf (s.load (modAddr n m + 0x1D) 1) 1

/-- DEV of a module (R269). -/
def State.devOf (s : State) (n : Fin 16) (m : Nat) : Int := (s.load (modAddr n m + 0x0A) 2 : Int) - s.load (strAddr n + 0x4C) 2

/-- Whether RANK[6] bars discharge, RANK[7] charge. -/
def State.noDischarge (s : State) (n : Fin 16) (m : Nat) : Bool := bitOf (s.rankByte n m) 6

/-- See `State.noDischarge`. -/
def State.noCharge (s : State) (n : Fin 16) (m : Nat) : Bool := bitOf (s.rankByte n m) 7

/-! ### RANK (R269) -/

/-- Whether a module is excluded from ranking (Table 5, first row). -/
def State.rankExcludes (s : State) (n : Fin 16) (m : Nat) : Bool :=
  let a := modAddr n m
  decide (s.modules n < m) || !s.nodeReach n m || bitOf (s.load (a + 0x1D) 1) 0 || s.on (exclBit n m) ||
    bitOf (s.load (a + 0x0E) 1) 1 || bitOf (s.load (a + 0x0F) 1) 2 || decide (s.get DISPATCH_STEPS_T_MOD_MAX ≤ s.load (a + 0x0D) 1)

/-- Insertion into a list of modules ordered by DEV, highest first, the lower module number first on ties. -/
def State.rankInsert (s : State) (n : Fin 16) (m : Nat) : List Nat → List Nat
  | [] => [m]
  | k :: t => if s.devOf n k < s.devOf n m then m :: k :: t else k :: State.rankInsert s n m t

/-- The state with a module's RANK byte and FLAGS[1] written. -/
def State.putRank (s : State) (n : Fin 16) (m rank : Nat) (ex : Bool) : State :=
  let a := modAddr n m
  (s.store (a + 0x1C) 1 rank).store (a + 0x1D) 1 (putBit (s.load (a + 0x1D) 1) 1 ex)

/-- The count of consecutive RANK slots that found the string's records not updated in the frame. -/
def State.rankStaleOf (s : State) (n : Fin 16) : Nat := nth s.hb.rankStale n

/-- A RANK slot (R269, Table 5); with records not updated in the frame the previous ranking is kept (R24, Table 9). -/
def State.rank (s : State) (n : Fin 16) (mods : Nat) : State :=
  let setStale := fun (t : State) (v : Nat) =>
    { t with hb.rankStale := (List.range 16).map fun i => if i = n.val then v else nth t.hb.rankStale i }
  if s.load (strAddr n + 0x44) 4 ≠ s.frame % 2 ^ 32 then setStale s (min 2 (s.rankStaleOf n + 1))
  else
    let all := (List.range (min 40 mods)).map (· + 1)
    let ins := all.filter fun m => !s.rankExcludes n m
    let order := ins.foldl (fun l m => s.rankInsert n m l) []
    let s1 := (all.filter (s.rankExcludes n)).foldl (fun (t : State) m => t.putRank n m 0xC0 true) (setStale s 0)
    let noD := fun (m : Nat) => decide (s.load (modAddr n m + 2) 2 < s.get DISPATCH_VBAL_V_MIN_BAL)
    let noC := fun (m : Nat) => decide (s.get DISPATCH_VBAL_V_MAX_BAL < s.load (modAddr n m + 4) 2)
    let s2 := (List.range order.length).foldl
      (fun (t : State) (i : Nat) =>
        let m := nth order i
        t.putRank n m (i + 1 + 64 * b2n (noD m) + 128 * b2n (noC m)) false) s1
    let hi := (order.find? fun m => !noD m).getD 0
    let lo := (order.reverse.find? fun m => !noC m).getD 0
    (s2.put (DISPATCH_RANK_HI.el n) hi).put (DISPATCH_RANK_LO.el n) lo

/-! ### The frame step (R270 to R272, R287) -/

/-- The policy in force: 3 acts as 1; RIDE works as CELLS_FIRST (R287). -/
def State.policy (s : State) : Nat :=
  if s.mode == .ride then 2 else if s.get DISPATCH_CFG_POLICY = 3 then 1 else s.get DISPATCH_CFG_POLICY

/-- DB − DB_HYS, with DB_HYS above DB acting as DB. -/
def State.dbEdge (s : State) : Int :=
  (s.get DISPATCH_BAND_DB : Int) - min (s.get DISPATCH_BAND_DB_HYS) (s.get DISPATCH_BAND_DB)

/-- Whether a module suits direction D (1) or C (2) (R270). -/
def State.suits (s : State) (n : Fin 16) (m dir : Nat) : Bool :=
  m != 0 && !s.excluded n m &&
    (if dir = 1 then !s.noDischarge n m && (s.policy == 2 || decide (s.dbEdge < s.devOf n m))
     else !s.noCharge n m && decide (s.devOf n m < -s.dbEdge))

/-- Whether string `n` is unavailable (Table 6, first row). -/
def State.dirBarred (s : State) (n : Fin 16) : Bool :=
  !s.enabled (balPage n) || s.balCode n == 6 || !s.usable n || (s.lk n).stale || !s.tracked n || !(s.mode == .run || s.mode == .ride)

/-- The direction and the candidate of a string that is available (Table 6). -/
def State.direction (s : State) (n : Fin 16) : Nat × Nat :=
  let hi := s.get (DISPATCH_RANK_HI.el n)
  let lo := s.get (DISPATCH_RANK_LO.el n)
  let db : Int := s.get DISPATCH_BAND_DB
  let prev := s.get (dirField n)
  let cur := s.balCur n
  if 2 ≤ s.rankStaleOf n then (0, 0)
  else if s.policy = 2 ∧ hi ≠ 0 then (1, hi)
  else if hi ≠ 0 ∧ db < s.devOf n hi then (1, hi)
  else if prev = 1 ∧ s.suits n cur 1 then (1, hi)
  else if s.mode = .run ∧ s.policy ≠ 2 ∧ s.on DISPATCH_CFG_CHG_EN ∧ lo ≠ 0 ∧ s.devOf n lo < -db then (2, lo)
  else if prev = 2 ∧ s.mode = .run ∧ s.suits n cur 2 then (2, lo)
  else (0, 0)

/-- SELREQ is written as master 0. -/
def State.selRequest (s : State) (n : Fin 16) (m : Nat) (force : Bool) : State :=
  if s.dev.freset.contains (balPage n) then s
  else ((s.put (BAL_SELREQ_MODULE.at n) m).put (BAL_SELREQ_FORCE.at n) (b2n force)).noteWrite .lamplighter (balPage n)

/-- The selection request of a string with direction D or C (Table 7); in RIDE a module barred by RANK[6] is left by a forced selection (R287). -/
def State.dirRequest (s : State) (n : Fin 16) (dir cand : Nat) : State :=
  let cur := s.balCur n
  let prev := s.get (dirField n)
  let suit := s.suits n cur dir
  let keep : State → Nat → State := fun t d => (t.put (dirField n) d).selRequest n cur false
  let move : State → Bool → State := fun t f => (t.put (dirField n) dir).selRequest n cand f
  let last : Option Nat := s.hb.selFrame[n]
  let dwell : Bool := match last with
    | none => true
    | some f => decide (s.get (BAL_SEL_T_DWELL.at n) * 1000 ≤ (s.frame - f) * s.tFrame)
  if suit && decide ((s.devOf n cand).natAbs ≤ (s.devOf n cur).natAbs + s.get DISPATCH_MARGIN_SW_MARGIN) then keep s dir
  else if cur = 0 then move s false
  else if s.excluded n cur || ((prev == 1 || s.mode == .ride) && s.noDischarge n cur) || (prev == 2 && s.noCharge n cur) then
    (move s true).raise PG_DISPATCH DISPATCH_ST_FORCED
  else if dwell then move s false
  else if suit then keep s dir
  else keep s 0

/-- A DISPATCH slot with STEP 1 (R270, R271). -/
def State.frameStep (s : State) : State :=
  if !s.enabled PG_DISPATCH then s
  else
    let s1 := (List.finRange 16).foldl
      (fun (t : State) (n : Fin 16) =>
        if t.dirBarred n then t.put (dirField n) 3
        else
          let res := t.direction n
          let d := res.1
          let cand := res.2
          if d = 0 then (t.put (dirField n) 0).selRequest n (t.balCur n) false else t.dirRequest n d cand) s
    (s1.put DISPATCH_FRAMEST_FRAME s.frame).raise PG_DISPATCH DISPATCH_ST_FRAMEDONE

/-! ### The round step (R267, R268, R273 to R277) -/

/-- P_STEP: 0 acts as 1. -/
def State.pStep (s : State) : Nat := atLeast1 (s.get DISPATCH_SHARE_P_STEP)

/-- fill(set, S, cap) of R274; `up` rounds the parts up to P_STEP within the cap (R276).  The set is a list of members with
their caps; `fuel` bounds the passes by the number of members. -/
def fill (step : Nat) (up : Bool) : Nat → List (Nat × Nat) → Nat → List (Nat × Nat)
  | 0, _, _ => []
  | fuel + 1, set, rem =>
    if set.isEmpty then []
    else
      let k := set.length * step
      let share := (if up then (rem + k - 1) / k else rem / k) * step
      let low := set.filter fun m => decide (m.2 < share)
      if low.isEmpty then set.map fun m => (m.1, share)
      else low ++ fill step up fuel (set.filter fun m => !decide (m.2 < share)) (rem - low.foldl (fun a m => a + m.2) 0)

/-- The part of a member; 0 for none. -/
def partOf (l : List (Nat × Nat)) (n : Nat) : Nat := ((l.find? fun m => m.1 == n).map (·.2)).getD 0

/-- AV_n of R273. -/
def State.available (s : State) (n : Fin 16) : Nat :=
  let pmax := s.get (BAL_LIMIT_P_MAX.at n)
  let pd := if s.get (dirField n) = 2 then s.get DISPATCH_SHARE_P_CHG_BAL else pmax
  if (s.balCode n = 2 ∨ s.balCode n = 3) ∧ !s.selBusy n then
    min (pmax * (8 - s.get (BAL_STATE_THROTTLE.at n))) (8 * pd) / (8 * s.pStep) * s.pStep
  else 0

/-- Whether string `n` is served in direction `d` (R273; Table 8, the row of RANK[6] and RANK[7]). -/
def State.served (s : State) (n : Fin 16) (d : Nat) : Bool :=
  let cur := s.balCur n
  s.get (dirField n) == d && cur != 0 && cur == s.get (BAL_SELREQ_MODULE.at n) &&
    !(if d = 1 then s.noDischarge n cur else s.noCharge n cur)

/-- Whether string `n` can supplement (R276, step 1). -/
def State.supplements (s : State) (n : Fin 16) : Bool :=
  let cur := s.balCur n
  s.get (dirField n) != 3 && cur != 0 && !s.excluded n cur && !s.noDischarge n cur

/-- Members of a set with their caps. -/
def State.members (s : State) (p : Fin 16 → Bool) : List (Nat × Nat) :=
  ((List.finRange 16).filter p).map fun n => (n.val, s.available n)

/-- Bus-side watts of a channel in the last round. -/
def State.balNet (s : State) (n : Fin 16) : Int := (s.get (BAL_EOUT_E.at n) : Int) - s.get (BAL_EIN_E.at n)

/-- Bus-side watts of every channel in the last round. -/
def State.balSum (s : State) : Int := (List.finRange 16).foldl (fun (a : Int) (n : Fin 16) => a + s.balNet n) 0

/-- The pack's round energy into the bus (R296). -/
def State.packPower (s : State) : Int := (s.get PACK_EOUT_E : Int) - s.get PACK_EIN_E

/-- The measurement of the last round (R267): the demand D with the state.  Before a VHB result gave the round's start a value, P_C is 0. -/
def State.measure (s : State) : Int × State :=
  let pin : Int := s.get INPATH_EIN_E
  let pbal := s.balSum
  let ppack := s.packPower
  let v1 := s.get INPATH_VINAVG_V_HB_END
  let v0 := s.hb.v0.getD v1
  let pc := roundDiv ((s.get DISPATCH_SUPP_C_HB : Int) * ((v1 * v1 : Nat) - (v0 * v0 : Nat) : Int)) 2000000
  let pload := pin + pbal + ppack - pc
  let filt := s.hb.filt + roundDiv (pload * 65536 - s.hb.filt) (2 ^ s.get DISPATCH_INREG_LF_SHIFT : Nat)
  let pf := roundDiv filt 65536
  let s1 := (s.put DISPATCH_LOAD_P_LOAD (clampI 0 65535 pload).toNat).put DISPATCH_LOAD_P_LOAD_F (clampI 0 65535 pf).toNat
  let s2 := (s1.put DISPATCH_SOURCES_P_IN (clampI 0 65535 pin).toNat).putI DISPATCH_SOURCES_P_PACK (clampI (-32768) 32767 ppack)
  (min pload pf + max (-ppack) 0, { s2.putI DISPATCH_CELLS_P_BAL pbal with hb.filt := filt })

/-- P_IN_CAP's adjustment (R275). -/
def State.inCap (s : State) : State :=
  let v := s.get INPATH_VINAVG_V_IN_MEAN
  let reg := s.get DISPATCH_INREG_V_INREG
  let cap := s.get DISPATCH_INCAP_P_IN_CAP
  let step := s.get DISPATCH_STEPS_INREG_STEP
  let c := s.inpCode
  let down := c == 0 || c == 5 || c == 6 || c == 7
  let s1 := s.level PG_DISPATCH DISPATCH_ST_INREG (decide (v < reg))
  if down then s1.put DISPATCH_INCAP_P_IN_CAP 0
  else if v < reg then s1.put DISPATCH_INCAP_P_IN_CAP (cap - step)
  else if reg + s.get DISPATCH_INREG_V_INREG_HYS ≤ v then
    s1.put DISPATCH_INCAP_P_IN_CAP (min (cap + step) (s.get DISPATCH_INPUT_P_IN_MAX))
  else s1

/-- The planned input power of a round step, with the hand-back's factor f while it runs (R291).  The Bool says that f has
reached 1. -/
def State.plannedInput (s : State) : Nat × Bool × State :=
  let cap := s.get DISPATCH_INCAP_P_IN_CAP
  if !s.on PACK_STATE_HB then (cap, false, s)
  else
    let on := s.inpCode == 2 || s.inpCode == 3
    let s1 := if on && s.hb.backStart.isNone then { s with hb.backStart := some s.tMarker } else s
    match s1.hb.backStart with
    | none => (0, false, s1)
    | some t0 =>
      let span : Int := (atLeast1 (s1.get PACK_HANDBACK_T_HANDBACK) * 400000 : Nat)
      let t := min (s1.tMarker - t0) span
      (((cap : Int) * t / span).toNat, decide (span ≤ t), s1)

/-- The hand-back ends (R291). -/
def State.handbackEnd (s : State) : State :=
  { (((s.put PACK_STATE_HB 0).put PACK_STATE_RSHED 0).raise PG_PACK PACK_ST_HBDONE) with hb.backStart := none }

/-- Shares of the discharging strings (R274). -/
def State.disShares (s : State) (d : Int) : List (Nat × Nat) :=
  let dis := s.members fun n => s.served n 1
  if s.get DISPATCH_CFG_POLICY = 0 then dis.map fun m => (m.1, min m.2 (s.get DISPATCH_SHARE_P_BAL_INP))
  else fill s.pStep false 17 dis (d - s.get DISPATCH_INPUT_P_IN_MIN).toNat

/-- The sum of parts. -/
def sumParts (l : List (Nat × Nat)) : Nat := l.foldl (fun a m => a + m.2) 0

/-- T_PACK, if a valid AUX input gives it (R301). -/
def State.packTemp (s : State) : Option Int :=
  let src := s.get PACK_CFG_TSRC
  if src = 0 ∨ 8 < src then none else s.auxTemp (src - 1)

/-- Whether the discharge temperature is met (R301). -/
def State.packDischarge (s : State) : Bool :=
  match s.packTemp with
  | none => true
  | some t => decide (16 * ((s.get PACK_ZLIM_T_DCOLD : Int) - 40) ≤ t) && decide (t < 16 * ((s.get PACK_ZLIM_T_DHOT : Int) - 40))

/-- Whether the pack can boost when asked (R299, Table 10). -/
def State.packCanBoost (s : State) : Bool :=
  let c := s.get PACK_STATE_CODE
  s.on PACK_STATE_PRESENT && s.enabled PG_PACK && c != 10 && c != 11 && !s.on PACK_STATE_CUTLATCH && s.packDischarge

/-- The shed level's change on the shortfall that is left (R276, step 3; R291 suspends the count). -/
def State.shedding (s : State) (x : Int) : State :=
  if !s.on DISPATCH_CFG_SHED_EN then { s.put DISPATCH_INCAP_SHEDLVL 0 with hb.shortRun := 0, hb.restoreRun := 0 }
  else
    let lvl := s.get DISPATCH_INCAP_SHEDLVL
    let hand := s.on PACK_STATE_HB
    let short := if hand then s.hb.shortRun else if 0 < x then s.hb.shortRun + 1 else 0
    let full := decide (atLeast1 (s.get DISPATCH_STEPS_N_SHED) ≤ short) && !hand
    let s1 :=
      if full && decide (lvl < 3) then (s.put DISPATCH_INCAP_SHEDLVL (lvl + 1)).raise PG_DISPATCH DISPATCH_ST_SHED else s
    let s2 := if s1.get DISPATCH_INCAP_SHEDLVL = 3 ∧ 0 < x then s1.err PG_DISPATCH DISPATCH_ERR_DEFICIT else s1
    let rest := if x ≤ -(s.get DISPATCH_RESTORE_P_RESTORE : Int) then s.hb.restoreRun + 1 else 0
    let back := decide (s.get DISPATCH_RESTORE_T_RESTORE ≤ rest) && decide (0 < rest) && decide (0 < lvl)
    { (if back then s2.put DISPATCH_INCAP_SHEDLVL (lvl - 1) else s2) with
      hb.shortRun := if full then 0 else short, hb.restoreRun := if back then 0 else min 65535 rest }

/-- The setpoints are written as master 0 (R274). -/
def State.putSetpoints (s : State) (p : List Int) : State :=
  { ((List.finRange 16).foldl
      (fun (t : State) (n : Fin 16) => t.schedPut (BAL_PSET_P_SET.at n) (ofSigned 16 ((p[n.val]?).getD 0))) s) with hb.setpoints := p }

/-- The shares of a round step in RUN (R273, R274, R276). -/
def State.shares (s : State) (d : Int) : State :=
  let res := s.plannedInput
  let cap := res.1
  let ended := res.2.1
  let s0 := res.2.2
  let dis := s0.disShares d
  let x0 := d - sumParts dis - cap
  let chgSet := s0.members fun n => s0.served n 2
  let chg := if x0 ≤ 0 then fill s0.pStep false 17 chgSet (-x0 - s0.get DISPATCH_MARGIN_P_CHG_MARGIN).toNat else []
  let p0 := fun (n : Nat) => (partOf dis n : Int) - partOf chg n
  let x1 := x0 + sumParts chg
  let sup :=
    if 0 < x1 then
      fill s0.pStep true 17
        (((List.finRange 16).filter fun n => s0.supplements n && (s0.balCode n == 2 || s0.balCode n == 3) && !s0.selBusy n).map
          fun n => (n.val, ((s0.available n : Int) - p0 n).toNat)) x1.toNat
    else []
  let x2 := x1 - sumParts sup
  let s1 := s0.raiseIf (decide (0 < sumParts sup)) PG_DISPATCH DISPATCH_ST_CELLSUP
  let ask := decide (0 < x2) && s1.on DISPATCH_CFG_PACKSUP_EN
  let boost := if ask then min x2.toNat (s1.get DISPATCH_SUPP_P_PACK_SUP) else 0
  let s2 := (s1.put DISPATCH_SUPPLY_PACK_BOOST boost).raiseIf ask PG_DISPATCH DISPATCH_ST_PACKSUP
  let x3 := if s2.packCanBoost then x2 - boost else x2
  let s3 := (s2.putI DISPATCH_SUPPLY_X (clampI (-32768) 32767 x3)).shedding x3
  let s4 := s3.putSetpoints ((List.range 16).map fun n => p0 n + partOf sup n)
  if ended then s4.handbackEnd else s4

/-- A DISPATCH slot with STEP 0 (R267, R268, R273 to R277). -/
def State.roundStep (s : State) : State :=
  if !s.enabled PG_DISPATCH then { s.put DISPATCH_INCAP_SHEDLVL 0 with hb.shortRun := 0, hb.restoreRun := 0 }
  else
    let stale := s.injOn PG_DISPATCH 1 || !s.hb.fresh
    let s0 := s.injTake PG_DISPATCH 1
    let run := s0.mode == .run
    let s1 :=
      if stale then
        let k := min 4 (s0.hb.staleRun + 1)
        let t := { s0.inCap with hb.staleRun := k }
        let t1 := if k < 3 then t.raise PG_DISPATCH DISPATCH_ST_STALEIN else if k = 3 then t.err PG_DISPATCH DISPATCH_ERR_STALE else t
        if !run then t1 else if k < 3 then t1.putSetpoints t1.hb.setpoints else (t1.put DISPATCH_SUPPLY_PACK_BOOST 0).putSetpoints []
      else
        let res := s0.measure
        let d := res.1
        let t := res.2
        let t1 := { t.inCap with hb.staleRun := 0 }
        if run then t1.shares d else t1
    s1.raise PG_DISPATCH DISPATCH_ST_ROUNDDONE

/-- A round boundary of the dispatch: V_HB at the round's start, and whether a VHB result arrived in it (R267, R268).  It comes
before the input path's own. -/
def State.hbRound (s : State) : State :=
  { s with hb.v0 := if s.hb.v0.isSome || s.hb.fresh then some (s.get INPATH_VINAVG_V_HB_END) else none, hb.fresh := s.inp.hbFresh, inp.hbFresh := false }

/-- Every DIR becomes I, P_IN_CAP P_IN_MAX, and no setpoint stands to be written again: the entry to RUN and the function reset (R275, R277, R278). -/
def State.hbStart (s : State) : State :=
  { ((s.wr (DISPATCH_DIR_D.addr) 0).put DISPATCH_INCAP_P_IN_CAP (s.get DISPATCH_INPUT_P_IN_MAX)).put DISPATCH_SUPPLY_PACK_BOOST 0 with hb.setpoints := [] }

/-- A function reset of DISPATCH (R278). -/
def State.hbReset (s : State) : State :=
  { s.hbStart.put DISPATCH_INCAP_SHEDLVL 0 with hb.shortRun := 0, hb.restoreRun := 0, hb.staleRun := 0 }

end Sys2Proof.Machine
end

