-- ==== Sys2Proof/Machine/Pack.lean ====
section
/-! DEFINITION. Ride-through and the backup pack (chapter 12). -/

namespace Sys2Proof.Machine

/-! ### The ride detector (R281, R290) -/

/-- N_DET (R281). -/
def State.nDet (s : State) : Nat := (s.get PACK_LOSS_T_DETECT + s.tCyc - 1) / s.tCyc + 1

/-- An input loss is recognised: in RUN and RIDE STATE.LOSS is set, elsewhere STATUS.LOSS only (R281, Table 3). -/
def State.lossSeen (s : State) : State :=
  if s.mode == .run || s.mode == .ride then
    (if s.on PACK_STATE_LOSS then s else (s.put PACK_STATE_LOSS 1).raise PG_PACK PACK_ST_LOSS)
  else s.raise PG_PACK PACK_ST_LOSS

/-- Whether the path is found down at a marker in RUN (R281). -/
def State.pathDown (s : State) : Bool :=
  let c := s.inpCode
  s.mode == .run && (c == 0 || c == 5 || c == 6 || c == 7)

/-- The return is judged (R290). -/
def State.returnJudge (s : State) : State :=
  if s.mode == .ride && decide (s.get PACK_RETURN_T_RETURN * 1000 ≤ s.pack.retUs) && s.inpReady && s.enabled PG_INPATH && s.inpCode != 7 then
    s.put PACK_STATE_RETOK 1
  else s

/-- The return time becomes `us`. -/
def State.setRet (s : State) (us : Nat) : State :=
  { s.put PACK_TIMERS_T_RET (min 65535 (us / 1000)) with pack.retUs := us }

/-- The ride detector at a cycle marker (R281, R290); `fresh` says that an IN_VS result arrived since the previous marker. -/
def State.rideMarker (s : State) : State :=
  let fresh := s.inp.vsFresh
  let lost := s.inp.lost
  let inj := fresh && s.injOn PG_PACK 1
  let t0 : State := if fresh then s.injTake PG_PACK 1 else s
  let s0 : State := { t0 with inp.vsFresh := false, inp.lost := false }
  let v := s.get INPATH_VOLT_V_IN
  let low := inj || decide (v < s.get PACK_LOSS_V_INLOSS)
  let run := if !fresh then s0.pack.lowRun else if low then min s0.nDet (s0.pack.lowRun + 1) else 0
  let reached := fresh && low && run == s0.nDet && decide (s0.pack.lowRun < s0.nDet)
  let s1 := { s0 with pack.lowRun := run }
  let s2 := if reached || lost || s1.pathDown then s1.lossSeen else s1
  if s2.mode == .ride && !s2.lamp.switchPending then
    (s2.setRet (if fresh && decide (v < s.get PACK_RETURN_V_INOK) then 0 else s2.pack.retUs + s2.tCyc)).returnJudge
  else s2

/-- INPUT_LOSS: the detector's condition stands (R281). -/
def State.inputLoss (s : State) : State := if s.nDet ≤ s.pack.lowRun ∨ s.pathDown ∨ s.inp.lost then s.lossSeen else s

/-! ### Shedding in RIDE (R289) -/

/-- The ride shed level. -/
def State.rshed (s : State) : Nat := s.get PACK_STATE_RSHED

/-- V_HB below V_SHEDFAST at a marker in RIDE. -/
def State.rshedFast (s : State) : State :=
  if s.mode == .ride && decide (s.get PACK_MEAS_V_HB < s.get PACK_SHED_V_SHEDFAST) && s.rshed != 3 then
    (s.put PACK_STATE_RSHED 3).raise PG_PACK PACK_ST_RSHED
  else s

/-- RSHED_ROUNDS: the round means of V_HB have lain below V_SHED for N_RSHED rounds in a row in RIDE; the count restarts. -/
def State.rshedRounds (s : State) : State :=
  if s.mode == .ride && decide (s.rshed < 3) && decide (atLeast1 (s.get PACK_UNSHED_N_RSHED) ≤ s.pack.shedRun) then
    { (s.put PACK_STATE_RSHED (s.rshed + 1)).raise PG_PACK PACK_ST_RSHED with pack.shedRun := 0 }
  else s

/-- RSHED_RESTORE: V_HB has been at or above V_UNSHED for T_RUNSHED in RIDE; the time restarts. -/
def State.rshedRestore (s : State) : State :=
  if s.mode == .ride && decide (s.get PACK_UNSHED_T_RUNSHED * 1000000 ≤ s.pack.unshedUs) && decide (s.get PACK_HANDBACK_RIDE_SHED0 < s.rshed) then
    { s.put PACK_STATE_RSHED (s.rshed - 1) with pack.unshedUs := 0 }
  else s

/-- What a cycle marker counts for shedding and the round means (R289, R299; the means are over the markers of the round, DEDUCED, log entry 175). -/
def State.packSums (s : State) : State :=
  let v := s.get PACK_MEAS_V_HB
  let i := s.getI PACK_I_PACK_I
  { s with
      pack.iSum := s.pack.iSum + i, pack.iNum := s.pack.iNum + 1,
      pack.vhbSum := s.pack.vhbSum + v, pack.roundI := s.pack.roundI + i, pack.marks := s.pack.marks + 1,
      pack.unshedUs := if s.mode = .ride ∧ s.get PACK_UNSHED_V_UNSHED ≤ v then s.pack.unshedUs + s.tCyc else 0 }

/-! ### Quantities -/

/-- NCELLS: 4 to 16. -/
def State.nCells (s : State) : Nat := clampN 4 16 (s.get PACK_CFG_NCELLS)

/-- V_PACK in 10 mV. -/
def State.vPack (s : State) : Nat := s.get PACK_MEAS_V_PACK

/-- A per-cell field, mV, times NCELLS, compared with V_PACK in mV. -/
def State.packMv (s : State) (f : Fld) : Nat := s.get f * s.nCells

/-- V_CHG for the zone, mV. -/
def State.packVchg (s : State) : Nat := s.packMv (if s.get PACK_STATE_ZONE = 3 then PACK_VCELL0_V_CHGW_C else PACK_VCELL0_V_CHG_C)

/-- K_TERM: 4 to 64. -/
def State.kTerm (s : State) : Nat := clampN 4 64 (s.get PACK_TERM_K_TERM)

/-- The switching period in ns. -/
def State.packTsw (s : State) : Nat :=
  match s.get PACK_CFG_FSW with
  | 0 => 20000
  | 2 => 5000
  | _ => 10000

/-- Whether the converter charges in state `c`. -/
def packCharging (c : Nat) : Bool := c == 2 || c == 3 || c == 4 || c == 6

/-- Whether the references run in state `c` (Table 9). -/
def packActive (c : Nat) : Bool := packCharging c || c == 8 || c == 9

/-- The state code. -/
def State.packCode (s : State) : Nat := s.get PACK_STATE_CODE

/-- Whether the references run now (R293, R295). -/
def State.packRunning (s : State) : Bool := packActive s.packCode && !s.pack.senseStop

/-- The compensator is cleared. -/
def State.packClear (s : State) : State := { s with pack.e1 := 0, pack.e2 := 0, pack.u1 := 0, pack.u2 := 0 }

/-- The converter enters state `c` (R298, R299): STATUS.PHASE on a change; the phase kept. -/
def State.setPack (s : State) (c : Nat) : State :=
  if s.packCode = c then s
  else
    let s1 := (s.put PACK_STATE_CODE c).raise PG_PACK PACK_ST_PHASE
    let s2 := if packCharging c then s1.put PACK_STATE_PHASE c else if c ≤ 1 ∨ c = 5 then s1.put PACK_STATE_PHASE 0 else s1
    let s3 := if packActive c && !packActive s.packCode then s2.packClear else s2
    { s3 with pack.limRun := 0, pack.rechRun := 0, pack.termMs := 0, pack.preMs := 0 }

/-- A result delivered to unit 16 (R293); DIN 3 is discarded, DIN 2 is the shared V_HB input. -/
def State.packInput (s : State) (din code : Nat) : State :=
  match din with
  | 0 =>
    { s.putI PACK_I_PACK_I (scaleCode code (2048 + s.getI PACK_CSCAL_OFFSET) (s.get PACK_CSCAL_GAIN) 16) with pack.senseStop := false, pack.csFresh := true }
  | 1 =>
    { s.put PACK_MEAS_V_PACK (clampI 0 65535 (scaleCode code (s.getI PACK_VSCAL_VOFS) (s.get PACK_VSCAL_VGAIN) 256)).toNat with pack.vsFresh := true }
  | 2 => s.balInput 0 2 code
  | _ => s

/-! ### The control law (R294, R295) -/

/-- The charging references: i_ph, i_sag and the throttled current (R295). -/
def State.packCharge (s : State) : Int × Int × Int :=
  let i0 : Int := if s.packCode = 2 then s.get PACK_ICHG_I_PRE else s.get PACK_ICHG_I_FAST
  let iph := if s.get PACK_STATE_ZONE = 1 then roundDiv i0 2 else i0
  let off : Int := s.get PACK_SAG_V_SAGOFF
  let top : Int := if (s.get PACK_SAG_V_SAG : Int) ≤ off then off + 1 else s.get PACK_SAG_V_SAG
  (iph, roundDiv (iph * clampI 0 (top - off) ((s.get PACK_MEAS_V_HB : Int) - off)) (top - off),
    roundDiv (iph * ((8 - s.get THERM_LEVEL_TD : Nat) : Int)) 8)

/-- i_ref in mA (R295); with V_PACK at 0 a wanted power asks for I_DIS_MAX (log entry 18). -/
def State.packIref (s : State) : Int :=
  if packCharging s.packCode then
    let r := s.packCharge
    min r.1 (min r.2.1 r.2.2)
  else
    let vhb := s.get PACK_MEAS_V_HB
    let p : Int :=
      if s.packCode = 9 then
        roundDiv ((vhb * (s.get PACK_PDROOP_V_PRIDE - vhb) : Nat)) ((10 * atLeast1 (s.get PACK_PDROOP_R_PDROOP) : Nat))
      else s.get DISPATCH_SUPPLY_PACK_BOOST
    let eta := if s.get PACK_ETA_ETA_D = 0 then 65535 else s.get PACK_ETA_ETA_D
    let lim : Int := -(s.get PACK_DIS_I_DIS_MAX : Int)
    if s.vPack = 0 then (if p = 0 then 0 else lim)
    else max (-(roundDiv (p * 6553600000) ((s.vPack * eta : Nat) : Int))) lim

/-- A compensator coefficient, Q2.22. -/
def State.packCoef (s : State) (f : Fld) : Int := toSigned 24 (s.get f)

/-- A duty given as a fraction, in steps of a period; a duty of 1 is realised 100 ns short (R294). -/
def packDuty (period : Nat) (num den : Nat) : Nat := min (period - 800) ((2 * num * period + den) / (2 * den))

/-- One COMP of unit 16 (R294, R295): the compensator and the legs' shadow duties. -/
def State.packComp (s : State) (shadow : Bool) : State :=
  if !s.packRunning || !s.compEffective s.packTsw then s
  else
    let x := s.pack
    let e0 := s.packIref - s.getI PACK_I_PACK_I
    let vchg := roundDiv (s.packVchg : Nat) 10
    let e := if packCharging s.packCode then min e0 ((s.get PACK_LOOP_K_V : Int) * (vchg - s.vPack)) else e0
    let u := roundDiv ((s.packCoef PACK_B0_COEF * e + s.packCoef PACK_B1_COEF * x.e1 + s.packCoef PACK_B2_COEF * x.e2) * 2 ^ 22 -
      s.packCoef PACK_A1_COEF * x.u1 - s.packCoef PACK_A2_COEF * x.u2) (2 ^ 22)
    let ratio := roundDiv ((s.vPack * 4096 : Nat)) ((max 1000 (s.get PACK_MEAS_V_HB) : Nat))
    let raw := ratio + roundDiv u (2 ^ 22)
    let m := (clampI 410 16383 raw).toNat
    let u' := ((m : Int) - ratio) * 2 ^ 22
    let s1 := { s with pack.e1 := e, pack.e2 := x.e1, pack.u1 := u', pack.u2 := x.u1 }
    if !shadow then s1
    else
      let period := s.packTsw * 8
      let w := 256 - min 64 (s.get PACK_LOOP_BBW)
      let d :=
        if m * 256 ≤ 4096 * w then (packDuty period m 4096, packDuty period 1 1)
        else if 4096 * 256 ≤ m * w then (packDuty period 1 1, packDuty period 4096 m)
        else (packDuty period (w * max 4096 m) (256 * 4096), packDuty period (w * max 4096 m) (256 * m))
      (s1.pwmShadow 34 2 d.1).pwmShadow 35 2 d.2

/-! ### The pack record (R303) -/

def packRec : Nat := 0x17F000

/-- The record's flag `k`. -/
def State.packFlag (s : State) (k : Nat) : Bool := bitOf (s.load (packRec + 4) 4) k

/-- An anchor of the pack record, full or empty (R303). -/
def State.packAnchor (s : State) (full : Bool) : State :=
  let q := s.loadI (packRec + 8) 6
  let dq := (q - s.loadI (packRec + 0x10) 6).natAbs
  let cap : Int := s.load (packRec + 0x26) 2
  let alt := s.packFlag (if full then 2 else 1)
  let cap' := if alt then clampI 0 65535 (cap + roundDiv (roundDiv (dq : Int) 36000 - cap) 8) else cap
  ((((s.store (packRec + 4) 4 (if full then 2 else 4)).storeI (packRec + 0x10) 6 q).store (packRec + 0x24) 2 (if full then 50000 else 0)).store
    (packRec + 0x26) 2 cap'.toNat).store (packRec + 0x28) 4 s.frame

/-- At RISE a record with a wrong SIG is written anew (R303). -/
def State.packRecCheck (s : State) : State :=
  if s.load packRec 4 = 0x4B434150 then s
  else ((((s.zeroRange packRec 64).store packRec 4 0x4B434150).store (packRec + 4) 4 1).store (packRec + 0x26) 2 (s.get PACK_QNOM_QNOM))

/-- At the round step of R179 the estimator adds PACK.ROUNDQ to Q_PACK; discharge counts toward DIS_AH. -/
def State.packCount (s : State) : State :=
  let q := s.getI PACK_ROUNDQ_Q
  let d := s.pack.disMas + (-q).toNat
  { (s.storeI (packRec + 8) 6 (s.loadI (packRec + 8) 6 + q)).bump (packRec + 0x2C) 4 (d / 3600000) with pack.disMas := d % 3600000 }

/-- The state of charge of the pack at a frame boundary (R303). -/
def State.packSocTrue (s : State) : Nat :=
  let old := s.load (packRec + 0x20) 2
  let v := roundDiv ((s.vPack * 100 : Nat)) (s.nCells : Nat)
  let set := s.get PACK_CFG_OCVSET
  if s.packFlag 0 then
    if (s.getI PACK_I_PACK_I).natAbs * s.kTerm ≤ s.get PACK_ICHG_I_FAST ∧ bitOf (s.get OCV_VALID_RAM) set then
      match s.packTemp with
      | some t => s.soc (ocvBase set) (s.ocvColumn (ocvBase set) t) 2 v
      | none => Config.packSoc v.toNat % 50001
    else old
  else
    let dq := s.loadI (packRec + 8) 6 - s.loadI (packRec + 0x10) 6
    let cap := s.load (packRec + 0x26) 2
    (clampI 0 50000 ((s.load (packRec + 0x24) 2 : Int) +
      (if cap = 0 then Config.packNoCap dq else roundDiv (dq * 25) ((18 * cap : Nat) : Int)))).toNat

/-- The pack record at a frame boundary. -/
def State.packFrame (s : State) : State :=
  let soc := s.packSocTrue
  let i := if s.pack.iNum = 0 then s.getI PACK_I_PACK_I else roundDiv s.pack.iSum (s.pack.iNum : Nat)
  let s1 := (((s.store (packRec + 0x20) 2 soc).store (packRec + 0x22) 2 soc).store (packRec + 0x18) 2 s.vPack).store (packRec + 0x1A) 2
    (s.get PACK_T_PACK_T)
  { s1.storeI (packRec + 0x1C) 4 i with pack.iSum := 0, pack.iNum := 0 }

/-! ### States (R298 to R302) -/

/-- The temperature zone under hysteresis (R301). -/
def State.packZoneOf (s : State) (t : Int) (old : Nat) : Nat :=
  let h : Int := 16 * s.get PACK_ZLIM_T_ZHYS
  let lim := fun (f : Fld) => (16 * ((s.get f : Int) - 40) : Int)
  let cool := lim PACK_ZONE_T_COOL + (if old = 0 then h else 0)
  let normal := lim PACK_ZONE_T_NORMAL + (if old ≤ 1 then h else 0)
  let warm := lim PACK_ZONE_T_WARM - (if 3 ≤ old then h else 0)
  let hot := lim PACK_ZONE_T_HOT - (if old = 4 then h else 0)
  if t < cool then 0 else if t < normal then 1 else if t < warm then 2 else if t < hot then 3 else 4

/-- T_PACK and the zone at a round boundary (R301). -/
def State.packZone (s : State) : State :=
  let old := s.get PACK_STATE_ZONE
  let src := s.get PACK_CFG_TSRC
  let set : State → Nat → State := fun t z => if z = old then t else (t.put PACK_STATE_ZONE z).raise PG_PACK PACK_ST_ZONE
  match s.packTemp with
  | some t => set (s.putI PACK_T_PACK_T t) (s.packZoneOf t old)
  | none => if src = 0 ∨ 8 < src then set s 4 else (set s 4).err PG_PACK PACK_ERR_TSFAIL

/-- Presence becomes `b`; a removal clears TOLATCH (R300). -/
def State.setPresent (s : State) (b : Bool) : State :=
  if s.on PACK_STATE_PRESENT = b then s
  else
    let s1 := (s.put PACK_STATE_PRESENT (b2n b)).level PG_PACK PACK_ST_PRESENT b
    if b then s1 else (s1.put PACK_STATE_TOLATCH 0).raise PG_PACK PACK_ST_PRESENT

/-- Whether both conditions of a present pack hold now (R300). -/
def State.packSeen (s : State) : Bool := decide (s.packMv PACK_VCELL1_V_LOWV_C ≤ 20 * s.vPack) && (!s.on PACK_CFG_DETEN || s.pack.det)

/-- The pack's presence is judged; `det` says that PACK_DET_N has been low for 50 ms.  Absence is counted by the round (R300). -/
def State.packPresence (s : State) (det : Bool) : State :=
  let s1 : State := { s with pack.det := det }
  if s1.packSeen then { s1.setPresent true with pack.okSeen := true } else s1

/-- The round's judgement of presence: a round in which a condition failed throughout makes the pack absent (R300; DEDUCED, log entry 177). -/
def State.packRoundPresence (s : State) : State :=
  if s.packSeen then { s.setPresent true with pack.okSeen := false }
  else { (if s.pack.okSeen then s else s.setPresent false) with pack.okSeen := false }

/-- TOLATCH and CUTLATCH. -/
def State.setCut (s : State) (b : Bool) : State := (s.put PACK_STATE_CUTLATCH (b2n b)).level PG_PACK PACK_ST_CUTOFF b

/-- The safety timer restarts. -/
def State.safeReset (s : State) : State := { s.put PACK_TIMERS_T_SAFE_EL 0 with pack.safeHalf := 0 }

/-- The last row of Table 10, where none before it matched: CUTLATCH ends at V_PACK_MIN + V_CUTHYS. -/
def State.packCutRow (s : State) : State :=
  if s.on PACK_STATE_CUTLATCH && decide (s.packMv PACK_VCELL1_V_PMIN_C + s.packMv PACK_VCELL2_V_CUTHYS_C ≤ 10 * s.vPack) then s.setCut false else s

/-- The charging rows of Table 10. -/
def State.packChargeRows (s : State) : State :=
  let c := s.packCode
  let mv := 10 * s.vPack
  let lowv := s.packMv PACK_VCELL1_V_LOWV_C
  let z := s.get PACK_STATE_ZONE
  let phase := s.get PACK_STATE_PHASE
  let s0 := { s with pack.restart := false }
  if s.on PACK_STATE_TOLATCH ∨ s.pack.hold ∨ !s.on PACK_CFG_CHG_EN ∨ z = 0 ∨ z = 4 then s0.setPack 7
  else if c = 0 ∨ c = 1 ∨ ((c = 7 ∨ c = 8 ∨ c = 9) ∧ phase = 0) then
    (if mv < lowv then s0.safeReset.setPack 2 else s0.safeReset.setPack 3)
  else if c = 7 ∨ c = 8 ∨ c = 9 then s0.setPack phase
  else if c = 2 then (if lowv + 20 * s.nCells ≤ mv then s0.setPack 3 else s0.packCutRow)
  else if c = 3 ∨ c = 6 then (if s.packVchg ≤ mv + 50 then s0.setPack 4 else s0.packCutRow)
  else if c = 5 then
    let run := if mv + s.packMv PACK_VCELL2_DV_RECH_C ≤ s.packVchg then s.pack.rechRun + 1 else 0
    if 10 ≤ run ∨ s.pack.restart then s0.safeReset.setPack 6 else { s0.packCutRow with pack.rechRun := run }
  else s0.packCutRow

/-- The first matching row of Table 10 (R299). -/
def State.packRows (s : State) : State :=
  let c := s.packCode
  let ok := !s.on PACK_STATE_CUTLATCH && s.packDischarge
  if c = 10 ∨ c = 11 then s
  else if !s.on PACK_STATE_PRESENT then ((s.put PACK_STATE_TOLATCH 0).setCut false).setPack 1
  else if !(s.mode == .run || s.mode == .ride) ∨ !s.blockOn PG_PACK ∨ s.on FAULT_HOLDS_HALT then s.setPack 0
  else if s.mode = .ride then
    (if s.on PACK_CFG_RIDE_EN && ok then s.setPack 9 else (s.setPack 7).raise PG_PACK PACK_ST_BOOSTUNMET)
  else if s.get DISPATCH_SUPPLY_PACK_BOOST ≠ 0 then
    (if ok then s.setPack 8 else (s.raise PG_PACK PACK_ST_BOOSTUNMET).packChargeRows)
  else s.packChargeRows

/-- The safety timer runs out (R302). -/
def State.safetyOut (s : State) : State :=
  if (s.packCode = 3 ∨ s.packCode = 4 ∨ s.packCode = 6) ∧ atLeast1 (s.get PACK_SAFE_T_SAFE) * 120000 ≤ s.pack.safeHalf then
    ((s.put PACK_STATE_TOLATCH 1).setPack 7).raise PG_PACK PACK_ST_CHGTO
  else s

/-- The safety timer of a round (R302). -/
def State.safetyStep (s : State) : State :=
  if s.packCode = 3 ∨ s.packCode = 4 ∨ s.packCode = 6 then
    let r := s.packCharge
    let ref := min r.1 (min r.2.1 r.2.2)
    let h := s.pack.safeHalf + (if ref = r.1 then 2 else 1)
    let s1 := { s.put PACK_TIMERS_T_SAFE_EL (min 65535 (h / 2000)) with pack.safeHalf := h }
    (s1.raiseIf (decide (r.2.1 < r.1) && decide (r.2.1 ≤ r.2.2)) PG_PACK PACK_ST_SAG).safetyOut
  else s

/-- The accumulators of a round (R296). -/
def State.packEnergy (s : State) : State :=
  let x := s.pack
  let q := x.qAcc.tdiv 1000000000
  { ((s.putI PACK_ROUNDQ_Q q).put PACK_EOUT_E (x.eOut / 1000000000)).put PACK_EIN_E (x.eIn / 1000000000) with
    pack := { x with qAcc := x.qAcc - q * 1000000000, eOut := x.eOut % 1000000000, eIn := x.eIn % 1000000000 } }

/-- The counts of a round: rounds below V_SHED in RIDE (R289), rounds in CV below I_FAST / K_TERM, rounds in PRECHARGE (R299). -/
def State.packCounts (s : State) : State :=
  let x := s.pack
  let low := if x.marks = 0 then decide (s.get PACK_MEAS_V_HB < s.get PACK_SHED_V_SHED) else decide (x.vhbSum < s.get PACK_SHED_V_SHED * x.marks)
  let tail :=
    if x.marks = 0 then decide (s.getI PACK_I_PACK_I * s.kTerm < s.get PACK_ICHG_I_FAST)
    else decide (x.roundI * s.kTerm < (s.get PACK_ICHG_I_FAST * x.marks : Nat))
  { s with
      pack := { x with
        vhbSum := 0, roundI := 0, marks := 0,
        shedRun := if s.mode = .ride ∧ low then x.shedRun + 1 else 0,
        termMs := if s.packCode = 4 ∧ tail then x.termMs + 1 else 0,
        preMs := if s.packCode = 2 then x.preMs + 1 else 0 } }

/-- The pack at a round boundary (R289, R296, R299 to R302). -/
def State.packRound (s : State) : State := (s.packEnergy.packCounts.packRoundPresence.packZone).safetyStep.packRows

/-- The cut-off at a cycle marker (R299): V_PACK_MIN is judged on the cycle's PACK_VS result; a cycle without one ends the run (DEDUCED, log
entry 176). -/
def State.packCutoff (s : State) : State :=
  let run := if s.pack.vsFresh ∧ 10 * s.vPack < s.packMv PACK_VCELL1_V_PMIN_C then min 2 (s.pack.cutRun + 1) else 0
  let s1 : State := { s with pack.cutRun := run, pack.vsFresh := false }
  if run = 2 ∧ !s1.on PACK_STATE_CUTLATCH then
    let s2 := (s1.setCut true).packAnchor false
    if s2.packCode = 8 ∨ s2.packCode = 9 then s2.packRows else s2
  else s1

/-- The pack at a cycle marker. -/
def State.packMarker (s : State) : State :=
  let s1 := s.packSums.packCutoff.rshedFast
  if s1.packSeen then { s1 with pack.okSeen := true } else s1

/-- PACK_PRECHARGE_TIMEOUT: PRECHARGE has lasted for T_PRE. -/
def State.prechargeTimeout (s : State) : State :=
  if s.packCode = 2 ∧ atLeast1 (s.get PACK_TERM_T_PRE) * 60000 ≤ s.pack.preMs then (s.put PACK_STATE_TOLATCH 1).raise PG_PACK PACK_ST_PRETO else s

/-- PACK_TERMINATION: CV current below I_FAST / K_TERM for T_TERM: DONE and a full anchor. -/
def State.packDone (s : State) : State :=
  if s.packCode = 4 ∧ s.get PACK_TERM_T_TERM * 1000 ≤ s.pack.termMs then
    let s1 := (s.setPack 5).put PACK_COUNTS_CHARGES (satInc 4095 (s.get PACK_COUNTS_CHARGES))
    (s1.packAnchor true).raise PG_PACK PACK_ST_DONE
  else s

/-- CMD OP 1: TOLATCH is cleared; charging resumes with the safety timer at 0 (log entry 19). -/
def State.packClearTo (s : State) : State := if s.on PACK_STATE_TOLATCH then (s.put PACK_STATE_TOLATCH 0).safeReset else s

/-- CMD OP 2: DONE to RECHARGE, or the end of a hold. -/
def State.packRestart (s : State) : State :=
  if s.pack.hold then { s with pack.hold := false } else if s.packCode = 5 then { s with pack.restart := true } else s

/-- CMD OP 3. -/
def State.packHold (s : State) : State := { s with pack.hold := true }

/-- A write of PACK.CMD (Table 14). -/
def State.packCmd (s : State) (v : Nat) : State :=
  if bitsOf v 16 16 ≠ 0x9AC6 then s
  else match v % 4 with
    | 1 => s.packClearTo
    | 2 => s.packRestart
    | 3 => s.packHold
    | _ => s

/-- T_HIC ends (R297). -/
def State.packHicEnd (s : State) : State := if s.packCode = 10 then (s.setPack s.pack.hicFrom).packClear else s

/-- PACK_SENSE_LOSS: four periods in a row gave no PACK_CS result (R293). -/
def State.packSenseLoss (s : State) : State :=
  if s.packRunning && decide (4 ≤ s.pack.noCs) then { (s.err PG_PACK PACK_ERR_SENSE).packClear with pack.senseStop := true } else s

/-- FAULT. -/
def State.packFault (s : State) (cause : Nat) (inj : Bool) : State := (s.setPack 11).errI PG_PACK cause inj

/-- Comparator 23 trips (R297). -/
def State.packOv (s : State) : State := s.packFault PACK_ERR_OV false

/-- Comparator 22 trips: the stage floats for the rest of the period while |i_ref| < I_FAST / K_TERM (R295). -/
def State.packZero (s : State) : State :=
  if s.packRunning && decide (s.packIref.natAbs * s.kTerm < s.get PACK_ICHG_I_FAST) then { s with pack.floats := true } else s

/-- Charge and energy of a switching period (R296). -/
def State.packAccumulate (s : State) : State :=
  let i := s.getI PACK_I_PACK_I
  let p := roundDiv (i * s.vPack) 100
  let c := if s.get PACK_ETA_ETA_C = 0 then 65535 else s.get PACK_ETA_ETA_C
  let d := if s.get PACK_ETA_ETA_D = 0 then 65535 else s.get PACK_ETA_ETA_D
  let bus : Int := if 0 ≤ p then -(roundDiv (p * 65536) (c : Int)) else roundDiv (-p * (d : Int)) 65536
  let t := s.packTsw
  { s with pack.qAcc := s.pack.qAcc + i * t, pack.eOut := s.pack.eOut + bus.toNat * t, pack.eIn := s.pack.eIn + (-bus).toNat * t }

/-- A limited cycle, or a good one; N_HIC in a row are a hiccup (R297). -/
def State.packLimited (s : State) (acted : Bool) : State :=
  if !acted then { s with pack.limRun := 0 }
  else
    let run := s.pack.limRun + 1
    let s1 := s.raise PG_PACK PACK_ST_LIMITED
    if run < atLeast1 (s.get PACK_HICCUP_N_HIC) then { s1 with pack.limRun := run }
    else
      let s2 := (s1.setPack 10).put PACK_COUNTS_HIC (satInc 127 (s.get PACK_COUNTS_HIC))
      { s2.packClear with pack.hicFrom := s.packCode }

/-- A period boundary of outputs 34 and 35 (R293, R296, R297): comparator 23 holds the same legs. -/
def State.packBoundary (s : State) (padsBad : Bool) : State :=
  let res := ((s.pwmBoundary 34 s.packTsw).pwmBoundary 35 s.packTsw).cmpBoundary 20
  let a1 := res.1
  let res2 := res.2.cmpBoundary 21
  let a2 := res2.1
  let s2 : State := { (res2.2.cmpBoundary 23).2 with pack.floats := false }
  if !s2.packRunning then { s2 with pack.csFresh := false, pack.noCs := 0, pack.padMis := false }
  else
    let inj := s2.injOn PG_PACK 2
    let s3 : State :=
      { (s2.injTake PG_PACK 2).packAccumulate with pack.csFresh := false, pack.noCs := if s2.pack.csFresh then 0 else min 4 (s2.pack.noCs + 1) }
    let bad := padsBad || inj
    if bad && s3.pack.padMis then { s3 with pack.padMis := false }.packFault PACK_ERR_READBACK inj
    else { s3 with pack.padMis := bad }.packLimited (a1 || a2)

/-! ### Class switches (R283, R289, R291) -/

/-- The lanes switch into RIDE (R283, R284, R289): the shed level, the droop of the pack; a hand-back in progress is abandoned. -/
def State.rideEntered (s : State) : State :=
  let s1 := (s.put PACK_STATE_RSHED (max s.rshed (s.get PACK_HANDBACK_RIDE_SHED0))).put PACK_STATE_HB 0
  let s2 := { s1.put PACK_COUNTS_RIDES (satInc 4095 (s1.get PACK_COUNTS_RIDES)) with hb.backStart := none }
  ((s2.setRet 0).raise PG_PACK PACK_ST_RIDE).packRows

/-- The lanes switch from RIDE to RUN (R291). -/
def State.rideLeft (s : State) : State :=
  let s1 := ((s.inpRelease.put PACK_STATE_LOSS 0).put PACK_STATE_RETOK 0).raise PG_PACK PACK_ST_RETURN
  let s2 := (List.finRange 16).foldl
    (fun (t : State) (n : Fin 16) => if balRunning (t.balCode n) then t.schedPut (BAL_PSET_P_SET.at n) (ofSigned 16 (t.balNet n)) else t) s1
  let sets : List Int := (List.finRange 16).map fun n => if balRunning (s2.balCode n) then s2.balNet n else 0
  let s3 : State := { s2 with hb.setpoints := sets, hb.backStart := none }
  let s4 := s3.hbStart.put PACK_STATE_HB 1
  if s4.packCode = 9 then (s4.put DISPATCH_SUPPLY_PACK_BOOST (clampI 0 65535 s4.packPower).toNat).setPack 8 else s4

/-- RUN entered otherwise: no hand-back (R275, R277, R289). -/
def State.runEntered (s : State) : State := (s.hbStart.put PACK_STATE_RSHED 0).put PACK_STATE_HB 0

/-- A function reset of PACK (R304): OFF, FAULT, the hiccup count and RSHED cleared. -/
def State.packReset (s : State) : State :=
  { (((s.setPack 0).put PACK_STATE_RSHED 0).put PACK_COUNTS_HIC 0).packClear with
      pack.limRun := 0, pack.senseStop := false, pack.padMis := false, pack.shedRun := 0, pack.floats := false }

end Sys2Proof.Machine
end

