-- ==== Sys2Proof/Machine/Feeds.lean ====
section
/-! DEFINITION. Branch feeds (chapter 13). -/

namespace Sys2Proof.Machine

/-- Feed `n` beside its registers. -/
def State.fd (s : State) (n : Fin 8) : FeedS := s.feed[n]

/-- The state with it replaced. -/
def State.setFd (s : State) (n : Fin 8) (x : FeedS) : State := { s with feed := s.feed.set n x }

/-- A field of feed `n`. -/
def feedF (f : Fld) (n : Fin 8) : Fld := f.el n

/-- The feed's state code (Table 2). -/
def State.feedCode (s : State) (n : Fin 8) : Nat := s.get (feedF FEEDS_STATE_CODE n)

/-- The feed enters state `c`: STATEn, SUMMARY and the PG and SHED levels follow (R307, R310, R317). -/
def State.setFeed (s : State) (n : Fin 8) (c : Nat) : State :=
  let s1 := (s.put (feedF FEEDS_STATE_CODE n) c).put (feedF FEEDS_STATE_PG n) (b2n (c == 4))
  let s2 := (s1.put FEEDS_SUMMARY_PG (putBit (s1.get FEEDS_SUMMARY_PG) n (c == 4))).put FEEDS_SUMMARY_SHED
    (putBit (s1.get FEEDS_SUMMARY_SHED) n (c == 5))
  (s2.level PG_FEEDS n (c == 4)).level PG_FEEDS (16 + n) (c == 5)

/-- Whether the seat is confirmed. -/
def State.seated (s : State) (n : Fin 8) : Bool := s.on (feedF FEEDS_STATE_SEATED n)

/-- The seat becomes confirmed or not: STATUS.SEAT. -/
def State.setSeat (s : State) (n : Fin 8) (b : Bool) : State :=
  let s1 := (s.put (feedF FEEDS_STATE_SEATED n) (b2n b)).put FEEDS_SUMMARY_SEATED (putBit (s.get FEEDS_SUMMARY_SEATED) n b)
  s1.raise PG_FEEDS (24 + n)

/-- Whether the applied level covers the feed's class (R314). -/
def State.feedShed (s : State) (n : Fin 8) : Bool :=
  let c := s.get (feedF FEEDS_CFG_CLASS n)
  c != 0 && decide (4 ≤ c + s.get FEEDS_LEVEL_L)

/-- The feed goes to QUEUED, or to SHED while its class is shed (R314, Table 5). -/
def State.feedQueue (s : State) (n : Fin 8) : State := if s.feedShed n then s.setFeed n 5 else s.setFeed n 2

/-- The feed goes to UNSEATED, and on when its seat is confirmed (Table 2). -/
def State.feedUnseat (s : State) (n : Fin 8) : State := if s.seated n then s.feedQueue n else s.setFeed n 1

/-- The feed goes to OFF. -/
def State.feedOff (s : State) (n : Fin 8) : State := (s.setFeed n 0).setFd n { s.fd n with restart := false }

/-- Both enables of the feed. -/
def State.feedEnabled (s : State) (n : Fin 8) : Bool := s.blockOn PG_FEEDS && s.on (feedF FEEDS_CFG_EN n)

/-- Whether the mode runs the feed (R315, Table 4). -/
def State.feedMode (s : State) (n : Fin 8) : Bool :=
  match s.mode with
  | .run | .ride | .service => !(s.fd n).held
  | .safe => s.on (feedF FEEDS_CFG_SAFEON n)
  | _ => false

/-- Enables and mode as they stand take effect on a feed (Table 2). -/
def State.feedEnable (s : State) (n : Fin 8) : State :=
  if !s.feedEnabled n then (if s.feedCode n = 0 then s else s.feedOff n)
  else if s.feedCode n = 0 && s.feedMode n then s.feedUnseat n
  else s

/-- The same on every feed. -/
def State.feedsEnable (s : State) : State := (List.finRange 8).foldl (fun (t : State) (n : Fin 8) => t.feedEnable n) s

/-- Every feed goes off (R315). -/
def State.feedsOff (s : State) : State := (List.finRange 8).foldl (fun (t : State) (n : Fin 8) => t.feedOff n) s

/-! ### Trips and retries (R311, R313) -/

/-- The kinds of Table 3. -/
inductive FeedTrip where
  | fast
  | timed
  | ot
  | start
deriving DecidableEq, Repr

/-- The kind's count. -/
def FeedTrip.count : FeedTrip → Fld
  | .fast => FEEDS_COUNTS_FAST
  | .timed => FEEDS_COUNTS_TIMED
  | .ot => FEEDS_COUNTS_OT
  | .start => FEEDS_COUNTS_START

/-- A trip of a feed in START or ON (R311, R313); `ton` is t_ON in ms. -/
def State.feedTripAt (s : State) (n : Fin 8) (k : FeedTrip) (ton : Nat) : State :=
  let f := feedF k.count n
  let s1 := (s.put f (satInc (2 ^ f.w - 1) (s.get f))).bump (hwFeed n) 4 1
  let c := satInc 255 (s.get (feedF FEEDS_STATE_CONSEC n))
  let off := max (max 99 (s.get FEEDS_GCFG_K_RETRY) * min ton (s.get FEEDS_RETRY_T_ONCAP)) (atLeast1 (s.get FEEDS_RETRY_T_RETRY_MIN))
  let s2 := ((s1.put (feedF FEEDS_STATE_CONSEC n) c).put (feedF FEEDS_TIME_TON n) (min 65535 ton)).put (feedF FEEDS_TIME_OFFREM n)
    (min 65535 ((off + 99) / 100))
  let s3 := (s2.setFd n { s2.fd n with offLeft := off, hotTrip := k == .ot, above := false, span := 0, restart := false }).raise PG_FEEDS (8 + n)
  let lim := s.get (feedF FEEDS_CFG_RETRY_LIM n)
  if lim ≠ 0 ∧ lim ≤ c then (s3.setFeed n 7).err PG_FEEDS FEEDS_ERR_LOCKED else s3.setFeed n 6

/-- A trip now. -/
def State.feedTrip (s : State) (n : Fin 8) (k : FeedTrip) : State :=
  if s.feedCode n = 3 ∨ s.feedCode n = 4 then s.feedTripAt n k ((s.tMarker - (s.fd n).startT.getD s.tMarker) / 400000).toNat else s

/-- The comparator's hold has killed the gate (R311). -/
def State.feedFast (s : State) (n : Fin 8) : State := if s.on (cmpHold (24 + n)) then s.feedTrip n .fast else s

/-- The retry of a feed whose off time has passed (R313, Table 5): an OT trip waits for the junction to cool; in SERVICE there is no automatic
retry. -/
def State.feedRetry (s : State) (n : Fin 8) : State :=
  let x := s.fd n
  let cool := decide (s.getI (feedF FEEDS_TJ_T n) ≤ 16 * ((s.get FEEDS_LIMITS_T_FET_MAX : Int) - 20))
  if s.feedCode n = 6 && x.offLeft == 0 && s.on (feedF FEEDS_CFG_AUTO n) && s.seated n && !(s.mode == .service) && (!x.hotTrip || cool) then s.feedQueue n
  else s

/-- T_GOOD in ON (R313). -/
def State.feedGood (s : State) (n : Fin 8) : State :=
  if s.feedCode n = 4 ∧ (s.fd n).onT + (s.get FEEDS_GOOD_T_GOOD : Int) * 400000000 ≤ s.tMarker then s.put (feedF FEEDS_STATE_CONSEC n) 0 else s

/-! ### Seating and starting (R308 to R310) -/

/-- T_SEAT of low samples; the pin is sampled while LOOP is clocked (R308). -/
def State.seatConfirm (s : State) (n : Fin 8) : State :=
  if s.seated n ∨ !s.dev.pll then s
  else
    let s1 := s.setSeat n true
    if s1.feedCode n = 1 then s1.feedQueue n else s1

/-- Two consecutive high samples (R308, Table 5). -/
def State.seatRemove (s : State) (n : Fin 8) : State :=
  if !s.dev.pll then s
  else
  let s1 := if s.seated n then s.setSeat n false else s
  let c := s1.feedCode n
  if c = 0 ∨ c = 1 then s1
  else
    let s2 := if c = 6 ∨ c = 7 then s1.put (feedF FEEDS_STATE_CONSEC n) 0 else s1
    (s2.setFd n { s2.fd n with restart := false }).setFeed n 1

/-- Whether T_STAGGER has passed since the last START of any feed began (R309). -/
def State.feedStaggered (s : State) : Bool :=
  (List.finRange 8).all fun (k : Fin 8) =>
    match (s.fd k).startT with
    | none => true
    | some t => decide (t + (s.get FEEDS_GCFG_T_STAGGER : Int) * 400000 ≤ s.tMarker)

/-- Whether it is the feed's turn: QUEUED, no feed in START, T_STAGGER past, none before it by class and number (R309); in SERVICE only after a CMD
restart (R315). -/
def State.feedTurn (s : State) (n : Fin 8) : Bool :=
  let may := fun (k : Fin 8) => s.feedCode k == 2 && (!(s.mode == .service) || (s.fd k).restart)
  may n && s.feedStaggered && !(List.finRange 8).any (fun k => s.feedCode k == 3) &&
    !(List.finRange 8).any fun k => may k && (decide (s.get (feedF FEEDS_CFG_CLASS k) < s.get (feedF FEEDS_CFG_CLASS n)) ||
      (s.get (feedF FEEDS_CFG_CLASS k) == s.get (feedF FEEDS_CFG_CLASS n) && decide (k.val < n.val)))

/-- The feed starts: its hold is released; with the comparator still tripped the attempt is a FAST trip (R309, R313). -/
def State.feedStart (s : State) (n : Fin 8) : State :=
  if !s.feedTurn n then s
  else
    let s1 := (s.holdWrite (2 ^ (24 + n.val))).setFd n { s.fd n with startT := some s.tMarker, pgSince := none, noRes := 0, restart := false }
    let s2 := s1.setFeed n 3
    if s2.on (cmpHold (24 + n)) then s2.feedTripAt n .fast 0 else s2

/-- A feed's monitors at a cycle marker (R306): V_DS in TJn, and whether V_GS ≥ 8 V and V_DS ≤ V_DS_PG hold (R310). -/
def State.feedMonitor (s : State) (n : Fin 8) (x : FetSense) : State :=
  let s1 := s.put (feedF FEEDS_TJ_VDS n) x.vds
  let ok := decide (128 ≤ 5 * x.vgs) && decide (x.vds ≤ s.get FEEDS_GOOD_V_DS_PG)
  s1.setFd n { s1.fd n with vgs := x.vgs, pgSince := if !ok then none else some ((s1.fd n).pgSince.getD s.tMarker) }

/-- The monitors of the feeds a marker brings readings of. -/
def State.feedMonitors (s : State) (l : List FetSense) : State :=
  (List.finRange 8).foldl (fun (t : State) (n : Fin 8) => match l[n.val]? with | some x => t.feedMonitor n x | none => t) s

/-- Power-good, once both monitors have held for 1 ms of cycle markers (R310). -/
def State.feedPowerGood (s : State) (n : Fin 8) : State :=
  match (s.fd n).pgSince with
  | none => s
  | some t => if s.feedCode n = 3 ∧ t + 400000 ≤ s.tMarker then (s.setFd n { s.fd n with onT := s.tMarker }).setFeed n 4 else s

/-- T_START_MAX of START without power-good is a trip (Table 3). -/
def State.feedStartMax (s : State) (n : Fin 8) : State :=
  match (s.fd n).startT with
  | none => s
  | some t =>
    if s.feedCode n = 3 ∧ t + (atLeast1 (s.get FEEDS_LIMITS_T_START_MAX) : Int) * 400000 ≤ s.tMarker then s.feedTrip n .start else s

/-! ### Currents and temperatures (R306, R312) -/

/-- One stage of the model in 2^-32 K; `vi` is V_DS × I in 0.3125 V × mA, `dt` in 2.5 ns. -/
def State.feedFoster (s : State) (k : Nat) (vi dt old : Int) : Int :=
  let rth : Int := s.get (FEEDS_FOSTER_RTH.el k)
  let tau : Int := s.get (FEEDS_FOSTER_TAU.el k)
  old + roundDiv ((roundDiv (vi * rth * 21474836480) 1600000 - old) * dt) (tau * 40000 + dt)

/-- T_AMB in 1/16 °C. -/
def State.feedAmbient (s : State) : Int :=
  let src := s.get FEEDS_GCFG_AMB_SRC
  if src = 0 ∨ 8 < src then 16 * ((s.get FEEDS_GOOD_T_AMB : Int) - 40) else s.getI (THERM_AUXT_T.el (src - 1))

/-- The junction temperature is judged (Table 3). -/
def State.feedJudgeT (s : State) (n : Fin 8) (hot : Bool) : State :=
  if hot || decide (16 * (s.get FEEDS_LIMITS_T_FET_MAX : Int) ≤ s.getI (feedF FEEDS_TJ_T n)) then s.feedTrip n .ot else s

/-- The AUX input that gives the feed's temperature directly. -/
def State.feedSrc (s : State) (n : Fin 8) : Option Nat :=
  let t := s.get (feedF FEEDS_CFG_TSRC n)
  if t = 0 ∨ 8 < t then none else some (t - 1)

/-- A model step over `dt` (R312). -/
def State.feedModel (s : State) (n : Fin 8) (vi dt : Int) : State :=
  if (s.feedSrc n).isSome && !(s.fd n).badTemp then s
  else
    let x := s.fd n
    let d1 := s.feedFoster 0 vi dt x.dt1
    let d2 := s.feedFoster 1 vi dt x.dt2
    let d3 := s.feedFoster 2 vi dt x.dt3
    let inj := s.injOn PG_FEEDS 1
    let s1 := ((s.injTake PG_FEEDS 1).putI (feedF FEEDS_TJ_T n)
      (clampI (-32768) 32767 (s.feedAmbient + roundDiv (d1 + d2 + d3) 268435456))).setFd n { x with dt1 := d1, dt2 := d2, dt3 := d3 }
    s1.feedJudgeT n inj

/-- The timed check on a result (Table 3). -/
def State.feedTimedStep (s : State) (n : Fin 8) (dt : Int) : State :=
  let inj := s.injOn PG_FEEDS 2
  let s1 := s.injTake PG_FEEDS 2
  let above := inj || decide ((s.get (feedF FEEDS_LIM_I_OC n) : Int) * 100 < s.getI (feedF FEEDS_I_I n))
  let x := s1.fd n
  s1.setFd n { x with above := above, span := if above && x.above then x.span + dt else 0 }

/-- The timed trip, once its span has reached T_OC (Table 3). -/
def State.feedTimed (s : State) (n : Fin 8) : State :=
  if (s.fd n).above && decide ((atLeast1 (s.get (feedF FEEDS_LIM_T_OC n)) : Int) * 400000 ≤ (s.fd n).span) then s.feedTrip n .timed else s

/-- The timed check and the model step on a current `i`, over the time since the last step (R306, R311, R312). -/
def State.feedStep (s : State) (n : Fin 8) (i : Int) : State :=
  let dt := match (s.fd n).lastT with | some t => s.tMarker - t | none => 0
  let s1 := s.setFd n { s.fd n with lastT := some s.tMarker }
  let s2 := (s1.feedTimedStep n dt).feedTimed n
  if s2.feedCode n = 3 ∨ s2.feedCode n = 4 then s2.feedModel n ((s2.get (feedF FEEDS_TJ_VDS n) : Int) * i) dt else s2

/-- A feed current result arrives (R306). -/
def State.feedResult (s : State) (n : Fin 8) : State :=
  let src := s.get (feedF FEEDS_CFG_SRC n)
  let code := (s.rd (adcPage 2 * 0x400 + 0x300 + 4 * src)).toNat % 4096
  let i := scaleCode code (s.getI (feedF FEEDS_CSCAL_OFFSET n)) (s.get (feedF FEEDS_CSCAL_GAIN n)) 16
  let s1 := s.putI (feedF FEEDS_I_I n) i
  (s1.setFd n { s1.fd n with noRes := 0 }).feedStep n i

/-- Four rounds without a current result (R306). -/
def State.feedSenseLoss (s : State) (n : Fin 8) : State :=
  if (s.feedCode n = 3 ∨ s.feedCode n = 4) ∧ 4 ≤ (s.fd n).noRes then s.err PG_FEEDS FEEDS_ERR_SENSE else s

/-- The reading of AUX input `m` reaches the feeds that take it directly (R312). -/
def State.feedsDirect (s : State) (m : Nat) : State :=
  (List.finRange 8).foldl
    (fun (t : State) (n : Fin 8) =>
      if t.feedSrc n = some m ∧ t.on (feedF FEEDS_CFG_EN n) then
        match t.auxTemp m with
        | some v => ((t.putI (feedF FEEDS_TJ_T n) v).setFd n { t.fd n with badTemp := false }).feedJudgeT n false
        | none => (t.setFd n { t.fd n with badTemp := true }).err PG_FEEDS FEEDS_ERR_TSFAIL
      else t) s

/-- One feed at a round boundary: the off time shown; the model with the gate discharged; in START or ON the rounds without a result, and
after four of them the timed check and the model on the last value (R306, R312, R313). -/
def State.feedRound (s : State) (n : Fin 8) : State :=
  let x := s.fd n
  let s1 :=
    if x.offLeft = 0 then s
    else (s.put (feedF FEEDS_TIME_OFFREM n) (min 65535 ((x.offLeft - 1 + 99) / 100))).setFd n { x with offLeft := x.offLeft - 1 }
  if s1.feedCode n = 3 ∨ s1.feedCode n = 4 then
    let s2 := s1.setFd n { s1.fd n with noRes := min 255 (x.noRes + 1) }
    if 4 ≤ (s2.fd n).noRes then s2.feedStep n (s2.getI (feedF FEEDS_I_I n)) else s2
  else (s1.setFd n { s1.fd n with noRes := 0 }).feedModel n 0 400000

/-- The feeds at a round boundary. -/
def State.feedsRound (s : State) : State := (List.finRange 8).foldl (fun (t : State) (n : Fin 8) => t.feedRound n) s

/-! ### Shedding, modes, commands (R314 to R316) -/

/-- A new applied shed level reaches the feeds (R314): held in SAFE, 0 in SERVICE. -/
def State.feedsShed (s : State) : State :=
  let l :=
    match s.mode with
    | .safe => s.feedL
    | .service => 0
    | _ => max (s.get DISPATCH_INCAP_SHEDLVL) (s.get PACK_STATE_RSHED)
  let hold := s.on FAULT_HOLDS_SHED
  let s1 := { s with feedL := l }.put FEEDS_LEVEL_L (if hold then 3 else l)
  (List.finRange 8).foldl
    (fun (t : State) (n : Fin 8) =>
      let c := t.feedCode n
      if (c = 2 ∨ c = 3 ∨ c = 4) ∧ t.feedShed n ∧ (hold ∨ t.mode ≠ .service) then t.setFeed n 5
      else if c = 5 ∧ !t.feedShed n ∧ t.mode ≠ .service then t.setFeed n 2
      else t) s1

/-- The snuff line or SAFE: feeds that are not kept go OFF until SAFE is left for RUN (R315). -/
def State.feedsSnuff (s : State) : State :=
  (List.finRange 8).foldl
    (fun (t : State) (n : Fin 8) => if t.on (feedF FEEDS_CFG_SAFEON n) then t else (t.feedOff n).setFd n { (t.feedOff n).fd n with held := true }) s

/-- Entry to RUN, or to RIDE or SERVICE at the end of a RISE (R315). -/
def State.feedsEnter (s : State) : State :=
  ((List.finRange 8).foldl (fun (t : State) (n : Fin 8) => t.setFd n { t.fd n with held := false }) s).feedsEnable

/-- The level at the end of a RISE, and at entry to SERVICE. -/
def State.feedsLevel0 (s : State) : State := { s with feedL := 0 }.put FEEDS_LEVEL_L (if s.on FAULT_HOLDS_SHED then 3 else 0)

/-- CMD OP 1: LOCKED is cleared on the masked feeds. -/
def State.feedsClearLocked (s : State) (mask : Nat) : State :=
  (List.finRange 8).foldl
    (fun (t : State) (n : Fin 8) =>
      if bitOf mask n && t.feedCode n == 7 then (t.put (feedF FEEDS_STATE_CONSEC n) 0).feedUnseat n else t) s

/-- CMD OP 2: TRIPPED to QUEUED at once; in SERVICE a start in turn (Table 8). -/
def State.feedsRestart (s : State) (mask : Nat) : State :=
  (List.finRange 8).foldl
    (fun (t : State) (n : Fin 8) =>
      let c := t.feedCode n
      if !bitOf mask n then t
      else if t.mode = .service then
        (if c = 2 ∨ c = 5 ∨ c = 6 then (t.setFeed n 2).setFd n { t.fd n with restart := true } else t)
      else if c = 6 then t.feedQueue n
      else t) s

/-- A write of FEEDS.CMD (Table 8). -/
def State.feedsCmd (s : State) (v : Nat) : State :=
  if bitsOf v 16 16 ≠ 0x3F0D then s
  else match v % 4 with
    | 1 => s.feedsClearLocked (bitsOf v 8 8)
    | 2 => s.feedsRestart (bitsOf v 8 8)
    | _ => s

/-- A function reset of FEEDS (Table 5): every feed OFF, counts of trips in a row cleared. -/
def State.feedsReset (s : State) : State :=
  (List.finRange 8).foldl (fun (t : State) (n : Fin 8) => (t.feedOff n).put (feedF FEEDS_STATE_CONSEC n) 0) s

end Sys2Proof.Machine
end

