-- ==== Sys2Proof/Machine/Rails.lean ====
section
/-! DEFINITION. Board rails, their sequencing, the reset outputs and the SVC converter (chapter 14). -/

namespace Sys2Proof.Machine

/-! ### Rails and their pages -/

/-! Cause numbers of the SEQ page (R343). -/

abbrev SEQ_ST_RISEDONE : Nat := 0
abbrev SEQ_ST_FALLDONE : Nat := 1
abbrev SEQ_ST_ABORT : Nat := 2
abbrev SEQ_ST_RESTART : Nat := 3
abbrev SEQ_ST_EARLY : Nat := 4
abbrev SEQ_ST_FORCED : Nat := 5
abbrev SEQ_ST_RSTREL : Nat := 6
abbrev SEQ_ST_VHBLOW : Nat := 7
abbrev SEQ_ERR_RAILFLT : Nat := 1
abbrev SEQ_ERR_PGTO : Nat := 2
abbrev SEQ_ERR_FALLTO : Nat := 3
abbrev SEQ_ERR_CFG : Nat := 4

/-- The state of rail `r`. -/
def State.rs (s : State) (r : Fin 15) : RailS := s.rail[r]

/-- The state with rail `r` replaced. -/
def State.setRs (s : State) (r : Fin 15) (x : RailS) : State := { s with rail := s.rail.set r x }

/-- The page of a rail; an external rail has none (Table 1). -/
def railPage (r : Nat) : Option Nat :=
  if r = 0 then some PG_IBC else if r ≤ 4 then some (PG_POL + (r - 1)) else if r ≤ 6 then some PG_LDO else none

/-- Whether a rail is external. -/
def railExt (r : Nat) : Bool := decide (7 ≤ r)

/-- How far a rail's STATUS bits stand from bit 0, and its ERR causes from Table 9 (R341). -/
def railShift (r : Nat) : Nat × Nat := if r = 6 then (8, 4) else (0, 0)

/-- An occurrence of a rail's status bit. -/
def State.railRaise (s : State) (r : Nat) (k : Nat) : State :=
  match railPage r with
  | some pg => s.raise pg (k + (railShift r).1)
  | none => s

/-- A level behind a rail's status bit. -/
def State.railLevel (s : State) (r : Nat) (k : Nat) (b : Bool) : State :=
  match railPage r with
  | some pg => s.level pg (k + (railShift r).1) b
  | none => s

/-- A cause of a rail's ERR (1 to 4 of Table 9). -/
def State.railErr (s : State) (r : Nat) (k : Nat) (inj : Bool) : State :=
  match railPage r with
  | some pg => s.errI pg (k + (railShift r).2) inj
  | none => s

/-- POLn.STATE.NATIVE. -/
def polNative : Fld := ⟨PG_POL, 0x058, 0, 1, 1⟩

/-- LDO.STATEk.DROPOUT. -/
def ldoDropout : Fld := ⟨PG_LDO, 0x04C, 16, 1, 1⟩

/-- V_SET in mV (R321, R324, R326). -/
def State.railSet (s : State) (r : Nat) : Nat :=
  if r = 0 then 10 * clampN 800 1400 (s.get IBC_VSET_V_IB)
  else if r ≤ 4 then 600 + 5 * min 240 (s.get (POL_VSET_VSET.at (r - 1)))
  else if r ≤ 6 then 900 + 25 * min 96 (s.get (LDO_CTL_VSET.el (r - 5)))
  else 0

/-- T_SS in µs. -/
def State.railTss (s : State) (r : Nat) : Nat :=
  100 * atLeast1 (if r = 0 then s.get IBC_SOFT_T_SS else if r ≤ 4 then s.get (POL_SOFT_T_SS.at (r - 1)) else s.get (LDO_CTL_T_SS.el (r - 5)))

/-- The output a rail's own sense last gave, in mV. -/
def State.railOut (s : State) (r : Nat) : Nat :=
  if r = 0 then 10 * s.get IBC_MEAS_V_IB
  else if r ≤ 4 then s.get (POL_MEAS_V_OUT.at (r - 1))
  else if r ≤ 6 then s.get (LDO_MEAS_V_OUT.el (r - 5))
  else 0

/-- N_HIC of a rail (R323, R325); an LDO has none. -/
def State.railNhic (s : State) (r : Nat) : Nat := atLeast1 (if r = 0 then s.get IBC_HICCUP_N_HIC else s.get (POL_ILIM_N_HIC.at (r - 1)))

/-- The switching period in ns (R320); log entry 21 gives an LDO that of a POL at 1 MHz. -/
def State.railTsw (s : State) (r : Nat) : Nat :=
  if r = 0 then (match s.get IBC_CFG_FSW with | 0 => 20000 | 2 => 5000 | _ => 10000)
  else if r ≤ 4 then (if s.on (POL_CFG_FSW.at (r - 1)) then 500 else 1000)
  else 1000

/-- The slot of a rail; the IBC's reads 0 (R328). -/
def State.railOrder (s : State) (r : Nat) : Nat := if r = 0 then 0 else s.get (SEQ_RAIL_ORDER.el r)

/-- Whether a rail is enabled: RAILr.EN and its page's ENABLE (R329). -/
def State.railEnabled (s : State) (r : Nat) : Bool :=
  s.on (SEQ_RAIL_EN.el r) && (match railPage r with | some pg => s.enabled pg | none => true)

/-- Whether a rail takes part: a POL does only beside the IBC (R329, R343), and a rail stopped until the next rise does not. -/
def State.takesPart (s : State) (r : Fin 15) : Bool :=
  s.railEnabled r && !(s.rs r).blocked && !(decide (1 ≤ r.val) && decide (r.val ≤ 4) && !s.railEnabled 0)

/-- SEQ.PGOOD.ON of a rail. -/
def State.railOn (s : State) (r : Nat) : Bool := bitOf (s.get SEQ_PGOOD_ON) r

/-- SEQ.PGOOD.PG of a rail. -/
def State.railPg (s : State) (r : Nat) : Bool := bitOf (s.get SEQ_PGOOD_PG) r

/-- SEQ.STATE.PHASE. -/
def State.seqPhase (s : State) : Nat := s.get SEQ_STATE_PHASE

/-- The phase changes. -/
def State.setSeqPhase (s : State) (p : Nat) : State := s.put SEQ_STATE_PHASE p

/-! ### Bias (R20) -/

/-- The first present bias source, in the order of R20. -/
def biasFirst (mask : Nat) : BiasSrc :=
  if bitOf mask 0 then .vib else if bitOf mask 1 then .startUp else if bitOf mask 2 then .vbus else .none

/-- A bias source becomes present or absent: VIB (0), the start-up regulator (1), VBUS_BIAS (2). -/
def State.biasSource (s : State) (k : Nat) (present : Bool) : State :=
  let m := putBit s.dev.biasMask k present
  { s with dev.biasMask := m, dev.bias := biasFirst m }

/-! ### Reset outputs (R337) -/

/-- RSTCTL.LEVEL follows the released groups and FORCE; RSTREL is set for a group released now. -/
def State.resetLevels (s : State) : State :=
  let old := s.get SEQ_RSTCTL_LEVEL
  let new := s.seq.released &&& ((15 : Nat) ^^^ s.get SEQ_RSTCTL_FORCE)
  let up := (List.range 4).any fun g => bitOf new g && !bitOf old g
  (s.put SEQ_RSTCTL_LEVEL new).raiseIf up PG_SEQ SEQ_ST_RSTREL

/-- The groups of `gs` are asserted. -/
def State.resetAssert (s : State) (p : Nat → Bool) : State :=
  { s with seq.released := (List.range 4).foldl (fun m g => if p g then putBit m g false else m) s.seq.released }.resetLevels

/-- A rail leaves power-good or is turned off: its groups are asserted. -/
def State.resetOfRail (s : State) (r : Nat) : State := s.resetAssert fun g => bitOf (s.get (SEQ_RSTG_MASK.el g)) r

/-- Whether group `g` may be released: every rail of its mask in power-good, or, for an empty mask, rise ended. -/
def State.resetMay (s : State) (g : Nat) : Bool :=
  let m := s.get (SEQ_RSTG_MASK.el g)
  if m = 0 then s.seqPhase == 2 else s.seqPhase != 3 && (s.get SEQ_PGOOD_PG &&& m) == m

/-- STRETCH has passed: group `g` is released (R337). -/
def State.resetRelease (s : State) (g : Nat) : State :=
  if s.resetMay g then { s with seq.released := putBit s.seq.released g true }.resetLevels else s

/-! ### A rail going on and off -/

/-- A rail's power-good is declared. -/
def State.railGood (s : State) (r : Fin 15) : State :=
  let s1 := (s.setRs r { s.rs r with phase := .good }).put SEQ_PGOOD_PG (putBit (s.get SEQ_PGOOD_PG) r true)
  let s2 := s1.railLevel r IBC_ST_PG true
  if r.val = 0 then s2.biasSource 0 true else s2

/-- A rail leaves power-good. -/
def State.railNotGood (s : State) (r : Fin 15) : State :=
  if s.railPg r then
    let s1 := ((s.put SEQ_PGOOD_PG (putBit (s.get SEQ_PGOOD_PG) r false)).railLevel r IBC_ST_PG false).resetOfRail r
    if r.val = 0 then s1.biasSource 0 false else s1
  else s.resetOfRail r

/-- A rail is turned off at once; its discharge then follows ADIS (R324). -/
def State.railStop (s : State) (r : Fin 15) : State :=
  let s1 := (s.railNotGood r).put SEQ_PGOOD_ON (putBit (s.get SEQ_PGOOD_ON) r false)
  let x := s1.rs r
  let s2 := s1.setRs r { x with phase := .off, vref := 0, limRun := 0, padMis := false, noSense := 0 }
  if r.val = 0 then { s2.put IBC_STATE_HIC 0 with seq.law := lawIdle } else s2

/-- A rail is forced off: it is discharged whatever ADIS says (R333, R335). -/
def State.railForce (s : State) (r : Fin 15) : State :=
  let t := s.railStop r
  t.setRs r { t.rs r with forced := true }

/-- A rail is turned off: its reference ramps down from the present output, from where it stands if it was ramping, or its enable falls
(R332, R336). -/
def State.railDown (s : State) (r : Fin 15) : State :=
  if (s.rs r).below then s.railStop r
  else
    let s1 := (s.railNotGood r).put SEQ_PGOOD_ON (putBit (s.get SEQ_PGOOD_ON) r false)
    let x := s1.rs r
    let s2 := s1.setRs r { x with phase := .falling, limRun := 0, vref := if x.phase = .ramp then x.vref else 1000 * s.railOut r }
    if r.val = 0 then s2.put IBC_STATE_HIC 0 else s2

/-- Control of a rail becomes native or scheduled (R320); STATUS.NATIVE is set at each change. -/
def State.setNative (s : State) (r : Fin 15) (b : Bool) : State :=
  if (s.rs r).native = b then s
  else
    let s1 := s.setRs r { s.rs r with native := b, noComp := 0, noSense := 0 }
    let s2 :=
      if r.val = 0 then s1.put IBC_STATE_NATIVE (b2n b) else if r.val ≤ 4 then s1.put (polNative.at (r.val - 1)) (b2n b) else s1
    let s3 := s2.railLevel r IBC_ST_NATIVE b
    if b then s3 else s3.railRaise r IBC_ST_NATIVE

/-- LOOP stops: every rail is in native control (R320). -/
def State.railsNative (s : State) : State := (List.finRange 7).foldl (fun (t : State) (r : Fin 7) => t.setNative (r.castLE (by decide)) true) s

/-! ### Rise (R329 to R331) -/

/-- Whether a rail counts as risen. -/
def State.risen (s : State) (r : Fin 15) : Bool := !s.takesPart r || s.railPg r

/-- Rise ends when every rail that takes part has declared power-good. -/
def State.riseCheck (s : State) : State :=
  if s.seqPhase = 1 ∧ !s.seq.hold ∧ (List.finRange 15).all (fun r => s.risen r) then
    (s.setSeqPhase 2).raise PG_SEQ SEQ_ST_RISEDONE
  else s

/-- Rise begins; `hold` is the hold of the rail start (R491), which DEV.STATUS.HELD shows as a level. -/
def State.seqRise (s : State) (hold : Bool) : State :=
  let s0 : State := (List.finRange 15).foldl (fun (t : State) (r : Fin 15) => t.setRs r { t.rs r with blocked := false }) s
  let s1 : State := { (s0.setSeqPhase 1).put SEQ_STATE_SLOT 0 with seq.next := 0, seq.hold := hold, seq.keep := 0, seq.pendOn := false, seq.vhbFall := false }
  (s1.level PG_DEV DEV_ST_HELD hold).riseCheck

/-- The hold of the rail start ends. -/
def State.seqHoldEnd (s : State) : State :=
  if s.seq.hold then ({ s with seq.hold := false }.level PG_DEV DEV_ST_HELD false).riseCheck else s

/-- The slot that begins next, if any: the lowest ORDER of a rail not yet started, when every earlier rail has declared power-good. -/
def State.slotNext (s : State) : Option Nat :=
  if s.seqPhase = 1 ∧ !s.seq.hold then
    (List.range 16).find? fun k => decide (s.seq.next ≤ k) &&
      ((List.finRange 15).any fun r => s.takesPart r && s.railOrder r == k && (s.rs r).phase == .off) &&
      ((List.finRange 15).all fun r => decide (k ≤ s.railOrder r) || s.risen r)
  else none

/-- The next slot begins: its rails wait their DELAY (R329); a POL without the IBC is an error of the configuration (R343). -/
def State.slotBegin (s : State) : State :=
  match s.slotNext with
  | none => s.riseCheck
  | some k =>
    let bad := !s.railEnabled 0 && (List.range 4).any fun i => s.railEnabled (i + 1)
    let s0 : State := if bad then s.err PG_SEQ SEQ_ERR_CFG else s
    let s1 : State := { s0.put SEQ_STATE_SLOT k with seq.next := k + 1 }
    (List.finRange 15).foldl
      (fun (t : State) (r : Fin 15) =>
        if s.takesPart r && s.railOrder r == k && (s.rs r).phase == .off then t.setRs r { t.rs r with phase := .delay } else t) s1

/-- A rail starts: its reference ramps from the present output, or its enable rises (R329, R330). -/
def State.railStart (s : State) (r : Fin 15) : State :=
  let s1 := s.put SEQ_PGOOD_ON (putBit (s.get SEQ_PGOOD_ON) r true)
  let x := s1.rs r
  if railExt r then s1.setRs r { x with phase := .ready, inside := false }
  else s1.setRs r { x with phase := .ramp, vref := min (s.railSet r) (s.railOut r) * 1000, limRun := 0, padMis := false, forced := false }

/-- DELAY of a rail ends. -/
def State.railDelayEnd (s : State) (r : Fin 15) : State := if (s.rs r).phase = .delay then s.railStart r else s

/-- A converter rail's ramp ends (R330). -/
def State.railRampEnd (s : State) (r : Fin 15) : State :=
  if (s.rs r).phase = .ramp then
    (s.setRs r { s.rs r with phase := .ready, vref := s.railSet r * 1000 }).railRaise r IBC_ST_SOFTDONE
  else s

/-- A rail inside its window for T_PGDB with its ramp ended declares power-good (R331). -/
def State.railPowerGood (s : State) (r : Fin 15) : State :=
  if (s.rs r).phase = .ready ∧ (s.rs r).inside then (s.railGood r).riseCheck else s

/-! ### Running-rail faults (R334) -/

/-- The first rail at fault is recorded. -/
def State.seqFirst (s : State) (r : Nat) (kind : Nat) : State :=
  if s.get SEQ_FIRST_KIND = 0 then (s.put SEQ_FIRST_KIND kind).put SEQ_FIRST_RAIL r else s

/-- A running-rail fault: kind 1 UV, 2 OV, 3 hiccup, 4 readback. -/
def State.railFault (s : State) (r : Fin 15) (kind : Nat) (inj : Bool) : State :=
  let s1 : State := match kind with
    | 1 => s.railErr r IBC_ERR_UV inj
    | 2 => s.railErr r IBC_ERR_OV inj
    | 4 => s.railErr r IBC_ERR_READBACK inj
    | _ => s
  ((s1.seqFirst r kind).errI PG_SEQ SEQ_ERR_RAILFLT inj).railNotGood r

/-- A rail without power-good T_SS + DELAY + T_PGWAIT after its slot's beginning (R331). -/
def State.riseTimeout (s : State) (r : Fin 15) : State :=
  match (s.rs r).phase with
  | .delay | .ramp | .ready | .hiccup => if s.seqPhase = 1 then (s.seqFirst r 5).err PG_SEQ SEQ_ERR_PGTO else s
  | _ => s

/-! ### Fall (R332, R333, R336, R338) -/

/-- Whether a fall keeps a rail. -/
def State.kept (s : State) (r : Nat) : Bool := bitOf s.seq.keep r

/-- Fall ends when no rail outside the kept ones is on or falling: FALLDONE (R332). -/
def State.fallCheck (s : State) : State :=
  if s.seqPhase = 3 ∧ (List.finRange 15).all (fun r => s.kept r || (s.rs r).phase == .off) then
    (s.setSeqPhase (if s.seq.pendOn then 5 else 0)).raise PG_SEQ SEQ_ST_FALLDONE
  else s

/-- The rails that HIBERNATE keeps: HIBKEEP and in power-good, and the IBC beside any POL (R338). -/
def State.hibKeep (s : State) : Nat :=
  let m := (List.finRange 15).foldl (fun (k : Nat) (r : Fin 15) => if s.on (SEQ_RAIL_HIBKEEP.el r.val) && s.railOn r then k + 2 ^ r.val else k) 0
  if m / 2 % 16 ≠ 0 ∧ s.railOn 0 ∧ !bitOf m 0 then m + 1 else m

/-- Fall begins and keeps the rails of `keep`: the reset outputs are asserted, rails that wait are not started and rails that ramp abort
(R332, R336, R337). -/
def State.seqFall (s : State) (keep : Nat) : State :=
  if s.seqPhase = 3 then s
  else if s.seqPhase = 4 then s.raise PG_SEQ SEQ_ST_FALLDONE
  else
    let rising := s.seqPhase == 1 && (List.finRange 15).any fun r => (s.rs r).phase != .off
    let s1 : State := { (s.setSeqPhase 3).raiseIf rising PG_SEQ SEQ_ST_ABORT with seq.keep := keep, seq.hold := false, seq.vhbFall := false }
    let s2 := (s1.level PG_DEV DEV_ST_HELD false).resetAssert fun g =>
      let m := s.get (SEQ_RSTG_MASK.el g)
      m == 0 || (m &&& keep) != m
    let s3 := (List.finRange 15).foldl
      (fun (t : State) (r : Fin 15) =>
        if (t.rs r).phase == .delay then t.setRs r { t.rs r with phase := .off }
        else if (t.rs r).phase == .ramp && !bitOf keep r then t.railDown r else t) s2
    s3.fallCheck

/-- An on request during a fall (R336). -/
def State.seqOnRequest (s : State) : State :=
  if s.seqPhase = 3 then { s with seq.pendOn := true }.raise PG_SEQ SEQ_ST_RESTART else s

/-- The key of a rail in the fall: its slot, the IBC last. -/
def State.fallKey (s : State) (r : Nat) : Nat := if r = 0 then 0 else s.railOrder r + 1

/-- The slot that is turned off next: the highest of the rails still on, when every later rail is below V_OFF. -/
def State.fallNext (s : State) : Option Nat :=
  if s.seqPhase = 3 then
    let on : List (Fin 15) := (List.finRange 15).filter (fun (r : Fin 15) => s.railOn r && !s.kept r)
    match on with
    | [] => none
    | _ =>
      let top := on.foldl (fun (k : Nat) (r : Fin 15) => max k (s.fallKey r)) 0
      if (List.finRange 15).any (fun r => (s.rs r).phase == .falling && decide (top < s.fallKey r)) then none else some top
  else none

/-- The next slot is turned off. -/
def State.fallSlot (s : State) : State :=
  match s.fallNext with
  | none => s.fallCheck
  | some top =>
    let s1 := s.put SEQ_STATE_SLOT (top - 1)
    ((List.finRange 15).foldl
      (fun (t : State) (r : Fin 15) => if s.railOn r && !s.kept r && s.fallKey r == top then t.railDown r else t) s1).fallCheck

/-- A rail not below V_OFF within T_FALL_MAX (R333). -/
def State.fallTimeout (s : State) (r : Fin 15) : State :=
  if (s.rs r).phase = .falling then
    let s1 := (s.put SEQ_FORCED_R (putBit (s.get SEQ_FORCED_R) r true)).raise PG_SEQ SEQ_ST_FORCED
    ((s1.err PG_SEQ SEQ_ERR_FALLTO).railForce r).fallCheck
  else s

/-- A STOP reaction: every rail and reset output at once (R335). -/
def State.railsStop (s : State) : State :=
  let s1 : State := { (List.finRange 15).foldl (fun (t : State) (r : Fin 15) => t.railForce r) s with seq.hold := false }
  ((s1.level PG_DEV DEV_ST_HELD false).resetAssert fun _ => true).setSeqPhase 4

/-- A rail page is disabled by a master, or its function reset runs (R334, R341): its rails are turned off, after a function reset until
the next rise. -/
def State.railPageOff (s : State) (pg : Nat) (block : Bool) : State :=
  (List.finRange 7).foldl
    (fun (t : State) (q : Fin 7) =>
      let r : Fin 15 := q.castLE (by decide)
      if railPage r = some pg then
        let t1 := t.setRs r { t.rs r with blocked := (t.rs r).blocked || block }
        if t1.railOn r then t1.railDown r else if (t1.rs r).phase == .delay then t1.setRs r { t1.rs r with phase := .off } else t1
      else t) s

/-! ### Supervisors (R319, R334) -/

/-- V_NOM of the UV and OV rows in µV: the reference in force, and 0.600 V for an external rail (R319). -/
def State.railNom (s : State) (r : Fin 15) : Nat := if railExt r then 600000 else (s.rs r).vref

/-- V_NOM of the V_OFF row in µV: V_SET, and 0.600 V for an external rail (R319). -/
def State.railNomOff (s : State) (r : Fin 15) : Nat := if railExt r then 600000 else 1000 * s.railSet r

/-- Whether UV and OV of a rail are judged: not while V_REF is below 10 % of V_SET (R319). -/
def State.railWindow (s : State) (r : Fin 15) : Bool := decide (s.railNomOff r ≤ 10 * s.railNom r)

/-- `uv` µV is under the rail's UV threshold, V_NOM × (80 % + 2.5 % × UVC). -/
def State.railUnder (s : State) (r : Fin 15) (uv : Nat) : Bool :=
  s.railWindow r && decide (1000 * uv < s.railNom r * (800 + 25 * s.get (SEQ_RAIL_UVC.el r)))

/-- `uv` µV is over the rail's OV threshold, V_NOM × (102.5 % + 2.5 % × OVC). -/
def State.railOver (s : State) (r : Fin 15) (uv : Nat) : Bool :=
  s.railWindow r && decide (s.railNom r * (1025 + 25 * s.get (SEQ_RAIL_OVC.el r)) < 1000 * uv)

/-- `uv` µV is below V_OFF, V_NOM × 5 % × (OFFC + 1). -/
def State.railBelow (s : State) (r : Fin 15) (uv : Nat) : Bool :=
  decide (20 * uv < s.railNomOff r * (s.get (SEQ_RAIL_OFFC.el r) + 1))

/-- A judgement of rail `r`, whose condition at `uv` µV has held for T_DG.  The side of an injected judgement is free (log entry 7). -/
def State.railJudge (s : State) (r : Fin 15) (uv : Nat) : State :=
  let good := s.railWindow r && !s.railUnder r uv && !s.railOver r uv
  let inj := good && (match railPage r with | some pg => s.injOn pg 1 | none => false)
  let s0 := match railPage r with | some pg => s.injTake pg 1 | none => s
  let above := if inj then Config.injectedSide s0.fresh else s.railOver r uv
  let under := if inj then !Config.injectedSide s0.fresh else s.railUnder r uv
  let s1 : State := if inj then s0.tickFresh else s0
  let off := s.railBelow r uv
  let s2 := s1.setRs r { s1.rs r with inside := good && !inj, below := off }
  if (s2.rs r).phase = .falling then (if off then (s2.railStop r).fallCheck else s2)
  else if !s2.railOn r then s2
  else if above then s2.railFault r 2 inj
  else if !under ∨ (s2.rs r).phase ≠ .good ∨ !s2.railPg r then s2
  else if s2.seqPhase = 3 ∧ !s2.kept r then
    ((s2.railNotGood r).setRs r { (s2.railNotGood r).rs r with below := true }).raise PG_SEQ SEQ_ST_EARLY
  else s2.railFault r 1 inj

/-! ### Control (R320 to R326) -/

/-- A law's coefficient, Q2.22. -/
def State.lawCoef (s : State) (f : Fld) : Int := toSigned 24 (s.get f)

/-- One update of a 2-pole 2-zero law with coefficients at `b0` and four more words, its output clamped to `[lo, hi]` (the form of R237). -/
def State.lawStep (s : State) (b0 : Fld) (x : LawS) (e lo hi : Int) : LawS :=
  let c := fun (k : Nat) => s.lawCoef { b0 with off := b0.off + 4 * k }
  let u := roundDiv ((c 0 * e + c 1 * x.e1 + c 2 * x.e2) * 2 ^ 22 - c 3 * x.u1 - c 4 * x.u2) (2 ^ 22)
  ⟨e, x.e1, clampI (lo * 2 ^ 22) (hi * 2 ^ 22) u, x.u1⟩

/-- Whether a rail's converter regulates now. -/
def railRuns (p : RailPhase) : Bool := p == .ramp || p == .ready || p == .good || p == .falling

/-- Whether a rail's converter switches: a rail turned off stops once its reference has come down to 0 (R332). -/
def State.railSwitches (s : State) (r : Fin 15) : Bool := railRuns (s.rs r).phase && !((s.rs r).phase == .falling && (s.rs r).vref == 0)

/-- Whether a rail's reference ramps down (R322): in its fall, or to a lower V_SET. -/
def State.railRampsDown (s : State) (r : Fin 15) : Bool := (s.rs r).phase == .falling || decide (1000 * s.railSet r < (s.rs r).vref)

/-- Whether a stopped POL or LDO discharges its output: with ADIS, and when it was forced off (R324, R326, R332, R333, R335). -/
def State.railDischarges (s : State) (r : Fin 15) : Bool :=
  !s.railSwitches r && (s.rs r).phase != .hiccup && decide (1 ≤ r.val) && decide (r.val ≤ 6) &&
    ((s.rs r).forced || s.on (if r.val ≤ 4 then POL_CFG_ADIS.at (r.val - 1) else LDO_CTL_ADIS.el (r.val - 5)))

/-- The current limit in force in mA: the native limit of an IBC phase, and ILIM × (8 − THROTTLE) / 8 of a POL or LDO (R323, R325, R326). -/
def State.railLim (s : State) (r : Fin 15) : Nat :=
  if r.val = 0 then 100 * s.get IBC_BAL_NATILIM
  else if r.val ≤ 4 then 500 * s.get (POL_ILIM_ILIM.at (r.val - 1)) * (8 - s.get (POL_STATE_THROTTLE.at (r.val - 1))) / 8
  else 10 * s.get (LDO_CTL_ILIM.el (r.val - 5)) * (8 - s.get (LDO_STATE_THROTTLE.el (r.val - 5))) / 8

/-- Whether a rail's current of the period reached its limit. -/
def State.railAtLimit (s : State) (r : Fin 15) (peak : Nat) : Bool := decide (s.railLim r ≤ peak)

/-- The IBC's duties from its law: D + K_BAL × (I_other − I_k), 2^-16 (R321); with one phase, phase 1 is off. -/
def State.ibcDuty (s : State) (k : Nat) : Nat :=
  let d := roundDiv s.seq.law.u1 (2 ^ 22)
  let di := if k = 0 then s.seq.i1 - s.seq.i0 else s.seq.i0 - s.seq.i1
  if k = 1 ∧ !s.on IBC_CFG_PH2 then 0
  else (clampI 0 65535 (d + if s.on IBC_CFG_PH2 then roundDiv ((s.get IBC_BAL_K_BAL : Int) * di) 16 else 0)).toNat

/-- One update of the IBC (R321): the error in 10 mV, the duties in DUTY. -/
def State.ibcUpdate (s : State) : State :=
  let e := roundDiv ((s.rs 0).vref : Int) 10000 - s.get IBC_MEAS_V_IB
  let s1 : State := { s with seq.law := s.lawStep IBC_B0_COEF s.seq.law e 0 65535 }
  (s1.put IBC_DUTY_D0 (s1.ibcDuty 0)).put IBC_DUTY_D1 (s1.ibcDuty 1)

/-- The phase currents are known; MEAS.I_TOT is their sum. -/
def State.ibcCurrents (s : State) (i0 i1 : Int) : State :=
  { s.put IBC_MEAS_I_TOT (clampI 0 65535 (roundDiv (i0 + i1) 100)).toNat with seq.i0 := i0, seq.i1 := i1 }

/-- A result delivered to unit 32 (R321). -/
def State.ibcInput (s : State) (din code : Nat) : State :=
  let cur := fun (o g : Fld) => scaleCode code (2048 + s.getI o) (s.get g) 16
  match din with
  | 0 => s.ibcCurrents (cur IBC_CSCAL0_OFFSET IBC_CSCAL0_GAIN) s.seq.i1
  | 1 =>
    let s1 := s.put IBC_MEAS_V_IB (clampI 0 65535 (scaleCode code (s.getI IBC_VSCAL_VOFS) (s.get IBC_VSCAL_VGAIN) 256)).toNat
    s1.setRs 0 { s1.rs 0 with noSense := 0 }
  | 2 => s.ibcCurrents s.seq.i0 (cur IBC_CSCAL1_OFFSET IBC_CSCAL1_GAIN)
  | _ => s

/-- A COMP of unit 32: scheduled control from now (R320, R321). -/
def State.ibcComp (s : State) (shadow : Bool) : State :=
  if !s.railSwitches 0 ∨ !s.compEffective (s.railTsw 0) then s
  else
    let s1 := s.setNative 0 false
    let s2 := (s1.setRs 0 { s1.rs 0 with noComp := 0 }).ibcUpdate
    if !shadow then s2
    else
      let p := s.railTsw 0 * 8
      (s2.pwmShadow 32 2 (s2.get IBC_DUTY_D0 * p / 65536)).pwmShadow 33 2 (s2.get IBC_DUTY_D1 * p / 65536)

/-- The trim moves by 1/2^KI of the error, inside ±TRIM_MAX (R324). -/
def State.trimStep (s : State) (r : Fin 15) (mx ki trim : Fld) : State :=
  let x := s.rs r
  let err : Int := roundDiv (x.vref : Int) 1000 - s.railOut r
  let lim : Int := 5 * (s.get mx : Int) * 2 ^ 15
  let t := x.trim + err * 2 ^ (15 - s.get ki)
  let t' := clampI (-lim) lim t
  let s1 := (s.setRs r { x with trim := t' }).putI trim (clampI (-128) 127 (roundDiv t' (2 ^ 15)))
  if t' = t then s1 else s1.railRaise r IBC_ST_TRIMSAT

/-- A COMP of unit 33 + k (R320, R324). -/
def State.polComp (s : State) (k : Fin 4) (shadow : Bool) : State :=
  let r : Fin 15 := ⟨k.val + 1, by omega⟩
  if !s.railSwitches r then s
  else
    let s1 := s.setNative r false
    let s2 := (s1.setRs r { s1.rs r with noComp := 0 }).trimStep r (POL_TRIM_TRIM_MAX.at k.val) (POL_TRIM_KI.at k.val) (POL_TRIM_TRIM.at k.val)
    if shadow then s2.pwmShadow (38 + k.val) 1 (s2.get (POL_CFG_PHASE.at k.val) * (s.railTsw r * 8) / 4) else s2

/-- A COMP of unit 37 + k (R320, R326). -/
def State.ldoComp (s : State) (k : Fin 2) : State :=
  let r : Fin 15 := ⟨k.val + 5, by omega⟩
  if !s.railSwitches r then s
  else
    let s1 := s.setNative r false
    (s1.setRs r { s1.rs r with noComp := 0 }).trimStep r (LDO_TRIM_TRIM_MAX.el k.val) (LDO_TRIM_KI.el k.val) (LDO_TRIM_TRIM.el k.val)

/-- Four periods without an effective COMP: native control from the next period (R320). -/
def State.nativeFallback (s : State) (r : Fin 15) : State :=
  if !(s.rs r).native ∧ 4 ≤ (s.rs r).noComp then s.setNative r true else s

/-- The reference moves toward V_SET, or toward 0 in a fall, at the soft-start slope for one period (R325, R330, R332). -/
def State.railRef (s : State) (r : Fin 15) : State :=
  let x := s.rs r
  let target := if x.phase = .falling then 0 else s.railSet r * 1000
  let step := s.railSet r * s.railTsw r / s.railTss r
  if !railRuns x.phase then s
  else s.setRs r { x with vref := if x.vref < target then min target (x.vref + step) else max target (x.vref - step) }

/-- Hiccup of a rail: once it has declared power-good a running-rail fault, and no restart before the next rise (R323). -/
def State.railHiccup (s : State) (r : Fin 15) : State :=
  let s1 := s.railRaise r IBC_ST_HICCUP
  let s2 := s1.setRs r { s1.rs r with phase := .hiccup, limRun := 0, blocked := (s1.rs r).blocked || s.railPg r }
  let s3 : State := if r.val = 0 then { s2.put IBC_STATE_HIC 1 with seq.law := lawIdle } else s2
  if s.railPg r then s3.railFault r 3 false else s3

/-- A limited cycle, or a good one (R323). -/
def State.railLimited (s : State) (r : Fin 15) (limited : Bool) : State :=
  let x := s.rs r
  if !limited then s.setRs r { x with limRun := 0 }
  else
    let s1 := s.railRaise r IBC_ST_LIMITED
    if 5 ≤ r.val then s1
    else if x.limRun + 1 < s.railNhic r ∨ x.phase = .falling then s1.setRs r { x with limRun := x.limRun + 1 }
    else s1.railHiccup r

/-- T_HIC ends: a soft start from the present output (R323). -/
def State.railHiccupEnd (s : State) (r : Fin 15) : State :=
  if (s.rs r).phase = .hiccup ∧ !(s.rs r).blocked then
    let s1 := s.railStart r
    if r.val = 0 then s1.put IBC_STATE_HIC 0 else s1
  else s

/-- The pads of a rail are compared at a boundary (R323, R251). -/
def State.railPads (s : State) (r : Fin 15) (padsBad : Bool) : State :=
  match railPage r with
  | none => s
  | some pg =>
    let inj := s.injOn pg 2
    let s1 := s.injTake pg 2
    let bad := padsBad || inj
    let x := s1.rs r
    if bad && x.padMis then
      let s2 := s1.setRs r { x with padMis := false }
      if s2.railPg r then s2.railFault r 4 inj else s2.railErr r IBC_ERR_READBACK inj
    else s1.setRs r { x with padMis := bad }

/-- Light-load operation of a rail in the period: STATUS.DE when it is entered (R322, R324). -/
def State.railLight (s : State) (r : Nat) (f : Fld) (m : Nat) : State :=
  let old := s.get f
  (s.put f m).raiseIf ((List.range 2).any fun k => bitOf m k && !bitOf old k) ((railPage r).getD 0) IBC_ST_DE

/-- Zero-current comparator 18 + k trips with the low side on: the phase floats until the boundary (R322). -/
def State.ibcZero (s : State) (k : Nat) : State :=
  if s.on IBC_CFG_DE_EN && s.railSwitches 0 && !s.railRampsDown 0 then
    s.setRs 0 { s.rs 0 with light := putBit (s.rs 0).light k true }
  else s

/-- The phases below D_SKIP float for the whole period. -/
def State.ibcSkip (s : State) : Nat :=
  if s.on IBC_CFG_SKIP_EN && !s.railRampsDown 0 then
    (List.range 2).foldl
      (fun (m : Nat) (k : Nat) =>
        if (k == 0 || s.on IBC_CFG_PH2) && decide (s.ibcDuty k < s.get IBC_SOFT_D_SKIP) then m + 2 ^ k else m) 0
  else 0

/-- What a period without a COMP does in scheduled control. -/
def State.railNoComp (s : State) (r : Fin 15) : State :=
  if (s.rs r).native then s else (s.setRs r { s.rs r with noComp := (s.rs r).noComp + 1 }).nativeFallback r

/-- A period boundary of the IBC (R320 to R323). -/
def State.ibcBoundary (s : State) (padsBad : Bool) (x : RailSense) : State :=
  let res := ((s.pwmBoundary 32 (s.railTsw 0)).pwmBoundary 33 (s.railTsw 0)).cmpBoundary 16
  let a0 := res.1
  let s1 := res.2
  let res := s1.cmpBoundary 17
  let a1 := res.1
  let s2 := res.2
  let s3 := ((s2.cmpBoundary 18).2.cmpBoundary 19).2
  if !s3.railSwitches 0 then s3
  else
    let native := (s3.rs 0).native
    let s4 : State := if native then (s3.put IBC_MEAS_V_IB (min 65535 x.v)).ibcCurrents x.i0 x.i1 else s3
    let s5 := s4.railRef 0
    let s6 : State :=
      if native then s5.ibcUpdate
      else
        let n := (s5.rs 0).noSense + 1
        let t := s5.setRs 0 { s5.rs 0 with noSense := n }
        if n = 4 then t.err PG_IBC IBC_ERR_SENSE else t
    let m := (s6.rs 0).light ||| s6.ibcSkip
    let s7 := (s6.railLight 0 IBC_STATE_DE m).setRs 0 { s6.rs 0 with light := 0 }
    ((s7.railNoComp 0).railPads 0 padsBad).railLimited 0 (if native then s7.railAtLimit 0 x.peak else a0 || a1)

/-- A period boundary of POL k (R324, R325). -/
def State.polBoundary (s : State) (k : Fin 4) (padsBad : Bool) (x : RailSense) : State :=
  let r : Fin 15 := ⟨k.val + 1, by omega⟩
  let s0 := (s.pwmBoundary (38 + k.val) (s.railTsw r)).put (POL_MEAS_V_OUT.at k.val) (min 65535 x.v)
  let s1 := s0.put (POL_MEAS_I_OUT.at k.val) (clampI 0 65535 x.i0).toNat
  if !s1.railSwitches r then s1
  else
    let s2 := (s1.railRef r).railLight r (POL_STATE_DE.at k.val) (b2n (x.light && s.on (POL_CFG_LLM.at k.val)))
    ((s2.railNoComp r).railPads r padsBad).railLimited r (s2.railAtLimit r x.peak)

/-- LDO k's output sense, with the limit and dropout (R326). -/
def State.ldoBoundary (s : State) (k : Fin 2) (padsBad : Bool) (x : RailSense) : State :=
  let r : Fin 15 := ⟨k.val + 5, by omega⟩
  let s0 := (s.put (LDO_MEAS_V_OUT.el k.val) (min 65535 x.v)).put (ldoDropout.el k.val) (b2n x.light)
  let s1 := s0.put (LDO_MEAS_I_OUT.el k.val) (clampI 0 65535 x.i0).toNat
  if !s1.railSwitches r then s1
  else (((s1.railRef r).railNoComp r).railPads r padsBad).railLimited r (s1.railAtLimit r x.peak)

/-- A round boundary: time of each rail in power-good (R225). -/
def State.railsRound (s : State) : State :=
  (List.range 15).foldl (fun (t : State) (r : Nat) => if s.railPg r then t.bump (hwRail r) 4 1 else t) s

/-! ### The SVC converter (R339, R340) -/

/-- The SVC converter's switching period in ns. -/
def State.svcTsw (s : State) : Nat := match s.get SVC_CFG_FSW with | 0 => 20000 | 2 => 5000 | _ => 10000

/-- SVC.STATE.CODE becomes `c`. -/
def State.setSvc (s : State) (c : Nat) : State := s.put SVC_STATE_CODE c

/-- The SVC converter stops. -/
def State.svcStop (s : State) : State :=
  { s.setSvc 0 with svc := { s.svc with vref := 0, law := lawIdle, limRun := 0, padMis := false, noSense := 0 } }

/-- Whether the halt strand and SAFE let the SVC converter run (R340, R363). -/
def State.svcMay (s : State) : Bool := s.on SVC_CFG_SAFEON || !(s.on FAULT_HOLDS_HALT || s.mode == .safe)

/-- The service port asks for the converter, or no longer does. -/
def State.svcRun (s : State) (on : Bool) : State :=
  let s1 : State := { s with svc.on := on }
  if !on ∨ !s.blockOn PG_SVC then s1.svcStop else if s.get SVC_STATE_CODE = 0 ∧ s.svcMay then s1.setSvc 1 else s1

/-- The PD policy writes a target in 10 mV and a current limit in mA (R339). -/
def State.svcTarget (s : State) (v i : Nat) : State :=
  let s1 := (s.put SVC_TARGET_V_TGT v).put SVC_TARGET_I_LIM i
  if s1.get SVC_STATE_CODE = 2 ∧ s1.svc.vref ≠ 10 * s1.get SVC_TARGET_V_TGT then s1.setSvc 1 else s1

/-- A result delivered to unit 17. -/
def State.svcInput (s : State) (din code : Nat) : State :=
  match din with
  | 0 => s.put SVC_MEAS_I (clampI 0 65535 (scaleCode code (2048 + s.getI SVC_CSCAL_OFFSET) (s.get SVC_CSCAL_GAIN) 16)).toNat
  | 1 =>
    { s.put SVC_MEAS_V (clampI 0 65535 (scaleCode code (s.getI SVC_VSCAL_VOFS) (s.get SVC_VSCAL_VGAIN) 256)).toNat with svc.noSense := 0 }
  | 2 => s.balInput 0 2 code
  | _ => s

/-- Whether the SVC converter switches. -/
def State.svcRuns (s : State) : Bool :=
  let c := s.get SVC_STATE_CODE
  c == 1 || c == 2 || c == 3

/-- The current reference: the law's output clamped to I_LIM. -/
def State.svcIref (s : State) : Int := roundDiv s.svc.law.u1 (2 ^ 22)

/-- A COMP of unit 17 (R339); how the current reference becomes duties is not stated (log entry 22). -/
def State.svcComp (s : State) (shadow : Bool) : State :=
  if !s.svcRuns ∨ !s.compEffective s.svcTsw then s
  else
    let lim : Int := s.get SVC_TARGET_I_LIM
    let e := roundDiv (s.svc.vref : Int) 10 - s.get SVC_MEAS_V
    let s1 : State := { s with svc.law := s.lawStep SVC_B0_COEF s.svc.law e 0 lim }
    if !shadow then s1
    else
      let p := s.svcTsw * 8
      let d := fun (o : Nat) => Config.svcDuty o s1.svcIref (s1.get SVC_MEAS_I) (s1.get SVC_MEAS_V) (s1.get PACK_MEAS_V_HB) % (p + 1)
      (s1.pwmShadow 36 2 (d 36)).pwmShadow 37 2 (d 37)

/-- A limited period of the SVC converter: LIMIT, then hiccup with the IBC's N_HIC (log entry 23). -/
def State.svcLimited (s : State) (limited : Bool) : State :=
  if !limited then (if s.get SVC_STATE_CODE = 3 then { s.setSvc 2 with svc.limRun := 0 } else { s with svc.limRun := 0 })
  else
    let s1 := s.raise PG_SVC SVC_ST_LIMITED
    if s.svc.limRun + 1 < atLeast1 (s.get IBC_HICCUP_N_HIC) then
      (if s1.get SVC_STATE_CODE = 2 then { s1.setSvc 3 with svc.limRun := s.svc.limRun + 1 } else { s1 with svc.limRun := s.svc.limRun + 1 })
    else { (s1.setSvc 4).raise PG_SVC SVC_ST_HICCUP with svc := { s1.svc with limRun := 0, law := lawIdle } }

/-- T_HIC ends for the SVC converter: a ramp from its present output. -/
def State.svcHiccupEnd (s : State) : State :=
  if s.get SVC_STATE_CODE = 4 then { s.setSvc 1 with svc.vref := 10 * s.get SVC_MEAS_V } else s

/-- The reference moves to the target at SLEW for one period; STATE ON and SOFTDONE at its end (R339). -/
def State.svcRef (s : State) : State :=
  let target := 10 * s.get SVC_TARGET_V_TGT
  let step := atLeast1 (s.get SVC_SLEW_SLEW) * s.svcTsw / 1000
  let v := if s.svc.vref < target then min target (s.svc.vref + step) else max target (s.svc.vref - step)
  let s1 : State := { s with svc.vref := v }
  if v = target ∧ s1.get SVC_STATE_CODE = 1 then (s1.setSvc 2).raise PG_SVC SVC_ST_SOFTDONE else s1

/-- A period boundary of the SVC converter (R339, R340): a period whose current is at I_LIM is limited. -/
def State.svcBoundary (s : State) (padsBad : Bool) : State :=
  let s1 := (s.pwmBoundary 36 s.svcTsw).pwmBoundary 37 s.svcTsw
  if !s1.svcRuns then s1
  else
    let inj := s1.injOn PG_SVC 2
    let s2 := s1.injTake PG_SVC 2
    let bad := padsBad || inj
    if bad && s2.svc.padMis then s2.svcStop.errI PG_SVC SVC_ERR_READBACK inj
    else
      let s3 : State := { s2 with svc.padMis := bad, svc.noSense := s2.svc.noSense + 1 }
      let s4 : State := if s3.svc.noSense = 4 then s3.err PG_SVC SVC_ERR_SENSE else s3
      s4.svcRef.svcLimited (decide (s4.get SVC_TARGET_I_LIM ≤ s4.get SVC_MEAS_I))

/-- Whether the SVC converter keeps sourcing while the snuff line is asserted (R340). -/
def State.svcSnuff (s : State) : State := if s.on SVC_CFG_SAFEON then s else s.svcStop

end Sys2Proof.Machine
end

