-- ==== Sys2Proof/Machine/Attic.lean ====
section
/-! DEFINITION. The attic: image commands (R97, R98), user configuration commits and their journal (R101, R102), OCV commands (R192,
R193), store-room clears (R207) and lifetime flushes (R227), with the end of each long operation (R46). -/

namespace Sys2Proof.Machine

/-- The start of the mailbox (R98). -/
def mailbox : Nat := 0x1C5000

/-- A long operation with a stored effect starts. -/
def State.opStart (s : State) (code : Nat) (op : LongOp) : State := { s.longStart code with op := some op }

/-! ### Banks (R97, R99) -/

/-- The address of an image bank: 1 A, 2 B. -/
def bankAddr (bank : Nat) : Nat := if bank = 1 then 0x200000 else 0x220000

/-- The address of a bank's seal record. -/
def sealAddr (bank : Nat) : Nat := bankAddr bank + 0x1FFF0

/-- A bank's state: 0 EMPTY, 1 OPEN, 2 SEALED, 3 BAD. -/
def State.bankState (s : State) (bank : Nat) : Nat :=
  let v := s.load (sealAddr bank) 4
  if v = 1 ∨ v = 2 ∨ v = 3 then v else 0

/-- The lit bank, 0 when none. -/
def State.litBank (s : State) : Nat := s.get LAMP_STATE_SOURCE - 1

/-- The registers that show a bank follow its seal record. -/
def State.showBank (s : State) (bank : Nat) : State :=
  let o := if bank = 1 then 0x050 else 0x05C
  let a := PG_IMAGE * 0x400 + o
  ((s.wr a (BitVec.ofNat 32 (s.load (sealAddr bank + 12) 4 % 65536 * 65536 + s.bankState bank))).wr (a + 4)
    (BitVec.ofNat 32 (s.load (sealAddr bank + 4) 4))).wr (a + 8) (BitVec.ofNat 32 (s.load (sealAddr bank + 8) 4))

/-- A bank's STATE is written; EMPTY is written as 0 (log entry 24). -/
def State.sealState (s : State) (bank v : Nat) : State := (s.store (sealAddr bank) 4 v).showBank bank

/-! ### Image commands (R98, Table 9) -/

/-- RESULT of the IMAGE page, with DONE for codes 1 to 4 and FAIL for the others. -/
def State.imageResult (s : State) (code check : Nat) : State :=
  let s1 := (s.put IMAGE_RESULT_CODE code).put IMAGE_RESULT_CHECK check
  if code ≤ 4 then s1.raise PG_IMAGE IMAGE_ST_DONE else s1.raise PG_IMAGE IMAGE_ST_FAIL

/-- Whether a relight shows as loading into a bank. -/
def State.bankLoading (s : State) (bank : Nat) : Bool := s.get LAMP_STATE_RELIGHT == 2 && s.lamp.relightBank == bank

/-- A relight ends without lighting: its code (R75, R79). -/
def State.relightFail (s : State) (code check : Nat) : State :=
  { (((s.put LAMP_STATE_RELIGHT 0).put LAMP_RELIGHT_RES_CODE code).put LAMP_RELIGHT_RES_CHECK check).raise PG_LAMP LAMP_ST_RELIGHT_FAIL with
    lamp.relightBank := 0, lamp.coldStage := 0 }

/-- A command that wrote a bank: over the lit bank it is stale (R81), and a relight pending on it is abandoned (R79). -/
def State.bankWritten (s : State) (bank : Nat) : State :=
  let s1 := if s.litBank = bank then ((s.raise PG_IMAGE IMAGE_ST_LITBANK).put LAMP_STATE_BANKSTALE 1).level PG_LAMP LAMP_ST_BANKSTALE true else s
  if s1.get LAMP_STATE_RELIGHT = 1 ∧ s1.lamp.relightBank = bank then s1.relightFail 0x16 0 else s1

/-- Whether a segment's place is refused (R98). -/
def segmentBad (ofs len : Nat) : Bool := ofs % 4 != 0 || decide (len < 4) || decide (8192 < len) || len % 4 != 0 || decide (0x1FFF0 < ofs + len)

/-- IMAGE.CMD is written (R98). -/
def State.imageCmd (s : State) (key bank op : Nat) : State :=
  let ofs := s.get IMAGE_SEG_OFS_OFS
  let len := s.get IMAGE_SEG_LEN_LEN
  let bad : Option Nat :=
    if !s.enabled PG_IMAGE then some 0x17
    else if key ≠ 0x1A6E then some 0x10
    else if bank ≠ 1 ∧ bank ≠ 2 then some 0x11
    else if op = 0 ∨ 4 < op ∨ (op = 1 ∧ segmentBad ofs len) then some 0x12
    else if s.bankLoading bank then some 0x15
    else if (op = 2 ∨ op = 4) ∧ s.bankState bank = 0 then some 0x16
    else none
  match bad with
  | some c => s.imageResult c 0
  | none =>
    if op = 1 then (s.sealState bank 1).opStart 1 (.segment bank ofs len)
    else if op = 2 then s.opStart 1 (.seal bank)
    else if op = 3 then s.opStart 1 (.erase bank)
    else s.opStart 1 (.checkImage bank)

/-- A segment ends (R98).  Its bytes are those that the mailbox holds now, and one whose verify failed leaves them all in the bank (DESIGN CHOICE, log
entries 159 and 160: the rule leaves both open). -/
def State.segmentEnd (s : State) (bank ofs len : Nat) (e : OpEnd) : State :=
  let inj := s.injOn PG_IMAGE 3
  let s1 := ((s.injTake PG_IMAGE 3).copyRange mailbox (bankAddr bank + ofs) len).bankWritten bank
  if e.verifyBad || inj then ((s1.errI PG_IMAGE IMAGE_ERR_VERIFY inj).imageResult 0x14 0).longEnd 1
  else (s1.imageResult 0x01 0).longEnd 0

/-- A seal ends: SEALED, or BAD with the check's code (R98). -/
def State.sealEnd (s : State) (bank : Nat) (e : OpEnd) : State :=
  let b := bankAddr bank
  let res := s.checkImage b !e.badWords.isEmpty
  let code := res.1
  let s1 := res.2
  if code ≠ 0 then (((s1.sealState bank 3).bankWritten bank).imageResult 0x13 code).longEnd 1
  else
    let r := sealAddr bank
    let s2 := ((s1.store (r + 4) 4 (s1.ihd b 0x0C 4)).store (r + 8) 4 (s1.ihd b (s1.ihd b 8 4 - 4) 4)).store (r + 12) 4
      (satInc 0xFFFFFFFF (s1.load (r + 12) 4))
    (((s2.sealState bank 2).bankWritten bank).imageResult 0x02 0).longEnd 0

/-- A check ends (R98). -/
def State.checkEnd (s : State) (bank : Nat) (e : OpEnd) : State :=
  let res := s.checkImage (bankAddr bank) !e.badWords.isEmpty
  let code := res.1
  let s1 := res.2
  if code ≠ 0 then (s1.imageResult 0x13 code).longEnd 1 else (s1.imageResult 0x04 0).longEnd 0

/-! ### The journal (R102) -/

/-- The user configuration and the journal header. -/
def userCfg : Nat := 0x270000
def journal : Nat := 0x27B000

/-- Whether a segment's place in the user configuration is refused (R101). -/
def configBad (ofs len : Nat) : Bool :=
  ofs % 4 != 0 || decide (len < 4) || decide (8192 < len) || len % 4 != 0 || decide (0x10000 < ofs + len) ||
    (decide (ofs < 0xE000) && decide (0xB000 < ofs + len))

/-- STATE of the journal: ARMED or IDLE; JOURNAL shows it. -/
def State.setArmed (s : State) (armed : Bool) : State := (s.store journal 4 (if armed then 0x4D524131 else 0)).put ATTIC_JOURNAL_ARMED (b2n armed)

/-- Step 1: a segment and its header are journaled, STATE last. -/
def State.journalWrite (s : State) (data : List Byte) (ofs : Nat) : State :=
  let s1 := (((s.putBytes (journal + 0x40) data).store (journal + 4) 4 ofs).store (journal + 8) 4 data.length)
  ((s1.store (journal + 12) 4 (crc32 (s1.bytes (journal + 4) 8 ++ data))).put ATTIC_JOURNAL_OFS ofs).setArmed true

/-- The attic copies that a written range overlaps lose their validity until the next check (R101). -/
def State.ocvStale (s : State) (ofs len : Nat) : State :=
  (List.range 4).foldl
    (fun (t : State) (k : Nat) =>
      if ofs < 0x1000 + (k + 1) * 0x2400 ∧ 0x1000 + k * 0x2400 < ofs + len then t.put OCV_VALID_ATTIC (putBit (t.get OCV_VALID_ATTIC) k false) else t) s

/-- The steps of a journaled write: 0 passed, 1 a verify failed in the journal, 2 at the target.  What a failed verify leaves is the whole segment
(DESIGN CHOICE, log entry 160). -/
def State.journaled (s : State) (data : List Byte) (ofs : Nat) (verifyBad inJournal : Bool) : Nat × State :=
  if verifyBad && inJournal then (1, (s.putBytes (journal + 0x40) data).setArmed false)
  else
    let s1 := (s.journalWrite data ofs).putBytes (userCfg + ofs) data
    if verifyBad then (2, s1) else (0, s1.setArmed false)

/-- RESULT of the ATTIC page. -/
def State.atticResult (s : State) (code diff : Nat) : State :=
  let s1 := (s.put ATTIC_RESULT_CODE code).put ATTIC_RESULT_DIFF diff
  if code ≤ 3 then s1.raise PG_ATTIC ATTIC_ST_DONE else s1.raise PG_ATTIC ATTIC_ST_FAIL

/-- ATTIC.CMD is written (R101, Table 22). -/
def State.atticCmd (s : State) (key op : Nat) : State :=
  let ofs := s.get ATTIC_SEG_OFS_OFS
  let len := s.get ATTIC_SEG_LEN_LEN
  if !s.enabled PG_ATTIC then s.atticResult 0x17 0
  else if key ≠ 0xA7C0 then s.atticResult 0x10 0
  else if op ≠ 1 ∧ op ≠ 2 then s.atticResult 0x11 0
  else if configBad ofs len then s.atticResult 0x12 0
  else if op = 1 then s.opStart 2 (.commit ofs len)
  else s.opStart 2 (.compare ofs len)

/-- A commit ends (R101, R102), of the bytes that the mailbox holds now (DESIGN CHOICE, log entry 159). -/
def State.commitEnd (s : State) (ofs len : Nat) (e : OpEnd) : State :=
  let inj := s.injOn PG_ATTIC 1
  let res := (s.injTake PG_ATTIC 1).journaled (s.bytes mailbox len) ofs (e.verifyBad || inj) (e.verifyBad && e.inJournal)
  let r := res.1
  let s1 := res.2
  let s2 := s1.ocvStale ofs len
  let s3 : State := if e.badWords.isEmpty then s2 else s2.err PG_ATTIC ATTIC_ERR_READ
  match r with
  | 0 => (s3.atticResult 0x01 0).longEnd 0
  | 1 => ((s3.errI PG_ATTIC ATTIC_ERR_VERIFY false).atticResult 0x14 0).longEnd 1
  | _ => ((s3.errI PG_ATTIC ATTIC_ERR_VERIFY (inj && !e.verifyBad)).atticResult 0x15 0).longEnd 1

/-- A compare ends (R101). -/
def State.compareEnd (s : State) (ofs len : Nat) (e : OpEnd) : State :=
  let s1 : State := if e.badWords.isEmpty then s else s.err PG_ATTIC ATTIC_ERR_READ
  match (List.range (len / 4)).find? fun k => s.load (userCfg + ofs + 4 * k) 4 != s.load (mailbox + 4 * k) 4 with
  | none => (s1.atticResult 0x02 0).longEnd 0
  | some k => (s1.atticResult 0x03 (ofs / 4 + k)).longEnd 0

/-- The journal at a release of device reset (R102, Table 24).  An uncorrectable read of it, `readBad`, sets ERR.READ (R103) and fails the CRC
(DEDUCED, log entry 161). -/
def State.journalReplay (s : State) (verifyBad readBad : Bool) : State :=
  let s0 := s.put ATTIC_JOURNAL_ARMED (b2n (decide (s.load journal 4 = 0x4D524131)))
  if s.load journal 4 ≠ 0x4D524131 then s0
  else
    let ofs := s.load (journal + 4) 4
    let len := s.load (journal + 8) 4
    let range := decide (len < 4) || decide (8192 < len) || decide (0x10000 < ofs + len) || (decide (ofs < 0xE000) && decide (0xB000 < ofs + len))
    let inj := !range && s.injOn PG_ATTIC 2
    let s1 := if range then s0 else s0.injTake PG_ATTIC 2
    let s1 : State := if readBad && !range then s1.err PG_ATTIC ATTIC_ERR_READ else s1
    if range || inj || readBad || decide (crc32 (s.bytes (journal + 4) 8 ++ s.bytes (journal + 0x40) len) ≠ s.load (journal + 12) 4) then
      (s1.setArmed false).raise PG_ATTIC ATTIC_ST_JLOST
    else
      let s2 := s1.copyRange (journal + 0x40) (userCfg + ofs) len
      if verifyBad then s2.err PG_ATTIC ATTIC_ERR_VERIFY else (s2.setArmed false).raise PG_ATTIC ATTIC_ST_REPLAY

/-! ### OCV sets (R192, R193) -/

/-- The working copy and the attic copy of a set. -/
def ocvWork (k : Nat) : Nat := 0x1A4000 + k * 0x2400
def ocvAttic (k : Nat) : Nat := 0x271000 + k * 0x2400

/-- Checks 0x01 to 0x08 of Table 5 of a set at address `a`; `inj` inverts check 0x07 when it is reached.  The Bool says it was. -/
def State.ocvCheckAt (s : State) (a k : Nat) (inj : Bool) : Nat × Bool :=
  let col := fun (j : Nat) => s.loadI (a + 8 + 2 * j) 2
  let p := fun (j b i : Nat) => s.load (a + 0x100 + 2 * (130 * j + 65 * b + i)) 2
  let zero := fun (o n : Nat) => (List.range n).all fun i => s.byte (a + o + i) == 0
  if s.load a 4 ≠ 0x4C56434F then (0x01, false)
  else if s.load (a + 4) 1 ≠ k then (0x02, false)
  else if (List.range 7).any (fun j => decide (col (j + 1) ≤ col j)) ∨ col 0 < -320 ∨ 960 < col 7 then (0x03, false)
  else if (List.range 8).any (fun j => (List.range 2).any fun b => (List.range 64).any fun i => decide (p j b (i + 1) < p j b i)) then (0x04, false)
  else if (List.range 8).any (fun j => (List.range 65).any fun i => decide (p j 1 i < p j 0 i)) then (0x05, false)
  else if (List.range 8).any (fun j => (List.range 2).any fun b => (List.range 65).any fun i => decide (50000 < p j b i)) then (0x06, false)
  else if inj ∨ crc32 (s.bytes a 0xFC ++ s.bytes (a + 0x100) 0x820) ≠ s.load (a + 0xFC) 4 then (0x07, true)
  else if !(zero 6 2 && zero 0x28 212 && zero 0x920 6880) then (0x08, true)
  else (0, true)

/-- The check with the page's checker 1. -/
def State.ocvJudge (s : State) (a k : Nat) : Nat × State :=
  let r := s.ocvCheckAt a k (s.injOn PG_OCV 1)
  (r.1, if r.2 then s.injTake PG_OCV 1 else s)

/-- VALID.RAM of a set; a set that loses it sets EST.ERR.NOOCV while a tracked string uses it (R192). -/
def State.ocvRam (s : State) (k : Nat) (b : Bool) : State :=
  let s1 := s.put OCV_VALID_RAM (putBit (s.get OCV_VALID_RAM) k b)
  if !b && (List.range 16).any (fun n => s.on (EST_STRCFG_EN.el n) && s.get (EST_STRCFG_SET.el n) == k) then s1.err PG_EST EST_ERR_NOOCV else s1
def State.ocvValidAt (s : State) (k : Nat) (b : Bool) : State := s.put OCV_VALID_ATTIC (putBit (s.get OCV_VALID_ATTIC) k b)

/-- RESULT of the OCV page. -/
def State.ocvResult (s : State) (code check : Nat) : State :=
  let s1 := (s.put OCV_RESULT_CODE code).put OCV_RESULT_CHECK check
  if code ≤ 3 then s1.raise PG_OCV OCV_ST_DONE else s1.raise PG_OCV OCV_ST_FAIL

/-- OCV.CMD is written (R193, Table 4). -/
def State.ocvCmd (s : State) (key set op : Nat) : State :=
  if !s.enabled PG_OCV then s.ocvResult 0x14 0
  else if key ≠ 0x0C7A ∨ op = 0 ∨ 3 < op then s.ocvResult 0x10 0
  else
    let s1 : State := { s with est.ocvEdited := 0 }
    if op = 1 then s1.opStart 3 (.ocvCommit set) else if op = 2 then s1.opStart 3 (.ocvReload set) else s1.opStart 3 (.ocvCheck set)

/-- A write to a byte of a working set (R192); during an operation of the set it counts at the operation's end. -/
def State.ocvEdit (s : State) (k : Nat) : State :=
  match s.op with
  | some (.ocvCommit x) | some (.ocvReload x) | some (.ocvCheck x) =>
    if x = k then { s with est.ocvEdited := putBit s.est.ocvEdited k true } else (s.ocvRam k false).raise PG_OCV OCV_ST_EDITED
  | _ => (s.ocvRam k false).raise PG_OCV OCV_ST_EDITED

/-- The end of an OCV operation: writes that landed meanwhile leave the set invalid (R192). -/
def State.ocvFinish (s : State) (k code check : Nat) : State :=
  let s1 := (s.ocvResult code check).longEnd (if code ≤ 3 then 0 else 1)
  if bitOf s1.est.ocvEdited k then { (s1.ocvRam k false).raise PG_OCV OCV_ST_EDITED with est.ocvEdited := 0 } else s1

/-- CHECK ends (R193, Table 4). -/
def State.ocvCheckEnd (s : State) (k : Nat) : State :=
  let res := s.ocvJudge (ocvWork k) k
  let c := res.1
  let s1 := res.2
  if c ≠ 0 then (s1.ocvRam k false).ocvFinish k 0x12 c else (s1.ocvRam k true).ocvFinish k 0x03 0

/-- COMMIT ends: checked, then written through the journal like any commit (R101, R193). -/
def State.ocvCommitEnd (s : State) (k : Nat) (e : OpEnd) : State :=
  let res := s.ocvJudge (ocvWork k) k
  let c := res.1
  let s1 := res.2
  if c ≠ 0 then (s1.ocvRam k false).ocvFinish k 0x12 c
  else
    let inj := s1.injOn PG_ATTIC 1
    let res := (s1.injTake PG_ATTIC 1).journaled (s1.bytes (ocvWork k) 0x920) (0x1000 + k * 0x2400) (e.verifyBad || inj) (e.verifyBad && e.inJournal)
    let r := res.1
    let s2 := res.2
    let s3 := s2.ocvRam k true
    if r = 0 then (s3.ocvValidAt k true).ocvFinish k 0x01 0
    else ((s3.ocvValidAt k false).errI PG_OCV OCV_ERR_VERIFY (inj && !e.verifyBad)).ocvFinish k 0x13 0

/-- RELOAD ends. -/
def State.ocvReloadEnd (s : State) (k : Nat) : State :=
  let res := s.ocvJudge (ocvAttic k) k
  let c := res.1
  let s1 := res.2
  if c ≠ 0 then (s1.ocvValidAt k false).ocvFinish k 0x12 c
  else (((s1.copyRange (ocvAttic k) (ocvWork k) 0x2400).ocvRam k true).ocvValidAt k true).ocvFinish k 0x02 0

/-- At RISE every set is reloaded and checked (R193). -/
def State.ocvRise (s : State) : State :=
  (List.range 4).foldl
    (fun (t : State) (k : Nat) =>
      let res := t.ocvJudge (ocvAttic k) k
      let c := res.1
      let t1 := res.2
      if c ≠ 0 then ((t1.ocvValidAt k false).ocvRam k false).err PG_OCV OCV_ERR_LOADFAIL
      else ((t1.copyRange (ocvAttic k) (ocvWork k) 0x2400).ocvValidAt k true).ocvRam k true) s

/-! ### Store-room clears and lifetime flushes -/

/-- A store-room clear starts (R207). -/
def State.clearStart (s : State) (string : Option (Fin 16)) : State := s.opStart 4 (.clear string)

/-- A store-room clear ends. -/
def State.clearEnd (s : State) (string : Option (Fin 16)) : State :=
  let s1 := match string with
    | some n => (s.clearString n).fallbackDue n
    | none => (List.finRange 16).foldl (fun (t : State) (n : Fin 16) => (t.clearString n).fallbackDue n) s
  (s1.raise PG_EST EST_ST_CLEARDONE).longEnd 0

/-- A lifetime flush starts, or waits for the running long operation (R47, R227). -/
def State.flushStart (s : State) (retire : Option (Nat × Nat)) : State :=
  if s.busy then { s with est.flushDue := true } else s.opStart 8 (.flush retire)

/-- A lifetime flush ends; its result is 1 when a write did not verify. -/
def State.flushEnd (s : State) (retire : Option (Nat × Nat)) (e : OpEnd) : State :=
  let bad := e.verifyBad || s.injOn PG_HEALTH 1
  (s.flush retire e.badWords (!e.verifyBad)).longEnd (b2n bad)

/-! ### Completion (R46) -/

/-- The long operation in progress ends. -/
def State.opEnd (s : State) (e : OpEnd) : State :=
  let s0 : State := { s with op := none }
  match s.op with
  | none => s
  | some (.segment b o l) => s0.segmentEnd b o l e
  | some (.seal b) => s0.sealEnd b e
  | some (.erase b) => (((s0.sealState b 0).bankWritten b).imageResult 0x03 0).longEnd 0
  | some (.checkImage b) => s0.checkEnd b e
  | some (.commit o l) => s0.commitEnd o l e
  | some (.compare o l) => s0.compareEnd o l e
  | some (.ocvCommit k) => { s0.ocvCommitEnd k e with op := none }
  | some (.ocvReload k) => s0.ocvReloadEnd k
  | some (.ocvCheck k) => s0.ocvCheckEnd k
  | some (.clear n) => s0.clearEnd n
  | some (.flush r) => s0.flushEnd r e

/-- A flush that waited starts once no long operation runs (R47). -/
def State.flushNow (s : State) : State :=
  if s.est.flushDue ∧ !s.busy then ({ s with est.flushDue := false } : State).opStart 8 (.flush none) else s

/-- A device reset abandons the operation.  How far its writes had come is free (log entry 25): a segment has filled some words, and a
commit has or has not armed its journal.  A commit's step 1 that is cut short leaves the journal IDLE, also where an earlier commit had left it ARMED
(R102; DESIGN CHOICE, log entry 162: R101 has that copy made again). -/
def State.opAbandon (s : State) : State :=
  let k := Config.abandonedAt s.fresh
  let s0 : State := { s.tickFresh with op := none }
  match s.op with
  | some (.segment b o l) => s0.copyRange mailbox (bankAddr b + o) (min l (4 * (k % (l / 4 + 1))))
  | some (.commit o l) => if k % 2 = 1 then s0.journalWrite (s0.bytes mailbox l) o else s0.setArmed false
  | some (.ocvCommit x) =>
    if (s0.ocvCheckAt (ocvWork x) x false).1 ≠ 0 then s0
    else if k % 2 = 1 then s0.journalWrite (s0.bytes (ocvWork x) 0x920) (0x1000 + x * 0x2400) else s0.setArmed false
  | _ => { s with op := none }

end Sys2Proof.Machine
end

