-- ==== Sys2Proof/Machine/Load.lean ====
section
/-! DEFINITION. Loading and lighting images: placing lane sections and budgets (R90, R91), what lighting loads (R80, R82, R99), the
built-in schedule (R73, R125, R176), image selection (R492). -/

namespace Sys2Proof.Machine

/-- The section of lane `n` of the image at `b` is placed at word `first` of its partition, with its budgets (R90, R91). -/
def State.placeLane (s : State) (b n first : Nat) : State :=
  let w := s.iWords b n
  let s1 := s.copyRange (b + s.iOfs b n) (0x180000 + 8 * (laneBase n + first)) (8 * w)
  (List.range w).foldl (fun (t : State) (k : Nat) => t.setBudget (laneBase n + first + k) (s.iBudget b n k)) s1

/-- TIMING of the image at `b` (Table 17 of the lamplighter). -/
def State.timingOf (s : State) (b : Nat) : Nat := s.ihd b 0x21 1 * 65536 + s.ihd b 0x22 1 * 256 + s.ihd b 0x20 1

/-- An image is placed: per lane its first word and length, TIMING and SERIAL held until it is lit. -/
def State.placeImage (s : State) (bank : Nat) (firsts : List Nat) : State :=
  let b := bankAddr bank
  let s1 := (List.range 6).foldl (fun (t : State) (n : Nat) => t.placeLane b n (nth firsts n)) s
  { s1 with lamp.place := (List.range 6).map fun n => (nth firsts n, s.iWords b n),
            lamp.heldTiming := s.timingOf b, lamp.heldSerial := s.ihd b 0x0C 4 }

/-- A cold load places every section at word 0 (R90). -/
def State.loadImage (s : State) (bank : Nat) : State := s.placeImage bank [0, 0, 0, 0, 0, 0]

/-- Where a warm relight places the sections of a bank, when every one fits in the words the lit image does not use (R90). -/
def State.warmPlace (s : State) (bank : Nat) : Option (List Nat) :=
  (List.range 6).foldr
    (fun (n : Nat) (acc : Option (List Nat)) =>
      let k := s.iWords (bankAddr bank) n
      let b := s.get (LAMP_BASE_FIRST.el n)
      let w := nth s.lamp.litLen n
      match acc with
      | none => none
      | some l => if k ≤ b then some (0 :: l) else if b + w + k ≤ laneWords n then some ((b + w) :: l) else none) (some [])

/-- Whether a bank would relight warm now (R76). -/
def State.warmOk (s : State) (bank : Nat) : Bool :=
  s.mode == .run && s.bankState bank == 2 && s.litBank != 0 && s.litBank != bank && s.ihd (bankAddr bank) 0x28 4 == 0 && (s.warmPlace bank).isSome

/-! ### The lit tables (R89) -/

/-- First word and length of a table of the lit image, read from its directory. -/
def State.litTable (s : State) (lane cls level : Nat) : Nat × Nat :=
  let base := s.get (LAMP_BASE_FIRST.el lane)
  let d := s.slotWord lane (base + 1 + 3 * cls + level)
  (base + d % 0x10000, d / 0x10000 % 0x10000)

/-- The slots of `n` words from word `w` of a lane. -/
def State.slotsAt (s : State) (lane : Nat) : Nat → Nat → List SlotOp
  | _, 0 => []
  | w, n + 1 =>
    let x := s.slotWord lane w
    if hasExt (wordOpcode x) then
      let rest := match n with | 0 => [] | m + 1 => s.slotsAt lane (w + 2) m
      match decodeSlot x (s.slotWord lane (w + 1)) with | some o => o :: rest | none => rest
    else
      match decodeSlot x 0 with | some o => o :: s.slotsAt lane (w + 1) n | none => s.slotsAt lane (w + 1) n

/-- The points that a lane of the lit image gives in the tables of some classes (R60). -/
def State.lanePoints (s : State) (lane : Nat) (classes : List Nat) : List Nat :=
  classes.flatMap fun cls =>
    (List.range 3).flatMap fun v =>
      let t := s.litTable lane cls v
      (s.slotsAt lane t.1 (min t.2 3072)).filterMap fun o => match o with | .rdv 0 p _ => some p | _ => none

/-- The givers of the points of the image lit, by point (R60). -/
def State.imageGivers (s : State) : List (Nat × Nat) :=
  (List.range 6).flatMap fun n => (s.lanePoints n (List.range 5)).map fun p => (p, n)

/-! ### Epoch and frames (R15, R68) -/

/-- The number of frame `i` of epoch `e` (R68). -/
def State.frameNumber (s : State) (e i : Nat) : Nat :=
  (match s.get LAMP_TIMING_TFRAME with
   | 3 => e / 2
   | 4 => e / 4
   | _ => e * (1000 / s.tFrame) + i) % 2 ^ 32

/-- The place of the round in progress within its epoch, in ms. -/
def State.gridMs (s : State) : Nat := (s.lamp.index * s.tFrame + s.get LAMP_POSITION_ROUND) % 1000

/-- The frames of the schedule now lit are aligned to the epoch, of which `ms` milliseconds have passed (R15): the frame in progress, its
number and the round within it. -/
def State.regrid (s : State) (ms : Nat) : State :=
  let e := s.get RING_PTIME_E_E
  let i := if s.tFrame ≤ 1000 then ms / s.tFrame else 0
  let r := if s.tFrame ≤ 1000 then ms % s.tFrame else e % (s.tFrame / 1000) * 1000 + ms
  ({ s with lamp.index := i, lamp.frameE := if s.tFrame ≤ 1000 then e else e - e % (s.tFrame / 1000) }.put LAMP_FRAME_NUMBER (s.frameNumber e i)).put LAMP_POSITION_ROUND r

/-- The image held is lit (R82): TIMING, BASE, LIT_SERIAL, no word modified, no stale bank, and LASTREST (R224). -/
def State.lightImage (s : State) (bank : Nat) : State :=
  let s1 := (s.wr (PG_LAMP * 0x400 + 0x040) (BitVec.ofNat 32 s.lamp.heldTiming)).wr (PG_IMAGE * 0x400 + 0x068) (BitVec.ofNat 32 s.lamp.heldSerial)
  let s2 := (List.range 6).foldl (fun (t : State) (n : Nat) => t.put (LAMP_BASE_FIRST.el n) ((s.lamp.place[n]?).getD (0, 0)).1) s1
  let s3 := (((s2.put LAMP_STATE_SOURCE (bank + 1)).put LAMP_STATE_LOADED 0).put LAMP_STATE_MODIFIED 0).put LAMP_STATE_BANKSTALE 0
  let s4 := (s3.level PG_LAMP LAMP_ST_MODIFIED false).level PG_LAMP LAMP_ST_BANKSTALE false
  let s5 := (List.range 16).foldl (fun (t : State) (n : Nat) => t.put (HEALTH_LASTREST_FRAME.el n) t.frame) (s4.regrid s.gridMs)
  { s5.restRequests with lamp.litLen := s.lamp.place.map (·.2), lamp.prevBank := bank, lamp.givers := s5.imageGivers }

/-- Template 31 of a link as the built-in schedule loads it: a READ of node 0, WADDR 0x20, N = 16 (R176). -/
def State.builtinTemplate (s : State) (n : Fin 16) : State :=
  let a := fun (f : Fld) => (f.el 31).at n.val
  let s1 := ((s.wr (a SLINK_TPL_A_TYPE).addr 0).put (a SLINK_TPL_A_TYPE) 4).put (a SLINK_TPL_A_LEN) 2
  (s1.put (a SLINK_TPL_B_PAY) 0x5640).put (a SLINK_TPL_B_DST) (0x5440 + 0x20 * n.val)

/-- The built-in schedule is lit (R73): its timing, its sequence tables with ADCC and ADCD enabled (R125), its link template (R176). -/
def State.lightBuiltin (s : State) : State :=
  let s1 := (s.wr (PG_LAMP * 0x400 + 0x040) (BitVec.ofNat 32 (2 * 65536 + 100 * 256 + 1))).wr (PG_IMAGE * 0x400 + 0x068) 0
  let s2 := (List.range 6).foldl (fun (t : State) (n : Nat) => t.put (LAMP_BASE_FIRST.el n) 0) s1
  let s3 := ((s2.put LAMP_STATE_SOURCE 1).put LAMP_STATE_MODIFIED 0).put LAMP_STATE_BANKSTALE 0
  let s4 := (s3.level PG_LAMP LAMP_ST_MODIFIED false).level PG_LAMP LAMP_ST_BANKSTALE false
  let s5 := s4.loadBuiltinTables.putBytes 0x1B5900 [0x20, 0x10]
  let s6 := (List.finRange 16).foldl (fun (t : State) (n : Fin 16) => t.builtinTemplate n) s5
  { s6.regrid s.gridMs with lamp.litLen := [], lamp.givers := [] }

/-- The order in which R492 tries the banks. -/
def State.bankOrder (s : State) : List Nat :=
  let once := s.get DEV_BOOTSEL_ONCE
  let pref := if s.dev.strapImg then 2 else 1
  if once = 1 ∨ once = 2 then [once, 3 - once] else [pref, 3 - pref]

/-- The code of a bank's check at start-up. -/
def bootChk (bank : Nat) : Fld := if bank = 1 then DEV_BOOTCHK_CHECK_A else DEV_BOOTCHK_CHECK_B

/-- The first bank of a list that is SEALED and passes its checks is loaded; a failure goes to BOOTCHK (R492).  `bad` tells the banks
with an uncorrectable attic read. -/
def State.tryBanks (s : State) (bad : Nat → Bool) : List Nat → Bool → Option (Nat × Bool) × State
  | [], _ => (none, s)
  | k :: t, failed =>
    if s.bankState k ≠ 2 then s.tryBanks bad t failed
    else
      let res := s.checkImage (bankAddr k) (bad k)
      let c := res.1
      let s1 := res.2
      if c = 0 then (some (k, failed), s1.loadImage k) else (s1.put (bootChk k) c).tryBanks bad t true

/-- Image selection in RISE (R492): a bank is lit, or the built-in schedule; DEV.BOOT reports it. -/
def State.selectImage (s : State) (bad : Nat → Bool) : State :=
  let s0 := (s.put DEV_BOOTCHK_CHECK_A 0).put DEV_BOOTCHK_CHECK_B 0
  let order := s0.bankOrder
  let first := if s0.lamp.prevBank = 0 then order else s0.lamp.prevBank :: order.filter (· != s0.lamp.prevBank)
  let res := s0.tryBanks bad first false
  let r := res.1
  let s1 := res.2
  let again := s0.lamp.prevBank ≠ 0 ∧ r = some (s0.lamp.prevBank, false)
  let s2 := if s1.get DEV_BOOTSEL_ONCE = 3 ∨ again then s1 else s1.put DEV_BOOTSEL_ONCE 0
  match r with
  | some (k, failed) => ((s2.lightImage k).put DEV_BOOT_SOURCE (k + 1)).raiseIf failed PG_DEV DEV_ST_BOOTALT
  | none => s2.lightBuiltin.put DEV_BOOT_SOURCE 1

/-- The image that a MODEREQ RUN lights from SERVICE (R494): the one held, else the bank last lit, else what R492 selects; none when a
check fails or no bank is sealed. -/
def State.imageForRun (s : State) (bad : Nat → Bool) : Option Nat × State :=
  if s.get LAMP_STATE_LOADED ≠ 0 then (some (s.get LAMP_STATE_LOADED), s)
  else
    let prev := s.lamp.prevBank
    if prev ≠ 0 ∧ s.bankState prev = 2 then
      let res := s.checkImage (bankAddr prev) (bad prev)
      let c := res.1
      let s1 := res.2
      if c = 0 then (some prev, s1.loadImage prev) else (none, s1)
    else
      let res := s.tryBanks bad s.bankOrder false
      let r := res.1
      let s1 := res.2
      let s2 := if s1.get DEV_BOOTSEL_ONCE = 3 then s1 else s1.put DEV_BOOTSEL_ONCE 0
      (r.map (·.1), s2)

end Sys2Proof.Machine
end

