-- ==== Sys2Proof/Machine/Records.lean ====
section
/-! DEFINITION. The cellar record area (R384, R385) and PWRON (R387). -/

namespace Sys2Proof.Machine

/-- The start of the record area (Table 2). -/
def recArea : Nat := 0x300000

/-- CHECK over the record area after an update (R385). -/
def State.recSeal (s : State) : State := s.store (recArea + 0x3C) 2 (crc16 (s.bytes recArea 0x3C))

/-- A field of the record area is written. -/
def State.recPut (s : State) (ofs n v : Nat) : State := (s.store (recArea + ofs) n v).recSeal

/-- A counter of the record area goes up by one, saturating. -/
def State.recBump (s : State) (ofs n : Nat) : State := s.recPut ofs n (satInc (256 ^ n - 1) (s.load (recArea + ofs) n))

/-- The record area takes its clear values. -/
def State.recClear (s : State) : State := (s.zeroRange recArea 0x40).recPut 0 4 0x52414C43

/-- MAGIC and CHECK at RISE: a failure rewrites the area (R385). -/
def State.recCheck (s : State) : State :=
  let inj := s.injOn PG_CELLAR 1
  let s1 := s.injTake PG_CELLAR 1
  let real := decide (s.load recArea 4 ≠ 0x52414C43 ∨ s.load (recArea + 0x3C) 2 ≠ crc16 (s.bytes recArea 0x3C))
  if inj || real then (s1.errI PG_CELLAR CELLAR_ERR_RECCRC (inj && !real)).recClear else s1

/-! ### PWRON -/

/-- PWRON is asserted (R387). -/
def State.pwronSet (s : State) : State := (s.put CELLAR_PWRON_SET 1).level PG_CELLAR CELLAR_ST_PWRON true

/-- PWRON is released, unless an assertion falls in the same cellar clock (R387). -/
def State.pwronRelease (s : State) (both : Bool) : State :=
  if both then
    let c := hdrAddr PG_CELLAR hdrCOLLIDE
    s.pwronSet.wr c (BitVec.ofNat 32 (min 255 ((s.rd c).toNat % 256 + 1)))
  else (s.put CELLAR_PWRON_SET 0).level PG_CELLAR CELLAR_ST_PWRON false

/-- The PWRON pad at a tick: two mismatches in a row set ERR.PWRONRB (R387). -/
def State.pwronCheck (s : State) (padHigh : Bool) : State :=
  let bad := padHigh != s.on CELLAR_PWRON_SET
  let n := if bad then min 2 (s.cellar.pwronMis + 1) else 0
  let s1 : State := { s with cellar.pwronMis := n }
  if bad ∧ s.cellar.pwronMis = 1 then s1.err PG_CELLAR CELLAR_ERR_PWRONRB else s1

/-- Wake sources whose bits stand in both WAKEEN and PWRMAP assert PWRON (R387). -/
def State.wakePower (s : State) (bits : Nat) : State :=
  if bits % 32 &&& s.get CELLAR_WAKEEN_SRC &&& s.get CELLAR_PWRMAP_SRC = 0 then s else s.pwronSet

/-- What a wake source leaves behind (R387): STATUS.WAKE, WAKESRC, and PWRON for the mapped ones.  `bits` are those of WAKESRC. -/
def State.wakeRecord (s : State) (bits : Nat) : State :=
  let s1 := (s.put CELLAR_WAKESRC_SRC (bits % 32)).put CELLAR_WAKESRC_ALM (bits / 32 % 4)
  (s1.raise PG_CELLAR CELLAR_ST_WAKE).wakePower bits

end Sys2Proof.Machine
end

