-- ==== Sys2Proof/Machine/Modes.lean ====
section
/-! DEFINITION. Modes: every transition of R485, Table 1, device reset (R488), the start and end of RISE (R489 to R491), HIBERNATE
(R495, R496), SAFE and its restarts (R497, R498), FALL and power cycling (R499), mode requests (R486). -/

namespace Sys2Proof.Machine

/-- The table class a mode runs (R63, Table 5); 7 none. -/
def Mode.cls : Mode → Nat
  | .run => 0
  | .ride => 1
  | .safe => 2
  | .service => 3
  | .hibernate => 4
  | _ => 7

/-- The device enters a mode: PREV, CAUSE and MODECHG (R485); the lanes switch at a later marker (R64). -/
def State.setMode (s : State) (m : Mode) (cause : Nat) : State :=
  let s1 : State := { s with mode := m, lamp.switchPending := true }
  ((s1.put DEV_MODE_PREV s.mode.code).put DEV_MODE_CAUSE cause).raise PG_DEV DEV_ST_MODECHG

/-! ### Device reset and CELLAR (R488) -/

/-- Whether a byte keeps its contents in device reset: the store room, the attic and the cellar (R488). -/
def keptByte (a : Nat) : Bool := (decide (0x100000 ≤ a) && decide (a < 0x180000)) || decide (0x200000 ≤ a)

/-- The device domain in device reset: registers of domain POR, the cellar and the inputs stay (R488, R396).  The IBC stops with every
rail, so that VIB no longer counts as a bias source (R20); a PWRON that stays asserted makes no new rise (R36). -/
def State.inReset (s : State) : State :=
  let st := hdrAddr PG_CELLAR hdrSTATUS
  let raw := hdrAddr PG_CELLAR hdrRAW
  let r : State :=
    { State.reset with
        pending := s.pending, fresh := s.fresh, answer := s.answer, mode := s.mode,
        regs := s.regs.filter (fun e => regDom e.1 == .por), mem := s.mem.filter (fun c => keptByte c.1),
        cellar := { s.cellar with frozen := [] },
        wdog := { State.reset.wdog with on := s.wdog.on },
        dev := { State.reset.dev with bias := biasFirst (s.dev.biasMask / 2 * 2), biasMask := s.dev.biasMask / 2 * 2, vhbOn := s.dev.vhbOn, armedOff := s.dev.armedOff,
                                      resetIn := s.dev.resetIn, testHigh := s.dev.testHigh, vddioLow := s.dev.vddioLow, jtag := s.dev.jtag } }
  (r.wr st (r.rd st &&& 1)).wr raw (BitVec.ofNat 32 (putBit (r.rd raw).toNat CELLAR_ST_PWRON (r.on CELLAR_PWRON_SET)))

/-- RISE through device reset (causes 2 and 3 of Table 1), with the code of DEV.BOOT.RISECAUSE. -/
def State.riseReset (s : State) (cause riseCause : Nat) : State :=
  let s1 := s.inReset
  ((s1.setMode .rise cause).put DEV_BOOT_RISECAUSE riseCause)

/-- Device reset from any mode but CELLAR, where the device domain is held in it already: what a running operation had written stands, and
the record area takes DOWNMODE and ABANDONED (R384, R488, R48). -/
def State.deviceReset (s : State) (riseCause : Nat) : State :=
  if s.mode = .cellar then s
  else ((s.opAbandon.recPut 0x0A 1 s.mode.code).recPut 0x0B 1 (s.get DEV_LONGOP_RUN)).riseReset 3 riseCause

/-- RESETIN_N is low: device reset from any mode with bias, CELLAR among them (cause 3 of Table 1; DEDUCED, log entry 136). -/
def State.resetPin (s : State) : State :=
  if s.mode ≠ .cellar then { s with dev.resetIn := true }.deviceReset 2
  else if s.dev.bias = .none then { s with dev.resetIn := true }
  else
    { (s.recPut 0x0A 1 s.mode.code).recPut 0x0B 1 0 with cellar.powered := false, dev.armedOff := none, dev.onAtFall := false, dev.resetIn := true }.riseReset 3 2

/-- CELLAR is entered: the mode left in DOWNMODE, an abandoned operation in ABANDONED, the store room released, and with it the hibernation
stamp of its cells (R384, R499; log entry 28). -/
def State.enterCellar (s : State) (cause : Nat) : State :=
  let s1 := ((s.opAbandon.recPut 0x0A 1 s.mode.code).recPut 0x0B 1 (s.get DEV_LONGOP_RUN)).inReset
  ({ s1 with mem := s1.mem.filter fun c => decide (0x200000 ≤ c.1) }.wr (PG_EST * 0x400 + 0x070) 0).setMode .cellar cause

/-- RISE begins from CELLAR with bias present (R488). -/
def State.riseFromCellar (s : State) (riseCause : Nat) : State :=
  if s.mode = .cellar ∧ s.dev.bias ≠ .none then { s with cellar.powered := false, dev.armedOff := none, dev.onAtFall := false }.riseReset 2 riseCause else s

/-- The bias sources that count of those above their thresholds: VIB only while the IBC reports power-good (R20, R509). -/
def State.biasCounts (s : State) (mask : Nat) : Nat := if s.railPg 0 then mask % 8 else mask % 8 / 2 * 2

/-- The bias sources above their thresholds become `mask` (R20, R509). -/
def State.biasMask (s : State) (mask : Nat) : State :=
  { s with dev.biasMask := s.biasCounts mask, dev.bias := biasFirst (s.biasCounts mask) }

/-! ### Relights under a mode change (R79) -/

/-- The image loaded in SERVICE is held (R78, R79). -/
def State.holdImage (s : State) : State :=
  { s.put LAMP_STATE_LOADED s.lamp.relightBank with lamp.coldStage := 0, lamp.autoRun := false }

/-- A change to SAFE, FALL or HIBERNATE meets a relight (Table 11). -/
def State.relightOut (s : State) (safe : Bool) : State :=
  if s.lamp.coldStage ≤ 1 then (if s.get LAMP_STATE_RELIGHT = 0 then s else s.relightFail 0x15 0)
  else if safe then (if s.lamp.coldStage = 2 then { s with lamp.autoRun := false } else { s.holdImage with lamp.relightBank := 0 }.put LAMP_STATE_RELIGHT 0)
  else if s.get LAMP_STATE_RELIGHT = 0 then { s with lamp.coldStage := 0, lamp.autoRun := false }
  else s.relightFail 0x15 0

/-! ### SAFE, SERVICE, RUN -/

/-- Converters stop and every selector opens, as at entry to SAFE, SERVICE and FALL (R241, R169, R23). -/
def State.convertersOff (s : State) : State := s.balAllOff.packRows

/-- SAFE (causes 8 and 14 of Table 1). -/
def State.enterSafe (s : State) (cause : Nat) : State :=
  let s1 := { s.setMode .safe cause with dev.servicePend := false, dev.stage := 0 }.relightOut true
  ((s1.convertersOff.svcSnuff).feedsSnuff).deselectAll

/-- SERVICE (R494, Table 8), whose built-in schedule the lanes' switch lights (R64, R73); a cold relight that waited for it starts to load (R78). -/
def State.enterService (s : State) (cause : Nat) : State :=
  let s1 : State := { s.setMode .service cause with dev.servicePend := false }
  let s2 := ((s1.convertersOff).deselectAll).feedsLevel0
  let s3 := s2.svcRun s2.svc.on
  if s3.lamp.coldStage = 1 then { s3.put LAMP_STATE_RELIGHT 2 with lamp.coldStage := 2 } else s3

/-- RUN from SAFE or SERVICE (R497, R494): feeds held since SAFE may leave OFF (R315). -/
def State.enterRun (s : State) : State :=
  let s1 := s.setMode .run 10
  s1.feedsEnter.svcRun s1.svc.on

/-! ### FALL and HIBERNATE -/

/-- An enumeration or a calibration sweep is abandoned, so that the flush can run (R46, R227). -/
def State.abandonForFlush (s : State) : State :=
  let c := s.get DEV_LONGOP_RUN
  if c = 5 then (List.finRange 4).foldl (fun (t : State) (b : Fin 4) => t.sweepAbandon b) (s.longEnd 1)
  else if c = 6 then
    (List.finRange 16).foldl
      (fun (t : State) (n : Fin 16) =>
        let x : LinkS := { t.lk n with inOp := false }
        t.setLk n (if x.phase.maint && x.why == .enumeration then { x with phase := .idle, tx := [], todo := [] } else x)) (s.longEnd 1)
  else if c = 7 then s.longEnd 1
  else s

/-- The flush at entry to FALL or HIBERNATE, after whatever operation must run to its end, an hourly flush included (R227). -/
def State.flushForEntry (s : State) : State := s.abandonForFlush.flushStart none

/-- FALL (cause 5 of Table 1): converters, then selectors, then feeds, then the reverse rail order (R23), after the lifetime flush (R227).
From HIBERNATE, and from RISE before its PLL lock, only the rail order is left: the STORE island that flushes has no clock, and nothing has
been counted since the flush at entry or the reset (DEDUCED, log entry 188). -/
def State.enterFall (s : State) : State :=
  let s1 := { s.setMode .fall 5 with dev.servicePend := false, dev.wakeBits := none }.relightOut false
  let s2 := s1.convertersOff.svcStop
  if !s.dev.pll then { s2.feedsOff with dev.stage := 0 }.seqFall 0
  else { (if s.mode = .rise then s2.feedsOff else s2).deselectAll.flushForEntry with dev.stage := 1 }

/-- An off request (R485, cause 5); none in CELLAR and FALL. -/
def State.offRequest (s : State) : State := if s.mode = .cellar ∨ s.mode = .fall then s else s.enterFall

/-- The monitors that watch a string in HIBERNATE and are INSIDE at its entry (R205). -/
def State.quietMask (s : State) : Nat :=
  (List.range 16).foldl
    (fun (m : Nat) (n : Nat) =>
      if s.on (CMP_WCFG_EN.el n) && s.monString n && s.get (CMP_WSTATE_S.sh (2 * n)) == 0 then m + 2 ^ n else m) 0

/-- Q_STR is not advanced in HIBERNATE (R205): the last windows and readings counted before it no longer bound a gap to fill. -/
def State.estSleeps (s : State) : State :=
  (List.finRange 16).foldl (fun (t : State) (n : Fin 16) => t.setEs n { t.es n with wins := [], readings := [], lastT := none }) s

/-- HIBERNATE (R495): channels and feeds OFF, the safe deselect, the stamp (R205), the flush, the trip comparators without power (R133). -/
def State.enterHibernate (s : State) : State :=
  let s1 := { s.setMode .hibernate 11 with dev.servicePend := false }.relightOut false
  let s2 := (((s1.convertersOff.svcStop).feedsOff).inpHibernate).deselectAll
  let s3 := (s2.wr (PG_EST * 0x400 + 0x06C) (BitVec.ofNat 32 s2.cellar.count)).wr (PG_EST * 0x400 + 0x070) (BitVec.ofNat 32 (0x10000 + s2.cellar.count / 2 ^ 32 % 2 ^ 16))
  { s3.estSleeps.flushForEntry.cmpStops with dev.stage := 1, est.quiet := s3.quietMask }

/-! ### RISE without device reset -/

/-- RISE from HIBERNATE (cause 12) or from SAFE with the rails off (cause 13): registers keep their values, the steps marked "every RISE"
run, feeds are OFF (R315), the start of the rails may be held (R485, R489, R491). -/
def State.riseAgain (s : State) (cause riseCause : Nat) : State :=
  let s1 := (s.setMode .rise cause).put DEV_BOOT_RISECAUSE riseCause
  let s2 : State :=
    { s1.put LAMP_STATE_CLASS 7 with
        dev := { s1.dev with rowC := false, calDone := false, imageDone := false, preloadDone := false, enumDue := false, stage := 0, wakeBits := none, stopLatched := false } }
  (s2.feedsOff.seqRise (!s2.dev.vhbOn)).put EVQ_HOLD_LEVEL s2.evq.held.length

/-- The bits of WAKESRC whose source is enabled; alarms always are (R496). -/
def State.wakeEnabled (s : State) (bits : Nat) : Nat := (bits % 32 &&& s.get CELLAR_WAKEEN_SRC) + bits / 32 % 4 * 32

/-- RISE from HIBERNATE on a wake (R496). -/
def State.wakeRise (s : State) : State := s.riseAgain 12 8

/-- A wake request: in HIBERNATE RISE begins, once its entry is complete; in CELLAR with bias present RISE begins through device reset,
except on a window monitor or an I²C match (R488, R496).  Elsewhere a source only asserts PWRON where it is mapped (R387; DEDUCED, log entry 198). -/
def State.wakeRequest (s : State) (bits : Nat) : State :=
  let e := s.wakeEnabled bits
  if e = 0 then s
  else if s.mode = .hibernate then
    let s1 := s.wakeRecord e
    if s1.dev.stage ≠ 0 then { s1 with dev.wakeBits := some e } else s1.wakeRise
  else if s.mode = .cellar ∧ e / 4 ≠ 0 then (s.wakeRecord e).riseFromCellar 7
  else s.wakePower e

/-- A SAFE or STOP latch in HIBERNATE is a wake request that records no source (R361, R496). -/
def State.wakeByLatch (s : State) : State :=
  if s.mode = .hibernate then (if s.dev.stage ≠ 0 then { s with dev.wakeBits := some 0 } else (s.raise PG_CELLAR CELLAR_ST_WAKE).wakeRise) else s

/-- The steps of FALL and of entry to HIBERNATE that follow once what they wait for has ended: selectors open, feeds off, the flush over,
then the rails (R23, R495, R227). -/
def State.stageStep (s : State) : State :=
  let linksDone := (List.finRange 16).all fun n => (s.lk n).phase != .desel
  let s1 : State := if s.dev.stage = 1 ∧ linksDone then { (if s.mode = .fall then s.feedsOff else s) with dev.stage := 2 } else s
  if s1.dev.stage = 2 ∧ !s1.busy ∧ !s1.est.flushDue then
    let s2 : State := { s1 with dev.stage := 0 }
    if s2.mode = .fall then s2.seqFall 0
    else if s2.mode = .hibernate then
      let s3 : State := { (s2.seqFall s2.hibKeep).railsNative.samplingStops with dev.pll := false }
      if s3.dev.wakeBits = none then s3 else s3.wakeRise
    else s2
  else s1

/-- FALL ends in CELLAR once FALLDONE stands and the flush has ended (R499). -/
def State.fallComplete (s : State) : State :=
  if s.mode = .fall ∧ s.dev.stage = 0 ∧ s.seqPhase ≠ 3 ∧ !s.busy then { s.enterCellar 6 with dev.onAtFall := s.seq.pendOn } else s

/-! ### STOP and restart (R335, R352, R498) -/

/-- The STOP reaction on the rails, with the STOP counted in the cellar (R335, R384). -/
def State.stopRails (s : State) : State := ({ s with dev.stopLatched := true }.railsStop).recBump 0x26 2

/-- The pages whose ERR causes stand behind the sources of class STOP are cleared of them (R498). -/
def State.clearStopCauses (s : State) : State :=
  (s.fault.latched.filter fun p => p.2 == 4).foldl
    (fun (t : State) (p : Nat × Nat) =>
      if p.1 = 2 ∨ p.1 = 3 then t.wr (PG_FAULT * 0x400 + 0x074) 0
      else if 57 ≤ p.1 then t.put FAULT_RAISE_SET (putBit (t.get FAULT_RAISE_SET) (p.1 - 57) false)
      else
        (List.range 0x80).foldl
          (fun (u : State) (pg : Nat) =>
            if !pageAssigned pg then u
            else
              let e := u.hdr pg hdrERR
              let m := (List.range 32).foldl (fun (k : Nat) (i : Nat) => if bitOf e i && errSource pg i == p.1 then k + 2 ^ i else k) 0
              if m = 0 then u else u.errW1C pg (BitVec.ofNat 32 m)) t) s

/-- RTC ticks of an hour. -/
def hourTicks : Nat := 3600 * 32768

/-- The automatic restarts within the last hour of RTC time (R498). -/
def State.restartsRecent (s : State) : List Nat := s.dev.restarts.filter fun t => decide ((s.cellar.count + 2 ^ 48 - t) % 2 ^ 48 < hourTicks)

/-- STOP_AUTO_RESTART: RISE, unless STOPMAX restarts fell within the hour (R498). -/
def State.stopRestart (s : State) : State :=
  if s.mode ≠ .safe ∨ s.seqPhase ≠ 4 ∨ !s.dev.stopLatched ∨ !s.on DEV_CFG_STOPAUTO ∨ s.therm.shut ≠ 0 then s
  else
    let recent := s.restartsRecent
    if s.get DEV_CFG_STOPMAX ≤ recent.length then
      { s.err PG_DEV DEV_ERR_STOPMAX with dev.restarts := recent, dev.stopLatched := false }.put DEV_MODE_STOPCNT recent.length
    else
      let s1 : State := { s.clearStopCauses with dev.restarts := s.cellar.count :: recent }
      ((s1.put DEV_MODE_STOPCNT (recent.length + 1)).raise PG_DEV DEV_ST_STOPAUTO).riseAgain 13 9

/-- THERMAL_RELEASE: every shutdown comparator has held released for 10 ms (R352). -/
def State.thermRelease (s : State) : State :=
  if s.mode = .safe ∧ s.seqPhase = 4 ∧ s.dev.bias ≠ .none then ((s.thermCool.raise PG_THERM THERM_ST_COOLED).riseAgain 13 9) else s.thermCool

/-! ### Requests (R486, R497, R499) -/

/-- The outcome of a request; a refused one sets MODEREJ, an ignored one (0x10) does not (Table 2). -/
def State.modeRes (s : State) (code : Nat) : State :=
  let s1 := s.put DEV_MODERES_CODE code
  if code = 1 ∨ code = 0x10 then s1 else s1.raise PG_DEV DEV_ST_MODEREJ

/-- The requests Table 1 allows from a mode. -/
def opAllowed (m : Mode) (op : Nat) : Bool :=
  match m, op with
  | .run, 2 | .run, 3 | .run, 4 => true
  | .ride, 2 => true
  | .service, 1 | .service, 2 | .service, 4 => true
  | .safe, 1 | .safe, 3 | .safe, 4 => true
  | _, _ => false

/-- A request for RUN from SERVICE, or from SAFE with no image lit (R494; DEDUCED, log entry 199): the preload and the frame boundary follow. -/
def State.runFromService (s : State) (bad : Nat → Bool) : State :=
  let r := s.imageForRun bad
  match r.1 with
  | some k => { r.2.modeRes 1 with lamp.relightBank := k, lamp.coldStage := 3 }
  | none => r.2.modeRes 0x13

/-- A write of MODEREQ (R486, Table 2); `bad` tells the banks with an uncorrectable attic read.  A relight that loads in SERVICE keeps a
request for RUN out (log entry 27). -/
def State.modeReq (s : State) (key op : Nat) (bad : Nat → Bool) : State :=
  if key ≠ 0x3D0E ∨ op = 0 ∨ 5 < op then s.modeRes 0x10
  else if op = 5 then (if s.mode = .cellar ∨ s.mode = .fall then s.modeRes 0x11 else (s.modeRes 1).enterFall)
  else if !opAllowed s.mode op then s.modeRes 0x11
  else if s.mode = .safe ∧ (op = 1 ∨ op = 3 ∨ op = 4) ∧ s.on FAULT_HOLDS_FULL then s.modeRes 0x12
  else if op = 1 ∧ s.litBank = 0 ∧ s.get LAMP_STATE_LOADED = 0 ∧ s.bankState 1 ≠ 2 ∧ s.bankState 2 ≠ 2 then s.modeRes 0x13
  else if s.mode = .safe ∧ (op = 1 ∨ op = 3) ∧ s.seqPhase ≠ 2 then s.modeRes 0x14
  else
    match op with
    | 1 =>
      if s.mode = .safe ∧ s.litBank ≠ 0 then (s.modeRes 1).enterRun
      else if s.lamp.coldStage ≠ 0 then s.modeRes 0x11
      else s.runFromService bad
    | 2 => (s.modeRes 1).enterSafe 8
    | 3 => if s.mode = .run then { s.modeRes 1 with dev.servicePend := true } else (s.modeRes 1).enterService 9
    | _ => (s.modeRes 1).enterHibernate

/-- A write of POWERCYCLE: an off request that arms an on request (R499). -/
def State.powerCycle (s : State) (v : Nat) : State :=
  if v / 0x10000 ≠ 0xC1C1 then s else { s with dev.armedOff := some (max (v % 0x10000) (s.get SEQ_OFFMIN_T_OFF_MIN)) }.offRequest

end Sys2Proof.Machine
end

