-- ==== Sys2Proof/WellFormed.lean ====
section
/-! DEFINITION. Well-formed commands: the operands whose ranges their types leave open. -/

namespace Sys2Proof

/-- The operands of a slot that the built-in schedule issues lie in the fields of Table 5 of R94. -/
def opOk : SlotOp → Bool
  | .nop | .tableEnd => true
  | .wait n => decide (n < 2 ^ 16)
  | .modejump t => decide (t < 8)
  | .rdv role point ndep => decide (role < 4) && decide (point < 64) && decide (ndep < 16)
  | .trigger bank seq => decide (bank < 4) && decide (seq < 4)
  | .comp unit _ => decide (unit < 64)
  | .pwmload out field _ v => decide (out < 64) && decide (field < 4) && decide (v < 2 ^ 24)
  | .check addr lsb width _ _ line lo hi =>
    decide (addr < 2 ^ 24) && decide (lsb < 32) && decide (0 < width) && decide (width ≤ 32) && decide (line < 16) && decide (lo < 2 ^ 32) && decide (hi < 2 ^ 32)
  | .move dst _ mask data => decide (dst < 2 ^ 24) && decide (mask < 2 ^ 32) && decide (data < 2 ^ 32)
  | .linktx target template node => decide (target < 32) && decide (template < 32) && decide (node < 64)
  | .estupd string first count pass => decide (string < 16) && decide (first < 1024) && decide (0 < count) && decide (count ≤ 1024) && decide (pass < 4)
  | .rank string modules => decide (string < 16) && decide (modules < 64)
  | .dispatch step => decide (step < 4)
  | .select string module => decide (string < 16) && decide (module < 64)

/-- The tables of a lane that the built-in schedule fills (R73, Table 8; ADCC SEQ1 of every round is R125's). -/
def romTable (lane level : Nat) : Bool :=
  match lane, level with
  | 0, 0 | 0, 1 | 1, 0 | 1, 1 | 1, 2 | 2, 1 | 3, 1 | 3, 2 | 4, 0 | 4, 1 | 5, 1 | 5, 2 => true
  | _, _ => false

/-- What the built-in schedule holds in a lane's table (Table 8, R125, R176): the SVC converter's update, the triggers of ADCC and ADCD, the READ
of node 0's current by template 31, the regulation updates of RAIL, and what orders the slots.  Its other work has no opcode. -/
def romAllows (lane level : Nat) (op : SlotOp) : Bool :=
  romTable lane level &&
    match op with
    | .nop | .tableEnd | .rdv _ _ _ => true
    | .wait _ => decide (0 < level)
    | .comp unit _ => decide (level = 0) && ((decide (lane = 0) && decide (unit = 17)) || (decide (lane = 4) && decide (32 ≤ unit) && decide (unit ≤ 38)))
    | .trigger bank seq =>
      decide (lane = 1) && ((decide (bank = 2) && decide (seq = level) && decide (level < 2)) || (decide (bank = 3) && decide (level = 2)))
    | .linktx target template node => decide (lane = 2) && decide (target < 16) && decide (template = 31) && (decide (node = 0) || decide (node = 0x3F))
    | _ => false

/-- A slot's place lies in the largest partition (R49), and a built-in slot is one that its table holds, with its operands in range. -/
def slotOk (x : Slot) : Bool :=
  decide (x.word < 3072) && (match x.rom with | some op => opOk op && romAllows x.lane.val x.level.val op | none => true)

/-- A ring frame's header fields fit their places, and its payload has at most 64 words (R459, Tables 3 and 4). -/
def ringFrameOk (f : RingFrame) : Bool :=
  decide (f.typ < 16) && decide (f.hops < 1024) && decide (f.src < 512) && decide (f.dst < 512) && decide (f.tag < 256) && decide (f.rcount < 256) &&
    decide (f.outcome < 128) && decide (f.addr < 2 ^ 24) && decide (f.payload.length ≤ 64) && f.payload.all fun w => decide (w < 2 ^ 32)

/-- A list of at most seven data objects (R438). -/
def objectsOk (l : List Nat) : Bool := decide (l.length ≤ 7) && l.all fun w => decide (w < 2 ^ 32)

/-- A message's data objects are one to seven words. -/
def pdMsgOk : PdMsg → Bool
  | .sourceCaps l | .sinkCaps l | .vdm l => decide (0 < l.length) && objectsOk l
  | .request r => decide (r < 2 ^ 32)
  | _ => true

/-- A well-formed command: every operand whose type leaves its range open lies within it. -/
def Instr.wellFormed : Instr → Bool
  | .startUpCalibrationDone a b c d => a.length == 5 && b.length == 5 && c.length == 5 && d.length == 5
  | .slotNop x => slotOk x
  | .slotEnd x => slotOk x
  | .slotWait x => slotOk x
  | .modejump x => slotOk x
  | .rdvGive x => slotOk x
  | .rdvTake x => slotOk x
  | .trigger x => slotOk x
  | .comp x => slotOk x
  | .pwmload x => slotOk x
  | .check x => slotOk x
  | .move x => slotOk x
  | .linktx x => slotOk x
  | .linktxRing x => slotOk x
  | .estupd x => slotOk x
  | .estupdDemod x => slotOk x
  | .rank x => slotOk x
  | .dispatchRoundStep x => slotOk x
  | .dispatchFrameStep x => slotOk x
  | .select x => slotOk x
  | .slotResourceFree x _ _ => slotOk x
  | .slotBudgetExpire x => slotOk x
  | .tableCut x => slotOk x
  | .pdSourceCapsRx caps _ => 0 < caps.length && caps.length ≤ 7
  | .pdVdmRx words _ => 0 < words.length && words.length ≤ 7
  | .lanternCommand words _ => 0 < words.length && words.length ≤ 7
  | .ringFrameRx _ f _ _ _ _ => ringFrameOk f
  | .pdMessageRx x _ => pdMsgOk x
  | _ => true

end Sys2Proof
end

