-- ==== Sys2Proof/Machine/Lamp.lean ====
section
/-! DEFINITION. The lamplighter: overruns and slots not issued (R58, R72), rendezvous (R60 to R62), lockstep (R71), the cycle marker with
its class switch (R50, R64), MODEJUMP (R65, R66, R282), frame numbers and alignment (R68, R69), relights (R75 to R79), budget access. -/

namespace Sys2Proof.Machine

/-! ### Lanes -/

/-- Lane `n` beside its registers. -/
def State.lane (s : State) (n : Fin 6) : LaneS := s.lamp.lanes[n]

/-- The state with a lane's fields. -/
def State.setLane (s : State) (n : Fin 6) (x : LaneS) : State := { s with lamp.lanes := s.lamp.lanes.set n x }

/-- A lane becomes poisoned for the rest of the cycle (R59). -/
def State.poison (s : State) (n : Fin 6) : State := s.setLane n { s.lane n with poison := true }

/-- The run of a table level. -/
def LaneS.run (x : LaneS) (level : Fin 3) : TableRun :=
  match level with
  | 0 => x.cycleRun
  | 1 => x.roundRun
  | 2 => x.frameRun

/-- The lane with a level's run replaced. -/
def LaneS.setRun (x : LaneS) (level : Fin 3) (r : TableRun) : LaneS :=
  match level with
  | 0 => { x with cycleRun := r }
  | 1 => { x with roundRun := r }
  | 2 => { x with frameRun := r }

/-- A run that is abandoned; that it started stands (R55, R64, R71). -/
def TableRun.abandoned (r : TableRun) : TableRun := { r with phase := .idle, next := 0, skip := 0 }

/-- A lane whose runs are all abandoned. -/
def LaneS.abandoned (x : LaneS) : LaneS :=
  { x with cycleRun := x.cycleRun.abandoned, roundRun := x.roundRun.abandoned, frameRun := x.frameRun.abandoned }

/-- A run at its lane's marker: a WAIT has one cycle less; a slot that has not come due is behind its time (R55). -/
def TableRun.marked (r : TableRun) : TableRun :=
  match r.phase with
  | .waiting k => { r with phase := .waiting (k - 1) }
  | .issuing => { r with phase := .behind }
  | _ => r

/-- Whether a lane is stopped (R71). -/
def State.laneHalted (s : State) (n : Fin 6) : Bool := bitOf (s.get LAMP_STATE_HALTED) n.val

/-- Whether a lane runs tables: in the class in force, not stopped by lockstep; in HIBERNATE the RAIL and GUARD lanes only (R63, R71). -/
def State.laneRuns (s : State) (n : Fin 6) : Bool :=
  let c := s.get LAMP_STATE_CLASS
  decide (c < 5) && !s.laneHalted n && (c != 4 || decide (4 ≤ n.val))

/-- Whether the class in force has a table of a lane: the lit image's directory, or the built-in schedule, tells (R53, R63, R73). -/
def State.tableOpen (s : State) (n : Fin 6) (level : Fin 3) : Bool :=
  if s.litBank = 0 then romTable n.val level.val else (s.litTable n.val (s.get LAMP_STATE_CLASS) level.val).2 != 0

/-- Whether the cycle in progress is one in which a table of a lane starts (R53, Table 2).  The built-in schedule's own C_RND, R_FRM and C_FRM are
taken as 0 (DESIGN CHOICE, log entry 150). -/
def State.designated (s : State) (n : Fin 6) (level : Fin 3) : Bool :=
  let d := if s.litBank = 0 then 0 else s.slotWord n.val (s.get (LAMP_BASE_FIRST.el n.val))
  let c := s.get LAMP_POSITION_CYCLE
  match level with
  | 0 => true
  | 1 => c == bitsOf d 0 8
  | 2 => c == bitsOf d 16 8 && s.get LAMP_POSITION_ROUND == bitsOf d 32 12

/-- A lane's tables start in the cycle that begins: the cycle table, the round table in its C_RND and the frame table in its R_FRM and C_FRM where
no run of it has started in the round or frame (R53, R55). -/
def State.laneStart (s : State) (n : Fin 6) : State :=
  let x := s.lane n
  let go := fun (y : LaneS) (level : Fin 3) =>
    if s.tableOpen n level && s.designated n level && (level == 0 || !(x.run level).ran) then y.setRun level ⟨.issuing, 0, 0, true⟩ else y
  if s.laneRuns n then s.setLane n (go (go (go x 0) 1) 2) else s

/-- The lane that gives a point in the lit image; 0 when none does (R60). -/
def State.giverOf (s : State) (p : Nat) : Nat := ((s.lamp.givers.find? fun e => e.1 == p).map (·.2)).getD 0

/-! ### Faults of the schedule -/

/-- An overrun or a table cut (R58, Table 3). -/
def State.overrun (s : State) (n : Fin 6) (level : Fin 3) (word opcode : Nat) (inj : Bool) : State :=
  let s1 :=
    if s.on LAMP_OVR_INFO_VALID then s
    else s.wr (PG_LAMP * 0x400 + 0x058)
      (BitVec.ofNat 32 (opcode * 0x1000000 + word % 4096 * 0x1000 + s.get LAMP_STATE_CLASS * 256 + level.val * 16 + 8 + n.val))
  let s2 := s1.put LAMP_COUNTS_OVR (satInc 4095 (s1.get LAMP_COUNTS_OVR))
  ((s2.errI PG_LAMP LAMP_ERR_OVERRUN inj).raise PG_LAMP LAMP_ST_OVERRUN).poison n

/-- A slot is not issued for a cause of Table 7 (R72). -/
def State.notIssued (s : State) (n : Fin 6) (word opcode cause : Nat) (inj : Bool) : State :=
  let s1 :=
    if s.on LAMP_DEC_INFO_VALID then s
    else s.wr (PG_LAMP * 0x400 + 0x064) (BitVec.ofNat 32 (0x8000000 + cause * 0x1000000 + opcode * 0x10000 + word % 4096 * 16 + n.val))
  ((s1.errI PG_LAMP LAMP_ERR_DECODE inj).raise PG_LAMP LAMP_ST_DECODE).poison n

/-! ### Rendezvous (R60 to R62) -/

/-- The 2-bit stamp of the cycle in progress. -/
def State.cycleStamp (s : State) : Nat := s.lamp.cycleCount % 4

/-- A token is posted; one that comes after the test in its cycle is discarded (Table 4). -/
def State.postToken (s : State) (n : Fin 6) (p : Nat) (void : Bool) : State :=
  let s1 : State := { s with lamp.posted := p :: s.lamp.posted }
  if s.lamp.tested.contains p then s1
  else { s1 with lamp.tokens := ⟨p, s.cycleStamp, void, n.val⟩ :: s1.lamp.tokens.filter (·.point != p) }

/-- A giver's RDV slot: a second token of a cycle is cause 5 (R60, R62, R72). -/
def State.rdvGive (s : State) (n : Fin 6) (word p : Nat) : State :=
  if s.lamp.posted.contains p then s.notIssued n word 0x04 5 false else s.postToken n p (s.lane n).poison

/-- The guarded slots of a level are left out and the taker is poisoned. -/
def State.guardOut (s : State) (n : Fin 6) (level : Fin 3) (ndep : Nat) : State :=
  let x := s.lane n
  (s.setLane n (x.setRun level { x.run level with skip := ndep })).poison n

/-- A taker's RDV slot (R62, Table 4). -/
def State.rdvTake (s : State) (n : Fin 6) (level : Fin 3) (p ndep : Nat) : State :=
  let inj := s.injOn PG_LAMP 9
  let s1 := s.injTake PG_LAMP 9
  let tok := s.lamp.tokens.find? (·.point == p)
  let s2 : State := { s1 with lamp.tokens := s1.lamp.tokens.filter (·.point != p), lamp.tested := p :: s1.lamp.tested }
  let fault := fun (kind giver : Nat) (inj : Bool) =>
    let s3 :=
      if s2.on LAMP_RDV_INFO_VALID then s2
      else s2.wr (PG_LAMP * 0x400 + 0x05C) (BitVec.ofNat 32 (0x4000 + kind * 0x1000 + n.val * 512 + giver * 64 + p % 64))
    let s4 := s3.put LAMP_COUNTS_RDV (satInc 4095 (s3.get LAMP_COUNTS_RDV))
    ((s4.errI PG_LAMP LAMP_ERR_RDV inj).raise PG_LAMP LAMP_ST_RDV).guardOut n level ndep
  match tok with
  | none => fault 0 (s.giverOf p) false
  | some t =>
    if inj then fault 0 t.giver true
    else if t.stamp ≠ s.cycleStamp then fault 1 t.giver false
    else if t.void then s2.guardOut n level ndep
    else s2

/-! ### Lockstep (R71) -/

/-- The two copies of a lane disagree. -/
def State.lockstep (s : State) (n : Fin 6) : State :=
  if s.laneHalted n ∨ s.get LAMP_STATE_CLASS = 7 then s
  else
    let inj := s.injOn PG_LAMP (1 + n.val)
    let s0 := s.injTake PG_LAMP (1 + n.val)
    let s1 := s0.put LAMP_STATE_HALTED (putBit (s0.get LAMP_STATE_HALTED) n.val true)
    let s2 := s1.put LAMP_LOCK_INFO_LANES (putBit (s1.get LAMP_LOCK_INFO_LANES) n.val true)
    let s3 := s2.put LAMP_COUNTS_LOCK (satInc 127 (s2.get LAMP_COUNTS_LOCK))
    let s4 := (s3.errI PG_LAMP LAMP_ERR_LOCKSTEP inj).level PG_LAMP LAMP_ST_LOCKSTEP true
    let s5 := s4.setLane n (s4.lane n).abandoned
    (s5.lanePoints n.val (if s5.litBank = 0 then [] else [s5.get LAMP_STATE_CLASS])).foldl (fun (t : State) (p : Nat) => if t.lamp.posted.contains p then t else t.postToken n p true) s5

/-! ### Markers and class switches (R50 to R52, R64) -/

/-- A lane at its marker: poison ends, the cycle's run ends, a WAIT has one cycle less, a stopped lane starts again. -/
def State.laneMarker (s : State) (n : Fin 6) : State :=
  let x := s.lane n
  let s1 := s.setLane n { poison := false, clock := none, cycleRun := runIdle, roundRun := x.roundRun.marked, frameRun := x.frameRun.marked }
  let s2 := s1.put LAMP_STATE_HALTED (putBit (s1.get LAMP_STATE_HALTED) n.val false)
  if s2.get LAMP_STATE_HALTED = 0 then s2.level PG_LAMP LAMP_ST_LOCKSTEP false else s2

/-- The runs in progress are abandoned. -/
def State.abandonRuns (s : State) : State := { s with lamp.lanes := s.lamp.lanes.map LaneS.abandoned }

/-- A round begins: a round table's run may start in it, and one still going at the end of the last round is over (R55, Table 7a). -/
def State.freshRounds (s : State) : State := { s with lamp.lanes := s.lamp.lanes.map fun x => { x with roundRun := runIdle } }

/-- A frame begins, or with `ran` one that is not whole, in which no frame table runs (R55, R80). -/
def State.freshFrames (s : State) (ran : Bool) : State :=
  { s with lamp.lanes := s.lamp.lanes.map fun x => { x with frameRun := { runIdle with ran := ran } } }

/-- Every lane switches to the class of the mode in force, and the blocks follow it (R64, R241, R286, R291).  SERVICE runs the built-in schedule,
which is lit here (R73), and so does a cold relight that has left the lit image for it (R78).  Lanes that start after RISE run no frame table
in a frame that is not whole (R80). -/
def State.classSwitch (s : State) : State :=
  let old := s.get LAMP_STATE_CLASS
  let new := s.mode.cls
  let s0 : State := { s with lamp.switchPending := false, lamp.rideJump := false }
  let s1 := if (s.mode = .service ∨ s.lamp.coldStage = 2) ∧ s.litBank ≠ 0 then s0.lightBuiltin else s0
  if new = old then s1
  else
    let s2 := ((s1.abandonRuns).put LAMP_STATE_CLASS new).raise PG_LAMP LAMP_ST_VARIANT
    let s3 := if new = 1 then s2.rideEntered else if new = 0 then (if old = 1 then s2.rideLeft else s2.runEntered) else s2
    let s4 := if old = 7 ∧ s.get LAMP_POSITION_ROUND ≠ 0 then s3.freshFrames true else s3
    s4.balClass

/-- The lanes' part of a marker that reaches the lanes of `l`: they switch class where a switch is due, then their tables start.  `settled` says
that the marker comes at least 1 µs after the latest mode change.  Lanes that do not run start only at a round boundary (R80). -/
def State.lampMarker (s : State) (l : List (Fin 6)) (settled : Bool) : State :=
  let s1 := l.foldl (fun (t : State) (n : Fin 6) => t.laneMarker n) s
  let s2 := if s1.lamp.switchPending && settled && (s1.get LAMP_STATE_CLASS != 7 || s1.lamp.atRound) then s1.classSwitch else s1
  l.foldl (fun (t : State) (n : Fin 6) => t.laneStart n) s2

/-- A cycle marker counts and places its cycle in the round (R50, R14). -/
def State.cyclePosition (s : State) : State :=
  let s1 : State := { s with lamp.cycleCount := s.lamp.cycleCount + 1, lamp.posted := [], lamp.tested := [] }
  if s.lamp.atRound then s1 else s1.put LAMP_POSITION_CYCLE ((s.get LAMP_POSITION_CYCLE + 1) % 256)

/-- A round boundary places its round in the frame (R14); a frame boundary just before it has placed it already. -/
def State.roundPosition (s : State) : State :=
  let r := if s.lamp.newFrame then s.get LAMP_POSITION_ROUND else (s.get LAMP_POSITION_ROUND + 1) % 4096
  { ((s.put LAMP_POSITION_ROUND r).put LAMP_POSITION_CYCLE 0).freshRounds with lamp.newFrame := false, lamp.atRound := true }

/-- A marker that a lane makes itself with the PLL stopped counts its cycle; the place in round and frame goes on by N_CYC and T_FRAME, since no
round boundary comes (R14, R52; DESIGN CHOICE, log entry 151). -/
def State.ownPosition (s : State) : State :=
  let s1 := s.cyclePosition
  if s1.get LAMP_POSITION_CYCLE < s1.nCyc then s1
  else
    let r := s1.get LAMP_POSITION_ROUND + 1
    let s2 := ((s1.put LAMP_POSITION_CYCLE 0).put LAMP_POSITION_ROUND (r % s1.tFrame)).freshRounds
    if r < s1.tFrame then s2 else s2.freshFrames false

/-! ### MODEJUMP (R65, R66, R282) -/

/-- A MODEJUMP that reaches GUARD in an allowed mode: TARGET 3 RUN, 4 RIDE. -/
def State.modeJump (s : State) (target : Nat) : State :=
  if target = 4 then
    (if s.mode = .run ∧ s.on PACK_STATE_LOSS then { s.setMode .ride 7 with lamp.rideJump := true } else s)
  else if target = 3 then
    (if s.mode = .ride ∧ s.on PACK_STATE_RETOK ∧ !s.lamp.rideJump then s.setMode .run 7 else s)
  else s

/-! ### Frames (R68, R69) -/

/-- Rounding to nearest with ties away from zero, of a quotient of integers. -/
def State.alignRounds (s : State) (delta : Int) : Int × Int :=
  let r := roundDiv delta 1000000
  (r, roundDiv (delta - r * 1000000) ((s.tCyc * 1000 : Nat) : Int))

/-- The alignment of a frame is applied (R69): ALIGN, STATUS.ALIGNED; runs still going at the moved end are abandoned (Table 7a). -/
def State.applyAlign (s : State) (delta : Int) : State :=
  let res := s.alignRounds delta
  let r := res.1
  let c := res.2
  let s1 := ((s.putI LAMP_ALIGN_ROUNDS r).putI LAMP_ALIGN_CYCLES c).put LAMP_ALIGN_DONE 1
  { (s1.raise PG_LAMP LAMP_ST_ALIGNED).abandonRuns with lamp.align := none }

/-- A frame begins: its alignment, its index in the epoch and its number.  Where a return to RUN waits, the boundary is one of the image to be
lit, which need not be one of the built-in schedule (R15, R78): only the place in the epoch goes on. -/
def State.frameBegin (s : State) (e : Nat) (newEpoch : Bool) : State :=
  if (s.mode = .service ∨ s.mode = .safe) ∧ s.lamp.coldStage = 4 then
    { (s.regrid (if newEpoch then 0 else (s.gridMs + 1) % 1000)).freshFrames false with lamp.newFrame := true }
  else
  let s1 := match s.lamp.align with | some d => s.applyAlign d | none => s
  let i := if newEpoch then 0 else s.lamp.index + 1
  let s2 : State := { s1 with lamp.index := i, lamp.frameE := e, lamp.newFrame := true }
  (((s2.put LAMP_FRAME_NUMBER (s2.frameNumber e i)).put LAMP_POSITION_ROUND 0).put LAMP_POSITION_CYCLE 0).freshFrames false

/-! ### Relights (R75 to R79) -/

/-- A request that is refused (Table 9); one that is only ignored sets no status. -/
def State.relightRefuse (s : State) (code : Nat) : State :=
  let s1 := (s.put LAMP_RELIGHT_RES_CODE code).put LAMP_RELIGHT_RES_CHECK 0
  if code = 0x10 then s1 else s1.raise PG_LAMP LAMP_ST_RELIGHT_FAIL

/-- A write of RELIGHT (R75, R76).  In SERVICE the load begins at once.  A return to RUN that MODEREQ has begun counts as a relight awaiting
its switch, so that it refuses a new one (DESIGN CHOICE, log entry 152: Table 9 speaks of a relight only). -/
def State.relightCmd (s : State) (v : Nat) : State :=
  let bank := v % 4
  if v / 0x10000 ≠ 0x5A17 then s.relightRefuse 0x10
  else if s.mode ≠ .run ∧ s.mode ≠ .service then s.relightRefuse 0x11
  else if bank ≠ 0 ∧ bank = s.litBank ∧ !s.on LAMP_STATE_BANKSTALE then s.relightRefuse 0x12
  else if bank = 0 ∨ bank = 3 ∨ s.bankState bank ≠ 2 then s.relightRefuse 0x13
  else if s.get LAMP_STATE_RELIGHT ≠ 0 ∨ s.lamp.coldStage ≠ 0 then s.relightRefuse 0x14
  else
    let warm := s.warmOk bank && !bitOf v 4
    let s1 : State := { (s.put LAMP_STATE_RELIGHT 1).put LAMP_RELIGHT_RES_KIND (b2n (!warm)) with lamp.relightBank := bank, lamp.relightCold := !warm }
    if warm then s1.placeImage bank ((s.warmPlace bank).getD [])
    else if s.mode = .run then { s1 with lamp.coldStage := 1, lamp.autoRun := true, lamp.prevBank := s.litBank }
    else { (s1.put LAMP_STATE_LOADED 0).put LAMP_STATE_RELIGHT 2 with lamp.coldStage := 2, lamp.autoRun := false }

/-- Whether the copy of a warm relight still equals the image (R77, R81). -/
def State.copyEqual (s : State) (bank : Nat) : Bool :=
  (List.range 6).all fun n =>
    let p := (s.lamp.place[n]?).getD (0, 0)
    s.bytes (bankAddr bank + s.iOfs (bankAddr bank) n) (8 * p.2) == s.bytes (0x180000 + 8 * (laneBase n + p.1)) (8 * p.2)

/-- WARM_RELIGHT_COPY_DONE: copy and checks complete (R77, R79). -/
def State.warmDone (s : State) (readBad : Bool) : State :=
  if s.get LAMP_STATE_RELIGHT ≠ 1 ∨ s.lamp.relightCold then s
  else
    let same := s.copyEqual s.lamp.relightBank
    let res := s.checkImage (bankAddr s.lamp.relightBank) readBad
    let c := res.1
    let s1 := res.2
    let code := if c = 0 then (if same then 0 else 5) else if same then c else min c 5
    if code = 0 then s1.put LAMP_STATE_RELIGHT 3 else s1.relightFail 0x20 code

/-- COLD_RELIGHT_LOAD_DONE: load and checks in SERVICE, under the built-in schedule, complete (R78, R79). -/
def State.coldDone (s : State) (bad : Nat → Bool) : State :=
  if s.lamp.coldStage ≠ 2 ∨ s.litBank ≠ 0 then s
  else
    let bank := s.lamp.relightBank
    let res := s.checkImage (bankAddr bank) (bad bank)
    let c := res.1
    let s1 := res.2
    if c = 0 then
      let s2 := s1.loadImage bank
      if s.lamp.autoRun then { s2.put LAMP_STATE_RELIGHT 3 with lamp.coldStage := 3 }
      else ((((s2.holdImage).put LAMP_STATE_RELIGHT 0).put LAMP_RELIGHT_RES_CODE 2).put LAMP_RELIGHT_RES_CHECK 0).raise PG_LAMP LAMP_ST_RELIGHT_DONE
    else if !s.lamp.autoRun ∨ s.lamp.prevBank = 0 then s1.relightFail 0x21 c
    else
      let prev := s.lamp.prevBank
      let res := s1.checkImage (bankAddr prev) (bad prev)
      let p := res.1
      let s2 := res.2
      if p = 0 then
        { ((s2.loadImage prev).relightFail 0x20 c) with lamp.relightBank := prev, lamp.coldStage := 3, lamp.autoRun := false }
      else s2.relightFail 0x21 c

/-- A relight's image is lit. -/
def State.relit (s : State) (bank : Nat) : State :=
  let s1 := ((s.lightImage bank).put LAMP_STATE_RELIGHT 0).put LAMP_RELIGHT_RES_CODE 1
  (s1.put LAMP_RELIGHT_RES_CHECK 0).raise PG_LAMP LAMP_ST_RELIGHT_DONE

/-- T_FRAME in ms of a TIMING value. -/
def timingFrame (v : Nat) : Nat := tframeRounds (v / 65536 % 8)

/-- Relights, entries to SERVICE and returns to RUN that wait for a frame boundary (R77, R78, R494). -/
def State.frameRelight (s : State) : State :=
  if s.mode = .run ∧ s.get LAMP_STATE_RELIGHT = 3 ∧ !s.lamp.relightCold then
    let t := timingFrame s.lamp.heldTiming
    if (s.frame * s.tFrame) % t = 0 then { s.relit s.lamp.relightBank with lamp.relightBank := 0 }.abandonRuns else s
  else if s.mode = .run ∧ (s.lamp.coldStage = 1 ∨ s.dev.servicePend) then s.enterService 9
  else if (s.mode = .service ∨ s.mode = .safe) ∧ s.lamp.coldStage = 4 then
    let bank := s.lamp.relightBank
    let s1 := if s.lamp.autoRun then s.relit bank else s.lightImage bank
    { s1 with lamp.coldStage := 0, lamp.autoRun := false, lamp.relightBank := 0 }.enterRun
  else s

/-! ### Schedule store and budget memory (R56, R81) -/

/-- A master wrote a word of the schedule store: one of the lit image modifies it (R81). -/
def State.storeEdited (s : State) (a : Nat) : State :=
  let w := (a - 0x180000) / 8
  let lane := ((List.range 6).filter fun n => laneBase n ≤ w).length - 1
  let first := laneBase lane + s.get (LAMP_BASE_FIRST.el lane)
  if s.litBank ≠ 0 ∧ first ≤ w ∧ w < first + nth s.lamp.litLen lane then
    (s.put LAMP_STATE_MODIFIED 1).level PG_LAMP LAMP_ST_MODIFIED true
  else s

/-- BUDGET_ADDR counts after an access of BUDGET_DATA (Table 30). -/
def State.budgetNext (s : State) : State :=
  if s.on LAMP_BUDGET_ADDR_AINC then s.put LAMP_BUDGET_ADDR_WORD ((s.get LAMP_BUDGET_ADDR_WORD + 1) % 0x4000) else s

/-- BUDGET_DATA is read. -/
def State.budgetRead (s : State) : Nat × State :=
  let w := s.get LAMP_BUDGET_ADDR_WORD
  (if 12287 < w then 0 else s.budget w, s.budgetNext)

/-- BUDGET_DATA is written. -/
def State.budgetWrite (s : State) (v : Nat) : State :=
  let w := s.get LAMP_BUDGET_ADDR_WORD
  (if 12287 < w then s else s.setBudget w (v % 0x1000000)).budgetNext

end Sys2Proof.Machine
end

