-- ==== Sys2Proof/Machine/Ring.lean ====
section
/-! DEFINITION. The plant ring: ports and topology (R460 to R465), enumeration (R466, R467), plant time (R468 to R473), PILOT (R474), remote
access at the origin (R475 to R478), SNUFF (R479), summaries (R480, R481). -/

namespace Sys2Proof.Machine

/-! ### Ports and topology -/

/-- Whether RING runs: in RUN, RIDE, SAFE, SERVICE and FALL, and in RISE once the PLL has locked (R482). -/
def State.ringRuns (s : State) : Bool :=
  match s.mode with
  | .run | .ride | .safe | .service | .fall => true
  | .rise => s.dev.pll
  | _ => false

/-- Whether a port is up; `w` is true for WEST. -/
def State.portUp (s : State) (w : Bool) : Bool := s.on (if w then RING_STATE_WUP else RING_STATE_EUP)

/-- Whether a port's transmitter is quiet. -/
def State.portQuiet (s : State) (w : Bool) : Bool := s.on (if w then RING_STATE_WQUIET else RING_STATE_EQUIET)

/-- Whether the device holds a number. -/
def State.hasNum (s : State) : Bool := s.on RING_NUM_VALID

/-- The number a device holds. -/
def State.devNum (s : State) : Nat := s.get RING_NUM_DEVNUM

/-- Whether this is the head. -/
def State.isHead (s : State) : Bool := s.on RING_STATE_HEAD

/-- STATE.TOPO follows Table 5, and the head's LOCKED its enumeration (R471). -/
def State.ringSync (s : State) : State :=
  let e := s.portUp false
  let w := s.portUp true
  let t := if !s.on RING_STATE_ENUM then 0 else if !e && !w then 3 else if !e || !w || s.on RING_BRKPOS_VALID then 2 else 1
  let s1 := s.put RING_STATE_TOPO t
  if s1.isHead then s1.put RING_STATE_LOCKED (s1.get RING_STATE_ENUM) else s1

/-- An item goes out on a port. -/
def State.emit (s : State) (w : Bool) (x : RingItem) : State := { s with ring.sent := s.ring.sent ++ [(w, x)] }

/-- An ordered set of the device's own goes out on a port. -/
def State.emitSet (s : State) (w : Bool) (o b1 b2 b3 : Nat) : State := s.emit w (.oset o b1 b2 b3)

/-- B1 and B2 that name the device, as SNUFF and RFAULT carry them (Table 2, R467). -/
def State.setNum (s : State) : Nat × Nat := if s.hasNum then (s.devNum / 256, s.devNum % 256) else (2, 0)

/-- A received set's device number, 512 for a device that holds none. -/
def setOrigin (b1 b2 : Nat) : Nat := if bitOf b1 1 then 512 else b1 % 2 * 256 + b2 % 256

/-- Both ports. -/
def ports : List Bool := [false, true]

/-- The ports that a frame of the device's own goes out on: EAST in a closed ring, both that are up in a wrapped one (R462, R463). -/
def State.ownPorts (s : State) (port : Option Bool) (wrapped : Bool) : List Bool :=
  match port with
  | some p => if s.portUp p then [p] else []
  | none => if wrapped then ports.filter s.portUp else (if s.portUp false then [false] else [])

/-! ### Own frames -/

/-- The 12-bit TAG of a master's next frame. -/
def State.nextTag (s : State) (m : Nat) : Nat := m * 32 + s.ring.tagSeq % 32

/-- The header of a frame of the device's own. -/
def State.ownFrame (s : State) (typ m dst addr : Nat) (payload : List Nat) : RingFrame :=
  { typ := typ, turned := false, bc := false, hops := 1023, src := if s.hasNum then s.devNum else 0, unasg := !s.hasNum, dst := dst,
    tag := s.nextTag m, rcount := 0, claimed := false, outcome := 0, addr := addr, payload := payload }

/-- The header words of a frame (Table 3). -/
def ringHeader (f : RingFrame) : List Nat :=
  [f.typ * 2 ^ 28 + b2n f.turned * 2 ^ 27 + b2n f.bc * 2 ^ 26 + f.hops * 2 ^ 16 + f.src * 2 ^ 7 + b2n f.unasg * 2 ^ 6,
    f.dst * 2 ^ 23 + f.payload.length * 2 ^ 16 + f.tag * 2 ^ 8 + f.rcount,
    b2n f.claimed * 2 ^ 31 + f.outcome * 2 ^ 24 + f.addr]

/-- The CRC-32 of R85 over the header and payload, words most significant byte first (R459). -/
def ringCrc (f : RingFrame) : Nat := crc32 ((ringHeader f ++ f.payload).flatMap fun w => (msbBytes 4 w).map (BitVec.ofNat 8))

/-- The check of an ordered set: the CRC-8 of the host SPI frame over OTYPE to B3 (R458). -/
def setCrc (otype b1 b2 b3 : Nat) : Nat := crc8 0xFF [otype, b1, b2, b3]

/-- Whether a frame other than ENUM may be originated (R466, R467, R484). -/
def State.mayOriginate (s : State) : Bool :=
  s.ringRuns && s.hasNum && s.on RING_STATE_ENUM && !s.ring.unusable && s.enabled PG_RING && !s.dev.freset.contains PG_RING

/-- A frame joins the queue of eight; a full queue sets STATUS.QFULL and drops it (R460). -/
def State.ringQueue (s : State) (x : RingTx) : State :=
  if s.ring.txq.length < 8 then { s with ring.txq := s.ring.txq ++ [x], ring.tagSeq := (s.ring.tagSeq + 1) % 32 }
  else s.raise PG_RING RING_ST_QFULL

/-- Whether the queue has room. -/
def State.ringRoom (s : State) : Bool := decide (s.ring.txq.length < 8)

/-- The result word of a template frame (Table 9a of string links, R478). -/
def ringResult (typ tag outcome words : Nat) : Nat := typ * 0x10000000 + tag % 16 * 0x1000000 + outcome * 0x10000 + words

/-- The result of a template frame is written. -/
def State.ringReport (s : State) (dst : Option Nat) (v : Nat) : State := match dst with | some a => s.store a 4 v | none => s

/-- A frame of the device's own goes out; a READ awaits its copies, and a template WRITE is complete (R463, R478). -/
def State.ringSend (s : State) (x : RingTx) : State :=
  let l := s.ownPorts x.port (if x.frame.typ = 1 then !s.ring.closed else decide (s.get RING_STATE_TOPO = 2))
  let s1 := l.foldl (fun (t : State) (p : Bool) => t.emit p (.frame x.frame false)) s
  if x.frame.typ = 3 then
    { s1 with ring.reads := s1.ring.reads.map fun r => if r.tag = x.frame.tag then { r with copies := l.length } else r }
  else if x.frame.typ = 2 then s1.ringReport x.result (ringResult 2 x.frame.tag 0 0)
  else s1

/-! ### Remote reads at the origin (R416, R476) -/

/-- A master's copy of the remote read registers. -/
def State.rmtOf (s : State) (m : Nat) : RmtCopy := (s.ring.rmt[m]?).getD ⟨0, 0, 0, 0, []⟩

/-- The state with a master's copy. -/
def State.setRmt (s : State) (m : Nat) (c : RmtCopy) : State := { s with ring.rmt := s.ring.rmt.setIfInBounds m c }

/-- A remote read completes with an outcome of R476. -/
def State.readDone (s : State) (r : RingRead) (outcome : Nat) (words : List Nat) : State :=
  let s1 : State := { s with ring.reads := s.ring.reads.filter fun x => x.tag != r.tag }
  if r.tag / 32 = 0 then
    match r.result with
    | none => s1
    | some a =>
      let s2 := (words.foldl (fun (p : State × Nat) (w : Nat) => (p.1.store p.2 4 w, p.2 + 4)) (s1, a + 4)).1
      s2.store a 4 (ringResult 3 r.tag outcome words.length)
  else s1.setRmt (r.tag / 32) ⟨2, outcome, words.length, r.dev, words⟩

/-- T_RMTTO has passed on a read (R476). -/
def State.readTimeout (s : State) (tag : Nat) : State :=
  match s.ring.reads.find? (·.tag == tag) with
  | some r => s.readDone r 3 []
  | none => s

/-- A READ of the device's own has come back: ABSENT once no copy of it was claimed (R476). -/
def State.readBack (s : State) (f : RingFrame) : State :=
  match s.ring.reads.find? (·.tag == f.tag) with
  | none => s
  | some r =>
    let r1 := { r with copies := r.copies - 1, claimed := r.claimed || f.claimed }
    let s1 : State := { s with ring.reads := s.ring.reads.map fun x => if x.tag = r.tag then r1 else x }
    if r1.copies = 0 ∧ !r1.claimed then s1.readDone r 2 [] else s1

/-- A RESP for this device: the end of a read, or BUSY to a write (R476). -/
def State.respRx (s : State) (f : RingFrame) : State :=
  match s.ring.reads.find? (·.tag == f.tag) with
  | some r => if f.outcome = 0 then s.readDone r 0 f.payload else s.readDone r 1 []
  | none =>
    if f.outcome = 1 then
      ((s.put RING_WBUSY_COUNT (satInc 255 (s.get RING_WBUSY_COUNT))).put RING_WBUSY_DEV f.src).raise PG_RING RING_ST_WBUSY
    else s

/-- Whether a remote command may go out (R417, R462, R466). -/
def State.remoteOk (s : State) : Bool := s.mayOriginate && s.get RING_STATE_TOPO != 3 && decide (1 < s.get RING_STATE_N)

/-- Whether a remote write is sent (R417). -/
def State.postWriteOk (s : State) : Bool := s.remoteOk && s.ringRoom

/-- A remote write of a master is sent (R417). -/
def State.postWrite (s : State) (m : Nat) (dst : Option Nat) (addr : Nat) (words : List Nat) (result : Option Nat) : State :=
  s.ringQueue ⟨{ s.ownFrame 2 m (dst.getD 0) addr words with bc := dst.isNone }, none, result⟩

/-- Whether a remote read of a master is sent (R417). -/
def State.postReadOk (s : State) (m : Nat) : Bool := s.remoteOk && s.ringRoom && (m == 0 || (s.rmtOf m).state != 1)

/-- A remote read of a master is sent (R417). -/
def State.postRead (s : State) (m dst addr n : Nat) (result : Option Nat) : State :=
  let f := { s.ownFrame 3 m dst addr [] with rcount := n }
  let s1 := s.ringQueue ⟨f, none, none⟩
  let s2 : State := { s1 with ring.reads := s1.ring.reads.filter (fun x => x.tag != f.tag) ++ [⟨f.tag, dst, 0, false, result⟩] }
  if m = 0 then s2 else s2.setRmt m ⟨1, 0, 0, dst, []⟩

/-- The address a template's DST names; none discards. -/
def ringDst (v : Nat) : Option Nat := if v = 0xFFFF then none else some (0x1A0000 + 4 * v)

/-- A LINKTX with TARGET 16 whose frame goes on the ring (R478). -/
def State.ringTemplate (s : State) (k : Nat) : State :=
  let typ := s.get (RING_TPL_A_TYPE.el k)
  let len := s.get (RING_TPL_A_LEN.el k)
  let dst := s.get (RING_TPL_A_DST.el k)
  let addr := s.get (RING_TPL_B_ADDR.el k)
  let res := ringDst (s.get (RING_TPL_C_DST.el k))
  let tag := s.nextTag 0
  let refuse := s.ringReport res (ringResult typ tag 3 0)
  if 8 ≤ k then s
  else if len = 0 ∨ 64 < len then refuse
  else
    let ok := if typ = 2 then s.postWriteOk else typ == 3 && s.postReadOk 0
    let sent :=
      if typ = 2 then
        s.postWrite 0 (if s.on (RING_TPL_A_BC.el k) then none else some dst) addr
          ((List.range len).map fun i => s.load (0x1A0000 + 4 * (s.get (RING_TPL_C_PAY.el k) + i)) 4) res
      else s.postRead 0 dst addr len res
    if ok then sent.ringReport res (ringResult typ tag 0xFF 0) else refuse

/-! ### Ports going down and up (R462 to R465) -/

/-- The end of a break is stored: the device whose EAST port is down, or the one whose WEST port is (R464). -/
def State.breakAt (s : State) (west : Bool) (num : Nat) : State :=
  let s1 := (s.put (if west then RING_BRKPOS_WEST_END else RING_BRKPOS_EAST_END) num).put RING_BRKPOS_VALID 1
  ((s1.raise PG_RING RING_ST_BREAK).err PG_RING RING_ERR_BREAK).ringSync

/-- A port goes down: BREAK on the other port (R464). -/
def State.portDown (s : State) (w : Bool) : State :=
  if !s.portUp w then s
  else
    let s1 := (s.put (if w then RING_STATE_WUP else RING_STATE_EUP) 0).breakAt w (if s.hasNum then s.devNum else 0)
    if s1.mayOriginate then s1.ringQueue ⟨s1.ownFrame 7 0 0 0 [(if w then 0x10000 else 0) + s1.devNum], some (!w), none⟩ else s1

/-- A port that has been down for T_QUIET is quiet; a quiet port sends a burst of idle (R462). -/
def State.portGoesQuiet (s : State) (w : Bool) : State :=
  if s.portUp w || !s.ringRuns then s
  else if s.portQuiet w then s.emit w .burst
  else s.put (if w then RING_STATE_WQUIET else RING_STATE_EQUIET) 1

/-- A wake burst on each quiet port (R482). -/
def State.wakeBurst (s : State) : State :=
  if s.ringRuns then (ports.filter s.portQuiet).foldl (fun (t : State) (p : Bool) => t.emit p .burst) s else s

/-- A down port tells its neighbour (R462). -/
def State.rfault (s : State) (w : Bool) : State :=
  if s.ringRuns && !s.portUp w && !s.portQuiet w then s.emitSet w 3 s.setNum.1 s.setNum.2 0 else s

/-! ### Delay probes (R470) -/

/-- The probes of a port. -/
def State.probe (s : State) (w : Bool) : ProbeS := if w then s.ring.probeW else s.ring.probeE

/-- The state with a port's probes. -/
def State.setProbe (s : State) (w : Bool) (p : ProbeS) : State :=
  if w then { s with ring.probeW := p } else { s with ring.probeE := p }

/-- A DLYREQ goes out. -/
def State.probeSend (s : State) (w : Bool) : State :=
  if s.ringRuns && s.portUp w then
    let p := s.probe w
    (s.setProbe w { p with no := (p.no + 1) % 256, out := true }).emitSet w 4 0 0 p.no
  else s

/-- Sixteen probes on each port (R466, R470). -/
def State.measureDelays (s : State) : State :=
  ports.foldl (fun (t : State) (w : Bool) => (t.setProbe w { t.probe w with left := 16, sum := 0 }).probeSend w) s

/-- The link delay field of a port. -/
def linkDly (w : Bool) : Fld := if w then RING_LINKDLY_WEST else RING_LINKDLY_EAST

/-- A DLYRESP: LINKDLY_p = (RT - TURN) / 2 + ASYM_p / 2; a set of 16 sets the register to its mean, a single probe moves it by 1/16 of the
difference (R470). -/
def State.probeBack (s : State) (w : Bool) (rt turn : Nat) : State :=
  let p := s.probe w
  if !p.out then s
  else
    let d := roundDiv ((rt : Int) - turn + s.getI (if w then RING_ASYM_ASYM_W else RING_ASYM_ASYM_E)) 2
    let old : Int := s.get (linkDly w)
    let s1 := s.setProbe w { p with out := false }
    if p.left = 0 then s1.put (linkDly w) (clampI 0 65535 (old + roundDiv (d - old) 16)).toNat
    else
      let sum := p.sum + d
      let s2 := s1.setProbe w { p with out := false, left := p.left - 1, sum := sum }
      if p.left = 1 then s2.put (linkDly w) (clampI 0 65535 (roundDiv sum 16)).toNat else s2.probeSend w

/-! ### Enumeration (R466) -/

/-- Whether the head's enumeration runs. -/
def State.enumerating (s : State) : Bool := s.get DEV_LONGOP_RUN == 7

/-- SIZE: CFG.SIZE, or 512 when it is 0 or above 512. -/
def State.ringSize (s : State) : Nat := let z := s.get RING_CFG_SIZE; if z = 0 ∨ 512 < z then 512 else z

/-- Devices counted when the ring is wrapped: the east chain with the head, and the west chain. -/
def State.chainCount (s : State) : Nat := s.ring.east + (s.ringSize - 1 - s.ring.west)

/-- The outcome of the numbering (Table 6). -/
def State.ringEnumCode (s : State) : Nat :=
  let z := s.get RING_CFG_SIZE
  let n := s.ring.east
  if s.ring.closed then
    (if n = 1 then 0x13
     else if 512 < n ∨ (z ≠ 0 ∧ s.ringSize < n) then 0x11
     else if z = 0 ∨ n = s.ringSize then 0x01
     else 0x10)
  else if s.chainCount = 1 then 0x13
  else if s.ringSize < s.chainCount then 0x11
  else if s.chainCount = s.ringSize then 0x02
  else 0x10

/-- The enumeration ends with a code of Table 6 and a ring size. -/
def State.ringEnumEnd (s : State) (code n : Nat) : State :=
  let bad := code == 0x11 || code == 0x12
  let s0 : State := { s with ring.step := 0, ring.await := 0, ring.unusable := bad, ring.hold := false }
  let s1 := ((s0.put RING_ENUM_RES_CODE code).put RING_ENUM_RES_COUNT (if s.ring.closed then s.ring.east else s.chainCount)).put RING_STATE_ENUM (b2n (!bad))
  let s2 := if bad then s1 else s1.put RING_STATE_N n
  let s3 := if code = 0x10 ∨ code = 0x11 then s2.err PG_RING RING_ERR_ENUMFAIL else s2
  let s4 := if code = 0x12 then s3.err PG_RING RING_ERR_TWOHEAD else s3
  let s5 := (s4.ringSync).raise PG_RING RING_ST_ENUMDONE
  if s5.enumerating then s5.longEnd (if code = 1 ∨ code = 2 ∨ code = 0x13 then 0 else 1) else s5

/-- The ring size an enumeration announces. -/
def State.enumSize (s : State) : Nat := if s.ring.closed then s.ring.east else s.ringSize

/-- The payload of the ENUM frame of a step. -/
def State.enumPayload (s : State) (step : Nat) : List Nat :=
  match step with
  | 1 => [0, s.ringSize]
  | 2 => [0x1000000 + 1, s.ringSize]
  | 3 => [0x1000000 + 0x800000 + (s.ringSize - 1), s.ringSize]
  | 4 => [0x2000000, s.ringSize]
  | _ => [0x3000000, s.enumSize]

/-- The ports a step's frame goes out on: CLEAR on both, ASSIGN on one, the others as the topology found asks. -/
def State.enumPorts (s : State) (step : Nat) : List Bool :=
  match step with
  | 1 => ports.filter s.portUp
  | 2 => s.ownPorts (some false) false
  | 3 => s.ownPorts (some true) false
  | _ => s.ownPorts none (!s.ring.closed)

/-- The frames of a step are queued. -/
def State.enumFrames (s : State) (step : Nat) : State :=
  let l := s.enumPorts step
  let f := s.ownFrame 1 0 0 0 (s.enumPayload step)
  let s1 := l.foldl (fun (t : State) (p : Bool) => t.ringQueue ⟨{ f with tag := t.nextTag 0 }, some p, none⟩) s
  let tags := (List.range l.length).map fun i => (s.ring.tagSeq + i) % 32
  { s1 with ring.step := step, ring.await := l.length, ring.tags := s.ring.tags ++ tags }

/-- The enumeration goes on to the first step from `step` that has a port to use, or ends. -/
def State.ringEnumGo : Nat → State → Nat → State
  | 0, s, _ => s
  | k + 1, s, step =>
    let s0 : State := { s with ring.tries := 1 }
    let s1 := if step = 2 then (s0.put RING_NUM_DEVNUM 0).put RING_NUM_VALID 1 else s0
    let code := s1.ringEnumCode
    if step = 4 ∧ (code = 0x11 ∨ code = 0x13) then s1.ringEnumEnd code 1
    else if 6 ≤ step then s1.ringEnumEnd code s1.enumSize
    else
      let s2 := if step = 4 then s1.measureDelays else s1
      if (s2.enumPorts step).isEmpty then State.ringEnumGo k s2 (step + 1) else s2.enumFrames step

/-- The head waits until each port is up or quiet, then starts (R466). -/
def State.ringEnumReady (s : State) : State :=
  if s.enumerating ∧ s.ring.step = 6 ∧ (s.portUp false ∨ s.portQuiet false) ∧ (s.portUp true ∨ s.portQuiet true) then
    State.ringEnumGo 8 { s with ring.east := 1, ring.west := s.ringSize - 1, ring.closed := false } 1
  else s

/-- Enumeration begins on the head; not while a long operation runs (R47), nor while the page originates nothing (R484). -/
def State.ringEnumerate (s : State) : State :=
  if s.isHead && s.ringRuns && !s.busy && s.blockOn PG_RING then
    let s1 : State := { s.longStart 7 with ring.step := 6, ring.tags := [], ring.verify := false, ring.unusable := false }
    ((s1.put RING_STATE_ENUM 0).ringSync).ringEnumReady
  else s

/-- A frame of the enumeration has come back. -/
def State.enumBack (s : State) (w : Bool) (f : RingFrame) : State :=
  let next := nth f.payload 0 % 1024
  let op := nth f.payload 0 / 0x1000000
  let want := match s.ring.step with | 1 => 0 | 2 => 1 | 3 => 1 | 4 => 2 | _ => 3
  if s.ring.verify && op == 4 then
    let s1 : State := { s with ring.verify := false }
    if bitOf (nth f.payload 0) 22 then
      (if s1.on RING_CFG_AUTOENUM then s1.ringEnumerate else s1.raise PG_RING RING_ST_MISMATCH)
    else (s1.raise PG_RING RING_ST_HEAL).ringSync
  else if !s.enumerating || s.ring.step == 0 || s.ring.step == 6 || op != want || s.ring.await == 0 then s
  else
    let s1 : State := { s with ring.await := s.ring.await - 1 }
    if s.ring.step = 2 then
      (if w && !f.turned then State.ringEnumGo 8 { s1 with ring.closed := true, ring.east := next } 4
       else State.ringEnumGo 8 { s1 with ring.east := next } 3)
    else if s.ring.step = 3 then State.ringEnumGo 8 { s1 with ring.west := next } 4
    else if s1.ring.await = 0 then State.ringEnumGo 8 s1 (s.ring.step + 1)
    else s1

/-- A step's return window closes: the step is tried up to three times (R466). -/
def State.ringEnumTimeout (s : State) : State :=
  if !s.enumerating || s.ring.step == 0 || s.ring.step == 6 then s
  else if s.ring.tries < 3 then { s.enumFrames s.ring.step with ring.tries := s.ring.tries + 1 }
  else State.ringEnumGo 8 { s with ring.await := 0 } (s.ring.step + 1)

/-- ENUM at a member: what it takes and what it sends on (R465 to R467). -/
def State.enumRx (s : State) (f : RingFrame) : State × RingFrame :=
  let w0 := nth f.payload 0
  let next := w0 % 1024
  let put := fun (v : Nat) => { f with payload := v :: f.payload.drop 1 }
  match w0 / 0x1000000 with
  | 0 => ((({ s with ring.hold := true }.put RING_NUM_VALID 0).put RING_NUM_DEVNUM 0).put RING_STATE_ENUM 0 |>.ringSync, f)
  | 1 =>
    let s1 := if next < 512 then (s.put RING_NUM_DEVNUM next).put RING_NUM_VALID 1 else s
    let next' := if bitOf w0 23 then (next + 1023) % 1024 else (next + 1) % 1024
    (s1, put (w0 - next + next'))
  | 2 => (s.measureDelays, f)
  | 3 => ((({ s with ring.hold := false }.put RING_STATE_N (nth f.payload 1 % 1024)).put RING_STATE_ENUM 1).ringSync, f)
  | 4 =>
    let ok := s.hasNum && s.devNum == next
    let w1 := if ok then w0 else (putBit w0 22 true)
    ((s.wr RING_BRKPOS_VALID.addr 0).ringSync, put (w1 - next + (next + 1) % 1024))
  | _ => (s, f)

/-- A hop has healed (R465): the break is gone, and the head sends VERIFY eastbound, as frames travel in a closed ring. -/
def State.ringHeal (s : State) : State :=
  if s.portUp false && s.portUp true && s.ringRuns then
    let s1 := (s.wr RING_BRKPOS_VALID.addr 0).ringSync
    if s1.isHead && s1.on RING_STATE_ENUM && !s1.enumerating then
      let f := s1.ownFrame 1 0 0 0 [0x4000000 + 1, s1.ringSize]
      { s1.ringQueue ⟨f, some false, none⟩ with ring.verify := true, ring.tags := s1.ring.tags ++ [s1.ring.tagSeq] }
    else s1
  else s

/-- A port's receiver regains sync, as its check judges (R462; ERR_INJ 0x03). -/
def State.portGoesUp (s : State) (w : Bool) : State :=
  if !s.ringRuns then s
  else if !w && s.injOn PG_RING 3 then (s.injTake PG_RING 3).portDown false
  else
    let s1 := (s.put (if w then RING_STATE_WUP else RING_STATE_EUP) 1).put (if w then RING_STATE_WQUIET else RING_STATE_EQUIET) 0
    s1.ringSync.ringEnumReady

/-! ### Plant time (R468 to R473) -/

/-- STATE.LOCKED of a member becomes `b`. -/
def State.setLocked (s : State) (b : Bool) : State :=
  if s.isHead ∨ s.on RING_STATE_LOCKED = b then s
  else (s.put RING_STATE_LOCKED (b2n b)).raise PG_RING (if b then RING_ST_LOCK else RING_ST_UNLOCK)

/-- The offset of the plant frame boundary from the local one, within half a frame on either side: `theta` is the offset within the second and
`want` the epoch number taken.  The local frame began at epoch `frameE`; the plant's frames of 2 s and 4 s begin where the number that counts
them changes (R68, R69; DEDUCED, log entry 194). -/
def State.alignOffset (s : State) (want : Nat) (theta : Int) : Int :=
  let f : Int := s.tFrame * 1000000
  let r := (((s.get RING_PTIME_E_E : Int) - s.lamp.frameE - want) * 1000000000 + theta) % f
  if f < 2 * r then r - f else r

/-- The servo at an EPOCH (R471). -/
def State.servo (s : State) (theta : Int) : State :=
  let lim : Int := min (s.get RING_SERVO_STEER_MAX) 32767
  let set := fun (t : State) (v : Int) => t.putI RING_STEER_STEER (clampI (-lim) lim v)
  let n := s.on RING_STATE_NOSTEER
  let s1 : State := { s with ring.lockRun := if theta.natAbs ≤ 100 then min 8 (s.ring.lockRun + 1) else 0 }
  let s2 :=
    if ((s.tCyc * 1000 : Nat) : Int) < theta.natAbs then { s1 with ring.integ := 0 }
    else if n ∨ s.ring.hold then s1
    else if 1000 < theta.natAbs then set s1 (if 0 < theta then -(s.get RING_SERVO2_STEER_SLEW : Int) else s.get RING_SERVO2_STEER_SLEW)
    else
      let i := s1.ring.integ + theta
      set { s1 with ring.integ := i } (-(roundDiv (s.get RING_SERVO_KP * theta + s.get RING_SERVO_KI * i) 160))
  if n then s2
  else if 200 < theta.natAbs then s2.setLocked false
  else if s2.ring.lockRun = 8 then s2.setLocked true
  else s2

/-- A member takes an EPOCH: `ns` is its plant time counter at the SOF, `w` the port (R469, R471, R473).  Frames align when plant time is first
taken and where they stand more than a cycle off (R69); the epoch number of the frame in progress goes with the local one. -/
def State.epochTake (s : State) (w : Bool) (e corr n ns : Nat) : State :=
  let d := roundDiv (4 * (ns : Int) - corr - (s.get (linkDly w) : Int)) 4
  let early := decide (500000000 < d)
  let theta := if early then d - 1000000000 else d
  let want : Nat := (if early then e + 2 ^ 32 - 1 else e) % 2 ^ 32
  let old := s.get RING_PTIME_E_E
  let first := !s.on RING_STATE_TIMEVALID
  let far := decide (4 < ((want : Int) - old).natAbs)
  let off := s.alignOffset want theta
  let s0 : State :=
    { s with lamp.align := if first ∨ s.tCyc * 1000 < theta.natAbs ∨ s.tCyc * 1000 < off.natAbs then some off else s.lamp.align
             lamp.frameE := (s.lamp.frameE + want + 2 ^ 32 - old) % 2 ^ 32 }
  let s1 := (((s0.put RING_PTIME_E_E want).put RING_STATE_TIMEVALID 1).putI RING_OFFSET_THETA theta).put RING_STATE_N n
  let s2 := if want ≠ old ∧ (!first ∨ far) then (s1.raise PG_RING RING_ST_EJUMP).err PG_RING RING_ERR_EJUMP else s1
  ({ s2 with ring.took := true, ring.missed := 0 }.servo theta).raise PG_RING RING_ST_EPOCHRX

/-- The nanoseconds within the epoch that PTIME_NS reads. -/
def State.plantNs (s : State) : Nat :=
  let cyc := s.tCyc * 1000
  (s.lamp.index * s.tFrame * 1000000 + s.get LAMP_POSITION_ROUND * 1000000 + s.get LAMP_POSITION_CYCLE * cyc + Config.nsInCycle s.fresh % cyc)
    % 1000000000

/-! ### Summaries (R480, R481) -/

/-- The words of a summary (Table 10). -/
def State.summaryWords (s : State) : List Nat :=
  let strs : List (Fin 16) := (List.finRange 16).filter fun (n : Fin 16) => s.on (EST_STRCFG_EN.el n.val)
  let at2 := fun (o : Nat) => strs.map fun (n : Fin 16) => s.load (strAddr n.val + o) 2
  let lo := if strs = [] then Config.noStrings 0 % 50001 else (at2 0x4E).foldl min 65535
  let hi := if strs = [] then Config.noStrings 1 % 50001 else (at2 0x50).foldl max 0
  let mean := if strs = [] then Config.noStrings 2 % 50001 else (roundDiv ((at2 0x4C).foldl (· + ·) 0 : Nat) strs.length).toNat
  let tmax := if strs = [] then Config.noStrings 3 % 256 else strs.foldl (fun (m : Nat) (n : Fin 16) => max m (s.load (strAddr n + 0x52) 1)) 0
  [s.get RING_PTIME_E_E % 65536 * 65536 + s.devNum * 128 + s.mode.code * 16 + s.get RING_STATE_LOCKED * 8 + s.get FAULT_HOLDS_FAULTN * 4
      + b2n (decide (s.get RING_STATE_TOPO = 2)) * 2 + 1,
    (s.rd (PG_FAULT * 0x400 + 0x040)).toNat, (s.rd (PG_FAULT * 0x400 + 0x044)).toNat,
    s.get INPATH_VOLT_V_HB * 65536 + s.get DISPATCH_LOAD_P_LOAD,
    s.get DISPATCH_SOURCES_P_IN * 65536 + ofSigned 16 (clampI (-32768) 32767 (s.getI DISPATCH_CELLS_P_BAL)),
    s.get DISPATCH_SOURCES_P_PACK * 65536 + s.load (packRec + 0x22) 2,
    lo * 65536 + hi,
    mean * 65536 + s.get HEALTH_RESTREQ_REQ,
    s.get THERM_TEMP_MAX_T * 65536 + tmax * 256 + s.get FEEDS_SUMMARY_PG,
    s.get FEEDS_SUMMARY_SHED * 0x1000000 + s.get FEEDS_LEVEL_L * 0x400000 + strs.foldl (fun (m : Nat) (n : Fin 16) => m + 2 ^ n.val) 0,
    s.get FAULT_REACT_SEQ * 65536 + (s.rd (PG_IMAGE * 0x400 + 0x068)).toNat % 65536,
    s.cellar.count % 2 ^ 32] ++ (List.range 4).map fun k => s.get (RING_USER_W.el k)

/-- A summary goes into the head's table, little-endian (R481). -/
def State.summaryStore (s : State) (d : Nat) (words : List Nat) : State :=
  ((words.take 16).foldl (fun (p : State × Nat) (w : Nat) => (p.1.store p.2 4 w, p.2 + 4)) (s, 0x1AD000 + 64 * d)).1

/-- A member's slot after the boundary (R480). -/
def State.summarySend (s : State) : State :=
  match s.ring.summary with
  | some ws =>
    if !s.isHead && s.mayOriginate && s.on RING_CFG_SUMEN then
      { s.ringQueue ⟨s.ownFrame 6 0 0 0 ws, none, none⟩ with ring.summary := none }
    else s
  | none => s

/-- 900 ms after the boundary the head counts the records that are not of this epoch (R481). -/
def State.summaryDeadline (s : State) : State :=
  if s.isHead && s.ringRuns && s.on RING_STATE_ENUM && !s.enumerating && s.on RING_CFG_SUMEN then
    let e := s.get RING_PTIME_E_E % 65536
    let miss := ((List.range (s.get RING_STATE_N)).filter fun d => s.load (0x1AD000 + 64 * d + 2) 2 != e).length
    (s.put RING_COUNTS_SUMMISS (min 4095 (s.get RING_COUNTS_SUMMISS + miss))).raise PG_RING RING_ST_SUMDONE
  else s

/-- An epoch boundary (R468, R473, R480): the epoch number, what the cellar keeps, the head's EPOCH with the time `corr` to its SOF, a
member's missed EPOCHs, the summary of this boundary. -/
def State.epochBoundary (s : State) (corr : Nat) : State :=
  let old := s.get RING_PTIME_E_E
  let e := if s.ring.epset then s.get RING_EPSET_E else (old + 1) % 2 ^ 32
  let s1 : State := { s.put RING_PTIME_E_E e with ring.epset := false, ring.newEpoch := true }
  let s2 := (s1.put RING_EPLAST_E e).put RING_EPRTC_RTC (s.cellar.count / 65536 % 2 ^ 32)
  let s3 := if e ≠ (old + 1) % 2 ^ 32 then (s2.raise PG_RING RING_ST_EJUMP).err PG_RING RING_ERR_EJUMP else s2
  let miss := if s.ring.took then 0 else min 2 (s.ring.missed + 1)
  let s4 : State := { s3 with ring.took := false, ring.missed := miss }
  let s5 := if miss = 2 then s4.setLocked false else s4
  if !s5.ringRuns then s5
  else
    let s6 :=
      if s5.isHead && s5.mayOriginate && s5.on RING_CFG_EPEN && !s5.enumerating then
        s5.ringQueue ⟨s5.ownFrame 5 0 0 0 [e, corr % 2 ^ 32, s5.get RING_STATE_N], none, none⟩
      else s5
    if s6.on RING_CFG_SUMEN && s6.on RING_STATE_ENUM && !s6.enumerating then
      (if s6.isHead then s6.summaryStore 0 s6.summaryWords else { s6 with ring.summary := some s6.summaryWords })
    else s6

/-! ### PILOT, SNUFF and other ordered sets (R458, R474, R479) -/

/-- The head's PILOT (R474). -/
def State.pilotSend (s : State) : State :=
  if s.isHead && s.ringRuns then
    let e := s.get RING_PTIME_E_E
    let s1 := ports.foldl (fun (t : State) (p : Bool) => t.emitSet p 2 (e / 256 % 256) (e % 256) s.ring.pilots) s
    { s1 with ring.pilots := (s.ring.pilots + 1) % 256 }
  else s

/-- STATE.HEADLOST and its status level. -/
def State.setHeadLost (s : State) (b : Bool) : State := (s.put RING_STATE_HEADLOST (b2n b)).level PG_RING RING_ST_HEADLOST b

/-- No PILOT for 3 T_PILOT (R474). -/
def State.pilotLoss (s : State) : State :=
  if !s.isHead && s.ringRuns && !s.on RING_STATE_HEADLOST then (s.setHeadLost true).err PG_RING RING_ERR_PILOTLOSS else s

/-- One SNUFF goes out on both ports. -/
def State.snuffOut (s : State) : State :=
  ports.foldl (fun (t : State) (p : Bool) => t.emitSet p 1 s.setNum.1 s.setNum.2 s.ring.snuffSeq) s

/-- A SNUFF of the device's own: three times with one SEQ (R479). -/
def State.snuffSend (s : State) : State :=
  if s.ringRuns then ({ s with ring.snuffSeq := (s.ring.snuffSeq + 1) % 256, ring.snuffLeft := 2 }.snuffOut).raise PG_RING RING_ST_SNUFFTX else s

/-- A repeat 100 µs later. -/
def State.snuffAgain (s : State) : State :=
  if s.ringRuns && s.ring.snuffLeft != 0 then { s with ring.snuffLeft := s.ring.snuffLeft - 1 }.snuffOut else s

/-- A SNUFF received from another origin: the first copy of its SEQ sets ERR.SNUFFRX, whose line carries the origin (R479, R358). -/
def State.snuffRx (s : State) (origin seq : Nat) : State :=
  if s.ring.seen.contains (origin, seq) then s
  else
    let s1 : State := { s with ring.seen := (origin, seq) :: s.ring.seen.filter fun p => p.1 != origin }
    let s2 := s1.wr RING_SNUFFLAST_VALID.addr (BitVec.ofNat 32 (0x80000000 + seq * 65536 + origin))
    if bitOf (s2.hdr PG_RING hdrERR) RING_ERR_SNUFFRX then s2
    else
      (s2.wr (hdrAddr PG_RING hdrERR) (s2.rd (hdrAddr PG_RING hdrERR) ||| (1#32 <<< RING_ERR_SNUFFRX))).pulse
        { src := 5, inj := false, lo := 0, hi := origin }

/-- Whether a SNUFF is a copy of the device's own. -/
def State.ownSnuff (s : State) (origin seq : Nat) : Bool :=
  if s.hasNum then origin == s.devNum else origin == 512 && seq == s.ring.snuffSeq

/-- An ordered set arrives on a port with its check (Table 2, R458, R461); `rt` is the time of R470: for a DLYREQ the turnaround of the
answer, for a DLYRESP the time since the DLYREQ. -/
def State.setRx (s : State) (w : Bool) (otype b1 b2 b3 chk : Nat) (rt : Nat) : State :=
  if !s.ringRuns then s
  else
    let ok := chk == setCrc otype b1 b2 b3 && !s.injOn PG_RING 2
    let s0 := s.injTake PG_RING 2
    if !ok then s0
    else if otype = 1 then
      let o := setOrigin b1 b2
      if s0.ownSnuff o b3 then s0 else (s0.emitSet (!w) 1 b1 b2 b3).snuffRx o b3
    else if otype = 2 then
      (if s0.isHead then s0
       else
         let s1 := s0.emitSet (!w) 2 b1 b2 b3
         if s1.on RING_STATE_HEADLOST then s1.setHeadLost false else s1)
    else if otype = 3 then s0.portDown w
    else if otype = 4 then s0.emitSet w 5 (rt / 65536 % 256) (rt / 256 % 256) (rt % 256)
    else if otype = 5 then s0.probeBack w rt (b1 * 65536 + b2 * 256 + b3)
    else s0

/-! ### RISE, commands, function reset -/

/-- The PLL locks in RISE: ports start down, the head is the strapped one, a member rejoins with its number, and the local epoch
goes on from the cellar's (R467, R473); `ext` tells an external reference (R471). -/
def State.ringRise (s : State) (ext : Bool) : State :=
  let gone := (s.cellar.count + 2 ^ 48 - s.get RING_EPRTC_RTC * 65536) % 2 ^ 48 / 32768
  let e := (s.get RING_EPLAST_E + gone + 1) % 2 ^ 32
  let s1 : State := { s.wr (PG_RING * 0x400 + 0x060) 0 with ring := { ringIdle with rmt := s.ring.rmt, newEpoch := true } }
  let s2 := ((s1.put RING_STATE_HEAD (b2n s.dev.strapHead)).put RING_STATE_NOSTEER (b2n ext)).put RING_STATE_ENUM (b2n (!s.dev.strapHead && s.hasNum))
  ((s2.wr (PG_RING * 0x400 + 0x06C) 0).put RING_PTIME_E_E e).ringSync

/-- A write of RING.CMD (Table 12). -/
def State.ringCmd (s : State) (v : Nat) : State :=
  if v / 0x10000 ≠ 0x61E5 then s
  else
    match v % 16 with
    | 1 => s.ringEnumerate
    | 2 => s.snuffSend
    | 3 => s.wakeBurst
    | 4 => if s.isHead ∧ s.mode = .service then { s with ring.epset := true } else s
    | 5 => if s.ringRuns then s.measureDelays else s
    | _ => s

/-- A function reset of RING (R483): the queue is discarded and reads under way time out. -/
def State.ringFuncReset (s : State) : State :=
  let s1 : State := { s with ring.txq := [] }
  s1.ring.reads.foldl (fun (t : State) (r : RingRead) => t.readDone r 3 []) s1

end Sys2Proof.Machine
end

