-- ==== Sys2Proof/Machine/Fault.lean ====
section
/-! DEFINITION. Fault collection and the snuff line: latches, reactions and holds (R357 to R371), clock monitor (R9), pad readback (R364),
records (R358), the fault log (R374, R375). -/

namespace Sys2Proof.Machine

/-! ### Sources -/

/-- The STATUS word of a source. -/
def faultWord (k : Nat) : Nat := PG_FAULT * 0x400 + (if k < 32 then 0x040 else 0x044)

/-- Whether a source's status bit is set. -/
def State.faultSet (s : State) (k : Nat) : Bool := bitOf (s.rd (faultWord k)).toNat (k % 32)

/-- The state with a source's status bit at `b`. -/
def State.putFault (s : State) (k : Nat) (b : Bool) : State :=
  s.wr (faultWord k) (BitVec.ofNat 32 (putBit (s.rd (faultWord k)).toNat (k % 32) b))

/-- The class range of a source (Table 1). -/
def classRange (k : Nat) : Nat × Nat :=
  if k ≤ 2 then (4, 4) else if k = 3 ∨ k = 5 ∨ k = 6 then (3, 4) else if k = 4 then (3, 3) else if k = 7 then (2, 4) else (0, 4)

/-- The class field of a source. -/
def classField (k : Nat) : Fld := (FAULT_CLASS_C.el (k / 8)).sh (4 * (k % 8))

/-- The class of a source for latches from now on. -/
def State.classOf (s : State) (k : Nat) : Nat := s.get (classField k) % 8

/-- A write of CLASSj: each class as the nearest one within its range; nothing once locked (R360). -/
def State.classWrite (s : State) (j v : Nat) : State :=
  if s.on FAULT_CFG_LOCK then s
  else
    (List.range 8).foldl
      (fun (t : State) (i : Nat) =>
        let k := 8 * j + i
        t.put (classField k) (clampN (classRange k).1 (classRange k).2 (bitsOf v (4 * i) 3))) s

/-- The ERR causes of a page that drive a source (R357). -/
def State.srcErr (s : State) (k pg : Nat) : Nat :=
  let e := s.hdr pg hdrERR
  if e = 0 then 0 else (List.range 32).foldl (fun (m : Nat) (i : Nat) => if bitOf e i && errSource pg i == k then m + 2 ^ i else m) 0

/-- The pages whose ERR holds a cause of a source, lowest first. -/
def State.activePages (s : State) (k : Nat) : List Nat := (List.range 0x80).filter fun pg => pageAssigned pg && s.srcErr k pg != 0

/-- Whether a source is active (R357). -/
def State.srcActive (s : State) (k : Nat) : Bool :=
  if k = 2 then s.on FAULT_CLKMON_REF
  else if k = 3 then s.on FAULT_CLKMON_ISL
  else if 57 ≤ k then bitOf (s.get FAULT_RAISE_SET) (k - 57)
  else !(s.activePages k).isEmpty

/-- ACTIVE_LO (0) or ACTIVE_HI (1). -/
def State.activeWord (s : State) (w : Nat) : Nat :=
  (List.range 32).foldl (fun (m : Nat) (i : Nat) => if s.srcActive (32 * w + i) then m + 2 ^ i else m) 0

/-! ### Holds (R359, R362, R370) -/

/-- What the latched classes hold (Table 3), and the effects of a hold that begins or ends; the assertion of the full strand starts a safe deselect
(R169, R362). -/
def State.holdsSync (s : State) : State :=
  let has := fun (lo hi : Nat) => s.fault.latched.any fun p => decide (lo ≤ p.2) && decide (p.2 ≤ hi)
  let shed := has 1 2
  let halt := has 2 4
  let full := has 3 4
  let shed0 := s.on FAULT_HOLDS_SHED
  let halt0 := s.on FAULT_HOLDS_HALT
  let full0 := s.on FAULT_HOLDS_FULL
  let s1 := (((s.put FAULT_HOLDS_SHED (b2n shed)).put FAULT_HOLDS_HALT (b2n halt)).put FAULT_HOLDS_FULL (b2n full)).put FAULT_HOLDS_FAULTN (b2n full)
  let s2 := s1.put FAULT_HOLDS_HIGHEST (s.fault.latched.foldl (fun (m : Nat) (p : Nat × Nat) => max m p.2) 0)
  let s3 := if shed = shed0 then s2 else s2.feedsShed
  let s4 :=
    if halt && !halt0 then (s3.balAllOff.packRows).svcSnuff
    else if !halt && halt0 then
      { (List.finRange 16).foldl (fun (t : State) (n : Fin 16) => t.balDue n) (s3.svcRun s3.svc.on) with fault.rbBad := [] }
    else s3
  if full && !full0 then
    let s5 := (if s4.dev.pll then s4.deselectAll else s4).feedsSnuff.inpSnuff
    let m := s5.get RING_CFG_SNUFFMIN
    if (m = 3 ∨ m = 4) ∧ m ≤ s5.get FAULT_REACT_CLASS ∧ s5.get FAULT_REACT_FIRST ≠ 5 then s5.snuffSend else s5
  else s4

/-! ### Latches and reactions (R359 to R361, R367 to R369) -/

/-- The class of the reaction rises to at least `c`; a reaction that becomes STOP counts. -/
def State.reactClass (s : State) (c : Nat) : State :=
  let old := s.get FAULT_REACT_CLASS
  if c ≤ old then s
  else
    let s1 := s.put FAULT_REACT_CLASS c
    if c = 4 then s1.put FAULT_COUNTS_STOPS (satInc 127 (s1.get FAULT_COUNTS_STOPS)) else s1

/-- A latch begins a reaction or is merged into the one in progress. -/
def State.reactJoin (s : State) (p : LinePulse) (c : Nat) : State :=
  let m := if p.src < 32 then FAULT_MMASK_LO_MASK else FAULT_MMASK_HI_MASK
  if s.on FAULT_REACT_BUSY then (s.put m (putBit (s.get m) (p.src % 32) true)).reactClass c
  else
    let s0 : State :=
      { s with fault.reactMode := s.mode.code, fault.reactRtc := s.cellar.count, fault.reactLo := p.lo, fault.reactHi := p.hi,
               fault.reactNum := if s.hasNum then s.devNum else 0xFFFF, fault.rbFirst := false }
    let s1 := ((s0.put FAULT_REACT_BUSY 1).put FAULT_REACT_INJ (b2n p.inj)).put FAULT_REACT_FIRST p.src
    let s2 := ((s1.put FAULT_REACT_CLASS 0).put FAULT_REACT_SEQ ((s1.get FAULT_REACT_SEQ + 1) % 65536)).put FAULT_MMASK_LO_MASK 0
    let s3 := (s2.put FAULT_MMASK_HI_MASK 0).put m (2 ^ (p.src % 32))
    (s3.reactClass c).raise PG_FAULT FAULT_ST_LATCH

/-- The effect of a SAFE or STOP latch on the rails and the mode (R359, R361, Table 4). -/
def State.safeEffect (s : State) (k c : Nat) : State :=
  if c < 3 then s
  else
    let s1 := if c = 4 then s.stopRails else s
    let s2 := if k = 0 then s1.recBump 0x28 2 else s1
    match s2.mode with
    | .run | .ride | .service => s2.enterSafe 8
    | .rise | .fall => if c = 4 then s2.enterSafe 14 else s2
    | .hibernate => s2.wakeByLatch
    | .safe => if s2.lamp.coldStage ≤ 2 then s2 else s2.relightOut true
    | .cellar => s2

/-- A pulse reaches the collector: on a set bit it only counts (R368). -/
def State.latch (s : State) (p : LinePulse) : State :=
  if s.faultSet p.src then (s.put FAULT_COUNTS_REPEAT (satInc 4095 (s.get FAULT_COUNTS_REPEAT))).raise PG_FAULT FAULT_ST_REPEAT
  else
    let c := s.classOf p.src
    let s1 : State := { s.putFault p.src true with fault.latched := (p.src, c) :: s.fault.latched }
    ((s1.reactJoin p c).holdsSync).safeEffect p.src c

/-- Whether GUARD is clocked. -/
def State.guardRuns (s : State) : Bool := s.mode != .cellar && !s.dev.held

/-- The pulses that wait from the given sources, one of each, lowest source first. -/
def State.pulsesOf (s : State) (sources : List Nat) : List LinePulse :=
  (List.range 64).filterMap fun k => if sources.contains k then s.fault.lines.find? (·.src == k) else none

/-- The state without those pulses. -/
def State.dropPulses (s : State) (l : List LinePulse) : State := { s with fault.lines := l.foldl (fun (m : List LinePulse) (p : LinePulse) => m.erase p) s.fault.lines }

/-- Pulses that fall in one GUARD clock. -/
def State.linePulses (s : State) (sources : List Nat) : State :=
  if s.guardRuns then
    let l := s.pulsesOf sources
    l.foldl (fun (t : State) (p : LinePulse) => t.latch p) (s.dropPulses l)
  else s

/-- A pair disagrees for 2 clocks: ERR.LINE, and its source as if it had pulsed (R357). -/
def State.lineDisagree (s : State) (k : Nat) : State :=
  if s.guardRuns then
    let s1 := s.err PG_FAULT FAULT_ERR_LINE
    if k = 6 ∧ !bitOf (s.hdr PG_FAULT hdrERR) FAULT_ERR_LINE then s1 else s1.pulse { src := k, inj := false, lo := 0, hi := 0 }
  else s

/-- A write of ERR_INJ that names the error-line check (Table 14): GUARD makes its checks in the clocks that follow, so COUNT is 0 after them,
and a COUNT of 2 or more meets the rule. -/
def State.lineInject (s : State) : State :=
  if s.injOn PG_FAULT 2 then
    let n := bitsOf (s.hdr PG_FAULT hdrERR_INJ) 0 4
    let s1 := s.wr (hdrAddr PG_FAULT hdrERR_INJ) (BitVec.ofNat 32 0x200)
    if n < 2 then s1
    else if bitOf (s1.hdr PG_FAULT hdrERR) FAULT_ERR_LINE then s1.pulse { src := 6, inj := true, lo := 0, hi := 0 }
    else s1.errI PG_FAULT FAULT_ERR_LINE true
  else s

/-! ### Clearing (R369, R371) -/

/-- A W1C write of a STATUS word with pulses of the same clock. -/
def State.faultClear (s : State) (hi : Bool) (v : Nat) (sources : List Nat) : State :=
  let base := if hi then 32 else 0
  let bits := (List.range 32).filterMap fun i => if bitOf v i && s.faultSet (base + i) then some (base + i) else none
  let refused := bits.filter fun k => (s.fault.latched.any fun p => p.1 == k && p.2 != 0) && s.srcActive k
  let clear := bits.filter fun k => !refused.contains k
  let s1 := clear.foldl (fun (t : State) (k : Nat) => t.putFault k false) s
  let s2 : State := { s1 with fault.latched := s1.fault.latched.filter fun p => !clear.contains p.1 }
  let l := s2.pulsesOf sources
  let hit := (l.filter fun p => clear.contains p.src).length
  let c := hdrAddr PG_FAULT hdrCOLLIDE
  let s3 := if hit = 0 then s2 else s2.wr c (BitVec.ofNat 32 (min 255 ((s2.rd c).toNat + hit)))
  let s4 := l.foldl (fun (t : State) (p : LinePulse) => t.latch p) (s3.dropPulses l)
  (s4.holdsSync).raiseIf (!refused.isEmpty) PG_FAULT FAULT_ST_CLRREF

/-- A write of RAISE: CLR clears, SET sets and wins; each source that becomes set pulses (R369, R376). -/
def State.raiseWrite (s : State) (v : Nat) : State :=
  let old := s.get FAULT_RAISE_SET
  (List.range 7).foldl
    (fun (t : State) (i : Nat) =>
      let set := bitOf v i
      let clr := bitOf v (16 + i)
      let t1 := t.put FAULT_RAISE_SET (putBit (t.get FAULT_RAISE_SET) i (set || (bitOf old i && !clr)))
      if set && (!bitOf old i || clr) then t1.pulse { src := 57 + i, inj := false, lo := 0, hi := 0 } else t1) s

/-! ### Clock monitor and readback (R9, R364) -/

/-- One comparison: bit 0 the reference, bits 1 to 6 the islands; `off` deviates by more than 2 %, `stopped` has no clock. -/
def State.clockMonitor (s : State) (off stopped : Nat) : State :=
  if !s.guardRuns then s
  else
    let bad := (stopped ||| (off &&& s.fault.clkBad)) % 128
    let old := (s.rd FAULT_CLKMON_REF.addr).toNat
    let new := bad &&& (127 - old % 128)
    let s1 : State := { s.wr FAULT_CLKMON_REF.addr (BitVec.ofNat 32 (old + new)) with fault.clkBad := (off ||| stopped) % 128 }
    let s2 := if new % 2 = 1 then s1.pulse { src := 2, inj := false, lo := 0, hi := 0 } else s1
    if new / 2 ≠ 0 then s2.pulse { src := 3, inj := false, lo := 0, hi := 0 } else s2

/-- The pads that the strands force now, by PAD code (Tables 5 and 13). -/
def State.forcedPads (s : State) : List Nat :=
  let svc := !s.on SVC_CFG_SAFEON
  let halt := List.range 32 ++ [34, 35] ++ (if svc then [36, 37] else []) ++ [64, 65, 66, 67, 68] ++ (if svc then [69] else [])
  let full := ((List.range 8).filter fun n => !s.on (FEEDS_CFG_SAFEON.el n)).map (72 + ·) ++ (if s.on INPATH_CFG_SNUFFOFF then [80] else []) ++ [81, 82]
  (if s.on FAULT_HOLDS_HALT then halt else []) ++ (if s.on FAULT_HOLDS_FULL then full else [])

/-- One readback: `bad` are the pads that are not at their safe-state level; two in a row set ERR.SNUFFRB (R364). -/
def State.snuffReadback (s : State) (bad : List Nat) : State :=
  if !s.guardRuns || !s.on FAULT_HOLDS_HALT then s
  else
    let inj := s.injOn PG_FAULT 1
    let now := s.forcedPads.filter fun p => inj || bad.contains p
    let both := now.filter s.fault.rbBad.contains
    let s1 : State := { s.injTake PG_FAULT 1 with fault.rbBad := now, fault.rbFirst := true }
    match both with
    | [] => s1
    | p :: t =>
      let low := t.foldl min p
      let s2 := if s1.on FAULT_SNUFFRB_VALID then s1 else (s1.put FAULT_SNUFFRB_PAD low).put FAULT_SNUFFRB_VALID 1
      s2.errI PG_FAULT FAULT_ERR_SNUFFRB inj

/-! ### Records and the log (R358, R374, R375) -/

/-- The data words of a record whose first source is `k` (Table 2). -/
def State.recordData (s : State) (k : Nat) : Nat × Nat :=
  if k = 2 ∨ k = 3 then ((s.rd FAULT_CLKMON_REF.addr).toNat, 0)
  else if k = 4 ∨ (16 ≤ k ∧ k < 32) then (s.fault.reactLo, s.fault.reactHi)
  else if 57 ≤ k then ((s.rd FAULT_RAISE_SET.addr).toNat, 0)
  else
    let l := s.activePages k
    let lo := match l with | pg :: _ => s.srcErr k pg | [] => 0
    if k = 5 ∨ k = 7 then (lo, s.fault.reactHi)
    else
      let first := if k = 32 then PG_SLINK else if k = 33 then PG_BAL else PG_POL
      (lo, if k = 32 ∨ k = 33 ∨ k = 43 then l.foldl (fun (m : Nat) (pg : Nat) => m + 2 ^ (pg - first)) 0 else 0)

def faultLog : Nat := 0x260000

/-- Little-endian bytes of a number. -/
def leBytes (n v : Nat) : List Byte := (List.range n).map fun i => BitVec.ofNat 8 (v / 256 ^ i)

/-- A log entry from byte 4 on, without SEQ and CHECK (Table 11). -/
def State.logEntry (s : State) (d : Nat × Nat) (merged : Bool) : List Byte :=
  leBytes 6 s.fault.reactRtc ++ leBytes 1 (s.get FAULT_REACT_FIRST)
    ++ leBytes 1 (s.get FAULT_REACT_CLASS + s.fault.reactMode * 8 + b2n merged * 64 + s.get FAULT_REACT_INJ * 128)
    ++ leBytes 4 (s.get FAULT_MMASK_LO_MASK) ++ leBytes 4 (s.get FAULT_MMASK_HI_MASK) ++ leBytes 4 d.1 ++ leBytes 4 d.2 ++ leBytes 2 s.fault.reactNum

/-- An entry joins the queue of 8; one that finds it full is dropped (R375). -/
def State.logQueue (s : State) (e : List Byte) : State :=
  if s.fault.logq.length < 8 then { s.put FAULT_LOGSTAT_PEND (s.fault.logq.length + 1) with fault.logq := s.fault.logq ++ [e] }
  else
    ((s.store (faultLog + 0x10) 4 (satInc (2 ^ 32 - 1) (s.load (faultLog + 0x10) 4))).put FAULT_LOGSTAT_LOST (satInc 4095 (s.get FAULT_LOGSTAT_LOST))).raise
      PG_FAULT FAULT_ST_LOGLOST

/-- The oldest entry is written, then NEXT and TOTAL; entries wait while a long operation runs (R375). -/
def State.logWrite (s : State) : State :=
  match s.fault.logq with
  | [] => s
  | e :: t =>
    if s.busy then s
    else
      let next := s.load (faultLog + 8) 4
      let total := satInc (2 ^ 32 - 1) (s.load (faultLog + 12) 4)
      let b := leBytes 4 total ++ e
      let s1 := s.putBytes (faultLog + 0x40 + 32 * next) (b ++ leBytes 2 (crc16 b))
      let s2 := (s1.store (faultLog + 8) 4 ((next + 1) % 1022)).store (faultLog + 12) 4 total
      { (s2.put FAULT_LOGSTAT_NEXT ((next + 1) % 1022)).put FAULT_LOGSTAT_PEND t.length with fault.logq := t }

/-- The header is read at RISE (R375). -/
def State.logCheck (s : State) : State :=
  let bad := s.load faultLog 4 != 0x544C5546 || s.load (faultLog + 4) 4 != 1 || decide (1021 < s.load (faultLog + 8) 4)
  let s1 := if bad then ((s.zeroRange faultLog 64).store faultLog 4 0x544C5546).store (faultLog + 4) 4 1 else s
  (s1.put FAULT_LOGSTAT_NEXT (s1.load (faultLog + 8) 4)).raiseIf bad PG_FAULT FAULT_ST_LOGINIT

/-- A reaction ends: T_MERGE and, for HALT and above, the first readback have passed (R367); its record, the cellar's copy, its log entry. -/
def State.reactionEnd (s : State) : State :=
  if !s.on FAULT_REACT_BUSY || (decide (2 ≤ s.get FAULT_REACT_CLASS) && !s.fault.rbFirst) then s
  else
    let k := s.get FAULT_REACT_FIRST
    let d := s.recordData k
    let merged := decide (1 < popCount (s.get FAULT_MMASK_LO_MASK) 32 + popCount (s.get FAULT_MMASK_HI_MASK) 32)
    let route := bitOf (s.rd (PG_EVQ * 0x400 + (if k < 32 then 0x04C else 0x050))).toNat (k % 32)
    let s1 := s.fire { src := k, cls := s.get FAULT_REACT_CLASS, merged := merged, shelfB := route, stamp := s.fault.reactRtc % 2 ^ 32, lo := d.1, hi := d.2 }
    let s2 := ((s1.put FAULT_COUNTS_RECORDS (satInc 4095 (s1.get FAULT_COUNTS_RECORDS))).put FAULT_REACT_BUSY 0).raise PG_FAULT FAULT_ST_REACTEND
    let s3 := ((s2.recPut 0x18 4 (s2.rd (faultWord 0)).toNat).recPut 0x1C 4 (s2.rd (faultWord 32)).toNat).recPut 0x20 6 s.fault.reactRtc
    if min 4 (s.get FAULT_CFG_LOGMIN) ≤ s.get FAULT_REACT_CLASS then s3.logQueue (s.logEntry d merged) else s3

end Sys2Proof.Machine
end

