-- ==== Sys2Proof/Machine/Clock.lean ====
section
/-! DEFINITION. The RTC (R379 to R383), its shadows (R381), alarms and wakes (R383, R387), the watchdog (R388 to R392) and the mutual clock
monitor (R393). -/

namespace Sys2Proof.Machine

/-! ### The count -/

/-- The clock source of the count. -/
def State.rtcSource (s : State) (b : Bool) : State := { s.put RTC_SRC_FALLBACK (b2n b) with cellar.fallback := b }

/-- The crystal stops: the count runs from the fallback RC (R379). -/
def State.crystalStop (s : State) (inj : Bool) : State := if s.cellar.fallback then s else (s.rtcSource true).errI PG_RTC RTC_ERR_XTAL inj

/-- The crystal has run within ±1 % for 1 s. -/
def State.crystalReturn (s : State) : State := if s.cellar.fallback then (s.rtcSource false).raise PG_RTC RTC_ST_XTOK else s

/-- The trim of a tick: TRIM + C_XT in 0.1 ppm, clamped to ±5,120 (R380, R354). -/
def State.rtcTrim (s : State) : Int := clampI (-5120) 5120 (clampI (-5120) 5120 (s.getI RTC_TRIM_VALUE) + s.getI THERM_COMP_XT)

/-- The value of an alarm. -/
def State.almValue (s : State) (k : Nat) : Nat := (s.rd (PG_RTC * 0x400 + 0x058 + 12 * k)).toNat + s.get (RTC_ALM_HI_HI.el k) * 2 ^ 32

/-- An alarm fires (R383). -/
def State.almFire (s : State) (k : Nat) : State :=
  let v := s.almValue k
  let per := s.get (RTC_ALM_PER_PER.el k)
  let pw := s.on (RTC_ALM_HI_PWRON.el k)
  let wake := s.on (RTC_ALM_HI_WAKE.el k)
  let s1 :=
    if per = 0 then s.put (RTC_ALM_HI_EN.el k) 0
    else
      let n := (v + per) % 2 ^ 48
      (s.wr (PG_RTC * 0x400 + 0x058 + 12 * k) (BitVec.ofNat 32 n)).put (RTC_ALM_HI_HI.el k) (n / 2 ^ 32)
  let s2 := s1.raise PG_RTC (if k = 0 then RTC_ST_ALM0 else RTC_ST_ALM1)
  let s3 := if pw then s2.pwronSet else s2
  if wake ∧ (s3.mode = .cellar ∨ s3.mode = .hibernate) then s3.wakeRequest (0x20 * 2 ^ k) else s3

/-- Automatic restarts of an hour ago no longer count in MODE.STOPCNT (R498, R501). -/
def State.stopAge (s : State) : State :=
  if s.dev.restarts.isEmpty then s
  else
    let recent := s.restartsRecent
    { s with dev.restarts := recent }.put DEV_MODE_STOPCNT recent.length

/-- A tick: the count advances by 0, 1 or 2 under trim, alarms it reaches fire, and the PWRON pad is compared (R380, R383, R387). -/
def State.rtcTick (s : State) (padHigh : Bool) : State :=
  let acc := s.cellar.trimAcc + s.rtcTrim
  let adv := if 10000000 ≤ acc then 2 else if acc ≤ -10000000 then 0 else 1
  let acc' := if adv = 2 then acc - 10000000 else if adv = 0 then acc + 10000000 else acc
  let old := s.cellar.count
  let new := (old + adv) % 2 ^ 48
  let s1 : State := { s with cellar.count := new, cellar.trimAcc := acc' }
  let due := (List.range 2).filter fun k => s.on (RTC_ALM_HI_EN.el k) && decide (old < s.almValue k) && decide (s.almValue k ≤ new)
  let s2 := due.foldl (fun (t : State) (k : Nat) => t.almFire k) s1
  let s3 := (s2.pwronCheck padHigh).stopAge
  if s3.injOn PG_RTC 1 then (s3.injTake PG_RTC 1).crystalStop true else s3

/-- A write of RTC.CMD asks for a set (R382). -/
def State.rtcCmd (s : State) (v : Nat) : State :=
  if v / 0x10000 = 0x2C7D ∧ v % 4 = 1 then
    { s with cellar.setWait := some ((s.rd (PG_RTC * 0x400 + 0x048)).toNat + s.get RTC_SET_HI_HI * 2 ^ 32) }
  else s

/-- The set loads at a tick (R382). -/
def State.rtcSetLoad (s : State) : State :=
  match s.cellar.setWait with
  | some v => { s with cellar.count := v, cellar.trimAcc := 0, cellar.setWait := none }.raise PG_RTC RTC_ST_SETDONE
  | none => s

/-! ### Shadows (R381) -/

/-- The frozen count of a master's set. -/
def State.frozenOf (s : State) (m : Nat) : Option Nat := (s.cellar.frozen.find? (·.1 == m)).map (·.2)

/-- A master reads TICK_LO: its set freezes. -/
def State.tickLo (s : State) (m : Nat) : Nat × State :=
  match s.frozenOf m with
  | some v => (v % 2 ^ 32, s)
  | none => (s.cellar.count % 2 ^ 32, { s with cellar.frozen := (m, s.cellar.count) :: s.cellar.frozen })

/-- A master's set is released. -/
def State.thaw (s : State) (m : Nat) : State := { s with cellar.frozen := s.cellar.frozen.filter fun p => p.1 != m }

/-- A master reads TICK_HI: a frozen set gives its value and is released. -/
def State.tickHi (s : State) (m : Nat) : Nat × State :=
  match s.frozenOf m with
  | some v => (v / 2 ^ 32, s.thaw m)
  | none => (s.cellar.count / 2 ^ 32, s)

/-- A set has been frozen for 1 ms. -/
def State.freezeTimeout (s : State) (m : Nat) : State :=
  match s.frozenOf m with
  | some _ => (s.thaw m).raise PG_RTC RTC_ST_FRZTO
  | none => s

/-! ### The watchdog -/

/-- Whether the watchdog counts (R389). -/
def State.wdogCounting (s : State) : Bool :=
  s.wdog.on && (match s.mode with | .run | .ride | .safe | .service => true | .hibernate => !s.on WDOG_CFG_HIBSTOP | _ => false)

/-- A window begins (R389). -/
def State.wdogWindow (s : State) (first : Bool) : State :=
  { s with wdog := { s.wdog with count := 0, first := first, checkins := List.replicate 16 0, window := true } }

/-- Where the window in progress closes (Table 12). -/
def State.wdogClose (s : State) : Nat :=
  if s.wdog.first then (if s.get WDOG_WIN1_CLOSE_FIRST = 0 then 65535 else s.get WDOG_WIN1_CLOSE_FIRST)
  else max (s.get WDOG_WIN_CLOSE) (atLeast1 (s.get WDOG_WIN_OPEN) + 1)

/-- MIN of a task. -/
def State.taskMin (s : State) (t : Nat) : Nat := s.get ((WDOG_TASKLIM_MIN.el (t / 4)).sh (8 * (t % 4)))

/-- MAX of a task; below MIN it acts as MIN. -/
def State.taskMax (s : State) (t : Nat) : Nat := max (s.taskMin t) (s.get ((WDOG_TASKLIM_MAX.el (t / 4)).sh (8 * (t % 4))))

/-- The watched tasks with a property of their check-ins, as a mask. -/
def State.taskMask (s : State) (p : Nat → Nat → Bool) : Nat :=
  (List.range 16).foldl (fun (m : Nat) (t : Nat) => if bitOf (s.get WDOG_TASKEN_EN) t && p t (nth s.wdog.checkins t) then m + 2 ^ t else m) 0

/-- Tasks with too few check-ins. -/
def State.missingMask (s : State) : Nat := s.taskMask fun t n => decide (n < s.taskMin t)

/-- Tasks with too many. -/
def State.excessMask (s : State) : Nat := s.taskMask fun t n => decide (s.taskMax t < n)

/-- What a bite leaves in the cellar's record area (R384, R392). -/
def State.biteRecord (s : State) (cause missing excess : Nat) : State :=
  (((((s.recBump 0x06 2).recPut 0x08 1 cause).recPut 0x09 1 s.mode.code).recPut 0x0C 2 missing).recPut 0x0E 2 excess).recPut 0x10 6 s.cellar.count

/-- A bite with a cause of Table 4, by CFG.ACTION (R392). -/
def State.wdogBite (s : State) (cause count : Nat) : State :=
  let miss := s.missingMask
  let exc := s.excessMask
  let s1 := ((s.put WDOG_BITE0_MISSING miss).put WDOG_BITE0_EXCESS exc).put WDOG_BITE1_CAUSE cause
  let s2 := (s1.put WDOG_BITE1_COUNT count).biteRecord cause miss exc
  if s.on WDOG_CFG_ACTION then ((s2.raise PG_WDOG WDOG_ST_BITE).pulse { src := 4, inj := false, lo := miss, hi := exc }).wdogWindow true
  else (s2.recBump 0x04 2).deviceReset 4

/-- The first write of CFG switches the watchdog on (R388, R389). -/
def State.wdogSwitchOn (s : State) : State :=
  let s1 : State := { s with wdog.on := true }
  if s1.wdogCounting then s1.wdogWindow true else s1

/-- Check-ins of the tasks in `mask` at a count of the window in progress (R390). -/
def State.taskCheckin (s : State) (mask count : Nat) : State :=
  if !s.wdog.on || !s.wdog.window then s
  else
    let en := s.get WDOG_TASKEN_EN
    let l := (List.range 16).map fun t => if bitOf mask t && bitOf en t then min 15 (nth s.wdog.checkins t + 1) else nth s.wdog.checkins t
    let s1 : State := { s with wdog := { s.wdog with checkins := l, count := count } }
    if s1.excessMask = 0 then s1 else s1.wdogBite 4 count

/-- A CHECKIN write at a count (R390): one stamped at the window's end belongs to the next window, whose bite LATE comes first (R3, R391). -/
def State.wdogCheckin (s : State) (mask count : Nat) : State :=
  if s.wdog.on && s.wdog.window && decide (s.wdogClose ≤ count) then (s.wdogBite 2 s.wdogClose).taskCheckin mask 0
  else s.taskCheckin mask count

/-- A SERVICE write at a count, judged by Table 4 (R391). -/
def State.wdogService (s : State) (v count : Nat) : State :=
  if !s.wdog.on || !s.wdog.window then s
  else
    let early := s.injOn PG_WDOG 1
    let s1 : State := { s.injTake PG_WDOG 1 with wdog.count := count }
    if v / 0x10000 ≠ 0x7D1E then s1.wdogBite 5 count
    else if early ∨ count < atLeast1 (s.get WDOG_WIN_OPEN) then s1.wdogBite 1 count
    else if s.missingMask ≠ 0 then s1.wdogBite 3 count
    else if count < s.wdogClose then (s1.wdogWindow false).raise PG_WDOG WDOG_ST_SERVICED
    else s1.wdogBite 2 count

/-- The count reaches WARN. -/
def State.wdogWarn (s : State) : State :=
  if s.wdogCounting && s.wdog.window && s.get WDOG_WIN1_WARN != 0 then { s with wdog.count := s.get WDOG_WIN1_WARN }.raise PG_WDOG WDOG_ST_WARN else s

/-- The count reaches the end of the window with no service. -/
def State.wdogLate (s : State) : State := if s.wdogCounting && s.wdog.window then s.wdogBite 2 s.wdogClose else s

/-- The cellar clock fails its check (Table 5a). -/
def State.cellarClockFail (s : State) (inj : Bool) : State :=
  if s.wdog.on && s.on WDOG_CFG_CLKSEL then s.wdogBite 6 s.wdog.count else s.errI PG_WDOG WDOG_ERR_CLKFAIL inj

/-- The mutual monitor fails (R393): the GUARD RC, or the cellar clock. -/
def State.mutualFail (s : State) (guardRc : Bool) : State :=
  if !s.guardRuns then s
  else if guardRc then ((s.biteRecord 6 0 0).recBump 0x04 2).deviceReset 5
  else s.cellarClockFail false

/-- The cellar-clock check that falls at a cellar edge, when its injection is armed (ERR_INJ 0x02). -/
def State.cellarEdge (s : State) : State :=
  if s.guardRuns && s.injOn PG_WDOG 2 then (s.injTake PG_WDOG 2).cellarClockFail true else s

/-- A configuration write of the watchdog page (Table 3): stored until CFG switches it on, then ignored with LOCKWR. -/
def State.wdogConfig (s : State) (addr : Nat) (v : Word) : State :=
  if s.wdog.on then s.err PG_WDOG WDOG_ERR_LOCKWR
  else
    let s1 := s.wr addr v
    if addr = WDOG_CFG_DIV.addr then s1.wdogSwitchOn else s1

end Sys2Proof.Machine
end

