-- ==== Sys2Proof/Machine/Evq.lean ====
section
/-! DEFINITION. Event queues: records and their completion (R397 to R402, R406 to R409), pointers (R403), interrupt lines and Host Notify (R404,
R405, R421). -/

namespace Sys2Proof.Machine

/-! ### Shelves; `b` is true for shelf B -/

/-- WPTR of a shelf. -/
def evqW (b : Bool) : Fld := if b then EVQ_WPTRB_PTR else EVQ_WPTRA_PTR

/-- RPTR of a shelf. -/
def evqR (b : Bool) : Fld := if b then EVQ_RPTRB_PTR else EVQ_RPTRA_PTR

/-- A field of CFGA, for a shelf. -/
def evqCfg (f : Fld) (b : Bool) : Fld := if b then { f with off := f.off + 4 } else f

/-- A field of STATEA, for a shelf. -/
def evqSt (f : Fld) (b : Bool) : Fld := if b then { f with off := f.off + 4 } else f

/-- The unread records of a shelf (R397). -/
def State.evqCount (s : State) (b : Bool) : Nat := (s.get (evqW b) + 1024 - s.get (evqR b)) % 1024

/-- The line of a shelf. -/
def State.irqLine (s : State) (b : Bool) : IrqLine := if b then s.evq.lineB else s.evq.lineA

/-- The state with a shelf's line, which STATEx shows. -/
def State.setLine (s : State) (b : Bool) (x : IrqLine) : State :=
  let s1 := s.put (evqSt EVQ_STATEA_IRQ b) (b2n (x.asserted && s.on (evqCfg EVQ_CFGA_IRQEN b)))
  let s2 := s1.put (evqSt EVQ_STATEA_IDLE b) (b2n x.idle)
  if b then { s2 with evq.lineB := x } else { s2 with evq.lineA := x }

/-- Whether Host Notify is on for a shelf. -/
def State.notifyOn (s : State) (b : Bool) : Bool := s.on (if b then I2CT_CFG_HNB else I2CT_CFG_HNA)

/-- The line of a shelf follows R404; where it would become asserted a Host Notify message sets out (R421). -/
def State.irqSync (s : State) (b : Bool) : State :=
  let x := s.irqLine b
  let n := s.evqCount b
  let s1 := s.put (evqSt EVQ_STATEA_COUNT b) n
  if n = 0 ∨ !s.enabled PG_EVQ then s1.setLine b { x with asserted := false, notify := false, bypass := x.bypass && n != 0 }
  else if x.asserted then s1.setLine b x
  else if decide (atLeast1 (s.get (evqCfg EVQ_CFGA_THR b)) ≤ n) || x.modOk || (x.bypass && s.on (evqCfg EVQ_CFGA_IDLEBYP b)) then
    s1.setLine b { x with asserted := true, modOk := false, notify := s.notifyOn b }
  else s1.setLine b x

/-! ### Records -/

/-- The four words of a record (Table 1). -/
def recordWords (f : Firing) (refire : Bool) (seq : Nat) : List Nat :=
  [f.src % 1024 * 0x400000 + f.cls % 8 * 0x80000 + b2n f.merged * 0x40000 + b2n f.shelfB * 0x20000 + b2n refire * 0x10000 + seq, f.stamp, f.lo, f.hi]

/-- A source leaves the list of those that are not IDLE. -/
def State.srcIdle (s : State) (src : Nat) : State := { s with evq.active := s.evq.active.filter fun x => x.src != src }

/-- A record is generated: it takes its SEQ; on a full shelf it is dropped and its source goes IDLE (R400, R408). -/
def State.evqRecord (s : State) (f : Firing) (refire : Bool) : State :=
  let b := f.shelfB
  let seq := s.get (evqSt EVQ_STATEA_NEXTSEQ b)
  let s1 := s.put (evqSt EVQ_STATEA_NEXTSEQ b) ((seq + 1) % 65536)
  if s.evqCount b = 512 then
    let l := if b then EVQ_LOST_B else EVQ_LOST_A
    ((s1.put l (satInc 32767 (s1.get l))).raise PG_EVQ (if b then EVQ_ST_OVFB else EVQ_ST_OVFA)).srcIdle f.src
  else
    let w := s.get (evqW b)
    let a := (if b then 0x1A2000 else 0x1A0000) + 16 * (w % 512)
    let ws := recordWords f refire seq
    let s2 := (((s1.store (a + 4) 4 (nth ws 1)).store (a + 8) 4 (nth ws 2)).store (a + 12) 4 (nth ws 3)).store a 4 (nth ws 0)
    let s3 := s2.put (evqW b) ((w + 1) % 1024)
    let x := s3.irqLine b
    let s4 := if s3.evqCount b = 1 then s3.setLine b { x with bypass := x.idle } else s3
    s4.irqSync b

/-- A read of the source-state memory: an injected error sets every source IDLE (Table 12). -/
def State.srcRead (s : State) : State :=
  if s.injOn PG_EVQ 1 then { (s.injTake PG_EVQ 1).errI PG_EVQ EVQ_ERR_STATEECC true with evq.active := [] } else s

/-- The state of a source. -/
def State.srcState (s : State) (src : Nat) : Option SrcState := s.evq.active.find? (·.src == src)

/-- A firing reaches the EVQ (R406, R407, Table 8). -/
def State.evqFire (s : State) (f : Firing) : State :=
  if !s.on (evqCfg EVQ_CFGA_DONEMODE f.shelfB) then s.evqRecord f false
  else
    let s1 := s.srcRead
    match s1.srcState f.src with
    | none => ({ s1 with evq.active := s1.evq.active ++ [({ src := f.src, pend := false, f := f } : SrcState)] } : State).evqRecord f false
    | some x =>
      let f' := if x.pend then { f with stamp := x.f.stamp } else f
      { s1 with evq.active := s1.evq.active.map fun (y : SrcState) => if y.src = f.src then { src := f.src, pend := true, f := f' } else y }

/-- Whether records can be written: not in CELLAR, HIBERNATE and RISE (Table 9). -/
def State.evqRuns (s : State) : Bool := match s.mode with | .cellar | .hibernate | .rise => false | _ => true

/-- The oldest firing on its way is taken. -/
def State.eventRecord (s : State) : State :=
  match s.evq.firings with
  | [] => s
  | f :: t => if s.evqRuns then { s with evq.firings := t }.evqFire f else s

/-- A write of DONE (Table 8). -/
def State.evqDone (s : State) (src : Nat) : State :=
  let s1 := s.srcRead
  match s1.srcState src with
  | none => s1.raise PG_EVQ EVQ_ST_BADDONE
  | some x =>
    if 0x3C8 ≤ src then s1.raise PG_EVQ EVQ_ST_BADDONE
    else if x.pend then { s1 with evq.active := s1.evq.active.map fun (y : SrcState) => if y.src = src then { y with pend := false } else y }.evqRecord x.f true
    else s1.srcIdle src

/-- A write of RPTR (R403, Table 5): a host access. -/
def State.rptrWrite (s : State) (b : Bool) (v : Nat) : State :=
  let d := (v % 1024 + 1024 - s.get (evqR b)) % 1024
  if s.evqCount b < d then
    let s1 := s.raise PG_EVQ EVQ_ST_BADPTR
    s1.setLine b { s1.irqLine b with idle := false }
  else
    let s1 := s.put (evqR b) (v % 1024)
    (s1.setLine b { s1.irqLine b with idle := false, drained := s1.evqCount b == 0 }).irqSync b

/-- A host access that is no RPTR write (R404). -/
def State.hostAccess (s : State) (b : Bool) : State := s.setLine b { s.irqLine b with idle := false }

/-- T_MOD has passed since the last assertion. -/
def State.modExpire (s : State) (b : Bool) : State := (s.setLine b { s.irqLine b with modOk := true }).irqSync b

/-- T_IDLE has passed without a host access to a drained shelf. -/
def State.hostIdle (s : State) (b : Bool) : State :=
  let x := s.irqLine b
  if x.drained then s.setLine b { x with idle := true } else s

/-- The status byte of Table 3 of the host buses, with a master's CRC_ERR (R413). -/
def State.statusByte (s : State) (bad : Bool) : Nat :=
  b2n s.busy * 128 + b2n bad * 64 + b2n (s.evqCount false != 0) * 32 + b2n (s.evqCount true != 0) * 16 +
    b2n (s.rd (PG_FAULT * 0x400 + 0x40) != 0 || s.rd (PG_FAULT * 0x400 + 0x44) != 0) * 8 + s.mode.code

/-- The bytes of a Host Notify message: its address, the device's own, the status byte and the shelf (R421; its CRC_ERR is 0, log entry 195). -/
def State.notifyBytes (s : State) (b : Bool) : List Nat := [0x10, (0x40 + s.get I2CT_CFG_ADDR) * 2, s.statusByte false, if b then 2 else 1]

/-- A Host Notify message ends: the one that set out with the line's assertion, or a repeat after T_HNREP while the line stays
asserted; `ok` is false after its last retry (R421). -/
def State.hostNotify (s : State) (b ok : Bool) : State :=
  let x := s.irqLine b
  if x.notify || (x.asserted && s.notifyOn b && s.get I2CT_CFG_T_HNREP != 0) then
    ((s.setLine b { x with notify := false }).raise PG_I2CT (if ok then I2CT_ST_HNSENT else I2CT_ST_HNFAIL)).reply (s.notifyBytes b)
  else s

/-! ### RISE and function reset (Table 9) -/

/-- Both shelves are emptied. -/
def State.evqEmpty (s : State) : State :=
  let s0 : State := { s with evq.active := [] }
  [false, true].foldl
    (fun (t : State) (b : Bool) =>
      (((t.put (evqW b) 0).put (evqR b) 0).put (evqSt EVQ_STATEA_NEXTSEQ b) 0 |>.setLine b ⟨false, true, false, false, false, false⟩).irqSync b) s0

/-- The end of RISE: held firings go first. -/
def State.evqRelease (s : State) : State :=
  let s1 : State := { s.put EVQ_HOLD_LEVEL 0 with evq.firings := s.evq.firings ++ s.evq.held, evq.held := [] }
  s1.raiseIf (s.get EVQ_HOLD_LOST != 0) PG_EVQ EVQ_ST_HELDLOST

/-- A function reset of EVQ. -/
def State.evqFuncReset (s : State) : State :=
  let s0 : State := { s with evq.active := [] }
  [false, true].foldl (fun (t : State) (b : Bool) => (t.put (evqR b) (t.get (evqW b))).irqSync b) s0

/-- The state a read of SRCSTATE shows. -/
def State.srcCode (s : State) : Nat := match s.srcState (s.get EVQ_SRCQ_SRC) with | none => 0 | some x => if x.pend then 3 else 1

end Sys2Proof.Machine
end

