-- ==== Sys2Proof/Machine/TypeC.lean ====
section
/-! DEFINITION. The USB-C service port: Type-C states (R428 to R433), power (R434, R435), the hardware policy (R436, R437), contracts (R438 to
R441), swaps, Hard Reset and Fast Role Swap (R442 to R449), VDMs and service lantern mode (R450, R451). -/

namespace Sys2Proof.Machine

/-! ### Conditions -/

/-- STATE.CODE. -/
def State.portCode (s : State) : Nat := s.get TYPEC_STATE_CODE

/-- A field of TYPEC.CFG, TYPEC.SRCCOND or PD.CFG as in force: a master's write takes effect at the next attach or negotiation (R436). -/
def State.pol (s : State) (f : Fld) : Nat :=
  bitsOf (if f.pg = PG_PD then s.port.polP else if f.off = 0x44 then s.port.polS else s.port.polC) f.lo f.w

/-- Whether a policy bit is set, as in force. -/
def State.polOn (s : State) (f : Fld) : Bool := s.pol f != 0

/-- An attach or a negotiation takes the policy as the registers hold it (R436). -/
def State.polTake (s : State) : State :=
  { s with
      port := { s.port with polC := s.hdr PG_TYPEC 0x40, polS := s.hdr PG_TYPEC 0x44, polP := s.hdr PG_PD 0x40 } }

/-- With nothing attached, the registers are the policy in force: the next attach finds them. -/
def State.polTakeFree (s : State) : State := if s.portCode = 5 ∨ s.portCode = 6 then s else s.polTake

/-- A port with nothing attached, under the policy in force. -/
def State.portBlank (s : State) : PortS := { portIdle with polC := s.port.polC, polS := s.port.polS, polP := s.port.polP }

/-- Whether PORT is clocked. -/
def State.portRuns (s : State) : Bool := s.ringRuns

/-- Whether the schedule in force issues COMP of unit 17 (R429). -/
def State.svcComped (s : State) : Bool :=
  if s.get LAMP_STATE_SOURCE = 1 then true
  else if s.litBank = 0 ∨ s.get LAMP_STATE_SOURCE = 0 ∨ 4 < s.get LAMP_STATE_CLASS then false
  else
    (List.range 6).any fun lane => (List.range 3).any fun level =>
      let t := s.litTable lane (s.get LAMP_STATE_CLASS) level
      (s.slotsAt lane t.1 t.2).any fun o => match o with | .comp 17 _ => true | _ => false

/-- SRC_OK (R429). -/
def State.srcOk (s : State) : Bool :=
  (match s.mode with | .run | .ride | .service => true | .safe => s.on SVC_CFG_SAFEON | _ => false)
    && decide (s.pol TYPEC_SRCCOND_V_HBSRC ≤ s.get INPATH_VOLT_V_HB) && s.enabled PG_SVC
    && !(s.on FAULT_HOLDS_HALT && !s.on SVC_CFG_SAFEON) && s.svcComped

/-- CFG.ROLE; 3 acts as 2. -/
def State.portRole (s : State) : Nat := min 2 (s.pol TYPEC_CFG_ROLE)

/-- The state with STATE.CODE. -/
def State.setPort (s : State) (c : Nat) : State := s.put TYPEC_STATE_CODE c

/-- The current of the Rp presented, in mA. -/
def State.rpCurrent (s : State) : Nat := match s.pol TYPEC_CFG_RP with | 0 => 500 | 1 => 1500 | _ => 3000

/-- Whether an image is lit. -/
def State.imageLit (s : State) : Bool := s.litBank != 0

/-! ### The policy (R436, R437) -/

/-- The registers that the policy block loads, with their offset in it (Table 6). -/
def policyMap : List (Nat × Nat) :=
  [(0x04, PG_TYPEC * 0x400 + 0x040), (0x08, PG_TYPEC * 0x400 + 0x044), (0x0C, PG_PD * 0x400 + 0x040)]
    ++ (List.range 8).map (fun i => (0x10 + 4 * i, PG_PD * 0x400 + 0x044 + 4 * i))
    ++ (List.range 4).map fun i => (0x30 + 4 * i, PG_PD * 0x400 + 0x064 + 4 * i)

/-- The policy block is loaded at the release of device reset (R436; DEDUCED, log entry 200). -/
def State.policyLoad (s : State) : State :=
  let a := 0x27F000
  if s.load a 4 ≠ 0x4C4F5044 ∨ s.load (a + 0x40) 2 ≠ crc16 (s.bytes a 0x40) then s.err PG_TYPEC TYPEC_ERR_POLICY
  else
    policyMap.foldl
      (fun (t : State) (p : Nat × Nat) =>
        let m := match regInfo p.2 with | some r => r.rw | none => 0
        t.wr p.2 (BitVec.ofNat 32 (s.load (a + p.1) 4) &&& BitVec.ofNat 32 m)) s

/-- Voltage of a fixed PDO in 50 mV. -/
def pdoV (p : Nat) : Nat := bitsOf p 10 10

/-- Current of a fixed PDO in 10 mA. -/
def pdoI (p : Nat) : Nat := bitsOf p 0 10

/-- The valid PDOs of a list and whether an invalid one ended it; `v` is the voltage before. -/
def pdoValid : Nat → List Nat → List Nat × Bool
  | _, [] => ([], false)
  | v, p :: t =>
    if p = 0 then ([], false)
    else if p / 0x40000000 ≠ 0 ∨ pdoV p < 100 ∨ 400 < pdoV p ∨ 300 < pdoI p ∨ pdoV p ≤ v ∨ (v = 0 ∧ pdoV p ≠ 100) then ([], true)
    else let r := pdoValid (pdoV p) t; (p :: r.1, r.2)

/-- The list of source PDOs (true) or of sink PDOs, as it stands. -/
def State.pdoList (s : State) (source : Bool) : List Nat × Bool :=
  pdoValid 0 ((List.range 4).map fun k => s.get ((if source then PD_SRCPDO_PDO else PD_SNKPDO_PDO).el k))

/-- The PDOs in use: 5 V only while no image is lit (R435). -/
def State.pdosUsed (s : State) (source : Bool) : List Nat := if s.imageLit then (s.pdoList source).1 else (s.pdoList source).1.take 1

/-- An invalid PDO that a list meets sets ERR.PDO. -/
def State.pdoCheck (s : State) (source : Bool) : State := if (s.pdoList source).2 then s.err PG_PD PD_ERR_PDO else s

/-- Whether PD runs in the role held (R437, R453, R454). -/
def State.pdOn (s : State) : Bool :=
  s.portRuns && s.enabled PG_TYPEC && s.blockOn PG_PD && s.polOn PD_CFG_PD_EN
    && ((s.portCode == 5 && !(s.pdoList false).1.isEmpty) || (s.portCode == 6 && !(s.pdoList true).1.isEmpty))

/-! ### Messages -/

/-- A message is sent. -/
def State.pdSend (s : State) (m : PdMsg) : State :=
  { s with port := { s.port with sent := s.port.sent ++ [m], last := some m, retries := 0 } }

/-- What PD waits for next. -/
def State.pdStage (s : State) (x : PdStage) : State := { s with port.stage := x }

/-- A message sequence of the device's own begins: as sink with a contract only while it sees SinkTxOK, which the source's Rp of 3.0 A is;
until then it waits (R442; log entry 95). -/
def State.pdStart (s : State) (m : PdMsg) (x : PdStage) : State :=
  if s.portCode = 5 ∧ s.on PD_CONTRACT_VALID ∧ s.get TYPEC_STATE_RPSEEN ≠ 2 then { s with port.held := some (m, x) } else (s.pdSend m).pdStage x

/-- A new SVC target sets out over its handshake (R441): 10 mV, mA. -/
def State.pdTarget (s : State) (v i : Nat) : State := { s with port.target := some (v, i) }

/-- The contract is over. -/
def State.noContract (s : State) : State :=
  let s1 := (((s.put PD_CONTRACT_VALID 0).put PD_CONTRACT_POS 0).put PD_CONTRACT_V 0).put PD_CONTRACT_I 0
  (s1.put PD_CONTRACT_FIVEONLY 0).put PD_RDO_RDO 0

/-- An explicit contract is made (R439, R440): position and RDO, 50 mV, 10 mA. -/
def State.makeContract (s : State) (rdo v i : Nat) : State :=
  let s1 := (((s.put PD_CONTRACT_VALID 1).put PD_CONTRACT_POS (rdo / 0x10000000 % 8)).put PD_CONTRACT_V v).put PD_CONTRACT_I i
  let s2 := ((s1.put PD_CONTRACT_FIVEONLY (b2n (!s.imageLit))).put PD_RDO_RDO rdo).raise PG_PD PD_ST_CONTRACT
  { s2 with port := { s2.port with stage := .idle, asked := false, hrCount := 0 } }

/-- PD stops and the attach stays: default power (R434, R454). -/
def State.defaultPower (s : State) : State :=
  let s1 : State := { s.noContract with port := { s.port with stage := .idle, vdmWait := false, capsLeft := 0, held := none, asked := false } }
  if s.portCode = 6 then s1.pdTarget 500 (s.rpCurrent * 11 / 10) else s1

/-- The roles return to those of the attach (R445). -/
def State.attachRoles (s : State) : State :=
  let src := b2n (s.portCode == 6)
  (((s.put PD_CONTRACT_PROLE src).put PD_CONTRACT_DROLE src).put PD_CONTRACT_VCONNSRC src)

/-- Service lantern mode ends: SBU is opened (R452). -/
def State.lanternOff (s : State) : State := { s with port.lantern := false }.level PG_PD PD_ST_LANTERN false

/-! ### Attach, detach, ErrorRecovery -/

/-- What ends with an attach: PD, VCONN, the switches, the SVC target. -/
def State.portDrop (s : State) (c : Nat) : State :=
  let src := s.portCode == 6 || s.port.srcEn
  let s1 := (s.noContract.lanternOff).put TYPEC_STATE_VCONN 0
  let s2 := ((s1.put PD_CONTRACT_PROLE 0).put PD_CONTRACT_DROLE 0).put PD_CONTRACT_VCONNSRC 0
  let s3 := ((s2.put PD_PARTNER_FRSCUR 0).put TYPEC_STATE_RPSEEN 0).setPort c
  { (if src then s3.pdTarget 0 0 else s3) with
      port := { s.portBlank with vbusDis := src || s.port.vbusDis, sent := s.port.sent, target := if src then some (0, 0) else s.port.target, vconnOff := s.port.vconnOff } }

/-- ErrorRecovery is entered (R433): both CC pins open, SRC_EN and SNK_EN open, VBUS discharged. -/
def State.errorRecovery (s : State) : State :=
  if s.portRuns then { s.portDrop 7 with port.vbusDis := true } else s

/-- ErrorRecovery ends with VBUS below 0.8 V. -/
def State.recoveryEnd (s : State) : State :=
  if s.portCode = 7 then ({ s.setPort 0 with port.vbusDis := false }).raise PG_TYPEC TYPEC_ST_ERRREC else s

/-- A dual-role port toggles between Rp and Rd (R430); a presentation of Rp ends with it (R431). -/
def State.toggle (s : State) : State :=
  if s.portRuns && s.enabled PG_TYPEC && s.srcOk && s.portRole == 0 && decide (s.portCode ≤ 1) then
    { s.setPort (1 - s.portCode) with port.accessory := false }
  else s

/-- Attached as sink: RPSEEN 0 to 2, and whether it began on the dead-battery Rd. -/
def State.attachSink (s : State) (cc2 : Bool) (rp : Nat) (dead : Bool) : State :=
  let s1 := ((s.setPort 5).put TYPEC_STATE_ORIENT (b2n cc2)).put TYPEC_STATE_RPSEEN (min rp 2)
  let s2 := ((s1.put TYPEC_STATE_DEADBAT (b2n dead)).attachRoles).pdoCheck false
  { s2.raise PG_TYPEC TYPEC_ST_ATTACH with port := { s.portBlank with sent := s.port.sent, target := s.port.target } }

/-- Attached as source: 5.00 V and the capabilities to come (R439, R441). -/
def State.attachSource (s : State) (cc2 : Bool) : State :=
  let s1 := ((s.setPort 6).put TYPEC_STATE_ORIENT (b2n cc2)).put TYPEC_STATE_DEADBAT 0
  let s2 := (s1.attachRoles.pdoCheck true).raise PG_TYPEC TYPEC_ST_ATTACH
  { s2 with port := { s.portBlank with sent := s.port.sent, capsLeft := 50 } }.pdTarget 500 (s.rpCurrent * 11 / 10)

/-- A stable termination for tCCDebounce, or for tPDDebounce on the dead-battery Rd (R430); `v` is VBUS in 10 mV.  One that is attached as
sink sees the source's Rp as it is now; one that is attached as source is attached again after a Hard Reset (Table 8). -/
def State.attach (s : State) (cc2 : Bool) (rp v : Nat) (dead : Bool) : State :=
  if !s.portRuns || !s.enabled PG_TYPEC then s
  else
    let c := s.portCode
    let s0 := s.polTakeFree.put TYPEC_VBUS_V v
    if c = 0 ∨ c = 2 ∨ c = 4 then (if 400 < v then s0.attachSink cc2 rp dead else s0)
    else if c = 5 then s0.put TYPEC_STATE_RPSEEN (min rp 2)
    else if c = 6 then (if s.port.stage = .hrOn then s0.pdStage .idle else s0)
    else if c = 1 ∨ c = 3 then
      (if s0.polOn TYPEC_CFG_TRYSNK ∧ !s.port.tried then { s0.setPort 4 with port.tried := true } else s0.attachSource cc2)
    else s0

/-- Try.SNK ends without an attach: the port waits to attach as source. -/
def State.trySnkEnd (s : State) : State := if s.portCode = 4 then s.setPort 3 else s

/-- Whether a VBUS drop is part of what the port does itself (R430). -/
def PdStage.ownsVbus : PdStage → Bool
  | .toSnkDis | .toSnkWait | .toSrcWait | .toSrcSupply | .frsReq | .frsWait | .frsOffer | .frsDrop | .frsTake | .hrHold | .hrDis | .hrOff | .hrOn | .hrSink => true
  | _ => false

/-- A detach is judged: the termination removed, or VBUS lost as sink (R430). -/
def State.detach (s : State) (vbusLost : Bool) : State :=
  let c := s.portCode
  if !s.portRuns || !(c == 5 || c == 6 || c == 3 || c == 2 || c == 4) || (vbusLost && (c != 5 || s.port.stage.ownsVbus)) then s
  else
    let s1 := { s.portDrop 0 with port.vconnOff := false }
    if c = 5 ∨ c = 6 then s1.raise PG_TYPEC TYPEC_ST_DETACH else s1

/-- An accessory is seen while Rp is presented (R431). -/
def State.accessorySeen (s : State) : State :=
  if s.portRuns && (s.portCode == 1 || s.portCode == 3) && !s.port.accessory then { s with port.accessory := true }.raise PG_TYPEC TYPEC_ST_ACCESSORY
  else s

/-- VCONN at its limit for 1 ms (R432). -/
def State.vconnTrip (s : State) : State :=
  if s.on TYPEC_STATE_VCONN then { s.put TYPEC_STATE_VCONN 0 with port.vconnOff := true }.raise PG_TYPEC TYPEC_ST_VCONNOC else s

/-- VBUS above 22 V: both switches open (Table 11). -/
def State.vbusOver (s : State) (v : Nat) : State :=
  if s.portRuns then ({ s.put TYPEC_VBUS_V v with port := { s.port with srcEn := false, ov := true } }).err PG_TYPEC TYPEC_ERR_VBUSOV else s

/-! ### Hard Reset (R445, R446) -/

/-- The sequence of the role held, when a Hard Reset is sent or received (Table 8). -/
def State.hardReset (s : State) : State :=
  let st := s.port.stage
  let s0 := (s.noContract.lanternOff).raise PG_PD PD_ST_HARDRESET
  if s.portCode ≠ 5 ∧ s.portCode ≠ 6 then s
  else
    match st with
    | .frsReq | .frsWait | .frsOffer | .frsDrop | .frsTake => s0.errorRecovery
    | _ =>
      let code := match st with | .toSnkWait => 6 | .toSrcSupply => 5 | _ => s.portCode
      let s1 := (s0.setPort code).attachRoles
      if code = 6 then { s1 with port := { s1.port with stage := .hrHold, vdmWait := false } }.pdTarget 0 0
      else { s1 with port := { s1.port with stage := .hrSink, srcEn := false, vdmWait := false } }

/-- The device sends a Hard Reset; the third without a response is ErrorRecovery (Table 7). -/
def State.sendHardReset (s : State) : State :=
  if 2 ≤ s.port.hrCount then (s.err PG_PD PD_ERR_NORESP).errorRecovery
  else
    let s1 := (s.put PD_COUNTS_HARD (satInc 255 (s.get PD_COUNTS_HARD))).pdSend .hardReset
    { s1 with port.hrCount := s.port.hrCount + 1 }.hardReset

/-- A Hard Reset of the device's own accord: none while VBUS is its only supply (R446). -/
def State.ownHardReset (s : State) : State :=
  if s.portCode = 5 ∧ s.dev.bias = .vbus then (s.err PG_PD PD_ERR_NORESP).pdStage .idle else s.sendHardReset

/-- A Soft Reset is sent (Table 7). -/
def State.sendSoftReset (s : State) : State :=
  ((s.put PD_COUNTS_SOFT (satInc 255 (s.get PD_COUNTS_SOFT))).pdSend .softReset).pdStage .soft

/-- No GoodCRC within 1.0 ms (R438): resent twice, then Table 7; Source_Capabilities go on by R439.  A Hard Reset, which no GoodCRC answers,
is sent once more when the partner does not respond (Table 7). -/
def State.goodCrcTimeout (s : State) : State :=
  match s.port.last with
  | none => s
  | some m =>
    if s.port.retries < 2 ∧ m ≠ .hardReset then { s with port := { s.port with sent := s.port.sent ++ [m], retries := s.port.retries + 1 } }
    else
      let s1 : State := { s with port.last := none }
      match m with
      | .softReset => s1.ownHardReset
      | .hardReset => s1.ownHardReset
      | .sourceCaps _ => if (s1.port.stage = .idle ∨ s1.port.stage = .hrOn) ∧ s1.port.capsLeft ≠ 0 then s1 else s1.sendSoftReset
      | .vdm _ => (s1.raise PG_PD PD_ST_VDMTXFAIL).sendSoftReset
      | _ => s1.sendSoftReset

/-- A Soft Reset is not answered within 27 ms. -/
def State.softTimeout (s : State) : State := if s.port.stage = .soft then s.ownHardReset else s

/-- A timer of the source's Hard Reset sequence runs out (Table 8, Table 9). -/
def State.hrTimer (s : State) : State :=
  match s.port.stage with
  | .hrHold => { s with port := { s.port with stage := .hrDis, srcEn := false, vbusDis := true } }
  | .hrOff =>
    if s.srcOk then { s with port := { s.port with stage := .hrOn, capsLeft := 50 } }.pdTarget 500 (s.rpCurrent * 11 / 10) else s.errorRecovery
  | .hrOn => s.errorRecovery
  | _ => s

/-- A Hard Reset is received, where PD listens. -/
def State.hardResetRx (s : State) : State := if s.pdOn then s.hardReset else s

/-- As sink, VBUS has not returned within 1.925 s. -/
def State.hrSinkTimeout (s : State) : State := if s.port.stage = .hrSink then s.errorRecovery else s

/-! ### Contracts (R439 to R441) -/

/-- Source_Capabilities go out; `acked` tells a GoodCRC. -/
def State.capsSend (s0 : State) (acked : Bool) : State :=
  let s := if s0.portCode = 6 then s0.polTake else s0
  if s.portCode = 6 ∧ s.pdOn ∧ s.port.capsLeft ≠ 0 ∧ (s.port.stage = .idle ∨ s.port.stage = .hrOn) then
    let l := s.pdosUsed true
    let s1 := (s.pdoCheck true).pdSend (.sourceCaps l)
    { s1 with
        port := { s1.port with offered := l, capsLeft := if acked then 0 else s.port.capsLeft - 1,
                               stage := if acked ∧ s.port.stage = .hrOn then .idle else s.port.stage,
                               last := if acked then none else s1.port.last } }
  else s

/-- The source PDO to request: greatest power among those whose voltage a sink PDO has, then the lower voltage; else the 5 V one
(R440).  Answers position, current in 10 mA, voltage in 50 mV. -/
def pickPdo (caps mine : List Nat) (five : Bool) : Nat × Nat × Nat :=
  let cand := (List.range caps.length).filterMap fun k =>
    let p := nth caps k
    if p / 0x40000000 ≠ 0 then none else (mine.find? fun q => pdoV q == pdoV p).map fun q => (k + 1, min (pdoI p) (pdoI q), pdoV p)
  let best := fun (a b : Nat × Nat × Nat) =>
    if a.2.2 * a.2.1 < b.2.2 * b.2.1 then b else if a.2.2 * a.2.1 = b.2.2 * b.2.1 ∧ b.2.2 < a.2.2 then b else a
  match cand with
  | [] => (1, min (pdoI (nth caps 0)) (pdoI (nth mine 0)), 100)
  | a :: t => if five then (1, min (pdoI (nth caps 0)) (pdoI (nth mine 0)), 100) else t.foldl best a

/-- Source_Capabilities as sink: the Request (R440). -/
def State.capsRx (s0 : State) (caps : List Nat) : State :=
  let s := if s0.portCode = 5 then s0.polTake else s0
  if s.portCode ≠ 5 ∨ !s.pdOn then s
  else
    let (pos, i, v) := pickPdo caps (s.pdosUsed false) (!s.imageLit)
    let low := decide (v * i < s.pol PD_CFG_SNKMIN * 2000)
    let rdo := pos * 0x10000000 + b2n low * 0x4000000 + 0x1000000 + i * 0x400 + i
    let s1 := ((s.pdoCheck false).raiseIf low PG_PD PD_ST_MISMATCH).pdSend (.request rdo)
    { s1 with port := { s1.port with stage := .request, reqRdo := rdo, reqV := v, reqI := i, hrCount := 0 } }

/-- A Request as source: Accept with the new target, or Reject (R439, R441). -/
def State.requestRx (s : State) (rdo : Nat) : State :=
  if s.portCode ≠ 6 ∨ !s.pdOn then s
  else
    let pos := rdo / 0x10000000 % 8
    let i := bitsOf rdo 10 10
    let p := nth s.port.offered (pos - 1)
    let s0 : State := { s with port := { s.port with capsLeft := 0, hrCount := 0 } }
    if pos = 0 ∨ s.port.offered.length < pos ∨ pdoI p < i then (s0.pdSend .reject).raise PG_PD PD_ST_REJECT
    else
      let s1 := (s0.pdSend .accept).pdTarget (pdoV p * 5) (i * 11)
      { s1 with port := { s1.port with stage := .supply, reqRdo := rdo, reqV := pdoV p, reqI := i } }

/-- Get_Sink_Cap after each contract, with FRS_SNK_EN = 1 (R447). -/
def State.askSinkCap (s : State) : State := if s.polOn PD_CFG_FRS_SNK_EN then s.pdStart .getSinkCap .idle else s

/-- Whether SVC_VS stands within ±5 % of a voltage in 10 mV (R441). -/
def State.svcWithin (s : State) (v : Nat) : Bool := decide (v * 19 ≤ s.get SVC_MEAS_V * 20) && decide (s.get SVC_MEAS_V * 20 ≤ v * 21)

/-- SVC_VS has held the new voltage for 1 ms: PS_RDY (R441, R444). -/
def State.psRdySend (s : State) : State :=
  match s.port.stage with
  | .supply =>
    if s.svcWithin (s.port.reqV * 5) then ((s.pdSend .psRdy).makeContract s.port.reqRdo s.port.reqV s.port.reqI).askSinkCap else s
  | .toSrcSupply =>
    if !s.svcWithin 500 then s else
    let s1 := ((s.pdSend .psRdy).put PD_CONTRACT_PROLE 1).raise PG_PD PD_ST_SWAP
    { s1 with port := { s1.port with stage := .idle, srcEn := true, capsLeft := 50 } }
  | _ => s

/-! ### Swaps (R442 to R444) -/

/-- An agreed swap begins. -/
def State.swapGo (s : State) (k : PdSwap) : State :=
  match k with
  | .data =>
    let d := s.get PD_CONTRACT_DROLE
    let s1 := (s.put PD_CONTRACT_DROLE (1 - d)).raise PG_PD PD_ST_SWAP
    (if d = 0 then s1.lanternOff else s1).pdStage .idle
  | .vconn => ((s.put PD_CONTRACT_VCONNSRC (1 - s.get PD_CONTRACT_VCONNSRC)).raise PG_PD PD_ST_SWAP).pdStage .idle
  | .power =>
    if s.portCode = 6 then { s with port := { s.port with stage := .toSnkDis, srcEn := false, vbusDis := true } }.pdTarget 0 0
    else s.pdStage .toSrcWait

/-- Whether a swap that the partner asks for is accepted (R442). -/
def State.swapAllowed (s : State) (k : PdSwap) (vconnIn : Bool) : Bool :=
  match k with
  | .power => s.polOn PD_CFG_ACC_PRS && (s.portCode == 6 || s.srcOk)
  | .data => s.polOn PD_CFG_ACC_DRS
  | .vconn => s.polOn PD_CFG_ACC_VCS && (s.on PD_CONTRACT_VCONNSRC || vconnIn)

/-- The partner asks for a swap (R442, R443); `vconnIn` tells VCONN_IN above 4.75 V.  A transition already agreed on goes on, and the request is
answered with Wait. -/
def State.swapRx (s : State) (k : PdSwap) (vconnIn : Bool) : State :=
  if !s.pdOn then s
  else
    let own := (match s.port.stage with | .swap _ | .request | .soft => true | _ => false) || s.port.held.isSome
    if (s.portCode = 6 ∧ (s.port.stage ≠ .idle ∨ own)) ∨ (s.port.stage ≠ .idle ∧ !own) then s.pdSend .wait
    else
    let s0 := { s.raiseIf own PG_PD PD_ST_SWAPLOST with port.held := none }.pdStage .idle
    if s0.swapAllowed k vconnIn then (s0.pdSend .accept).swapGo k else (s0.pdSend .reject).raise PG_PD PD_ST_REJECT

/-- A master starts a swap. -/
def State.swapStart (s : State) (k : PdSwap) : State := if s.pdOn ∧ s.port.stage = .idle then s.pdStart (.swap k) (.swap k) else s

/-- A power swap waits too long for the partner's PS_RDY or for the SVC output (R444). -/
def State.swapTimeout (s : State) : State :=
  match s.port.stage with
  | .toSnkWait | .toSrcWait | .toSrcSupply => s.errorRecovery
  | _ => s

/-- The device is sink after a swap: no explicit contract yet. -/
def State.nowSink (s : State) : State := ((s.noContract.put PD_CONTRACT_PROLE 0).setPort 5).pdStage .idle

/-! ### Fast Role Swap (R447 to R449) -/

/-- The current in mA of a Fast Role Swap current field: default, 1.5 A, 3.0 A. -/
def frsCurrent (c : Nat) : Nat := match c with | 0 => 0 | 1 => 500 | 2 => 1500 | _ => 3000

/-- FRSARM (R447). -/
def State.frsArmed (s : State) : Bool :=
  s.polOn PD_CFG_FRS_SNK_EN && s.portCode == 5 && s.on PD_CONTRACT_VALID && s.srcOk && s.get PD_PARTNER_FRSCUR != 0

/-- The armed initial sink sees the signal. -/
def State.frsSignal (s : State) : State :=
  if s.pdOn && s.on TYPEC_STATE_FRSARM && s.port.stage == .idle then
    let s1 := s.pdSend .frSwap
    { s1 with port := { s1.port with stage := .frsReq, srcEn := true } }
  else s

/-- No Accept within 15 ms of FR_Swap. -/
def State.frsTimeout (s : State) : State := if s.port.stage = .frsReq then (s.raise PG_PD PD_ST_FRS).errorRecovery else s

/-- SRC_OK falls while the port sources or swaps to source (Table 9). -/
def State.srcOkFall (s : State) : State :=
  if s.srcOk || !s.portRuns then s
  else
    match s.port.stage with
    | .toSrcWait | .toSrcSupply => (s.raise PG_TYPEC TYPEC_ST_SRCLOST).sendHardReset
    | .hrHold | .hrDis | .hrOff | .toSnkDis | .frsOffer | .frsDrop => s
    | _ =>
      if s.portCode ≠ 6 then s
      else
        let s1 := s.raise PG_TYPEC TYPEC_ST_SRCLOST
        if s.on PD_CONTRACT_VALID && s.polOn PD_CFG_FRS_SRC_EN && s.get PD_PARTNER_FRSCUR != 0 then
          { s1 with port := { s1.port with stage := .frsOffer, srcEn := false } }
        else s1.errorRecovery

/-! ### VDMs and service lantern mode (R450, R451) -/

/-- A VDM header answered with a command type: 1 ACK, 2 NAK, 3 BUSY. -/
def vdmAnswer (hdr typ : Nat) : Nat := hdr - bitsOf hdr 6 2 * 64 + typ * 64

/-- Whether a VDM is a command of Table 10. -/
def State.lanternFor (s : State) (words : List Nat) : Bool :=
  let h := nth words 0
  s.polOn PD_CFG_LANTERN_AUTO && s.get PD_CONTRACT_DROLE == 0 && bitOf h 15 && bitsOf h 6 2 == 0 && decide (1 ≤ bitsOf h 0 5) && decide (bitsOf h 0 5 ≤ 5)

/-- The lantern responder's answer (Table 10). -/
def State.lanternAnswer (s : State) (words : List Nat) : State :=
  let h := nth words 0
  let cmd := bitsOf h 0 5
  let svid := h / 65536 % 65536
  let mine := decide (svid = s.get PD_SVID_SVID)
  let pos := bitsOf h 8 3
  let nak := s.pdSend (.vdm [vdmAnswer h 2])
  let ack := fun (t : State) (l : List Nat) => t.pdSend (.vdm (vdmAnswer h 1 :: l))
  match cmd with
  | 1 => if svid = 0xFF00 then ack s [s.get PD_IDHDR_VDO, 0, s.get PD_IDPROD_VDO] else nak
  | 2 => if svid = 0xFF00 then ack s [s.get PD_SVID_SVID * 65536] else nak
  | 3 => if mine then ack s [s.get PD_MODEVDO_VDO] else nak
  | 4 => if mine ∧ pos = 1 then { ack s [] with port.lantern := true }.level PG_PD PD_ST_LANTERN true else nak
  | _ => if mine then ack s.lanternOff [] else nak

/-- A command of Table 10 is received. -/
def State.lanternCmd (s : State) (words : List Nat) : State := if s.pdOn && s.lanternFor words then s.lanternAnswer words else s

/-- A VDM is received on SOP (R450). -/
def State.vdmRx (s : State) (words : List Nat) : State :=
  if !s.pdOn then s
  else if !bitOf (nth words 0) 15 then s.pdSend .notSupported
  else if s.lanternFor words then s.lanternAnswer words
  else if s.on PD_RXINFO_FULL then s.pdSend (.vdm [vdmAnswer (nth words 0) 3])
  else
    let s1 := (List.range 7).foldl (fun (t : State) (j : Nat) => t.put (PD_RXVDM_VDO.el j) (nth words j)) s
    let s2 := ((s1.put PD_RXINFO_FULL 1).put PD_RXINFO_COUNT (min 7 words.length)).raise PG_PD PD_ST_VDMRX
    { s2 with port.vdmWait := true }

/-- The host has not answered within 15 ms. -/
def State.vdmTimeout (s : State) : State :=
  if s.port.vdmWait && s.pdOn then { s with port.vdmWait := false }.pdSend (.vdm [vdmAnswer (s.get (PD_RXVDM_VDO.el 0)) 2]) else s

/-- The host sends TXVDM. -/
def State.vdmSend (s : State) : State :=
  if s.pdOn then
    ({ s with port.vdmWait := false }.pdSend (.vdm ((List.range 7).map fun j => s.get (PD_TXVDM_VDO.el j)))).raise PG_PD PD_ST_VDMTXDONE
  else s

/-! ### Received messages (R438) -/

/-- A received message that has no row of its own. -/
def State.pdMessage (s : State) (m : PdMsg) : State :=
  match m with
  | .accept =>
    match s.port.stage with
    | .request => s.pdStage .ready
    | .soft => { s with port := { s.port with stage := .idle, capsLeft := if s.portCode = 6 then 50 else 0 } }
    | .swap k => s.swapGo k
    | .frsReq => s.pdStage .frsWait
    | _ => s
  | .reject =>
    match s.port.stage with
    | .request | .swap _ => (s.raise PG_PD PD_ST_REJECT).pdStage .idle
    | _ => s
  | .wait =>
    match s.port.stage with
    | .request | .swap _ => s.pdStage .idle
    | _ => s
  | .psRdy =>
    match s.port.stage with
    | .ready => (s.makeContract s.port.reqRdo s.port.reqV s.port.reqI).askSinkCap
    | .toSnkWait => (s.nowSink).raise PG_PD PD_ST_SWAP
    | .toSrcWait => ((s.noContract.setPort 6).pdTarget 500 (s.rpCurrent * 11 / 10)).pdStage .toSrcSupply
    | .frsWait =>
      let s1 := (((s.noContract.setPort 6).put PD_CONTRACT_PROLE 1).pdSend .psRdy).raise PG_PD PD_ST_FRS
      { s1 with port := { s1.port with stage := .idle, capsLeft := 50 } }.pdTarget 500 (s.rpCurrent * 11 / 10)
    | .frsTake => (s.nowSink).raise PG_PD PD_ST_FRS
    | _ => s
  | .softReset => { s.pdSend .accept with port := { (s.pdSend .accept).port with stage := .idle, capsLeft := if s.portCode = 6 then 50 else 0 } }
  | .getSourceCap =>
    if (s.pdoList true).1.isEmpty then s.pdSend .notSupported else { (s.pdSend (.sourceCaps (s.pdosUsed true))) with port.offered := s.pdosUsed true }
  | .getSinkCap => if (s.pdoList false).1.isEmpty then s.pdSend .notSupported else s.pdSend (.sinkCaps (s.pdosUsed false))
  | .sinkCaps l => s.put PD_PARTNER_FRSCUR (bitsOf (nth l 0) 23 2)
  | .frSwap => if s.port.stage = .frsOffer then (s.pdSend .accept).pdStage .frsDrop else s.pdSend .reject
  | .getStatus => s.pdSend .status
  | .status => s
  | .notSupported =>
    match s.port.stage with
    | .request | .swap _ => s.pdStage .idle
    | _ => s
  | .hardReset => s.hardReset
  | .sourceCaps l => s.capsRx l
  | .request r => s.requestRx r
  | .swap k => s.swapRx k true
  | .vdm l => s.vdmRx l
  | .unsupported => s.pdSend .notSupported

/-- A message arrives whole; one whose CRC fails gets no GoodCRC and counts (R438). -/
def State.pdRx (s : State) (good : Bool) (f : State → State) : State :=
  if !s.pdOn then s
  else
    let ok := good && !s.injOn PG_PD 1
    let s0 := s.injTake PG_PD 1
    if ok then f { s0 with port := { s0.port with hrCount := 0, last := none, stage := if s0.port.stage = .hrOn then .idle else s0.port.stage } }
    else s0.put PD_COUNTS_CRCERR (satInc 255 (s0.get PD_COUNTS_CRCERR))

/-- VBUS is judged below 0.8 V or above 4.75 V; `v` in 10 mV (R430, R433, R444, R445, R448). -/
def State.vbusLevel (s : State) (v : Nat) : State :=
  if !s.portRuns then s
  else
    let s0 := s.put TYPEC_VBUS_V v
    let inj := s0.injOn PG_TYPEC 1
    let s1 := s0.injTake PG_TYPEC 1
    let low := decide (v < 80)
    if inj && s1.portCode == 5 then s1.detach true
    else
      match s1.port.stage with
      | .toSnkDis => if low then { (s1.setPort 5).pdSend .psRdy with port := { ((s1.setPort 5).pdSend .psRdy).port with stage := .toSnkWait, vbusDis := false } } else s1
      | .hrDis => if low then { s1 with port := { s1.port with stage := .hrOff, vbusDis := false } } else s1
      | .hrSink => if 475 < v then s1.pdStage .idle else s1
      | .frsDrop => if v < 550 then (((s1.setPort 5).pdSend .psRdy).pdStage .frsTake).pdTarget 0 0 else s1
      | _ => if low && s1.portCode != 7 then { s1 with port.vbusDis := false } else s1

/-! ### Commands -/

/-- A write of TYPEC.CMD (R433). -/
def State.typecCmd (s : State) (v : Nat) : State := if v / 65536 = 0x7C2E ∧ v % 4 = 1 then s.errorRecovery else s

/-- PD.CMD OP 1. -/
def State.renegotiate (s : State) : State :=
  if s.pdOn ∧ s.port.stage = .idle then
    (if s.portCode = 6 then { s.pdSend (.sourceCaps (s.pdosUsed true)) with port := { (s.pdSend (.sourceCaps (s.pdosUsed true))).port with offered := s.pdosUsed true } }
     else s.pdStart .getSourceCap .idle)
  else s

/-- A write of PD.CMD (Table 12). -/
def State.pdCmd (s : State) (v : Nat) : State :=
  if v / 65536 ≠ 0x5D3A then s
  else
    match v % 16 with
    | 1 => s.renegotiate
    | 2 => s.swapStart .power
    | 3 => s.swapStart .data
    | 4 => s.swapStart .vconn
    | 5 => if s.pdOn then s.sendHardReset else s
    | 6 => s.vdmSend
    | 7 => if s.pdOn then s.pdStart .getStatus s.port.stage else s
    | _ => s

/-- A function reset of PD sends Soft Reset if a contract stands (R454). -/
def State.pdFuncReset (s : State) : State := if s.on PD_CONTRACT_VALID && s.pdOn then s.sendSoftReset else s

/-- TYPEC or PD is disabled (R428, R454). -/
def State.portDisable (s : State) : State :=
  if !s.enabled PG_TYPEC then (if s.portCode = 0 then s else s.portDrop 0)
  else if !s.enabled PG_PD then s.lanternOff.defaultPower
  else s

/-- The policy's target reaches SVC.TARGET (R339). -/
def State.svcTargetTake (s : State) : State :=
  match s.port.target with
  | none => s
  | some (v, i) => (({ s with port.target := none }.svcTarget v i)).svcRun (v != 0)

/-! ### What follows from the state (R428 to R434) -/

/-- The current the board may draw through SNK_EN, in mA; 0 with the switch open (Table 5). -/
def State.snkLim (s : State) : Nat :=
  if s.portCode ≠ 5 ∨ s.port.ov then 0
  else
    match s.port.stage with
    | .ready | .hrSink | .toSrcWait | .toSrcSupply | .toSnkWait | .frsReq | .frsWait | .frsTake => 0
    | _ =>
      if s.on PD_CONTRACT_VALID ∧ !s.on PD_CONTRACT_PROLE then s.get PD_CONTRACT_I * 10 - 500
      else match s.get TYPEC_STATE_RPSEEN with | 0 => 0 | 1 => 1000 | _ => 2500

/-- Whether SRC_EN may close now: sourcing, with the SVC output within 4.75 V to 5.5 V (Table 4). -/
def State.srcMayClose (s : State) : Bool :=
  s.portCode == 6 && !s.port.ov && s.get SVC_STATE_CODE == 2 && decide (475 ≤ s.get SVC_MEAS_V) && decide (s.get SVC_MEAS_V ≤ 550)
    && (match s.port.stage with | .idle | .hrOn => true | _ => false)

/-- With PORT clocked: SRC_OK and FRSARM, the presentation, the switches and VCONN, SNKLIM, a hiccup while sourcing, a message sequence
that waited for SinkTxOK, an upgrade of a 5 V-only contract, and no contract without PD (R434). -/
def State.portFollow (s : State) : State :=
  let ok := s.srcOk
  let s0 := if s.on PD_CONTRACT_VALID && !s.polOn PD_CFG_PD_EN then s.defaultPower else s
  let s1 := s0.put TYPEC_STATE_SRC_OK (b2n ok)
  let c := s1.portCode
  let s2 :=
    if 1 < c then s1
    else if !s1.enabled PG_TYPEC || !ok || s1.portRole == 2 then (if c = 0 then s1 else s1.setPort 0)
    else if s1.portRole = 1 ∧ c = 0 then s1.setPort 1
    else s1
  let armed := s2.frsArmed
  let s3 :=
    if armed && !s2.on TYPEC_STATE_FRSARM then (s2.put TYPEC_STATE_FRSARM 1).pdTarget 500 (frsCurrent (s2.get PD_PARTNER_FRSCUR) * 11 / 10)
    else if !armed && s2.on TYPEC_STATE_FRSARM && s2.portCode != 6 && !s2.port.srcEn then (s2.put TYPEC_STATE_FRSARM 0).pdTarget 0 0
    else s2.put TYPEC_STATE_FRSARM (b2n armed)
  let s4 := if !s3.port.srcEn && s3.srcMayClose then { s3 with port.srcEn := true } else s3
  let vc := s4.port.srcEn && s4.on PD_CONTRACT_VCONNSRC && s4.polOn TYPEC_CFG_VCONN_EN && !s4.port.vconnOff || (s4.portCode == 5 && s4.on PD_CONTRACT_VCONNSRC && s4.polOn TYPEC_CFG_VCONN_EN && !s4.port.vconnOff)
  let s5 := (s4.put TYPEC_STATE_VCONN (b2n vc)).put PD_SNKLIM_I s4.snkLim
  let hic := s5.get SVC_STATE_CODE == 4
  let s6 : State := { s5 with port.hiccup := hic }
  let s7 := if hic && !s5.port.hiccup && s5.portCode == 6 && s5.pdOn then s6.ownHardReset else s6
  let s8 :=
    match s7.port.held with
    | none => s7
    | some h =>
      if s7.pdOn ∧ s7.port.stage = .idle then { s7 with port.held := none }.pdStart h.1 h.2 else s7
  if s8.imageLit && s8.on PD_CONTRACT_VALID && s8.on PD_CONTRACT_FIVEONLY && !s8.port.asked && s8.pdOn && s8.port.stage == .idle then
    { s8 with port.asked := true }.renegotiate
  else s8

/-- The port follows the conditions it depends on; with PORT not clocked nothing is attached (R428). -/
def State.portSync (s : State) : State :=
  if !s.portRuns then
    (if s.portCode = 0 ∧ s.port = s.polTake.portBlank then s else { (s.portDrop 0).put TYPEC_STATE_SRC_OK 0 with port := s.polTake.portBlank })
  else s.polTakeFree.portFollow

end Sys2Proof.Machine
end

