-- ==== Sys2Proof/Machine/Access.lean ====
section
/-! DEFINITION. Access to registers and memory windows (R26 to R47): the address map, writes with the effects each register gives
them, reads with the live values and the effects of reading. -/

namespace Sys2Proof.Machine

/-! ### The address map (R28) -/

/-- What stands at a local address (R28, Table 1). -/
inductive Region where
  | page
  | work
  | sched
  | attic
  | cellar
  | none
deriving DecidableEq, Repr

/-- The region of an address; `none` is unmapped. -/
def region (a : Nat) : Region :=
  if a < 0x40000 then (if pageAssigned (a / 0x400) then .page else .none)
  else if 0x100000 ≤ a ∧ a < 0x180000 then .work
  else if 0x180000 ≤ a ∧ a < 0x198000 then .sched
  else if 0x1A0000 ≤ a ∧ a < 0x1C8000 then .work
  else if 0x200000 ≤ a ∧ a < 0x280000 then .attic
  else if 0x300000 ≤ a ∧ a < 0x302000 then .cellar
  else .none

/-- An unmapped access (R30). -/
def State.unmapped (s : State) : State := s.raise PG_DEV DEV_ST_UNMAPPED

/-- Whether VDDIO bank `k` is below 0.8 V (R503). -/
def State.bankLow (s : State) (k : Nat) : Bool := bitOf s.dev.vddioLow k

/-- Whether a master's accesses reach the device now: none in device reset and CELLAR, an external one only while its island runs and no
long operation does (R45; the host buses chapter). -/
def State.accepts (s : State) (m : Master) : Bool :=
  match m with
  | .lamplighter | .preload => s.guardRuns
  | .spi | .i2c => s.portRuns && !s.busy && !s.bankLow 2
  | .debug => s.portRuns && !s.busy
  | .ring _ => s.ringRuns && !s.busy

/-! ### Function reset (R34) -/

/-- The block of a page goes to its safe-state levels in a function reset, as its chapter says. -/
def State.blockReset (s : State) (pg : Nat) : State :=
  if PG_ADC ≤ pg ∧ pg < PG_ADC + 4 then s.adcReset (Fin.ofNat 4 (pg - PG_ADC))
  else if pg = PG_CMP then s.cmpReset
  else if PG_SLINK ≤ pg ∧ pg < PG_SLINK + 16 then s.linkFuncReset (Fin.ofNat 16 (pg - PG_SLINK))
  else if pg = PG_HEALTH then (List.finRange 16).foldl (fun (t : State) (n : Fin 16) => t.overlayCheck n) s.healthReset
  else if PG_BAL ≤ pg ∧ pg < PG_BAL + 16 then s.balFuncReset (Fin.ofNat 16 (pg - PG_BAL))
  else if pg = PG_DISPATCH then s.hbReset
  else if pg = PG_INPATH then s.inpReset
  else if pg = PG_PACK then s.packReset
  else if pg = PG_FEEDS then s.feedsReset
  else if pg = PG_SVC then s.svcStop
  else if PG_IBC ≤ pg ∧ pg ≤ PG_LDO then s.railPageOff pg true
  else if pg = PG_EVQ then s.evqFuncReset
  else if pg = PG_I2CC then { s.put I2CC_STATE_BUSY 0 with bus.clearOnly := false, bus.ccOut := [] }
  else if pg = PG_TYPEC then s.errorRecovery
  else if pg = PG_PD then s.pdFuncReset
  else if pg = PG_RING then s.ringFuncReset
  else s

/-- The registers of a page in domain FR return to their reset values. -/
def State.clearFR (s : State) (pg : Nat) : State :=
  { s with regs := s.regs.filter fun e => !(e.1 / 0x400 == pg && regDom e.1 == .fr) }

/-- CTRL.FRESET of a page. -/
def fresetFld (pg : Nat) : Fld := ⟨pg, hdrCTRL, 0, 1, 1⟩

/-- A function reset begins; the pages of R35 take none. -/
def State.funcReset (s : State) (pg : Nat) : State :=
  if alwaysEnabled pg || !pageAssigned pg then s
  else
    let s1 : State := { (s.clearFR pg).put (fresetFld pg) 1 with dev.freset := pg :: s.dev.freset.filter fun p => p != pg }
    s1.blockReset pg

/-- What a page's CTRL.ENABLE as it stands does at once. -/
def State.enableSync (s : State) (pg : Nat) : State :=
  if PG_BAL ≤ pg ∧ pg < PG_BAL + 16 then (if s.enabled pg then s.balStand (Fin.ofNat 16 (pg - PG_BAL)) else s.balStop (Fin.ofNat 16 (pg - PG_BAL)) true)
  else if pg = PG_DISPATCH then (if s.enabled pg then s else s.put DISPATCH_INCAP_SHEDLVL 0)
  else if pg = PG_INPATH then s.inpEnable
  else if pg = PG_PACK then (if s.enabled pg then s else s.packRows)
  else if pg = PG_FEEDS then (if s.enabled pg then s.feedsEnable else s.feedsOff)
  else if pg = PG_SVC then s.svcRun s.svc.on
  else if PG_IBC ≤ pg ∧ pg ≤ PG_LDO then (if s.enabled pg then s else s.railPageOff pg false)
  else if pg = PG_THERM then (if s.enabled pg then s else s.throttleJudge)
  else if pg = PG_EVQ then (s.irqSync false).irqSync true
  else if pg = PG_TYPEC ∨ pg = PG_PD then s.portDisable
  else s

/-- A function reset completes: the block starts again under ENABLE; rails wait for the next RISE (R34, R341). -/
def State.funcResetDone (s : State) (pg : Nat) : State :=
  if s.dev.freset.contains pg then
    let s1 : State := { s.put (fresetFld pg) 0 with dev.freset := s.dev.freset.filter fun p => p != pg }
    let s2 := if PG_ADC ≤ pg ∧ pg < PG_ADC + 4 then s1.adcResetDone (Fin.ofNat 4 (pg - PG_ADC)) else s1
    if s2.enabled pg then s2.enableSync pg else s2
  else s

/-- PERTn is written with START: the tone starts, if it is valid, and the START reaches the channel, where an overlay that runs ends
(R220, R247). -/
def State.toneWrite (s : State) (n : Fin 16) : State :=
  let t := s.toneStart n
  if t.get (HEALTH_PERTN_STATE.el n) = 1 then t.overlayRequest n else t.overlayEnd n

/-! ### The I²C controller (R423, R424) -/

/-- The bytes a transfer puts on the controller's bus: the address and WRLEN bytes of TX0 to TX3, byte 0 first, then the address again to read
(R423). -/
def State.i2ccBytes (s : State) : List Nat :=
  let t := s.get I2CC_XFER_TARGET * 2
  let n := min 16 (s.get I2CC_XFER_WRLEN)
  let w := (List.range n).map fun i => (s.rd (PG_I2CC * 0x400 + 0x4C + i / 4 * 4)).toNat / 256 ^ (i % 4) % 256
  if s.get I2CC_XFER_RDLEN = 0 then t :: w else if n = 0 then [t + 1] else t :: w ++ [t + 1]

/-- XFER.GO: a transfer starts, or is ignored while one runs. -/
def State.i2ccGo (s : State) : State :=
  if s.on I2CC_STATE_BUSY then s.raise PG_I2CC I2CC_ST_REJ else { s.put I2CC_STATE_BUSY 1 with bus.clearOnly := false, bus.ccOut := s.i2ccBytes }

/-- XFER.CLEAR: a bus clear starts. -/
def State.i2ccClear (s : State) : State := if s.on I2CC_STATE_BUSY then s else { s.put I2CC_STATE_BUSY 1 with bus.clearOnly := true, bus.ccOut := [] }

/-! ### The watchdog's count -/

/-- The watchdog's count now: ticks since the last event that stamped it are not the model's (log entry 31). -/
def State.wdogNow (s : State) : Nat :=
  if s.wdogCounting && s.wdog.window then min (s.wdogClose - 1) (s.wdog.count + Config.wdogTicks s.fresh) else s.wdog.count

/-! ### Writes -/

/-- Block registers whose write acts beside or in place of storing bits, by page and offset. -/
def actsOnWrite (pg off : Nat) : Bool :=
  if pg = PG_DEV then off == 0x48 || off == 0x50 || off == 0x54
  else if pg = PG_LAMP then off == 0x50 || off == 0x60 || off == 0x68 || (decide (0x70 ≤ off) && decide (off < 0x88)) || off == 0xA4
  else if pg = PG_IMAGE ∨ pg = PG_ATTIC ∨ pg = PG_OCV then off == 0x40
  else if PG_ADC ≤ pg ∧ pg < PG_ADC + 4 then off == 0x50 || off == 0x58
  else if PG_SLINK ≤ pg ∧ pg < PG_SLINK + 16 then off == 0x4C || off == 0x6C || off == 0x74
  else if pg = PG_EST then off == 0x64
  else if pg = PG_HEALTH then off == 0x78
  else if PG_BAL ≤ pg ∧ pg < PG_BAL + 16 then off == 0xC8
  else if pg = PG_INPATH then off == 0x90
  else if pg = PG_PACK then off == 0xB0 || off == 0xD4
  else if pg = PG_FEEDS then off == 0x60 || (decide (0x9C ≤ off) && decide (off < 0x180) && off % 0x20 == 0x1C)
  else if pg = PG_THERM then off == 0x44
  else if pg = PG_FAULT then off == 0x64 || off == 0x68
  else if pg = PG_WDOG then off == 0x60 || off == 0x64
  else if pg = PG_RTC then off == 0x50
  else if pg = PG_CELLAR then off == 0x40
  else if pg = PG_EVQ then off == 0x70 || off == 0x74 || off == 0x80
  else if pg = PG_SPI then off == 0x40
  else if pg = PG_I2CT then off == 0x44
  else if pg = PG_TYPEC then off == 0x48
  else if pg = PG_PD then off == 0x84 || off == 0xDC || off == 0xE0
  else if pg = PG_RING then off == 0x58 || off == 0x8C
  else false

/-- Whether a write reaches something at a register: stored bits, bits a 1 clears, or an action.  RO registers take none (R43), and
BALn.VHBCAL exists on BAL0 alone (R257). -/
def writable (pg off : Nat) (r : RegInfo) : Bool :=
  if off = hdrCTRL then !alwaysEnabled pg
  else if off = hdrCOLLIDE then true
  else if PG_BAL < pg ∧ pg < PG_BAL + 16 ∧ off = 0x78 then false
  else r.rw != 0 || r.w1c != 0 || actsOnWrite pg off

/-- The value a plain write leaves: stored bits taken over, bits written 1 cleared. -/
def storeWord (r : RegInfo) (old v : Word) : Word :=
  ((old &&& ~~~(BitVec.ofNat 32 r.rw)) ||| (v &&& BitVec.ofNat 32 r.rw)) &&& ~~~(v &&& BitVec.ofNat 32 r.w1c)

/-- A count register of a page: CLR sets it to 0. -/
def State.countsClr (s : State) (a : Nat) (v : Word) : State := if bitOf v.toNat 31 then s.wr a 0 else s

/-- A write to a header register of a page (Table 4). -/
def State.headerWrite (s : State) (pg off : Nat) (v : Word) : State :=
  if off = hdrCTRL then
    let s1 := (s.put ⟨pg, hdrCTRL, 0, 0, 1⟩ (v.toNat % 2)).enableSync pg
    if bitOf v.toNat 1 then s1.funcReset pg else s1
  else if off = hdrSTATUS then s.statusW1C pg v 0
  else if off = hdrERR then s.errW1C pg v
  else if off = hdrERR_INJ then
    (let u := (s.injWrite pg v.toNat).lineInject
     if pg = PG_CMP then u.cmpInject else u)
  else if off = hdrCOLLIDE then (if bitOf v.toNat 31 then s.wr (hdrAddr pg hdrCOLLIDE) 0 else s)
  else s.wr (hdrAddr pg off) v

/-- A write to a DEV, LAMP, IMAGE or ATTIC register, after its plain bits are stored. -/
def State.storePages (s : State) (pg off : Nat) (v : Word) : State :=
  let n := v.toNat
  let a := hdrAddr pg off
  if pg = PG_DEV then
    (if off = 0x48 then s.modeReq (n / 0x10000) (n % 8) (fun _ => false)
     else if off = 0x50 then (if n / 0x10000 = 0x5E7D then s.deviceReset 3 else s)
     else if off = 0x54 then s.powerCycle n else s)
  else if pg = PG_LAMP then
    (if off = 0x50 then s.relightCmd n
     else if off = 0x60 then (if bitOf n 31 then s.put LAMP_LOCK_INFO_LANES 0 else s)
     else if off = 0x68 then s.countsClr a v
     else if 0x70 ≤ off ∧ off < 0x88 then (if bitOf n 31 then s.wr a 0xFFFFFF else s)
     else if off = 0xA4 then s.budgetWrite n else s)
  else if pg = PG_IMAGE then (if off = 0x40 then s.imageCmd (n / 0x10000) (bitsOf n 4 2) (n % 16) else s)
  else if pg = PG_ATTIC then (if off = 0x40 then s.atticCmd (n / 0x10000) (n % 16) else s)
  else if pg = PG_OCV then (if off = 0x40 then s.ocvCmd (n / 0x10000) (bitsOf n 4 2) (n % 8) else s)
  else if pg = PG_EST then
    (if off = 0x64 ∧ n / 0x10000 = 0x57C1 then
       (match n % 16 with | 1 => s.clearStart none | 2 => s.clearStart (some (Fin.ofNat 16 (bitsOf n 4 4))) | _ => s)
     else if 0x80 ≤ off ∧ off < 0xC0 then
       let k : Fin 16 := Fin.ofNat 16 ((off - 0x80) / 4)
       (s.fallbackDue k).restRequest k
     else s)
  else if pg = PG_HEALTH then
    (if off = 0x78 ∧ n / 0x10000 = 0x4EA1 then
       (match n % 16 with | 1 => s.flushStart none | 2 => s.flushStart (some (bitsOf n 10 4, bitsOf n 4 6)) | _ => s)
     else if 0x180 ≤ off ∧ off < 0x1C0 ∧ bitOf n 31 then s.toneWrite (Fin.ofNat 16 ((off - 0x180) / 4))
     else if off = 0x40 ∨ off = 0x60 then s.restRequests
     else s)
  else s

/-- A write to an ADC, CMP or SLINK register; `old` is the register's value before. -/
def State.samplePages (s : State) (pg off : Nat) (old v : Word) : State :=
  let n := v.toNat
  let a := hdrAddr pg off
  if PG_ADC ≤ pg ∧ pg < PG_ADC + 4 then
    let b : Fin 4 := Fin.ofNat 4 (pg - PG_ADC)
    if off = 0x48 then (if bitOf n 1 then s.calSweep else s)
    else if off = 0x50 then s.swTrig b n
    else if off = 0x58 then (if bitOf n 31 then s.put (adcF ADC_FIFO_STAT_DROPS b) 0 else s)
    else if off = 0x5C then s.setFifo b (if bitOf n 31 then [] else (s.bank b).fifo)
    else if 0x100 ≤ off ∧ off < 0x300 then
      s.entryWritten b off old
    else s
  else if pg = PG_CMP then
    (if off = 0xC4 then s.holdWrite n
     else if 0x40 ≤ off ∧ off < 0xC0 then s.tcfgWritten ((off - 0x40) / 4) old.toNat
     else if 0x100 ≤ off ∧ off < 0x140 then s.wcfgWritten (Fin.ofNat 16 ((off - 0x100) / 4)) old.toNat (s.rd a).toNat else s)
  else if PG_SLINK ≤ pg ∧ pg < PG_SLINK + 16 then
    let k : Fin 16 := Fin.ofNat 16 (pg - PG_SLINK)
    if off = 0x40 then s.syncReach k
    else if off = 0x4C then (s.linkCmd k n).afterLink k
    else if off = 0x6C then (s.selOvr k n).afterLink k
    else if off = 0x74 then s.countsClr a v else s
  else s

/-- A write to a register of the power pages. -/
def State.powerPages (s : State) (pg off : Nat) (v : Word) : State :=
  let n := v.toNat
  let a := hdrAddr pg off
  if PG_BAL ≤ pg ∧ pg < PG_BAL + 16 then
    let k : Fin 16 := Fin.ofNat 16 (pg - PG_BAL)
    (if off = 0xC8 then s.countsClr a v else if off = 0x40 then s.overlayCheck k else if off = 0x88 then s.busovSync k else s)
  else if pg = PG_INPATH then (if off = 0x90 then s.countsClr a v else s)
  else if pg = PG_PACK then (if off = 0xB0 then s.packCmd n else if off = 0xD4 then s.countsClr a v else s)
  else if pg = PG_FEEDS then
    (if off = 0x60 then s.feedsCmd n
     else if 0x80 ≤ off ∧ off < 0x180 ∧ off % 0x20 = 0x1C then s.countsClr a v
     else if 0x80 ≤ off ∧ off < 0x180 ∧ off % 0x20 = 0 then
       let k : Fin 8 := Fin.ofNat 8 ((off - 0x80) / 0x20)
       (if s.feedEnabled k then s.feedEnable k else s.feedOff k)
     else s)
  else if pg = PG_SVC then (if off = 0x40 then s.svcRun s.svc.on else s)
  else if pg = PG_SEQ then
    (if off = 0x68 then s.resetLevels else if off = SEQ_RAIL_ORDER.off then s.put SEQ_RAIL_ORDER 0 else s)
  else s

/-- A write to a register of the GUARD, CELLAR, STORE and PORT pages that watch and report. -/
def State.guardPages (s : State) (pg off : Nat) (v : Word) : State :=
  let n := v.toNat
  let a := hdrAddr pg off
  if pg = PG_THERM then
    (if off = 0x44 then (if bitOf n 0 && !s.dev.freset.contains PG_THERM then s.throttleJudge else s)
     else if off = 0x40 then s.level PG_THERM THERM_ST_THRMAX (s.get THERM_LEVEL_TD == s.tdMax)
     else if 0x90 ≤ off ∧ off < 0xB0 then s.auxModes else s)
  else if pg = PG_FAULT then
    (if off = 0x60 then (if bitOf n 31 then s.put FAULT_CFG_LOCK 1 else s)
     else if off = 0x64 then s.raiseWrite n
     else if off = 0x68 then s.countsClr a v else s)
  else if pg = PG_WDOG then
    (if off = 0x60 then s.tickFresh.wdogService n s.wdogNow
     else if off = 0x64 then s.tickFresh.wdogCheckin (n % 0x10000) s.wdogNow else s)
  else if pg = PG_RTC then (if off = 0x50 then s.rtcCmd n else s)
  else if pg = PG_CELLAR then
    (if off = 0x40 then
       (if bitOf n 1 then s.pwronRelease (bitOf n 0) else if bitOf n 0 then s.pwronSet else s)
     else s)
  else if pg = PG_EVQ then
    (if off = 0x40 then s.irqSync false
     else if off = 0x44 then s.irqSync true
     else if off = 0x70 then s.countsClr a v
     else if off = 0x74 then s.evqDone (n % 0x400)
     else if off = 0x80 then (if bitOf n 31 then s.put EVQ_HOLD_LOST 0 else s) else s)
  else if pg = PG_SPI then (if off = 0x40 then s.countsClr a v else s)
  else if pg = PG_I2CT then (if off = 0x44 then s.countsClr a v else s)
  else if pg = PG_I2CC then
    (if off = 0x44 then (if bitOf n 31 then s.i2ccGo else if bitOf n 30 then s.i2ccClear else s) else s)
  else if pg = PG_TYPEC then (if off = 0x48 then s.typecCmd n else s)
  else if pg = PG_PD then
    (if off = 0x84 then s.pdCmd n
     else if off = 0xDC then (if bitOf n 4 then s.wr a 0 else s)
     else if off = 0xE0 then s.countsClr a v else s)
  else if pg = PG_RING then (if off = 0x58 then s.ringCmd n else if off = 0x8C then s.countsClr a v else s)
  else s

/-- The effect of a write on a block register: its plain bits are stored, then its action runs.  CMP.HOLD, the FAULT status words and
classes, the watchdog's configuration and the read pointers store by rules of their own. -/
def State.blockWrite (s : State) (pg off : Nat) (r : RegInfo) (v : Word) : State :=
  let a := hdrAddr pg off
  if pg = PG_FAULT ∧ (off = 0x40 ∨ off = 0x44) then s.faultClear (off == 0x44) v.toNat []
  else if pg = PG_FAULT ∧ 0x80 ≤ off then s.classWrite ((off - 0x80) / 4) v.toNat
  else if pg = PG_WDOG ∧ off < 0x60 then s.wdogConfig a (v &&& BitVec.ofNat 32 r.rw)
  else if pg = PG_EVQ ∧ (off = 0x58 ∨ off = 0x60) then s.rptrWrite (off == 0x60) v.toNat
  else if pg = PG_CMP ∧ off = 0xC4 then s.holdWrite v.toNat
  else
    let old := s.rd a
    let s1 := s.wr a (storeWord r old v)
    if pg ≤ PG_ATTIC ∨ (PG_EST ≤ pg ∧ pg ≤ PG_HEALTH) then s1.storePages pg off v
    else if pg < PG_EST then s1.samplePages pg off old v
    else if pg ≤ PG_SEQ then s1.powerPages pg off v
    else s1.guardPages pg off v

/-- Whether a register is read-only by a lock now: the watchdog's configuration once it is on (R388, Table 3), the classes under CFG.LOCK (R360).
A write of it is one to an RO register (R43). -/
def State.lockedNow (s : State) (pg off : Nat) : Bool :=
  (pg == PG_WDOG && decide (0x40 ≤ off) && decide (off < 0x60) && s.wdog.on) || (pg == PG_FAULT && decide (0x80 ≤ off) && s.on FAULT_CFG_LOCK)

/-- A write of a master to a register (R32, R41, R43): the lamplighter and the preload write /L registers only, and a schedule write during
the page's function reset is discarded. -/
def State.regWrite (s : State) (m : Master) (a : Nat) (r : RegInfo) (v : Word) : State :=
  let pg := a / 0x400
  let off := a % 0x400
  let own := m == .lamplighter || m == .preload
  if !writable pg off r || (own && !r.lck) || (m == .lamplighter && s.dev.freset.contains pg) then s
  else
    let s1 := if s.lockedNow pg off then s else s.noteWrite m pg
    if off < 0x40 then s1.headerWrite pg off v else s1.blockWrite pg off r v

/-- A write of a master to a word of memory (R29, Table 2), with what it does to the schedule and to an OCV set. -/
def State.memWrite (s : State) (a : Nat) (v : Word) : State :=
  let s1 := s.store a 4 v.toNat
  if 0x180000 ≤ a ∧ a < 0x198000 then s1.storeEdited a
  else if 0x1A4000 ≤ a ∧ a < 0x1AD000 then s1.ocvEdit ((a - 0x1A4000) / 0x2400)
  else s1

/-- A write of one word by a master (R26 to R32). -/
def State.writeWord (s : State) (m : Master) (a : Nat) (v : Word) : State :=
  if a % 4 ≠ 0 then s.unmapped
  else
    match region a with
    | .page => (match regInfo a with | some r => s.regWrite m a r v | none => s)
    | .attic => s.raise PG_ATTIC ATTIC_ST_DIRWR
    | .none => s.unmapped
    | .work => if m = .preload then s else s.memWrite a v
    | .sched | .cellar => if m = .preload ∨ m = .lamplighter then s else s.memWrite a v

/-- The words of a burst, in address order; a word that starts a long operation ends it, and the Bool says so (R414). -/
def State.writeWords (s : State) (m : Master) (a : Nat) : List Word → State × Bool
  | [] => (s, false)
  | v :: t =>
    let s1 := s.writeWord m a v
    if s1.busy && !t.isEmpty then (s1, true) else State.writeWords s1 m (a + 4) t

/-! ### Reads -/

/-- The value a register shows, where it is not the stored one: live values and the copy of the master that reads. -/
def State.shown (s : State) (m : Master) (a : Nat) : Nat :=
  let v := (s.rd a).toNat
  let k := masterId m
  if a = DEV_PART_PART.addr then 0x1640B100 + Config.grade
  else if a = DEV_MODE_CODE.addr then v / 8 * 8 + s.mode.code
  else if a = DEV_BOOTSEL_STRAP.addr then v % 4 + b2n s.dev.strapImg * 256
  else if a = DEV_RMT_STAT_STATE.addr then
    let c := s.rmtOf k
    c.state * 2 ^ 30 + c.outcome * 2 ^ 28 + c.count * 2 ^ 16 + c.dev % 512
  else if 0x100 ≤ a ∧ a < 0x200 then nth (s.rmtOf k).words ((a - 0x100) / 4)
  else if a = LAMP_STATE_WARM_OK.addr then putBit v 10 (s.warmOk (3 - s.litBank))
  else if a = PG_FAULT * 0x400 + 0x48 then s.activeWord 0
  else if a = PG_FAULT * 0x400 + 0x4C then s.activeWord 1
  else if a = WDOG_STATE_COUNT.addr then
    b2n (s.wdog.first && s.wdog.window) * 2 ^ 18 + b2n s.wdogCounting * 2 ^ 17 + b2n s.wdog.on * 2 ^ 16 + s.wdogNow
  else if a = WDOG_TASKCNT0_Ct.addr then (List.range 8).foldl (fun (x : Nat) (i : Nat) => x + nth s.wdog.checkins i * 16 ^ i) 0
  else if a = WDOG_TASKCNT1_Ct.addr then (List.range 8).foldl (fun (x : Nat) (i : Nat) => x + nth s.wdog.checkins (8 + i) * 16 ^ i) 0
  else if a = EST_XSTAT_FALLBACK.addr then s.xstat
  else if PG_BAL * 0x400 ≤ a ∧ a < (PG_BAL + 16) * 0x400 ∧ a % 0x400 = 0x98 ∧ !(s.bs (Fin.ofNat 16 (a / 0x400 - PG_BAL))).refs then
    v / 2 ^ 18 * 2 ^ 18 + v % 2 ^ 16
  else if a = RTC_SRC_FROZEN.addr then putBit v 1 (s.frozenOf k).isSome
  else if a = CELLAR_SUPPLY_ONBIAS.addr then putBit v 0 (s.dev.bias != .none)
  else if a = EVQ_SRCSTATE_STATE.addr then s.srcCode
  else if a = I2CC_XFER_GO.addr then putBit v 31 (s.on I2CC_STATE_BUSY)
  else if a = RING_PTIME_NS_NS.addr then s.plantNs
  else if PG_SLINK * 0x400 ≤ a ∧ a < (PG_SLINK + 16) * 0x400 ∧ a % 0x400 = 0x58 then
    nodeBits ((List.range 32).filter (s.nodeValid (Fin.ofNat 16 (a / 0x400 - PG_SLINK)))) 0 32
  else if PG_SLINK * 0x400 ≤ a ∧ a < (PG_SLINK + 16) * 0x400 ∧ a % 0x400 = 0x5C then
    v / 0x10000 % 512 * 0x10000 + nodeBits ((List.range 41).filter (s.nodeValid (Fin.ofNat 16 (a / 0x400 - PG_SLINK)))) 32 9
  else v

/-- Whether a read takes a free value, so that the next one is another. -/
def freshRead (a : Nat) : Bool := a == WDOG_STATE_COUNT.addr || a == RING_PTIME_NS_NS.addr

/-- A host access to a shelf, by any master but the lamplighter (R404). -/
def State.shelfTouch (s : State) (m : Master) (b : Bool) : State := if m = .lamplighter then s else s.hostAccess b

/-- The effect of reading a register, with the value read: FIFO_DATA, BUDGET_DATA, the RTC's set, WCAPn_HI, SRCSTATE, STATEx. -/
def State.readEffect (s : State) (m : Master) (a : Nat) : Nat × State :=
  let pg := a / 0x400
  let off := a % 0x400
  if PG_ADC ≤ pg ∧ pg < PG_ADC + 4 ∧ off = 0x54 then s.fifoPop (Fin.ofNat 4 (pg - PG_ADC))
  else if a = LAMP_BUDGET_DATA_D.addr then s.budgetRead
  else if a = PG_RTC * 0x400 + 0x40 then s.tickLo (masterId m)
  else if a = PG_RTC * 0x400 + 0x44 then s.tickHi (masterId m)
  else if pg = PG_CMP ∧ 0x1C0 ≤ off ∧ off < 0x240 ∧ off % 8 = 4 then (s.shown m a, s.wr a (s.rd a &&& 0x7FFFFFFF))
  else if a = EVQ_SRCSTATE_STATE.addr then (s.srcRead.shown m a, s.srcRead)
  else if a = EVQ_STATEA_COUNT.addr then (s.shown m a, s.shelfTouch m false)
  else if a = EVQ_STATEB_COUNT.addr then (s.shown m a, s.shelfTouch m true)
  else (s.shown m a, if freshRead a then s.tickFresh else s)

/-- Whether a register carries parity: those that hold written or latched state, not live values nor measurement results (R38). -/
def hasParity (a : Nat) (r : RegInfo) : Bool :=
  r.dom != .live && !(decide (PG_ADC ≤ a / 0x400) && decide (a / 0x400 < PG_ADC + 4) && decide (0x300 ≤ a % 0x400))

/-- A read checks the register's parity; an injected check reports an error and the value stands (R38, R39, R372). -/
def State.parityCheck (s : State) (pg : Nat) : State := if s.injOn pg 0 then (s.injTake pg 0).errI pg 0 true else s

/-- A read of one word by a master, with the state after it (R30, R32). -/
def State.readWord (s : State) (m : Master) (a : Nat) : Nat × State :=
  if a % 4 ≠ 0 then (0, s.unmapped)
  else
    match region a with
    | .none => (0, s.unmapped)
    | .page =>
      (match regInfo a with
       | none => (0, s)
       | some r =>
         let x := s.readEffect m a
         (x.1, if hasParity a r then x.2.parityCheck (a / 0x400) else x.2))
    | _ =>
      (s.load a 4,
        if 0x1A0000 ≤ a ∧ a < 0x1A4000 then s.shelfTouch m (decide (0x1A2000 ≤ a)) else s)

/-- `n` words from an address, one after the other (R26). -/
def State.readEach (s : State) (m : Master) (a : Nat) : Nat → List Nat × State
  | 0 => ([], s)
  | n + 1 =>
    let x := s.readWord m a
    let y := State.readEach x.2 m (a + 4) n
    (x.1 :: y.1, y.2)

/-- `n` words from one address, as a burst that starts at FIFO_DATA takes them. -/
def State.readSame (s : State) (m : Master) (a : Nat) : Nat → List Nat × State
  | 0 => ([], s)
  | n + 1 =>
    let x := s.readWord m a
    let y := State.readSame x.2 m a n
    (x.1 :: y.1, y.2)

/-- A burst of `n` words.  One that starts at FIFO_DATA takes every data word from the FIFO (R117 over R26; DEDUCED, log entry 171).  Within
one register page no update reaches its words before it has ended, so every word reads as it stood at the first, and what reading does is done
then (R44). -/
def State.readWords (s : State) (m : Master) (a n : Nat) : List Nat × State :=
  if PG_ADC ≤ a / 0x400 ∧ a / 0x400 < PG_ADC + 4 ∧ a % 0x400 = 0x54 then s.readSame m a n
  else
  let y := s.readEach m a n
  if a < 0x40000 ∧ a / 0x400 = (a + 4 * (n - 1)) / 0x400 then ((List.range n).map fun k => (s.readWord m (a + 4 * k)).1, y.2) else y

/-- The registers of a page that carry parity, the header's eight among them (R38; log entry 102). -/
def parityRegs (pg : Nat) : Nat :=
  match pageRegs pg with
  | some (first, l) => l.foldl (fun (n : Nat) (r : RegInfo) => if hasParity (first * 0x400 + r.off) r then n + r.count else n) 8
  | none => 0

/-- Whether the island of a page is clocked (R21, R22): GUARD and CELLAR while they run, RAIL from row B of RISE and in HIBERNATE while rails are
kept, PORT and RING with their accesses, the others with the PLL. -/
def State.pageClocked (s : State) (pg : Nat) : Bool :=
  let i := pageIsland pg
  if i = 8 then true
  else if i = 5 then s.guardRuns
  else if i = 4 then s.guardRuns && (s.mode != .hibernate || s.dev.pll || s.seq.keep != 0)
  else if i = 6 ∨ i = 7 then s.portRuns
  else s.dev.pll

/-- The parity scan of a round checks each such register once on the pages whose island is clocked: the injected checks of a page report its error and
COUNT counts them down (R38, R372). -/
def State.parityScan (s : State) : State :=
  (List.range 0x61).foldl
    (fun (t : State) (pg : Nat) =>
      if pageAssigned pg && s.pageClocked pg && t.injOn pg 0 then
        (t.wr (hdrAddr pg hdrERR_INJ)
          (t.rd (hdrAddr pg hdrERR_INJ) - BitVec.ofNat 32 (min (bitsOf (t.hdr pg hdrERR_INJ) 0 4) (parityRegs pg)))).errI pg 0 true
      else t) s

end Sys2Proof.Machine
end

