-- ==== Sys2Proof/Machine/RingFrames.lean ====
section
/-! DEFINITION. Frames of the plant ring at a device: forwarding, the device's own frames, what a target does (R459 to R466, R475, R476, R481),
and the transmit queue. -/

namespace Sys2Proof.Machine

/-- Whether a frame is one of the device's own that has come back: by its number, the head's ENUM by its TAG (R460, R466). -/
def State.frameOwn (s : State) (f : RingFrame) : Bool :=
  if f.typ = 1 then s.isHead && s.ring.tags.contains (f.tag % 32) else s.hasNum && !f.unasg && f.src == s.devNum

/-- A frame of the device's own is back and leaves the ring. -/
def State.frameBack (s : State) (w : Bool) (f : RingFrame) (good : Bool) : State :=
  if !good then s else if f.typ = 1 then s.enumBack w f else if f.typ = 3 then s.readBack f else s

/-- A frame goes on, out of the opposite port, or turned out of the port it came in where that one is down (R460, R463). -/
def State.frameOn (s : State) (w : Bool) (f : RingFrame) (eofb : Bool) : State :=
  if s.portUp (!w) then s.emit (!w) (.frame f eofb)
  else if s.portUp w then s.emit w (.frame { f with turned := true } eofb)
  else s

/-- Whether a WRITE or READ is this device's to act on (R475). -/
def State.frameTarget (s : State) (f : RingFrame) : Bool :=
  s.hasNum && (f.typ == 2 || f.typ == 3) && ((f.typ == 2 && f.bc) || (!f.bc && f.dst == s.devNum))

/-- A RESP of this device to a frame. -/
def State.respond (s : State) (f : RingFrame) (outcome : Nat) (words : List Nat) : State :=
  s.ringQueue ⟨{ s.ownFrame 4 0 f.src f.addr words with tag := f.tag, outcome := outcome }, none, none⟩

/-- A WRITE or READ at its target (Table 8). -/
def State.frameServe (s : State) (f : RingFrame) : State :=
  if !s.blockOn PG_RING then s
  else if s.busy then (if f.bc then s else s.respond f 1 [])
  else if f.typ = 2 then (s.writeWords (.ring f.src) f.addr (f.payload.map (BitVec.ofNat 32))).1
  else
    let x := s.readWords (.ring f.src) f.addr (min 64 f.rcount)
    x.2.respond f 0 x.1

/-- What a device does with a good frame that is not its own (R460, R464, R469, R475, R476, R481); `ns` is its plant time at the SOF. -/
def State.frameAct (s : State) (w : Bool) (f : RingFrame) (ns : Nat) : State :=
  if f.turned ∨ !s.hasNum then s
  else if s.frameTarget f then s.frameServe f
  else
    match f.typ with
    | 4 => if f.dst = s.devNum then s.respRx f else s
    | 5 =>
      if !s.isHead && s.on RING_CFG_TIMEEN then s.epochTake w (nth f.payload 0) (nth f.payload 1) (nth f.payload 2 % 1024) ns else s
    | 6 => if s.isHead ∧ f.dst = s.devNum then s.summaryStore f.src f.payload else s
    | 7 => s.breakAt (bitOf (nth f.payload 0) 16) (nth f.payload 0 % 512)
    | _ => s

/-- What a device rewrites in a frame it forwards: HOPS, CORR by the delay of the hop it came in by and the residence (R469), CLAIMED (R476). -/
def State.frameRewrite (s : State) (w : Bool) (f : RingFrame) (res : Nat) : RingFrame :=
  let g := { f with hops := f.hops - 1 }
  if g.typ = 5 then
    { g with payload := g.payload.set 1 ((nth g.payload 1 + s.get (linkDly w) + res) % 2 ^ 32) }
  else if s.frameTarget f && !f.bc && !f.turned && s.blockOn PG_RING then { g with claimed := true }
  else g

/-- A frame arrives on a port: `crc` its check, `eofb` its end marker; `ns` the plant time counter at its SOF, `res` the residence in
0.25 ns (R460).  One whose hops are spent is removed, not forwarded; a device it is meant for acts on it all the same. -/
def State.frameRx (s : State) (w : Bool) (f : RingFrame) (crc : Nat) (eofb : Bool) (ns res : Nat) : State :=
  if !s.ringRuns then s
  else
    let ok := crc == ringCrc f && !s.injOn PG_RING 1
    let s0 := s.injTake PG_RING 1
    let good := ok && !eofb
    let s1 := if !ok && !eofb then s0.put RING_COUNTS_CRCERR (min 2047 (s0.get RING_COUNTS_CRCERR + 1)) else s0
    if s1.frameOwn f then s1.frameBack w f good
    else if f.typ = 1 ∧ s1.isHead then (if good ∧ !f.turned then s1.ringEnumEnd 0x12 1 else s1)
    else if f.hops ≤ 1 then
      let s2 := (s1.put RING_COUNTS_TTL (satInc 255 (s1.get RING_COUNTS_TTL))).raise PG_RING RING_ST_TTL
      if !good ∨ (s2.ring.unusable ∧ f.typ ≠ 1) then s2 else if f.typ = 1 ∧ !f.turned then (s2.enumRx f).1 else s2.frameAct w f ns
    else if s1.ring.unusable ∧ f.typ ≠ 1 then s1
    else if f.typ = 1 ∧ !f.turned then
      let x := s1.enumRx f
      let g := { x.2 with hops := f.hops - 1 }
      if good then x.1.frameOn w g false else s1.frameOn w g true
    else
      let s2 := s1.frameOn w (s1.frameRewrite w f res) (!good)
      if good then s2.frameAct w f ns else s2

/-- A ring template (R478).  One that names the device itself is served locally and never enters the ring (R27). -/
def State.ringSlot (s : State) (k : Nat) : State :=
  let typ := s.get (RING_TPL_A_TYPE.el k)
  let len := s.get (RING_TPL_A_LEN.el k)
  let own := s.hasNum && s.get (RING_TPL_A_DST.el k) == s.devNum && !(typ == 2 && s.on (RING_TPL_A_BC.el k))
  if 8 ≤ k ∨ !own ∨ len = 0 ∨ 64 < len ∨ (typ ≠ 2 ∧ typ ≠ 3) then s.ringTemplate k
  else
    let addr := s.get (RING_TPL_B_ADDR.el k)
    let res := ringDst (s.get (RING_TPL_C_DST.el k))
    let tag := s.nextTag 0
    let s1 : State := { s with ring.tagSeq := (s.ring.tagSeq + 1) % 32 }
    if typ = 2 then
      let words := (List.range len).map fun i => BitVec.ofNat 32 (s.load (0x1A0000 + 4 * (s.get (RING_TPL_C_PAY.el k) + i)) 4)
      (s1.writeWords .lamplighter addr words).1.ringReport res (ringResult 2 tag 0 0)
    else
      let x := s1.readWords .lamplighter addr len
      match res with
      | none => x.2
      | some a => (x.1.foldl (fun (p : State × Nat) (w : Nat) => (p.1.store p.2 4 w, p.2 + 4)) (x.2, a + 4)).1.store a 4 (ringResult 3 tag 0 len)

/-- The oldest frame of the queue goes out; a broadcast write is applied to the origin in the same clock (R460, R475). -/
def State.ringDrain (s : State) : State :=
  match s.ring.txq with
  | [] => s
  | x :: t =>
    if s.ringRuns then
      let s1 := { s with ring.txq := t }.ringSend x
      if x.frame.typ = 2 ∧ x.frame.bc ∧ !s1.busy then (s1.writeWords (.ring x.frame.src) x.frame.addr (x.frame.payload.map (BitVec.ofNat 32))).1 else s1
    else s

end Sys2Proof.Machine
end

