-- ==== Sys2Proof/Machine/Buses.lean ====
section
/-! DEFINITION. The host buses: SPI frames and their outcomes (R411 to R417), I²C transactions (R419 to R422), the I²C controller's ends
(R424), the debug link's frames (R452). -/

namespace Sys2Proof.Machine

/-! ### Remote commands (R27, R416, R417) -/

/-- Whether a device number is this device's own, which is served locally. -/
def State.ownNum (s : State) (dev : Nat) : Bool := s.hasNum && dev == s.devNum

/-- Whether a remote write of a master is sent; a write to an unmapped number goes nowhere. -/
def State.remoteWriteOk (s : State) (dev : Nat) : Bool := decide (512 ≤ dev ∧ dev ≠ 0xFFFF) || s.postWriteOk

/-- A remote write sent by a master. -/
def State.remoteWrite (s : State) (m : Master) (dev addr : Nat) (words : List Nat) : State :=
  if 512 ≤ dev ∧ dev ≠ 0xFFFF then s.unmapped
  else s.postWrite (masterId m) (if dev = 0xFFFF then none else some dev) addr words none

/-- Whether a remote read of a master is sent. -/
def State.remoteReadOk (s : State) (m : Master) (dev : Nat) : Bool :=
  if 512 ≤ dev then (s.rmtOf (masterId m)).state != 1 else s.postReadOk (masterId m)

/-- A remote read sent by a master.  An unmapped number reads 0 in every word. -/
def State.remoteRead (s : State) (m : Master) (dev addr n : Nat) : State :=
  if 512 ≤ dev then s.unmapped.setRmt (masterId m) ⟨2, 0, n, dev % 512, List.replicate n 0⟩
  else s.postRead (masterId m) dev addr n none

/-! ### SPI frames (R412, R414) -/

/-- The words a frame moves. -/
def frameCount (f : HostFrame) : Nat := if f.bst then f.len.toNat % 64 + 1 else 1

/-- The host bytes before the CRC. -/
def frameBytes (f : HostFrame) (w : Bool) (dev : Option (BitVec 16)) : List Nat :=
  [b2n w * 128 + b2n dev.isSome * 64 + b2n f.bst * 32 + f.low.toNat]
    ++ (match dev with | some d => msbBytes 2 d.toNat | none => []) ++ msbBytes 3 f.addr.toNat
    ++ (if f.bst then [f.len.toNat] else []) ++ (if w then (f.data.take (frameCount f)).flatMap fun x => msbBytes 4 x.toNat else [])

/-- Whether a frame is malformed (Table 4). -/
def frameMalformed (f : HostFrame) (w : Bool) (dev : Option (BitVec 16)) : Bool :=
  f.low != 0 || (f.bst && decide (64 ≤ f.len.toNat)) || f.addr.toNat % 4 != 0 || (!w && dev == some 0xFFFF)

/-- How a frame ends (Table 4). -/
inductive FrameEnd where
  | accept
  | crcErr
  | malformed
  | busy
  | refused
  | abort
deriving DecidableEq, Repr

/-- The SPI status bit of an end. -/
def FrameEnd.bit : FrameEnd → Nat
  | .accept => SPI_ST_ACCEPT
  | .crcErr => SPI_ST_CRCERR
  | .malformed => SPI_ST_FRAME
  | .busy => SPI_ST_BUSYREJ
  | .refused => SPI_ST_RMTREJ
  | .abort => SPI_ST_ABORT

/-- What the SPI page records of a frame; frames of the debug link leave it alone (R425, R452). -/
def State.spiRecord (s : State) (m : Master) (e : FrameEnd) (cmd addr : Nat) : State :=
  let bad := e == .crcErr || e == .malformed
  let s1 : State :=
    if m = .debug then { s with bus.dbgBad := if e = .accept then false else s.bus.dbgBad || bad }
    else { s with bus.spiBad := if e = .accept then false else s.bus.spiBad || bad }
  if m = .debug then s1
  else if e = .accept then (s1.put SPI_COUNTS_GOOD (satInc 65535 (s1.get SPI_COUNTS_GOOD))).raise PG_SPI e.bit
  else
    let s2 := s1.put SPI_COUNTS_BAD (satInc 32767 (s1.get SPI_COUNTS_BAD))
    (if e = .abort then s2 else (s2.put SPI_LASTBAD_CMD cmd).put SPI_LASTBAD_ADDR addr).raise PG_SPI e.bit

/-- A frame that HCS_N ends before its CRC byte (Table 4). -/
def State.spiAbort (s : State) (m : Master) : State :=
  if s.portRuns then (s.spiRecord m .abort 0 0).reply [s.statusByte (if m = .debug then s.bus.dbgBad else s.bus.spiBad)] else s

/-- A local access of a frame: the words applied, and CUT where one of them starts a long operation; or the data with their CRC. -/
def State.spiLocal (s : State) (m : Master) (w : Bool) (status : Nat) (f : HostFrame) : State :=
  if w then
    let x := s.writeWords m f.addr.toNat (f.data.take (frameCount f))
    (if x.2 && m == .spi then x.1.raise PG_SPI SPI_ST_CUT else x.1).reply [status, 0xA5]
  else
    let x := s.readWords m f.addr.toNat (frameCount f)
    let bytes := x.1.flatMap (msbBytes 4)
    x.2.reply ([status, 0xA5] ++ bytes ++ [crc8 0xFF (status :: bytes)])

/-- A frame of host SPI or of the debug link, judged when its CRC byte is complete; the answer is the device's bytes: the status byte,
the token, and a local read's data and CRC (R411 to R417, R452). -/
def State.spiFrame (s : State) (m : Master) (w : Bool) (dev : Option (BitVec 16)) (f : HostFrame) : State :=
  if !s.portRuns then s.reply []
  else if w && decide (f.data.length < frameCount f) then s.spiAbort m
  else
    let status := s.statusByte (if m = .debug then s.bus.dbgBad else s.bus.spiBad)
    let inj := m == .spi && s.injOn PG_SPI 1
    let s0 := if m = .spi then s.injTake PG_SPI 1 else s
    let cmd := b2n w * 128 + b2n dev.isSome * 64 + b2n f.bst * 32 + f.low.toNat
    let nak := fun (e : FrameEnd) => (s0.spiRecord m e cmd f.addr.toNat).reply [status, 0x5A]
    if inj ∨ crc8 0xFF (frameBytes f w dev) ≠ f.crc.toNat then nak .crcErr
    else if frameMalformed f w dev then nak .malformed
    else if s0.busy then nak .busy
    else
      let ok := s0.spiRecord m .accept 0 0
      match dev with
      | none => ok.spiLocal m w status f
      | some d =>
        if s0.ownNum d.toNat then ok.spiLocal m w status f
        else
          let sent := if w then ok.remoteWriteOk d.toNat else ok.remoteReadOk m d.toNat
          let t :=
            if w then ok.remoteWrite m d.toNat f.addr.toNat ((f.data.take (frameCount f)).map (·.toNat))
            else ok.remoteRead m d.toNat f.addr.toNat (frameCount f)
          if sent then t.reply [status, 0xA5] else nak .refused

/-- A frame of the debug link: only in service lantern mode (R452). -/
def State.debugFrame (s : State) (w : Bool) (dev : Option (BitVec 16)) (f : HostFrame) : State :=
  if s.port.lantern then s.spiFrame .debug w dev f else s

/-! ### The I²C target (R419 to R422) -/

/-- The target's address byte with a direction bit. -/
def State.i2cAddr (s : State) (r : Bool) : Nat := (0x40 + s.get I2CT_CFG_ADDR) * 2 + b2n r

/-- An accepted transaction. -/
def State.i2cGood (s : State) : State :=
  { (s.put I2CT_COUNTS_GOOD (satInc 65535 (s.get I2CT_COUNTS_GOOD))).raise PG_I2CT I2CT_ST_ACCEPT with bus.nack := false }

/-- A transaction NACKed or discarded, with its status bit. -/
def State.i2cBad (s : State) (k : Nat) (nack : Bool) : State :=
  { (s.put I2CT_COUNTS_BAD (satInc 32767 (s.get I2CT_COUNTS_BAD))).raise PG_I2CT k with bus.nack := nack, answer := [] }

/-- The words of data bytes, most significant byte first. -/
def wordsOf : List (BitVec 8) → List Nat
  | a :: b :: c :: d :: t => (((a.toNat * 256 + b.toNat) * 256 + c.toNat) * 256 + d.toNat) :: wordsOf t
  | _ => []

/-- The CMD, DEVNUM and ADDR bytes of a transaction. -/
def i2cHead (cmd : Nat) (dev : Option (BitVec 16)) (addr : BitVec 24) : List Nat :=
  [cmd] ++ (match dev with | some d => msbBytes 2 d.toNat | none => []) ++ msbBytes 3 addr.toNat

/-- A write transaction judged at P (Tables 8 and 9); `data` are the bytes after ADDR. -/
def State.i2cWrite (s : State) (low : BitVec 6) (dev : Option (BitVec 16)) (addr : BitVec 24) (data : List (BitVec 8)) : State :=
  if !s.portRuns then s
  else if s.busy then s.i2cBad I2CT_ST_BUSYNAK true
  else
    let pec := s.on I2CT_CFG_PEC
    let n := (data.length - b2n pec) / 4
    let far := match dev with | some d => !s.ownNum d.toNat | none => false
    if far && !(s.remoteOk && s.ringRoom) && !(match dev with | some d => decide (512 ≤ d.toNat) && d != 0xFFFF | none => false) then
      s.i2cBad I2CT_ST_RMTREJ true
    else if low ≠ 0 ∨ n = 0 ∨ 64 < n ∨ data.length ≠ 4 * n + b2n pec then s.i2cBad I2CT_ST_FRAME false
    else
      let cmd := 128 + b2n dev.isSome * 64 + low.toNat
      let bytes := [s.i2cAddr false] ++ i2cHead cmd dev addr ++ (data.take (4 * n)).map (·.toNat)
      let bad := pec && (s.injOn PG_I2CT 1 || decide (crc8 0 bytes ≠ (data.getLastD 0).toNat))
      let s0 := if pec then s.injTake PG_I2CT 1 else s
      let words := wordsOf data
      if bad then s0.i2cBad I2CT_ST_PECERR false
      else
        match dev with
        | some d =>
          if far then
            (if s0.remoteWriteOk d.toNat then (s0.remoteWrite .i2c d.toNat addr.toNat words).i2cGood else s0.i2cBad I2CT_ST_RMTREJ true)
          else (s0.i2cGood.writeWords .i2c addr.toNat (words.map (BitVec.ofNat 32))).1
        | none => (s0.i2cGood.writeWords .i2c addr.toNat (words.map (BitVec.ofNat 32))).1

/-- A local read: the bytes the host takes of the data and the PEC; with no read command in the transaction the address is NACKed. -/
def State.i2cRead (s : State) (cmd : Option (BitVec 24 × BitVec 8)) (take : Option Nat) : State :=
  if !s.portRuns then s
  else if s.busy then s.i2cBad I2CT_ST_BUSYNAK true
  else
    match cmd with
    | none => s.i2cBad I2CT_ST_NOCMD true
    | some (addr, len) =>
      if 64 ≤ len.toNat then s.i2cBad I2CT_ST_FRAME true
      else
        let x := s.readWords .i2c addr.toNat (len.toNat + 1)
        let data := x.1.flatMap (msbBytes 4)
        let all := [s.i2cAddr false] ++ i2cHead 0 none addr ++ [len.toNat, s.i2cAddr true] ++ data
        let out := if s.on I2CT_CFG_PEC then data ++ [crc8 0 all] else data
        x.2.i2cGood.reply (match take with | some n => out.take n | none => out)

/-- A remote read command (R416, R420); a device's own number is served as a local read would be, and its data are collected like a remote
read's. -/
def State.i2cRemoteRead (s : State) (dev : BitVec 16) (addr : BitVec 24) (len : BitVec 8) : State :=
  if !s.portRuns then s
  else if s.busy then s.i2cBad I2CT_ST_BUSYNAK true
  else if 64 ≤ len.toNat ∨ dev = 0xFFFF then s.i2cBad I2CT_ST_FRAME true
  else if s.ownNum dev.toNat then
    let x := s.readWords .i2c addr.toNat (len.toNat + 1)
    (x.2.setRmt 2 ⟨2, 0, len.toNat + 1, dev.toNat, x.1⟩).i2cGood
  else
    if s.remoteReadOk .i2c dev.toNat then (s.remoteRead .i2c dev.toNat addr.toNat (len.toNat + 1)).i2cGood else s.i2cBad I2CT_ST_RMTREJ true

/-- SCL held low for 35 ms (Table 9). -/
def State.i2cTimeout (s : State) : State :=
  if s.portRuns && s.on I2CT_CFG_TIMEOUT then s.i2cBad I2CT_ST_TIMEOUT false else s

/-- The recogniser matches the device's address in HIBERNATE: TSCL is held and a wake requested (R422). -/
def State.i2cWake (s : State) : State :=
  if s.mode = .hibernate ∧ bitOf (s.get CELLAR_WAKEEN_SRC) 1 then
    { (s.raise PG_I2CT I2CT_ST_WAKE) with bus.tsclHeld := true }.wakeRequest 2
  else s

/-- PORT does not run within t_WAKE: TSCL is released without an ACK. -/
def State.i2cWakeTimeout (s : State) : State :=
  if s.bus.tsclHeld && !s.portRuns then { s with bus.tsclHeld := false, bus.nack := true } else s

/-! ### The I²C controller (R423, R424) -/

/-- A transfer or a clear ends with a result code. -/
def State.i2ccFinish (s : State) (code byte : Nat) : State :=
  let s1 := ((s.put I2CC_STATE_BUSY 0).put I2CC_STATE_RESULT code).put I2CC_STATE_BYTE byte
  let s2 : State := { (if code = 1 ∨ code = 6 then s1.raise PG_I2CC I2CC_ST_DONE else s1.raise PG_I2CC I2CC_ST_FAIL) with bus.clearOnly := false, bus.ccOut := [] }
  if code = 7 then s2.err PG_I2CC I2CC_ERR_STUCK else s2

/-- RDLEN bytes read go to RX0 to RX3. -/
def State.i2ccStore (s : State) (rx : List (BitVec 8)) : State :=
  let n := min 16 (s.get I2CC_XFER_RDLEN)
  (List.range 4).foldl
    (fun (t : State) (k : Nat) =>
      (List.range 4).foldl
        (fun (u : State) (i : Nat) => if 4 * k + i < n then u.put ((I2CC_RX_B.el k).sh (8 * i) |> fun f => { f with w := 8 }) ((rx[4 * k + i]?).getD 0).toNat else u) t) s

/-- The transfer in progress ends: `cleared` says that its bus check had to clear the bus, `rx` are the bytes read. -/
def State.i2ccEnd (s : State) (cleared : Bool) (e : I2ccEnd) (rx : List (BitVec 8)) : State :=
  if !s.on I2CC_STATE_BUSY then s
  else if s.bus.clearOnly then s.i2ccFinish (if e = .stuck then 7 else if cleared then 6 else 1) 0
  else
    match e with
    | .stuck => s.i2ccFinish 7 0
    | .arbLost => s.i2ccFinish 4 0
    | .addrNack => s.i2ccFinish 2 0
    | .dataNack b => if s.injOn PG_I2CC 1 then (s.injTake PG_I2CC 1).i2ccFinish 2 0 else s.i2ccFinish 3 b.val
    | .ok =>
      if s.injOn PG_I2CC 1 then (s.injTake PG_I2CC 1).i2ccFinish 2 0
      else (s.i2ccStore rx).i2ccFinish (if cleared then 6 else 1) 0

/-- A target stretches CSCL beyond T_CSTRETCH. -/
def State.i2ccStretch (s : State) : State := if s.on I2CC_STATE_BUSY then s.i2ccFinish 5 0 else s

end Sys2Proof.Machine
end

