-- ==== Sys2Proof/Machine/Rise.lean ====
section
/-! DEFINITION. Start-up: bias and the cellar's power (R20, R377, R509), the rows of RISE (R489 to R493), its end (R490), the count of the
hibernated time at the first frame after it (R205). -/

namespace Sys2Proof.Machine

/-! ### Bias and the cellar (R20, R488, R509) -/

/-- The bias sources present, as a mask: VIB, the start-up regulator, VBUS_BIAS. -/
def biasBits (vib startUp vbus : Bool) : Nat := b2n vib + 2 * b2n startUp + 4 * b2n vbus

/-- The sources present change with no reset and no mode change; with none left nothing happens before the bias is lost (R509). -/
def State.biasChange (s : State) (mask : Nat) : State := if s.biasCounts mask = 0 then s else s.biasMask mask

/-- The bias is lost: CELLAR with every source gone, else device reset (R488, R509).  The cause code of such a reset is free (log entry 26). -/
def State.biasLost (s : State) (mask : Nat) : State :=
  let s1 := s.biasMask mask
  if s.biasCounts mask = 0 then (if s1.mode = .cellar then s1 else s1.enterCellar 1) else s1.tickFresh.deviceReset (Config.riseCauseOpen s1.fresh)

/-- Bias appears after none: RISE begins through device reset (R485, cause 2). -/
def State.biasGood (s : State) (mask : Nat) : State :=
  if s.dev.bias ≠ .none ∨ s.biasCounts mask = 0 then s
  else (s.biasMask mask).riseFromCellar (if s.cellar.powered then 0 else 1)

/-- The cellar's supply rises through V_CPOR (R377): the attic keeps its contents, and the inputs their levels. -/
def State.cellarPowerOn (s : State) : State :=
  { State.reset with
      pending := s.pending, fresh := s.fresh, answer := s.answer,
      mem := (s.mem.filter fun c => decide (0x200000 ≤ c.1) && decide (c.1 < 0x300000)) ++ clearedRecord,
      dev := { State.reset.dev with resetIn := s.dev.resetIn, testHigh := s.dev.testHigh, vddioLow := s.dev.vddioLow, jtag := s.dev.jtag } }

/-! ### The rail list (R493, Table 5) -/

/-- The rail list in the attic. -/
def railList : Nat := 0x27E000

/-- Whether an entry names a register the list may set. -/
def State.railEntryOk (s : State) (k : Nat) : Bool :=
  let a := s.load (railList + 8 + 8 * k) 4
  let pg := a / 0x400
  a % 4 == 0 && lockedReg a && (pg == PG_DEV || (decide (0x48 ≤ pg) && decide (pg ≤ 0x4E)))

/-- The rail list is applied whole or not at all. -/
def State.railListApply (s : State) : State :=
  let inj := s.injOn PG_DEV 1
  let s0 := s.injTake PG_DEV 1
  let n := s.load (railList + 4) 2
  let good := decide (s.load railList 4 = 0x54534C52) && decide (n ≤ 127) &&
    decide (crc16 (s.bytes railList 6 ++ s.bytes (railList + 8) (8 * n)) = s.load (railList + 6) 2) && (List.range n).all s.railEntryOk
  if good && !inj then
    (List.range n).foldl
      (fun (t : State) (k : Nat) =>
        t.writeWord .preload (t.load (railList + 8 + 8 * k) 4) (BitVec.ofNat 32 (t.load (railList + 12 + 8 * k) 4))) s0
  else s0.errI PG_DEV DEV_ERR_RAILLIST (inj && good)

/-! ### The rows of RISE (R489, Table 4) -/

/-- Rows A and B: device reset is released; straps, the record area, the journal, the policy block (log entry 200), the rail list; the
sequencer may begin. `addr`, `head` and `img` are the strap levels. -/
def State.resetDone (s : State) (addr : Nat) (head img verifyBad readBad : Bool) : State :=
  if s.mode ≠ .rise ∨ !s.dev.held ∨ s.dev.bias = .none ∨ s.dev.testHigh then s
  else
    let s1 : State := { s with dev.held := false, dev.resetIn := false, dev.strapHead := head, dev.strapImg := img }
    let s2 := (((s1.put I2CT_CFG_ADDR addr).recCheck).recBump 0x16 2).journalReplay verifyBad readBad
    let s3 := ((s2.showBank 1).showBank 2).policyLoad.railListApply
    s3.seqRise (!s3.dev.vhbOn)

/-- Row C and the steps of row D that no command of its own reports: the PLL locks; the input path, the store room's scrub, the lifetime and fault
log headers, the OCV sets, the pack record, the health work area, the shelves.  `ext` tells an external ring reference. -/
def State.pllLock (s : State) (ext : Bool) : State :=
  if s.mode ≠ .rise ∨ s.dev.held ∨ s.dev.rowC then s
  else
    let s1 : State := { s with dev.pll := true, dev.rowC := true, bus.tsclHeld := false }
    let s2 := (if s.dev.pll then s1 else s1.ringRise ext).inpLock
    ((((s2.scrub).lifeCheck).logCheck).ocvRise).packRecCheck.clearHealthArea.evqEmpty.calStartBegin

/-- The start-up calibration of the banks ends (R123); `res` are the slices of each bank.  A sweep that waits for it begins. -/
def State.calStart (s : State) (res : Fin 4 → List CalMeas) : State :=
  if s.mode ≠ .rise ∨ !s.dev.rowC ∨ s.dev.calDone then s
  else
    let s1 : State := { (List.finRange 4).foldl (fun (t : State) (b : Fin 4) => t.calStartBank b (res b)) s with dev.calDone := true }
    if s.get DEV_LONGOP_RUN = 5 then (List.finRange 4).foldl (fun (t : State) (b : Fin 4) => t.sweepBegin b) s1 else s1

/-- The image check of row D ends: a bank is lit, or the built-in schedule (R492). -/
def State.imageRise (s : State) (bad : Nat → Bool) : State :=
  if s.mode ≠ .rise ∨ !s.dev.rowC ∨ s.dev.imageDone then s else { s.selectImage bad with dev.imageDone := true }

/-- The preload list of the image in a bank is applied by master 5 (R88). -/
def State.preloadBank (s : State) (bank : Nat) : State :=
  let b := bankAddr bank
  (List.range (s.ihd b 0x28 4)).foldl
    (fun (t : State) (k : Nat) => t.writeWord .preload (t.load (b + 0x100 + 8 * k) 4) (BitVec.ofNat 32 (t.load (b + 0x104 + 8 * k) 4))) s

/-- Row F: every link with MODULES ≠ 0 is enumerated, as one long operation (R151), once no other runs (R47). -/
def State.enumerateAll (s : State) : State :=
  if !s.dev.enumDue || s.busy || s.mode != .rise then s
  else
    let s1 : State := { s with dev.enumDue := false }
    let ls : List (Fin 16) := (List.finRange 16).filter fun (n : Fin 16) => s.modules n != 0
    if ls.isEmpty then s1 else ls.foldl (fun (t : State) (n : Fin 16) => t.enumBegin n) (s1.longStart 6)

/-- The preload ends: row E of RISE, whatever long operation runs (R40, R45), or the third stage of a return to RUN from SERVICE, or from SAFE
with no image lit (R78, R494; log entry 199).  The enumeration of row F follows. -/
def State.preloadApply (s : State) : State :=
  if s.mode = .rise ∧ s.dev.imageDone ∧ !s.dev.preloadDone then
    let s1 := if s.litBank = 0 then s else s.preloadBank s.litBank
    { s1 with dev.preloadDone := true, dev.enumDue := true }.enumerateAll
  else if (s.mode = .service ∨ s.mode = .safe) ∧ s.lamp.coldStage = 3 then { s.preloadBank s.lamp.relightBank with lamp.coldStage := 4 }
  else s

/-! ### The end of RISE (R489, R490) -/

/-- Whether every row of RISE has ended and the sequencer has risen or has its start held. -/
def State.riseRows (s : State) : Bool :=
  s.mode == .rise && s.dev.rowC && s.dev.calDone && s.dev.imageDone && s.dev.preloadDone && !s.dev.enumDue && !(s.get DEV_LONGOP_RUN == 6) &&
    (s.seqPhase == 2 || s.seq.hold)

/-- The mode RISE ends in; none while it cannot end (Table 3). -/
def State.riseMode (s : State) : Option Mode :=
  if s.on FAULT_HOLDS_FULL then some .safe
  else if s.litBank = 0 then some .service
  else if s.seq.hold then (if s.on DEV_CFG_BLACKSTART then some .ride else none)
  else some .run

/-- Feeds at the end of a RISE (R315, Table 4). -/
def State.feedsRise (s : State) : State :=
  let s1 := s.feedsLevel0
  if s1.mode = .safe then
    ((List.finRange 8).foldl
      (fun (t : State) (n : Fin 8) => t.setFd n { t.fd n with held := !t.on (feedF FEEDS_CFG_SAFEON n) }) s1).feedsEnable
  else s1.feedsEnter

/-- RISE ends: the mode of Table 3, held firings, cleared results (R126), feeds, the watchdog's first window (R389), ring enumeration on the
head (R466), the wake burst (R482). -/
def State.riseEnd (s : State) : State :=
  match s.riseMode with
  | none => s
  | some m =>
    if !s.riseRows then s
    else
      let s1 := ((s.clearResults).setMode m 4).evqRelease
      let s2 : State := match m with
        | .service => s1.raise PG_DEV DEV_ST_NOIMAGE
        | .ride => s1.lossSeen
        | _ => s1
      let s3 := (s2.feedsRise).svcRun s2.svc.on
      let s4 := if s3.wdog.on then s3.wdogWindow true else s3
      let s5 := if s4.on RING_CFG_WAKEFWD && bitOf (s4.get CELLAR_WAKESRC_SRC) 2 then s4.wakeBurst else s4
      s5.ringEnumerate

/-! ### VHB and the rail start (R319, R336, R491) -/

/-- The hold of the rail start ends. -/
def State.holdEnd (s : State) : State := s.seqHoldEnd

/-- VHB is at or above V_HBON: the hold ends; an enabled wake source acts on the rising crossing; a fall that VHB began restarts with
AUTORST (R336, R491, R496). -/
def State.vhbRise (s : State) : State :=
  let s1 : State := { s with dev.vhbOn := true }
  let s2 := if s.dev.vhbOn then s1 else s1.wakeRequest 16
  let s3 := s2.holdEnd
  if s3.seq.vhbFall && s3.on SEQ_CFG_AUTORST then s3.seqOnRequest else s3

/-- VHB is below V_HBFALL: VHBLOW and an off request (R336); the rail start is held again at the next RISE. -/
def State.vhbLow (s : State) : State :=
  let s1 : State := { s with dev.vhbOn := false }
  if s.mode = .cellar ∨ s.mode = .fall ∨ s.seq.hold then s1
  else { (s1.raise PG_SEQ SEQ_ST_VHBLOW).offRequest with seq.vhbFall := true }

/-! ### After HIBERNATE (R205) -/

/-- The hibernated time is counted at the first frame after the wake: the cells take their self-discharge with their next update, and strings
that qualify ask for a rest anchor. -/
def State.wakeAccount (s : State) : State :=
  if !bitOf (s.rd (PG_EST * 0x400 + 0x070)).toNat 16 ∨ s.mode = .hibernate ∨ s.mode = .rise then s
  else
    let stamp := (s.rd (PG_EST * 0x400 + 0x06C)).toNat + (s.rd (PG_EST * 0x400 + 0x070)).toNat % 0x10000 * 2 ^ 32
    let e := (s.cellar.count + 2 ^ 48 - stamp) % 2 ^ 48
    let tRest := atLeast1 (s.get EST_REST_T_REST)
    let rested := s.on EST_CFG_HIBREST && decide (tRest * 32768 ≤ e)
    let s1 := (List.finRange 16).foldl
      (fun (t : State) (n : Fin 16) =>
        let q := rested && bitOf t.est.quiet n
        let t1 := (t.setEs n { t.es n with wakeDue := 2 ^ 640 - 1, wakeE := e, wakeRest := q }).setStrFlag n 3 q
        if q then (t1.store (strAddr n + 0x28) 4 (tRest * 1000)).store (strAddr n + 0x2C) 4 t1.frame else t1) s
    (s1.wr (PG_EST * 0x400 + 0x070) (s1.rd (PG_EST * 0x400 + 0x070) &&& 0xFFFF)).raise PG_EST EST_ST_WAKEACC

end Sys2Proof.Machine
end

