-- ==== Sys2Proof/Machine/Slots.lean ====
section
/-! DEFINITION. Slots of the lamplighter: when one is issued and when it is not (R54, R62, R71 to R73, R522), what each opcode does (R94,
Table 5), how a budget ends (R56, R58). -/

namespace Sys2Proof.Machine

/-! ### The slot that comes due -/

/-- The opcode code of the word at the slot's place. -/
def State.slotCode (s : State) (x : Slot) : Nat :=
  match x.rom with
  | some op => opCode op
  | none => wordOpcode (s.slotWord x.lane.val x.word)

/-- The slot at its place: the ROM's, or the one that its words in the schedule store spell (R93). -/
def State.slotAt (s : State) (x : Slot) : Option SlotOp :=
  match x.rom with
  | some op => some op
  | none => decodeSlot (s.slotWord x.lane.val x.word) (s.slotWord x.lane.val (x.word + 1))

/-- The tick of a slot in the schedule store. -/
def State.slotTick (s : State) (x : Slot) : Nat := wordTick (s.slotWord x.lane.val x.word)

/-- Whether a slot of the lane came due in the same clock before this one (R72). -/
def State.slotClash (s : State) (x : Slot) : Bool := x.rom.isNone && (s.lane x.lane).clock == some (s.slotTick x)

/-- A slot that has come due: the run goes on to its next slot, over an extension word, which is never issued (R93), and with one slot less to leave
out after a rendezvous (R62). -/
def State.slotPast (s : State) (x : Slot) : State :=
  let r := (s.lane x.lane).run x.level
  let y := { s.lane x.lane with clock := if x.rom.isNone then some (s.slotTick x) else (s.lane x.lane).clock }
  s.setLane x.lane (y.setRun x.level { r with next := r.next + (if hasExt (s.slotCode x) then 2 else 1), skip := r.skip - 1 })

/-- Word and length in words of the table that a lane runs at a level: of the lit image's class in force (R89). -/
def State.runTable (s : State) (n : Fin 6) (level : Fin 3) : Nat × Nat := s.litTable n.val (s.get LAMP_STATE_CLASS) level.val

/-- The tick at which the next slot of a table's run comes due in the cycle in progress, if one does: within the table and the lane's ticks, and not
before a slot that came due already (R54). -/
def State.nextTick (s : State) (n : Fin 6) (level : Fin 3) : Option Nat :=
  let x := s.lane n
  let r := x.run level
  let tab := s.runTable n level
  let t := wordTick (s.slotWord n.val (tab.1 + r.next))
  if r.phase == .issuing && decide (r.next < tab.2) && decide (tab.1 + r.next < laneWords n.val) && decide (t < laneTicks n.val (s.get LAMP_TIMING_TCYC)) &&
      (match x.clock with | some c => decide (c ≤ t) | none => true) then some t
  else none

/-- Whether a slot can come due.  A slot of the lit image is the next one of its table's run, in the order of the lane's ticks, the cycle
table before the round table and that before the frame table (R54, R72).  The built-in schedule's own slots come due while no image is lit, in
runs of theirs (R73). -/
def State.slotDue (s : State) (x : Slot) : Bool :=
  let r := (s.lane x.lane).run x.level
  s.laneRuns x.lane &&
    match x.rom with
    | some _ => s.litBank == 0 && r.phase == .issuing
    | none =>
      s.litBank != 0 && x.word == (s.runTable x.lane x.level).1 + r.next &&
        match s.nextTick x.lane x.level with
        | none => false
        | some t =>
          (List.finRange 3).all fun m =>
            match s.nextTick x.lane m with
            | some u => decide (t < u) || (t == u && decide (x.level ≤ m))
            | none => true

/-- Whether the resource of a slot runs work that no slot started, or an earlier one (R522; R179 for an ESTUPD). -/
def State.resourceBusy (s : State) (x : Slot) (op : SlotOp) : Bool :=
  let engine := fun (n : Fin 16) =>
    let l := s.lk n
    l.phase == .frame || (l.phase.maint && l.why == .enumeration) || s.selBusy n
  match op with
  | .trigger bank _ => s.enabled (adcPage (Fin.ofNat 4 bank)) && s.bankBusy (Fin.ofNat 4 bank)
  | .linktx target _ _ => decide (target < 16) && engine (Fin.ofNat 16 target)
  | .select string _ => engine (Fin.ofNat 16 string)
  | .estupd _ _ _ _ =>
    (match s.op with | some (.clear _) => true | _ => false) ||
      (x.rom.isNone && s.get LAMP_POSITION_CYCLE == (if s.get EST_ACC_CYCLE < s.nCyc then s.get EST_ACC_CYCLE else 0) && decide (s.slotTick x ≤ 500))
  | _ => false

/-- Whether MODEJUMP is not allowed in the mode in force, or to its target (R65, R72); while another change of mode waits for its marker
it is discarded instead (R66). -/
def State.jumpBad (s : State) (target : Nat) : Bool :=
  if s.mode ≠ .run ∧ s.mode ≠ .ride then !s.lamp.switchPending
  else
    let cls := s.get LAMP_STATE_CLASS
    (target != 3 && target != 4) || !((cls == 0 && target == 4) || (cls == 1 && target == 3) || target == s.mode.code)

/-- The cause of Table 7 for which a slot is not issued, if any, apart from cause 0 and cause 5.  An opcode that the lane does not run counts as
undefined there. -/
def State.slotCause (s : State) (x : Slot) (op : Option SlotOp) : Option Nat :=
  match op with
  | none => some 1
  | some op =>
    if s.slotClash x then some 3
    else if (match op with | .modejump t => x.lane != 0 || s.jumpBad t | _ => false) then some 6
    else if !laneAllows x.lane.val op || (match op with | .wait _ => x.level == 0 | _ => false) then some 1
    else if (match op with | .move dst _ _ _ => !(lockedReg dst || inStores dst) | _ => false) then some 2
    else if x.busy || s.resourceBusy x op then some 4
    else none

/-- A slot comes due for a row that stands for the slots of `want`: the slot, when it is issued, and the state so far.  A word with an
uncorrectable error is cause 0; a word of another row leaves the state as it is. -/
def State.slotIssue (s : State) (x : Slot) (want : SlotOp → Bool) : Option SlotOp × State :=
  if !s.slotDue x then (none, s)
  else
    let op := s.slotAt x
    let code := s.slotCode x
    let inj := x.rom.isNone && s.injOn PG_LAMP 7
    let s0 : State := if x.rom.isNone then s.injTake PG_LAMP 7 else s
    let skips := ((s.lane x.lane).run x.level).skip != 0
    let u := s0.slotPast x
    if (x.rom.isNone && x.ecc) || inj then (none, u.notIssued x.lane x.word code 0 (inj && !x.ecc))
    else if (match op with | some o => !want o | none => false) then (none, s)
    else if skips then (none, u)
    else
      match s0.slotCause x op with
      | some c => (none, u.notIssued x.lane x.word code c false)
      | none => (op, u)

/-! ### What the opcodes do (R94, Table 5) -/

/-- END ends the table's run. -/
def State.slotEnd (s : State) (x : Slot) : State :=
  s.setLane x.lane ((s.lane x.lane).setRun x.level ((s.lane x.lane).run x.level).abandoned)

/-- WAIT suspends the table for `n` cycles (R55). -/
def State.slotWait (s : State) (x : Slot) (n : Nat) : State :=
  s.setLane x.lane ((s.lane x.lane).setRun x.level { (s.lane x.lane).run x.level with phase := .waiting n })

/-- A WAIT whose cycles have passed ends: the next slot comes due at its own tick of the cycle. -/
def State.waitExpire (s : State) (n : Fin 6) (level : Fin 3) : State :=
  let r := (s.lane n).run level
  if r.phase = .waiting 0 then s.setLane n ((s.lane n).setRun level { r with phase := .issuing }) else s

/-- COMP: one update of a unit's compensator. -/
def State.compUnit (s : State) (lane unit : Nat) (shadow : Bool) : State :=
  if lane = 0 then
    (if unit < 16 then s.balComp (Fin.ofNat 16 unit) shadow
     else if unit = 16 then s.packComp shadow
     else if unit = 17 then s.svcComp shadow else s)
  else if unit = 32 then s.ibcComp shadow
  else if 33 ≤ unit ∧ unit ≤ 36 then s.polComp (Fin.ofNat 4 (unit - 33)) shadow
  else if unit = 37 ∨ unit = 38 then s.ldoComp (Fin.ofNat 2 (unit - 37))
  else s

/-- The word at an address, with no effect of reading. -/
def State.peek (s : State) (a : Nat) : Nat :=
  match region a with
  | .page => if (regInfo a).isSome then s.shown .lamplighter a else 0
  | .none => 0
  | _ => s.load a 4

/-- CHECK: a field outside [LO, HI] drives its check line or raises an event (R94, R401).  Its read has what effects a read has, and its parity
check (R38).  A field beyond the word ends at bit 31 (DESIGN CHOICE, log entry 155). -/
def State.slotCheck (s0 : State) (x : Slot) (addr lsb width : Nat) (sgn event : Bool) (line lo hi : Nat) : State :=
  let r := s0.readWord .lamplighter addr
  let w := r.1
  let s := r.2
  let f := w / 2 ^ lsb % 2 ^ min width (32 - lsb)
  let v : Int := if sgn then toSigned (min width (32 - lsb)) f else f
  let l : Int := if sgn then toSigned 32 lo else lo
  let h : Int := if sgn then toSigned 32 hi else hi
  if l ≤ v ∧ v ≤ h then s
  else
    let dLo := ofSigned 32 v
    let dHi := x.lane.val * 0x10000 + x.word
    if event then
      s.fire { src := 0x050 + line, cls := 7, merged := false, shelfB := bitOf (s.get EVQ_CROUTE_ROUTE) line, stamp := s.stamp, lo := dLo, hi := dHi }
    else s.pulse { src := 16 + line, inj := false, lo := dLo, hi := dHi }

/-- MOVE: (old AND NOT MASK) OR (value AND MASK) goes to DST; a copy reads its source as any read does (R94). -/
def State.slotMove (s : State) (dst : Nat) (copy : Bool) (mask data : Nat) : State :=
  let r : Nat × State := if copy then s.readWord .lamplighter (4 * (data % 2 ^ 22)) else (data, s)
  let m : Word := BitVec.ofNat 32 mask
  let old : Word := BitVec.ofNat 32 (r.2.peek dst)
  r.2.writeWord .lamplighter dst ((old &&& ~~~m) ||| (BitVec.ofNat 32 r.1 &&& m))

/-! ### Budgets (R56, R58) -/

/-- A timed slot's resource becomes free after `used` clocks of its budget: MARGINn falls to what was left, if that is less.  `d` is the budget
of a built-in slot. -/
def State.resourceFree (s : State) (x : Slot) (used d : Nat) : State :=
  let budget := if x.rom.isSome then d else s.budget (laneBase x.lane.val + x.word)
  match s.slotAt x with
  | none => s
  | some op =>
    if untimed op || decide (budget < used) then s
    else
      let inj := s.injOn PG_LAMP 8
      let s1 := s.injTake PG_LAMP 8
      if inj then s1.overrun x.lane x.level x.word (opCode op) true
      else if budget - used < s1.get (LAMP_MARGIN_MIN.el x.lane.val) then s1.put (LAMP_MARGIN_MIN.el x.lane.val) (budget - used)
      else s1

/-- The resource of a slot is stopped: what it has not written is discarded. -/
def State.resourceStop (s : State) (op : SlotOp) : State :=
  match op with
  | .trigger bank _ =>
    let b : Fin 4 := Fin.ofNat 4 bank
    (s.put (adcF ADC_STATE_BUSY b) 0).setBank b { s.bank b with table := [] }
  | .linktx target _ _ =>
    let n : Fin 16 := Fin.ofNat 16 target
    let l := s.lk n
    if target < 16 ∧ l.phase = .frame ∧ l.cmd.source = .slot then
      s.setLk n { l with phase := .idle, tx := [], cmd := { l.cmd with waitA := false, waitB := false } }
    else s
  | .select string _ =>
    let n : Fin 16 := Fin.ofNat 16 string
    let l := s.lk n
    if s.selBusy n then
      (s.setStep n 0).setLk n
        (if l.phase = .frame ∧ l.cmd.source = .select then { l with phase := .idle, tx := [], cmd := { l.cmd with waitA := false, waitB := false } } else l)
    else s
  | _ => s

/-- A resource is still busy at the end of its slot's budget: it is stopped, and the slot overruns. -/
def State.budgetExpire (s : State) (x : Slot) : State :=
  match s.slotAt x with
  | none => s
  | some op => if untimed op ∨ s.get LAMP_STATE_CLASS = 7 then s else (s.resourceStop op).overrun x.lane x.level x.word (opCode op) false

/-- A table has not reached END when it must: its run is cut, and its first slot not issued overruns (R55). -/
def State.tableCut (s : State) (x : Slot) : State :=
  let r := (s.lane x.lane).run x.level
  if s.laneRuns x.lane && r.phase != .idle then
    let w := if x.rom.isSome then x.word else (s.runTable x.lane x.level).1 + r.next
    let code := if x.rom.isSome then s.slotCode x else wordOpcode (s.slotWord x.lane.val w)
    (s.slotEnd x).overrun x.lane x.level w code false
  else s

end Sys2Proof.Machine
end

