-- ==== Sys2Proof/Machine/Events.lean ====
section
/-! DEFINITION. What every command shares: how its effect settles, the accesses of masters, results handed to the blocks, and the markers,
rounds and frames (R14, R15, R50 to R52). -/

namespace Sys2Proof.Machine

/-! ### The frame of a command -/

/-- A command begins: what the last one put on the ring and on SOP is gone. -/
def State.begin (s : State) : State := { s with ring.sent := [], port.sent := [] }

/-- What follows at once from the state: the next step of an entry to FALL or HIBERNATE, row F's enumeration or a flush that waited for a long
operation's end, the service port, an enumeration of the ring that waits for its ports. -/
def State.settle (s : State) : State := s.stageStep.enumerateAll.flushNow.portSync.svcTargetTake.ringEnumReady

/-- A command with the effect `f`. -/
def effect (f : State → State) (s : State) : Host.Outcome State Fault Refusal := .next (f s.begin).settle

/-- A command with the effect `f`, from which nothing further follows. -/
def simple (f : State → State) (s : State) : Host.Outcome State Fault Refusal := .next (f s.begin)

/-- The block with no command waiting: the oldest frame of the ring's queue goes out, if there is one (R460; log entry 1). -/
def State.idle (s : State) : State := if s.ring.txq.isEmpty then s else s.begin.ringDrain.settle

/-- A command that is well formed when `ok`. -/
def checked (ok : Bool) (f : State → State) (s : State) : Host.Outcome State Fault Refusal := if ok then effect f s else .fault .illFormed

/-- The element of a list of lists at an index, empty beyond its end. -/
def nthOf {α : Type} (l : List (List α)) (k : Nat) : List α := (l[k]?).getD []

/-- A slot comes due for a row that stands for the slots of `want`, with the effect `f` when it is issued. -/
def slotEffect (x : Slot) (want : SlotOp → Bool) (f : SlotOp → State → State) (s : State) : Host.Outcome State Fault Refusal :=
  checked (slotOk x)
    (fun t =>
      let u := t.slotIssue x want
      match u.1 with
      | some op => f op u.2
      | none => u.2) s

/-! ### Accesses of masters -/

/-- A master's write of one word, when its accesses reach the device. -/
def State.hostWrite (s : State) (m : Master) (a : Nat) (v : Word) : State := if s.accepts m then s.writeWord m a v else s

/-- A master's read of `n` words: what it is answered. -/
def State.hostRead (s : State) (m : Master) (a n : Nat) : State :=
  if s.accepts m then
    let r := s.readWords m a n
    r.2.reply r.1
  else s

/-- A master's write of a word, or its read of one. -/
def State.hostAccessWord (s : State) (m : Master) (a : Nat) (w : Option Word) : State :=
  match w with
  | some v => s.hostWrite m a v
  | none => s.hostRead m a 1

/-- A write of a register that is not /L, whose effect is `f`: the lamplighter and the preload have none (R41). -/
def State.hostAct (s : State) (m : Master) (pg : Nat) (f : State → State) : State :=
  if s.accepts m && m != .lamplighter && m != .preload then f (s.noteWrite m pg) else s

/-- The status bits a page defines (the STATUS tables of the chapters). -/
def statusMask (pg : Nat) : Nat :=
  let bits := fun (n : Nat) => 2 ^ n - 1
  if pg = PG_DEV then bits 8
  else if pg = PG_LAMP then bits 10
  else if pg = PG_IMAGE then bits 3
  else if pg = PG_ATTIC then bits 5
  else if PG_ADC ≤ pg ∧ pg < PG_ADC + 4 then bits 13
  else if pg = PG_CMP then bits 32
  else if PG_SLINK ≤ pg ∧ pg < PG_SLINK + 16 then bits 11
  else if pg = PG_EST then bits 13
  else if pg = PG_OCV then bits 3
  else if pg = PG_HEALTH then bits 12
  else if PG_BAL ≤ pg ∧ pg < PG_BAL + 16 then bits 10
  else if pg = PG_DISPATCH then bits 8
  else if pg = PG_INPATH then bits 9 - 1
  else if pg = PG_PACK then bits 15
  else if pg = PG_FEEDS then bits 32
  else if pg = PG_SVC ∨ pg = PG_IBC ∨ (PG_POL ≤ pg ∧ pg < PG_POL + 4) then bits 7
  else if pg = PG_LDO then bits 7 * 0x101
  else if pg = PG_SEQ then bits 8
  else if pg = PG_THERM then bits 7
  else if pg = PG_FAULT then bits 6
  else if pg = PG_WDOG then bits 3
  else if pg = PG_RTC then bits 5
  else if pg = PG_CELLAR then bits 4
  else if pg = PG_EVQ then bits 5
  else if pg = PG_SPI then bits 7
  else if pg = PG_I2CT then bits 10
  else if pg = PG_I2CC then bits 3
  else if pg = PG_TYPEC then bits 6
  else if pg = PG_PD then bits 11
  else if pg = PG_RING then bits 14
  else 0

/-- The causes a page's ERR defines (the ERR tables of the chapters). -/
def errMask (pg : Nat) : Nat :=
  let bits := fun (n : Nat) => 2 ^ n - 1
  if pg = PG_LAMP ∨ pg = PG_PACK ∨ pg = PG_SEQ ∨ pg = PG_THERM ∨ (PG_SVC ≤ pg ∧ pg < PG_LDO) then bits 5
  else if PG_ADC ≤ pg ∧ pg < PG_ADC + 4 ∨ pg = PG_EST ∨ pg = PG_HEALTH ∨ pg = PG_INPATH ∨ pg = PG_FEEDS then bits 4
  else if PG_SLINK ≤ pg ∧ pg < PG_SLINK + 16 then bits 8
  else if PG_BAL ≤ pg ∧ pg < PG_BAL + 16 ∨ pg = PG_RING then bits 7
  else if pg = PG_LDO then bits 9
  else if pg = PG_FAULT then 0xD
  else if pg = PG_RTC ∨ pg = PG_EVQ ∨ pg = PG_I2CC then bits 2
  else if pg = PG_SPI ∨ pg = PG_I2CT then bits 1
  else if pageAssigned pg then bits 3
  else 0

/-- Occurrences set the bits `sets` of a W1C register other than STATUS: a cause of ERR as `err` does, a FAULT status word through the pulses
that wait, another register's bit plainly (R36, R37). -/
def State.setBits (s : State) (a : Nat) (r : RegInfo) (sets : Word) : State :=
  let pg := a / 0x400
  if a = hdrAddr pg hdrERR then
    (List.range 32).foldl (fun (t : State) (k : Nat) => if bitOf (sets.toNat &&& errMask pg) k then t.err pg k else t) s
  else if pg = PG_FAULT ∧ (a % 0x400 = 0x40 ∨ a % 0x400 = 0x44) then
    s.faultClear (a % 0x400 == 0x44) 0 ((List.range 32).filterMap fun k => if bitOf sets.toNat k then some (k + (if a % 0x400 = 0x44 then 32 else 0)) else none)
  else s.wr a (s.rd a ||| (sets &&& BitVec.ofNat 32 r.w1c))

/-- A write of W1C bits with bits of the same register set in the same owner clock (R37, Table 16): a set wins over the clear and over nothing
else, each bit both set and cleared counts a collision, and it raises its event again or pulses its line again.  What is set does not depend on
the write being accepted. -/
def State.w1cWrite (s : State) (m : Master) (a : Nat) (clr sets : Word) : State :=
  let pg := a / 0x400
  if a = hdrAddr pg hdrSTATUS ∧ statusMask pg ≠ 0 then
    let x := sets &&& BitVec.ofNat 32 (statusMask pg)
    if s.accepts m && m != .lamplighter && m != .preload then (s.noteWrite m pg).statusW1C pg clr x
    else if s.guardRuns then s.statusW1C pg 0 x
    else s
  else
    let u := s.hostWrite m a clr
    match region a, regInfo a with
    | .page, some r =>
      if r.w1c = 0 || !s.guardRuns then u
      else
        let v := u.setBits a r sets
        let def1 := if a = hdrAddr pg hdrERR then errMask pg else r.w1c
        let n := popCount (clr &&& sets &&& BitVec.ofNat 32 def1).toNat 32
        let hit := s.accepts m && (r.lck || (m != .lamplighter && m != .preload)) && !(pg == PG_FAULT && (a % 0x400 == 0x40 || a % 0x400 == 0x44))
        if n = 0 || !hit then v
        else v.wr (hdrAddr pg hdrCOLLIDE) (BitVec.ofNat 32 (min 255 ((v.rd (hdrAddr pg hdrCOLLIDE)).toNat % 256 + n)))
    | _, _ => u

/-- The banks of an image check that meet an uncorrectable attic read. -/
def badBanks (a b : Bool) (k : Nat) : Bool := if k = 1 then a else b

/-- The value of a command register: KEY in [31:16] and the rest. -/
def cmdWord (key : BitVec 16) (v : Nat) : Word := BitVec.ofNat 32 (key.toNat * 0x10000 + v)

/-! ### Modes -/

/-- A write of MODEREQ with KEY, OP and the banks that read badly (R486); a request that loses to another happening of its clock is recorded as
superseded (R487). -/
def State.modeRequest (s : State) (m : Master) (key : BitVec 16) (op : Nat) (superseded badA badB : Bool) : State :=
  s.hostAct m PG_DEV fun t => if superseded then t.modeRes 0x15 else t.modeReq key.toNat op (badBanks badA badB)

/-- T_OFF after the FALL of a power cycle has passed: RISE begins, with bias (R499). -/
def State.offExpire (s : State) : State :=
  if s.mode = .cellar ∧ s.dev.armedOff.isSome then { s with dev.armedOff := none }.riseFromCellar 6 else s

/-- T_OFF_MIN after a completed fall with an on request (R336). -/
def State.offMinEnd (s : State) : State :=
  if s.mode = .cellar ∧ s.dev.onAtFall then { s with dev.onAtFall := false }.riseFromCellar 7
  else if s.seqPhase = 5 ∧ s.mode ≠ .fall then s.seqRise (!s.dev.vhbOn)
  else s

/-- A wake source other than an alarm: VHB's crossing is also what ends the hold of the rail start. -/
def State.wakeSource (s : State) (src : Nat) : State :=
  if src = 4 then { s with dev.vhbOn := true }.wakeRequest 16 else s.wakeRequest (2 ^ src)

/-- An on request in CELLAR: a wake source, or one armed in the fall (R488). -/
def State.onRequest (s : State) (src : Option Nat) : State :=
  if s.mode ≠ .cellar then s
  else
    match src with
    | some k => s.wakeSource k
    | none => s.offMinEnd

/-- TEST goes high or low (R505). -/
def State.testPin (s : State) (high : Bool) : State :=
  let s1 : State := { s with dev.testHigh := high }
  if high then s1.tickFresh.deviceReset (Config.riseCauseOpen s1.fresh) else s1

/-- A VDDIO bank falls below 0.8 V or rises above it (R503): with it low PACK_DET_N reads as not seated, RESETIN_N as released, TEST as low. -/
def State.vddioChange (s : State) (bank : Fin 5) (low : Bool) : State :=
  let s1 : State := { s with dev.vddioLow := putBit s.dev.vddioLow bank.val low }
  if !low then s1
  else if bank = 1 then { s1 with pack.det := false }
  else if bank = 3 then { s1 with dev.resetIn := false }
  else if bank = 4 then { s1 with dev.testHigh := false }
  else s1

/-- An event that comes in through inputs of a VDDIO bank, which read inactive while the bank is low (R503). -/
def State.through (s : State) (bank : Nat) (f : State → State) : State := if s.bankLow bank then s else f s

/-! ### Results and trips handed to the blocks -/

/-- A temperature result reaches THERM, and an AUX reading the feeds and the pack that use it (R301, R312, R344). -/
def State.sensorTaken (s : State) (t e : Nat) : State :=
  let inp := bitsOf (s.resultCfg 3 (16 * (t % 4) + e % 16)) 0 6
  let s1 := s.sensorResult t e
  if 16 ≤ inp ∧ inp ≤ 23 then
    let s2 := s1.feedsDirect (inp - 16)
    if s2.get PACK_CFG_TSRC = inp - 15 then s2.packZone else s2
  else s1

/-- Compensator inputs that came in with a result reach their unit (R114). -/
def State.unitInput (s : State) (unit din code : Nat) : State :=
  if unit < 16 then s.balInput (Fin.ofNat 16 unit) din code
  else if unit = 16 then s.packInput din code
  else if unit = 17 then s.svcInput din code
  else if unit = 32 then s.ibcInput din code
  else s

/-- A reading of VCELLAR at gain `2 ^ g` (R378): full scale is 4.8 V over the gain, V_CELLLOW counts 10 mV. -/
def State.cellReading (s : State) (g code : Nat) : State :=
  let low := decide (code * 480 < s.get CELLAR_CFG_V_CELLLOW * 4096 * 2 ^ g)
  (s.put CELLAR_SUPPLY_LOWCELL (b2n low)).level PG_CELLAR CELLAR_ST_LOWCELL low

/-- A result of a compensator's input reaches its unit; a channel's BALn_VS, its input 1, may be what its selection waits for (R114, R253). -/
def State.unitResult (s : State) (unit din c ago : Nat) : State :=
  let s1 := s.unitInput unit din c
  if unit < 16 ∧ din = 1 then (s1.selVerify (Fin.ofNat 16 unit) ago).afterLink (Fin.ofNat 16 unit) else s1

/-- A conversion of entry `e` ends with its input at `uv` microvolts: its result is delivered, and the blocks that wait for it take it.  A
reserved input or TS code sets BADENT; a position that no slice serves delivers nothing (R105, R106, R110, R114, R123, R253, R378). -/
def State.converted (s : State) (b : Fin 4) (e : Nat) (uv : Int) (ago : Nat) (onReleased : Bool) : State :=
  match (s.bank b).table[e]? with
  | none => s
  | some (cfg, lim) =>
    let inp := bitsOf cfg 0 6
    let c := adcCode b cfg uv
    let s1 := s.raiseIf (adcReserved b inp || bitsOf cfg 8 3 == 7) (adcPage b) ADC_ST_BADENT
    let slice := s1.convSlice b inp onReleased
    if !s.dev.pll || slice == 7 then s1
    else
      let s2 := s1.deliver b e cfg lim slice c ago
      let s3 := if b = 3 ∧ inp = 52 then s2.cellReading (bitsOf cfg 12 2) c else s2
      if bitsOf cfg 14 2 = 2 ∧ dinUnitOk (bitsOf cfg 16 6) then s3.unitResult (bitsOf cfg 16 6) (bitsOf cfg 22 2) c ago else s3

/-- The last result of a table is delivered; after a slow round of ADCD temperatures follow (R111, R226, R353). -/
def State.sequenceEnd (s : State) (b : Fin 4) : State :=
  let slow := decide (b = 3) && s.on (adcF ADC_STATE_BUSY b) && s.get (adcF ADC_STATE_SEQ b) == 3
  if slow then (s.seqDone b).slowRound else s.seqDone b

/-- What a comparator that holds its targets means to their blocks (R261, R297, R311, R324). -/
def State.tripFollow (s : State) (k : Nat) : State :=
  if k = 18 ∨ k = 19 then s.ibcZero (k - 18)
  else if k = 22 then s.packZero
  else if k = 23 then s.packOv
  else if 24 ≤ k ∧ k < 32 then s.feedFast (Fin.ofNat 8 (k - 24))
  else s

/-- An event of comparator `k`: its target's block follows when the comparator begins to act (R131). -/
def State.tripEvent (s : State) (k : Nat) (f : State → State) : State :=
  let t := f s
  if t.cmpActing k && !s.cmpActing k then t.tripFollow k else t

/-- An event on a link: the channel and charge tracking follow a link that goes stale, the selection and the channel's module what came back. -/
def State.linkEvent (s : State) (n : Fin 16) (f : State → State) : State :=
  let t := f s
  let u := if (t.lk n).stale && !(s.lk n).stale then (t.balStale n).fallbackStart n else t
  u.afterLink n

/-- A channel's stop that ends, or whose check fails, lets the selection that waits for it go on (R253, R254). -/
def State.afterStop (s : State) (n : Fin 16) (f : State → State) : State :=
  let u := f s
  if (s.balCode n = 4 ∧ u.balCode n ≠ 4) ∨ (!(s.bs n).stopFail ∧ (u.bs n).stopFail) then (u.selAfterStop n).afterLink n else u

/-- A window monitor takes a sample; a change of its state may wake (R136, R139). -/
def State.windowSampled (s : State) (n : Fin 16) (uv : Int) : State :=
  let r := s.windowSample n uv
  if r.1 then r.2.wakeRequest 1 else r.2

/-- The period boundary of a converter output. -/
def State.periodEnd (s : State) (u : Conv) (padsBad : Bool) (x : RailSense) : State :=
  match u with
  | .bal n => s.afterStop n fun t => t.balBoundary n padsBad
  | .pack => s.packBoundary padsBad
  | .svc => s.svcBoundary padsBad
  | .ibc => s.ibcBoundary padsBad x
  | .pol k => s.polBoundary k padsBad x
  | .ldo k => s.ldoBoundary k padsBad x

/-- V_HBFALL in force, 10 mV: at or above V_HBON it acts as V_HBON − 100 (Table 12). -/
def State.vhbFallAt (s : State) : Nat :=
  let on := s.get SEQ_VHB_V_HBON
  if on ≤ s.get SEQ_VHB_V_HBFALL then on - 100 else s.get SEQ_VHB_V_HBFALL

/-- A supervisor's judgement of `uv` µV: rails 0 to 14, 15 for VHB, which an injected judgement reads below V_HBFALL (R319, R336, R343). -/
def State.judged (s : State) (r : Fin 16) (uv : Nat) : State :=
  if h : r.val < 15 then s.railJudge ⟨r.val, h⟩ uv
  else
    let s1 := s.injTake PG_SEQ 1
    if s.injOn PG_SEQ 1 ∨ uv < 10000 * s.vhbFallAt then s1.vhbLow
    else if 10000 * s.get SEQ_VHB_V_HBON < uv then s1.vhbRise
    else s1

/-- T_HIC of a rail ends; 15 stands for SVC. -/
def State.hiccupOver (s : State) (r : Fin 16) : State := if h : r.val < 15 then s.railHiccupEnd ⟨r.val, h⟩ else s.svcHiccupEnd

/-! ### Markers, rounds, frames -/

/-- The counters of cycles that the banks hold (Table 27 of sampling). -/
def State.countCycles (s : State) : State :=
  (List.finRange 4).foldl (fun (t : State) (b : Fin 4) => t.put (adcF ADC_COUNT_CYCLE b) ((t.get (adcF ADC_COUNT_CYCLE b) + 1) % 65536)) s

/-- The counters of rounds that the banks hold. -/
def State.countRounds (s : State) : State :=
  (List.finRange 4).foldl (fun (t : State) (b : Fin 4) => t.put (adcF ADC_COUNT_ROUND32 b) ((t.get (adcF ADC_COUNT_ROUND32 b) + 1) % 32)) s

/-- The cycle marker (R50): the detectors judge what came in since the last one, then the lanes switch class and start their cycle tables.
`inLimit` says that the input path's sense stands at its limit; `fets` are the feeds' monitors (R306). -/
def State.cycleMarker (s : State) (settled inLimit : Bool) (fets : List FetSense) : State :=
  if !s.dev.pll then s
  else
    let s1 := (s.cyclePosition.countCycles.rideMarker.inpMarker inLimit).packMarker.feedMonitors fets
    let s2 := (List.finRange 16).foldl (fun (t : State) (n : Fin 16) => t.overlayMarker n) s1
    { s2.lampMarker [0, 1, 2, 3, 4] settled with lamp.atRound := false }

/-- The GUARD lane sees the marker (R51). -/
def State.guardMarker (s : State) : State := if s.guardRuns then (s.laneMarker 5).laneStart 5 else s

/-- The lanes' own markers with the PLL stopped (R52): the RAIL lane's, while rails are kept, else the GUARD lane's, count the cycle.  A FALL that
HIBERNATE went to keeps them until its class switch (R64; DEDUCED, log entry 151). -/
def State.hibMarker (s : State) (rail settled : Bool) : State :=
  if s.dev.pll || !(s.mode = .hibernate || s.mode = .fall) then s
  else if rail then (if s.seq.keep = 0 then s else s.ownPosition.lampMarker [4] settled)
  else if s.seq.keep = 0 then s.ownPosition.lampMarker [5] settled
  else (s.laneMarker 5).laneStart 5

/-- A round boundary (R14); one that begins a frame hands over the charge of the frame before (R184).  With the PLL stopped only the parity
scan of a round's time is left (R38). -/
def State.roundBoundary (s : State) : State :=
  if !s.dev.pll then s.parityScan
  else
    let s1 := (s.parityScan.roundPosition.countRounds).hbRound.inpRound
    let s2 := (List.finRange 16).foldl (fun (t : State) (n : Fin 16) => (t.linkRound n).balRound n) s1
    let s3 := s2.packRound.feedsRound.railsRound.estRound
    if s.lamp.newFrame then s3.estFrame else s3

/-- A frame boundary (R15): the frame's number, the pack's record, the hibernated time, rest requests, relights and returns to RUN.  The charge of the
frame that ends is handed to the cells' next update at the round boundary of the same instant, once its last round's has been added (R184). -/
def State.frameBoundary (s : State) : State :=
  if !s.dev.pll then s
  else
    let s1 := { s.frameBegin (s.get RING_PTIME_E_E) s.ring.newEpoch with ring.newEpoch := false }
    (s1.packFrame.wakeAccount.restRequests).frameRelight

/-- An epoch boundary (R468). -/
def State.epochEnd (s : State) (corr : Nat) : State := if s.dev.pll then s.epochBoundary corr else s

/-- The accumulation step of the round (R179, R303). -/
def State.accumulation (s : State) : State :=
  if s.mode.counts then s.accStep.packCount else s

/-- An hour of RTC time has passed (R227). -/
def State.hourly (s : State) : State :=
  if s.mode.counts then s.flushStart none else s

end Sys2Proof.Machine
end

