-- ==== Sys2Proof/Machine/CmdAccess.lean ====
section
/-! DEFINITION. The meanings of the commands of accesses of masters, function resets and long operations (R26 to R47, R372). -/

namespace Sys2Proof.Machine

/-- REGISTER_WRITE (R32): A write to a register with no row of its own takes effect in its owner island and updates LAST_WRITER and the
sequence counter. -/
def execRegisterWrite (m : Master) (addr : BitVec 24) (v : Word) (s : State) : Host.Outcome State Fault Refusal :=
  effect (fun t => t.hostWrite m addr.toNat v) s

/-- MEMORY_WRITE (R29): A master writes a word of the store room, working SRAM or cellar memory. -/
def execMemoryWrite (m : Master) (addr : BitVec 24) (v : Word) (s : State) : Host.Outcome State Fault Refusal :=
  effect (fun t => t.hostWrite m addr.toNat v) s

/-- ATTIC_DIRECT_WRITE (R29): A direct write to the attic is ignored and ATTIC.STATUS.DIRWR is set. -/
def execAtticDirectWrite (m : Master) (addr : BitVec 24) (v : Word) (s : State) : Host.Outcome State Fault Refusal :=
  effect (fun t => t.hostWrite m addr.toNat v) s

/-- UNMAPPED_ACCESS (R30): An access to an unmapped address has no effect, reads 0 and sets DEV.STATUS.UNMAPPED. -/
def execUnmappedAccess (m : Master) (addr : BitVec 24) (w : Option Word) (s : State) : Host.Outcome State Fault Refusal :=
  effect (fun t => t.hostAccessWord m addr.toNat w) s

/-- STATUS_W1C (R37): A write of 1 clears a W1C status bit, unless it is set in the same clock, which increments COLLIDE. -/
def execStatusW1c (m : Master) (addr : BitVec 24) (clr sets : Word) (s : State) : Host.Outcome State Fault Refusal :=
  effect (fun t => t.w1cWrite m addr.toNat clr sets) s

/-- FUNCTION_RESET (R34): A write of CTRL.FRESET returns the page's FR registers to reset and puts the block's outputs at safe levels. -/
def execFunctionReset (m : Master) (pg : Fin 1024) (enable : Bool) (s : State) : Host.Outcome State Fault Refusal :=
  effect (fun t => t.hostWrite m (hdrAddr pg.val hdrCTRL) (BitVec.ofNat 32 (2 + b2n enable))) s

/-- FUNCTION_RESET_DONE (R34): A function reset completes within 100 µs and the block starts again under ENABLE. -/
def execFunctionResetDone (pg : Fin 1024) (s : State) : Host.Outcome State Fault Refusal := effect (fun t => t.funcResetDone pg.val) s

/-- ERR_INJ_WRITE (R372): A write of ERR_INJ arms a checker to invert its next COUNT checks, or is ignored for an undefined code. -/
def execErrInjWrite (m : Master) (pg : Fin 1024) (checker : BitVec 5) (count : BitVec 4) (s : State) : Host.Outcome State Fault Refusal :=
  effect (fun t => t.hostWrite m (hdrAddr pg.val hdrERR_INJ) (BitVec.ofNat 32 (checker.toNat * 256 + count.toNat))) s

/-- LONGOP_COMPLETE (R46): A long operation ends; DEV.LONGOP records its code and result and DEV.STATUS.LONGDONE is set. -/
def execLongopComplete (e : OpEnd) (s : State) : Host.Outcome State Fault Refusal := effect (fun t => t.opEnd e) s

end Sys2Proof.Machine
end

