-- ==== Sys2Proof/Machine/CmdChannel.lean ====
section
/-! DEFINITION. The meanings of the commands of converter periods, the balancing channels and the module selection (R232 to R257). -/

namespace Sys2Proof.Machine

/-- PERIOD_BOUNDARY (R245): A switching period boundary of a converter output; charge and energy are accumulated and pads checked. -/
def execPeriodBoundary (u : Conv) (padsBad : Bool) (sense : RailSense) (s : State) : Host.Outcome State Fault Refusal :=
  effect (fun t => t.periodEnd u padsBad sense) s

/-- HICCUP_END (R250): T_HIC has passed and the channel soft-starts at the next round boundary. -/
def execHiccupEnd (n : Fin 16) (s : State) : Host.Outcome State Fault Refusal := simple (fun t => t.hicEnd n) s

/-- CHANNEL_SENSE_LOSS (R233): Four switching periods pass without an I_CS result; the channel stops at once and ERR.SENSE is set. -/
def execChannelSenseLoss (n : Fin 16) (s : State) : Host.Outcome State Fault Refusal := effect (fun t => t.afterStop n fun u => u.balSenseLoss n) s

/-- SOFT_START_DONE (R243): i_ss reaches I_MAX and the channel enters ACTIVE. -/
def execSoftStartDone (n : Fin 16) (s : State) : Host.Outcome State Fault Refusal := simple (fun t => t.softDone n) s

/-- STOP_CHECK (R244): 2 × T_SW after the references go low the current is compared with ±I_ZERO, giving STOPPED or STOPFAIL. -/
def execStopCheck (n : Fin 16) (s : State) : Host.Outcome State Fault Refusal := effect (fun t => t.afterStop n fun u => (u.stopCheck n).2) s

/-- INSTANT_NOTICE (R246): A SAMPLE or BURST ARM notice reaches the channel, which latches IMOD_TI or the set-0 instant. -/
def execInstantNotice (n : Fin 16) (clocks : Nat) (burst : Option Nat) (s : State) : Host.Outcome State Fault Refusal :=
  simple (fun t => t.instantNotice n clocks burst) s

/-- SELECT_POLL (R253): Every T_POLL the selection sequence sends a NOP poll to read back the selector. -/
def execSelectPoll (n : Fin 16) (s : State) : Host.Outcome State Fault Refusal := effect (fun t => t.linkEvent n fun u => u.selPoll n) s

/-- SELECT_OPEN_TIMEOUT (R254): OPEN is not read back within T_OPENMAX; no SELECT is sent and ERR.OPENFAIL is set. -/
def execSelectOpenTimeout (n : Fin 16) (s : State) : Host.Outcome State Fault Refusal := effect (fun t => t.linkEvent n fun u => u.selOpenTimeout n) s

/-- SELECT_CLOSE_TIMEOUT (R254): CLOSED is not read back within T_CLOSEMAX; the target is deselected and excluded. -/
def execSelectCloseTimeout (n : Fin 16) (s : State) : Host.Outcome State Fault Refusal :=
  effect (fun t => t.linkEvent n fun u => u.selCloseTimeout n) s

/-- SELECT_VERIFY_TIMEOUT (R254): No BALn_VS result within 1 ms of read-back; the target is deselected and excluded. -/
def execSelectVerifyTimeout (n : Fin 16) (s : State) : Host.Outcome State Fault Refusal :=
  effect (fun t => t.linkEvent n fun u => u.selVerifyTimeout n) s

end Sys2Proof.Machine
end

