-- ==== Sys2Proof/Machine/CmdCollect.lean ====
section
/-! DEFINITION. The meanings of the commands of the fault collection (R9, R357 to R376). -/

namespace Sys2Proof.Machine

/-- CLOCK_MONITOR (R9): Every 10 µs GUARD compares the island clocks and reference, raising the clock-monitor fault on deviation. -/
def execClockMonitor (off stopped : BitVec 7) (s : State) : Host.Outcome State Fault Refusal :=
  simple (fun t => t.clockMonitor off.toNat stopped.toNat) s

/-- ERROR_LINE_PULSE (R357): An error line pulses into GUARD for a cause that becomes set. -/
def execErrorLinePulse (sources : List (Fin 64)) (s : State) : Host.Outcome State Fault Refusal :=
  effect (fun t => t.linePulses (sources.map Fin.val)) s

/-- ERROR_LINE_DISAGREE (R357): An error-line pair reads equal for 2 clocks; FAULT.ERR.LINE is set and its source latches. -/
def execErrorLineDisagree (k : Fin 64) (s : State) : Host.Outcome State Fault Refusal := effect (fun t => t.lineDisagree k.val) s

/-- REACTION_END (R367): T_MERGE and the first readback have passed; the reaction's single record is written. -/
def execReactionEnd (s : State) : Host.Outcome State Fault Refusal := simple (fun t => t.reactionEnd) s

/-- SNUFF_READBACK (R364): GUARD reads back every forced pad; two mismatches set ERR.SNUFFRB. -/
def execSnuffReadback (bad : List (Fin 128)) (s : State) : Host.Outcome State Fault Refusal := simple (fun t => t.snuffReadback (bad.map Fin.val)) s

/-- FAULT_STATUS_CLEAR (R371): A W1C write to FAULT.STATUS clears latched bits unless the source is active at SHED or above. -/
def execFaultStatusClear (m : Master) (hi : Bool) (v : Word) (sources : List (Fin 64)) (s : State) : Host.Outcome State Fault Refusal :=
  effect (fun t => t.hostAct m PG_FAULT fun u => u.faultClear hi v.toNat (sources.map Fin.val)) s

/-- RAISE_SET (R376): A write of FAULT.RAISE.SET raises RAISE sources. -/
def execRaiseSet (m : Master) (mask : BitVec 7) (s : State) : Host.Outcome State Fault Refusal :=
  simple (fun t => t.hostWrite m (hdrAddr PG_FAULT 0x64) (BitVec.ofNat 32 mask.toNat)) s

/-- RAISE_CLEAR (R376): A write of FAULT.RAISE.CLR clears RAISE sources. -/
def execRaiseClear (m : Master) (mask : BitVec 7) (s : State) : Host.Outcome State Fault Refusal :=
  simple (fun t => t.hostWrite m (hdrAddr PG_FAULT 0x64) (BitVec.ofNat 32 (mask.toNat * 0x10000))) s

/-- FAULT_CFG_LOCK (R360): A write of 1 to FAULT.CFG.LOCK makes every CLASSj read-only until device reset. -/
def execFaultCfgLock (m : Master) (rest : BitVec 31) (s : State) : Host.Outcome State Fault Refusal :=
  simple (fun t => t.hostWrite m (hdrAddr PG_FAULT 0x60) (BitVec.ofNat 32 (0x80000000 + rest.toNat))) s

/-- CLASS_WRITE (R360): A write of FAULT.CLASSj stores each class clamped to its range for later latches. -/
def execClassWrite (m : Master) (j : Fin 8) (v : Word) (s : State) : Host.Outcome State Fault Refusal :=
  simple (fun t => t.hostWrite m (hdrAddr PG_FAULT (0x80 + 4 * j.val)) v) s

/-- FAULT_LOG_WRITE (R375): A fault log entry is written to the attic after the record, or queued or dropped during a long operation. -/
def execFaultLogWrite (s : State) : Host.Outcome State Fault Refusal := simple (fun t => t.logWrite) s

end Sys2Proof.Machine
end

