-- ==== Sys2Proof/Machine/CmdFeed.lean ====
section
/-! DEFINITION. The meanings of the commands of the branch feeds (R306 to R316). -/

namespace Sys2Proof.Machine

/-- FEED_CURRENT_RESULT (R306): A feed current result arrives and the timed check and thermal model step. -/
def execFeedCurrentResult (n : Fin 8) (s : State) : Host.Outcome State Fault Refusal := simple (fun t => t.feedResult n) s

/-- FEED_TIMED_TRIP (R311): I_FEED above I_OC over a span of T_OC trips the feed. -/
def execFeedTimedTrip (n : Fin 8) (s : State) : Host.Outcome State Fault Refusal := simple (fun t => t.feedTimed n) s

/-- FEED_SENSE_LOSS (R306): Four rounds without a current result set FEEDS.ERR.SENSE. -/
def execFeedSenseLoss (n : Fin 8) (s : State) : Host.Outcome State Fault Refusal := simple (fun t => t.feedSenseLoss n) s

/-- FEED_SEAT_CONFIRM (R308): Every seat sample low over T_SEAT confirms the seat; the feed enters QUEUED. -/
def execFeedSeatConfirm (n : Fin 8) (s : State) : Host.Outcome State Fault Refusal := simple (fun t => t.through 1 fun u => u.seatConfirm n) s

/-- FEED_SEAT_REMOVE (R308): Two consecutive high seat samples discharge the gate fast and the feed enters UNSEATED. -/
def execFeedSeatRemove (n : Fin 8) (s : State) : Host.Outcome State Fault Refusal := simple (fun t => t.seatRemove n) s

/-- FEED_START (R309): A QUEUED feed whose turn has come enters START and charges its gate. -/
def execFeedStart (n : Fin 8) (s : State) : Host.Outcome State Fault Refusal := simple (fun t => t.feedStart n) s

/-- FEED_POWER_GOOD (R310): V_GS and V_DS hold for 1 ms and the feed enters ON. -/
def execFeedPowerGood (n : Fin 8) (s : State) : Host.Outcome State Fault Refusal := simple (fun t => t.feedPowerGood n) s

/-- FEED_START_TIMEOUT (R311): No power-good within T_START_MAX trips the feed. -/
def execFeedStartTimeout (n : Fin 8) (s : State) : Host.Outcome State Fault Refusal := simple (fun t => t.feedStartMax n) s

/-- FEED_RETRY (R313): The off time ends and the feed leaves TRIPPED for QUEUED. -/
def execFeedRetry (n : Fin 8) (s : State) : Host.Outcome State Fault Refusal := simple (fun t => t.feedRetry n) s

/-- FEED_GOOD_TIMER (R313): T_GOOD in ON sets CONSEC to 0. -/
def execFeedGoodTimer (n : Fin 8) (s : State) : Host.Outcome State Fault Refusal := simple (fun t => t.feedGood n) s

/-- FEED_SHED (R314): A new applied shed level reaches the feeds; covered classes are shed and uncovered ones queue again. -/
def execFeedShed (s : State) : Host.Outcome State Fault Refusal := simple (fun t => t.feedsShed) s

/-- FEEDS_CLEAR_LOCKED (R316): FEEDS.CMD OP 1 clears LOCKED on the masked feeds. -/
def execFeedsClearLocked (m : Master) (key : BitVec 16) (mask : BitVec 8) (s : State) : Host.Outcome State Fault Refusal :=
  effect (fun t => t.hostWrite m (hdrAddr PG_FEEDS 0x60) (cmdWord key (mask.toNat * 256 + 1))) s

/-- FEEDS_RESTART (R307): FEEDS.CMD OP 2 moves masked feeds from TRIPPED to QUEUED, or starts them in SERVICE. -/
def execFeedsRestart (m : Master) (key : BitVec 16) (mask : BitVec 8) (s : State) : Host.Outcome State Fault Refusal :=
  effect (fun t => t.hostWrite m (hdrAddr PG_FEEDS 0x60) (cmdWord key (mask.toNat * 256 + 2))) s

end Sys2Proof.Machine
end

