-- ==== Sys2Proof/Machine/CmdHeat.lean ====
section
/-! DEFINITION. The meanings of the commands of temperatures and throttling (R344 to R351). -/

namespace Sys2Proof.Machine

/-- SENSOR_RESULT (R345): THERM takes a temperature result from ADCD and converts it or marks it invalid. -/
def execSensorResult (table : Fin 4) (entry : Fin 16) (s : State) : Host.Outcome State Fault Refusal :=
  simple (fun t => t.sensorTaken table.val entry.val) s

/-- READING_STALE (R347): No result for a reading within T_STALE and it becomes invalid. -/
def execReadingStale (r : Fin 20) (s : State) : Host.Outcome State Fault Refusal := simple (fun t => t.readingStale r) s

/-- THERM_STEP (R349): A write of THERM.STEP.GO makes one throttle judgement of TD and every TC_n. -/
def execThermStep (m : Master) (s : State) : Host.Outcome State Fault Refusal := simple (fun t => t.hostWrite m (hdrAddr PG_THERM 0x44) 1) s

/-- THERM_AUTOSTEP (R349): 150 ms without a STEP write, then every 100 ms, THERM judges on its own. -/
def execThermAutostep (s : State) : Host.Outcome State Fault Refusal := simple (fun t => t.throttleAuto) s

/-- THERMAL_SHUTDOWN (R351): A shutdown comparator trips at T_SD and drives the STOP-class thermal source. -/
def execThermalShutdown (k : Fin 12) (s : State) : Host.Outcome State Fault Refusal := simple (fun t => t.thermTrip k) s

end Sys2Proof.Machine
end

