-- ==== Sys2Proof/Machine/CmdHost.lean ====
section
/-! DEFINITION. The meanings of the commands of the host buses (R411 to R425, R452). -/

namespace Sys2Proof.Machine

/-- SPI_LOCAL_WRITE (R414): A host SPI write frame for this device is checked and its words applied, answered ACK or NAK. -/
def execSpiLocalWrite (f : HostFrame) (s : State) : Host.Outcome State Fault Refusal :=
  effect (fun t => t.through 2 fun u => u.spiFrame .spi true none f) s

/-- SPI_LOCAL_READ (R415): A host SPI read frame is checked and answered with READY and the data, or NAK. -/
def execSpiLocalRead (f : HostFrame) (s : State) : Host.Outcome State Fault Refusal :=
  effect (fun t => t.through 2 fun u => u.spiFrame .spi false none f) s

/-- SPI_REMOTE_WRITE (R416): A host SPI remote write frame is posted to the ring and answered ACK or NAK. -/
def execSpiRemoteWrite (dev : BitVec 16) (f : HostFrame) (s : State) : Host.Outcome State Fault Refusal :=
  effect (fun t => t.through 2 fun u => u.spiFrame .spi true (some dev) f) s

/-- SPI_REMOTE_READ (R416): A host SPI remote read frame is sent over the ring, with its result collected in DEV.RMT_STAT. -/
def execSpiRemoteRead (dev : BitVec 16) (f : HostFrame) (s : State) : Host.Outcome State Fault Refusal :=
  effect (fun t => t.through 2 fun u => u.spiFrame .spi false (some dev) f) s

/-- SPI_ABORT (R414): HCS_N rises before the CRC byte; nothing is applied and STATUS.ABORT is set. -/
def execSpiAbort (s : State) : Host.Outcome State Fault Refusal := simple (fun t => t.through 2 fun u => u.spiAbort .spi) s

/-- I2C_WRITE (R420): An I²C write transaction is judged at P and applied or discarded. -/
def execI2cWrite (low : BitVec 6) (dev : Option (BitVec 16)) (addr : BitVec 24) (data : List (BitVec 8)) (s : State) : Host.Outcome State Fault Refusal :=
  effect (fun t => t.through 2 fun u => u.i2cWrite low dev addr data) s

/-- I2C_LOCAL_READ (R420): An I²C local read transaction returns the data words. -/
def execI2cLocalRead (cmd : Option (BitVec 24 × BitVec 8)) (take : Option Nat) (s : State) : Host.Outcome State Fault Refusal :=
  effect (fun t => t.through 2 fun u => u.i2cRead cmd take) s

/-- I2C_REMOTE_READ (R420): An I²C remote read command is sent over the ring for later collection. -/
def execI2cRemoteRead (dev : BitVec 16) (addr : BitVec 24) (len : BitVec 8) (s : State) : Host.Outcome State Fault Refusal :=
  effect (fun t => t.through 2 fun u => u.i2cRemoteRead dev addr len) s

/-- I2C_TIMEOUT (R420): SCL held low for 35 ms; the target releases the bus and abandons the transaction. -/
def execI2cTimeout (s : State) : Host.Outcome State Fault Refusal := simple (fun t => t.i2cTimeout) s

/-- I2C_WAKE_MATCH (R422): In HIBERNATE the cellar recogniser matches the address, holds TSCL and raises a wake request. -/
def execI2cWakeMatch (s : State) : Host.Outcome State Fault Refusal := effect (fun t => t.through 2 fun u => u.i2cWake) s

/-- I2C_WAKE_TIMEOUT (R422): PORT does not run within t_WAKE; TSCL is released without ACK. -/
def execI2cWakeTimeout (s : State) : Host.Outcome State Fault Refusal := simple (fun t => t.i2cWakeTimeout) s

/-- I2CC_GO (R423): I2CC.XFER.GO starts a controller transfer after a bus check. -/
def execI2ccGo (m : Master) (v : BitVec 30) (s : State) : Host.Outcome State Fault Refusal :=
  simple (fun t => t.hostWrite m (hdrAddr PG_I2CC 0x44) (BitVec.ofNat 32 (0x80000000 + v.toNat))) s

/-- I2CC_CLEAR (R424): I2CC.XFER.CLEAR runs the bus clear only. -/
def execI2ccClear (m : Master) (v : BitVec 30) (s : State) : Host.Outcome State Fault Refusal :=
  simple (fun t => t.hostWrite m (hdrAddr PG_I2CC 0x44) (BitVec.ofNat 32 (0x40000000 + v.toNat))) s

/-- I2CC_DONE (R424): A controller transfer ends with its RESULT code. -/
def execI2ccDone (cleared : Bool) (e : I2ccEnd) (rx : List (BitVec 8)) (s : State) : Host.Outcome State Fault Refusal :=
  simple (fun t => t.i2ccEnd cleared e rx) s

/-- I2CC_STRETCH_TIMEOUT (R424): A target stretches CSCL beyond T_CSTRETCH; the transfer ends with RESULT 5. -/
def execI2ccStretchTimeout (s : State) : Host.Outcome State Fault Refusal := simple (fun t => t.i2ccStretch) s

/-- DEBUG_LINK_FRAME (R452): A service lantern debug-link frame between breaks is served as a host SPI frame of master 4. -/
def execDebugLinkFrame (w : Bool) (dev : Option (BitVec 16)) (f : HostFrame) (s : State) : Host.Outcome State Fault Refusal :=
  effect (fun t => t.debugFrame w dev f) s

end Sys2Proof.Machine
end

