-- ==== Sys2Proof/Machine/CmdImage.lean ====
section
/-! DEFINITION. The meanings of the commands of relighting, the schedule store, the attic and the OCV sets (R56, R75 to R102, R192, R193). -/

namespace Sys2Proof.Machine

/-- RELIGHT (R75): A LAMP.RELIGHT write requests a warm or cold relight, or it is refused with a code. -/
def execRelight (m : Master) (v : Word) (s : State) : Host.Outcome State Fault Refusal := effect (fun t => t.hostWrite m (hdrAddr PG_LAMP 0x50) v) s

/-- WARM_RELIGHT_COPY_DONE (R77): The warm relight copy and its checks complete, or fail with code 0x20. -/
def execWarmRelightCopyDone (readBad : Bool) (s : State) : Host.Outcome State Fault Refusal := effect (fun t => t.warmDone readBad) s

/-- COLD_RELIGHT_LOAD_DONE (R78): The cold relight's load and check complete, or the previous bank is lit again. -/
def execColdRelightLoadDone (badA badB : Bool) (s : State) : Host.Outcome State Fault Refusal := effect (fun t => t.coldDone (badBanks badA badB)) s

/-- SCHEDULE_STORE_WRITE (R81): A master writes the schedule store; a lit word sets MODIFIED and applies from its next issue. -/
def execScheduleStoreWrite (m : Master) (addr : BitVec 24) (v : Word) (s : State) : Host.Outcome State Fault Refusal :=
  effect (fun t => t.hostWrite m addr.toNat v) s

/-- BUDGET_DATA_ACCESS (R56): An access to LAMP.BUDGET_DATA reads or writes a slot budget and advances WORD when AINC is set. -/
def execBudgetDataAccess (m : Master) (w : Option Word) (s : State) : Host.Outcome State Fault Refusal :=
  effect (fun t => t.hostAccessWord m (hdrAddr PG_LAMP 0xA4) w) s

/-- IMAGE_SEGMENT (R98): IMAGE.CMD SEGMENT opens the bank and writes and verifies a mailbox segment. -/
def execImageSegment (m : Master) (key : BitVec 16) (bank : BitVec 2) (s : State) : Host.Outcome State Fault Refusal :=
  effect (fun t => t.hostWrite m (hdrAddr PG_IMAGE 0x40) (cmdWord key (bank.toNat * 16 + 1))) s

/-- IMAGE_SEAL (R98): IMAGE.CMD SEAL runs every load-time check and writes the bank SEALED or BAD. -/
def execImageSeal (m : Master) (key : BitVec 16) (bank : BitVec 2) (s : State) : Host.Outcome State Fault Refusal :=
  effect (fun t => t.hostWrite m (hdrAddr PG_IMAGE 0x40) (cmdWord key (bank.toNat * 16 + 2))) s

/-- IMAGE_ERASE (R98): IMAGE.CMD ERASE writes the bank's STATE EMPTY. -/
def execImageErase (m : Master) (key : BitVec 16) (bank : BitVec 2) (s : State) : Host.Outcome State Fault Refusal :=
  effect (fun t => t.hostWrite m (hdrAddr PG_IMAGE 0x40) (cmdWord key (bank.toNat * 16 + 3))) s

/-- IMAGE_CHECK (R98): IMAGE.CMD CHECK runs the load-time checks on a bank without changing it. -/
def execImageCheck (m : Master) (key : BitVec 16) (bank : BitVec 2) (s : State) : Host.Outcome State Fault Refusal :=
  effect (fun t => t.hostWrite m (hdrAddr PG_IMAGE 0x40) (cmdWord key (bank.toNat * 16 + 4))) s

/-- ATTIC_COMMIT (R102): ATTIC.CMD COMMIT writes a mailbox segment to the user configuration through the journal. -/
def execAtticCommit (m : Master) (key : BitVec 16) (s : State) : Host.Outcome State Fault Refusal :=
  effect (fun t => t.hostWrite m (hdrAddr PG_ATTIC 0x40) (cmdWord key 1)) s

/-- ATTIC_COMPARE (R101): ATTIC.CMD COMPARE compares the mailbox with the target and reports the first differing word. -/
def execAtticCompare (m : Master) (key : BitVec 16) (s : State) : Host.Outcome State Fault Refusal :=
  effect (fun t => t.hostWrite m (hdrAddr PG_ATTIC 0x40) (cmdWord key 2)) s

/-- OCV_COMMIT (R193): OCV.CMD COMMIT checks a working set and writes it to its attic copy through the journal. -/
def execOcvCommit (m : Master) (key : BitVec 16) (set : BitVec 2) (s : State) : Host.Outcome State Fault Refusal :=
  effect (fun t => t.hostWrite m (hdrAddr PG_OCV 0x40) (cmdWord key (set.toNat * 16 + 1))) s

/-- OCV_RELOAD (R193): OCV.CMD RELOAD checks an attic set and copies it into working SRAM. -/
def execOcvReload (m : Master) (key : BitVec 16) (set : BitVec 2) (s : State) : Host.Outcome State Fault Refusal :=
  effect (fun t => t.hostWrite m (hdrAddr PG_OCV 0x40) (cmdWord key (set.toNat * 16 + 2))) s

/-- OCV_CHECK (R193): OCV.CMD CHECK checks a working set and sets its RAM validity. -/
def execOcvCheck (m : Master) (key : BitVec 16) (set : BitVec 2) (s : State) : Host.Outcome State Fault Refusal :=
  effect (fun t => t.hostWrite m (hdrAddr PG_OCV 0x40) (cmdWord key (set.toNat * 16 + 3))) s

/-- OCV_SET_WRITE (R192): A write to an OCV set in working SRAM clears its RAM validity and sets OCV.STATUS.EDITED. -/
def execOcvSetWrite (m : Master) (addr : BitVec 24) (v : Word) (s : State) : Host.Outcome State Fault Refusal :=
  effect (fun t => t.hostWrite m addr.toNat v) s

end Sys2Proof.Machine
end

