-- ==== Sys2Proof/Machine/CmdLane.lean ====
section
/-! DEFINITION. The meanings of the commands of markers, boundaries and slots (R50 to R72, R94). -/

namespace Sys2Proof.Machine

/-- CYCLE_MARKER (R50): The cycle marker reaches the LOOP, SAMPLE, LINK, STORE and RAIL lanes and cycle tables start at tick 0. -/
def execCycleMarker (settled inLimit : Bool) (fets : List FetSense) (s : State) : Host.Outcome State Fault Refusal :=
  effect (fun t => t.cycleMarker settled inLimit fets) s

/-- GUARD_MARKER (R51): The GUARD lane sees the cycle marker through its synchroniser and starts its tick 0. -/
def execGuardMarker (s : State) : Host.Outcome State Fault Refusal := effect (fun t => t.guardMarker) s

/-- HIBERNATE_MARKER (R52): In HIBERNATE the RAIL or GUARD lane makes its own cycle marker by counting its clock. -/
def execHibernateMarker (rail settled : Bool) (s : State) : Host.Outcome State Fault Refusal := effect (fun t => t.hibMarker rail settled) s

/-- ROUND_BOUNDARY (R14): A round boundary falls at a whole millisecond and round-level work of every block runs. -/
def execRoundBoundary (s : State) : Host.Outcome State Fault Refusal := effect (fun t => t.roundBoundary) s

/-- FRAME_BOUNDARY (R15): A frame boundary falls, LAMP.FRAME advances and frame-level work begins. -/
def execFrameBoundary (s : State) : Host.Outcome State Fault Refusal := effect (fun t => t.frameBoundary) s

/-- EPOCH_BOUNDARY (R468): An epoch boundary of the local or plant epoch counter falls. -/
def execEpochBoundary (corr : Nat) (s : State) : Host.Outcome State Fault Refusal := effect (fun t => t.epochEnd corr) s

/-- SLOT_NOP (R94): A NOP slot issues and does nothing. -/
def execSlotNop (x : Slot) (s : State) : Host.Outcome State Fault Refusal :=
  slotEffect x
    (fun o => match o with | .nop => true | _ => false)
    (fun o u => match o with | .nop => u | _ => u) s

/-- SLOT_END (R94): An END slot ends the table run. -/
def execSlotEnd (x : Slot) (s : State) : Host.Outcome State Fault Refusal :=
  slotEffect x
    (fun o => match o with | .tableEnd => true | _ => false)
    (fun o u => match o with | .tableEnd => u.slotEnd x | _ => u) s

/-- SLOT_WAIT (R55): A WAIT slot suspends its round or frame table for N cycles. -/
def execSlotWait (x : Slot) (s : State) : Host.Outcome State Fault Refusal :=
  slotEffect x
    (fun o => match o with | .wait _ => true | _ => false)
    (fun o u => match o with | .wait n => u.slotWait x n | _ => u) s

/-- WAIT_EXPIRE (R55): The N cycles of a WAIT have passed and the table resumes at its next slot's tick. -/
def execWaitExpire (lane : Fin 6) (level : Fin 3) (s : State) : Host.Outcome State Fault Refusal := simple (fun t => t.waitExpire lane level) s

/-- MODEJUMP (R65): A MODEJUMP slot changes the mode between RUN and RIDE when the ride detector qualifies it. -/
def execModejump (x : Slot) (s : State) : Host.Outcome State Fault Refusal :=
  slotEffect x
    (fun o => match o with | .modejump _ => true | _ => false)
    (fun o u => match o with | .modejump target => if x.stop.isSome then u else u.modeJump target | _ => u) s

/-- RDV_GIVE (R60): An RDV give slot posts a token stamped with the cycle, void if the giver is poisoned. -/
def execRdvGive (x : Slot) (s : State) : Host.Outcome State Fault Refusal :=
  slotEffect x
    (fun o => match o with | .rdv 0 _ _ => true | _ => false)
    (fun o u => match o with | .rdv 0 point _ => u.rdvGive x.lane x.word point | _ => u) s

/-- RDV_TAKE (R62): An RDV take slot tests and consumes the token and issues or skips its guarded slots. -/
def execRdvTake (x : Slot) (s : State) : Host.Outcome State Fault Refusal :=
  slotEffect x
    (fun o => match o with | .rdv 1 _ _ => true | _ => false)
    (fun o u => match o with | .rdv 1 point ndep => u.rdvTake x.lane x.level point ndep | _ => u) s

/-- TRIGGER (R109): A TRIGGER slot starts a sequence table of a bank. -/
def execTrigger (x : Slot) (s : State) : Host.Outcome State Fault Refusal :=
  slotEffect x
    (fun o => match o with | .trigger _ _ => true | _ => false)
    (fun o u => match o with | .trigger bank seq => u.startTable (Fin.ofNat 4 bank) seq | _ => u) s

/-- COMP (R237): A COMP slot makes one compensator update of a channel, pack, SVC, IBC, POL or LDO unit. -/
def execComp (x : Slot) (s : State) : Host.Outcome State Fault Refusal :=
  slotEffect x
    (fun o => match o with | .comp _ _ => true | _ => false)
    (fun o u => match o with | .comp unit shadow => if x.stop.isSome then u else u.compUnit x.lane.val unit shadow | _ => u) s

/-- PWMLOAD (R94): A PWMLOAD slot moves a shadow or immediate value into a PWM output's active register. -/
def execPwmload (x : Slot) (s : State) : Host.Outcome State Fault Refusal :=
  slotEffect x
    (fun o => match o with | .pwmload _ _ _ _ => true | _ => false)
    (fun o u => match o with | .pwmload out field imm value => if x.stop.isSome then u else if out ≤ 41 then u.pwmLoad out field (if imm then some value else none) else u | _ => u) s

/-- CHECK (R94): A CHECK slot extracts a field and drives a check line or raises an event when it lies outside [LO, HI]. -/
def execCheck (x : Slot) (s : State) : Host.Outcome State Fault Refusal :=
  slotEffect x
    (fun o => match o with | .check _ _ _ _ _ _ _ _ => true | _ => false)
    (fun o u => match o with | .check addr lsb width sgn event line lo hi => if x.stop.isSome then u else u.slotCheck x addr lsb width sgn event line lo hi | _ => u) s

/-- MOVE (R94): A MOVE slot writes an immediate or copied value under a mask to a /L register or a memory word. -/
def execMove (x : Slot) (s : State) : Host.Outcome State Fault Refusal :=
  slotEffect x
    (fun o => match o with | .move _ _ _ _ => true | _ => false)
    (fun o u => match o with | .move dst copy mask data => if x.stop.isSome then u else u.slotMove dst copy mask data | _ => u) s

/-- LINKTX (R157): A LINKTX slot sends a string link template frame with its acknowledgement and retries. -/
def execLinktx (x : Slot) (s : State) : Host.Outcome State Fault Refusal :=
  slotEffect x
    (fun o => match o with | .linktx target _ _ => decide (target < 16) | _ => false)
    (fun o u => match o with | .linktx target template node => u.linkEvent (Fin.ofNat 16 target) fun v => (v.linkTx (Fin.ofNat 16 target) template node (if x.rom.isSome then 0 else v.slotTick x)).2 | _ => u) s

/-- LINKTX_RING (R478): A LINKTX slot with TARGET 16 queues a ring template frame. -/
def execLinktxRing (x : Slot) (s : State) : Host.Outcome State Fault Refusal :=
  slotEffect x
    (fun o => match o with | .linktx 16 _ _ => true | _ => false)
    (fun o u => match o with | .linktx 16 template _ => if x.stop.isSome then u else u.ringSlot template | _ => u) s

/-- ESTUPD (R202): An ESTUPD slot with PASS 0 updates the cell records of a range in ascending order. -/
def execEstupd (x : Slot) (s : State) : Host.Outcome State Fault Refusal :=
  slotEffect x
    (fun o => match o with | .estupd _ _ _ 0 => true | _ => false)
    (fun o u => match o with | .estupd string first count 0 => if first + count ≤ 640 then u.estUpdate (Fin.ofNat 16 string) first (min count (x.stop.getD count)) else u | _ => u) s

/-- ESTUPD_DEMOD (R220): An ESTUPD slot with PASS 1 accumulates the FETCH sets of a tone into each cell's demodulation sums. -/
def execEstupdDemod (x : Slot) (s : State) : Host.Outcome State Fault Refusal :=
  slotEffect x
    (fun o => match o with | .estupd _ _ _ 1 => true | _ => false)
    (fun o u => match o with | .estupd string first count 1 => if first + count ≤ 640 then (u.estDemod (Fin.ofNat 16 string) first (min count (x.stop.getD count))).overlayCheck (Fin.ofNat 16 string) else u | _ => u) s

/-- RANK (R269): A RANK slot sorts a string's modules by deviation and writes their RANK bytes and the string's HI and LO. -/
def execRank (x : Slot) (s : State) : Host.Outcome State Fault Refusal :=
  slotEffect x
    (fun o => match o with | .rank _ _ => true | _ => false)
    (fun o u => match o with | .rank string modules => if x.stop.isSome then u else if 1 ≤ modules ∧ modules ≤ 40 then u.rank (Fin.ofNat 16 string) modules else u | _ => u) s

/-- DISPATCH_ROUND_STEP (R274): A DISPATCH slot with STEP 0 measures the load and writes every channel's power setpoint. -/
def execDispatchRoundStep (x : Slot) (s : State) : Host.Outcome State Fault Refusal :=
  slotEffect x
    (fun o => match o with | .dispatch 0 => true | _ => false)
    (fun o u => match o with | .dispatch 0 => if x.stop.isSome then u else u.roundStep | _ => u) s

/-- DISPATCH_FRAME_STEP (R270): A DISPATCH slot with STEP 1 sets each string's direction and writes its selection request. -/
def execDispatchFrameStep (x : Slot) (s : State) : Host.Outcome State Fault Refusal :=
  slotEffect x
    (fun o => match o with | .dispatch 1 => true | _ => false)
    (fun o u => match o with | .dispatch 1 => if x.stop.isSome then u else u.frameStep | _ => u) s

/-- SELECT (R253): A SELECT slot runs the module selection sequence of a channel. -/
def execSelect (x : Slot) (s : State) : Host.Outcome State Fault Refusal :=
  slotEffect x
    (fun o => match o with | .select _ _ => true | _ => false)
    (fun o u => match o with | .select string module => if module ≤ 40 then u.linkEvent (Fin.ofNat 16 string) fun v => v.selBegin (Fin.ofNat 16 string) module else u | _ => u) s

/-- SLOT_RESOURCE_FREE (R58): A slot's resource becomes free within its budget and the lane's margin is updated. -/
def execSlotResourceFree (x : Slot) (used d : Nat) (s : State) : Host.Outcome State Fault Refusal :=
  checked (slotOk x) (fun t => t.resourceFree x used d) s

/-- SLOT_BUDGET_EXPIRE (R58): A slot's resource is still busy at t + D; it is stopped, an overrun is recorded and the lane poisoned. -/
def execSlotBudgetExpire (x : Slot) (s : State) : Host.Outcome State Fault Refusal := checked (slotOk x) (fun t => t.budgetExpire x) s

/-- TABLE_CUT (R55): A table has not reached END by its deadline and is cut, with an overrun recorded. -/
def execTableCut (x : Slot) (s : State) : Host.Outcome State Fault Refusal := checked (slotOk x) (fun t => t.tableCut x) s

/-- LOCKSTEP_MISMATCH (R71): The two copies of a lane sequencer disagree; the lane stops until the next marker. -/
def execLockstepMismatch (lane : Fin 6) (s : State) : Host.Outcome State Fault Refusal := simple (fun t => t.lockstep lane) s

end Sys2Proof.Machine
end

