-- ==== Sys2Proof/Machine/CmdLink.lean ====
section
/-! DEFINITION. The meanings of the commands of string links (R150 to R176). -/

namespace Sys2Proof.Machine

/-- LINK_ENUMERATE (R151): SLINKn CMD ENUMERATE runs the enumeration of a string link as a long operation. -/
def execLinkEnumerate (m : Master) (n : Fin 16) (key : BitVec 16) (s : State) : Host.Outcome State Fault Refusal :=
  effect (fun t => t.hostWrite m (hdrAddr (PG_SLINK + n.val) 0x4C) (cmdWord key 1)) s

/-- LINK_MEASURE (R153): SLINKn CMD MEASURE measures hop delays as link maintenance. -/
def execLinkMeasure (m : Master) (n : Fin 16) (key : BitVec 16) (s : State) : Host.Outcome State Fault Refusal :=
  effect (fun t => t.hostWrite m (hdrAddr (PG_SLINK + n.val) 0x4C) (cmdWord key 2)) s

/-- LINK_SEND (R163): SLINKn CMD SEND sends a template frame from the host when the engine is idle, or it is refused. -/
def execLinkSend (m : Master) (n : Fin 16) (key : BitVec 16) (template : BitVec 5) (s : State) : Host.Outcome State Fault Refusal :=
  effect (fun t => t.hostWrite m (hdrAddr (PG_SLINK + n.val) 0x4C) (cmdWord key (template.toNat * 256 + 3))) s

/-- LINK_RETURN (R159): A frame returns within its window, and its segments are judged and written to DST. -/
def execLinkReturn (n : Fin 16) (pairB : Bool) (rt : Nat) (bytes : List Byte) (fits : Bool) (s : State) : Host.Outcome State Fault Refusal :=
  effect (fun t => t.linkEvent n fun u => u.linkReturn n pairB rt bytes fits) s

/-- RETURN_WINDOW_CLOSE (R158): A link attempt's return window closes with no good return; the attempt has failed. -/
def execReturnWindowClose (n : Fin 16) (fits : Bool) (s : State) : Host.Outcome State Fault Refusal :=
  effect (fun t => t.linkEvent n fun u => u.windowClose n fits) s

/-- LINK_STALE (R162): T_STALE rounds pass with no successful READ of node 0, and the link becomes stale. -/
def execLinkStale (n : Fin 16) (s : State) : Host.Outcome State Fault Refusal := effect (fun t => t.linkEvent n fun u => u.linkStale n) s

/-- DESELECT_RETRY (R169): Every 1 ms unconfirmed nodes are sent an addressed DESELECT, and after 3 times the safe deselect ends. -/
def execDeselectRetry (n : Fin 16) (s : State) : Host.Outcome State Fault Refusal := effect (fun t => t.linkEvent n fun u => u.deselRetry n) s

/-- SELOVR (R168): A SELOVR write with its key sets one node's selector map entry to OPEN. -/
def execSelovr (m : Master) (n : Fin 16) (key : BitVec 16) (node : BitVec 6) (s : State) : Host.Outcome State Fault Refusal :=
  effect (fun t => t.hostWrite m (hdrAddr (PG_SLINK + n.val) 0x6C) (cmdWord key node.toNat)) s

end Sys2Proof.Machine
end

