-- ==== Sys2Proof/Machine/CmdModes.lean ====
section
/-! DEFINITION. The meanings of the commands of bias, reset, requests and the rows of RISE (R485 to R499, R509). -/

namespace Sys2Proof.Machine

/-- BIAS_SOURCE_CHANGE (R509): The bias source in use falls out of its window and the next present source takes over within 5 µs, with no
reset and no mode change. -/
def execBiasSourceChange (vib startUp vbus : Bool) (s : State) : Host.Outcome State Fault Refusal :=
  effect (fun t => t.biasChange (biasBits vib startUp vbus)) s

/-- BIAS_LOST (R509): VREG33 stays below 2.90 V for 10 µs; the device enters device reset, or CELLAR when every bias source is gone. -/
def execBiasLost (vib startUp vbus : Bool) (s : State) : Host.Outcome State Fault Refusal :=
  effect (fun t => t.biasLost (biasBits vib startUp vbus)) s

/-- BIAS_GOOD (R488): Bias appears after none, or an on request arrives in CELLAR with bias present, and RISE begins through device reset.
-/
def execBiasGood (vib startUp vbus : Bool) (s : State) : Host.Outcome State Fault Refusal :=
  effect (fun t => t.biasGood (biasBits vib startUp vbus)) s

/-- CELLAR_POWER_ON (R377): The cellar supply rises through V_CPOR; POR registers are cleared, CELLAR.STATUS.POR is set and the record area
is written with its clear values. -/
def execCellarPowerOn (s : State) : Host.Outcome State Fault Refusal := simple (fun t => t.cellarPowerOn) s

/-- DEVICE_RESET_RELEASE (R489): 1 ms after bias good with RESETIN_N high, device reset is released, straps are sampled, the cellar records
are checked and DRESETS is incremented. -/
def execDeviceResetRelease (addr : Fin 8) (head img verifyBad readBad : Bool) (s : State) : Host.Outcome State Fault Refusal :=
  effect (fun t => t.resetDone addr.val head img verifyBad readBad) s

/-- RESETIN_N_ASSERT (R488): RESETIN_N is held low for at least 1 µs and the device enters device reset, with every rail stopped. -/
def execResetinNAssert (s : State) : Host.Outcome State Fault Refusal := effect (fun t => t.through 3 fun u => u.resetPin) s

/-- DEV_RESET (R488): A DEV.RESET write with its key resets the device for 10 µs. -/
def execDevReset (m : Master) (key : BitVec 16) (s : State) : Host.Outcome State Fault Refusal :=
  effect (fun t => t.hostWrite m (hdrAddr PG_DEV 0x50) (cmdWord key 0)) s

/-- MODEREQ_RUN (R486): A mode request for RUN is judged, lighting an image from SERVICE or leaving SAFE, or it is refused with a result
code. -/
def execModereqRun (m : Master) (key : BitVec 16) (superseded badA badB : Bool) (s : State) : Host.Outcome State Fault Refusal :=
  effect (fun t => t.modeRequest m key 1 superseded badA badB) s

/-- MODEREQ_SAFE (R486): A mode request for SAFE is judged and the device enters SAFE. -/
def execModereqSafe (m : Master) (key : BitVec 16) (superseded : Bool) (s : State) : Host.Outcome State Fault Refusal :=
  effect (fun t => t.modeRequest m key 2 superseded false false) s

/-- MODEREQ_SERVICE (R486): A mode request for SERVICE is judged and the device enters SERVICE under the built-in schedule. -/
def execModereqService (m : Master) (key : BitVec 16) (superseded : Bool) (s : State) : Host.Outcome State Fault Refusal :=
  effect (fun t => t.modeRequest m key 3 superseded false false) s

/-- MODEREQ_HIBERNATE (R495): An accepted HIBERNATE request stops the channels and feeds, runs the safe deselect, stamps the RTC, flushes,
drops unkept rails and stops the PLL islands. -/
def execModereqHibernate (m : Master) (key : BitVec 16) (superseded : Bool) (s : State) : Host.Outcome State Fault Refusal :=
  effect (fun t => t.modeRequest m key 4 superseded false false) s

/-- MODEREQ_OFF (R486): An OFF request is an off request and the device enters FALL. -/
def execModereqOff (m : Master) (key : BitVec 16) (superseded : Bool) (s : State) : Host.Outcome State Fault Refusal :=
  effect (fun t => t.modeRequest m key 5 superseded false false) s

/-- POWERCYCLE (R499): A DEV.POWERCYCLE write with its key is an off request that arms an on request T_OFF after FALL ends. -/
def execPowercycle (m : Master) (key tOff : BitVec 16) (s : State) : Host.Outcome State Fault Refusal :=
  effect (fun t => t.hostWrite m (hdrAddr PG_DEV 0x54) (cmdWord key tOff.toNat)) s

/-- POWERCYCLE_OFF_EXPIRE (R499): T_OFF after the power-cycle FALL has passed; the on request starts RISE. -/
def execPowercycleOffExpire (s : State) : Host.Outcome State Fault Refusal := effect (fun t => t.offExpire) s

/-- CELLAR_ON_REQUEST (R488): In CELLAR with bias, an enabled wake source, an alarm with WAKE or an armed on request starts RISE. -/
def execCellarOnRequest (src : Option (Fin 7)) (s : State) : Host.Outcome State Fault Refusal := effect (fun t => t.onRequest (src.map Fin.val)) s

/-- FALL_COMPLETE (R499): FALLDONE is set and the lifetime flush has ended; the device records DOWNMODE and enters CELLAR. -/
def execFallComplete (s : State) : Host.Outcome State Fault Refusal := effect (fun t => t.fallComplete) s

/-- PLL_LOCK (R489): The PLL locks in RISE; the input path is enabled and row D of RISE begins. -/
def execPllLock (ext : Bool) (s : State) : Host.Outcome State Fault Refusal := effect (fun t => t.pllLock ext) s

/-- START_UP_CALIBRATION_DONE (R123): The start-up calibration of all five slices of every bank completes, and the passing slices are mapped
to P0 to P3 and the spare. -/
def execStartUpCalibrationDone (a b c d : List CalMeas) (s : State) : Host.Outcome State Fault Refusal :=
  checked (a.length == 5 && b.length == 5 && c.length == 5 && d.length == 5) (fun t => t.calStart fun k => nthOf [a, b, c, d] k.val) s

/-- IMAGE_SELECTION (R492): The load and check of a sealed bank completes; it is lit, or the other bank is tried, or the built-in schedule
runs. -/
def execImageSelection (badA badB : Bool) (s : State) : Host.Outcome State Fault Refusal := effect (fun t => t.imageRise (badBanks badA badB)) s

/-- PRELOAD_APPLY (R88): The attic preload writes the preload list entries in order, each after the previous one has taken effect. -/
def execPreloadApply (s : State) : Host.Outcome State Fault Refusal := effect (fun t => t.preloadApply) s

/-- RISE_END (R490): Every row of RISE has ended; the device enters RUN, RIDE, SAFE or SERVICE by Table 3, and the lanes and watchdog start.
-/
def execRiseEnd (s : State) : Host.Outcome State Fault Refusal := effect (fun t => t.riseEnd) s

/-- RAIL_START_HOLD_END (R491): VHB reaches V_HBON while the rail start is held, and sequencer slot 0 may begin. -/
def execRailStartHoldEnd (s : State) : Host.Outcome State Fault Refusal := effect (fun t => if t.seq.hold then t.vhbRise else t) s

/-- WAKE (R496): An enabled wake source acts in HIBERNATE and RISE starts, with kept rails counted as risen. -/
def execWake (src : Fin 7) (s : State) : Host.Outcome State Fault Refusal :=
  effect (fun t => if t.mode = .hibernate then t.wakeSource src.val else t) s

/-- STOP_AUTO_RESTART (R498): T_STOPWAIT after a STOP, the STOP causes are cleared and RISE starts, unless STOPMAX restarts already fell
within the hour. -/
def execStopAutoRestart (s : State) : Host.Outcome State Fault Refusal := effect (fun t => t.stopRestart) s

/-- THERMAL_RELEASE (R352): Every shutdown comparator has held released for 10 ms and RISE starts. -/
def execThermalRelease (s : State) : Host.Outcome State Fault Refusal := effect (fun t => t.thermRelease) s

/-- VDDIO_BANK_CHANGE (R503): A VDDIO bank falls below 0.8 V or rises above it; its outputs go high-impedance and its inputs read inactive,
or both return to normal. -/
def execVddioBankChange (bank : Fin 5) (low : Bool) (s : State) : Host.Outcome State Fault Refusal := effect (fun t => t.vddioChange bank low) s

/-- TEST_ASSERT (R505): The TEST ball is high, and the device holds itself in device reset until TEST falls. -/
def execTestAssert (high : Bool) (s : State) : Host.Outcome State Fault Refusal := effect (fun t => t.through 4 fun u => u.testPin high) s

/-- JTAG_INSTRUCTION (R505): A JTAG instruction (BYPASS, SAMPLE/PRELOAD, EXTEST, IDCODE) is taken, and EXTEST takes the pads only while
RESETIN_N is held low. -/
def execJtagInstruction (instr : Fin 4) (s : State) : Host.Outcome State Fault Refusal :=
  simple (fun t => t.through 4 fun u => { u with dev.jtag := instr.val }) s

end Sys2Proof.Machine
end

