-- ==== Sys2Proof/Machine/CmdPath.lean ====
section
/-! DEFINITION. The meanings of the commands of the input path, the ride detector and the pack (R260 to R304). -/

namespace Sys2Proof.Machine

/-- INPATH_RESULT (R260): An IN_CS, IN_VS or VHB result is handed to the input path. -/
def execInpathResult (which : Fin 3) (s : State) : Host.Outcome State Fault Refusal := effect (fun t => t.inpResult which) s

/-- INPATH_SENSE_LOSS (R260): Four cycles pass without an IN_CS result and INPATH.ERR.SENSE is set. -/
def execInpathSenseLoss (s : State) : Host.Outcome State Fault Refusal := simple (fun t => t.inpSenseLoss) s

/-- INPATH_GATE_ENHANCED (R261): V_GS reaches 7 V in START and the input path enters ON. -/
def execInpathGateEnhanced (s : State) : Host.Outcome State Fault Refusal := simple (fun t => t.inpEnhanced) s

/-- INPATH_START_TIMEOUT (R261): 100 ms in START without enhancement; TRIPPED and ERR.GATE. -/
def execInpathStartTimeout (s : State) : Host.Outcome State Fault Refusal := simple (fun t => t.inpStartTimeout) s

/-- INPATH_REVERSE_BLOCK (R262): V_SNS falls below −V_IREV and the ideal diode discharges the gate and enters BLOCK. -/
def execInpathReverseBlock (after : Nat) (s : State) : Host.Outcome State Fault Refusal := simple (fun t => t.inpReverse after) s

/-- INPATH_CURRENT_LIMIT (R261): V_SNS reaches V_ILIM in ON and the path regulates in LIMIT. -/
def execInpathCurrentLimit (s : State) : Host.Outcome State Fault Refusal := simple (fun t => t.inpLimit) s

/-- INPATH_FAST_TRIP (R265): V_SNS exceeds V_IFAST; the gate is discharged fast and the path enters TRIPPED. -/
def execInpathFastTrip (s : State) : Host.Outcome State Fault Refusal := simple (fun t => t.inpFast) s

/-- INPATH_UVOV_RECOVER (R263): V_IN has stayed inside the hysteresis window for T_OVREC and the path enters START. -/
def execInpathUvovRecover (s : State) : Host.Outcome State Fault Refusal := simple (fun t => t.inpRecover) s

/-- INPATH_TIMED_TRIP (R265): I_IN above I_OC for T_OC, or LIMIT held for T_LIM_MAX, trips the path. -/
def execInpathTimedTrip (s : State) : Host.Outcome State Fault Refusal := simple (fun t => t.inpTimed) s

/-- INPATH_RETRY (R265): After T_IN_RETRY and cooling the path leaves TRIPPED for START, or locks at RETRY_MAX. -/
def execInpathRetry (s : State) : Host.Outcome State Fault Refusal := simple (fun t => t.inpRetry) s

/-- INPATH_CONSEC_RESET (R265): 60 s in ON or BLOCK without a trip sets the consecutive trip count to 0. -/
def execInpathConsecReset (s : State) : Host.Outcome State Fault Refusal := simple (fun t => t.inpConsecReset) s

/-- INPUT_LOSS (R281): N_DET LOW samples or an input path trip set PACK.STATE.LOSS. -/
def execInputLoss (s : State) : Host.Outcome State Fault Refusal := simple (fun t => t.inputLoss) s

/-- RETURN_OK (R290): V_IN has held V_INOK for T_RETURN with the path ready and RETOK is set. -/
def execReturnOk (s : State) : Host.Outcome State Fault Refusal := simple (fun t => t.returnJudge) s

/-- RSHED_ROUNDS (R289): N_RSHED rounds with mean V_HB below V_SHED raise RSHED by one. -/
def execRshedRounds (s : State) : Host.Outcome State Fault Refusal := simple (fun t => t.rshedRounds) s

/-- RSHED_RESTORE (R289): V_HB at or above V_UNSHED for T_RUNSHED lowers RSHED by one. -/
def execRshedRestore (s : State) : Host.Outcome State Fault Refusal := simple (fun t => t.rshedRestore) s

/-- PACK_PRESENCE (R300): The pack is judged present or absent from V_PACK and PACK_DET_N. -/
def execPackPresence (det : Bool) (s : State) : Host.Outcome State Fault Refusal := simple (fun t => t.packPresence (det && !t.bankLow 1)) s

/-- PACK_PRECHARGE_TIMEOUT (R299): PRECHARGE lasts longer than T_PRE; TOLATCH is set. -/
def execPackPrechargeTimeout (s : State) : Host.Outcome State Fault Refusal := simple (fun t => t.prechargeTimeout) s

/-- PACK_TERMINATION (R299): CV current below I_FAST / K_TERM for T_TERM; DONE and a full anchor. -/
def execPackTermination (s : State) : Host.Outcome State Fault Refusal := simple (fun t => t.packDone) s

/-- PACK_SAFETY_TIMEOUT (R302): The safety timer reaches T_SAFE; charging stops and TOLATCH is set. -/
def execPackSafetyTimeout (s : State) : Host.Outcome State Fault Refusal := simple (fun t => t.safetyOut) s

/-- PACK_TOLATCH_CLEAR (R304): PACK.CMD OP 1 clears TOLATCH. -/
def execPackTolatchClear (m : Master) (key : BitVec 16) (s : State) : Host.Outcome State Fault Refusal :=
  effect (fun t => t.hostWrite m (hdrAddr PG_PACK 0xB0) (cmdWord key 1)) s

/-- PACK_RESTART (R304): PACK.CMD OP 2 moves DONE to RECHARGE or ends a hold. -/
def execPackRestart (m : Master) (key : BitVec 16) (s : State) : Host.Outcome State Fault Refusal :=
  effect (fun t => t.hostWrite m (hdrAddr PG_PACK 0xB0) (cmdWord key 2)) s

/-- PACK_HOLD (R304): PACK.CMD OP 3 holds the pack in SUSPEND until OP 2. -/
def execPackHold (m : Master) (key : BitVec 16) (s : State) : Host.Outcome State Fault Refusal :=
  effect (fun t => t.hostWrite m (hdrAddr PG_PACK 0xB0) (cmdWord key 3)) s

/-- PACK_HICCUP_END (R297): T_HIC ends and the pack resumes its state with a cleared compensator. -/
def execPackHiccupEnd (s : State) : Host.Outcome State Fault Refusal := simple (fun t => t.packHicEnd) s

/-- PACK_SENSE_LOSS (R293): Four periods without a PACK_CS result stop the converter and set ERR.SENSE. -/
def execPackSenseLoss (s : State) : Host.Outcome State Fault Refusal := simple (fun t => t.packSenseLoss) s

end Sys2Proof.Machine
end

