-- ==== Sys2Proof/Machine/CmdPort.lean ====
section
/-! DEFINITION. The meanings of the commands of the service port (R428 to R454). -/

namespace Sys2Proof.Machine

/-- TYPEC_TOGGLE (R430): Each tDRP the dual-role port toggles between Rp and Rd. -/
def execTypecToggle (s : State) : Host.Outcome State Fault Refusal := effect (fun t => t.toggle) s

/-- TYPEC_ATTACH (R430): A stable partner termination for tCCDebounce enters Attached.SRC or Attached.SNK. -/
def execTypecAttach (cc2 : Bool) (rp : Fin 3) (v : BitVec 12) (dead : Bool) (s : State) : Host.Outcome State Fault Refusal :=
  effect (fun t => t.attach cc2 rp.val v.toNat dead) s

/-- TRY_SNK_EXPIRE (R430): tDRPTry in Try.SNK ends and the port moves on. -/
def execTrySnkExpire (s : State) : Host.Outcome State Fault Refusal := effect (fun t => t.trySnkEnd) s

/-- TYPEC_DETACH (R430): Termination removed or VBUS lost for tPDDebounce; the port detaches. -/
def execTypecDetach (vbusLost : Bool) (s : State) : Host.Outcome State Fault Refusal := effect (fun t => t.detach vbusLost) s

/-- ACCESSORY (R431): Ra or Rd on both CC pins is seen; the port stays unattached and sets ACCESSORY. -/
def execAccessory (s : State) : Host.Outcome State Fault Refusal := effect (fun t => t.accessorySeen) s

/-- VCONN_OVERCURRENT (R432): VCONN current at its limit for 1 ms turns VCONN off until the next attach. -/
def execVconnOvercurrent (s : State) : Host.Outcome State Fault Refusal := effect (fun t => t.vconnTrip) s

/-- TYPEC_ERROR_RECOVERY (R433): TYPEC.CMD OP 1 enters ErrorRecovery. -/
def execTypecErrorRecovery (m : Master) (key : BitVec 16) (s : State) : Host.Outcome State Fault Refusal :=
  effect (fun t => t.hostWrite m (hdrAddr PG_TYPEC 0x48) (cmdWord key 1)) s

/-- ERROR_RECOVERY_END (R433): After 26 ms and VBUS below 0.8 V the port restarts at Unattached.SNK. -/
def execErrorRecoveryEnd (s : State) : Host.Outcome State Fault Refusal := effect (fun t => t.recoveryEnd) s

/-- PD_SOURCE_CAPS_SEND (R439): Every 150 ms as source the port sends Source_Capabilities until GoodCRC. -/
def execPdSourceCapsSend (acked : Bool) (s : State) : Host.Outcome State Fault Refusal := effect (fun t => t.capsSend acked) s

/-- PD_SOURCE_CAPS_RX (R440): Source_Capabilities are received and the sink sends its Request. -/
def execPdSourceCapsRx (caps : List Word) (good : Bool) (s : State) : Host.Outcome State Fault Refusal :=
  checked (0 < caps.length && caps.length ≤ 7) (fun t => t.pdRx good fun u => u.capsRx (caps.map BitVec.toNat)) s

/-- PD_REQUEST_RX (R439): A Request is received as source and accepted or rejected. -/
def execPdRequestRx (rdo : Word) (good : Bool) (s : State) : Host.Outcome State Fault Refusal :=
  effect (fun t => t.pdRx good fun u => u.requestRx rdo.toNat) s

/-- PD_PS_RDY_SEND (R441): SVC_VS has held the new voltage for 1 ms and PS_RDY is sent. -/
def execPdPsRdySend (s : State) : Host.Outcome State Fault Refusal := effect (fun t => t.psRdySend) s

/-- PD_GOODCRC_TIMEOUT (R438): No GoodCRC within 1 ms; the message is resent, or a Soft or Hard Reset follows. -/
def execPdGoodcrcTimeout (s : State) : Host.Outcome State Fault Refusal := effect (fun t => t.goodCrcTimeout) s

/-- PD_SWAP_RX (R442): A PR_Swap, DR_Swap or VCONN_Swap request is received and accepted, rejected or answered Wait. -/
def execPdSwapRx (k : PdSwap) (vconnIn good : Bool) (s : State) : Host.Outcome State Fault Refusal :=
  effect (fun t => t.pdRx good fun u => u.swapRx k vconnIn) s

/-- PD_SWAP_TIMEOUT (R444): The partner's PS_RDY or the SVC output is not seen in time during a power role swap. -/
def execPdSwapTimeout (s : State) : Host.Outcome State Fault Refusal := effect (fun t => t.swapTimeout) s

/-- PD_RENEGOTIATE (R454): PD.CMD OP 1 renegotiates the contract. -/
def execPdRenegotiate (m : Master) (key : BitVec 16) (s : State) : Host.Outcome State Fault Refusal :=
  effect (fun t => t.hostWrite m (hdrAddr PG_PD 0x84) (cmdWord key 1)) s

/-- PD_PR_SWAP (R444): PD.CMD OP 2 starts a power role swap. -/
def execPdPrSwap (m : Master) (key : BitVec 16) (s : State) : Host.Outcome State Fault Refusal :=
  effect (fun t => t.hostWrite m (hdrAddr PG_PD 0x84) (cmdWord key 2)) s

/-- PD_DR_SWAP (R442): PD.CMD OP 3 starts a data role swap. -/
def execPdDrSwap (m : Master) (key : BitVec 16) (s : State) : Host.Outcome State Fault Refusal :=
  effect (fun t => t.hostWrite m (hdrAddr PG_PD 0x84) (cmdWord key 3)) s

/-- PD_VCONN_SWAP (R442): PD.CMD OP 4 starts a VCONN swap. -/
def execPdVconnSwap (m : Master) (key : BitVec 16) (s : State) : Host.Outcome State Fault Refusal :=
  effect (fun t => t.hostWrite m (hdrAddr PG_PD 0x84) (cmdWord key 4)) s

/-- PD_HARD_RESET_CMD (R445): PD.CMD OP 5 sends Hard Reset. -/
def execPdHardResetCmd (m : Master) (key : BitVec 16) (s : State) : Host.Outcome State Fault Refusal :=
  effect (fun t => t.hostWrite m (hdrAddr PG_PD 0x84) (cmdWord key 5)) s

/-- PD_SEND_VDM (R450): PD.CMD OP 6 sends the TXVDM words as the answer to a VDM. -/
def execPdSendVdm (m : Master) (key : BitVec 16) (s : State) : Host.Outcome State Fault Refusal :=
  effect (fun t => t.hostWrite m (hdrAddr PG_PD 0x84) (cmdWord key 6)) s

/-- PD_GET_STATUS (R454): PD.CMD OP 7 sends Get_Status. -/
def execPdGetStatus (m : Master) (key : BitVec 16) (s : State) : Host.Outcome State Fault Refusal :=
  effect (fun t => t.hostWrite m (hdrAddr PG_PD 0x84) (cmdWord key 7)) s

/-- PD_HARD_RESET (R445): A Hard Reset is received and the role's reset sequence runs. -/
def execPdHardReset (s : State) : Host.Outcome State Fault Refusal := effect (fun t => t.hardResetRx) s

/-- PD_HARD_RESET_VBUS_TIMEOUT (R445): As sink VBUS has not returned within 1.925 s of Hard Reset; ErrorRecovery. -/
def execPdHardResetVbusTimeout (s : State) : Host.Outcome State Fault Refusal := effect (fun t => t.hrSinkTimeout) s

/-- PD_HARD_RESET_TIMER (R445): A timer of the source Hard Reset sequence runs out: SRC_EN is opened 30 ms after Hard Reset, vSafe5V is
restored after the 800 ms wait, or ErrorRecovery follows when there is no attach within 1 s of the restore. -/
def execPdHardResetTimer (s : State) : Host.Outcome State Fault Refusal := effect (fun t => t.hrTimer) s

/-- PD_FRS_SIGNAL (R447): An armed initial sink sees the Fast Role Swap signal, closes SRC_EN and sends FR_Swap. -/
def execPdFrsSignal (s : State) : Host.Outcome State Fault Refusal := effect (fun t => t.frsSignal) s

/-- PD_FRS_ACCEPT_TIMEOUT (R447): No Accept within 15 ms of FR_Swap; SRC_EN opens and ErrorRecovery follows. -/
def execPdFrsAcceptTimeout (s : State) : Host.Outcome State Fault Refusal := effect (fun t => t.frsTimeout) s

/-- SRC_OK_FALL (R449): SRC_OK falls while sourcing; Fast Role Swap is signalled or the port enters ErrorRecovery. -/
def execSrcOkFall (s : State) : Host.Outcome State Fault Refusal := effect (fun t => t.srcOkFall) s

/-- PD_VDM_RX (R450): A structured VDM is placed in RXVDM for the host, or answered BUSY when full. -/
def execPdVdmRx (words : List Word) (good : Bool) (s : State) : Host.Outcome State Fault Refusal :=
  checked (0 < words.length && words.length ≤ 7) (fun t => t.pdRx good fun u => u.vdmRx (words.map BitVec.toNat)) s

/-- PD_VDM_ANSWER_TIMEOUT (R450): The host does not answer a VDM within 15 ms and the device answers NAK. -/
def execPdVdmAnswerTimeout (s : State) : Host.Outcome State Fault Refusal := effect (fun t => t.vdmTimeout) s

/-- LANTERN_COMMAND (R451): The hardware answers a Discover or Enter or Exit Mode VDM for the service lantern SVID. -/
def execLanternCommand (words : List Word) (good : Bool) (s : State) : Host.Outcome State Fault Refusal :=
  checked (0 < words.length && words.length ≤ 7) (fun t => t.pdRx good fun u => u.lanternCmd (words.map BitVec.toNat)) s

/-- PD_MESSAGE_RX (R438): A PD message other than those with their own rows is received whole and acted on: Accept, Reject, Wait, PS_RDY,
Soft_Reset, Get_Source_Cap, Get_Sink_Cap, Sink_Capabilities, FR_Swap, Get_Status or Status, or an unsupported message answered
Not_Supported. -/
def execPdMessageRx (x : PdMsg) (good : Bool) (s : State) : Host.Outcome State Fault Refusal :=
  checked (pdMsgOk x) (fun t => t.pdRx good fun u => u.pdMessage x) s

/-- PD_RESPONSE_TIMEOUT (R438): A Soft Reset is not answered with Accept within 27 ms and the device goes on to Hard Reset, or keeps its
contract under R446. -/
def execPdResponseTimeout (s : State) : Host.Outcome State Fault Refusal := effect (fun t => t.softTimeout) s

/-- VBUS_SAFE0V (R444): VBUS is judged below 0.8 V, or back above 4.75 V, and a power role swap, Hard Reset sequence, detach discharge or
Fast Role Swap waiting on that level moves on. -/
def execVbusSafe0v (v : BitVec 12) (s : State) : Host.Outcome State Fault Refusal := effect (fun t => t.vbusLevel v.toNat) s

/-- VBUS_OVERVOLTAGE (R453): VBUS rises above 22 V; SRC_EN and SNK_EN are opened and TYPEC.ERR.VBUSOV is set. -/
def execVbusOvervoltage (v : BitVec 12) (s : State) : Host.Outcome State Fault Refusal :=
  effect (fun t => if 2200 < v.toNat then t.vbusOver v.toNat else t) s

end Sys2Proof.Machine
end

