-- ==== Sys2Proof/Machine/CmdQueue.lean ====
section
/-! DEFINITION. The meanings of the commands of the event queues (R396 to R409). -/

namespace Sys2Proof.Machine

/-- EVENT_RECORD (R399): A firing reaches the EVQ and a record is written to its shelf, held pending or dropped. -/
def execEventRecord (s : State) : Host.Outcome State Fault Refusal := simple (fun t => t.eventRecord) s

/-- RPTR_WRITE (R403): An RPTR write consumes records or is ignored with BADPTR, releasing the line when drained. -/
def execRptrWrite (m : Master) (shelfB : Bool) (v : Word) (s : State) : Host.Outcome State Fault Refusal :=
  simple (fun t => t.hostWrite m (hdrAddr PG_EVQ (if shelfB then 0x60 else 0x58)) v) s

/-- DONE_WRITE (R407): A write of EVQ.DONE completes a source and writes a REFIRE record when pending. -/
def execDoneWrite (m : Master) (src : BitVec 10) (s : State) : Host.Outcome State Fault Refusal :=
  simple (fun t => t.hostWrite m (hdrAddr PG_EVQ 0x74) (BitVec.ofNat 32 src.toNat)) s

/-- IRQ_MODERATION_EXPIRE (R404): T_MOD passes since the last assertion and the line asserts while records wait. -/
def execIrqModerationExpire (shelfB : Bool) (s : State) : Host.Outcome State Fault Refusal := simple (fun t => t.modExpire shelfB) s

/-- HOST_IDLE (R404): T_IDLE passes with no host access to a drained shelf and the host is idle. -/
def execHostIdle (shelfB : Bool) (s : State) : Host.Outcome State Fault Refusal := simple (fun t => t.hostIdle shelfB) s

/-- HOST_NOTIFY_REPEAT (R421): T_HNREP passes with the line still asserted and Host Notify is sent again. -/
def execHostNotifyRepeat (shelfB ok : Bool) (s : State) : Host.Outcome State Fault Refusal := simple (fun t => t.hostNotify shelfB ok) s

end Sys2Proof.Machine
end

