-- ==== Sys2Proof/Machine/CmdRail.lean ====
section
/-! DEFINITION. The meanings of the commands of the board rails and the sequencer (R319 to R340). -/

namespace Sys2Proof.Machine

/-- SUPERVISOR_JUDGEMENT (R319): A rail or VHB supervisor condition has held 10 µs and is judged. -/
def execSupervisorJudgement (r : Fin 16) (uv : Nat) (s : State) : Host.Outcome State Fault Refusal := effect (fun t => t.judged r uv) s

/-- SEQ_SLOT_BEGIN (R329): Every earlier rail has declared power-good and the next sequencer slot begins. -/
def execSeqSlotBegin (s : State) : Host.Outcome State Fault Refusal := effect (fun t => t.slotBegin) s

/-- RAIL_DELAY_EXPIRE (R329): A rail's DELAY ends and its reference ramps or its enable rises. -/
def execRailDelayExpire (r : Fin 15) (s : State) : Host.Outcome State Fault Refusal := effect (fun t => t.railDelayEnd r) s

/-- RAIL_RAMP_END (R330): A converter rail's reference ramp ends. -/
def execRailRampEnd (r : Fin 15) (s : State) : Host.Outcome State Fault Refusal := simple (fun t => t.railRampEnd r) s

/-- RAIL_POWER_GOOD (R331): A rail inside its window for T_PGDB declares power-good. -/
def execRailPowerGood (r : Fin 15) (s : State) : Host.Outcome State Fault Refusal := effect (fun t => t.railPowerGood r) s

/-- RAIL_RISE_TIMEOUT (R331): A rail without power-good by T_SS + DELAY + T_PGWAIT is a rise fault. -/
def execRailRiseTimeout (r : Fin 15) (s : State) : Host.Outcome State Fault Refusal := effect (fun t => t.riseTimeout r) s

/-- FALL_SLOT (R332): Every later rail is below V_OFF and the next slot is turned off. -/
def execFallSlot (s : State) : Host.Outcome State Fault Refusal := effect (fun t => t.fallSlot) s

/-- RAIL_FALL_TIMEOUT (R333): A rail not below V_OFF within T_FALL_MAX is forced or left off and the fall continues. -/
def execRailFallTimeout (r : Fin 15) (s : State) : Host.Outcome State Fault Refusal := effect (fun t => t.fallTimeout r) s

/-- OFF_MIN_WAIT_END (R336): T_OFF_MIN after a completed fall with an on request, rise starts from slot 0. -/
def execOffMinWaitEnd (s : State) : Host.Outcome State Fault Refusal := effect (fun t => t.offMinEnd) s

/-- RESET_OUTPUT_RELEASE (R337): Every rail of a reset group has held power-good for STRETCH and RESETg_N is released. -/
def execResetOutputRelease (g : Fin 4) (s : State) : Host.Outcome State Fault Refusal := simple (fun t => t.resetRelease g.val) s

/-- NATIVE_FALLBACK (R320): Four switching periods without an effective COMP return a rail to native control. -/
def execNativeFallback (r : Fin 7) (s : State) : Host.Outcome State Fault Refusal := simple (fun t => t.nativeFallback (r.castLE (by decide))) s

/-- RAIL_HICCUP_END (R323): T_HIC ends and the rail soft-starts from its present output. -/
def execRailHiccupEnd (r : Fin 16) (s : State) : Host.Outcome State Fault Refusal := effect (fun t => t.hiccupOver r) s

/-- SVC_TARGET (R339): The PD policy writes a new SVC target and current limit, and the reference moves at SLEW. -/
def execSvcTarget (v amps : BitVec 16) (s : State) : Host.Outcome State Fault Refusal := effect (fun t => t.svcTarget v.toNat amps.toNat) s

end Sys2Proof.Machine
end

