-- ==== Sys2Proof/Machine/CmdRingBus.lean ====
section
/-! DEFINITION. The meanings of the commands of the plant ring (R460 to R484). -/

namespace Sys2Proof.Machine

/-- RING_FRAME_RX (R460): A ring frame arrives; it is forwarded, removed or acted on after a good EOF. -/
def execRingFrameRx (west : Bool) (f : RingFrame) (crc : BitVec 32) (eofb : Bool) (ns res : Nat) (s : State) : Host.Outcome State Fault Refusal :=
  checked (ringFrameOk f) (fun t => t.frameRx west f crc.toNat eofb ns res) s

/-- REMOTE_READ_TIMEOUT (R476): No RESP within T_RMTTO; the remote read completes with TIMEOUT. -/
def execRemoteReadTimeout (tag : BitVec 8) (s : State) : Host.Outcome State Fault Refusal := simple (fun t => t.readTimeout tag.toNat) s

/-- ORDERED_SET_RX (R461): An ordered set arrives and is checked, forwarded or acted on. -/
def execOrderedSetRx (west : Bool) (otype b1 b2 b3 chk : BitVec 8) (rt : Nat) (s : State) : Host.Outcome State Fault Refusal :=
  effect (fun t => t.setRx west otype.toNat b1.toNat b2.toNat b3.toNat chk.toNat rt) s

/-- SNUFF_REPEAT (R479): 100 µs after a SNUFF send, it is sent again up to 3 times. -/
def execSnuffRepeat (s : State) : Host.Outcome State Fault Refusal := simple (fun t => t.snuffAgain) s

/-- RING_SNUFF_CMD (R479): RING.CMD OP 2 sends SNUFF on both ports. -/
def execRingSnuffCmd (m : Master) (key : BitVec 16) (s : State) : Host.Outcome State Fault Refusal :=
  effect (fun t => t.hostWrite m (hdrAddr PG_RING 0x58) (cmdWord key 2)) s

/-- RING_PORT_DOWN (R462): A port loses sync for 4 µs or receives RFAULT; it sends BREAK and the ring wraps. -/
def execRingPortDown (west : Bool) (s : State) : Host.Outcome State Fault Refusal := effect (fun t => t.portDown west) s

/-- RING_PORT_UP (R462): A port's receiver regains 8b/10b sync. -/
def execRingPortUp (west : Bool) (s : State) : Host.Outcome State Fault Refusal := effect (fun t => t.portGoesUp west) s

/-- RFAULT_REPEAT (R462): Every 10 µs a down port's transmitter sends RFAULT. -/
def execRfaultRepeat (west : Bool) (s : State) : Host.Outcome State Fault Refusal := simple (fun t => t.rfault west) s

/-- RING_QUIET (R462): A port down for T_QUIET turns its transmitter quiet, with idle bursts every 100 ms. -/
def execRingQuiet (west : Bool) (s : State) : Host.Outcome State Fault Refusal := effect (fun t => t.portGoesQuiet west) s

/-- RING_HEAL (R465): A hop up for 100 ms makes the head send VERIFY and re-enumerate on mismatch. -/
def execRingHeal (s : State) : Host.Outcome State Fault Refusal := effect (fun t => t.ringHeal) s

/-- RING_ENUMERATE (R466): RING.CMD OP 1 on the head, or the head's RISE, runs ring enumeration. -/
def execRingEnumerate (m : Master) (key : BitVec 16) (s : State) : Host.Outcome State Fault Refusal :=
  effect (fun t => t.hostWrite m (hdrAddr PG_RING 0x58) (cmdWord key 1)) s

/-- RING_ENUM_STEP_TIMEOUT (R466): An enumeration step's 2 ms return window closes and the step is retried. -/
def execRingEnumStepTimeout (s : State) : Host.Outcome State Fault Refusal := effect (fun t => t.ringEnumTimeout) s

/-- DELAY_PROBE (R470): Every 62.5 ms a port sends a DLYREQ. -/
def execDelayProbe (west : Bool) (s : State) : Host.Outcome State Fault Refusal := simple (fun t => t.probeSend west) s

/-- RING_REMEASURE (R470): RING.CMD OP 5 measures the link delays again. -/
def execRingRemeasure (m : Master) (key : BitVec 16) (s : State) : Host.Outcome State Fault Refusal :=
  effect (fun t => t.hostWrite m (hdrAddr PG_RING 0x58) (cmdWord key 5)) s

/-- PILOT_SEND (R474): Every T_PILOT the head sends PILOT on both ports. -/
def execPilotSend (s : State) : Host.Outcome State Fault Refusal := simple (fun t => t.pilotSend) s

/-- PILOT_LOSS (R474): No PILOT for 3 × T_PILOT sets HEADLOST and holds the steering. -/
def execPilotLoss (s : State) : Host.Outcome State Fault Refusal := simple (fun t => t.pilotLoss) s

/-- SUMMARY_SEND (R480): At its slot after the epoch boundary a member sends its SUMMARY to the head. -/
def execSummarySend (s : State) : Host.Outcome State Fault Refusal := simple (fun t => t.summarySend) s

/-- SUMMARY_DEADLINE (R481): At 900 ms after the boundary the head sets SUMDONE and counts missing summaries. -/
def execSummaryDeadline (s : State) : Host.Outcome State Fault Refusal := simple (fun t => t.summaryDeadline) s

/-- RING_WAKE_BURST (R482): RING.CMD OP 3 sends 1 ms of idle on each quiet port. -/
def execRingWakeBurst (m : Master) (key : BitVec 16) (s : State) : Host.Outcome State Fault Refusal :=
  effect (fun t => t.hostWrite m (hdrAddr PG_RING 0x58) (cmdWord key 3)) s

/-- EPSET_LOAD (R473): RING.CMD OP 4 on the head loads EPSET as the epoch number at the next boundary. -/
def execEpsetLoad (m : Master) (key : BitVec 16) (s : State) : Host.Outcome State Fault Refusal :=
  effect (fun t => t.hostWrite m (hdrAddr PG_RING 0x58) (cmdWord key 4)) s

end Sys2Proof.Machine
end

