-- ==== Sys2Proof/Machine/CmdSample.lean ====
section
/-! DEFINITION. The meanings of the commands of sampling, the comparators and the monitors (R104 to R140). -/

namespace Sys2Proof.Machine

/-- SWTRIG (R112): A SWTRIG write starts a sequence table, or it is refused when the engine is busy. -/
def execSwtrig (m : Master) (bank : Fin 4) (seq : BitVec 2) (s : State) : Host.Outcome State Fault Refusal :=
  effect (fun t => t.hostWrite m (hdrAddr (PG_ADC + bank.val) 0x50) (BitVec.ofNat 32 (0x100 + seq.toNat))) s

/-- CONVERSION_RESULT (R110): A conversion ends, its result is corrected and delivered to its result register and destination. -/
def execConversionResult (bank : Fin 4) (entry : Fin 16) (uv : Int) (ago : Nat) (onReleased : Bool) (s : State) : Host.Outcome State Fault Refusal :=
  effect (fun t => t.converted bank entry.val uv ago onReleased) s

/-- SEQUENCE_DONE (R111): The last result of a sequence table reaches its destination, the engine is free and STATUS.DONE is set. -/
def execSequenceDone (bank : Fin 4) (s : State) : Host.Outcome State Fault Refusal := simple (fun t => t.sequenceEnd bank) s

/-- CAL_STEP (R119): At its designated round a bank takes a position's slice out of service and puts its spare in its place. -/
def execCalStep (bank : Fin 4) (s : State) : Host.Outcome State Fault Refusal := simple (fun t => t.calStep bank) s

/-- CAL_DONE (R121): A slice's calibration ends after T_CAL, passing or failing, with retry or retirement. -/
def execCalDone (bank : Fin 4) (m : CalMeas) (s : State) : Host.Outcome State Fault Refusal := effect (fun t => t.calDone bank m) s

/-- CAL_SWEEP (R122): CAL_CTRL.SWEEP starts the forced calibration sweep of all four banks. -/
def execCalSweep (m : Master) (bank : Fin 4) (bgen : Bool) (s : State) : Host.Outcome State Fault Refusal :=
  effect (fun t => t.hostWrite m (hdrAddr (PG_ADC + bank.val) 0x48) (BitVec.ofNat 32 (2 + b2n bgen))) s

/-- FIFO_READ (R117): A read of FIFO_DATA returns and removes the oldest FIFO word. -/
def execFifoRead (m : Master) (bank : Fin 4) (s : State) : Host.Outcome State Fault Refusal :=
  simple (fun t => t.hostRead m (hdrAddr (PG_ADC + bank.val) 0x54) 1) s

/-- FIFO_CLEAR (R117): A write of FIFO_CFG.CLR empties the FIFO. -/
def execFifoClear (m : Master) (bank : Fin 4) (thr : BitVec 7) (s : State) : Host.Outcome State Fault Refusal :=
  simple (fun t => t.hostWrite m (hdrAddr (PG_ADC + bank.val) 0x5C) (BitVec.ofNat 32 (0x80000000 + thr.toNat))) s

/-- TRIP_COMPARATOR_TRIP (R131): A trip comparator's input crosses its threshold, and it acts on its targets through TRIP, KILL and ERRL. -/
def execTripComparatorTrip (k : Fin 32) (uv : Int) (e0 e1 : Option Nat) (s : State) : Host.Outcome State Fault Refusal :=
  effect (fun t => t.tripEvent k.val fun u => u.cmpTrip k.val uv e0 e1) s

/-- TRIP_COMPARATOR_RELEASE (R131): A tripped comparator's input returns past the threshold less the hysteresis. -/
def execTripComparatorRelease (k : Fin 32) (uv : Int) (s : State) : Host.Outcome State Fault Refusal := simple (fun t => t.cmpRelease k.val uv) s

/-- BLANKING_WINDOW_END (R132): A blanking window closes and a comparator still tripped acts at that instant. -/
def execBlankingWindowEnd (k : Fin 32) (s : State) : Host.Outcome State Fault Refusal :=
  effect (fun t => t.tripEvent k.val fun u => u.cmpBlankEnd k.val) s

/-- HOLD_RELEASE (R134): A write of 1 to a CMP.HOLD bit releases the comparator's hold, unless it is still tripped. -/
def execHoldRelease (m : Master) (mask : Word) (s : State) : Host.Outcome State Fault Refusal :=
  simple (fun t => t.hostWrite m (hdrAddr PG_CMP 0xC4) mask) s

/-- WINDOW_TICK (R137): The sampled tick expires; SENSE_PWR and the monitor comparators are powered for t_WIN. -/
def execWindowTick (s : State) : Host.Outcome State Fault Refusal := simple (fun t => t.windowTick) s

/-- WINDOW_SAMPLE (R136): A window monitor takes a sample and updates its K of M filter. -/
def execWindowSample (n : Fin 16) (uv : Int) (s : State) : Host.Outcome State Fault Refusal := effect (fun t => t.windowSampled n uv) s

/-- WCAP_HI_READ (R140): A read of WCAPn_HI returns the capture and clears VALID. -/
def execWcapHiRead (m : Master) (n : Fin 16) (s : State) : Host.Outcome State Fault Refusal :=
  simple (fun t => t.hostRead m (hdrAddr PG_CMP (0x1C4 + 8 * n.val)) 1) s

end Sys2Proof.Machine
end

