-- ==== Sys2Proof/Machine/CmdTime.lean ====
section
/-! DEFINITION. The meanings of the commands of the RTC, the cellar and the watchdog (R378 to R393). -/

namespace Sys2Proof.Machine

/-- RTC_TICK (R380): A cellar tick advances the RTC by 0, 1 or 2 under trim. -/
def execRtcTick (padHigh : Bool) (s : State) : Host.Outcome State Fault Refusal := effect (fun t => (t.rtcTick padHigh).cellarEdge) s

/-- CRYSTAL_STOP (R379): No crystal edge for 4 fallback periods; the RTC runs from the fallback RC. -/
def execCrystalStop (s : State) : Host.Outcome State Fault Refusal := simple (fun t => t.crystalStop false) s

/-- CRYSTAL_RETURN (R379): The crystal runs within ±1 % for 1 s and the RTC returns to it. -/
def execCrystalReturn (s : State) : Host.Outcome State Fault Refusal := simple (fun t => t.crystalReturn) s

/-- RTC_TICK_LO_READ (R381): A read of TICK_LO returns the shadow and freezes the master's set. -/
def execRtcTickLoRead (m : Master) (s : State) : Host.Outcome State Fault Refusal := simple (fun t => t.hostRead m (hdrAddr PG_RTC 0x40) 1) s

/-- RTC_TICK_HI_READ (R381): A read of TICK_HI returns the frozen or live value and releases the set. -/
def execRtcTickHiRead (m : Master) (s : State) : Host.Outcome State Fault Refusal := simple (fun t => t.hostRead m (hdrAddr PG_RTC 0x44) 1) s

/-- RTC_FREEZE_TIMEOUT (R381): A set frozen for 1 ms is released and RTC.STATUS.FRZTO is set. -/
def execRtcFreezeTimeout (m : Master) (s : State) : Host.Outcome State Fault Refusal := simple (fun t => t.freezeTimeout (masterId m)) s

/-- RTC_SET (R382): RTC.CMD OP 1 with its key requests that the count be set from SET_LO and SET_HI. -/
def execRtcSet (m : Master) (key : BitVec 16) (s : State) : Host.Outcome State Fault Refusal :=
  simple (fun t => t.hostWrite m (hdrAddr PG_RTC 0x50) (cmdWord key 1)) s

/-- RTC_SET_LOAD (R382): At the first tick after the set command reaches the cellar the count is loaded and SETDONE set. -/
def execRtcSetLoad (s : State) : Host.Outcome State Fault Refusal := simple (fun t => t.rtcSetLoad) s

/-- PWRON_SET (R387): A write of CELLAR.PWRON.SET asserts PWRON. -/
def execPwronSet (m : Master) (s : State) : Host.Outcome State Fault Refusal := simple (fun t => t.hostWrite m (hdrAddr PG_CELLAR 0x40) 1) s

/-- PWRON_RELEASE (R387): A write of CELLAR.PWRON.REL releases PWRON. -/
def execPwronRelease (m : Master) (set : Bool) (s : State) : Host.Outcome State Fault Refusal :=
  simple (fun t => t.hostWrite m (hdrAddr PG_CELLAR 0x40) (BitVec.ofNat 32 (2 + b2n set))) s

/-- WDOG_CFG_WRITE (R388): The first WDOG.CFG write switches the watchdog on and locks its configuration. -/
def execWdogCfgWrite (m : Master) (v : Word) (s : State) : Host.Outcome State Fault Refusal :=
  simple (fun t => t.hostWrite m (hdrAddr PG_WDOG 0x40) v) s

/-- WDOG_CHECKIN (R390): A CHECKIN write counts task check-ins and bites at once on excess. -/
def execWdogCheckin (m : Master) (mask count : BitVec 16) (s : State) : Host.Outcome State Fault Refusal :=
  effect (fun t => t.hostAct m PG_WDOG fun u => u.wdogCheckin mask.toNat count.toNat) s

/-- WDOG_SERVICE (R391): A SERVICE write is judged for key, window and tasks; it opens a new window or bites. -/
def execWdogService (m : Master) (v : Word) (count : BitVec 16) (s : State) : Host.Outcome State Fault Refusal :=
  effect (fun t => t.hostAct m PG_WDOG fun u => u.wdogService v.toNat count.toNat) s

/-- WDOG_WARN (R391): The count reaches WARN and WDOG.STATUS.WARN is set. -/
def execWdogWarn (s : State) : Host.Outcome State Fault Refusal := simple (fun t => t.wdogWarn) s

/-- WDOG_CLOSE (R391): The count reaches CLOSE or CLOSE_FIRST with no service and the watchdog bites late. -/
def execWdogClose (s : State) : Host.Outcome State Fault Refusal := effect (fun t => t.wdogLate) s

/-- MUTUAL_CLOCK_FAIL (R393): GUARD RC or cellar clock fails the mutual monitor; reset, bite or CLKFAIL. -/
def execMutualClockFail (guardRc : Bool) (s : State) : Host.Outcome State Fault Refusal := effect (fun t => t.mutualFail guardRc) s

end Sys2Proof.Machine
end

