-- ==== Sys2Proof/Machine/CmdTrack.lean ====
section
/-! DEFINITION. The meanings of the commands of charge tracking, health and the lifetime records (R179 to R229). -/

namespace Sys2Proof.Machine

/-- ACCUMULATION_STEP (R179): At tick 0 of the accumulation cycle the estimator adds the new node 0 windows into Q_STR. -/
def execAccumulationStep (s : State) : Host.Outcome State Fault Refusal := simple (fun t => t.accumulation) s

/-- ISTR_READING (R182): A new ISTR reading is cross-checked with the node 0 window or counted into Q_STR in fallback. -/
def execIstrReading (n : Fin 16) (s : State) : Host.Outcome State Fault Refusal := simple (fun t => t.istrReading n) s

/-- RECORD_WRITE (R204): A master write to a record under update is held until the write-back and then applied. -/
def execRecordWrite (m : Master) (addr : BitVec 24) (v : Word) (s : State) : Host.Outcome State Fault Refusal :=
  effect (fun t => t.hostWrite m addr.toNat v) s

/-- STORE_ROOM_CLEAR_ALL (R207): EST.CMD OP 1 clears the whole store room to the clear values. -/
def execStoreRoomClearAll (m : Master) (key : BitVec 16) (s : State) : Host.Outcome State Fault Refusal :=
  effect (fun t => t.hostWrite m (hdrAddr PG_EST 0x64) (cmdWord key 1)) s

/-- STORE_ROOM_CLEAR_STRING (R207): EST.CMD OP 2 clears the records of one string. -/
def execStoreRoomClearString (m : Master) (key : BitVec 16) (n : Fin 16) (s : State) : Host.Outcome State Fault Refusal :=
  effect (fun t => t.hostWrite m (hdrAddr PG_EST 0x64) (cmdWord key (n.val * 16 + 2))) s

/-- TONE_START (R220): A write of HEALTH.PERTn.START clears a string's demodulation sums and starts a tone. -/
def execToneStart (m : Master) (n : Fin 16) (v : BitVec 31) (s : State) : Host.Outcome State Fault Refusal :=
  simple (fun t => t.hostWrite m (hdrAddr PG_HEALTH (0x180 + 4 * n.val)) (BitVec.ofNat 32 (0x80000000 + v.toNat))) s

/-- HEALTH_FLUSH (R227): HEALTH.CMD OP 1 starts a lifetime flush. -/
def execHealthFlush (m : Master) (key : BitVec 16) (s : State) : Host.Outcome State Fault Refusal :=
  effect (fun t => t.hostWrite m (hdrAddr PG_HEALTH 0x78) (cmdWord key 1)) s

/-- HEALTH_FLUSH_RETIRE (R227): HEALTH.CMD OP 2 flushes with one module's lifetime entries set to 0. -/
def execHealthFlushRetire (m : Master) (key : BitVec 16) (string : Fin 16) (module : BitVec 6) (s : State) : Host.Outcome State Fault Refusal :=
  effect (fun t => t.hostWrite m (hdrAddr PG_HEALTH 0x78) (cmdWord key (string.val * 1024 + module.toNat * 16 + 2))) s

/-- HOURLY_FLUSH (R227): An hour of RTC time has passed and the lifetime flush runs, deferred past a running long operation. -/
def execHourlyFlush (s : State) : Host.Outcome State Fault Refusal := effect (fun t => t.hourly) s

end Sys2Proof.Machine
end

