-- ==== Sys2Proof/Machine/Dispatch.lean ====
section
/-! DEFINITION. The dispatch: one arm per command, each one direct call of its meaning. -/

namespace Sys2Proof.Machine

def exec (i : Instr) (s : State) : Host.Outcome State Fault Refusal :=
  match i with
  | .biasSourceChange vib startUp vbus => Sys2Proof.Machine.execBiasSourceChange vib startUp vbus s
  | .biasLost vib startUp vbus => Sys2Proof.Machine.execBiasLost vib startUp vbus s
  | .biasGood vib startUp vbus => Sys2Proof.Machine.execBiasGood vib startUp vbus s
  | .cellarPowerOn => Sys2Proof.Machine.execCellarPowerOn s
  | .deviceResetRelease addr head img verifyBad readBad => Sys2Proof.Machine.execDeviceResetRelease addr head img verifyBad readBad s
  | .resetinNAssert => Sys2Proof.Machine.execResetinNAssert s
  | .devReset m key => Sys2Proof.Machine.execDevReset m key s
  | .modereqRun m key superseded badA badB => Sys2Proof.Machine.execModereqRun m key superseded badA badB s
  | .modereqSafe m key superseded => Sys2Proof.Machine.execModereqSafe m key superseded s
  | .modereqService m key superseded => Sys2Proof.Machine.execModereqService m key superseded s
  | .modereqHibernate m key superseded => Sys2Proof.Machine.execModereqHibernate m key superseded s
  | .modereqOff m key superseded => Sys2Proof.Machine.execModereqOff m key superseded s
  | .powercycle m key tOff => Sys2Proof.Machine.execPowercycle m key tOff s
  | .powercycleOffExpire => Sys2Proof.Machine.execPowercycleOffExpire s
  | .cellarOnRequest src => Sys2Proof.Machine.execCellarOnRequest src s
  | .fallComplete => Sys2Proof.Machine.execFallComplete s
  | .pllLock ext => Sys2Proof.Machine.execPllLock ext s
  | .startUpCalibrationDone a b c d => Sys2Proof.Machine.execStartUpCalibrationDone a b c d s
  | .imageSelection badA badB => Sys2Proof.Machine.execImageSelection badA badB s
  | .preloadApply => Sys2Proof.Machine.execPreloadApply s
  | .riseEnd => Sys2Proof.Machine.execRiseEnd s
  | .railStartHoldEnd => Sys2Proof.Machine.execRailStartHoldEnd s
  | .wake src => Sys2Proof.Machine.execWake src s
  | .stopAutoRestart => Sys2Proof.Machine.execStopAutoRestart s
  | .thermalRelease => Sys2Proof.Machine.execThermalRelease s
  | .registerWrite m addr v => Sys2Proof.Machine.execRegisterWrite m addr v s
  | .memoryWrite m addr v => Sys2Proof.Machine.execMemoryWrite m addr v s
  | .atticDirectWrite m addr v => Sys2Proof.Machine.execAtticDirectWrite m addr v s
  | .unmappedAccess m addr w => Sys2Proof.Machine.execUnmappedAccess m addr w s
  | .statusW1c m addr clr sets => Sys2Proof.Machine.execStatusW1c m addr clr sets s
  | .functionReset m pg enable => Sys2Proof.Machine.execFunctionReset m pg enable s
  | .functionResetDone pg => Sys2Proof.Machine.execFunctionResetDone pg s
  | .errInjWrite m pg checker count => Sys2Proof.Machine.execErrInjWrite m pg checker count s
  | .longopComplete e => Sys2Proof.Machine.execLongopComplete e s
  | .cycleMarker settled inLimit fets => Sys2Proof.Machine.execCycleMarker settled inLimit fets s
  | .guardMarker => Sys2Proof.Machine.execGuardMarker s
  | .hibernateMarker rail settled => Sys2Proof.Machine.execHibernateMarker rail settled s
  | .roundBoundary => Sys2Proof.Machine.execRoundBoundary s
  | .frameBoundary => Sys2Proof.Machine.execFrameBoundary s
  | .epochBoundary corr => Sys2Proof.Machine.execEpochBoundary corr s
  | .slotNop x => Sys2Proof.Machine.execSlotNop x s
  | .slotEnd x => Sys2Proof.Machine.execSlotEnd x s
  | .slotWait x => Sys2Proof.Machine.execSlotWait x s
  | .waitExpire lane level => Sys2Proof.Machine.execWaitExpire lane level s
  | .modejump x => Sys2Proof.Machine.execModejump x s
  | .rdvGive x => Sys2Proof.Machine.execRdvGive x s
  | .rdvTake x => Sys2Proof.Machine.execRdvTake x s
  | .trigger x => Sys2Proof.Machine.execTrigger x s
  | .comp x => Sys2Proof.Machine.execComp x s
  | .pwmload x => Sys2Proof.Machine.execPwmload x s
  | .check x => Sys2Proof.Machine.execCheck x s
  | .move x => Sys2Proof.Machine.execMove x s
  | .linktx x => Sys2Proof.Machine.execLinktx x s
  | .linktxRing x => Sys2Proof.Machine.execLinktxRing x s
  | .estupd x => Sys2Proof.Machine.execEstupd x s
  | .estupdDemod x => Sys2Proof.Machine.execEstupdDemod x s
  | .rank x => Sys2Proof.Machine.execRank x s
  | .dispatchRoundStep x => Sys2Proof.Machine.execDispatchRoundStep x s
  | .dispatchFrameStep x => Sys2Proof.Machine.execDispatchFrameStep x s
  | .select x => Sys2Proof.Machine.execSelect x s
  | .slotResourceFree x used d => Sys2Proof.Machine.execSlotResourceFree x used d s
  | .slotBudgetExpire x => Sys2Proof.Machine.execSlotBudgetExpire x s
  | .tableCut x => Sys2Proof.Machine.execTableCut x s
  | .lockstepMismatch lane => Sys2Proof.Machine.execLockstepMismatch lane s
  | .relight m v => Sys2Proof.Machine.execRelight m v s
  | .warmRelightCopyDone readBad => Sys2Proof.Machine.execWarmRelightCopyDone readBad s
  | .coldRelightLoadDone badA badB => Sys2Proof.Machine.execColdRelightLoadDone badA badB s
  | .scheduleStoreWrite m addr v => Sys2Proof.Machine.execScheduleStoreWrite m addr v s
  | .budgetDataAccess m w => Sys2Proof.Machine.execBudgetDataAccess m w s
  | .imageSegment m key bank => Sys2Proof.Machine.execImageSegment m key bank s
  | .imageSeal m key bank => Sys2Proof.Machine.execImageSeal m key bank s
  | .imageErase m key bank => Sys2Proof.Machine.execImageErase m key bank s
  | .imageCheck m key bank => Sys2Proof.Machine.execImageCheck m key bank s
  | .atticCommit m key => Sys2Proof.Machine.execAtticCommit m key s
  | .atticCompare m key => Sys2Proof.Machine.execAtticCompare m key s
  | .ocvCommit m key set => Sys2Proof.Machine.execOcvCommit m key set s
  | .ocvReload m key set => Sys2Proof.Machine.execOcvReload m key set s
  | .ocvCheck m key set => Sys2Proof.Machine.execOcvCheck m key set s
  | .ocvSetWrite m addr v => Sys2Proof.Machine.execOcvSetWrite m addr v s
  | .swtrig m bank seq => Sys2Proof.Machine.execSwtrig m bank seq s
  | .conversionResult bank entry uv ago onReleased => Sys2Proof.Machine.execConversionResult bank entry uv ago onReleased s
  | .sequenceDone bank => Sys2Proof.Machine.execSequenceDone bank s
  | .calStep bank => Sys2Proof.Machine.execCalStep bank s
  | .calDone bank m => Sys2Proof.Machine.execCalDone bank m s
  | .calSweep m bank bgen => Sys2Proof.Machine.execCalSweep m bank bgen s
  | .fifoRead m bank => Sys2Proof.Machine.execFifoRead m bank s
  | .fifoClear m bank thr => Sys2Proof.Machine.execFifoClear m bank thr s
  | .tripComparatorTrip k uv e0 e1 => Sys2Proof.Machine.execTripComparatorTrip k uv e0 e1 s
  | .tripComparatorRelease k uv => Sys2Proof.Machine.execTripComparatorRelease k uv s
  | .blankingWindowEnd k => Sys2Proof.Machine.execBlankingWindowEnd k s
  | .holdRelease m mask => Sys2Proof.Machine.execHoldRelease m mask s
  | .windowTick => Sys2Proof.Machine.execWindowTick s
  | .windowSample n uv => Sys2Proof.Machine.execWindowSample n uv s
  | .wcapHiRead m n => Sys2Proof.Machine.execWcapHiRead m n s
  | .linkEnumerate m n key => Sys2Proof.Machine.execLinkEnumerate m n key s
  | .linkMeasure m n key => Sys2Proof.Machine.execLinkMeasure m n key s
  | .linkSend m n key template => Sys2Proof.Machine.execLinkSend m n key template s
  | .linkReturn n pairB rt bytes fits => Sys2Proof.Machine.execLinkReturn n pairB rt bytes fits s
  | .returnWindowClose n fits => Sys2Proof.Machine.execReturnWindowClose n fits s
  | .linkStale n => Sys2Proof.Machine.execLinkStale n s
  | .deselectRetry n => Sys2Proof.Machine.execDeselectRetry n s
  | .selovr m n key node => Sys2Proof.Machine.execSelovr m n key node s
  | .accumulationStep => Sys2Proof.Machine.execAccumulationStep s
  | .istrReading n => Sys2Proof.Machine.execIstrReading n s
  | .recordWrite m addr v => Sys2Proof.Machine.execRecordWrite m addr v s
  | .storeRoomClearAll m key => Sys2Proof.Machine.execStoreRoomClearAll m key s
  | .storeRoomClearString m key n => Sys2Proof.Machine.execStoreRoomClearString m key n s
  | .toneStart m n v => Sys2Proof.Machine.execToneStart m n v s
  | .healthFlush m key => Sys2Proof.Machine.execHealthFlush m key s
  | .healthFlushRetire m key string module => Sys2Proof.Machine.execHealthFlushRetire m key string module s
  | .hourlyFlush => Sys2Proof.Machine.execHourlyFlush s
  | .periodBoundary u padsBad sense => Sys2Proof.Machine.execPeriodBoundary u padsBad sense s
  | .hiccupEnd n => Sys2Proof.Machine.execHiccupEnd n s
  | .channelSenseLoss n => Sys2Proof.Machine.execChannelSenseLoss n s
  | .softStartDone n => Sys2Proof.Machine.execSoftStartDone n s
  | .stopCheck n => Sys2Proof.Machine.execStopCheck n s
  | .instantNotice n clocks burst => Sys2Proof.Machine.execInstantNotice n clocks burst s
  | .selectPoll n => Sys2Proof.Machine.execSelectPoll n s
  | .selectOpenTimeout n => Sys2Proof.Machine.execSelectOpenTimeout n s
  | .selectCloseTimeout n => Sys2Proof.Machine.execSelectCloseTimeout n s
  | .selectVerifyTimeout n => Sys2Proof.Machine.execSelectVerifyTimeout n s
  | .inpathResult which => Sys2Proof.Machine.execInpathResult which s
  | .inpathSenseLoss => Sys2Proof.Machine.execInpathSenseLoss s
  | .inpathGateEnhanced => Sys2Proof.Machine.execInpathGateEnhanced s
  | .inpathStartTimeout => Sys2Proof.Machine.execInpathStartTimeout s
  | .inpathReverseBlock after => Sys2Proof.Machine.execInpathReverseBlock after s
  | .inpathCurrentLimit => Sys2Proof.Machine.execInpathCurrentLimit s
  | .inpathFastTrip => Sys2Proof.Machine.execInpathFastTrip s
  | .inpathUvovRecover => Sys2Proof.Machine.execInpathUvovRecover s
  | .inpathTimedTrip => Sys2Proof.Machine.execInpathTimedTrip s
  | .inpathRetry => Sys2Proof.Machine.execInpathRetry s
  | .inpathConsecReset => Sys2Proof.Machine.execInpathConsecReset s
  | .inputLoss => Sys2Proof.Machine.execInputLoss s
  | .returnOk => Sys2Proof.Machine.execReturnOk s
  | .rshedRounds => Sys2Proof.Machine.execRshedRounds s
  | .rshedRestore => Sys2Proof.Machine.execRshedRestore s
  | .packPresence det => Sys2Proof.Machine.execPackPresence det s
  | .packPrechargeTimeout => Sys2Proof.Machine.execPackPrechargeTimeout s
  | .packTermination => Sys2Proof.Machine.execPackTermination s
  | .packSafetyTimeout => Sys2Proof.Machine.execPackSafetyTimeout s
  | .packTolatchClear m key => Sys2Proof.Machine.execPackTolatchClear m key s
  | .packRestart m key => Sys2Proof.Machine.execPackRestart m key s
  | .packHold m key => Sys2Proof.Machine.execPackHold m key s
  | .packHiccupEnd => Sys2Proof.Machine.execPackHiccupEnd s
  | .packSenseLoss => Sys2Proof.Machine.execPackSenseLoss s
  | .feedCurrentResult n => Sys2Proof.Machine.execFeedCurrentResult n s
  | .feedTimedTrip n => Sys2Proof.Machine.execFeedTimedTrip n s
  | .feedSenseLoss n => Sys2Proof.Machine.execFeedSenseLoss n s
  | .feedSeatConfirm n => Sys2Proof.Machine.execFeedSeatConfirm n s
  | .feedSeatRemove n => Sys2Proof.Machine.execFeedSeatRemove n s
  | .feedStart n => Sys2Proof.Machine.execFeedStart n s
  | .feedPowerGood n => Sys2Proof.Machine.execFeedPowerGood n s
  | .feedStartTimeout n => Sys2Proof.Machine.execFeedStartTimeout n s
  | .feedRetry n => Sys2Proof.Machine.execFeedRetry n s
  | .feedGoodTimer n => Sys2Proof.Machine.execFeedGoodTimer n s
  | .feedShed => Sys2Proof.Machine.execFeedShed s
  | .feedsClearLocked m key mask => Sys2Proof.Machine.execFeedsClearLocked m key mask s
  | .feedsRestart m key mask => Sys2Proof.Machine.execFeedsRestart m key mask s
  | .supervisorJudgement r uv => Sys2Proof.Machine.execSupervisorJudgement r uv s
  | .seqSlotBegin => Sys2Proof.Machine.execSeqSlotBegin s
  | .railDelayExpire r => Sys2Proof.Machine.execRailDelayExpire r s
  | .railRampEnd r => Sys2Proof.Machine.execRailRampEnd r s
  | .railPowerGood r => Sys2Proof.Machine.execRailPowerGood r s
  | .railRiseTimeout r => Sys2Proof.Machine.execRailRiseTimeout r s
  | .fallSlot => Sys2Proof.Machine.execFallSlot s
  | .railFallTimeout r => Sys2Proof.Machine.execRailFallTimeout r s
  | .offMinWaitEnd => Sys2Proof.Machine.execOffMinWaitEnd s
  | .resetOutputRelease g => Sys2Proof.Machine.execResetOutputRelease g s
  | .nativeFallback r => Sys2Proof.Machine.execNativeFallback r s
  | .railHiccupEnd r => Sys2Proof.Machine.execRailHiccupEnd r s
  | .svcTarget v amps => Sys2Proof.Machine.execSvcTarget v amps s
  | .sensorResult table entry => Sys2Proof.Machine.execSensorResult table entry s
  | .readingStale r => Sys2Proof.Machine.execReadingStale r s
  | .thermStep m => Sys2Proof.Machine.execThermStep m s
  | .thermAutostep => Sys2Proof.Machine.execThermAutostep s
  | .thermalShutdown k => Sys2Proof.Machine.execThermalShutdown k s
  | .clockMonitor off stopped => Sys2Proof.Machine.execClockMonitor off stopped s
  | .errorLinePulse sources => Sys2Proof.Machine.execErrorLinePulse sources s
  | .errorLineDisagree k => Sys2Proof.Machine.execErrorLineDisagree k s
  | .reactionEnd => Sys2Proof.Machine.execReactionEnd s
  | .snuffReadback bad => Sys2Proof.Machine.execSnuffReadback bad s
  | .faultStatusClear m hi v sources => Sys2Proof.Machine.execFaultStatusClear m hi v sources s
  | .raiseSet m mask => Sys2Proof.Machine.execRaiseSet m mask s
  | .raiseClear m mask => Sys2Proof.Machine.execRaiseClear m mask s
  | .faultCfgLock m rest => Sys2Proof.Machine.execFaultCfgLock m rest s
  | .classWrite m j v => Sys2Proof.Machine.execClassWrite m j v s
  | .faultLogWrite => Sys2Proof.Machine.execFaultLogWrite s
  | .rtcTick padHigh => Sys2Proof.Machine.execRtcTick padHigh s
  | .crystalStop => Sys2Proof.Machine.execCrystalStop s
  | .crystalReturn => Sys2Proof.Machine.execCrystalReturn s
  | .rtcTickLoRead m => Sys2Proof.Machine.execRtcTickLoRead m s
  | .rtcTickHiRead m => Sys2Proof.Machine.execRtcTickHiRead m s
  | .rtcFreezeTimeout m => Sys2Proof.Machine.execRtcFreezeTimeout m s
  | .rtcSet m key => Sys2Proof.Machine.execRtcSet m key s
  | .rtcSetLoad => Sys2Proof.Machine.execRtcSetLoad s
  | .pwronSet m => Sys2Proof.Machine.execPwronSet m s
  | .pwronRelease m set => Sys2Proof.Machine.execPwronRelease m set s
  | .wdogCfgWrite m v => Sys2Proof.Machine.execWdogCfgWrite m v s
  | .wdogCheckin m mask count => Sys2Proof.Machine.execWdogCheckin m mask count s
  | .wdogService m v count => Sys2Proof.Machine.execWdogService m v count s
  | .wdogWarn => Sys2Proof.Machine.execWdogWarn s
  | .wdogClose => Sys2Proof.Machine.execWdogClose s
  | .mutualClockFail guardRc => Sys2Proof.Machine.execMutualClockFail guardRc s
  | .eventRecord => Sys2Proof.Machine.execEventRecord s
  | .rptrWrite m shelfB v => Sys2Proof.Machine.execRptrWrite m shelfB v s
  | .doneWrite m src => Sys2Proof.Machine.execDoneWrite m src s
  | .irqModerationExpire shelfB => Sys2Proof.Machine.execIrqModerationExpire shelfB s
  | .hostIdle shelfB => Sys2Proof.Machine.execHostIdle shelfB s
  | .spiLocalWrite f => Sys2Proof.Machine.execSpiLocalWrite f s
  | .spiLocalRead f => Sys2Proof.Machine.execSpiLocalRead f s
  | .spiRemoteWrite dev f => Sys2Proof.Machine.execSpiRemoteWrite dev f s
  | .spiRemoteRead dev f => Sys2Proof.Machine.execSpiRemoteRead dev f s
  | .spiAbort => Sys2Proof.Machine.execSpiAbort s
  | .i2cWrite low dev addr data => Sys2Proof.Machine.execI2cWrite low dev addr data s
  | .i2cLocalRead cmd take => Sys2Proof.Machine.execI2cLocalRead cmd take s
  | .i2cRemoteRead dev addr len => Sys2Proof.Machine.execI2cRemoteRead dev addr len s
  | .i2cTimeout => Sys2Proof.Machine.execI2cTimeout s
  | .hostNotifyRepeat shelfB ok => Sys2Proof.Machine.execHostNotifyRepeat shelfB ok s
  | .i2cWakeMatch => Sys2Proof.Machine.execI2cWakeMatch s
  | .i2cWakeTimeout => Sys2Proof.Machine.execI2cWakeTimeout s
  | .i2ccGo m v => Sys2Proof.Machine.execI2ccGo m v s
  | .i2ccClear m v => Sys2Proof.Machine.execI2ccClear m v s
  | .i2ccDone cleared e rx => Sys2Proof.Machine.execI2ccDone cleared e rx s
  | .i2ccStretchTimeout => Sys2Proof.Machine.execI2ccStretchTimeout s
  | .debugLinkFrame w dev f => Sys2Proof.Machine.execDebugLinkFrame w dev f s
  | .typecToggle => Sys2Proof.Machine.execTypecToggle s
  | .typecAttach cc2 rp v dead => Sys2Proof.Machine.execTypecAttach cc2 rp v dead s
  | .trySnkExpire => Sys2Proof.Machine.execTrySnkExpire s
  | .typecDetach vbusLost => Sys2Proof.Machine.execTypecDetach vbusLost s
  | .accessory => Sys2Proof.Machine.execAccessory s
  | .vconnOvercurrent => Sys2Proof.Machine.execVconnOvercurrent s
  | .typecErrorRecovery m key => Sys2Proof.Machine.execTypecErrorRecovery m key s
  | .errorRecoveryEnd => Sys2Proof.Machine.execErrorRecoveryEnd s
  | .pdSourceCapsSend acked => Sys2Proof.Machine.execPdSourceCapsSend acked s
  | .pdSourceCapsRx caps good => Sys2Proof.Machine.execPdSourceCapsRx caps good s
  | .pdRequestRx rdo good => Sys2Proof.Machine.execPdRequestRx rdo good s
  | .pdPsRdySend => Sys2Proof.Machine.execPdPsRdySend s
  | .pdGoodcrcTimeout => Sys2Proof.Machine.execPdGoodcrcTimeout s
  | .pdSwapRx k vconnIn good => Sys2Proof.Machine.execPdSwapRx k vconnIn good s
  | .pdSwapTimeout => Sys2Proof.Machine.execPdSwapTimeout s
  | .pdRenegotiate m key => Sys2Proof.Machine.execPdRenegotiate m key s
  | .pdPrSwap m key => Sys2Proof.Machine.execPdPrSwap m key s
  | .pdDrSwap m key => Sys2Proof.Machine.execPdDrSwap m key s
  | .pdVconnSwap m key => Sys2Proof.Machine.execPdVconnSwap m key s
  | .pdHardResetCmd m key => Sys2Proof.Machine.execPdHardResetCmd m key s
  | .pdSendVdm m key => Sys2Proof.Machine.execPdSendVdm m key s
  | .pdGetStatus m key => Sys2Proof.Machine.execPdGetStatus m key s
  | .pdHardReset => Sys2Proof.Machine.execPdHardReset s
  | .pdHardResetVbusTimeout => Sys2Proof.Machine.execPdHardResetVbusTimeout s
  | .pdFrsSignal => Sys2Proof.Machine.execPdFrsSignal s
  | .pdFrsAcceptTimeout => Sys2Proof.Machine.execPdFrsAcceptTimeout s
  | .srcOkFall => Sys2Proof.Machine.execSrcOkFall s
  | .pdVdmRx words good => Sys2Proof.Machine.execPdVdmRx words good s
  | .pdVdmAnswerTimeout => Sys2Proof.Machine.execPdVdmAnswerTimeout s
  | .lanternCommand words good => Sys2Proof.Machine.execLanternCommand words good s
  | .ringFrameRx west f crc eofb ns res => Sys2Proof.Machine.execRingFrameRx west f crc eofb ns res s
  | .remoteReadTimeout tag => Sys2Proof.Machine.execRemoteReadTimeout tag s
  | .orderedSetRx west otype b1 b2 b3 chk rt => Sys2Proof.Machine.execOrderedSetRx west otype b1 b2 b3 chk rt s
  | .snuffRepeat => Sys2Proof.Machine.execSnuffRepeat s
  | .ringSnuffCmd m key => Sys2Proof.Machine.execRingSnuffCmd m key s
  | .ringPortDown west => Sys2Proof.Machine.execRingPortDown west s
  | .ringPortUp west => Sys2Proof.Machine.execRingPortUp west s
  | .rfaultRepeat west => Sys2Proof.Machine.execRfaultRepeat west s
  | .ringQuiet west => Sys2Proof.Machine.execRingQuiet west s
  | .ringHeal => Sys2Proof.Machine.execRingHeal s
  | .ringEnumerate m key => Sys2Proof.Machine.execRingEnumerate m key s
  | .ringEnumStepTimeout => Sys2Proof.Machine.execRingEnumStepTimeout s
  | .delayProbe west => Sys2Proof.Machine.execDelayProbe west s
  | .ringRemeasure m key => Sys2Proof.Machine.execRingRemeasure m key s
  | .pilotSend => Sys2Proof.Machine.execPilotSend s
  | .pilotLoss => Sys2Proof.Machine.execPilotLoss s
  | .summarySend => Sys2Proof.Machine.execSummarySend s
  | .summaryDeadline => Sys2Proof.Machine.execSummaryDeadline s
  | .ringWakeBurst m key => Sys2Proof.Machine.execRingWakeBurst m key s
  | .epsetLoad m key => Sys2Proof.Machine.execEpsetLoad m key s
  | .pdMessageRx x good => Sys2Proof.Machine.execPdMessageRx x good s
  | .pdResponseTimeout => Sys2Proof.Machine.execPdResponseTimeout s
  | .pdHardResetTimer => Sys2Proof.Machine.execPdHardResetTimer s
  | .vbusSafe0v v => Sys2Proof.Machine.execVbusSafe0v v s
  | .vbusOvervoltage v => Sys2Proof.Machine.execVbusOvervoltage v s
  | .vddioBankChange bank low => Sys2Proof.Machine.execVddioBankChange bank low s
  | .testAssert high => Sys2Proof.Machine.execTestAssert high s
  | .jtagInstruction instr => Sys2Proof.Machine.execJtagInstruction instr s

end Sys2Proof.Machine
end

