-- ==== Sys2Proof/Safety.lean ====
section
/-! DEFINITION. What counts as a safe run, and the terms in which claims about the block are stated: the canonical form of its tables,
the frame of a command, a command that completes. -/

namespace Sys2Proof.Machine

/-- The canonical form of the memory: addresses rise strictly and no listed byte reads as an unlisted one does. -/
def Memory.wf (m : List Host.Cell) : Bool := Sparse.wf shippedByte m

/-- The canonical form of both tables of a state, so that equal contents are equal data. -/
def State.Canonical (s : State) : Prop := Sparse.wf regReset s.regs = true ∧ Memory.wf s.mem = true

/-- A safe step: the block takes the command at the front of its queue and goes on. -/
def State.Safe (s : State) : Prop := ∃ t, step s = .next t

/-- A command that completes on a state and leaves one of which `Q` holds. -/
def Completes (i : Instr) (s : State) (Q : State → Prop) : Prop := ∃ t, exec i s = .next t ∧ Q t

/-- Every byte of memory reads as before. -/
def MemSame (s t : State) : Prop := ∀ a, t.byte a = s.byte a

/-- Every byte of memory outside `[a, a + n)` reads as before. -/
def MemBut (a n : Nat) (s t : State) : Prop := ∀ b, (b < a ∨ a + n ≤ b) → t.byte b = s.byte b

/-- Every register outside the pages `ps` holds the value it held. -/
def RegsBut (ps : List Nat) (s t : State) : Prop := ∀ a, a / 0x400 ∉ ps → t.rd a = s.rd a

/-- The registers in which the service port shows the conditions it follows after every command: TYPEC.STATE and PD.SNKLIM. -/
def portShows : List Nat := [TYPEC_STATE_CODE.addr, PD_SNKLIM_I.addr]

/-- Every register outside the pages `ps` holds the value it held, but for the two in which the service port shows what it follows. -/
def RegsButE (ps : List Nat) (s t : State) : Prop := ∀ a, a / 0x400 ∉ ps → a ∉ portShows → t.rd a = s.rd a

/-- The frame of a command that stores to no memory and to registers of the pages `ps` alone, and leaves the mode. -/
def Frame (ps : List Nat) (s t : State) : Prop := RegsBut ps s t ∧ MemSame s t ∧ t.mode = s.mode

/-- The same of a command after which the service port follows its conditions. -/
def FrameE (ps : List Nat) (s t : State) : Prop := RegsButE ps s t ∧ MemSame s t ∧ t.mode = s.mode

/-- The masters that send commands from outside: SPI, I²C, the ring and the debug link. -/
def hostMaster : Master → Bool
  | .lamplighter | .preload => false
  | _ => true

/-- No entry to FALL or HIBERNATE has a step left, no enumeration of RISE and no flush waits, so that nothing of the modes follows at once. -/
def State.Calm (s : State) : Prop := s.dev.stage = 0 ∧ s.dev.enumDue = false ∧ s.est.flushDue = false

/-- Nothing follows at once from the state: nothing of the modes, no ring enumeration runs, and nothing is attached to the service port. -/
def State.Quiet (s : State) : Prop :=
  s.Calm ∧ s.enumerating = false ∧ s.port.target = none ∧ s.portCode ≤ 1 ∧ s.on PD_CONTRACT_VALID = false ∧ s.on TYPEC_STATE_FRSARM = false ∧
    (s.portRuns = true ∨ (s.portCode = 0 ∧ s.port = s.polTake.portBlank))

/-- Nothing of the modes, the ring or the SVC stage follows at once, and the port runs with no message held back: what a command does to the
port is all that happens to it, but for the switches and levels with which the port follows its conditions.  A contract stands only over an
attach, with PD in force, and is not about to be upgraded. -/
def State.Steady (s : State) : Prop :=
  s.Calm ∧ s.enumerating = false ∧ s.portRuns = true ∧ s.get SVC_STATE_CODE ≠ 4 ∧ s.port.held = none ∧
    (s.on PD_CONTRACT_VALID = false ∨
      ((s.portCode = 5 ∨ s.portCode = 6) ∧ s.polOn PD_CFG_PD_EN = true ∧
        (s.imageLit = false ∨ s.on PD_CONTRACT_FIVEONLY = false ∨ s.port.asked = true)))

/-- Every PWM output but `outs` is as it was. -/
def PwmSame (outs : List Nat) (s t : State) : Prop := ∀ o < 42, o ∈ outs ∨ t.pwmOut o = s.pwmOut o

/-- The PWM outputs `outs` use the phase and the duty that were active, over a period of `tsw` ns in steps of 125 ps, and no other output changes. -/
def PwmTaken (outs : List Nat) (tsw : Nat) (s t : State) : Prop :=
  PwmSame outs s t ∧
    ∀ o ∈ outs, (t.pwmOut o).period = 8 * tsw ∧ (t.pwmOut o).phase = (s.pwmOut o).acPhase ∧ (t.pwmOut o).duty = (s.pwmOut o).acDuty

/-- STATUS bit `k` of page `pg`. -/
def State.statusOf (s : State) (pg k : Nat) : Bool := bitOf (s.hdr pg hdrSTATUS) k

/-- ERR bit `k` of page `pg`. -/
def State.errOf (s : State) (pg k : Nat) : Bool := bitOf (s.hdr pg hdrERR) k

/-- The sources of the error lines that pulsed and that the fault collection has not taken yet, in order. -/
def State.lineSrcs (s : State) : List Nat := s.fault.lines.map (·.src)

/-- The slot `x` comes due, is issued as `op` and writes all its results: it is well formed and due in its table's run, its word holds `op` and
reads clean, no guard skips it, no cause of R72 stands against it, and its resource is not stopped. -/
def State.Issues (s : State) (x : Slot) (op : SlotOp) : Prop :=
  slotOk x = true ∧ x.stop = none ∧ s.slotDue x = true ∧ s.slotAt x = some op ∧ x.ecc = false ∧ s.injOn PG_LAMP 7 = false ∧
    ((s.lane x.lane).run x.level).skip = 0 ∧ s.slotCause x (some op) = none

/-- The frame of a command that stores to no memory, leaves the mode, and writes the registers `as` alone besides those in which the service
port shows what it follows. -/
def FrameA (as : List Nat) (s t : State) : Prop := (∀ a, a ∉ as → a ∉ portShows → t.rd a = s.rd a) ∧ MemSame s t ∧ t.mode = s.mode

/-- Every register of page `pg` in domain FR reads its reset value, but for those of `but`. -/
def FRCleared (pg : Nat) (but : List Nat) (t : State) : Prop := ∀ a, a / 0x400 = pg → regDom a = .fr → a ∉ but → t.rd a = regReset a

/-- One bit of the plain CRC with polynomial 0x04C1_1DB7 (R85). -/
def crcSerialStep (c : BitVec 32) (b : Bool) : BitVec 32 := if c.msb != b then (c <<< 1) ^^^ 0x04C11DB7#32 else c <<< 1

/-- The CRC-32 of R85 as the rule words it: the input reflected, all ones to begin with, the output reflected, all bits inverted at the end. -/
def crcSerial (bs : List Byte) : BitVec 32 :=
  ((bs.flatMap fun b => (List.range 8).map b.getLsbD).foldl crcSerialStep 0xFFFFFFFF#32).reverse ^^^ 0xFFFFFFFF#32

end Sys2Proof.Machine

namespace Sys2Proof

/-- The commands among whose effects a change of the mode is: the writes of masters, which reach any register, what the ring and the host buses
carry of them, the commands of the mode table, and what supervision, the watchdog and the fault collection judge. -/
def Instr.mayChangeMode : Instr → Bool
  | .biasLost .. | .biasGood .. | .cellarPowerOn | .deviceResetRelease .. | .resetinNAssert | .devReset .. | .modereqRun ..
    | .modereqSafe .. | .modereqService .. | .modereqHibernate .. | .modereqOff .. | .powercycle .. | .powercycleOffExpire
    | .cellarOnRequest .. | .fallComplete | .preloadApply | .riseEnd | .railStartHoldEnd | .wake .. | .stopAutoRestart
    | .thermalRelease | .registerWrite .. | .memoryWrite .. | .atticDirectWrite .. | .unmappedAccess .. | .statusW1c ..
    | .functionReset .. | .errInjWrite .. | .frameBoundary | .modejump .. | .move .. | .linktxRing .. | .relight ..
    | .scheduleStoreWrite .. | .budgetDataAccess .. | .imageSegment .. | .imageSeal .. | .imageErase .. | .imageCheck ..
    | .atticCommit .. | .atticCompare .. | .ocvCommit .. | .ocvReload .. | .ocvCheck .. | .ocvSetWrite .. | .swtrig .. | .calSweep ..
    | .fifoClear .. | .holdRelease .. | .windowSample .. | .linkEnumerate .. | .linkMeasure .. | .linkSend .. | .selovr ..
    | .recordWrite .. | .storeRoomClearAll .. | .storeRoomClearString .. | .toneStart .. | .healthFlush .. | .healthFlushRetire ..
    | .packTolatchClear .. | .packRestart .. | .packHold .. | .feedsClearLocked .. | .feedsRestart .. | .supervisorJudgement ..
    | .offMinWaitEnd | .thermStep .. | .errorLinePulse .. | .faultStatusClear .. | .raiseSet .. | .raiseClear .. | .faultCfgLock ..
    | .classWrite .. | .rtcTick .. | .rtcSet .. | .pwronSet .. | .pwronRelease .. | .wdogCfgWrite .. | .wdogCheckin ..
    | .wdogService .. | .wdogClose | .mutualClockFail .. | .rptrWrite .. | .doneWrite .. | .spiLocalWrite .. | .spiLocalRead ..
    | .spiRemoteWrite .. | .spiRemoteRead .. | .i2cWrite .. | .i2cWakeMatch | .i2ccGo .. | .i2ccClear .. | .debugLinkFrame ..
    | .typecErrorRecovery .. | .pdRenegotiate .. | .pdPrSwap .. | .pdDrSwap .. | .pdVconnSwap .. | .pdHardResetCmd .. | .pdSendVdm ..
    | .pdGetStatus .. | .ringFrameRx .. | .ringSnuffCmd .. | .ringEnumerate .. | .ringRemeasure .. | .ringWakeBurst ..
    | .epsetLoad .. | .testAssert .. => true
  | _ => false

/-- The commands among whose effects a store to memory is. -/
def Instr.mayStore : Instr → Bool
  | .biasLost .. | .biasGood .. | .cellarPowerOn | .deviceResetRelease .. | .resetinNAssert | .devReset .. | .modereqRun ..
    | .modereqSafe .. | .modereqService .. | .modereqHibernate .. | .modereqOff .. | .powercycle .. | .powercycleOffExpire
    | .cellarOnRequest .. | .fallComplete | .pllLock .. | .imageSelection .. | .preloadApply | .riseEnd | .railStartHoldEnd
    | .wake .. | .registerWrite .. | .memoryWrite .. | .atticDirectWrite .. | .unmappedAccess .. | .statusW1c .. | .functionReset ..
    | .errInjWrite .. | .longopComplete .. | .cycleMarker .. | .hibernateMarker .. | .roundBoundary | .frameBoundary
    | .epochBoundary .. | .move .. | .linktx .. | .linktxRing .. | .estupd .. | .estupdDemod .. | .rank .. | .select .. | .relight ..
    | .coldRelightLoadDone .. | .scheduleStoreWrite .. | .budgetDataAccess .. | .imageSegment .. | .imageSeal .. | .imageErase ..
    | .imageCheck .. | .atticCommit .. | .atticCompare .. | .ocvCommit .. | .ocvReload .. | .ocvCheck .. | .ocvSetWrite ..
    | .swtrig .. | .conversionResult .. | .sequenceDone .. | .calSweep .. | .fifoClear .. | .tripComparatorTrip ..
    | .blankingWindowEnd .. | .holdRelease .. | .windowSample .. | .linkEnumerate .. | .linkMeasure .. | .linkSend ..
    | .linkReturn .. | .returnWindowClose .. | .linkStale .. | .deselectRetry .. | .selovr .. | .accumulationStep | .istrReading ..
    | .recordWrite .. | .storeRoomClearAll .. | .storeRoomClearString .. | .toneStart .. | .healthFlush .. | .healthFlushRetire ..
    | .periodBoundary .. | .channelSenseLoss .. | .stopCheck .. | .selectPoll .. | .selectOpenTimeout .. | .selectCloseTimeout ..
    | .selectVerifyTimeout .. | .packTermination | .packTolatchClear .. | .packRestart .. | .packHold .. | .feedCurrentResult ..
    | .feedTimedTrip .. | .feedStart .. | .feedStartTimeout .. | .feedsClearLocked .. | .feedsRestart .. | .supervisorJudgement ..
    | .offMinWaitEnd | .sensorResult .. | .thermStep .. | .errorLinePulse .. | .reactionEnd | .faultStatusClear .. | .raiseSet ..
    | .raiseClear .. | .faultCfgLock .. | .classWrite .. | .faultLogWrite | .rtcTick .. | .rtcSet .. | .pwronSet ..
    | .pwronRelease .. | .wdogCfgWrite .. | .wdogCheckin .. | .wdogService .. | .wdogClose | .mutualClockFail .. | .eventRecord
    | .rptrWrite .. | .doneWrite .. | .spiLocalWrite .. | .spiLocalRead .. | .spiRemoteWrite .. | .spiRemoteRead .. | .i2cWrite ..
    | .i2cWakeMatch | .i2ccGo .. | .i2ccClear .. | .debugLinkFrame .. | .typecErrorRecovery .. | .pdRenegotiate .. | .pdPrSwap ..
    | .pdDrSwap .. | .pdVconnSwap .. | .pdHardResetCmd .. | .pdSendVdm .. | .pdGetStatus .. | .ringFrameRx .. | .remoteReadTimeout ..
    | .ringSnuffCmd .. | .ringEnumerate .. | .ringRemeasure .. | .ringWakeBurst .. | .epsetLoad .. | .testAssert .. => true
  | _ => false

end Sys2Proof
end

