-- ==== Sys2Proof/Certificates/Slice0/Obligations.lean ====
section
/-! DEFINITION. The statements for the provers: for every command what it does to the block and what it leaves, where it completes,
and what holds of every command. -/

open Sys2Proof Sys2Proof.Machine

/-- For every command and every state, a step of the state with the command at the front of its queue is exec of the command on the state with
the queue's rest. -/
def Obligations.StepRunsTheFrontCommand : Prop :=
  ∀ (c : Instr) (s : State) (rest : List Instr),
    step { s with pending := c :: rest } = exec c { s with pending := rest }

/-- With an empty queue a step answers a next state; with no frame of its own waiting for the ring that state is the same state, and with one
the queue of frames is one shorter where the ring runs and nothing else waits behind it. Model's choice (log entry 1). -/
def Obligations.EmptyQueueIdles : Prop :=
  ∀ s : State, s.pending = [] →
    (s.ring.txq = [] → step s = .next s) ∧
      ∀ x l, s.ring.txq = x :: l → s.ringRuns = true → s.Quiet → x.frame.typ ≠ 2 → ∃ t, step s = .next t ∧ t.ring.txq = l ∧ t.mode = s.mode

/-- Whatever command is executed, the queue of waiting commands after it is the queue it was given. -/
def Obligations.CommandsKeepTheQueue : Prop :=
  ∀ (c : Instr) (s t : State), exec c s = .next t → t.pending = s.pending

/-- From every state whose register table and memory are in canonical form (keys strictly rising, no entry equal to what an unlisted key reads
as), whatever command is at the front of the queue, the next state's are in canonical form. -/
def Obligations.StepKeepsCanonicalTables : Prop :=
  ∀ s t : State, s.Canonical → step s = .next t → t.Canonical

/-- The tables of the state after reset are in canonical form and its queue is empty. -/
def Obligations.ResetIsCanonical : Prop :=
  State.reset.Canonical ∧ State.reset.pending = []

/-- Two states with canonical tables in which every register and every byte of memory read the same have equal tables. -/
def Obligations.CanonicalTablesAreDetermined : Prop :=
  ∀ s t : State, s.Canonical → t.Canonical → (∀ a, s.rd a = t.rd a) → (∀ a, s.byte a = t.byte a) → s.regs = t.regs ∧ s.mem = t.mem

/-- A register written reads the value and every other register what it read; a field written reads the value modulo its width, and the
register's other fields what they read; n bytes written little-endian from an address read as the number modulo 256^n, and every other byte
what it read. -/
def Obligations.WritesReadBack : Prop :=
  (∀ (s : State) (a b : Nat) (v : Word), (s.wr a v).rd b = if b = a then v else s.rd b) ∧
    (∀ (s : State) (f : Fld) (v : Nat), f.lo + f.w ≤ 32 → (s.put f v).get f = v % 2 ^ f.w) ∧
    (∀ (s : State) (f g : Fld) (v : Nat), f.lo + f.w ≤ 32 → g.lo + g.w ≤ 32 → (f.lo + f.w ≤ g.lo ∨ g.lo + g.w ≤ f.lo ∨ g.addr ≠ f.addr) →
      (s.put f v).get g = s.get g) ∧
    (∀ (s : State) (a n v : Nat), (s.store a n v).load a n = v % 256 ^ n) ∧
    ∀ (s : State) (a n v : Nat), MemBut a n s (s.store a n v)

/-- On every state, whatever it is, a command whose operands lie within their ranges answers a next state; one whose operands do not is the
fault illFormed. -/
def Obligations.WellFormedCommandsComplete : Prop :=
  ∀ (c : Instr) (s : State),
    (c.wellFormed = true → ∃ t, exec c s = .next t) ∧ (c.wellFormed = false → exec c s = .fault .illFormed)

/-- Outside an entry to FALL or HIBERNATE that still has a step left, every command but those listed (the writes of masters and what carries
them, the commands of the mode table, and what supervision, the watchdog and the fault collection judge) leaves the mode as it was, in every
state: no marker but the frame boundary, no slot but MODEJUMP, MOVE and a LINKTX on the ring (which the device may itself serve), no
conversion, no sense, no timer of a channel, a feed or a rail, and no event of the service port. -/
def Obligations.FewCommandsChangeTheMode : Prop :=
  ∀ (c : Instr) (s t : State), s.dev.stage = 0 → c.mayChangeMode = false → exec c s = .next t → t.mode = s.mode

/-- Every command but those listed leaves the whole memory, the schedule store, the attic, the store room and the cellar with it, as it was, in
every state. -/
def Obligations.FewCommandsStore : Prop :=
  ∀ (c : Instr) (s t : State), c.mayStore = false → exec c s = .next t → t.mem = s.mem

/-- No step lowers the number from which the values that the spec leaves open are drawn, so that none is drawn twice; model's own field (log
entries 30 and 31). -/
def Obligations.FreeValuesAreFresh : Prop :=
  ∀ s t : State, step s = .next t → s.fresh ≤ t.fresh

/-- After the cellar's power-on the mode is CELLAR, nothing waits, no bias is in use, and a register of each page reads the reset value its
table gives. -/
def Obligations.ResetValues : Prop :=
  State.reset.mode = .cellar ∧ State.reset.pending = [] ∧ State.reset.dev.bias = .none ∧ State.reset.wdog.on = false ∧
    State.reset.rd (PG_DEV * 0x400 + 0x58) = 0x30A03 ∧
    State.reset.rd (PG_LAMP * 0x400 + 0x70) = 0xFFFFFF ∧
    State.reset.rd (PG_ADC * 0x400 + 0x48) = 0x1 ∧
    State.reset.rd ((PG_ADC + 3) * 0x400 + 0x5C) = 0x20 ∧
    State.reset.rd (PG_CMP * 0x400 + 0x180) = 0x10CCD ∧
    State.reset.rd (PG_SLINK * 0x400 + 0x40) = 0x300 ∧
    State.reset.rd ((PG_SLINK + 15) * 0x400 + 0x44) = 0x21407D0 ∧
    State.reset.rd (PG_EST * 0x400 + 0x40) = 0x3F ∧
    State.reset.rd (PG_HEALTH * 0x400 + 0x40) = 0xE ∧
    State.reset.rd (PG_BAL * 0x400 + 0x40) = 0x79 ∧
    State.reset.rd ((PG_BAL + 15) * 0x400 + 0x4C) = 0x40004000 ∧
    State.reset.rd (PG_DISPATCH * 0x400 + 0x40) = 0x1D ∧
    State.reset.rd (PG_INPATH * 0x400 + 0x40) = 0x3100 ∧
    State.reset.rd (PG_PACK * 0x400 + 0x40) = 0xE0110 ∧
    State.reset.rd (PG_FEEDS * 0x400 + 0x40) = 0x64001400 ∧
    State.reset.rd (PG_SVC * 0x400 + 0x40) = 0x1 ∧
    State.reset.rd (PG_IBC * 0x400 + 0x40) = 0x1D ∧
    State.reset.rd ((PG_POL + 3) * 0x400 + 0x40) = 0x12 ∧
    State.reset.rd (PG_LDO * 0x400 + 0x44) = 0x6040000 ∧
    State.reset.rd (PG_SEQ * 0x400 + 0x48) = 0x76C06A4 ∧
    State.reset.rd (PG_THERM * 0x400 + 0x40) = 0x9B68012C ∧
    State.reset.rd (PG_FAULT * 0x400 + 0x60) = 0x201F4 ∧
    State.reset.rd (PG_FAULT * 0x400 + 0x84) = 0x2022200 ∧
    State.reset.rd (PG_CELLAR * 0x400 + 0x50) = 0xC8 ∧
    State.reset.rd (PG_EVQ * 0x400 + 0x40) = 0x3E8100E ∧
    State.reset.rd (PG_I2CT * 0x400 + 0x40) = 0x8 ∧
    State.reset.rd (PG_I2CC * 0x400 + 0x40) = 0xA01 ∧
    State.reset.rd (PG_RING * 0x400 + 0x40) = 0x3E

/-- On every list of bytes the byte-wise reflected CRC that the image checks use equals the plain bit-serial CRC with polynomial 0x04C1_1DB7,
bits taken least significant first, all ones to begin with, the result reflected and inverted; over the bytes of "123456789" it is
0xCBF4_3926. -/
def Obligations.CrcIsThatOfTheRule : Prop :=
  (∀ bs : List Byte, crc32 bs = (crcSerial bs).toNat) ∧ crc32 [0x31, 0x32, 0x33, 0x34, 0x35, 0x36, 0x37, 0x38, 0x39] = 0xCBF43926

/-- BIAS_LOST with no source left enters CELLAR from any other mode with cause 1, the mode left in PREV and no long operation; in CELLAR it
leaves the mode. BIAS_LOST with the start-up regulator or VBUS_BIAS present is a device reset from any mode but CELLAR: RISE, held, with
cause 3, the mode left in PREV and the first of those two sources in use. BIAS_GOOD in CELLAR with no bias in use starts RISE with cause 2
and RISECAUSE 1 for the first rise after the cellar's power-on's, 0 after it; with bias in use it does nothing. CELLAR_POWER_ON leaves every
register at its reset value in mode CELLAR, with the cellar reset and the signature of the record area written. (R485 of
spec/22_modes_recovery.md, R488 of spec/22_modes_recovery.md, R509 of spec/23_balls_electrical.md, R377 of spec/17_time_watchdog_cellar.md.) -/
def Obligations.ModesWithoutBias : Prop :=
  (∀ (s : State),
      s.mode ≠ .cellar →
      Completes (.biasLost false false false) s fun t =>
        t.mode = .cellar ∧ t.dev.bias = .none ∧ t.get DEV_MODE_CAUSE = 1 ∧ t.get DEV_MODE_PREV = s.mode.code ∧ t.op = none) ∧
    (∀ (s : State),
      s.mode = .cellar →
      Completes (.biasLost false false false) s fun t =>
        t.mode = .cellar ∧ t.dev.bias = .none) ∧
    (∀ (s : State) (vib startUp vbus : Bool),
      s.mode ≠ .cellar ∧ biasBits false startUp vbus ≠ 0 →
      Completes (.biasLost vib startUp vbus) s fun t =>
        t.mode = .rise ∧ t.dev.held = true ∧ t.get DEV_MODE_CAUSE = 3 ∧ t.get DEV_MODE_PREV = s.mode.code ∧
          t.dev.bias = biasFirst (biasBits false startUp vbus)) ∧
    (∀ (s : State) (vib startUp vbus : Bool),
      s.mode = .cellar ∧ s.dev.bias = .none ∧ biasBits false startUp vbus ≠ 0 →
      Completes (.biasGood vib startUp vbus) s fun t =>
        t.mode = .rise ∧ t.dev.held = true ∧ t.get DEV_MODE_CAUSE = 2 ∧ t.get DEV_BOOT_RISECAUSE = (if s.cellar.powered then 0 else 1) ∧
          t.dev.bias = biasFirst (biasBits false startUp vbus)) ∧
    (∀ (s : State) (vib startUp vbus : Bool),
      s.Quiet ∧ (s.dev.bias ≠ .none) →
      Completes (.biasGood vib startUp vbus) s fun t =>
        FrameE [] s t) ∧
    (∀ (s : State),
      Completes (.cellarPowerOn) s fun t =>
        t.mode = .cellar ∧ t.regs = [] ∧ t.cellar = State.reset.cellar ∧ t.load 0x300000 4 = 0x52414C43 ∧ t.pending = s.pending)

/-- From any mode but CELLAR, RESETIN_N low through a VDDIO bank that is up, a write of DEV.RESET with its key and TEST high through a bank that
is up put the device in RISE, held in device reset, with cause 3 and the mode it left in PREV, and RISECAUSE 2 for the pin and 3 for the
write. In CELLAR RESETIN_N does the same where bias is present and is remembered where none is. With its bank down neither RESETIN_N nor
TEST has an effect, and a wrong key has none. TEST falling, a VDDIO bank that falls or rises and a JTAG instruction change no register and
no mode: a bank that falls reads the seat of the pack, RESETIN_N and TEST as inactive. (R488 of spec/22_modes_recovery.md, R485 of
spec/22_modes_recovery.md, R503 of spec/23_balls_electrical.md, R505 of spec/23_balls_electrical.md.) -/
def Obligations.DeviceResetEntered : Prop :=
  (∀ (s : State),
      s.bankLow 3 = false ∧ s.mode ≠ .cellar →
      Completes (.resetinNAssert) s fun t =>
        t.mode = .rise ∧ t.dev.held = true ∧ t.get DEV_MODE_CAUSE = 3 ∧ t.get DEV_MODE_PREV = s.mode.code ∧
          t.get DEV_BOOT_RISECAUSE = 2 ∧ t.dev.resetIn = true) ∧
    (∀ (s : State),
      s.bankLow 3 = false ∧ s.mode = .cellar ∧ s.dev.bias ≠ .none →
      Completes (.resetinNAssert) s fun t =>
        t.mode = .rise ∧ t.dev.held = true ∧ t.get DEV_MODE_CAUSE = 3 ∧ t.get DEV_MODE_PREV = s.mode.code ∧
          t.get DEV_BOOT_RISECAUSE = 2 ∧ t.dev.resetIn = true) ∧
    (∀ (s : State),
      s.bankLow 3 = false ∧ s.mode = .cellar ∧ s.dev.bias = .none ∧ s.Quiet →
      Completes (.resetinNAssert) s fun t =>
        t.dev.resetIn = true ∧ FrameE [] s t) ∧
    (∀ (s : State),
      s.Quiet ∧ (s.bankLow 3 = true) →
      Completes (.resetinNAssert) s fun t =>
        FrameE [] s t) ∧
    (∀ (s : State) (m : Master) (key : BitVec 16),
      s.accepts m = true ∧ hostMaster m = true ∧ key = 0x5E7D ∧ s.mode ≠ .cellar →
      Completes (.devReset m key) s fun t =>
        t.mode = .rise ∧ t.dev.held = true ∧ t.get DEV_MODE_CAUSE = 3 ∧ t.get DEV_MODE_PREV = s.mode.code ∧ t.get DEV_BOOT_RISECAUSE = 3) ∧
    (∀ (s : State) (m : Master) (key : BitVec 16),
      s.accepts m = true ∧ hostMaster m = true ∧ key ≠ 0x5E7D ∧ s.Quiet →
      Completes (.devReset m key) s fun t =>
        t.dev = s.dev ∧ FrameE [PG_DEV] s t) ∧
    (∀ (s : State),
      s.bankLow 4 = false ∧ s.mode ≠ .cellar →
      Completes (.testAssert true) s fun t =>
        t.mode = .rise ∧ t.dev.held = true ∧ t.get DEV_MODE_CAUSE = 3 ∧ t.get DEV_MODE_PREV = s.mode.code ∧ t.dev.testHigh = true) ∧
    (∀ (s : State),
      s.bankLow 4 = false ∧ s.Quiet →
      Completes (.testAssert false) s fun t =>
        t.dev.testHigh = false ∧ FrameE [] s t) ∧
    (∀ (s : State) (high : Bool),
      s.Quiet ∧ (s.bankLow 4 = true) →
      Completes (.testAssert high) s fun t =>
        FrameE [] s t) ∧
    (∀ (s : State) (bank : Fin 5) (low : Bool),
      s.Quiet →
      Completes (.vddioBankChange bank low) s fun t =>
        bitOf t.dev.vddioLow bank.val = low ∧ (low = true → bank = 1 → t.pack.det = false) ∧ (low = true → bank = 3 →
          t.dev.resetIn = false) ∧ (low = true → bank = 4 → t.dev.testHigh = false) ∧ FrameE [] s t) ∧
    (∀ (s : State) (instr : Fin 4),
      s.bankLow 4 = false →
      Completes (.jtagInstruction instr) s fun t =>
        t.dev.jtag = instr.val ∧ Frame [] s t) ∧
    (∀ (s : State) (instr : Fin 4),
      s.bankLow 4 = true →
      Completes (.jtagInstruction instr) s fun t =>
        t.dev.jtag = s.dev.jtag ∧ Frame [] s t)

/-- A MODEREQ write by a master whose accesses the device takes, with its key and not superseded: RUN from SAFE with an image lit, the rails
risen and no HOLD in force; SAFE from RUN, RIDE and SERVICE; SERVICE from SAFE with the rails risen and no HOLD in force; HIBERNATE from RUN
and SERVICE, and from SAFE with no HOLD in force; OFF from every mode but CELLAR and FALL. The device is in the mode asked for, MODERES is 1
(accepted), PREV is the mode left and CAUSE its code of Table 1. A request for SERVICE in RUN is accepted and waits; one for RUN in SERVICE
is accepted where a bank loads and is lit after it. POWERCYCLE with its key in RUN enters FALL with cause 5 and arms the on request after
T_OFF, at least T_OFF_MIN. (R486 of spec/22_modes_recovery.md, R497 of spec/22_modes_recovery.md, R494 of spec/22_modes_recovery.md, R495 of
spec/22_modes_recovery.md, R499 of spec/22_modes_recovery.md.) -/
def Obligations.ModeRequestsTaken : Prop :=
  (∀ (s : State) (m : Master) (key : BitVec 16) (badA badB : Bool),
      s.accepts m = true ∧ hostMaster m = true ∧ key = 0x3D0E ∧ s.Quiet ∧ s.mode = .safe ∧ s.litBank ≠ 0 ∧
        s.on FAULT_HOLDS_FULL = false ∧ s.seqPhase = 2 →
      Completes (.modereqRun m key false badA badB) s fun t =>
        t.mode = .run ∧ t.get DEV_MODERES_CODE = 1 ∧ t.get DEV_MODE_PREV = s.mode.code ∧ t.get DEV_MODE_CAUSE = 10) ∧
    (∀ (s : State) (m : Master) (key : BitVec 16) (badA badB : Bool),
      s.accepts m = true ∧ hostMaster m = true ∧ key = 0x3D0E ∧ s.Quiet ∧ s.mode = .service ∧ s.lamp.coldStage = 0 ∧
        (s.imageForRun (badBanks badA badB)).1.isSome = true ∧ (s.litBank ≠ 0 ∨ s.get LAMP_STATE_LOADED ≠ 0 ∨ s.bankState 1 = 2 ∨
        s.bankState 2 = 2) →
      Completes (.modereqRun m key false badA badB) s fun t =>
        t.mode = .service ∧ t.get DEV_MODERES_CODE = 1 ∧ t.lamp.coldStage = 3 ∧
          some t.lamp.relightBank = (s.imageForRun (badBanks badA badB)).1) ∧
    (∀ (s : State) (m : Master) (key : BitVec 16),
      s.accepts m = true ∧ hostMaster m = true ∧ key = 0x3D0E ∧ s.Quiet ∧ (s.mode = .run ∨ s.mode = .ride ∨ s.mode = .service) →
      Completes (.modereqSafe m key false) s fun t =>
        t.mode = .safe ∧ t.get DEV_MODERES_CODE = 1 ∧ t.get DEV_MODE_PREV = s.mode.code ∧ t.get DEV_MODE_CAUSE = 8) ∧
    (∀ (s : State) (m : Master) (key : BitVec 16),
      s.accepts m = true ∧ hostMaster m = true ∧ key = 0x3D0E ∧ s.Quiet ∧ s.mode = .run →
      Completes (.modereqService m key false) s fun t =>
        t.mode = .run ∧ t.get DEV_MODERES_CODE = 1 ∧ t.dev.servicePend = true ∧ FrameE [PG_DEV] s t) ∧
    (∀ (s : State) (m : Master) (key : BitVec 16),
      s.accepts m = true ∧ hostMaster m = true ∧ key = 0x3D0E ∧ s.Quiet ∧ s.mode = .safe ∧ s.on FAULT_HOLDS_FULL = false ∧
        s.seqPhase = 2 →
      Completes (.modereqService m key false) s fun t =>
        t.mode = .service ∧ t.get DEV_MODERES_CODE = 1 ∧ t.get DEV_MODE_PREV = s.mode.code ∧ t.get DEV_MODE_CAUSE = 9) ∧
    (∀ (s : State) (m : Master) (key : BitVec 16),
      s.accepts m = true ∧ hostMaster m = true ∧ key = 0x3D0E ∧ s.Quiet ∧ (s.mode = .run ∨ s.mode = .service ∨ (s.mode = .safe ∧
        s.on FAULT_HOLDS_FULL = false)) ∧ s.dev.wakeBits = none →
      Completes (.modereqHibernate m key false) s fun t =>
        t.mode = .hibernate ∧ t.get DEV_MODERES_CODE = 1 ∧ t.get DEV_MODE_PREV = s.mode.code ∧ t.get DEV_MODE_CAUSE = 11) ∧
    (∀ (s : State) (m : Master) (key : BitVec 16),
      s.accepts m = true ∧ hostMaster m = true ∧ key = 0x3D0E ∧ s.Quiet ∧ s.mode ≠ .cellar ∧ s.mode ≠ .fall →
      Completes (.modereqOff m key false) s fun t =>
        t.mode = .fall ∧ t.get DEV_MODERES_CODE = 1 ∧ t.get DEV_MODE_PREV = s.mode.code ∧ t.get DEV_MODE_CAUSE = 5) ∧
    (∀ (s : State) (m : Master) (key tOff : BitVec 16),
      s.accepts m = true ∧ hostMaster m = true ∧ key = 0xC1C1 ∧ s.Quiet ∧ s.mode = .run →
      Completes (.powercycle m key tOff) s fun t =>
        t.mode = .fall ∧ t.dev.armedOff = some (max tOff.toNat (s.get SEQ_OFFMIN_T_OFF_MIN)) ∧ t.get DEV_MODE_CAUSE = 5 ∧
          t.get DEV_MODE_PREV = s.mode.code) ∧
    (∀ (s : State) (m : Master) (key tOff : BitVec 16),
      s.accepts m = true ∧ hostMaster m = true ∧ key ≠ 0xC1C1 ∧ s.Quiet →
      Completes (.powercycle m key tOff) s fun t =>
        t.dev = s.dev ∧ FrameE [PG_DEV] s t)

/-- A MODEREQ write with a wrong key reports 0x10, a request that another happening of its clock supersedes reports 0x15 with MODEREJ, and one
that Table 1 does not allow from the mode in force reports 0x11 with MODEREJ; SERVICE and HIBERNATE from SAFE with a HOLD in force report
0x12, and RUN from SAFE with a bank sealed and the rails not risen 0x14. The mode, every register outside DEV and the memory stay. (R486 of
spec/22_modes_recovery.md, R487 of spec/22_modes_recovery.md.) -/
def Obligations.ModeRequestsRefused : Prop :=
  (∀ (s : State) (m : Master) (key : BitVec 16) (badA badB : Bool),
      s.accepts m = true ∧ hostMaster m = true ∧ key ≠ 0x3D0E ∧ s.Quiet →
      Completes (.modereqRun m key false badA badB) s fun t =>
        t.get DEV_MODERES_CODE = 0x10 ∧ FrameE [PG_DEV] s t) ∧
    (∀ (s : State) (m : Master) (key : BitVec 16) (badA badB : Bool),
      s.accepts m = true ∧ hostMaster m = true ∧ s.Quiet →
      Completes (.modereqRun m key true badA badB) s fun t =>
        t.get DEV_MODERES_CODE = 0x15 ∧ bitOf (t.hdr PG_DEV hdrSTATUS) DEV_ST_MODEREJ = true ∧ FrameE [PG_DEV, PG_EVQ] s t) ∧
    (∀ (s : State) (m : Master) (key : BitVec 16) (badA badB : Bool),
      s.accepts m = true ∧ hostMaster m = true ∧ key = 0x3D0E ∧ s.Quiet ∧ opAllowed s.mode 1 = false →
      Completes (.modereqRun m key false badA badB) s fun t =>
        t.get DEV_MODERES_CODE = 0x11 ∧ bitOf (t.hdr PG_DEV hdrSTATUS) DEV_ST_MODEREJ = true ∧ FrameE [PG_DEV, PG_EVQ] s t) ∧
    (∀ (s : State) (m : Master) (key : BitVec 16),
      s.accepts m = true ∧ hostMaster m = true ∧ key ≠ 0x3D0E ∧ s.Quiet →
      Completes (.modereqSafe m key false) s fun t =>
        t.get DEV_MODERES_CODE = 0x10 ∧ FrameE [PG_DEV] s t) ∧
    (∀ (s : State) (m : Master) (key : BitVec 16),
      s.accepts m = true ∧ hostMaster m = true ∧ s.Quiet →
      Completes (.modereqSafe m key true) s fun t =>
        t.get DEV_MODERES_CODE = 0x15 ∧ bitOf (t.hdr PG_DEV hdrSTATUS) DEV_ST_MODEREJ = true ∧ FrameE [PG_DEV, PG_EVQ] s t) ∧
    (∀ (s : State) (m : Master) (key : BitVec 16),
      s.accepts m = true ∧ hostMaster m = true ∧ key = 0x3D0E ∧ s.Quiet ∧ opAllowed s.mode 2 = false →
      Completes (.modereqSafe m key false) s fun t =>
        t.get DEV_MODERES_CODE = 0x11 ∧ bitOf (t.hdr PG_DEV hdrSTATUS) DEV_ST_MODEREJ = true ∧ FrameE [PG_DEV, PG_EVQ] s t) ∧
    (∀ (s : State) (m : Master) (key : BitVec 16),
      s.accepts m = true ∧ hostMaster m = true ∧ key ≠ 0x3D0E ∧ s.Quiet →
      Completes (.modereqService m key false) s fun t =>
        t.get DEV_MODERES_CODE = 0x10 ∧ FrameE [PG_DEV] s t) ∧
    (∀ (s : State) (m : Master) (key : BitVec 16),
      s.accepts m = true ∧ hostMaster m = true ∧ s.Quiet →
      Completes (.modereqService m key true) s fun t =>
        t.get DEV_MODERES_CODE = 0x15 ∧ bitOf (t.hdr PG_DEV hdrSTATUS) DEV_ST_MODEREJ = true ∧ FrameE [PG_DEV, PG_EVQ] s t) ∧
    (∀ (s : State) (m : Master) (key : BitVec 16),
      s.accepts m = true ∧ hostMaster m = true ∧ key = 0x3D0E ∧ s.Quiet ∧ opAllowed s.mode 3 = false →
      Completes (.modereqService m key false) s fun t =>
        t.get DEV_MODERES_CODE = 0x11 ∧ bitOf (t.hdr PG_DEV hdrSTATUS) DEV_ST_MODEREJ = true ∧ FrameE [PG_DEV, PG_EVQ] s t) ∧
    (∀ (s : State) (m : Master) (key : BitVec 16),
      s.accepts m = true ∧ hostMaster m = true ∧ key ≠ 0x3D0E ∧ s.Quiet →
      Completes (.modereqHibernate m key false) s fun t =>
        t.get DEV_MODERES_CODE = 0x10 ∧ FrameE [PG_DEV] s t) ∧
    (∀ (s : State) (m : Master) (key : BitVec 16),
      s.accepts m = true ∧ hostMaster m = true ∧ s.Quiet →
      Completes (.modereqHibernate m key true) s fun t =>
        t.get DEV_MODERES_CODE = 0x15 ∧ bitOf (t.hdr PG_DEV hdrSTATUS) DEV_ST_MODEREJ = true ∧ FrameE [PG_DEV, PG_EVQ] s t) ∧
    (∀ (s : State) (m : Master) (key : BitVec 16),
      s.accepts m = true ∧ hostMaster m = true ∧ key = 0x3D0E ∧ s.Quiet ∧ opAllowed s.mode 4 = false →
      Completes (.modereqHibernate m key false) s fun t =>
        t.get DEV_MODERES_CODE = 0x11 ∧ bitOf (t.hdr PG_DEV hdrSTATUS) DEV_ST_MODEREJ = true ∧ FrameE [PG_DEV, PG_EVQ] s t) ∧
    (∀ (s : State) (m : Master) (key : BitVec 16),
      s.accepts m = true ∧ hostMaster m = true ∧ key ≠ 0x3D0E ∧ s.Quiet →
      Completes (.modereqOff m key false) s fun t =>
        t.get DEV_MODERES_CODE = 0x10 ∧ FrameE [PG_DEV] s t) ∧
    (∀ (s : State) (m : Master) (key : BitVec 16),
      s.accepts m = true ∧ hostMaster m = true ∧ s.Quiet →
      Completes (.modereqOff m key true) s fun t =>
        t.get DEV_MODERES_CODE = 0x15 ∧ bitOf (t.hdr PG_DEV hdrSTATUS) DEV_ST_MODEREJ = true ∧ FrameE [PG_DEV, PG_EVQ] s t) ∧
    (∀ (s : State) (m : Master) (key : BitVec 16),
      s.accepts m = true ∧ hostMaster m = true ∧ key = 0x3D0E ∧ s.Quiet ∧ (s.mode = .cellar ∨ s.mode = .fall) →
      Completes (.modereqOff m key false) s fun t =>
        t.get DEV_MODERES_CODE = 0x11 ∧ bitOf (t.hdr PG_DEV hdrSTATUS) DEV_ST_MODEREJ = true ∧ FrameE [PG_DEV, PG_EVQ] s t) ∧
    (∀ (s : State) (m : Master) (key : BitVec 16),
      s.accepts m = true ∧ hostMaster m = true ∧ key = 0x3D0E ∧ s.Quiet ∧ s.mode = .safe ∧ s.on FAULT_HOLDS_FULL = true →
      Completes (.modereqService m key false) s fun t =>
        t.get DEV_MODERES_CODE = 0x12 ∧ bitOf (t.hdr PG_DEV hdrSTATUS) DEV_ST_MODEREJ = true ∧ FrameE [PG_DEV, PG_EVQ] s t) ∧
    (∀ (s : State) (m : Master) (key : BitVec 16),
      s.accepts m = true ∧ hostMaster m = true ∧ key = 0x3D0E ∧ s.Quiet ∧ s.mode = .safe ∧ s.on FAULT_HOLDS_FULL = true →
      Completes (.modereqHibernate m key false) s fun t =>
        t.get DEV_MODERES_CODE = 0x12 ∧ bitOf (t.hdr PG_DEV hdrSTATUS) DEV_ST_MODEREJ = true ∧ FrameE [PG_DEV, PG_EVQ] s t) ∧
    (∀ (s : State) (m : Master) (key : BitVec 16) (badA badB : Bool),
      s.accepts m = true ∧ hostMaster m = true ∧ key = 0x3D0E ∧ s.Quiet ∧ s.mode = .safe ∧ s.on FAULT_HOLDS_FULL = false ∧
        s.bankState 1 = 2 ∧ s.seqPhase ≠ 2 →
      Completes (.modereqRun m key false badA badB) s fun t =>
        t.get DEV_MODERES_CODE = 0x14 ∧ bitOf (t.hdr PG_DEV hdrSTATUS) DEV_ST_MODEREJ = true ∧ FrameE [PG_DEV, PG_EVQ] s t)

/-- In RISE: the release of device reset with bias and TEST low samples the straps, takes the address strap and starts the sequencer; the PLL
lock ends row C; the start-up calibration, the image check and the preload end their rows of the table, the preload starting the enumeration
where a link has modules and no long operation runs; the end of RISE, once every row has ended, enters the mode that Table 3 gives, with
cause 4 and RISE in PREV. Out of turn each of these does nothing. A preload in SERVICE in the third stage of a return to RUN ends that
stage. VHB at V_HBON ends the hold of the rail start in RISE. (R489 of spec/22_modes_recovery.md, R490 of spec/22_modes_recovery.md, R491 of
spec/22_modes_recovery.md, R492 of spec/22_modes_recovery.md, R493 of spec/22_modes_recovery.md, R123 of spec/05_sampling.md, R88 of
spec/04_schedule_image.md.) -/
def Obligations.RiseRowsEnd : Prop :=
  (∀ (s : State) (addr : Fin 8) (head img verifyBad readBad : Bool),
      s.mode = .rise ∧ s.dev.held = true ∧ s.dev.bias ≠ .none ∧ s.dev.testHigh = false ∧ s.dev.pll = false ∧ s.Quiet →
      Completes (.deviceResetRelease addr head img verifyBad readBad) s fun t =>
        t.mode = .rise ∧ t.dev.held = false ∧ t.dev.strapHead = head ∧ t.dev.strapImg = img ∧ t.get I2CT_CFG_ADDR = addr.val ∧
          t.get SEQ_STATE_PHASE ≠ 0) ∧
    (∀ (s : State) (addr : Fin 8) (head img verifyBad readBad : Bool),
      s.Quiet ∧ (s.mode ≠ .rise ∨ s.dev.held = false ∨ s.dev.bias = .none ∨ s.dev.testHigh = true) →
      Completes (.deviceResetRelease addr head img verifyBad readBad) s fun t =>
        FrameE [] s t) ∧
    (∀ (s : State) (ext : Bool),
      s.mode = .rise ∧ s.dev.held = false ∧ s.dev.rowC = false ∧ s.Quiet →
      Completes (.pllLock ext) s fun t =>
        t.mode = .rise ∧ t.dev.pll = true ∧ t.dev.rowC = true ∧ t.bus.tsclHeld = false) ∧
    (∀ (s : State) (ext : Bool),
      s.Quiet ∧ (s.mode ≠ .rise ∨ s.dev.held = true ∨ s.dev.rowC = true) →
      Completes (.pllLock ext) s fun t =>
        FrameE [] s t) ∧
    (∀ (s : State) (a b c d : List CalMeas),
      s.mode = .rise ∧ s.dev.rowC = true ∧ s.dev.calDone = false ∧ s.Quiet ∧ a.length = 5 ∧ b.length = 5 ∧ c.length = 5 ∧ d.length = 5 →
      Completes (.startUpCalibrationDone a b c d) s fun t =>
        t.mode = .rise ∧ t.dev.calDone = true ∧ MemSame s t) ∧
    (∀ (s : State) (a b c d : List CalMeas),
      (s.mode ≠ .rise ∨ s.dev.rowC = false ∨ s.dev.calDone = true) ∧ s.Quiet ∧ a.length = 5 ∧ b.length = 5 ∧ c.length = 5 ∧
        d.length = 5 →
      Completes (.startUpCalibrationDone a b c d) s fun t =>
        FrameE [] s t) ∧
    (∀ (s : State) (badA badB : Bool),
      s.mode = .rise ∧ s.dev.rowC = true ∧ s.dev.imageDone = false ∧ s.Quiet →
      Completes (.imageSelection badA badB) s fun t =>
        t.mode = .rise ∧ t.dev.imageDone = true) ∧
    (∀ (s : State) (badA badB : Bool),
      s.Quiet ∧ (s.mode ≠ .rise ∨ s.dev.rowC = false ∨ s.dev.imageDone = true) →
      Completes (.imageSelection badA badB) s fun t =>
        FrameE [] s t) ∧
    (∀ (s : State),
      s.mode = .rise ∧ s.dev.imageDone = true ∧ s.dev.preloadDone = false ∧ s.litBank = 0 ∧ (∀ n : Fin 16, s.modules n = 0) ∧
        s.busy = false ∧ s.Quiet →
      Completes (.preloadApply) s fun t =>
        t.dev.preloadDone = true ∧ t.dev.enumDue = false ∧ FrameE [] s t) ∧
    (∀ (s : State),
      s.mode = .rise ∧ s.dev.imageDone = true ∧ s.dev.preloadDone = false ∧ s.litBank = 0 ∧ s.busy = false ∧
        (∃ n : Fin 16, s.modules n ≠ 0) ∧ s.Quiet →
      Completes (.preloadApply) s fun t =>
        t.dev.preloadDone = true ∧ t.get DEV_LONGOP_RUN = 6) ∧
    (∀ (s : State),
      s.mode = .rise ∧ s.dev.imageDone = true ∧ s.dev.preloadDone = false ∧ s.litBank = 0 ∧ s.busy = true ∧ s.Quiet →
      Completes (.preloadApply) s fun t =>
        t.dev.preloadDone = true ∧ t.dev.enumDue = true ∧ FrameE [] s t) ∧
    (∀ (s : State),
      s.mode = .service ∧ s.lamp.coldStage = 3 ∧ s.Quiet →
      Completes (.preloadApply) s fun t =>
        t.mode = .service ∧ t.lamp.coldStage = 4) ∧
    (∀ (s : State),
      s.Quiet ∧ ((s.mode ≠ .rise ∨ s.dev.imageDone = false ∨ s.dev.preloadDone = true) ∧ s.lamp.coldStage ≠ 3) →
      Completes (.preloadApply) s fun t =>
        FrameE [] s t) ∧
    (∀ (s : State) (m : Mode),
      s.riseRows = true ∧ s.riseMode = some m ∧ s.Quiet →
      Completes (.riseEnd) s fun t =>
        t.mode = m ∧ t.get DEV_MODE_CAUSE = 4 ∧ t.get DEV_MODE_PREV = Mode.rise.code) ∧
    (∀ (s : State),
      s.Quiet ∧ (s.riseRows = false ∨ s.riseMode = none) →
      Completes (.riseEnd) s fun t =>
        FrameE [] s t) ∧
    (∀ (s : State),
      s.seq.hold = true ∧ s.mode = .rise ∧ s.seq.vhbFall = false ∧ s.Quiet →
      Completes (.railStartHoldEnd) s fun t =>
        t.dev.vhbOn = true ∧ t.seq.hold = false ∧ t.mode = .rise ∧ MemSame s t) ∧
    (∀ (s : State),
      s.Quiet ∧ (s.seq.hold = false) →
      Completes (.railStartHoldEnd) s fun t =>
        FrameE [] s t)

/-- In HIBERNATE, its entry complete, an enabled wake source starts RISE with cause 12 and RISECAUSE 8 and stands in WAKESRC; while the entry
still runs it is kept until the entry ends. In CELLAR with bias an on request armed in the fall and an enabled wake source but a window
monitor and an I2C match start RISE with cause 2 and RISECAUSE 7, and the expiry of a power cycle does with RISECAUSE 6. T_STOPWAIT after a
STOP in SAFE, with automatic restarts enabled and the rails stopped by it, starts RISE with cause 13 and RISECAUSE 9 and counts the restart,
or sets ERR.STOPMAX where STOPMAX of them fell within the hour; a thermal release in SAFE with the rails stopped starts RISE with cause 13
and RISECAUSE 9. FALL with its rails down, its steps ended and no long operation running ends in CELLAR with cause 6, and the cellar's
record holds the mode left. Elsewhere these do nothing to the mode. (R488 of spec/22_modes_recovery.md, R496 of spec/22_modes_recovery.md,
R498 of spec/22_modes_recovery.md, R499 of spec/22_modes_recovery.md, R352 of spec/15_thermal.md, R336 of spec/14_board_rails.md.) -/
def Obligations.WakesAndRestarts : Prop :=
  (∀ (s : State) (src : Fin 7),
      s.mode = .hibernate ∧ s.wakeEnabled (2 ^ src.val) ≠ 0 ∧ s.Quiet →
      Completes (.wake src) s fun t =>
        t.mode = .rise ∧ t.get DEV_MODE_CAUSE = 12 ∧ t.get DEV_MODE_PREV = s.mode.code ∧ t.get DEV_BOOT_RISECAUSE = 8 ∧
          t.get CELLAR_WAKESRC_SRC = s.wakeEnabled (2 ^ src.val) % 32 ∧ t.get CELLAR_WAKESRC_ALM = s.wakeEnabled (2 ^ src.val) / 32) ∧
    (∀ (s : State) (src : Fin 7),
      s.mode = .hibernate ∧ s.dev.stage = 1 ∧ s.busy = true ∧ s.wakeEnabled (2 ^ src.val) ≠ 0 →
      Completes (.wake src) s fun t =>
        t.mode = .hibernate ∧ t.dev.wakeBits = some (s.wakeEnabled (2 ^ src.val)) ∧
          t.get CELLAR_WAKESRC_SRC = s.wakeEnabled (2 ^ src.val) % 32 ∧ t.get CELLAR_WAKESRC_ALM = s.wakeEnabled (2 ^ src.val) / 32) ∧
    (∀ (s : State) (src : Fin 7),
      s.Quiet ∧ (s.mode ≠ .hibernate ∨ (s.wakeEnabled (2 ^ src.val) = 0 ∧ src.val ≠ 4)) →
      Completes (.wake src) s fun t =>
        FrameE [] s t) ∧
    (∀ (s : State),
      s.mode = .cellar ∧ s.dev.bias ≠ .none ∧ s.dev.onAtFall = true →
      Completes (.cellarOnRequest none) s fun t =>
        t.mode = .rise ∧ t.get DEV_MODE_CAUSE = 2 ∧ t.get DEV_BOOT_RISECAUSE = 7 ∧ t.dev.onAtFall = false) ∧
    (∀ (s : State) (k : Fin 7),
      s.mode = .cellar ∧ s.dev.bias ≠ .none ∧ s.wakeEnabled (2 ^ k.val) / 4 ≠ 0 →
      Completes (.cellarOnRequest (some k)) s fun t =>
        t.mode = .rise ∧ t.get DEV_MODE_CAUSE = 2 ∧ t.get DEV_BOOT_RISECAUSE = 7 ∧
          t.get CELLAR_WAKESRC_SRC = s.wakeEnabled (2 ^ k.val) % 32 ∧ t.get CELLAR_WAKESRC_ALM = s.wakeEnabled (2 ^ k.val) / 32) ∧
    (∀ (s : State) (src : Option (Fin 7)),
      s.Quiet ∧ (s.mode ≠ .cellar) →
      Completes (.cellarOnRequest src) s fun t =>
        FrameE [] s t) ∧
    (∀ (s : State),
      s.mode = .cellar ∧ s.dev.armedOff.isSome = true ∧ s.dev.bias ≠ .none →
      Completes (.powercycleOffExpire) s fun t =>
        t.mode = .rise ∧ t.get DEV_MODE_CAUSE = 2 ∧ t.get DEV_BOOT_RISECAUSE = 6 ∧ t.dev.armedOff = none) ∧
    (∀ (s : State),
      s.Quiet ∧ (s.mode ≠ .cellar ∨ s.dev.armedOff = none) →
      Completes (.powercycleOffExpire) s fun t =>
        FrameE [] s t) ∧
    (∀ (s : State),
      s.mode = .safe ∧ s.seqPhase = 4 ∧ s.dev.stopLatched = true ∧ s.on DEV_CFG_STOPAUTO = true ∧ s.therm.shut = 0 ∧
        s.restartsRecent.length < s.get DEV_CFG_STOPMAX ∧ s.Quiet →
      Completes (.stopAutoRestart) s fun t =>
        t.mode = .rise ∧ t.get DEV_MODE_CAUSE = 13 ∧ t.get DEV_BOOT_RISECAUSE = 9 ∧
          t.dev.restarts = s.cellar.count :: s.restartsRecent ∧ t.dev.stopLatched = false) ∧
    (∀ (s : State),
      s.mode = .safe ∧ s.seqPhase = 4 ∧ s.dev.stopLatched = true ∧ s.on DEV_CFG_STOPAUTO = true ∧ s.therm.shut = 0 ∧
        s.get DEV_CFG_STOPMAX ≤ s.restartsRecent.length ∧ s.Quiet →
      Completes (.stopAutoRestart) s fun t =>
        t.mode = .safe ∧ t.dev.restarts = s.restartsRecent ∧ t.dev.stopLatched = false ∧ t.errOf PG_DEV DEV_ERR_STOPMAX = true) ∧
    (∀ (s : State),
      s.Quiet ∧ (s.mode ≠ .safe ∨ s.seqPhase ≠ 4 ∨ s.dev.stopLatched = false ∨ s.on DEV_CFG_STOPAUTO = false ∨ s.therm.shut ≠ 0) →
      Completes (.stopAutoRestart) s fun t =>
        FrameE [] s t) ∧
    (∀ (s : State),
      s.mode = .safe ∧ s.seqPhase = 4 ∧ s.dev.bias ≠ .none ∧ s.Quiet →
      Completes (.thermalRelease) s fun t =>
        t.mode = .rise ∧ t.get DEV_BOOT_RISECAUSE = 9 ∧ t.get DEV_MODE_CAUSE = 13 ∧ t.statusOf PG_THERM THERM_ST_COOLED = true) ∧
    (∀ (s : State),
      (s.mode ≠ .safe ∨ s.seqPhase ≠ 4) ∧ s.Quiet →
      Completes (.thermalRelease) s fun t =>
        t.mode = s.mode ∧ MemSame s t) ∧
    (∀ (s : State),
      s.mode = .fall ∧ s.dev.stage = 0 ∧ s.seqPhase ≠ 3 ∧ s.busy = false →
      Completes (.fallComplete) s fun t =>
        t.mode = .cellar ∧ t.get DEV_MODE_CAUSE = 6 ∧ t.dev.onAtFall = s.seq.pendOn ∧ t.load 0x30000A 1 = Mode.fall.code) ∧
    (∀ (s : State),
      s.Quiet ∧ (s.mode ≠ .fall ∨ s.seqPhase = 3 ∨ s.busy = true) →
      Completes (.fallComplete) s fun t =>
        FrameE [] s t)

/-- A write of a master whose accesses the device takes: the EVT_EN register of a page with status bits, and a block register of DEV, LAMP or
EST (but STRCFG) whose write only stores, take the new value in the bits they store, and the master's counter and the page's LAST_WRITER
show the write; a word of the work memories outside the mailbox and the shelves takes the value and no other byte changes; the attic takes
no write and ATTIC.STATUS.DIRWR is set; a STATUS register loses the bits written 1 and gains those set in the same clock. Beyond the pages
concerned, the counters of DEV and the event queue's page, no register, no byte of memory and not the mode changes. A write of a master
whose accesses the device does not take changes nothing. (R32 of spec/02_register_pages.md, R43 of spec/02_register_pages.md, R29 of
spec/02_register_pages.md, R30 of spec/02_register_pages.md, R26 of spec/02_register_pages.md.) -/
def Obligations.AccessesByMasters : Prop :=
  (∀ (s : State) (m : Master) (addr : BitVec 24) (v : Word),
      s.accepts m = true ∧ hostMaster m = true ∧ s.Quiet ∧ pageAssigned (addr.toNat / 0x400) = true ∧ addr.toNat < 0x40000 ∧
        addr.toNat % 0x400 = hdrEVT_EN ∧ (statusMask (addr.toNat / 0x400) ≠ 0) →
      Completes (.registerWrite m addr v) s fun t =>
        t.rd addr.toNat = v ∧ t.get (seqCounter m) = (if s.get (seqCounter m) = 65535 then 1 else s.get (seqCounter m) + 1) ∧
          t.rd (hdrAddr (addr.toNat / 0x400) hdrLAST_WRITER) = BitVec.ofNat 32 ((if s.get (seqCounter m) = 65535 then 1 else s.get (seqCounter m) + 1) * 65536 + masterDev m * 128 + masterId m) ∧
          FrameE [PG_DEV, addr.toNat / 0x400] s t) ∧
    (∀ (s : State) (m : Master) (addr : BitVec 24) (v : Word) (r : RegInfo),
      regInfo addr.toNat = some r →
      s.accepts m = true ∧ hostMaster m = true ∧ s.Quiet ∧ addr.toNat % 4 = 0 ∧ 0x40 ≤ addr.toNat % 0x400 ∧ r.rw ≠ 0 ∧
        actsOnWrite (addr.toNat / 0x400) (addr.toNat % 0x400) = false ∧ (addr.toNat / 0x400 = PG_LAMP ∨ (addr.toNat / 0x400 = PG_EST ∧
        (addr.toNat % 0x400 < 0x80 ∨ 0xC0 ≤ addr.toNat % 0x400)) ∨ addr.toNat / 0x400 = PG_DEV) →
      Completes (.registerWrite m addr v) s fun t =>
        t.rd addr.toNat = storeWord r (s.rd addr.toNat) v ∧
          t.get (seqCounter m) = (if s.get (seqCounter m) = 65535 then 1 else s.get (seqCounter m) + 1) ∧
          t.rd (hdrAddr (addr.toNat / 0x400) hdrLAST_WRITER) = BitVec.ofNat 32 ((if s.get (seqCounter m) = 65535 then 1 else s.get (seqCounter m) + 1) * 65536 + masterDev m * 128 + masterId m) ∧
          FrameE [PG_DEV, addr.toNat / 0x400] s t) ∧
    (∀ (s : State) (m : Master) (addr : BitVec 24) (v : Word),
      s.accepts m = true ∧ m ≠ .preload ∧ s.Quiet ∧ addr.toNat % 4 = 0 ∧ region addr.toNat = .work ∧ (addr.toNat < 0x1A4000 ∨
        0x1AD000 ≤ addr.toNat) →
      Completes (.memoryWrite m addr v) s fun t =>
        t.load addr.toNat 4 = v.toNat ∧ MemBut addr.toNat 4 s t ∧ RegsButE [] s t ∧ t.mode = s.mode) ∧
    (∀ (s : State) (m : Master) (addr : BitVec 24) (v : Word),
      s.accepts m = true ∧ s.Quiet ∧ addr.toNat % 4 = 0 ∧ region addr.toNat = .attic →
      Completes (.atticDirectWrite m addr v) s fun t =>
        t.statusOf PG_ATTIC ATTIC_ST_DIRWR = true ∧ FrameE [PG_ATTIC, PG_EVQ] s t) ∧
    (∀ (s : State) (m : Master) (addr : BitVec 24) (clr sets : Word),
      s.accepts m = true ∧ hostMaster m = true ∧ s.Quiet ∧ pageAssigned (addr.toNat / 0x400) = true ∧ addr.toNat % 0x400 = hdrSTATUS ∧
        statusMask (addr.toNat / 0x400) ≠ 0 ∧ addr.toNat < 0x40000 →
      Completes (.statusW1c m addr clr sets) s fun t =>
        t.rd addr.toNat = (s.rd addr.toNat &&& ~~~clr) ||| (sets &&& BitVec.ofNat 32 (statusMask (addr.toNat / 0x400))) ∧
          FrameE [PG_DEV, addr.toNat / 0x400, PG_EVQ] s t) ∧
    (∀ (s : State) (m : Master) (addr : BitVec 24) (v : Word),
      s.Quiet ∧ (s.accepts m = false) →
      Completes (.registerWrite m addr v) s fun t =>
        FrameE [] s t) ∧
    (∀ (s : State) (m : Master) (addr : BitVec 24) (v : Word),
      s.Quiet ∧ (s.accepts m = false) →
      Completes (.memoryWrite m addr v) s fun t =>
        FrameE [] s t) ∧
    (∀ (s : State) (m : Master) (addr : BitVec 24) (v : Word),
      s.Quiet ∧ (s.accepts m = false) →
      Completes (.atticDirectWrite m addr v) s fun t =>
        FrameE [] s t)

/-- A function reset of IMAGE, ATTIC, OCV, EST, SEQ, SPI or I2CT puts the page in reset, with CTRL.FRESET set and its registers of domain FR but
CTRL at their reset values, and changes no register outside the page and DEV; the end of a function reset takes the page out of reset, and
of a page not enabled changes no register but its CTRL; the end of one that is not running does nothing; a write of ERR_INJ of a page but
FAULT stores the checker and the count where the page has the checker, and 0 where it has not; the end of the attic's operation leaves none
running and LONGOP clear, and of an erase that met no bad write records its result. With no operation running its end does nothing. (R34 of
spec/02_register_pages.md, R372 of spec/16_fault_collection.md, R46 of spec/02_register_pages.md, R45 of spec/02_register_pages.md.) -/
def Obligations.PageResetsAndErrors : Prop :=
  (∀ (s : State) (m : Master) (pg : Fin 1024) (enable : Bool),
      s.accepts m = true ∧ hostMaster m = true ∧ s.Quiet ∧ pageAssigned pg.val = true ∧ (pg.val = PG_IMAGE ∨ pg.val = PG_ATTIC ∨
        pg.val = PG_OCV ∨ pg.val = PG_EST ∨ pg.val = PG_SEQ ∨ pg.val = PG_SPI ∨ pg.val = PG_I2CT) →
      Completes (.functionReset m pg enable) s fun t =>
        t.dev.freset = pg.val :: s.dev.freset.filter (fun p => p != pg.val) ∧ t.get (fresetFld pg.val) = 1 ∧
          FRCleared pg.val [hdrAddr pg.val hdrCTRL] t ∧ FrameE [PG_DEV, pg.val] s t) ∧
    (∀ (s : State) (pg : Fin 1024),
      s.dev.freset.contains pg.val = true ∧ s.enabled pg.val = false ∧ s.Quiet →
      Completes (.functionResetDone pg) s fun t =>
        t.dev.freset = s.dev.freset.filter (fun p => p != pg.val) ∧ t.get (fresetFld pg.val) = 0 ∧ FrameA [hdrAddr pg.val hdrCTRL] s t) ∧
    (∀ (s : State) (pg : Fin 1024),
      s.dev.freset.contains pg.val = false ∧ s.Quiet →
      Completes (.functionResetDone pg) s fun t =>
        FrameE [] s t) ∧
    (∀ (s : State) (m : Master) (pg : Fin 1024) (checker : BitVec 5) (count : BitVec 4),
      s.accepts m = true ∧ hostMaster m = true ∧ s.Quiet ∧ pageAssigned pg.val = true ∧ pg.val ≠ PG_FAULT →
      Completes (.errInjWrite m pg checker count) s fun t =>
        t.hdr pg.val hdrERR_INJ = (if checker.toNat ≤ injMax pg.val then checker.toNat * 256 + count.toNat else 0) ∧
          FrameE [PG_DEV, pg.val] s t) ∧
    (∀ (s : State) (e : OpEnd) (b : Nat),
      s.op = some (.erase b) →
      s.busy = true ∧ s.Quiet ∧ b < 4 →
      Completes (.longopComplete e) s fun t =>
        t.op = none ∧ t.get DEV_LONGOP_RUN = 0 ∧ t.get DEV_LONGOP_LAST = s.get DEV_LONGOP_RUN ∧ t.get DEV_LONGOP_RESULT = 0 ∧
          t.get IMAGE_RESULT_CODE = 3 ∧ t.get IMAGE_RESULT_CHECK = 0 ∧ t.statusOf PG_IMAGE IMAGE_ST_DONE = true ∧
          t.statusOf PG_DEV DEV_ST_LONGDONE = true ∧ t.mode = s.mode) ∧
    (∀ (s : State) (e : OpEnd) (o : LongOp),
      s.op = some o →
      s.Quiet →
      Completes (.longopComplete e) s fun t =>
        t.op = none ∧ t.get DEV_LONGOP_RUN = 0 ∧ t.mode = s.mode) ∧
    (∀ (s : State) (e : OpEnd),
      s.op = none ∧ s.Quiet →
      Completes (.longopComplete e) s fun t =>
        FrameE [] s t)

/-- With the PLL locked, a cycle marker counts a cycle, empties the cycle's rendezvous tests and ends the position of a round start; a round
boundary places cycle 0 of the next round, or of round 0 after a frame boundary, and the input path begins a new round; in SAFE with no
alignment and no return to RUN waiting, a frame boundary begins the frame after this one or, after an epoch boundary, frame 0 of the epoch,
and the pack begins a new frame; an epoch boundary takes the epoch number waiting or the next one, and keeps it in EPLAST with the RTC's
count in EPRTC. With the PLL stopped the cycle marker, the frame and the epoch boundary do nothing. A GUARD marker, and in HIBERNATE the
marker of GUARD while rails are kept, starts the GUARD lane's cycle table where its class has one and touches no register outside LAMP; in
HIBERNATE the RAIL lane's own marker while rails are kept, and GUARD's while none is, counts a cycle. (R50 of spec/03_lamplighter.md, R51 of
spec/03_lamplighter.md, R52 of spec/03_lamplighter.md, R14 of spec/01_architecture.md, R15 of spec/01_architecture.md, R468 of
spec/21_plant_ring.md.) -/
def Obligations.MarkersAndBoundaries : Prop :=
  (∀ (s : State) (settled inLimit : Bool) (fets : List FetSense),
      s.dev.pll = true ∧ s.Calm →
      Completes (.cycleMarker settled inLimit fets) s fun t =>
        t.lamp.cycleCount = s.lamp.cycleCount + 1 ∧ t.lamp.posted = [] ∧ t.lamp.tested = [] ∧ t.lamp.atRound = false ∧ t.mode = s.mode) ∧
    (∀ (s : State) (settled inLimit : Bool) (fets : List FetSense),
      s.Quiet ∧ (s.dev.pll = false) →
      Completes (.cycleMarker settled inLimit fets) s fun t =>
        FrameE [] s t) ∧
    (∀ (s : State),
      s.guardRuns = true ∧ s.Quiet →
      Completes (.guardMarker) s fun t =>
        t.laneHalted 5 = false ∧ (t.lane 5).poison = false ∧ (t.lane 5).clock = none ∧ (t.lane 5).cycleRun = (if s.tableOpen 5 0 ∧
          s.get LAMP_STATE_CLASS < 5 then ⟨.issuing, 0, 0, true⟩ else runIdle) ∧ (∀ n : Fin 6, n ≠ 5 → t.lane n = s.lane n) ∧
          FrameE [PG_LAMP] s t) ∧
    (∀ (s : State),
      s.Quiet ∧ (s.guardRuns = false) →
      Completes (.guardMarker) s fun t =>
        FrameE [] s t) ∧
    (∀ (s : State) (settled : Bool),
      s.dev.pll = false ∧ s.mode = .hibernate ∧ s.seq.keep ≠ 0 ∧ s.Quiet →
      Completes (.hibernateMarker false settled) s fun t =>
        t.laneHalted 5 = false ∧ (t.lane 5).poison = false ∧ (t.lane 5).clock = none ∧ (t.lane 5).cycleRun = (if s.tableOpen 5 0 ∧
          s.get LAMP_STATE_CLASS < 5 then ⟨.issuing, 0, 0, true⟩ else runIdle) ∧ (∀ n : Fin 6, n ≠ 5 → t.lane n = s.lane n) ∧
          FrameE [PG_LAMP] s t) ∧
    (∀ (s : State) (settled : Bool),
      s.dev.pll = false ∧ s.mode = .hibernate ∧ s.seq.keep ≠ 0 ∧ s.Quiet ∧ s.lamp.switchPending = false →
      Completes (.hibernateMarker true settled) s fun t =>
        t.lamp.cycleCount = s.lamp.cycleCount + 1 ∧ t.lamp.posted = [] ∧ FrameE [PG_LAMP, PG_EVQ] s t) ∧
    (∀ (s : State) (settled : Bool),
      s.dev.pll = false ∧ s.mode = .hibernate ∧ s.seq.keep = 0 ∧ s.Quiet ∧ s.lamp.switchPending = false →
      Completes (.hibernateMarker false settled) s fun t =>
        t.lamp.cycleCount = s.lamp.cycleCount + 1 ∧ t.lamp.posted = [] ∧ FrameE [PG_LAMP, PG_EVQ] s t) ∧
    (∀ (s : State) (rail settled : Bool),
      s.Quiet ∧ (s.dev.pll = true ∨ (s.mode ≠ .hibernate ∧ s.mode ≠ .fall)) →
      Completes (.hibernateMarker rail settled) s fun t =>
        FrameE [] s t) ∧
    (∀ (s : State),
      s.dev.pll = true →
      Completes (.roundBoundary) s fun t =>
        t.hb.fresh = s.inp.hbFresh ∧ t.inp.hbFresh = false ∧ t.inp.sumIn = 0 ∧ t.inp.numIn = 0 ∧ (s.Calm → t.lamp.atRound = true ∧
          t.lamp.newFrame = false ∧ t.get LAMP_POSITION_CYCLE = 0 ∧
          t.get LAMP_POSITION_ROUND = (if s.lamp.newFrame then s.get LAMP_POSITION_ROUND else (s.get LAMP_POSITION_ROUND + 1) % 4096) ∧
          t.mode = s.mode)) ∧
    (∀ (s : State),
      s.dev.pll = true ∧ s.mode = .safe ∧ s.lamp.coldStage ≠ 4 ∧ s.Calm ∧ s.lamp.align = none →
      Completes (.frameBoundary) s fun t =>
        t.lamp.index = (if s.ring.newEpoch then 0 else s.lamp.index + 1) ∧ t.get LAMP_POSITION_ROUND = 0 ∧
          t.get LAMP_POSITION_CYCLE = 0 ∧ t.lamp.newFrame = true ∧ t.ring.newEpoch = false ∧ t.pack.iSum = 0 ∧ t.pack.iNum = 0 ∧
          t.mode = .safe) ∧
    (∀ (s : State),
      s.Quiet ∧ (s.dev.pll = false) →
      Completes (.frameBoundary) s fun t =>
        FrameE [] s t) ∧
    (∀ (s : State) (corr : Nat),
      s.dev.pll = true ∧ s.Quiet →
      Completes (.epochBoundary corr) s fun t =>
        t.ring.newEpoch = true ∧
          t.get RING_PTIME_E_E = (if s.ring.epset then s.get RING_EPSET_E else (s.get RING_PTIME_E_E + 1) % 2 ^ 32) ∧
          t.get RING_EPLAST_E = t.get RING_PTIME_E_E ∧ t.get RING_EPRTC_RTC = s.cellar.count / 65536 % 2 ^ 32 ∧ t.mode = s.mode) ∧
    (∀ (s : State) (corr : Nat),
      s.Quiet ∧ (s.dev.pll = false) →
      Completes (.epochBoundary corr) s fun t =>
        FrameE [] s t)

/-- Issued, each slot takes its run on to the next slot, and besides: NOP does nothing; END ends the run of its table; WAIT suspends it for n
cycles, and it goes on once they have passed; MODEJUMP to RIDE in RUN after a loss, and to RUN in RIDE when the return is confirmed and no
jump to RIDE was taken since the class switch, changes the mode with cause 7, and any other MODEJUMP issued leaves it; a give posts its
token with the cycle's stamp, which a take of the same cycle finds and removes; a take that finds none counts and reports error RDV, leaves
out its guarded slots and poisons its lane. A NOP leaves every register and byte as it was, and so do END, WAIT, the give and the take that
finds its token. (R94 of spec/04_schedule_image.md, R55 of spec/03_lamplighter.md, R65 of spec/03_lamplighter.md, R60 of
spec/03_lamplighter.md, R61 of spec/03_lamplighter.md, R62 of spec/03_lamplighter.md.) -/
def Obligations.SlotsOfTime : Prop :=
  (∀ (s : State) (x : Slot),
      s.Issues x .nop ∧ s.Quiet →
      Completes (.slotNop x) s fun t =>
        t.lamp = (s.slotPast x).lamp ∧ FrameE [] s t) ∧
    (∀ (s : State) (x : Slot),
      s.Issues x .tableEnd ∧ s.Quiet →
      Completes (.slotEnd x) s fun t =>
        t.lane x.lane = ((s.slotPast x).lane x.lane).setRun x.level (((s.slotPast x).lane x.lane).run x.level).abandoned ∧
          (∀ n : Fin 6, n ≠ x.lane → t.lane n = s.lane n) ∧ FrameE [] s t) ∧
    (∀ (s : State) (x : Slot) (n : Nat),
      s.Issues x (.wait n) ∧ s.Quiet →
      Completes (.slotWait x) s fun t =>
        t.lane x.lane = ((s.slotPast x).lane x.lane).setRun x.level { ((s.slotPast x).lane x.lane).run x.level with phase := .waiting n } ∧
          (∀ n : Fin 6, n ≠ x.lane → t.lane n = s.lane n) ∧ FrameE [] s t) ∧
    (∀ (s : State) (lane : Fin 6) (level : Fin 3),
      ((s.lane lane).run level).phase = .waiting 0 →
      Completes (.waitExpire lane level) s fun t =>
        t.lane lane = (s.lane lane).setRun level { (s.lane lane).run level with phase := .issuing } ∧ (∀ n : Fin 6, n ≠ lane →
          t.lane n = s.lane n) ∧ Frame [] s t) ∧
    (∀ (s : State) (lane : Fin 6) (level : Fin 3),
      ((s.lane lane).run level).phase ≠ .waiting 0 →
      Completes (.waitExpire lane level) s fun t =>
        t = s.begin) ∧
    (∀ (s : State) (x : Slot),
      s.Issues x (.modejump 4) ∧ s.Quiet ∧ s.mode = .run ∧ s.on PACK_STATE_LOSS = true →
      Completes (.modejump x) s fun t =>
        t.mode = .ride ∧ t.get DEV_MODE_PREV = s.mode.code ∧ t.get DEV_MODE_CAUSE = 7 ∧ t.lamp.rideJump = true ∧
          t.lamp.switchPending = true ∧ RegsButE [PG_DEV, PG_EVQ] s t ∧ MemSame s t) ∧
    (∀ (s : State) (x : Slot),
      s.Issues x (.modejump 3) ∧ s.Quiet ∧ s.mode = .ride ∧ s.on PACK_STATE_RETOK = true ∧ s.lamp.rideJump = false →
      Completes (.modejump x) s fun t =>
        t.mode = .run ∧ t.get DEV_MODE_PREV = s.mode.code ∧ t.get DEV_MODE_CAUSE = 7 ∧ t.lamp.switchPending = true ∧
          RegsButE [PG_DEV, PG_EVQ] s t ∧ MemSame s t) ∧
    (∀ (s : State) (x : Slot) (target : Nat),
      s.Issues x (.modejump target) ∧ s.Quiet ∧ (target ≠ 4 ∨ s.mode ≠ .run ∨ s.on PACK_STATE_LOSS = false) ∧ (target ≠ 3 ∨
        s.mode ≠ .ride ∨ s.on PACK_STATE_RETOK = false ∨ s.lamp.rideJump = true) →
      Completes (.modejump x) s fun t =>
        t.lamp = (s.slotPast x).lamp ∧ FrameE [] s t) ∧
    (∀ (s : State) (x : Slot) (p ndep : Nat),
      s.Issues x (.rdv 0 p ndep) ∧ s.Quiet ∧ s.lamp.posted.contains p = false ∧ s.lamp.tested.contains p = false →
      Completes (.rdvGive x) s fun t =>
        t.lamp.posted = p :: s.lamp.posted ∧
          t.lamp.tokens = ⟨p, s.cycleStamp, (s.lane x.lane).poison, x.lane.val⟩ :: s.lamp.tokens.filter (fun k => k.point != p) ∧
          FrameE [] s t) ∧
    (∀ (s : State) (x : Slot) (p ndep giver : Nat),
      s.Issues x (.rdv 1 p ndep) ∧ s.Quiet ∧ s.injOn PG_LAMP 9 = false ∧
        s.lamp.tokens.find? (fun k => k.point == p) = some ⟨p, s.cycleStamp, false, giver⟩ →
      Completes (.rdvTake x) s fun t =>
        t.lamp.tokens = s.lamp.tokens.filter (fun k => k.point != p) ∧ t.lamp.tested = p :: s.lamp.tested ∧
          t.lane x.lane = (s.slotPast x).lane x.lane ∧ FrameE [] s t) ∧
    (∀ (s : State) (x : Slot) (p ndep : Nat),
      s.Issues x (.rdv 1 p ndep) ∧ s.Quiet ∧ s.injOn PG_LAMP 9 = false ∧ s.lamp.tokens.find? (fun k => k.point == p) = none →
      Completes (.rdvTake x) s fun t =>
        t.get LAMP_COUNTS_RDV = satInc 4095 (s.get LAMP_COUNTS_RDV) ∧ t.errOf PG_LAMP LAMP_ERR_RDV = true ∧
          t.statusOf PG_LAMP LAMP_ST_RDV = true ∧ ((t.lane x.lane).run x.level).skip = ndep ∧ (t.lane x.lane).poison = true ∧
          FrameE [PG_LAMP, PG_EVQ] s t)

/-- Issued: TRIGGER with the PLL locked starts the sequence table of its bank, and a bank not enabled reports TRIGOFF; COMP of a channel, of the
pack, of SVC, of the intermediate bus, of a POL and of an LDO that runs makes one update: the compensators of the channel, the pack and the
intermediate bus pass their last error and output on, SVC's law takes its step, and a rail leaves native control; PWMLOAD moves the shadow
or the immediate value into the field it names; CHECK of an unsigned field of memory does nothing while the field stands within its limits,
and outside them pulses its line or fires its event with the value; MOVE of an immediate writes the masked bits of a word of the store room.
But for the compensators' own registers nothing else is stored. (R94 of spec/04_schedule_image.md, R109 of spec/05_sampling.md, R237 of
spec/10_balancing_channels.md.) -/
def Obligations.SlotsOfConverters : Prop :=
  (∀ (s : State) (x : Slot) (b k : Nat),
      s.Issues x (.trigger b k) ∧ s.Quiet ∧ s.dev.pll = true ∧ b < 4 ∧ s.enabled (PG_ADC + b) = true ∧ s.seqLen (Fin.ofNat 4 b) k ≠ 0 →
      Completes (.trigger x) s fun t =>
        t.get (adcF ADC_STATE_BUSY (Fin.ofNat 4 b)) = 1 ∧ t.get (adcF ADC_STATE_SEQ (Fin.ofNat 4 b)) = k % 4 ∧
          (t.bank (Fin.ofNat 4 b)).table = s.seqEntries (Fin.ofNat 4 b) k ∧ FrameE [PG_ADC + b] s t) ∧
    (∀ (s : State) (x : Slot) (b k : Nat),
      s.Issues x (.trigger b k) ∧ s.Quiet ∧ s.dev.pll = true ∧ b < 4 ∧ s.enabled (PG_ADC + b) = false →
      Completes (.trigger x) s fun t =>
        t.statusOf (PG_ADC + b) ADC_ST_TRIGOFF = true ∧ FrameE [PG_ADC + b, PG_EVQ] s t) ∧
    (∀ (s : State) (x : Slot) (u : Nat) (sh : Bool),
      s.Issues x (.comp u sh) ∧ x.lane = 0 ∧ u < 16 ∧ s.balEffective (Fin.ofNat 16 u) = true ∧ (s.balCode (Fin.ofNat 16 u) = 2 ∨
        s.balCode (Fin.ofNat 16 u) = 3) →
      Completes (.comp x) s fun t =>
        (t.bs (Fin.ofNat 16 u)).e2 = (s.bs (Fin.ofNat 16 u)).e1 ∧ (t.bs (Fin.ofNat 16 u)).u2 = (s.bs (Fin.ofNat 16 u)).u1 ∧ (s.Calm →
          t.mode = s.mode ∧ MemSame s t)) ∧
    (∀ (s : State) (x : Slot) (sh : Bool),
      s.Issues x (.comp 16 sh) ∧ x.lane = 0 ∧ s.packRunning = true ∧ s.compEffective s.packTsw = true →
      Completes (.comp x) s fun t =>
        t.pack.e2 = s.pack.e1 ∧ t.pack.u2 = s.pack.u1 ∧ (s.Calm → t.mode = s.mode ∧ MemSame s t)) ∧
    (∀ (s : State) (x : Slot) (sh : Bool),
      s.Issues x (.comp 17 sh) ∧ x.lane = 0 ∧ s.svcRuns = true ∧ s.compEffective s.svcTsw = true →
      Completes (.comp x) s fun t =>
        t.svc.law = s.lawStep SVC_B0_COEF s.svc.law (roundDiv (s.svc.vref : Int) 10 - s.get SVC_MEAS_V) 0 (s.get SVC_TARGET_I_LIM) ∧
          (s.Quiet → t.mode = s.mode ∧ MemSame s t)) ∧
    (∀ (s : State) (x : Slot) (sh : Bool),
      s.Issues x (.comp 32 sh) ∧ x.lane = 4 ∧ s.railSwitches 0 = true ∧ s.compEffective (s.railTsw 0) = true →
      Completes (.comp x) s fun t =>
        t.seq.law.e2 = s.seq.law.e1 ∧ t.seq.law.u2 = s.seq.law.u1 ∧ (t.rs 0).noComp = 0 ∧ (t.rs 0).native = false ∧ (s.Calm →
          t.mode = s.mode ∧ MemSame s t)) ∧
    (∀ (s : State) (x : Slot) (k : Fin 4) (sh : Bool),
      s.Issues x (.comp (33 + k.val) sh) ∧ x.lane = 4 ∧ s.railSwitches (Fin.ofNat 15 (k.val + 1)) = true →
      Completes (.comp x) s fun t =>
        (t.rs (Fin.ofNat 15 (k.val + 1))).noComp = 0 ∧ (t.rs (Fin.ofNat 15 (k.val + 1))).native = false ∧ (s.Calm → t.mode = s.mode ∧
          MemSame s t)) ∧
    (∀ (s : State) (x : Slot) (k : Fin 2) (sh : Bool),
      s.Issues x (.comp (37 + k.val) sh) ∧ x.lane = 4 ∧ s.railSwitches (Fin.ofNat 15 (k.val + 5)) = true →
      Completes (.comp x) s fun t =>
        (t.rs (Fin.ofNat 15 (k.val + 5))).noComp = 0 ∧ (t.rs (Fin.ofNat 15 (k.val + 5))).native = false ∧ (s.Calm → t.mode = s.mode ∧
          MemSame s t)) ∧
    (∀ (s : State) (x : Slot) (o fl : Nat) (imm : Bool) (v : Nat),
      s.Issues x (.pwmload o fl imm v) ∧ s.Quiet ∧ o ≤ 41 →
      Completes (.pwmload x) s fun t =>
        t.pwmOut o = (match fl with | 0 => { s.pwmOut o with acPeriod := if imm then v else (s.pwmOut o).shPeriod } | 1 => { s.pwmOut o with acPhase := if imm then v else (s.pwmOut o).shPhase } | 2 => { s.pwmOut o with acDuty := if imm then v else (s.pwmOut o).shDuty } | _ => { s.pwmOut o with acPeriod := if imm then v else (s.pwmOut o).shPeriod, acPhase := if imm then v else (s.pwmOut o).shPhase, acDuty := if imm then v else (s.pwmOut o).shDuty }) ∧
          FrameE [] s t) ∧
    (∀ (s : State) (x : Slot) (addr lsb width : Nat) (ev : Bool) (line lo hi : Nat),
      s.Issues x (.check addr lsb width false ev line lo hi) ∧ s.Quiet ∧ 0x100000 ≤ addr ∧ addr < 0x180000 ∧ addr % 4 = 0 ∧
        lo ≤ s.peek addr / 2 ^ lsb % 2 ^ min width (32 - lsb) ∧ s.peek addr / 2 ^ lsb % 2 ^ min width (32 - lsb) ≤ hi →
      Completes (.check x) s fun t =>
        FrameE [] s t ∧ t.lineSrcs = s.lineSrcs ∧ t.evq = s.evq) ∧
    (∀ (s : State) (x : Slot) (addr lsb width : Nat) (ev : Bool) (line lo hi : Nat),
      s.Issues x (.check addr lsb width false ev line lo hi) ∧ s.Quiet ∧ 0x100000 ≤ addr ∧ addr < 0x180000 ∧ addr % 4 = 0 ∧ ev = false ∧
        (s.peek addr / 2 ^ lsb % 2 ^ min width (32 - lsb) < lo ∨ hi < s.peek addr / 2 ^ lsb % 2 ^ min width (32 - lsb)) →
      Completes (.check x) s fun t =>
        t.fault.lines = s.fault.lines ++ [⟨16 + line, false, ofSigned 32 (s.peek addr / 2 ^ lsb % 2 ^ min width (32 - lsb) : Nat), x.lane.val * 0x10000 + x.word⟩] ∧
          FrameE [] s t) ∧
    (∀ (s : State) (x : Slot) (addr lsb width : Nat) (ev : Bool) (line lo hi : Nat),
      s.Issues x (.check addr lsb width false ev line lo hi) ∧ s.Quiet ∧ 0x100000 ≤ addr ∧ addr < 0x180000 ∧ addr % 4 = 0 ∧ ev = true ∧
        (s.peek addr / 2 ^ lsb % 2 ^ min width (32 - lsb) < lo ∨ hi < s.peek addr / 2 ^ lsb % 2 ^ min width (32 - lsb)) ∧ s.mode = .run →
      Completes (.check x) s fun t =>
        t.evq.firings.dropLast = s.evq.firings ∧
          t.evq.firings.getLast?.map (fun f => (f.src, f.lo, f.hi)) = some (0x050 + line, ofSigned 32 (s.peek addr / 2 ^ lsb % 2 ^ min width (32 - lsb) : Nat), x.lane.val * 0x10000 + x.word) ∧
          FrameE [] s t) ∧
    (∀ (s : State) (x : Slot) (dst mask data : Nat),
      s.Issues x (.move dst false mask data) ∧ s.Quiet ∧ s.guardRuns = true ∧ dst % 4 = 0 ∧ 0x100000 ≤ dst ∧ dst < 0x180000 →
      Completes (.move x) s fun t =>
        t.load dst 4 = (((BitVec.ofNat 32 (s.load dst 4)) &&& ~~~(BitVec.ofNat 32 mask)) ||| (BitVec.ofNat 32 data &&& BitVec.ofNat 32 mask)).toNat ∧
          MemBut dst 4 s t ∧ RegsButE [] s t ∧ t.mode = s.mode)

/-- Issued: LINKTX of a single-armed link that is idle and usable sends its template's frame to a node it can reach, under the next sequence
number, and awaits the return; of a link not usable it leaves the engine as it is; LINKTX to the ring puts a WRITE frame with the template's
words for another device into the queue, or reports outcome 3 for a length that a frame cannot have, where a result is asked for; ESTUPD
leaves an untracked string and, for a pass that holds the last cell, records the frame of the update; the demodulating pass leaves a string
without a tone and aborts a tone whose module is not selected; RANK counts a stale ranking up to 2, and a fresh one from 0; DISPATCH counts,
outside RUN, stale rounds up to 4 and sets the count to 0 on a fresh one, and reports the round done; outside RUN and RIDE its frame step
bars every string, keeps the frame and reports it done; disabled, the first clears the shed level and the second does nothing; SELECT in a
mode other than RUN and RIDE is refused with result 5, of the module that is already closed it ends at once with result 2, and in RUN it
begins its sequence where nothing stands against it. (R94 of spec/04_schedule_image.md, R157 of spec/07_string_links.md, R478 of
spec/21_plant_ring.md, R202 of spec/08_charge_tracking.md, R220 of spec/09_reported_state_health.md, R269 of spec/11_house_bus_dispatch.md,
R274 of spec/11_house_bus_dispatch.md, R270 of spec/11_house_bus_dispatch.md, R253 of spec/10_balancing_channels.md.) -/
def Obligations.SlotsOfEngines : Prop :=
  (∀ (s : State) (x : Slot) (n k node : Nat),
      s.Issues x (.linktx n k node) ∧ n < 16 ∧ (s.lk (Fin.ofNat 16 n)).phase = .idle ∧ s.usable (Fin.ofNat 16 n) = true ∧
        s.twoArmed (Fin.ofNat 16 n) = false ∧ 2 ≤ (s.linkTemplate (Fin.ofNat 16 n) .slot k node).typ ∧
        (s.linkTemplate (Fin.ofNat 16 n) .slot k node).typ ≤ 5 ∧
        s.linkBeyond (Fin.ofNat 16 n) k (s.linkTemplate (Fin.ofNat 16 n) .slot k node) = false ∧
        ((s.linkTemplate (Fin.ofNat 16 n) .slot k node)).payload.length ≤ linkMost ∧
        ((s.linkTemplate (Fin.ofNat 16 n) .slot k node).bc = true ∨ (s.linkTemplate (Fin.ofNat 16 n) .slot k node).addr = 0x3F ∨
        s.nodeReach (Fin.ofNat 16 n) (s.linkTemplate (Fin.ofNat 16 n) .slot k node).addr = true) →
      Completes (.linktx x) s fun t =>
        (t.lk (Fin.ofNat 16 n)).phase = .frame ∧ (t.lk (Fin.ofNat 16 n)).seq = ((s.lk (Fin.ofNat 16 n)).seq + 1) % 16 ∧
          (t.lk (Fin.ofNat 16 n)).cmd.typ = (s.linkTemplate (Fin.ofNat 16 n) .slot k node).typ ∧
          (t.lk (Fin.ofNat 16 n)).cmd.addr = (s.linkTemplate (Fin.ofNat 16 n) .slot k node).addr ∧
          (t.lk (Fin.ofNat 16 n)).cmd.waitB = true ∧ (∀ k : Fin 16, k.val ≠ n → t.lk k = s.lk k) ∧ (s.Calm → t.mode = s.mode)) ∧
    (∀ (s : State) (x : Slot) (n k node : Nat),
      s.Issues x (.linktx n k node) ∧ n < 16 ∧ s.usable (Fin.ofNat 16 n) = false ∧ (s.lk (Fin.ofNat 16 n)).ended = none →
      Completes (.linktx x) s fun t =>
        t.lk (Fin.ofNat 16 n) = (s.lk (Fin.ofNat 16 n)) ∧ (s.Calm → t.mode = s.mode)) ∧
    (∀ (s : State) (x : Slot) (k node : Nat),
      s.Issues x (.linktx 16 k node) ∧ k < 8 ∧ s.Quiet ∧ s.get (RING_TPL_A_TYPE.el k) = 2 ∧ s.on (RING_TPL_A_BC.el k) = false ∧
        (s.hasNum = false ∨ s.get (RING_TPL_A_DST.el k) ≠ s.devNum) ∧ s.postWriteOk = true ∧ 1 ≤ (s.get (RING_TPL_A_LEN.el k)) ∧
        (s.get (RING_TPL_A_LEN.el k)) ≤ 64 →
      Completes (.linktxRing x) s fun t =>
        t.ring.txq.dropLast = s.ring.txq ∧
          t.ring.txq.getLast?.map (fun y => (y.frame.typ, y.frame.dst, y.frame.addr, y.frame.payload)) = some (2, s.get (RING_TPL_A_DST.el k), s.get (RING_TPL_B_ADDR.el k), (List.range (s.get (RING_TPL_A_LEN.el k))).map fun i => s.load (0x1A0000 + 4 * (s.get (RING_TPL_C_PAY.el k) + i)) 4) ∧
          RegsButE [] s t ∧ t.mode = s.mode) ∧
    (∀ (s : State) (x : Slot) (k node : Nat),
      s.Issues x (.linktx 16 k node) ∧ k < 8 ∧ s.Quiet ∧ ((s.get (RING_TPL_A_LEN.el k)) = 0 ∨ 64 < (s.get (RING_TPL_A_LEN.el k))) ∧
        s.get (RING_TPL_C_DST.el k) ≠ 0xFFFF →
      Completes (.linktxRing x) s fun t =>
        t.load (0x1A0000 + 4 * s.get (RING_TPL_C_DST.el k)) 4 = ringResult (s.get (RING_TPL_A_TYPE.el k)) (s.nextTag 0) 3 0 ∧
          MemBut (0x1A0000 + 4 * s.get (RING_TPL_C_DST.el k)) 4 s t ∧ RegsButE [] s t ∧ t.mode = s.mode ∧ t.ring.txq = s.ring.txq) ∧
    (∀ (s : State) (x : Slot) (n first count : Nat),
      s.Issues x (.estupd n first count 0) ∧ s.Quiet ∧ (s.tracked (Fin.ofNat 16 n) = false ∨ 640 < first + count) →
      Completes (.estupd x) s fun t =>
        FrameE [] s t) ∧
    (∀ (s : State) (x : Slot) (n first count : Nat),
      s.Issues x (.estupd n first count 0) ∧ s.tracked (Fin.ofNat 16 n) = true ∧ first + count ≤ 640 ∧
        first ≤ (if s.modules (Fin.ofNat 16 n) = 0 then 639 else 16 * s.modules (Fin.ofNat 16 n) - 1) ∧
        (if s.modules (Fin.ofNat 16 n) = 0 then 639 else 16 * s.modules (Fin.ofNat 16 n) - 1) < first + count →
      Completes (.estupd x) s fun t =>
        t.load (strAddr (Fin.ofNat 16 n) + 0x44) 4 = s.frame ∧ (s.Calm → t.mode = s.mode)) ∧
    (∀ (s : State) (x : Slot) (n first count : Nat),
      s.Issues x (.estupd n first count 1) ∧ s.Quiet ∧ (s.get (HEALTH_PERTN_STATE.el (n % 16)) ≠ 1 ∨ 640 < first + count) →
      Completes (.estupdDemod x) s fun t =>
        FrameE [] s t) ∧
    (∀ (s : State) (x : Slot) (n first count : Nat),
      s.Issues x (.estupd n first count 1) ∧ s.Quiet ∧ s.get (HEALTH_PERTN_STATE.el (n % 16)) = 1 ∧ first + count ≤ 640 ∧
        s.sel (Fin.ofNat 16 n) (s.get (HEALTH_PERTN_MODULE.el (n % 16))) ≠ 1 →
      Completes (.estupdDemod x) s fun t =>
        t.get (HEALTH_PERTN_STATE.el (n % 16)) = 2 ∧ t.statusOf PG_HEALTH HEALTH_ST_PABORT = true ∧
          FrameE [PG_HEALTH, PG_EVQ, PG_BAL + n % 16] s t) ∧
    (∀ (s : State) (x : Slot) (n mods : Nat),
      s.Issues x (.rank n mods) ∧ 1 ≤ mods ∧ mods ≤ 40 →
      Completes (.rank x) s fun t =>
        nth t.hb.rankStale (n % 16) = (if s.load (strAddr (Fin.ofNat 16 n) + 0x44) 4 = s.frame then 0 else min 2 (s.rankStaleOf (Fin.ofNat 16 n) + 1)) ∧
          (∀ k : Fin 16, k.val ≠ n % 16 → t.rankStaleOf k = s.rankStaleOf k) ∧ (s.Calm → t.mode = s.mode)) ∧
    (∀ (s : State) (x : Slot),
      s.Issues x (.dispatch 0) ∧ s.enabled PG_DISPATCH = true ∧ s.mode ≠ .run →
      Completes (.dispatchRoundStep x) s fun t =>
        t.hb.staleRun = (if s.injOn PG_DISPATCH 1 || !s.hb.fresh then min 4 (s.hb.staleRun + 1) else 0) ∧ (s.Quiet →
          t.statusOf PG_DISPATCH DISPATCH_ST_ROUNDDONE = true ∧ FrameE [PG_DISPATCH, PG_EVQ] s t)) ∧
    (∀ (s : State) (x : Slot),
      s.Issues x (.dispatch 0) ∧ s.enabled PG_DISPATCH = false ∧ s.Quiet →
      Completes (.dispatchRoundStep x) s fun t =>
        t.hb.shortRun = 0 ∧ t.hb.restoreRun = 0 ∧ t.get DISPATCH_INCAP_SHEDLVL = 0 ∧ FrameE [PG_DISPATCH] s t) ∧
    (∀ (s : State) (x : Slot),
      s.Issues x (.dispatch 1) ∧ s.Quiet ∧ s.enabled PG_DISPATCH = true ∧ s.mode ≠ .run ∧ s.mode ≠ .ride →
      Completes (.dispatchFrameStep x) s fun t =>
        t.get DISPATCH_FRAMEST_FRAME = s.frame % 2 ^ DISPATCH_FRAMEST_FRAME.w ∧ (∀ n : Fin 16, t.get (dirField n) = 3) ∧
          t.statusOf PG_DISPATCH DISPATCH_ST_FRAMEDONE = true ∧ FrameE [PG_DISPATCH, PG_EVQ] s t) ∧
    (∀ (s : State) (x : Slot),
      s.Issues x (.dispatch 1) ∧ s.Quiet ∧ s.enabled PG_DISPATCH = false →
      Completes (.dispatchFrameStep x) s fun t =>
        FrameE [] s t) ∧
    (∀ (s : State) (x : Slot) (n md : Nat),
      s.Issues x (.select n md) ∧ n < 16 ∧ md ≤ 40 ∧ s.Quiet ∧ (s.lk (Fin.ofNat 16 n)).ended = none ∧
        (s.lk (Fin.ofNat 16 n)).phase = .idle ∧ s.balCur (Fin.ofNat 16 n) = 0 ∧ s.mode ≠ .run ∧ s.mode ≠ .ride →
      Completes (.select x) s fun t =>
        t.get (BAL_SELSTATE_TARGET.at n) = (if md = 0 then s.get (BAL_SELREQ_MODULE.at n) else md) ∧
          t.get (BAL_SELSTATE_RESULT.at n) = 5 ∧ t.get (BAL_SELSTATE_STEP.at n) = 0 ∧ t.statusOf (PG_BAL + n) BAL_ST_SELREFUSED = true ∧
          FrameE [PG_BAL + n, PG_EVQ] s t) ∧
    (∀ (s : State) (x : Slot) (n md : Nat),
      s.Issues x (.select n md) ∧ n < 16 ∧ 1 ≤ md ∧ md ≤ 40 ∧ (s.lk (Fin.ofNat 16 n)).ended = none ∧
        (s.lk (Fin.ofNat 16 n)).phase = .idle ∧ s.balCur (Fin.ofNat 16 n) = md ∧ s.sel (Fin.ofNat 16 n) md = 1 ∧ s.Quiet →
      Completes (.select x) s fun t =>
        t.get (BAL_SELSTATE_TARGET.at n) = md ∧ t.get (BAL_SELSTATE_RESULT.at n) = 2 ∧ t.statusOf (PG_BAL + n) BAL_ST_SELDONE = true ∧
          FrameE [PG_BAL + n, PG_EVQ] s t) ∧
    (∀ (s : State) (x : Slot) (n md : Nat),
      s.Issues x (.select n md) ∧ n < 16 ∧ 1 ≤ md ∧ md ≤ s.modules (Fin.ofNat 16 n) ∧ s.mode = .run ∧
        (s.lk (Fin.ofNat 16 n)).ended = none ∧ (s.lk (Fin.ofNat 16 n)).phase = .idle ∧ s.balCur (Fin.ofNat 16 n) = 0 ∧
        s.balCode (Fin.ofNat 16 n) = 3 ∧ s.usable (Fin.ofNat 16 n) = true ∧ s.enabled (PG_BAL + n) = true ∧
        s.on (exclBit (Fin.ofNat 16 n) md) = false ∧ s.nodeReach (Fin.ofNat 16 n) md = true ∧
        bitOf (s.hdr (PG_BAL + n) hdrERR) BAL_ERR_STOPFAIL = false →
      Completes (.select x) s fun t =>
        t.get (BAL_SELSTATE_TARGET.at n) = md ∧ t.get (BAL_SELSTATE_STEP.at n) = 1 ∧ (s.Calm → t.mode = s.mode))

/-- A resource that is free within its budget lowers its lane's smallest margin or leaves it; a timed slot whose budget ends while its resource
runs, and a table cut at its end while its run goes on, are overruns: OVR is counted, error OVERRUN is reported and the lane is poisoned, a
TRIGGER's bank is stopped and the cut run is over; a table with no run is not cut; a lockstep mismatch halts the lane, abandons its runs,
counts it and reports error LOCKSTEP; a halted lane, and one with no class in force, has none. (R58 of spec/03_lamplighter.md, R59 of
spec/03_lamplighter.md, R55 of spec/03_lamplighter.md, R71 of spec/03_lamplighter.md, R72 of spec/03_lamplighter.md.) -/
def Obligations.SlotFailures : Prop :=
  (∀ (s : State) (x : Slot) (used d : Nat) (op : SlotOp),
      s.slotAt x = some op →
      slotOk x = true ∧ s.Quiet ∧ untimed op = false ∧ used ≤ (if x.rom.isSome then d else s.budget (laneBase x.lane.val + x.word)) ∧
        s.injOn PG_LAMP 8 = false →
      Completes (.slotResourceFree x used d) s fun t =>
        t.get (LAMP_MARGIN_MIN.el x.lane.val) = (if (if x.rom.isSome then d else s.budget (laneBase x.lane.val + x.word)) - used < s.get (LAMP_MARGIN_MIN.el x.lane.val) then ((if x.rom.isSome then d else s.budget (laneBase x.lane.val + x.word)) - used) % 2 ^ LAMP_MARGIN_MIN.w else s.get (LAMP_MARGIN_MIN.el x.lane.val)) ∧
          FrameE [PG_LAMP] s t) ∧
    (∀ (s : State) (x : Slot) (op : SlotOp),
      s.slotAt x = some op →
      slotOk x = true ∧ s.Quiet ∧ untimed op = false ∧ s.get LAMP_STATE_CLASS ≠ 7 ∧
        (match op with | .trigger _ _ | .linktx _ _ _ | .select _ _ => false | _ => true) = true →
      Completes (.slotBudgetExpire x) s fun t =>
        t.get LAMP_COUNTS_OVR = satInc 4095 (s.get LAMP_COUNTS_OVR) ∧ t.errOf PG_LAMP LAMP_ERR_OVERRUN = true ∧
          t.statusOf PG_LAMP LAMP_ST_OVERRUN = true ∧ (t.lane x.lane).poison = true ∧ FrameE [PG_LAMP, PG_EVQ] s t) ∧
    (∀ (s : State) (x : Slot) (b k : Nat),
      slotOk x = true ∧ s.Quiet ∧ s.slotAt x = some (.trigger b k) ∧ s.get LAMP_STATE_CLASS ≠ 7 →
      Completes (.slotBudgetExpire x) s fun t =>
        t.get LAMP_COUNTS_OVR = satInc 4095 (s.get LAMP_COUNTS_OVR) ∧ t.errOf PG_LAMP LAMP_ERR_OVERRUN = true ∧
          t.statusOf PG_LAMP LAMP_ST_OVERRUN = true ∧ (t.lane x.lane).poison = true ∧ t.get (adcF ADC_STATE_BUSY (Fin.ofNat 4 b)) = 0 ∧
          (t.bank (Fin.ofNat 4 b)).table = [] ∧ FrameE [PG_LAMP, PG_EVQ, PG_ADC, PG_ADC + 1, PG_ADC + 2, PG_ADC + 3] s t) ∧
    (∀ (s : State) (x : Slot) (op : SlotOp),
      s.slotAt x = some op →
      slotOk x = true ∧ untimed op = false ∧ s.get LAMP_STATE_CLASS ≠ 7 →
      Completes (.slotBudgetExpire x) s fun t =>
        t.get LAMP_COUNTS_OVR = satInc 4095 (s.get LAMP_COUNTS_OVR) ∧ t.errOf PG_LAMP LAMP_ERR_OVERRUN = true ∧
          t.statusOf PG_LAMP LAMP_ST_OVERRUN = true ∧ (t.lane x.lane).poison = true ∧ (s.Calm → t.mode = s.mode)) ∧
    (∀ (s : State) (x : Slot),
      slotOk x = true ∧ s.Quiet ∧ s.laneRuns x.lane = true ∧ ((s.lane x.lane).run x.level).phase ≠ .idle →
      Completes (.tableCut x) s fun t =>
        t.get LAMP_COUNTS_OVR = satInc 4095 (s.get LAMP_COUNTS_OVR) ∧ t.errOf PG_LAMP LAMP_ERR_OVERRUN = true ∧
          t.statusOf PG_LAMP LAMP_ST_OVERRUN = true ∧ (t.lane x.lane).poison = true ∧
          (t.lane x.lane).run x.level = ((s.lane x.lane).run x.level).abandoned ∧ FrameE [PG_LAMP, PG_EVQ] s t) ∧
    (∀ (s : State) (x : Slot),
      slotOk x = true ∧ s.Quiet ∧ (s.laneRuns x.lane = false ∨ ((s.lane x.lane).run x.level).phase = .idle) →
      Completes (.tableCut x) s fun t =>
        FrameE [] s t) ∧
    (∀ (s : State) (lane : Fin 6),
      s.laneHalted lane = false ∧ s.get LAMP_STATE_CLASS ≠ 7 →
      Completes (.lockstepMismatch lane) s fun t =>
        t.laneHalted lane = true ∧ t.lane lane = (s.lane lane).abandoned ∧ t.errOf PG_LAMP LAMP_ERR_LOCKSTEP = true ∧
          t.get LAMP_COUNTS_LOCK = satInc 127 (s.get LAMP_COUNTS_LOCK) ∧ Frame [PG_LAMP, PG_EVQ] s t) ∧
    (∀ (s : State) (lane : Fin 6),
      s.laneHalted lane = true ∨ s.get LAMP_STATE_CLASS = 7 →
      Completes (.lockstepMismatch lane) s fun t =>
        t = s.begin)

/-- A RELIGHT write with a wrong key, in a mode other than RUN and SERVICE, for the bank that is lit and not stale, for a bank that is not
sealed, or while a relight is under way is refused with its code (0x10 to 0x14); one for a sealed bank begins a warm relight in RUN where
the image can lie beside the lit one and COLD is 0, and otherwise a cold one: in RUN it waits for the frame boundary, in SERVICE it loads; a
warm copy that passes its checks and equals the bank waits for the switch, and ends with code 0x20 and the check that failed otherwise; a
cold load in SERVICE ends with code 2 and the bank loaded when the image passes, and with 0x21 and the check that failed otherwise; neither
changes anything when it is not under way; a schedule word takes the value, and within the lit image's words sets MODIFIED; BUDGET_DATA
writes and reads the budget the address names and the address counts on; a word of an OCV set takes the value and makes the set's working
copy invalid. (R75 of spec/03_lamplighter.md, R77 of spec/03_lamplighter.md, R78 of spec/03_lamplighter.md, R81 of spec/03_lamplighter.md,
R56 of spec/03_lamplighter.md, R192 of spec/08_charge_tracking.md.) -/
def Obligations.RelightAndStores : Prop :=
  (∀ (s : State) (m : Master) (v : Word),
      s.accepts m = true ∧ hostMaster m = true ∧ s.Quiet ∧ v.toNat / 0x10000 ≠ 0x5A17 →
      Completes (.relight m v) s fun t =>
        t.get LAMP_RELIGHT_RES_CODE = 0x10 ∧ t.get LAMP_RELIGHT_RES_CHECK = 0 ∧ t.get LAMP_STATE_RELIGHT = s.get LAMP_STATE_RELIGHT ∧
          FrameE [PG_DEV, PG_LAMP] s t) ∧
    (∀ (s : State) (m : Master) (v : Word),
      s.accepts m = true ∧ hostMaster m = true ∧ s.Quiet ∧ v.toNat / 0x10000 = 0x5A17 ∧ s.mode ≠ .run ∧ s.mode ≠ .service →
      Completes (.relight m v) s fun t =>
        t.get LAMP_RELIGHT_RES_CODE = 0x11 ∧ t.get LAMP_RELIGHT_RES_CHECK = 0 ∧ t.statusOf PG_LAMP LAMP_ST_RELIGHT_FAIL = true ∧
          FrameE [PG_DEV, PG_LAMP, PG_EVQ] s t) ∧
    (∀ (s : State) (m : Master) (v : Word),
      s.accepts m = true ∧ hostMaster m = true ∧ s.Quiet ∧ v.toNat / 0x10000 = 0x5A17 ∧ (s.mode = .run ∨ s.mode = .service) ∧
        (s.litBank ≠ v.toNat % 4 ∨ s.on LAMP_STATE_BANKSTALE = true) ∧ (v.toNat % 4 = 1 ∨ v.toNat % 4 = 2) ∧
        s.bankState (v.toNat % 4) = 2 ∧ s.get LAMP_STATE_RELIGHT = 0 ∧ s.lamp.coldStage = 0 ∧ (s.warmOk (v.toNat % 4) = false ∨
        bitOf v.toNat 4 = true) →
      Completes (.relight m v) s fun t =>
        t.get LAMP_STATE_RELIGHT = (if s.mode = .run then 1 else 2) ∧ (s.mode = .service → t.get LAMP_STATE_LOADED = 0) ∧
          t.get LAMP_RELIGHT_RES_KIND = 1 ∧ t.lamp.relightBank = v.toNat % 4 ∧ t.lamp.relightCold = true ∧
          t.lamp.coldStage = (if s.mode = .run then 1 else 2) ∧ FrameE [PG_DEV, PG_LAMP] s t) ∧
    (∀ (s : State) (m : Master) (v : Word),
      s.accepts m = true ∧ hostMaster m = true ∧ s.Quiet ∧ v.toNat / 0x10000 = 0x5A17 ∧ (s.mode = .run ∨ s.mode = .service) ∧
        v.toNat % 4 ≠ 0 ∧ v.toNat % 4 = s.litBank ∧ s.on LAMP_STATE_BANKSTALE = false →
      Completes (.relight m v) s fun t =>
        t.get LAMP_RELIGHT_RES_CODE = 0x12 ∧ t.get LAMP_RELIGHT_RES_CHECK = 0 ∧ t.statusOf PG_LAMP LAMP_ST_RELIGHT_FAIL = true ∧
          FrameE [PG_DEV, PG_LAMP, PG_EVQ] s t) ∧
    (∀ (s : State) (m : Master) (v : Word),
      s.accepts m = true ∧ hostMaster m = true ∧ s.Quiet ∧ v.toNat / 0x10000 = 0x5A17 ∧ (s.mode = .run ∨ s.mode = .service) ∧
        (v.toNat % 4 = 0 ∨ s.litBank ≠ v.toNat % 4 ∨ s.on LAMP_STATE_BANKSTALE = true) ∧ (v.toNat % 4 = 0 ∨ v.toNat % 4 = 3 ∨
        s.bankState (v.toNat % 4) ≠ 2) →
      Completes (.relight m v) s fun t =>
        t.get LAMP_RELIGHT_RES_CODE = 0x13 ∧ t.get LAMP_RELIGHT_RES_CHECK = 0 ∧ t.statusOf PG_LAMP LAMP_ST_RELIGHT_FAIL = true ∧
          FrameE [PG_DEV, PG_LAMP, PG_EVQ] s t) ∧
    (∀ (s : State) (m : Master) (v : Word),
      s.accepts m = true ∧ hostMaster m = true ∧ s.Quiet ∧ v.toNat / 0x10000 = 0x5A17 ∧ (s.mode = .run ∨ s.mode = .service) ∧
        (v.toNat % 4 = 1 ∨ v.toNat % 4 = 2) ∧ (s.litBank ≠ v.toNat % 4 ∨ s.on LAMP_STATE_BANKSTALE = true) ∧
        s.bankState (v.toNat % 4) = 2 ∧ (s.get LAMP_STATE_RELIGHT ≠ 0 ∨ s.lamp.coldStage ≠ 0) →
      Completes (.relight m v) s fun t =>
        t.get LAMP_RELIGHT_RES_CODE = 0x14 ∧ t.get LAMP_RELIGHT_RES_CHECK = 0 ∧ t.statusOf PG_LAMP LAMP_ST_RELIGHT_FAIL = true ∧
          FrameE [PG_DEV, PG_LAMP, PG_EVQ] s t) ∧
    (∀ (s : State) (m : Master) (v : Word),
      s.accepts m = true ∧ hostMaster m = true ∧ s.Quiet ∧ v.toNat / 0x10000 = 0x5A17 ∧ s.mode = .run ∧ (v.toNat % 4 = 1 ∨
        v.toNat % 4 = 2) ∧ s.get LAMP_STATE_RELIGHT = 0 ∧ s.lamp.coldStage = 0 ∧ s.warmOk (v.toNat % 4) = true ∧ bitOf v.toNat 4 = false →
      Completes (.relight m v) s fun t =>
        t.get LAMP_STATE_RELIGHT = 1 ∧ t.get LAMP_RELIGHT_RES_KIND = 0 ∧ t.lamp.relightBank = v.toNat % 4 ∧ t.lamp.relightCold = false ∧
          RegsButE [PG_DEV, PG_LAMP] s t ∧ t.mode = s.mode ∧ MemBut 0x180000 0x18000 s t) ∧
    (∀ (s : State) (readBad : Bool),
      (s.get LAMP_STATE_RELIGHT ≠ 1 ∨ s.lamp.relightCold = true) ∧ s.Quiet →
      Completes (.warmRelightCopyDone readBad) s fun t =>
        FrameE [] s t) ∧
    (∀ (s : State) (readBad : Bool),
      s.get LAMP_STATE_RELIGHT = 1 ∧ s.lamp.relightCold = false ∧ s.Quiet →
      Completes (.warmRelightCopyDone readBad) s fun t =>
        t.get LAMP_STATE_RELIGHT = (if (s.checkImage (bankAddr s.lamp.relightBank) readBad).1 = 0 ∧
          s.copyEqual s.lamp.relightBank = true then 3 else 0) ∧ ((s.checkImage (bankAddr s.lamp.relightBank) readBad).1 ≠ 0 ∧
          s.copyEqual s.lamp.relightBank = true → t.get LAMP_RELIGHT_RES_CODE = 0x20 ∧
          t.get LAMP_RELIGHT_RES_CHECK = (s.checkImage (bankAddr s.lamp.relightBank) readBad).1 % 2 ^ LAMP_RELIGHT_RES_CHECK.w ∧
          t.statusOf PG_LAMP LAMP_ST_RELIGHT_FAIL = true) ∧ ((s.checkImage (bankAddr s.lamp.relightBank) readBad).1 = 0 ∧
          s.copyEqual s.lamp.relightBank = false → t.get LAMP_RELIGHT_RES_CODE = 0x20 ∧ t.get LAMP_RELIGHT_RES_CHECK = 5) ∧
          FrameE [PG_LAMP, PG_IMAGE, PG_EVQ] s t) ∧
    (∀ (s : State) (badA badB : Bool),
      (s.lamp.coldStage ≠ 2 ∨ s.litBank ≠ 0) ∧ s.Quiet →
      Completes (.coldRelightLoadDone badA badB) s fun t =>
        FrameE [] s t) ∧
    (∀ (s : State) (badA badB : Bool),
      s.lamp.coldStage = 2 ∧ s.litBank = 0 ∧ s.lamp.autoRun = false ∧ s.Quiet →
      Completes (.coldRelightLoadDone badA badB) s fun t =>
        t.lamp.coldStage = 0 ∧ t.get LAMP_STATE_RELIGHT = 0 ∧
          t.get LAMP_RELIGHT_RES_CODE = (if (s.checkImage (bankAddr s.lamp.relightBank) (badBanks badA badB s.lamp.relightBank)).1 = 0 then 2 else 0x21) ∧
          t.get LAMP_RELIGHT_RES_CHECK = (s.checkImage (bankAddr s.lamp.relightBank) (badBanks badA badB s.lamp.relightBank)).1 % 2 ^ LAMP_RELIGHT_RES_CHECK.w ∧
          ((s.checkImage (bankAddr s.lamp.relightBank) (badBanks badA badB s.lamp.relightBank)).1 = 0 →
          t.get LAMP_STATE_LOADED = s.lamp.relightBank % 4 ∧ t.statusOf PG_LAMP LAMP_ST_RELIGHT_DONE = true) ∧
          ((s.checkImage (bankAddr s.lamp.relightBank) (badBanks badA badB s.lamp.relightBank)).1 ≠ 0 →
          t.statusOf PG_LAMP LAMP_ST_RELIGHT_FAIL = true ∧ MemSame s t) ∧ RegsButE [PG_LAMP, PG_IMAGE, PG_EVQ] s t ∧ t.mode = s.mode) ∧
    (∀ (s : State) (m : Master) (addr : BitVec 24) (v : Word),
      s.accepts m = true ∧ hostMaster m = true ∧ s.Quiet ∧ addr.toNat % 4 = 0 ∧ 0x180000 ≤ addr.toNat ∧ addr.toNat < 0x198000 ∧
        s.litBank = 0 →
      Completes (.scheduleStoreWrite m addr v) s fun t =>
        t.load addr.toNat 4 = v.toNat ∧ MemBut addr.toNat 4 s t ∧ RegsButE [] s t ∧ t.mode = s.mode) ∧
    (∀ (s : State) (m : Master) (addr : BitVec 24) (v : Word) (lane : Fin 6),
      s.accepts m = true ∧ hostMaster m = true ∧ s.Quiet ∧ addr.toNat % 4 = 0 ∧ 0x180000 + laneBase lane.val * 8 ≤ addr.toNat ∧
        (addr.toNat - 0x180000) / 8 < laneBase lane.val + laneWords lane.val ∧ s.litBank ≠ 0 ∧
        laneBase lane.val + s.get (LAMP_BASE_FIRST.el lane.val) ≤ (addr.toNat - 0x180000) / 8 ∧
        (addr.toNat - 0x180000) / 8 < laneBase lane.val + s.get (LAMP_BASE_FIRST.el lane.val) + nth s.lamp.litLen lane.val →
      Completes (.scheduleStoreWrite m addr v) s fun t =>
        t.load addr.toNat 4 = v.toNat ∧ MemBut addr.toNat 4 s t ∧ t.get LAMP_STATE_MODIFIED = 1 ∧
          t.statusOf PG_LAMP LAMP_ST_MODIFIED = true ∧ RegsButE [PG_LAMP, PG_EVQ] s t ∧ t.mode = s.mode) ∧
    (∀ (s : State) (m : Master) (addr : BitVec 24) (v : Word) (lane : Fin 6),
      s.accepts m = true ∧ hostMaster m = true ∧ s.Quiet ∧ addr.toNat % 4 = 0 ∧ 0x180000 + laneBase lane.val * 8 ≤ addr.toNat ∧
        (addr.toNat - 0x180000) / 8 < laneBase lane.val + laneWords lane.val ∧ s.litBank ≠ 0 ∧
        ((addr.toNat - 0x180000) / 8 < laneBase lane.val + s.get (LAMP_BASE_FIRST.el lane.val) ∨
        laneBase lane.val + s.get (LAMP_BASE_FIRST.el lane.val) + nth s.lamp.litLen lane.val ≤ (addr.toNat - 0x180000) / 8) →
      Completes (.scheduleStoreWrite m addr v) s fun t =>
        t.load addr.toNat 4 = v.toNat ∧ MemBut addr.toNat 4 s t ∧ RegsButE [] s t ∧ t.mode = s.mode) ∧
    (∀ (s : State) (m : Master) (v : Word),
      s.accepts m = true ∧ hostMaster m = true ∧ s.Quiet ∧ s.get LAMP_BUDGET_ADDR_WORD ≤ 12287 →
      Completes (.budgetDataAccess m (some v)) s fun t =>
        t.budget (s.get LAMP_BUDGET_ADDR_WORD) = v.toNat % 0x1000000 ∧ FrameE [PG_DEV, PG_LAMP] s t) ∧
    (∀ (s : State) (m : Master),
      s.accepts m = true ∧ s.Quiet ∧ s.injOn PG_LAMP 0 = false ∧ s.get LAMP_BUDGET_ADDR_WORD ≤ 12287 →
      Completes (.budgetDataAccess m none) s fun t =>
        t.answer = [s.budget (s.get LAMP_BUDGET_ADDR_WORD)] ∧ t.lamp = s.lamp ∧ FrameE [PG_LAMP] s t) ∧
    (∀ (s : State) (m : Master) (addr : BitVec 24) (v : Word),
      s.accepts m = true ∧ hostMaster m = true ∧ s.Quiet ∧ addr.toNat % 4 = 0 ∧ 0x1A4000 ≤ addr.toNat ∧ addr.toNat < 0x1AD000 ∧
        s.op = none →
      Completes (.ocvSetWrite m addr v) s fun t =>
        t.load addr.toNat 4 = v.toNat ∧ MemBut addr.toNat 4 s t ∧
          bitOf (t.get OCV_VALID_RAM) ((addr.toNat - 0x1A4000) / 0x2400) = false ∧ t.statusOf PG_OCV OCV_ST_EDITED = true ∧
          ((List.range 16).any (fun n => s.on (EST_STRCFG_EN.el n) && s.get (EST_STRCFG_SET.el n) == (addr.toNat - 0x1A4000) / 0x2400) = true →
          t.errOf PG_EST EST_ERR_NOOCV = true) ∧ RegsButE [PG_OCV, PG_EST, PG_EVQ] s t ∧ t.mode = s.mode)

/-- A command with its key, on an enabled page, within its bounds starts its long operation: LONGOP.RUN names it, the operation waits for its
end, and masters outside wait with it; SEGMENT makes the bank state FILLING. A page not enabled (0x17; 0x14 of OCV), a wrong key (0x10), a
bank other than 1 and 2 (0x11), bounds broken (0x12), a bank that loads (0x15) and a seal or check of an empty bank (0x16) give their result
code, and no operation starts. (R98 of spec/04_schedule_image.md, R101 of spec/04_schedule_image.md, R102 of spec/04_schedule_image.md, R193
of spec/08_charge_tracking.md, R45 of spec/02_register_pages.md.) -/
def Obligations.ImageAtticCommands : Prop :=
  (∀ (s : State) (m : Master) (key : BitVec 16) (bank : BitVec 2),
      s.accepts m = true ∧ hostMaster m = true ∧ s.Quiet ∧ s.enabled PG_IMAGE = true ∧ key = 0x1A6E ∧ (bank = 1 ∨ bank = 2) ∧
        s.bankLoading bank.toNat = false ∧ segmentBad (s.get IMAGE_SEG_OFS_OFS) (s.get IMAGE_SEG_LEN_LEN) = false →
      Completes (.imageSegment m key bank) s fun t =>
        t.op = some (.segment bank.toNat (s.get IMAGE_SEG_OFS_OFS) (s.get IMAGE_SEG_LEN_LEN)) ∧ t.get DEV_LONGOP_RUN = 1 ∧
          t.busy = true ∧ t.mode = s.mode ∧ t.load (sealAddr bank.toNat) 4 = 1 ∧ MemBut (sealAddr bank.toNat) 4 s t) ∧
    (∀ (s : State) (m : Master) (key : BitVec 16) (bank : BitVec 2),
      s.accepts m = true ∧ hostMaster m = true ∧ s.Quiet ∧ s.enabled PG_IMAGE = true ∧ key = 0x1A6E ∧ (bank = 1 ∨ bank = 2) ∧
        s.bankLoading bank.toNat = false ∧ s.bankState bank.toNat ≠ 0 →
      Completes (.imageSeal m key bank) s fun t =>
        t.op = some (.seal bank.toNat) ∧ t.get DEV_LONGOP_RUN = 1 ∧ t.busy = true ∧ t.mode = s.mode ∧ FrameE [PG_DEV, PG_IMAGE] s t) ∧
    (∀ (s : State) (m : Master) (key : BitVec 16) (bank : BitVec 2),
      s.accepts m = true ∧ hostMaster m = true ∧ s.Quiet ∧ s.enabled PG_IMAGE = true ∧ key = 0x1A6E ∧ (bank = 1 ∨ bank = 2) ∧
        s.bankLoading bank.toNat = false →
      Completes (.imageErase m key bank) s fun t =>
        t.op = some (.erase bank.toNat) ∧ t.get DEV_LONGOP_RUN = 1 ∧ t.busy = true ∧ t.mode = s.mode ∧ FrameE [PG_DEV, PG_IMAGE] s t) ∧
    (∀ (s : State) (m : Master) (key : BitVec 16) (bank : BitVec 2),
      s.accepts m = true ∧ hostMaster m = true ∧ s.Quiet ∧ s.enabled PG_IMAGE = true ∧ key = 0x1A6E ∧ (bank = 1 ∨ bank = 2) ∧
        s.bankLoading bank.toNat = false ∧ s.bankState bank.toNat ≠ 0 →
      Completes (.imageCheck m key bank) s fun t =>
        t.op = some (.checkImage bank.toNat) ∧ t.get DEV_LONGOP_RUN = 1 ∧ t.busy = true ∧ t.mode = s.mode ∧
          FrameE [PG_DEV, PG_IMAGE] s t) ∧
    (∀ (s : State) (m : Master) (key : BitVec 16) (bank : BitVec 2),
      s.accepts m = true ∧ hostMaster m = true ∧ s.Quiet ∧ s.enabled PG_IMAGE = true ∧ key ≠ 0x1A6E →
      Completes (.imageSegment m key bank) s fun t =>
        t.get IMAGE_RESULT_CODE = 0x10 ∧ t.statusOf PG_IMAGE IMAGE_ST_FAIL = true ∧ t.op = s.op ∧ FrameE [PG_DEV, PG_IMAGE, PG_EVQ] s t) ∧
    (∀ (s : State) (m : Master) (key : BitVec 16) (bank : BitVec 2),
      s.accepts m = true ∧ hostMaster m = true ∧ s.Quiet ∧ s.enabled PG_IMAGE = true ∧ key ≠ 0x1A6E →
      Completes (.imageSeal m key bank) s fun t =>
        t.get IMAGE_RESULT_CODE = 0x10 ∧ t.statusOf PG_IMAGE IMAGE_ST_FAIL = true ∧ t.op = s.op ∧ FrameE [PG_DEV, PG_IMAGE, PG_EVQ] s t) ∧
    (∀ (s : State) (m : Master) (key : BitVec 16) (bank : BitVec 2),
      s.accepts m = true ∧ hostMaster m = true ∧ s.Quiet ∧ s.enabled PG_IMAGE = true ∧ key ≠ 0x1A6E →
      Completes (.imageErase m key bank) s fun t =>
        t.get IMAGE_RESULT_CODE = 0x10 ∧ t.statusOf PG_IMAGE IMAGE_ST_FAIL = true ∧ t.op = s.op ∧ FrameE [PG_DEV, PG_IMAGE, PG_EVQ] s t) ∧
    (∀ (s : State) (m : Master) (key : BitVec 16) (bank : BitVec 2),
      s.accepts m = true ∧ hostMaster m = true ∧ s.Quiet ∧ s.enabled PG_IMAGE = true ∧ key ≠ 0x1A6E →
      Completes (.imageCheck m key bank) s fun t =>
        t.get IMAGE_RESULT_CODE = 0x10 ∧ t.statusOf PG_IMAGE IMAGE_ST_FAIL = true ∧ t.op = s.op ∧ FrameE [PG_DEV, PG_IMAGE, PG_EVQ] s t) ∧
    (∀ (s : State) (m : Master) (key : BitVec 16) (bank : BitVec 2),
      s.accepts m = true ∧ hostMaster m = true ∧ s.Quiet ∧ s.enabled PG_IMAGE = false →
      Completes (.imageSegment m key bank) s fun t =>
        t.get IMAGE_RESULT_CODE = 0x17 ∧ t.statusOf PG_IMAGE IMAGE_ST_FAIL = true ∧ t.op = s.op ∧ FrameE [PG_DEV, PG_IMAGE, PG_EVQ] s t) ∧
    (∀ (s : State) (m : Master) (key : BitVec 16) (bank : BitVec 2),
      s.accepts m = true ∧ hostMaster m = true ∧ s.Quiet ∧ s.enabled PG_IMAGE = true ∧ key = 0x1A6E ∧ (bank = 0 ∨ bank = 3) →
      Completes (.imageSegment m key bank) s fun t =>
        t.get IMAGE_RESULT_CODE = 0x11 ∧ t.statusOf PG_IMAGE IMAGE_ST_FAIL = true ∧ t.op = s.op ∧ FrameE [PG_DEV, PG_IMAGE, PG_EVQ] s t) ∧
    (∀ (s : State) (m : Master) (key : BitVec 16) (bank : BitVec 2),
      s.accepts m = true ∧ hostMaster m = true ∧ s.Quiet ∧ s.enabled PG_IMAGE = false →
      Completes (.imageSeal m key bank) s fun t =>
        t.get IMAGE_RESULT_CODE = 0x17 ∧ t.statusOf PG_IMAGE IMAGE_ST_FAIL = true ∧ t.op = s.op ∧ FrameE [PG_DEV, PG_IMAGE, PG_EVQ] s t) ∧
    (∀ (s : State) (m : Master) (key : BitVec 16) (bank : BitVec 2),
      s.accepts m = true ∧ hostMaster m = true ∧ s.Quiet ∧ s.enabled PG_IMAGE = true ∧ key = 0x1A6E ∧ (bank = 0 ∨ bank = 3) →
      Completes (.imageSeal m key bank) s fun t =>
        t.get IMAGE_RESULT_CODE = 0x11 ∧ t.statusOf PG_IMAGE IMAGE_ST_FAIL = true ∧ t.op = s.op ∧ FrameE [PG_DEV, PG_IMAGE, PG_EVQ] s t) ∧
    (∀ (s : State) (m : Master) (key : BitVec 16) (bank : BitVec 2),
      s.accepts m = true ∧ hostMaster m = true ∧ s.Quiet ∧ s.enabled PG_IMAGE = false →
      Completes (.imageErase m key bank) s fun t =>
        t.get IMAGE_RESULT_CODE = 0x17 ∧ t.statusOf PG_IMAGE IMAGE_ST_FAIL = true ∧ t.op = s.op ∧ FrameE [PG_DEV, PG_IMAGE, PG_EVQ] s t) ∧
    (∀ (s : State) (m : Master) (key : BitVec 16) (bank : BitVec 2),
      s.accepts m = true ∧ hostMaster m = true ∧ s.Quiet ∧ s.enabled PG_IMAGE = true ∧ key = 0x1A6E ∧ (bank = 0 ∨ bank = 3) →
      Completes (.imageErase m key bank) s fun t =>
        t.get IMAGE_RESULT_CODE = 0x11 ∧ t.statusOf PG_IMAGE IMAGE_ST_FAIL = true ∧ t.op = s.op ∧ FrameE [PG_DEV, PG_IMAGE, PG_EVQ] s t) ∧
    (∀ (s : State) (m : Master) (key : BitVec 16) (bank : BitVec 2),
      s.accepts m = true ∧ hostMaster m = true ∧ s.Quiet ∧ s.enabled PG_IMAGE = false →
      Completes (.imageCheck m key bank) s fun t =>
        t.get IMAGE_RESULT_CODE = 0x17 ∧ t.statusOf PG_IMAGE IMAGE_ST_FAIL = true ∧ t.op = s.op ∧ FrameE [PG_DEV, PG_IMAGE, PG_EVQ] s t) ∧
    (∀ (s : State) (m : Master) (key : BitVec 16) (bank : BitVec 2),
      s.accepts m = true ∧ hostMaster m = true ∧ s.Quiet ∧ s.enabled PG_IMAGE = true ∧ key = 0x1A6E ∧ (bank = 0 ∨ bank = 3) →
      Completes (.imageCheck m key bank) s fun t =>
        t.get IMAGE_RESULT_CODE = 0x11 ∧ t.statusOf PG_IMAGE IMAGE_ST_FAIL = true ∧ t.op = s.op ∧ FrameE [PG_DEV, PG_IMAGE, PG_EVQ] s t) ∧
    (∀ (s : State) (m : Master) (key : BitVec 16) (bank : BitVec 2),
      s.accepts m = true ∧ hostMaster m = true ∧ s.Quiet ∧ s.enabled PG_IMAGE = true ∧ key = 0x1A6E ∧ (bank = 1 ∨ bank = 2) ∧
        segmentBad (s.get IMAGE_SEG_OFS_OFS) (s.get IMAGE_SEG_LEN_LEN) = true →
      Completes (.imageSegment m key bank) s fun t =>
        t.get IMAGE_RESULT_CODE = 0x12 ∧ t.statusOf PG_IMAGE IMAGE_ST_FAIL = true ∧ t.op = s.op ∧ FrameE [PG_DEV, PG_IMAGE, PG_EVQ] s t) ∧
    (∀ (s : State) (m : Master) (key : BitVec 16) (bank : BitVec 2),
      s.accepts m = true ∧ hostMaster m = true ∧ s.Quiet ∧ s.enabled PG_IMAGE = true ∧ key = 0x1A6E ∧ (bank = 1 ∨ bank = 2) ∧
        s.bankLoading bank.toNat = true →
      Completes (.imageSeal m key bank) s fun t =>
        t.get IMAGE_RESULT_CODE = 0x15 ∧ t.statusOf PG_IMAGE IMAGE_ST_FAIL = true ∧ t.op = s.op ∧ FrameE [PG_DEV, PG_IMAGE, PG_EVQ] s t) ∧
    (∀ (s : State) (m : Master) (key : BitVec 16) (bank : BitVec 2),
      s.accepts m = true ∧ hostMaster m = true ∧ s.Quiet ∧ s.enabled PG_IMAGE = true ∧ key = 0x1A6E ∧ (bank = 1 ∨ bank = 2) ∧
        s.bankLoading bank.toNat = true →
      Completes (.imageErase m key bank) s fun t =>
        t.get IMAGE_RESULT_CODE = 0x15 ∧ t.statusOf PG_IMAGE IMAGE_ST_FAIL = true ∧ t.op = s.op ∧ FrameE [PG_DEV, PG_IMAGE, PG_EVQ] s t) ∧
    (∀ (s : State) (m : Master) (key : BitVec 16) (bank : BitVec 2),
      s.accepts m = true ∧ hostMaster m = true ∧ s.Quiet ∧ s.enabled PG_IMAGE = true ∧ key = 0x1A6E ∧ (bank = 1 ∨ bank = 2) ∧
        s.bankLoading bank.toNat = true →
      Completes (.imageCheck m key bank) s fun t =>
        t.get IMAGE_RESULT_CODE = 0x15 ∧ t.statusOf PG_IMAGE IMAGE_ST_FAIL = true ∧ t.op = s.op ∧ FrameE [PG_DEV, PG_IMAGE, PG_EVQ] s t) ∧
    (∀ (s : State) (m : Master) (key : BitVec 16) (bank : BitVec 2),
      s.accepts m = true ∧ hostMaster m = true ∧ s.Quiet ∧ s.enabled PG_IMAGE = true ∧ key = 0x1A6E ∧ (bank = 1 ∨ bank = 2) ∧
        s.bankLoading bank.toNat = true ∧ segmentBad (s.get IMAGE_SEG_OFS_OFS) (s.get IMAGE_SEG_LEN_LEN) = false →
      Completes (.imageSegment m key bank) s fun t =>
        t.get IMAGE_RESULT_CODE = 0x15 ∧ t.statusOf PG_IMAGE IMAGE_ST_FAIL = true ∧ t.op = s.op ∧ FrameE [PG_DEV, PG_IMAGE, PG_EVQ] s t) ∧
    (∀ (s : State) (m : Master) (key : BitVec 16) (bank : BitVec 2),
      s.accepts m = true ∧ hostMaster m = true ∧ s.Quiet ∧ s.enabled PG_IMAGE = true ∧ key = 0x1A6E ∧ (bank = 1 ∨ bank = 2) ∧
        s.bankLoading bank.toNat = false ∧ s.bankState bank.toNat = 0 →
      Completes (.imageSeal m key bank) s fun t =>
        t.get IMAGE_RESULT_CODE = 0x16 ∧ t.statusOf PG_IMAGE IMAGE_ST_FAIL = true ∧ t.op = s.op ∧ FrameE [PG_DEV, PG_IMAGE, PG_EVQ] s t) ∧
    (∀ (s : State) (m : Master) (key : BitVec 16) (bank : BitVec 2),
      s.accepts m = true ∧ hostMaster m = true ∧ s.Quiet ∧ s.enabled PG_IMAGE = true ∧ key = 0x1A6E ∧ (bank = 1 ∨ bank = 2) ∧
        s.bankLoading bank.toNat = false ∧ s.bankState bank.toNat = 0 →
      Completes (.imageCheck m key bank) s fun t =>
        t.get IMAGE_RESULT_CODE = 0x16 ∧ t.statusOf PG_IMAGE IMAGE_ST_FAIL = true ∧ t.op = s.op ∧ FrameE [PG_DEV, PG_IMAGE, PG_EVQ] s t) ∧
    (∀ (s : State) (m : Master) (key : BitVec 16),
      s.accepts m = true ∧ hostMaster m = true ∧ s.Quiet ∧ s.enabled PG_ATTIC = true ∧ key = 0xA7C0 ∧
        configBad (s.get ATTIC_SEG_OFS_OFS) (s.get ATTIC_SEG_LEN_LEN) = false →
      Completes (.atticCommit m key) s fun t =>
        t.op = some (.commit (s.get ATTIC_SEG_OFS_OFS) (s.get ATTIC_SEG_LEN_LEN)) ∧ t.get DEV_LONGOP_RUN = 2 ∧ t.busy = true ∧
          t.mode = s.mode ∧ FrameE [PG_DEV, PG_ATTIC] s t) ∧
    (∀ (s : State) (m : Master) (key : BitVec 16),
      s.accepts m = true ∧ hostMaster m = true ∧ s.Quiet ∧ s.enabled PG_ATTIC = true ∧ key ≠ 0xA7C0 →
      Completes (.atticCommit m key) s fun t =>
        t.get ATTIC_RESULT_CODE = 0x10 ∧ t.statusOf PG_ATTIC ATTIC_ST_FAIL = true ∧ t.op = s.op ∧ FrameE [PG_DEV, PG_ATTIC, PG_EVQ] s t) ∧
    (∀ (s : State) (m : Master) (key : BitVec 16),
      s.accepts m = true ∧ hostMaster m = true ∧ s.Quiet ∧ s.enabled PG_ATTIC = true ∧ key = 0xA7C0 ∧
        configBad (s.get ATTIC_SEG_OFS_OFS) (s.get ATTIC_SEG_LEN_LEN) = false →
      Completes (.atticCompare m key) s fun t =>
        t.op = some (.compare (s.get ATTIC_SEG_OFS_OFS) (s.get ATTIC_SEG_LEN_LEN)) ∧ t.get DEV_LONGOP_RUN = 2 ∧ t.busy = true ∧
          t.mode = s.mode ∧ FrameE [PG_DEV, PG_ATTIC] s t) ∧
    (∀ (s : State) (m : Master) (key : BitVec 16),
      s.accepts m = true ∧ hostMaster m = true ∧ s.Quiet ∧ s.enabled PG_ATTIC = true ∧ key ≠ 0xA7C0 →
      Completes (.atticCompare m key) s fun t =>
        t.get ATTIC_RESULT_CODE = 0x10 ∧ t.statusOf PG_ATTIC ATTIC_ST_FAIL = true ∧ t.op = s.op ∧ FrameE [PG_DEV, PG_ATTIC, PG_EVQ] s t) ∧
    (∀ (s : State) (m : Master) (key : BitVec 16),
      s.accepts m = true ∧ hostMaster m = true ∧ s.Quiet ∧ s.enabled PG_ATTIC = false →
      Completes (.atticCommit m key) s fun t =>
        t.get ATTIC_RESULT_CODE = 0x17 ∧ t.statusOf PG_ATTIC ATTIC_ST_FAIL = true ∧ t.op = s.op ∧ FrameE [PG_DEV, PG_ATTIC, PG_EVQ] s t) ∧
    (∀ (s : State) (m : Master) (key : BitVec 16),
      s.accepts m = true ∧ hostMaster m = true ∧ s.Quiet ∧ s.enabled PG_ATTIC = true ∧ key = 0xA7C0 ∧
        configBad (s.get ATTIC_SEG_OFS_OFS) (s.get ATTIC_SEG_LEN_LEN) = true →
      Completes (.atticCommit m key) s fun t =>
        t.get ATTIC_RESULT_CODE = 0x12 ∧ t.statusOf PG_ATTIC ATTIC_ST_FAIL = true ∧ t.op = s.op ∧ FrameE [PG_DEV, PG_ATTIC, PG_EVQ] s t) ∧
    (∀ (s : State) (m : Master) (key : BitVec 16),
      s.accepts m = true ∧ hostMaster m = true ∧ s.Quiet ∧ s.enabled PG_ATTIC = false →
      Completes (.atticCompare m key) s fun t =>
        t.get ATTIC_RESULT_CODE = 0x17 ∧ t.statusOf PG_ATTIC ATTIC_ST_FAIL = true ∧ t.op = s.op ∧ FrameE [PG_DEV, PG_ATTIC, PG_EVQ] s t) ∧
    (∀ (s : State) (m : Master) (key : BitVec 16),
      s.accepts m = true ∧ hostMaster m = true ∧ s.Quiet ∧ s.enabled PG_ATTIC = true ∧ key = 0xA7C0 ∧
        configBad (s.get ATTIC_SEG_OFS_OFS) (s.get ATTIC_SEG_LEN_LEN) = true →
      Completes (.atticCompare m key) s fun t =>
        t.get ATTIC_RESULT_CODE = 0x12 ∧ t.statusOf PG_ATTIC ATTIC_ST_FAIL = true ∧ t.op = s.op ∧ FrameE [PG_DEV, PG_ATTIC, PG_EVQ] s t) ∧
    (∀ (s : State) (m : Master) (key : BitVec 16) (set : BitVec 2),
      s.accepts m = true ∧ hostMaster m = true ∧ s.Quiet ∧ s.enabled PG_OCV = true ∧ key = 0x0C7A →
      Completes (.ocvCommit m key set) s fun t =>
        t.op = some (.ocvCommit set.toNat) ∧ t.get DEV_LONGOP_RUN = 3 ∧ t.busy = true ∧ t.mode = s.mode ∧ t.est.ocvEdited = 0 ∧
          FrameE [PG_DEV, PG_OCV] s t) ∧
    (∀ (s : State) (m : Master) (key : BitVec 16) (set : BitVec 2),
      s.accepts m = true ∧ hostMaster m = true ∧ s.Quiet ∧ s.enabled PG_OCV = true ∧ key ≠ 0x0C7A →
      Completes (.ocvCommit m key set) s fun t =>
        t.get OCV_RESULT_CODE = 0x10 ∧ t.statusOf PG_OCV OCV_ST_FAIL = true ∧ t.op = s.op ∧ FrameE [PG_DEV, PG_OCV, PG_EVQ] s t) ∧
    (∀ (s : State) (m : Master) (key : BitVec 16) (set : BitVec 2),
      s.accepts m = true ∧ hostMaster m = true ∧ s.Quiet ∧ s.enabled PG_OCV = true ∧ key = 0x0C7A →
      Completes (.ocvReload m key set) s fun t =>
        t.op = some (.ocvReload set.toNat) ∧ t.get DEV_LONGOP_RUN = 3 ∧ t.busy = true ∧ t.mode = s.mode ∧ t.est.ocvEdited = 0 ∧
          FrameE [PG_DEV, PG_OCV] s t) ∧
    (∀ (s : State) (m : Master) (key : BitVec 16) (set : BitVec 2),
      s.accepts m = true ∧ hostMaster m = true ∧ s.Quiet ∧ s.enabled PG_OCV = true ∧ key ≠ 0x0C7A →
      Completes (.ocvReload m key set) s fun t =>
        t.get OCV_RESULT_CODE = 0x10 ∧ t.statusOf PG_OCV OCV_ST_FAIL = true ∧ t.op = s.op ∧ FrameE [PG_DEV, PG_OCV, PG_EVQ] s t) ∧
    (∀ (s : State) (m : Master) (key : BitVec 16) (set : BitVec 2),
      s.accepts m = true ∧ hostMaster m = true ∧ s.Quiet ∧ s.enabled PG_OCV = true ∧ key = 0x0C7A →
      Completes (.ocvCheck m key set) s fun t =>
        t.op = some (.ocvCheck set.toNat) ∧ t.get DEV_LONGOP_RUN = 3 ∧ t.busy = true ∧ t.mode = s.mode ∧ t.est.ocvEdited = 0 ∧
          FrameE [PG_DEV, PG_OCV] s t) ∧
    (∀ (s : State) (m : Master) (key : BitVec 16) (set : BitVec 2),
      s.accepts m = true ∧ hostMaster m = true ∧ s.Quiet ∧ s.enabled PG_OCV = true ∧ key ≠ 0x0C7A →
      Completes (.ocvCheck m key set) s fun t =>
        t.get OCV_RESULT_CODE = 0x10 ∧ t.statusOf PG_OCV OCV_ST_FAIL = true ∧ t.op = s.op ∧ FrameE [PG_DEV, PG_OCV, PG_EVQ] s t) ∧
    (∀ (s : State) (m : Master) (key : BitVec 16) (set : BitVec 2),
      s.accepts m = true ∧ hostMaster m = true ∧ s.Quiet ∧ s.enabled PG_OCV = false →
      Completes (.ocvCommit m key set) s fun t =>
        t.get OCV_RESULT_CODE = 0x14 ∧ t.statusOf PG_OCV OCV_ST_FAIL = true ∧ t.op = s.op ∧ FrameE [PG_DEV, PG_OCV, PG_EVQ] s t) ∧
    (∀ (s : State) (m : Master) (key : BitVec 16) (set : BitVec 2),
      s.accepts m = true ∧ hostMaster m = true ∧ s.Quiet ∧ s.enabled PG_OCV = false →
      Completes (.ocvReload m key set) s fun t =>
        t.get OCV_RESULT_CODE = 0x14 ∧ t.statusOf PG_OCV OCV_ST_FAIL = true ∧ t.op = s.op ∧ FrameE [PG_DEV, PG_OCV, PG_EVQ] s t) ∧
    (∀ (s : State) (m : Master) (key : BitVec 16) (set : BitVec 2),
      s.accepts m = true ∧ hostMaster m = true ∧ s.Quiet ∧ s.enabled PG_OCV = false →
      Completes (.ocvCheck m key set) s fun t =>
        t.get OCV_RESULT_CODE = 0x14 ∧ t.statusOf PG_OCV OCV_ST_FAIL = true ∧ t.op = s.op ∧ FrameE [PG_DEV, PG_OCV, PG_EVQ] s t)

/-- SWTRIG starts a table of a bank that is enabled and free and is rejected while it is busy; on a disabled bank it sets TRIGOFF, and a table
of length 0 completes at once; a result with DEST 0, 1 or 3, or of a unit that takes none, puts its code with the cycle of its instant into
the result register of its entry, and with DEST 3 into the STORE input table, and where no slice serves its position it delivers nothing;
the end of a table clears BUSY and reports DONE; a background step hands the next position to the spare and calibrates the slice released,
or calibrates the slice that waits for its retry; a calibration that passes takes the trims and, with no spare there, makes the slice the
spare; one that fails is tried again, and a second time retires the slice; a sweep starts a long operation on every bank, over the slice
that calibrates, or with a step; a FIFO read takes the oldest word and a clear empties the FIFO. (R112 of spec/05_sampling.md, R110 of
spec/05_sampling.md, R111 of spec/05_sampling.md, R119 of spec/05_sampling.md, R121 of spec/05_sampling.md, R122 of spec/05_sampling.md,
R115 of spec/05_sampling.md.) -/
def Obligations.Sampling : Prop :=
  (∀ (s : State) (m : Master) (bank : Fin 4) (seq : BitVec 2),
      s.accepts m = true ∧ hostMaster m = true ∧ s.Quiet ∧ s.enabled (adcPage bank) = true ∧ s.bankBusy bank = false ∧
        s.dev.pll = true ∧ s.seqLen bank seq.toNat ≠ 0 →
      Completes (.swtrig m bank seq) s fun t =>
        t.get (adcF ADC_STATE_BUSY bank) = 1 ∧ t.get (adcF ADC_STATE_SEQ bank) = seq.toNat ∧
          (t.bank bank).table = s.seqEntries bank seq.toNat ∧ FrameE [PG_DEV, PG_ADC + bank.val] s t) ∧
    (∀ (s : State) (m : Master) (bank : Fin 4) (seq : BitVec 2),
      s.accepts m = true ∧ hostMaster m = true ∧ s.Quiet ∧ s.enabled (adcPage bank) = true ∧ s.bankBusy bank = true →
      Completes (.swtrig m bank seq) s fun t =>
        t.statusOf (PG_ADC + bank.val) ADC_ST_SWREJ = true ∧ t.adc = s.adc ∧ FrameE [PG_DEV, PG_ADC + bank.val, PG_EVQ] s t) ∧
    (∀ (s : State) (m : Master) (bank : Fin 4) (seq : BitVec 2),
      s.accepts m = true ∧ hostMaster m = true ∧ s.Quiet ∧ s.enabled (adcPage bank) = false ∧ s.dev.pll = true →
      Completes (.swtrig m bank seq) s fun t =>
        t.statusOf (PG_ADC + bank.val) ADC_ST_TRIGOFF = true ∧ t.adc = s.adc ∧ FrameE [PG_DEV, PG_ADC + bank.val, PG_EVQ] s t) ∧
    (∀ (s : State) (m : Master) (bank : Fin 4) (seq : BitVec 2),
      s.accepts m = true ∧ hostMaster m = true ∧ s.Quiet ∧ s.enabled (adcPage bank) = true ∧ s.bankBusy bank = false ∧
        s.dev.pll = true ∧ s.seqLen bank seq.toNat = 0 →
      Completes (.swtrig m bank seq) s fun t =>
        t.statusOf (PG_ADC + bank.val) (ADC_ST_DONE + seq.toNat) = true ∧ t.get (adcF ADC_STATE_BUSY bank) = 0 ∧ t.adc = s.adc ∧
          FrameE [PG_DEV, PG_ADC + bank.val, PG_EVQ] s t) ∧
    (∀ (s : State) (bank : Fin 4) (entry : Fin 16) (uv : Int) (ago : Nat) (onReleased : Bool) (e : Nat × Nat),
      (s.bank bank).table[entry.val]? = some e →
      s.Quiet ∧ s.dev.pll = true ∧ s.convSlice bank (bitsOf e.1 0 6) onReleased ≠ 7 ∧ (bitsOf e.1 14 2 < 2 ∨ (bitsOf e.1 14 2 = 2 ∧
        dinUnitOk (bitsOf e.1 16 6) = false)) →
      Completes (.conversionResult bank entry uv ago onReleased) s fun t =>
        (t.rd (adcPage bank * 0x400 + 0x300 + 4 * (16 * s.get (adcF ADC_STATE_SEQ bank) + entry.val))).toNat % 4096 = adcCode bank e.1 uv ∧
          (t.rd (adcPage bank * 0x400 + 0x300 + 4 * (16 * s.get (adcF ADC_STATE_SEQ bank) + entry.val))).toNat / 4096 % 8 = s.convSlice bank (bitsOf e.1 0 6) onReleased ∧
          (t.rd (adcPage bank * 0x400 + 0x300 + 4 * (16 * s.get (adcF ADC_STATE_SEQ bank) + entry.val))).toNat / 65536 = (s.get (adcF ADC_COUNT_CYCLE bank) + 65536 - ago % 65536) % 65536 ∧
          (t.bank bank).table = (s.bank bank).table ∧ t.resultCfg bank (16 * s.get (adcF ADC_STATE_SEQ bank) + entry.val) = e.1 ∧
          FrameE [adcPage bank, PG_CELLAR, PG_EVQ] s t) ∧
    (∀ (s : State) (bank : Fin 4) (entry : Fin 16) (uv : Int) (ago : Nat) (onReleased : Bool) (e : Nat × Nat),
      (s.bank bank).table[entry.val]? = some e →
      s.Quiet ∧ s.dev.pll = true ∧ s.convSlice bank (bitsOf e.1 0 6) onReleased ≠ 7 ∧ bitsOf e.1 14 2 = 3 →
      Completes (.conversionResult bank entry uv ago onReleased) s fun t =>
        (t.rd (adcPage bank * 0x400 + 0x300 + 4 * (16 * s.get (adcF ADC_STATE_SEQ bank) + entry.val))).toNat % 4096 = adcCode bank e.1 uv ∧
          (t.rd (adcPage bank * 0x400 + 0x300 + 4 * (16 * s.get (adcF ADC_STATE_SEQ bank) + entry.val))).toNat / 4096 % 8 = s.convSlice bank (bitsOf e.1 0 6) onReleased ∧
          (t.rd (adcPage bank * 0x400 + 0x300 + 4 * (16 * s.get (adcF ADC_STATE_SEQ bank) + entry.val))).toNat / 65536 = (s.get (adcF ADC_COUNT_CYCLE bank) + 65536 - ago % 65536) % 65536 ∧
          (t.bank bank).table = (s.bank bank).table ∧ t.resultCfg bank (16 * s.get (adcF ADC_STATE_SEQ bank) + entry.val) = e.1 ∧
          t.load (storeInput (bitsOf e.1 16 6)) 4 = (t.rd (adcPage bank * 0x400 + 0x300 + 4 * (16 * s.get (adcF ADC_STATE_SEQ bank) + entry.val))).toNat ∧
          MemBut (storeInput (bitsOf e.1 16 6)) 4 s t ∧ RegsButE [adcPage bank, PG_CELLAR, PG_EVQ] s t ∧ t.mode = s.mode) ∧
    (∀ (s : State) (bank : Fin 4) (entry : Fin 16) (uv : Int) (ago : Nat) (onReleased : Bool) (e : Nat × Nat),
      (s.bank bank).table[entry.val]? = some e →
      s.Quiet ∧ (s.dev.pll = false ∨ s.convSlice bank (bitsOf e.1 0 6) onReleased = 7) →
      Completes (.conversionResult bank entry uv ago onReleased) s fun t =>
        t.adc = s.adc ∧ (adcReserved bank (bitsOf e.1 0 6) = true ∨ bitsOf e.1 8 3 = 7 →
          t.statusOf (adcPage bank) ADC_ST_BADENT = true) ∧ FrameE [adcPage bank, PG_EVQ] s t) ∧
    (∀ (s : State) (bank : Fin 4) (entry : Fin 16) (uv : Int) (ago : Nat) (onReleased : Bool),
      s.Quiet ∧ (s.bank bank).table.length ≤ entry.val →
      Completes (.conversionResult bank entry uv ago onReleased) s fun t =>
        t.adc = s.adc ∧ FrameE [] s t) ∧
    (∀ (s : State) (bank : Fin 4),
      s.on (adcF ADC_STATE_BUSY bank) = true ∧ s.dev.freset.contains (adcPage bank) = false ∧ (bank ≠ 3 ∨
        s.get (adcF ADC_STATE_SEQ bank) ≠ 3) →
      Completes (.sequenceDone bank) s fun t =>
        t.get (adcF ADC_STATE_BUSY bank) = 0 ∧ (t.bank bank).table = [] ∧
          t.statusOf (adcPage bank) (ADC_ST_DONE + s.get (adcF ADC_STATE_SEQ bank)) = true ∧ Frame [adcPage bank, PG_EVQ] s t) ∧
    (∀ (s : State),
      s.on (adcF ADC_STATE_BUSY 3) = true ∧ s.dev.freset.contains (adcPage 3) = false ∧ s.get (adcF ADC_STATE_SEQ 3) = 3 →
      Completes (.sequenceDone 3) s fun t =>
        (t.bank 3).table = [] ∧ t.therm.lastSlow = some s.tMarker ∧ t.mode = s.mode) ∧
    (∀ (s : State) (bank : Fin 4),
      s.on (adcF ADC_STATE_BUSY bank) = false ∨ (s.dev.freset.contains (adcPage bank) = true ∧ (bank ≠ 3 ∨
        s.get (adcF ADC_STATE_SEQ 3) ≠ 3)) →
      Completes (.sequenceDone bank) s fun t =>
        t = s.begin) ∧
    (∀ (s : State) (bank : Fin 4),
      s.dev.pll = true ∧ (s.bank bank).sweeping = false ∧ s.on (adcF ADC_CAL_CTRL_BGEN bank) = true ∧
        s.get (adcF ADC_STATE_RETIRED bank) = 0 ∧ s.on (adcF ADC_CAL_BUSY bank) = false ∧
        s.get (adcF ADC_COUNT_ROUND32 bank) = 8 * bank.val ∧ (s.bank bank).retry = none ∧ s.get (adcF ADC_STATE_SPARE bank) ≠ 7 ∧
        (s.bank bank).nextPos < 4 →
      Completes (.calStep bank) s fun t =>
        t.get (adcF ADC_CAL_BUSY bank) = 1 ∧ t.get (adcF ADC_CAL_SLICE bank) = s.get (adcPos bank (s.bank bank).nextPos) ∧
          t.get (adcF ADC_STATE_SPARE bank) = 7 ∧ t.get (adcPos bank (s.bank bank).nextPos) = s.get (adcF ADC_STATE_SPARE bank) ∧
          (t.bank bank).nextPos = ((s.bank bank).nextPos + 1) % 4 ∧ t.statusOf (adcPage bank) ADC_ST_HANDOVER = true ∧
          Frame [adcPage bank, PG_EVQ] s t) ∧
    (∀ (s : State) (bank : Fin 4),
      s.dev.pll = false ∨ (s.bank bank).sweeping = true ∨ s.on (adcF ADC_CAL_CTRL_BGEN bank) = false ∨
        s.get (adcF ADC_STATE_RETIRED bank) ≠ 0 ∨ s.on (adcF ADC_CAL_BUSY bank) = true ∨
        s.get (adcF ADC_COUNT_ROUND32 bank) ≠ 8 * bank.val →
      Completes (.calStep bank) s fun t =>
        t = s.begin) ∧
    (∀ (s : State) (bank : Fin 4),
      s.dev.pll = true ∧ (s.bank bank).sweeping = false ∧ s.on (adcF ADC_CAL_CTRL_BGEN bank) = true ∧
        s.get (adcF ADC_STATE_RETIRED bank) = 0 ∧ s.on (adcF ADC_CAL_BUSY bank) = false ∧
        s.get (adcF ADC_COUNT_ROUND32 bank) = 8 * bank.val ∧ (s.bank bank).retry = none ∧ s.get (adcF ADC_STATE_SPARE bank) = 7 →
      Completes (.calStep bank) s fun t =>
        t = s.begin) ∧
    (∀ (s : State) (bank : Fin 4) (x : Nat),
      s.dev.pll = true ∧ (s.bank bank).sweeping = false ∧ s.on (adcF ADC_CAL_CTRL_BGEN bank) = true ∧
        s.get (adcF ADC_STATE_RETIRED bank) = 0 ∧ s.on (adcF ADC_CAL_BUSY bank) = false ∧
        s.get (adcF ADC_COUNT_ROUND32 bank) = 8 * bank.val ∧ (s.bank bank).retry = some x →
      Completes (.calStep bank) s fun t =>
        t.get (adcF ADC_CAL_BUSY bank) = 1 ∧ t.get (adcF ADC_CAL_SLICE bank) = x % 8 ∧ t.adc = s.adc ∧ Frame [adcPage bank] s t) ∧
    (∀ (s : State) (bank : Fin 4) (m : CalMeas),
      s.Quiet ∧ s.dev.pll = true ∧ s.on (adcF ADC_CAL_BUSY bank) = true ∧ (s.bank bank).sweeping = false ∧
        s.get (adcF ADC_CAL_SLICE bank) < 5 ∧ s.injOn (adcPage bank) 2 = false ∧ calPass m = true ∧
        s.get (adcF ADC_STATE_SPARE bank) = 7 →
      Completes (.calDone bank m) s fun t =>
        t.get (adcF ADC_CAL_BUSY bank) = 0 ∧ t.get (adcF ADC_CAL_SLICE bank) = 7 ∧
          t.get (adcF ADC_STATE_SPARE bank) = s.get (adcF ADC_CAL_SLICE bank) ∧
          bitOf (t.get (adcF ADC_CAL_LASTOK bank)) (s.get (adcF ADC_CAL_SLICE bank)) = true ∧ (t.bank bank).retry = none ∧
          t.get (adcF (ADC_TRIM_GAIN.el (s.get (adcF ADC_CAL_SLICE bank))) bank) = ofSigned ADC_TRIM_GAIN.w m.gain ∧
          t.get (adcF (ADC_TRIM_OFFSET.el (s.get (adcF ADC_CAL_SLICE bank))) bank) = ofSigned ADC_TRIM_OFFSET.w (clampI (-256) 255 m.offset) ∧
          bitOf (t.get (adcF ADC_STATE_RETIRED bank)) (s.get (adcF ADC_CAL_SLICE bank)) = false ∧ FrameE [adcPage bank, PG_EVQ] s t) ∧
    (∀ (s : State) (bank : Fin 4) (m : CalMeas),
      s.Quiet ∧ s.dev.pll = true ∧ s.on (adcF ADC_CAL_BUSY bank) = true ∧ (s.bank bank).sweeping = false ∧
        s.get (adcF ADC_CAL_SLICE bank) < 5 ∧ (calPass m = false ∨ s.injOn (adcPage bank) 2 = true) ∧
        (s.bank bank).retry ≠ some (s.get (adcF ADC_CAL_SLICE bank)) →
      Completes (.calDone bank m) s fun t =>
        t.get (adcF ADC_CAL_BUSY bank) = 0 ∧ bitOf (t.get (adcF ADC_CAL_LASTOK bank)) (s.get (adcF ADC_CAL_SLICE bank)) = false ∧
          (t.bank bank).retry = some (s.get (adcF ADC_CAL_SLICE bank)) ∧ t.statusOf (adcPage bank) ADC_ST_CALRETRY = true ∧
          FrameE [adcPage bank, PG_EVQ] s t) ∧
    (∀ (s : State) (bank : Fin 4) (m : CalMeas),
      s.Quiet ∧ s.dev.pll = true ∧ s.on (adcF ADC_CAL_BUSY bank) = true ∧ (s.bank bank).sweeping = false ∧
        s.get (adcF ADC_CAL_SLICE bank) < 5 ∧ (calPass m = false ∨ s.injOn (adcPage bank) 2 = true) ∧
        (s.bank bank).retry = some (s.get (adcF ADC_CAL_SLICE bank)) →
      Completes (.calDone bank m) s fun t =>
        t.get (adcF ADC_CAL_BUSY bank) = 0 ∧ bitOf (t.get (adcF ADC_CAL_LASTOK bank)) (s.get (adcF ADC_CAL_SLICE bank)) = false ∧
          (t.bank bank).retry = none ∧ bitOf (t.get (adcF ADC_STATE_RETIRED bank)) (s.get (adcF ADC_CAL_SLICE bank)) = true ∧
          t.errOf (adcPage bank) ADC_ERR_CALFAIL = true ∧ bitOf (t.hdr (adcPage bank) hdrRAW) ADC_ST_NOSPARE = true ∧
          FrameE [adcPage bank, PG_EVQ] s t) ∧
    (∀ (s : State) (bank : Fin 4) (m : CalMeas),
      s.Quiet ∧ (s.dev.pll = false ∨ s.on (adcF ADC_CAL_BUSY bank) = false ∨ s.get (adcF ADC_CAL_SLICE bank) = 7) →
      Completes (.calDone bank m) s fun t =>
        FrameE [] s t) ∧
    (∀ (s : State) (m : Master) (bank : Fin 4) (bgen : Bool),
      s.accepts m = true ∧ hostMaster m = true ∧ s.Quiet ∧ (∀ c : Fin 4, s.on (adcF ADC_CAL_BUSY c) = true) →
      Completes (.calSweep m bank bgen) s fun t =>
        t.get DEV_LONGOP_RUN = 5 ∧ t.busy = true ∧ (∀ c : Fin 4, t.get (adcF ADC_CAL_CTRL_SWEEP c) = 1 ∧
          t.get (adcF ADC_STATE_SWEEP c) = 1 ∧ (t.bank c).sweeping = true) ∧ t.get (adcF ADC_CAL_CTRL_BGEN bank) = b2n bgen ∧
          FrameE [PG_DEV, PG_ADC, PG_ADC + 1, PG_ADC + 2, PG_ADC + 3] s t) ∧
    (∀ (s : State) (m : Master) (bank : Fin 4) (bgen : Bool),
      s.accepts m = true ∧ hostMaster m = true ∧ s.Quiet ∧ s.busy = false ∧ (∀ c : Fin 4, s.on (adcF ADC_CAL_BUSY c) = false ∧
        (s.bank c).retry = none ∧ s.get (adcF ADC_STATE_RETIRED c) = 0 ∧ s.get (adcF ADC_STATE_SPARE c) ≠ 7 ∧ s.get (adcPos c 0) ≠ 7) →
      Completes (.calSweep m bank bgen) s fun t =>
        t.get DEV_LONGOP_RUN = 5 ∧ t.busy = true ∧ (∀ c : Fin 4, t.get (adcF ADC_CAL_CTRL_SWEEP c) = 1 ∧
          t.get (adcF ADC_STATE_SWEEP c) = 1 ∧ (t.bank c).sweeping = true ∧ t.get (adcF ADC_CAL_BUSY c) = 1 ∧
          t.get (adcF ADC_CAL_SLICE c) = s.get (adcPos c 0) ∧ t.get (adcPos c 0) = s.get (adcF ADC_STATE_SPARE c) ∧
          t.get (adcF ADC_STATE_SPARE c) = 7) ∧ t.get (adcF ADC_CAL_CTRL_BGEN bank) = b2n bgen ∧
          FrameE [PG_DEV, PG_ADC, PG_ADC + 1, PG_ADC + 2, PG_ADC + 3, PG_EVQ] s t) ∧
    (∀ (s : State) (m : Master) (bank : Fin 4) (w : Nat) (r : List Nat),
      s.accepts m = true ∧ s.injOn (adcPage bank) 0 = false ∧ (s.bank bank).fifo = w :: r →
      Completes (.fifoRead m bank) s fun t =>
        t.answer = [w] ∧ (t.bank bank).fifo = r ∧ t.get (adcF ADC_FIFO_STAT_LEVEL bank) = r.length % 2 ^ ADC_FIFO_STAT_LEVEL.w ∧
          Frame [adcPage bank, PG_EVQ] s t) ∧
    (∀ (s : State) (m : Master) (bank : Fin 4),
      s.accepts m = true ∧ s.injOn (adcPage bank) 0 = false ∧ (s.bank bank).fifo = [] →
      Completes (.fifoRead m bank) s fun t =>
        t.answer = [0] ∧ t.adc = s.adc ∧ Frame [] s t) ∧
    (∀ (s : State) (m : Master) (bank : Fin 4) (thr : BitVec 7),
      s.accepts m = true ∧ hostMaster m = true →
      Completes (.fifoClear m bank thr) s fun t =>
        (t.bank bank).fifo = [] ∧ t.get (adcF ADC_FIFO_STAT_LEVEL bank) = 0 ∧ t.get (adcF ADC_FIFO_CFG_THR bank) = thr.toNat ∧
          Frame [PG_DEV, adcPage bank] s t)

/-- A crossing beyond the threshold of an enabled comparator outside blanking sets its state and acts: but for those of diode emulation it idles
its output when it trips, holds when it latches or kills, and reports its error when it reports; inside blanking it sets its state alone; a
return past the hysteresis clears the state and the raw level; the end of blanking acts on a crossing still there; a write to HOLD releases
the holds whose comparator is released and no others; a tick makes the monitors of the mode due and a sample of a monitor in operation
inside the thresholds enters the filter as inside; a read of a capture clears its VALID. (R131 of spec/06_comparators.md, R132 of
spec/06_comparators.md, R133 of spec/06_comparators.md, R136 of spec/06_comparators.md, R137 of spec/06_comparators.md, R138 of
spec/06_comparators.md.) -/
def Obligations.Comparators : Prop :=
  (∀ (s : State) (k : Fin 32) (uv : Int) (e0 e1 : Option Nat),
      s.Quiet ∧ s.loopOn = true ∧ s.on (tcfg CMP_TCFG_EN k.val) = true ∧ s.on (cmpTState k.val) = false ∧ s.cmpBeyond k.val uv = true ∧
        (s.cmpWindow k.val 0 e0 || s.cmpWindow k.val 1 e1) = false ∧ (k.val < 18 ∨ k.val = 20 ∨ k.val = 21) →
      Completes (.tripComparatorTrip k uv e0 e1) s fun t =>
        t.on (cmpTState k.val) = true ∧ bitOf t.cmp.acted k.val = true ∧ bitOf (t.hdr PG_CMP hdrRAW) k.val = true ∧
          bitOf t.cmp.acted k.val = true ∧ (s.on (tcfg CMP_TCFG_TRIP k.val) = true → bitOf t.cmp.idle k.val = true) ∧
          t.on (cmpHold k.val) = (s.on (cmpHold k.val) || s.on (tcfg CMP_TCFG_TRIP k.val) && s.on (tcfg CMP_TCFG_LATCH k.val) || s.on (tcfg CMP_TCFG_KILL k.val)) ∧
          (s.on (tcfg CMP_TCFG_ERRL k.val) = true → t.errOf PG_CMP CMP_ERR_TRIP = true) ∧ FrameE [PG_CMP, PG_EVQ] s t) ∧
    (∀ (s : State) (k : Fin 32) (uv : Int) (e0 e1 : Option Nat),
      s.Quiet ∧ s.loopOn = true ∧ s.on (tcfg CMP_TCFG_EN k.val) = true ∧ s.on (cmpTState k.val) = false ∧ s.cmpBeyond k.val uv = true ∧
        (s.cmpWindow k.val 0 e0 || s.cmpWindow k.val 1 e1) = false ∧ (k.val = 18 ∨ k.val = 19 ∨ k.val = 22) →
      Completes (.tripComparatorTrip k uv e0 e1) s fun t =>
        t.on (cmpTState k.val) = true ∧ bitOf t.cmp.acted k.val = true ∧ bitOf (t.hdr PG_CMP hdrRAW) k.val = true ∧
          t.cmp.idle = s.cmp.idle ∧ t.on (cmpHold k.val) = s.on (cmpHold k.val) ∧ FrameE [PG_CMP, PG_EVQ] s t) ∧
    (∀ (s : State) (k : Fin 32) (uv : Int) (e0 e1 : Option Nat),
      s.Quiet ∧ s.loopOn = true ∧ s.on (tcfg CMP_TCFG_EN k.val) = true ∧ s.on (cmpTState k.val) = false ∧ s.cmpBeyond k.val uv = true ∧
        (s.cmpWindow k.val 0 e0 || s.cmpWindow k.val 1 e1) = false ∧ 23 ≤ k.val ∧ k.val ≠ 22 →
      Completes (.tripComparatorTrip k uv e0 e1) s fun t =>
        t.on (cmpTState k.val) = true ∧ bitOf t.cmp.acted k.val = true ∧ bitOf (t.hdr PG_CMP hdrRAW) k.val = true ∧
          bitOf t.cmp.acted k.val = true ∧ (s.on (tcfg CMP_TCFG_TRIP k.val) = true → bitOf t.cmp.idle k.val = true) ∧
          t.on (cmpHold k.val) = (s.on (cmpHold k.val) || s.on (tcfg CMP_TCFG_TRIP k.val) && s.on (tcfg CMP_TCFG_LATCH k.val) || s.on (tcfg CMP_TCFG_KILL k.val)) ∧
          (s.on (tcfg CMP_TCFG_ERRL k.val) = true → t.errOf PG_CMP CMP_ERR_TRIP = true) ∧ MemBut 0x1C4F00 32 s t ∧ t.mode = s.mode) ∧
    (∀ (s : State) (k : Fin 32) (uv : Int) (e0 e1 : Option Nat),
      s.Quiet ∧ s.loopOn = true ∧ s.on (tcfg CMP_TCFG_EN k.val) = true ∧ s.on (cmpTState k.val) = false ∧ s.cmpBeyond k.val uv = true ∧
        (s.cmpWindow k.val 0 e0 || s.cmpWindow k.val 1 e1) = true →
      Completes (.tripComparatorTrip k uv e0 e1) s fun t =>
        t.on (cmpTState k.val) = true ∧ bitOf t.cmp.blanked k.val = true ∧ t.cmp.idle = s.cmp.idle ∧ FrameE [PG_CMP] s t) ∧
    (∀ (s : State) (k : Fin 32) (uv : Int) (e0 e1 : Option Nat),
      s.Quiet ∧ (s.loopOn = false ∨ s.on (tcfg CMP_TCFG_EN k.val) = false ∨ (s.on (cmpTState k.val) = false ∧
        s.cmpBeyond k.val uv = false) ∨ (s.on (cmpTState k.val) = true ∧ (s.cmpWindow k.val 0 e0 || s.cmpWindow k.val 1 e1) = false)) →
      Completes (.tripComparatorTrip k uv e0 e1) s fun t =>
        t.cmp = s.cmp ∧ FrameE [] s t) ∧
    (∀ (s : State) (k : Fin 32) (uv : Int),
      s.on (cmpTState k.val) = true ∧ s.cmpReturned k.val uv = true →
      Completes (.tripComparatorRelease k uv) s fun t =>
        t.on (cmpTState k.val) = false ∧ bitOf (t.hdr PG_CMP hdrRAW) k.val = false ∧ bitOf t.cmp.blanked k.val = false ∧ (24 ≤ k.val →
          bitOf t.cmp.idle k.val = false) ∧ Frame [PG_CMP] s t) ∧
    (∀ (s : State) (k : Fin 32) (uv : Int),
      s.on (cmpTState k.val) = false ∨ s.cmpReturned k.val uv = false →
      Completes (.tripComparatorRelease k uv) s fun t =>
        t = s.begin) ∧
    (∀ (s : State) (k : Fin 32),
      s.Quiet ∧ bitOf s.cmp.blanked k.val = true ∧ s.on (cmpTState k.val) = true ∧ (k.val < 18 ∨ k.val = 20 ∨ k.val = 21) →
      Completes (.blankingWindowEnd k) s fun t =>
        bitOf t.cmp.blanked k.val = false ∧ bitOf t.cmp.acted k.val = true ∧ bitOf (t.hdr PG_CMP hdrRAW) k.val = true ∧
          bitOf t.cmp.acted k.val = true ∧ (s.on (tcfg CMP_TCFG_TRIP k.val) = true → bitOf t.cmp.idle k.val = true) ∧
          t.on (cmpHold k.val) = (s.on (cmpHold k.val) || s.on (tcfg CMP_TCFG_TRIP k.val) && s.on (tcfg CMP_TCFG_LATCH k.val) || s.on (tcfg CMP_TCFG_KILL k.val)) ∧
          (s.on (tcfg CMP_TCFG_ERRL k.val) = true → t.errOf PG_CMP CMP_ERR_TRIP = true) ∧ FrameE [PG_CMP, PG_EVQ] s t) ∧
    (∀ (s : State) (k : Fin 32),
      s.Quiet ∧ bitOf s.cmp.blanked k.val = true ∧ s.on (cmpTState k.val) = true ∧ (k.val = 18 ∨ k.val = 19 ∨ k.val = 22) →
      Completes (.blankingWindowEnd k) s fun t =>
        bitOf t.cmp.blanked k.val = false ∧ bitOf t.cmp.acted k.val = true ∧ bitOf (t.hdr PG_CMP hdrRAW) k.val = true ∧
          t.cmp.idle = s.cmp.idle ∧ t.on (cmpHold k.val) = s.on (cmpHold k.val) ∧ FrameE [PG_CMP, PG_EVQ] s t) ∧
    (∀ (s : State) (k : Fin 32),
      s.Quiet ∧ bitOf s.cmp.blanked k.val = true ∧ s.on (cmpTState k.val) = true ∧ 23 ≤ k.val →
      Completes (.blankingWindowEnd k) s fun t =>
        bitOf t.cmp.blanked k.val = false ∧ bitOf t.cmp.acted k.val = true ∧ bitOf (t.hdr PG_CMP hdrRAW) k.val = true ∧
          bitOf t.cmp.acted k.val = true ∧ (s.on (tcfg CMP_TCFG_TRIP k.val) = true → bitOf t.cmp.idle k.val = true) ∧
          t.on (cmpHold k.val) = (s.on (cmpHold k.val) || s.on (tcfg CMP_TCFG_TRIP k.val) && s.on (tcfg CMP_TCFG_LATCH k.val) || s.on (tcfg CMP_TCFG_KILL k.val)) ∧
          (s.on (tcfg CMP_TCFG_ERRL k.val) = true → t.errOf PG_CMP CMP_ERR_TRIP = true) ∧ MemBut 0x1C4F00 32 s t ∧ t.mode = s.mode) ∧
    (∀ (s : State) (k : Fin 32),
      s.Quiet ∧ bitOf s.cmp.blanked k.val = false →
      Completes (.blankingWindowEnd k) s fun t =>
        t.cmp = s.cmp ∧ FrameE [] s t) ∧
    (∀ (s : State) (m : Master) (mask : Word),
      s.accepts m = true ∧ hostMaster m = true →
      Completes (.holdRelease m mask) s fun t =>
        (∀ k : Fin 32, t.on (cmpHold k.val) = (s.on (cmpHold k.val) && !(bitOf mask.toNat k.val && !s.on (cmpTState k.val)))) ∧
          (∀ k : Fin 32, s.on (cmpHold k.val) = true → bitOf mask.toNat k.val = true → s.on (cmpTState k.val) = false →
          bitOf t.cmp.idle k.val = decide (k.val < 24)) ∧ Frame [PG_DEV, PG_CMP] s t) ∧
    (∀ (s : State),
      Completes (.windowTick) s fun t =>
        (∀ n : Fin 16, bitOf t.cmp.due n.val = s.monSampled n.val) ∧ t.cmp.mons = s.cmp.mons ∧ Frame [] s t) ∧
    (∀ (s : State) (n : Fin 16) (uv : Int),
      s.mode = .run ∧ (s.monContinuous n.val = true ∨ (bitOf s.cmp.due n.val = true ∧ s.monSampled n.val = true)) ∧
        (s.cmp.mons[n]).inj = 0 ∧ s.get (CMP_WTHR_LO.el n) ≤ s.get (CMP_WTHR_HI.el n) ∧ s.monSide n.val (s.cmp.mons[n]).last uv = 0 →
      Completes (.windowSample n uv) s fun t =>
        (t.cmp.mons[n]).hist = (true :: (s.cmp.mons[n]).hist).take (monKM (s.on (CMP_WCFG_FILT.el n))).2 ∧
          (t.cmp.mons[n]).side = (s.cmp.mons[n]).side ∧ bitOf t.cmp.due n.val = false ∧ t.mode = s.mode) ∧
    (∀ (s : State) (n : Fin 16) (uv : Int),
      s.Quiet ∧ s.monContinuous n.val = false ∧ (bitOf s.cmp.due n.val = false ∨ s.monSampled n.val = false) →
      Completes (.windowSample n uv) s fun t =>
        t.cmp = s.cmp ∧ FrameE [] s t) ∧
    (∀ (s : State) (m : Master) (n : Fin 16),
      s.accepts m = true ∧ s.injOn PG_CMP 0 = false →
      Completes (.wcapHiRead m n) s fun t =>
        t.answer = [(s.rd (hdrAddr PG_CMP (0x1C4 + 8 * n.val))).toNat] ∧
          t.rd (hdrAddr PG_CMP (0x1C4 + 8 * n.val)) = s.rd (hdrAddr PG_CMP (0x1C4 + 8 * n.val)) &&& 0x7FFFFFFF ∧ Frame [PG_CMP] s t)

/-- ENUMERATE of an idle link with modules forgets its nodes and starts with the clear, and of one without modules ends at once with code 0;
MEASURE pings its first reachable node; SEND sends its template in loop operation, and is rejected while the engine is not idle; the first
of two returns awaited leaves the engine waiting for the other, and a good one that a slot's frame awaits last ends a command that expects
no segment; a return that is not awaited changes nothing; a window that closes without the return retries a slot's frame while a retry is
left and fits, and otherwise ends it; a link goes stale after T_STALE rounds, once no retry is in progress; a deselection is retried up to 3
times and ends; SELOVR takes its node as open. The other links keep their engines. (R151 of spec/07_string_links.md, R153 of
spec/07_string_links.md, R163 of spec/07_string_links.md, R157 of spec/07_string_links.md, R160 of spec/07_string_links.md, R164 of
spec/07_string_links.md, R170 of spec/07_string_links.md.) -/
def Obligations.StringLinks : Prop :=
  (∀ (s : State) (m : Master) (n : Fin 16) (key : BitVec 16),
      s.accepts m = true ∧ hostMaster m = true ∧ key = 0x5C1E ∧ (s.lk n).phase = .idle ∧ (s.lk n).ended = none ∧ s.modules n ≠ 0 →
      Completes (.linkEnumerate m n key) s fun t =>
        (t.lk n).phase = .clear ∧ (t.lk n).why = .enumeration ∧ (t.lk n).inOp = true ∧ (t.lk n).nodes = [] ∧ (t.lk n).cmd.typ = 1 ∧
          (∀ k : Fin 16, k ≠ n → t.lk k = s.lk k)) ∧
    (∀ (s : State) (m : Master) (n : Fin 16) (key : BitVec 16),
      s.accepts m = true ∧ hostMaster m = true ∧ (key ≠ 0x5C1E ∨ (s.lk n).phase ≠ .idle) ∧ (s.lk n).ended = none →
      Completes (.linkEnumerate m n key) s fun t =>
        t.link = s.link) ∧
    (∀ (s : State) (m : Master) (n : Fin 16) (key : BitVec 16),
      s.accepts m = true ∧ hostMaster m = true ∧ key = 0x5C1E ∧ (s.lk n).phase = .idle ∧ (s.lk n).ended = none ∧ s.modules n = 0 →
      Completes (.linkEnumerate m n key) s fun t =>
        t.get (SLINK_ENUM_RES_CODE.at n) = 0 ∧ t.get (SLINK_STATE_USABLE.at n) = 0 ∧ (t.lk n).phase = .idle ∧
          (t.lk n).tx = (s.lk n).tx ∧ (t.lk n).nodes = [] ∧ t.statusOf (PG_SLINK + n.val) SLINK_ST_ENUMDONE = true ∧
          (∀ k : Fin 16, k ≠ n → t.lk k = s.lk k)) ∧
    (∀ (s : State) (m : Master) (n : Fin 16) (key : BitVec 16) (k : Nat) (r : List Nat),
      s.reachable n = k :: r →
      s.accepts m = true ∧ hostMaster m = true ∧ key = 0x5C1E ∧ (s.lk n).phase = .idle ∧ (s.lk n).ended = none ∧ s.usable n = true →
      Completes (.linkMeasure m n key) s fun t =>
        (t.lk n).phase = .ping ∧ (t.lk n).why = .measure ∧ (t.lk n).pos = k ∧ (t.lk n).todo = r ∧ (∀ k : Fin 16, k ≠ n →
          t.lk k = s.lk k)) ∧
    (∀ (s : State) (m : Master) (n : Fin 16) (key : BitVec 16),
      s.accepts m = true ∧ hostMaster m = true ∧ (key ≠ 0x5C1E ∨ (s.lk n).phase ≠ .idle ∨ s.usable n = false) ∧ (s.lk n).ended = none →
      Completes (.linkMeasure m n key) s fun t =>
        t.link = s.link) ∧
    (∀ (s : State) (m : Master) (n : Fin 16) (key : BitVec 16) (template : BitVec 5),
      s.accepts m = true ∧ hostMaster m = true ∧ key = 0x5C1E ∧ (s.lk n).phase = .idle ∧ s.usable n = true ∧ s.twoArmed n = false ∧
        2 ≤ (s.linkTemplate n .host template.toNat 0x3F).typ ∧ (s.linkTemplate n .host template.toNat 0x3F).typ ≤ 5 ∧
        s.linkBeyond n template.toNat (s.linkTemplate n .host template.toNat 0x3F) = false ∧
        (s.linkTemplate n .host template.toNat 0x3F).payload.length ≤ linkMost ∧ ((s.linkTemplate n .host template.toNat 0x3F).bc = true ∨
        (s.linkTemplate n .host template.toNat 0x3F).addr = 0x3F ∨
        s.nodeReach n (s.linkTemplate n .host template.toNat 0x3F).addr = true) →
      Completes (.linkSend m n key template) s fun t =>
        (t.lk n).phase = .frame ∧ (t.lk n).seq = ((s.lk n).seq + 1) % 16 ∧
          (t.lk n).cmd.typ = (s.linkTemplate n .host template.toNat 0x3F).typ ∧
          (t.lk n).cmd.addr = (s.linkTemplate n .host template.toNat 0x3F).addr ∧ (t.lk n).cmd.source = .host ∧
          (t.lk n).cmd.waitB = true ∧ (∀ k : Fin 16, k ≠ n → t.lk k = s.lk k)) ∧
    (∀ (s : State) (m : Master) (n : Fin 16) (key : BitVec 16) (template : BitVec 5),
      s.accepts m = true ∧ hostMaster m = true ∧ key = 0x5C1E ∧ (s.lk n).phase ≠ .idle ∧ (s.lk n).ended = none ∧ s.Quiet ∧
        s.balCur n = 0 →
      Completes (.linkSend m n key template) s fun t =>
        t.statusOf (PG_SLINK + n.val) SLINK_ST_HREJ = true ∧ t.link = s.link ∧ FrameE [PG_DEV, PG_SLINK + n.val, PG_EVQ] s t) ∧
    (∀ (s : State) (n : Fin 16) (rt : Nat) (bytes : List Byte) (fits : Bool),
      (s.lk n).phase = .frame ∧ (s.lk n).cmd.waitA = true ∧ (s.lk n).cmd.waitB = true ∧ (s.lk n).ended = none ∧
        s.injOn (linkPage n) 2 = false ∧ s.injOn (linkPage n) 1 = false ∧
        s.inWindow n false ((s.lk n).tx.any fun f => f.pairB == false && bitOf f.hdr 16) rt = true →
      Completes (.linkReturn n false rt bytes fits) s fun t =>
        (t.lk n).phase = .frame ∧ (t.lk n).cmd.waitA = false ∧ (t.lk n).cmd.waitB = true ∧ (t.lk n).cmd.anyReturn = true ∧
          (∀ k : Fin 16, k ≠ n → t.lk k = s.lk k)) ∧
    (∀ (s : State) (n : Fin 16) (rt : Nat) (bytes : List Byte) (fits : Bool),
      (s.lk n).phase = .frame ∧ (s.lk n).cmd.waitA = false ∧ (s.lk n).cmd.waitB = true ∧ (s.lk n).cmd.bad = false ∧
        (s.lk n).cmd.nak = false ∧ (s.lk n).ended = none ∧ (s.lk n).cmd.typ ≠ 3 ∧ (s.lk n).cmd.source = .slot ∧
        s.injOn (linkPage n) 2 = false ∧ s.injOn (linkPage n) 1 = false ∧
        s.inWindow n true ((s.lk n).tx.any fun f => f.pairB == true && bitOf f.hdr 16) rt = true ∧
        linkParse (s.lk n).cmd.typ (s.lk n).cmd.fetch bytes = (true, []) ∧ s.expectedNodes n (s.lk n).cmd = [] →
      Completes (.linkReturn n true rt bytes fits) s fun t =>
        (t.lk n).phase = .idle ∧ (t.lk n).tx = [] ∧ (∀ k : Fin 16, k ≠ n → t.lk k = s.lk k)) ∧
    (∀ (s : State) (n : Fin 16) (pairB : Bool) (rt : Nat) (bytes : List Byte) (fits : Bool),
      ((s.lk n).phase = .idle ∨ (if pairB then (s.lk n).cmd.waitB else (s.lk n).cmd.waitA) = false) ∧ (s.lk n).ended = none →
      Completes (.linkReturn n pairB rt bytes fits) s fun t =>
        t.link = s.link ∧ (s.Calm → t.mode = s.mode)) ∧
    (∀ (s : State) (n : Fin 16) (fits : Bool),
      (fits = false ∨ min 2 (s.get (SLINK_TIMING_RETRY.at n)) ≤ (s.lk n).cmd.retries) ∧ (s.on (SLINK_CFG_ARMS.at n) = false ∨
        (s.lk n).cmd.anyReturn = true) ∧ (s.lk n).phase = .frame ∧ ((s.lk n).cmd.waitA = true ∨ (s.lk n).cmd.waitB = true) ∧
        (s.lk n).ended = none ∧ (s.lk n).cmd.nak = false ∧ (s.lk n).cmd.noRetry = false ∧ (s.lk n).cmd.source = .slot ∧
        (s.lk n).cmd.typ ≠ 3 →
      Completes (.returnWindowClose n fits) s fun t =>
        (t.lk n).phase = .idle ∧ (t.lk n).tx = [] ∧ (∀ k : Fin 16, k ≠ n → t.lk k = s.lk k)) ∧
    (∀ (s : State) (n : Fin 16),
      (s.lk n).cmd.retries < min 2 (s.get (SLINK_TIMING_RETRY.at n)) ∧ s.twoArmed n = false ∧ (s.lk n).phase = .frame ∧
        ((s.lk n).cmd.waitA = true ∨ (s.lk n).cmd.waitB = true) ∧ (s.lk n).ended = none ∧ (s.lk n).cmd.nak = false ∧
        (s.lk n).cmd.noRetry = false ∧ (s.lk n).cmd.source = .slot ∧ (s.lk n).cmd.typ ≠ 3 →
      Completes (.returnWindowClose n true) s fun t =>
        (t.lk n).phase = .frame ∧ (t.lk n).cmd.retries = (s.lk n).cmd.retries + 1 ∧ (t.lk n).cmd.waitB = true ∧ (∀ k : Fin 16, k ≠ n →
          t.lk k = s.lk k)) ∧
    (∀ (s : State) (n : Fin 16) (fits : Bool),
      (s.lk n).cmd.waitA = false ∧ (s.lk n).cmd.waitB = false ∧ (s.lk n).ended = none →
      Completes (.returnWindowClose n fits) s fun t =>
        t.link = s.link) ∧
    (∀ (s : State) (n : Fin 16),
      (s.lk n).stale = false ∧ s.modules n ≠ 0 ∧ s.get (SLINK_STALE_T_STALE.at n) ≤ (s.lk n).rounds ∧ ((s.lk n).phase ≠ .frame ∨
        (s.lk n).cmd.retries = 0) ∧ (s.lk n).ended = none →
      Completes (.linkStale n) s fun t =>
        t.lk n = { s.lk n with stale := true, staleDue := false } ∧ (∀ k : Fin 16, k ≠ n → t.lk k = s.lk k)) ∧
    (∀ (s : State) (n : Fin 16),
      (s.lk n).stale = false ∧ s.modules n ≠ 0 ∧ s.get (SLINK_STALE_T_STALE.at n) ≤ (s.lk n).rounds ∧ (s.lk n).phase = .frame ∧
        0 < (s.lk n).cmd.retries ∧ (s.lk n).ended = none →
      Completes (.linkStale n) s fun t =>
        t.lk n = { s.lk n with staleDue := true } ∧ (∀ k : Fin 16, k ≠ n → t.lk k = s.lk k)) ∧
    (∀ (s : State) (n : Fin 16),
      ((s.lk n).stale = true ∨ s.modules n = 0 ∨ (s.lk n).rounds < s.get (SLINK_STALE_T_STALE.at n)) ∧ (s.lk n).ended = none →
      Completes (.linkStale n) s fun t =>
        t.link = s.link) ∧
    (∀ (s : State) (n : Fin 16),
      (s.lk n).phase = .desel ∧ ((s.lk n).todo = [] ∨ 3 ≤ (s.lk n).tries) ∧ (s.lk n).ended = none →
      Completes (.deselectRetry n) s fun t =>
        (t.lk n).phase = .idle ∧ (t.lk n).todo = [] ∧ (t.lk n).tries = 0 ∧ (∀ k : Fin 16, k ≠ n → t.lk k = s.lk k)) ∧
    (∀ (s : State) (n : Fin 16) (k : Nat),
      (s.lk n).phase = .desel ∧ (s.lk n).todo = [k] ∧ (s.lk n).tries < 3 ∧ (s.lk n).ended = none →
      Completes (.deselectRetry n) s fun t =>
        (t.lk n).phase = .desel ∧ (t.lk n).tries = (s.lk n).tries + 1 ∧ (t.lk n).cmd.typ = 7 ∧ (t.lk n).cmd.addr = k ∧
          (∀ k : Fin 16, k ≠ n → t.lk k = s.lk k)) ∧
    (∀ (s : State) (n : Fin 16),
      (s.lk n).phase ≠ .desel ∧ (s.lk n).ended = none →
      Completes (.deselectRetry n) s fun t =>
        t.link = s.link) ∧
    (∀ (s : State) (m : Master) (n : Fin 16) (key : BitVec 16) (node : BitVec 6),
      s.accepts m = true ∧ hostMaster m = true ∧ key = 0x0D5E ∧ 1 ≤ node.toNat ∧ node.toNat ≤ 40 ∧ (s.lk n).ended = none →
      Completes (.selovr m n key node) s fun t =>
        (s.sel n node.toNat ≠ 0 → node.toNat ∉ (t.lk n).closed) ∧ (t.lk n).phase = (s.lk n).phase ∧ (s.Quiet → t.sel n node.toNat = 0) ∧
          (∀ k : Fin 16, k ≠ n → t.lk k = s.lk k)) ∧
    (∀ (s : State) (m : Master) (n : Fin 16) (key : BitVec 16) (node : BitVec 6),
      s.accepts m = true ∧ hostMaster m = true ∧ (key ≠ 0x0D5E ∨ 40 < node.toNat) ∧ (s.lk n).ended = none →
      Completes (.selovr m n key node) s fun t =>
        t.link = s.link)

/-- In RUN, RIDE, SAFE and SERVICE an accumulation step counts the pack's charge and discharge; a string current reading of a tracked string,
with no window to compare it with and out of fallback, is put into its record; a word of the store room takes the value written; a clear of
the store room, a flush and a flush that retires a module start long operations 4 and 8; the hourly flush waits while another runs; START of
a tone clears its sums and starts it, and reports BADTONE for one that is not valid. (R179 of spec/08_charge_tracking.md, R187 of
spec/08_charge_tracking.md, R209 of spec/08_charge_tracking.md, R46 of spec/02_register_pages.md, R220 of spec/09_reported_state_health.md,
R227 of spec/09_reported_state_health.md.) -/
def Obligations.TrackingAndHealth : Prop :=
  (∀ (s : State),
      (s.mode = .run ∨ s.mode = .ride ∨ s.mode = .safe ∨ s.mode = .service) ∧ (∀ n : Fin 16, s.tracked n = false) →
      Completes (.accumulationStep) s fun t =>
        t.pack.disMas = (s.pack.disMas + (-(s.getI PACK_ROUNDQ_Q)).toNat) % 3600000 ∧
          t.load (packRec + 8) 6 = ofSigned 48 (s.loadI (packRec + 8) 6 + s.getI PACK_ROUNDQ_Q) ∧ RegsBut [] s t ∧ t.mode = s.mode) ∧
    (∀ (s : State),
      (s.mode = .run ∨ s.mode = .ride ∨ s.mode = .safe ∨ s.mode = .service) →
      Completes (.accumulationStep) s fun t =>
        t.pack.disMas = (s.pack.disMas + (-(s.getI PACK_ROUNDQ_Q)).toNat) % 3600000 ∧
          t.load (packRec + 8) 6 = ofSigned 48 (s.loadI (packRec + 8) 6 + s.getI PACK_ROUNDQ_Q) ∧ t.mode = s.mode) ∧
    (∀ (s : State),
      ¬(s.mode = .run ∨ s.mode = .ride ∨ s.mode = .safe ∨ s.mode = .service) →
      Completes (.accumulationStep) s fun t =>
        t = s.begin) ∧
    (∀ (s : State) (n : Fin 16),
      s.tracked n = true ∧ s.mode.counts = true ∧ (s.lk n).stale = false ∧
        bitsOf ((s.rd ((PG_ADC + 3) * 0x400 + 0x300 + 4 * (16 * s.get (estF EST_WINSRC_ISEQ n) + s.get (estF EST_WINSRC_IENT n)))).toNat) 12 3 ≠ 7 ∧
        s.inFallback n = false ∧ (s.es n).wins = [] ∧ (s.es n).readings = [] →
      Completes (.istrReading n) s fun t =>
        t.load (strAddr n + 0x20) 4 = ofSigned 32 (s.istr n (bitsOf ((s.rd ((PG_ADC + 3) * 0x400 + 0x300 + 4 * (16 * s.get (estF EST_WINSRC_ISEQ n) + s.get (estF EST_WINSRC_IENT n)))).toNat) 0 12)) ∧
          MemBut (strAddr n + 0x20) 4 s t ∧ RegsBut [] s t ∧ t.mode = s.mode) ∧
    (∀ (s : State) (n : Fin 16),
      s.tracked n = false ∨ s.mode.counts = false ∨ (s.lk n).stale = false ∧
        bitsOf ((s.rd ((PG_ADC + 3) * 0x400 + 0x300 + 4 * (16 * s.get (estF EST_WINSRC_ISEQ n) + s.get (estF EST_WINSRC_IENT n)))).toNat) 12 3 = 7 →
      Completes (.istrReading n) s fun t =>
        t = s.begin) ∧
    (∀ (s : State) (m : Master) (addr : BitVec 24) (v : Word),
      s.accepts m = true ∧ hostMaster m = true ∧ s.Quiet ∧ addr.toNat % 4 = 0 ∧ 0x100000 ≤ addr.toNat ∧ addr.toNat < 0x180000 →
      Completes (.recordWrite m addr v) s fun t =>
        t.load addr.toNat 4 = v.toNat ∧ MemBut addr.toNat 4 s t ∧ RegsButE [] s t ∧ t.mode = s.mode) ∧
    (∀ (s : State) (m : Master) (key : BitVec 16),
      s.accepts m = true ∧ hostMaster m = true ∧ s.Quiet ∧ key = 0x57C1 →
      Completes (.storeRoomClearAll m key) s fun t =>
        t.op = some (.clear none) ∧ t.get DEV_LONGOP_RUN = 4 ∧ t.busy = true ∧ FrameE [PG_DEV, PG_EST] s t) ∧
    (∀ (s : State) (m : Master) (key : BitVec 16),
      s.accepts m = true ∧ hostMaster m = true ∧ s.Quiet ∧ key ≠ 0x57C1 →
      Completes (.storeRoomClearAll m key) s fun t =>
        t.op = s.op ∧ t.get DEV_LONGOP_RUN = s.get DEV_LONGOP_RUN ∧ FrameE [PG_DEV, PG_EST] s t) ∧
    (∀ (s : State) (m : Master) (key : BitVec 16) (n : Fin 16),
      s.accepts m = true ∧ hostMaster m = true ∧ s.Quiet ∧ key = 0x57C1 →
      Completes (.storeRoomClearString m key n) s fun t =>
        t.op = some (.clear (some n)) ∧ t.get DEV_LONGOP_RUN = 4 ∧ t.busy = true ∧ FrameE [PG_DEV, PG_EST] s t) ∧
    (∀ (s : State) (m : Master) (key : BitVec 16) (n : Fin 16),
      s.accepts m = true ∧ hostMaster m = true ∧ s.Quiet ∧ key ≠ 0x57C1 →
      Completes (.storeRoomClearString m key n) s fun t =>
        t.op = s.op ∧ t.get DEV_LONGOP_RUN = s.get DEV_LONGOP_RUN ∧ FrameE [PG_DEV, PG_EST] s t) ∧
    (∀ (s : State) (m : Master) (n : Fin 16) (v : BitVec 31),
      s.accepts m = true ∧ hostMaster m = true ∧
        (s.tone (getBits (BitVec.ofNat 32 (0x80000000 + v.toNat)) HEALTH_PERTN_TONE.lo HEALTH_PERTN_TONE.w)).isSome = true →
      Completes (.toneStart m n v) s fun t =>
        t.get (HEALTH_PERTN_STATE.el n) = 1 ∧ t.get (HEALTH_PERTN_SETS.el n) = 0 ∧ (t.bs n).ovReq = true ∧
          MemBut (demodAddr n 0) 512 s t ∧ t.load (demodAddr n 0) 4 = 0 ∧ RegsBut [PG_DEV, PG_HEALTH, balPage n, PG_EVQ] s t ∧
          t.mode = s.mode) ∧
    (∀ (s : State) (m : Master) (n : Fin 16) (v : BitVec 31),
      s.accepts m = true ∧ hostMaster m = true ∧
        (s.tone (getBits (BitVec.ofNat 32 (0x80000000 + v.toNat)) HEALTH_PERTN_TONE.lo HEALTH_PERTN_TONE.w)) = none →
      Completes (.toneStart m n v) s fun t =>
        t.get (HEALTH_PERTN_STATE.el n) = 2 ∧ t.statusOf PG_HEALTH HEALTH_ST_BADTONE = true ∧
          Frame [PG_DEV, PG_HEALTH, balPage n, PG_EVQ] s t) ∧
    (∀ (s : State) (m : Master) (key : BitVec 16),
      s.accepts m = true ∧ hostMaster m = true ∧ s.Quiet ∧ key = 0x4EA1 →
      Completes (.healthFlush m key) s fun t =>
        t.op = some (.flush none) ∧ t.get DEV_LONGOP_RUN = 8 ∧ t.busy = true ∧ FrameE [PG_DEV, PG_HEALTH] s t) ∧
    (∀ (s : State) (m : Master) (key : BitVec 16),
      s.accepts m = true ∧ hostMaster m = true ∧ s.Quiet ∧ key ≠ 0x4EA1 →
      Completes (.healthFlush m key) s fun t =>
        t.op = s.op ∧ t.est = s.est ∧ FrameE [PG_DEV, PG_HEALTH] s t) ∧
    (∀ (s : State) (m : Master) (key : BitVec 16) (string : Fin 16) (module : BitVec 6),
      s.accepts m = true ∧ hostMaster m = true ∧ s.Quiet ∧ key = 0x4EA1 →
      Completes (.healthFlushRetire m key string module) s fun t =>
        t.op = some (.flush (some (string.val, module.toNat))) ∧ t.get DEV_LONGOP_RUN = 8 ∧ t.busy = true ∧
          FrameE [PG_DEV, PG_HEALTH] s t) ∧
    (∀ (s : State),
      (s.mode = .run ∨ s.mode = .ride ∨ s.mode = .safe ∨ s.mode = .service) ∧ s.busy = false ∧ s.Quiet →
      Completes (.hourlyFlush) s fun t =>
        t.op = some (.flush none) ∧ t.get DEV_LONGOP_RUN = 8 ∧ FrameE [PG_DEV] s t) ∧
    (∀ (s : State),
      (s.mode = .run ∨ s.mode = .ride ∨ s.mode = .safe ∨ s.mode = .service) ∧ s.busy = true ∧ s.Quiet →
      Completes (.hourlyFlush) s fun t =>
        t.op = s.op ∧ t.est.flushDue = true ∧ FrameE [] s t) ∧
    (∀ (s : State),
      ¬(s.mode = .run ∨ s.mode = .ride ∨ s.mode = .safe ∨ s.mode = .service) ∧ s.Quiet →
      Completes (.hourlyFlush) s fun t =>
        t.op = s.op ∧ FrameE [] s t) ∧
    (∀ (s : State) (m : Master) (key : BitVec 16) (string : Fin 16) (module : BitVec 6),
      s.accepts m = true ∧ hostMaster m = true ∧ s.Quiet ∧ key ≠ 0x4EA1 →
      Completes (.healthFlushRetire m key string module) s fun t =>
        t.op = s.op ∧ t.est = s.est ∧ FrameE [PG_DEV, PG_HEALTH] s t)

/-- At the boundary of a converter's period its PWM outputs use the phase and duty that were active over the unit's own period, a balancing
channel's at 50 % duty and the phase that was active while its references are low, and no other output changes; a POL and an LDO take what
RAIL senses into MEAS, and while they do not run nothing else changes. (R94 of spec/04_schedule_image.md, R95 of spec/04_schedule_image.md,
R236 of spec/10_balancing_channels.md, R238 of spec/10_balancing_channels.md.) -/
def Obligations.PeriodBoundaries : Prop :=
  (∀ (s : State) (n : Fin 16) (padsBad : Bool) (x : RailSense),
      Completes (.periodBoundary (.bal n) padsBad x) s fun t =>
        PwmSame [2 * n.val, 2 * n.val + 1] s t ∧ (t.pwmOut (2 * n.val)).period = s.balPeriod n ∧ (t.pwmOut (2 * n.val)).phase = 0 ∧
          (t.pwmOut (2 * n.val)).duty = s.balPeriod n / 2 ∧ (t.pwmOut (2 * n.val + 1)).period = s.balPeriod n ∧
          (t.pwmOut (2 * n.val + 1)).duty = s.balPeriod n / 2 ∧ ((s.bs n).refs = false ∧ s.balCode n ≠ 4 →
          (t.pwmOut (2 * n.val + 1)).phase = (s.pwmOut (2 * n.val + 1)).acPhase) ∧ t.adc = s.adc ∧ t.inp = s.inp ∧ (s.Calm →
          t.mode = s.mode ∧ t.rail = s.rail)) ∧
    (∀ (s : State) (padsBad : Bool) (x : RailSense),
      Completes (.periodBoundary .pack padsBad x) s fun t =>
        PwmTaken [34, 35] s.packTsw s t ∧ t.adc = s.adc ∧ t.bal = s.bal ∧ t.link = s.link ∧ MemSame s t ∧ (s.Calm → t.mode = s.mode)) ∧
    (∀ (s : State) (padsBad : Bool) (x : RailSense),
      Completes (.periodBoundary .svc padsBad x) s fun t =>
        PwmTaken [36, 37] s.svcTsw s t ∧ t.adc = s.adc ∧ t.bal = s.bal ∧ t.pack = s.pack ∧ t.link = s.link ∧ MemSame s t ∧ (s.Calm →
          t.mode = s.mode)) ∧
    (∀ (s : State) (padsBad : Bool) (x : RailSense),
      Completes (.periodBoundary .ibc padsBad x) s fun t =>
        PwmTaken [32, 33] (s.railTsw 0) s t ∧ t.adc = s.adc ∧ t.bal = s.bal ∧ t.pack = s.pack ∧ t.link = s.link ∧ MemSame s t) ∧
    (∀ (s : State) (k : Fin 4) (padsBad : Bool) (x : RailSense),
      Completes (.periodBoundary (.pol k) padsBad x) s fun t =>
        t.get (POL_MEAS_V_OUT.at k.val) = min 65535 x.v ∧ t.get (POL_MEAS_I_OUT.at k.val) = (clampI 0 65535 x.i0).toNat ∧
          PwmTaken [38 + k.val] (s.railTsw (k.val + 1)) s t ∧ t.adc = s.adc ∧ t.bal = s.bal ∧ t.pack = s.pack ∧ t.cmp = s.cmp ∧
          MemSame s t) ∧
    (∀ (s : State) (k : Fin 4) (padsBad : Bool) (x : RailSense),
      s.Quiet ∧ railRuns (s.rs ⟨k.val + 1, by omega⟩).phase = false →
      Completes (.periodBoundary (.pol k) padsBad x) s fun t =>
        t.get (POL_MEAS_V_OUT.at k.val) = min 65535 x.v ∧ t.get (POL_MEAS_I_OUT.at k.val) = (clampI 0 65535 x.i0).toNat ∧
          FrameE [PG_POL + k.val] s t) ∧
    (∀ (s : State) (k : Fin 2) (padsBad : Bool) (x : RailSense),
      Completes (.periodBoundary (.ldo k) padsBad x) s fun t =>
        t.get (LDO_MEAS_V_OUT.el k.val) = min 65535 x.v ∧ t.get (LDO_MEAS_I_OUT.el k.val) = (clampI 0 65535 x.i0).toNat ∧
          t.pwm = s.pwm ∧ t.adc = s.adc ∧ t.bal = s.bal ∧ t.pack = s.pack ∧ t.cmp = s.cmp ∧ MemSame s t) ∧
    (∀ (s : State) (k : Fin 2) (padsBad : Bool) (x : RailSense),
      s.Quiet ∧ railRuns (s.rs ⟨k.val + 5, by omega⟩).phase = false →
      Completes (.periodBoundary (.ldo k) padsBad x) s fun t =>
        t.get (LDO_MEAS_V_OUT.el k.val) = min 65535 x.v ∧ t.get (LDO_MEAS_I_OUT.el k.val) = (clampI 0 65535 x.i0).toNat ∧
          FrameE [PG_LDO] s t)

/-- The end of a hiccup leaves OFF or STOPPED by whether a module is selected, with a soft start due; a sense loss of a running channel whose
references run stops it and waits for four good periods; the end of a soft start is ACTIVE; a stop check ends the stop, or by the current
left sets STOPFAIL with the channel as it is, which ends a selection that waits for it with 6; the notice of an instant sets it from the
cycle marker; a selection in loop operation polls the node it opens or closes, ends with 7 when a module does not open, and goes back to
open with 8 or 9 when one does not close or does not verify. (R241 of spec/10_balancing_channels.md, R242 of spec/10_balancing_channels.md,
R243 of spec/10_balancing_channels.md, R245 of spec/10_balancing_channels.md, R253 of spec/10_balancing_channels.md, R255 of
spec/10_balancing_channels.md, R256 of spec/10_balancing_channels.md.) -/
def Obligations.ChannelTimers : Prop :=
  (∀ (s : State) (n : Fin 16),
      s.balCode n = 5 →
      Completes (.hiccupEnd n) s fun t =>
        t.balCode n = (if s.balCur n = 0 then 0 else 1) ∧ (t.bs n).startDue = true ∧
          Frame [PG_BAL + n.val / 4 * 4, PG_BAL + n.val / 4 * 4 + 1, PG_BAL + n.val / 4 * 4 + 2, PG_BAL + n.val / 4 * 4 + 3] s t) ∧
    (∀ (s : State) (n : Fin 16),
      s.balCode n ≠ 5 →
      Completes (.hiccupEnd n) s fun t =>
        t = s.begin) ∧
    (∀ (s : State) (n : Fin 16),
      balRunning (s.balCode n) = true ∧ (s.bs n).refs = true →
      Completes (.channelSenseLoss n) s fun t =>
        (t.bs n).senseWait = true ∧ (t.bs n).refs = false ∧ (t.bs n).okPeriods = 0 ∧ (t.bs n).gotCs = false ∧ (∀ k : Fin 16, k ≠ n →
          t.bs k = s.bs k) ∧ (s.Calm → t.mode = s.mode)) ∧
    (∀ (s : State) (n : Fin 16),
      (balRunning (s.balCode n) = false ∨ (s.bs n).refs = false) ∧ s.Quiet →
      Completes (.channelSenseLoss n) s fun t =>
        t.bal = s.bal ∧ FrameE [] s t) ∧
    (∀ (s : State) (n : Fin 16),
      s.balCode n = 2 →
      Completes (.softStartDone n) s fun t =>
        t.balCode n = 3 ∧ (t.bs n).goodMs = 0 ∧ t.statusOf (PG_BAL + n.val) BAL_ST_SOFTDONE = true ∧
          Frame [PG_BAL + n.val / 4 * 4, PG_BAL + n.val / 4 * 4 + 1, PG_BAL + n.val / 4 * 4 + 2, PG_BAL + n.val / 4 * 4 + 3, PG_EVQ] s t) ∧
    (∀ (s : State) (n : Fin 16),
      s.balCode n ≠ 2 →
      Completes (.softStartDone n) s fun t =>
        t = s.begin) ∧
    (∀ (s : State) (n : Fin 16),
      s.Quiet ∧ (s.bs n).checkDue = true ∧ s.balCode n = 4 ∧ s.selStep n ≠ 1 ∧ s.injOn (balPage n) 3 = false ∧ (s.lk n).ended = none ∧
        (s.balCur n = 0 ∨ s.sel n (s.balCur n) = 1) →
      Completes (.stopCheck n) s fun t =>
        t.balCode n = (if (100 * s.get (BAL_SOFT_I_ZERO.at n) < (s.getI (BAL_I_CS_I.at n)).natAbs) then 4 else if (s.bs n).stopToOff then 0 else 1) ∧
          (t.bs n).checkDue = false ∧
          (t.bs n).stopFail = decide (100 * s.get (BAL_SOFT_I_ZERO.at n) < (s.getI (BAL_I_CS_I.at n)).natAbs) ∧
          (if (100 * s.get (BAL_SOFT_I_ZERO.at n) < (s.getI (BAL_I_CS_I.at n)).natAbs) then t.errOf (PG_BAL + n.val) BAL_ERR_STOPFAIL = true else t.statusOf (PG_BAL + n.val) BAL_ST_STOPPED = true) ∧
          FrameE [PG_BAL + n.val / 4 * 4, PG_BAL + n.val / 4 * 4 + 1, PG_BAL + n.val / 4 * 4 + 2, PG_BAL + n.val / 4 * 4 + 3, PG_EVQ] s t) ∧
    (∀ (s : State) (n : Fin 16),
      s.Quiet ∧ (s.bs n).checkDue = true ∧ s.balCode n = 4 ∧ s.selStep n = 1 ∧ s.injOn (balPage n) 3 = false ∧ (s.lk n).ended = none ∧
        (s.balCur n = 0 ∨ s.sel n (s.balCur n) = 1) ∧ (100 * s.get (BAL_SOFT_I_ZERO.at n) < (s.getI (BAL_I_CS_I.at n)).natAbs) →
      Completes (.stopCheck n) s fun t =>
        t.balCode n = 4 ∧ (t.bs n).stopFail = true ∧ t.errOf (PG_BAL + n.val) BAL_ERR_STOPFAIL = true ∧ t.selStep n = 0 ∧
          t.get (BAL_SELSTATE_RESULT.at n) = 6 ∧
          FrameE [PG_BAL + n.val / 4 * 4, PG_BAL + n.val / 4 * 4 + 1, PG_BAL + n.val / 4 * 4 + 2, PG_BAL + n.val / 4 * 4 + 3, PG_EVQ] s t) ∧
    (∀ (s : State) (n : Fin 16),
      s.Quiet ∧ (s.bs n).checkDue = false →
      Completes (.stopCheck n) s fun t =>
        t.bal = s.bal ∧ FrameE [] s t) ∧
    (∀ (s : State) (n : Fin 16) (clocks : Nat),
      Completes (.instantNotice n clocks none) s fun t =>
        (t.bs n).latchAt = some (s.tMarker + ((clocks * 8 / 5 : Nat) : Int)) ∧ (∀ k : Fin 16, k ≠ n → t.bs k = s.bs k) ∧ Frame [] s t) ∧
    (∀ (s : State) (n : Fin 16) (clocks d : Nat),
      Completes (.instantNotice n clocks (some d)) s fun t =>
        (t.bs n).burstAt = some (s.tMarker + ((clocks * 8 / 5 : Nat) : Int) + 40000 * (d : Int)) ∧ (t.bs n).ovN = 0 ∧
          (∀ k : Fin 16, k ≠ n → t.bs k = s.bs k) ∧ Frame [] s t) ∧
    (∀ (s : State) (n : Fin 16),
      (s.bs n).selCut = false ∧ (s.lk n).phase = .idle ∧ s.usable n = true ∧ s.twoArmed n = false ∧ s.selStep n = 2 ∧
        (s.bs n).selOld ≤ 40 ∧ s.nodeReach n (s.bs n).selOld = true →
      Completes (.selectPoll n) s fun t =>
        (t.lk n).phase = .frame ∧ (t.lk n).cmd.typ = 0 ∧ (t.lk n).cmd.addr = (s.bs n).selOld ∧ (t.lk n).cmd.source = .select ∧
          (∀ k : Fin 16, k ≠ n → t.lk k = s.lk k)) ∧
    (∀ (s : State) (n : Fin 16),
      (s.bs n).selCut = false ∧ (s.lk n).phase = .idle ∧ s.usable n = true ∧ s.twoArmed n = false ∧ s.selStep n = 4 ∧
        (s.selTarget n) ≤ 40 ∧ s.nodeReach n (s.selTarget n) = true →
      Completes (.selectPoll n) s fun t =>
        (t.lk n).phase = .frame ∧ (t.lk n).cmd.typ = 0 ∧ (t.lk n).cmd.addr = (s.selTarget n) ∧ (t.lk n).cmd.source = .select ∧
          (∀ k : Fin 16, k ≠ n → t.lk k = s.lk k)) ∧
    (∀ (s : State) (n : Fin 16),
      ((s.lk n).phase ≠ .idle ∨ (s.selStep n ≠ 2 ∧ s.selStep n ≠ 4) ∨ (s.bs n).selCut = true) ∧ (s.lk n).ended = none →
      Completes (.selectPoll n) s fun t =>
        t.link = s.link) ∧
    (∀ (s : State) (n : Fin 16),
      s.Quiet ∧ s.selStep n = 2 ∧ (s.bs n).selCut = false ∧ (s.lk n).ended = none ∧ (s.balCur n = 0 ∨ s.sel n (s.balCur n) = 1) →
      Completes (.selectOpenTimeout n) s fun t =>
        t.selStep n = 0 ∧ t.get (BAL_SELSTATE_RESULT.at n) = (if (s.bs n).selFail = 0 then 7 else (s.bs n).selFail % 16) ∧
          t.errOf (PG_BAL + n.val) BAL_ERR_OPENFAIL = true ∧ (t.bs n).selFail = 0 ∧ FrameE [PG_BAL + n.val, PG_EVQ] s t) ∧
    (∀ (s : State) (n : Fin 16),
      (s.selStep n ≠ 2 ∨ (s.bs n).selCut = true) ∧ (s.lk n).ended = none →
      Completes (.selectOpenTimeout n) s fun t =>
        t.link = s.link) ∧
    (∀ (s : State) (n : Fin 16),
      (s.bs n).selCut = false ∧ (s.lk n).phase = .idle ∧ s.usable n = true ∧ s.twoArmed n = false ∧ s.selStep n = 4 ∧
        1 ≤ s.selTarget n ∧ s.selTarget n ≤ 40 ∧ s.nodeReach n (s.selTarget n) = true ∧ (s.lk n).ended = none →
      Completes (.selectCloseTimeout n) s fun t =>
        (t.bs n).selFail = 8 ∧ (t.bs n).selOld = s.selTarget n ∧ (t.lk n).phase = .frame ∧ (t.lk n).cmd.typ = 7 ∧
          (t.lk n).cmd.addr = s.selTarget n ∧ (∀ k : Fin 16, k ≠ n → t.lk k = s.lk k)) ∧
    (∀ (s : State) (n : Fin 16),
      s.selStep n ≠ 4 ∧ (s.lk n).ended = none →
      Completes (.selectCloseTimeout n) s fun t =>
        t.link = s.link) ∧
    (∀ (s : State) (n : Fin 16),
      (s.bs n).selCut = false ∧ (s.lk n).phase = .idle ∧ s.usable n = true ∧ s.twoArmed n = false ∧ s.selStep n = 5 ∧
        1 ≤ s.selTarget n ∧ s.selTarget n ≤ 40 ∧ s.nodeReach n (s.selTarget n) = true ∧ (s.lk n).ended = none →
      Completes (.selectVerifyTimeout n) s fun t =>
        (t.bs n).selFail = 9 ∧ (t.bs n).selOld = s.selTarget n ∧ (t.lk n).phase = .frame ∧ (t.lk n).cmd.typ = 7 ∧
          (t.lk n).cmd.addr = s.selTarget n ∧ (∀ k : Fin 16, k ≠ n → t.lk k = s.lk k)) ∧
    (∀ (s : State) (n : Fin 16),
      s.selStep n ≠ 5 ∧ (s.lk n).ended = none →
      Completes (.selectVerifyTimeout n) s fun t =>
        t.link = s.link)

/-- A result of the input path takes the current, the input voltage or the hold-up voltage with its calibration; the gate enhanced leads from
STARTING to ON; a start that times out trips with error GATE; reverse blocking leads to BLOCKED; the current limit to LIMITING; a fast and a
timed trip to TRIPPED; a recovery from UVOV and a retry when cool start again, held back in RIDE as ready; in HIBERNATE reverse blocking and
a fast trip discharge the held gate; a good time clears the trips in a row. In other states nothing changes. (R260 of
spec/11_house_bus_dispatch.md, R261 of spec/11_house_bus_dispatch.md, R262 of spec/11_house_bus_dispatch.md, R263 of
spec/11_house_bus_dispatch.md, R264 of spec/11_house_bus_dispatch.md, R265 of spec/11_house_bus_dispatch.md, R267 of
spec/11_house_bus_dispatch.md.) -/
def Obligations.InputPath : Prop :=
  (∀ (s : State),
      s.Quiet →
      Completes (.inpathResult 0) s fun t =>
        t.getI INPATH_I_IN_I = toSigned INPATH_I_IN_I.w (ofSigned INPATH_I_IN_I.w (scaleCode (s.inpSource INPATH_SRC_CS) (2048 + s.getI INPATH_CSCAL_OFFSET) (s.get INPATH_CSCAL_GAIN) 16)) ∧
          FrameE [PG_INPATH] s t) ∧
    (∀ (s : State),
      s.Quiet →
      Completes (.inpathResult 1) s fun t =>
        t.get INPATH_VOLT_V_IN = (clampI 0 65535 (scaleCode (s.inpSource INPATH_SRC_VS) (s.getI INPATH_VSCAL_VOFS) (s.get INPATH_VSCAL_VGAIN) 256)).toNat ∧
          t.inp.vsFresh = true ∧ t.inp.vinSeen = true ∧ FrameE [PG_INPATH] s t) ∧
    (∀ (s : State),
      s.Quiet →
      Completes (.inpathResult 2) s fun t =>
        t.get INPATH_VOLT_V_HB = (clampI 0 65535 (scaleCode (s.inpSource INPATH_SRC_VHB) (s.getI BAL_VHBCAL_VOFS) (s.get BAL_VHBCAL_VGAIN) 256)).toNat ∧
          t.inp.hbFresh = true ∧ FrameE [PG_INPATH] s t) ∧
    (∀ (s : State),
      Completes (.inpathSenseLoss) s fun t =>
        t.errOf PG_INPATH INPATH_ERR_SENSE = true ∧ Frame [PG_INPATH] s t) ∧
    (∀ (s : State),
      s.inpCode = 1 →
      Completes (.inpathGateEnhanced) s fun t =>
        t.inpCode = 2 ∧ bitOf (t.hdr PG_INPATH hdrRAW) INPATH_ST_ON = true ∧ t.inp = s.inp ∧ Frame [PG_INPATH, PG_EVQ] s t) ∧
    (∀ (s : State),
      s.inpCode ≠ 1 →
      Completes (.inpathGateEnhanced) s fun t =>
        t = s.begin) ∧
    (∀ (s : State),
      s.inpCode = 1 →
      Completes (.inpathStartTimeout) s fun t =>
        (t.inpCode = 6 ∨ t.inpCode = 7) ∧ t.errOf PG_INPATH INPATH_ERR_GATE = true ∧ Frame [PG_INPATH, PG_EVQ] s t) ∧
    (∀ (s : State),
      s.inpCode ≠ 1 →
      Completes (.inpathStartTimeout) s fun t =>
        t = s.begin) ∧
    (∀ (s : State) (after : Nat),
      s.mode ≠ .hibernate ∧ (s.inpCode = 2 ∨ s.inpCode = 3) →
      Completes (.inpathReverseBlock after) s fun t =>
        t.inpCode = 4 ∧ t.inp = { s.inp with blockT := s.tMarker + (after : Int), ready := false } ∧
          bitOf (t.hdr PG_INPATH hdrRAW) INPATH_ST_BLOCK = true ∧ Frame [PG_INPATH, PG_EVQ] s t) ∧
    (∀ (s : State) (after : Nat),
      s.mode = .hibernate →
      Completes (.inpathReverseBlock after) s fun t =>
        t.inp = { s.inp with hibGate := false } ∧ Frame [] s t) ∧
    (∀ (s : State) (after : Nat),
      s.mode ≠ .hibernate ∧ s.inpCode ≠ 2 ∧ s.inpCode ≠ 3 →
      Completes (.inpathReverseBlock after) s fun t =>
        t = s.begin) ∧
    (∀ (s : State),
      s.inpCode = 2 →
      Completes (.inpathCurrentLimit) s fun t =>
        t.inpCode = 3 ∧ bitOf (t.hdr PG_INPATH hdrRAW) INPATH_ST_LIMIT = true ∧ t.inp = s.inp ∧ Frame [PG_INPATH, PG_EVQ] s t) ∧
    (∀ (s : State),
      s.inpCode ≠ 2 →
      Completes (.inpathCurrentLimit) s fun t =>
        t = s.begin) ∧
    (∀ (s : State),
      s.mode ≠ .hibernate ∧ (s.inpCode = 1 ∨ s.inpCode = 2 ∨ s.inpCode = 3) →
      Completes (.inpathFastTrip) s fun t =>
        (t.inpCode = 6 ∨ t.inpCode = 7) ∧ t.statusOf PG_INPATH INPATH_ST_FASTTRIP = true ∧ Frame [PG_INPATH, PG_EVQ] s t) ∧
    (∀ (s : State),
      s.mode ≠ .hibernate ∧ s.inpCode ≠ 1 ∧ s.inpCode ≠ 2 ∧ s.inpCode ≠ 3 →
      Completes (.inpathFastTrip) s fun t =>
        t = s.begin) ∧
    (∀ (s : State),
      s.mode ≠ .hibernate ∧ (s.inpCode = 1 ∨ s.inpCode = 2 ∨ s.inpCode = 3) →
      Completes (.inpathTimedTrip) s fun t =>
        (t.inpCode = 6 ∨ t.inpCode = 7) ∧ t.statusOf PG_INPATH INPATH_ST_OCTRIP = true ∧ Frame [PG_INPATH, PG_EVQ] s t) ∧
    (∀ (s : State),
      s.mode ≠ .hibernate ∧ s.inpCode ≠ 1 ∧ s.inpCode ≠ 2 ∧ s.inpCode ≠ 3 →
      Completes (.inpathTimedTrip) s fun t =>
        t = s.begin) ∧
    (∀ (s : State),
      s.mode = .hibernate →
      Completes (.inpathFastTrip) s fun t =>
        t.inp = { s.inp with hibGate := false } ∧ Frame [] s t) ∧
    (∀ (s : State),
      s.inpCode = 5 ∧ s.mode ≠ .ride →
      Completes (.inpathUvovRecover) s fun t =>
        t.inpCode = 1 ∧ t.inp.startT = s.tMarker ∧ t.inp.ready = false ∧ Frame [PG_INPATH, PG_EVQ] s t) ∧
    (∀ (s : State),
      s.inpCode = 5 ∧ s.mode = .ride →
      Completes (.inpathUvovRecover) s fun t =>
        t = { s.begin with inp.ready := true }) ∧
    (∀ (s : State),
      s.inpCode ≠ 5 →
      Completes (.inpathUvovRecover) s fun t =>
        t = s.begin) ∧
    (∀ (s : State),
      s.inpCode = 6 ∧ s.mode ≠ .ride ∧ s.getI INPATH_TJ_T ≤ 16 * ((s.get INPATH_TFET_T_FET_MAX : Int) - 20) →
      Completes (.inpathRetry) s fun t =>
        t.inpCode = 1 ∧ t.inp.startT = s.tMarker ∧ t.get INPATH_COUNTS_RETRY = satInc 255 (s.get INPATH_COUNTS_RETRY) ∧
          Frame [PG_INPATH, PG_EVQ] s t) ∧
    (∀ (s : State),
      s.inpCode = 6 ∧ s.mode = .ride ∧ s.getI INPATH_TJ_T ≤ 16 * ((s.get INPATH_TFET_T_FET_MAX : Int) - 20) →
      Completes (.inpathRetry) s fun t =>
        t = { s.begin with inp.ready := true }) ∧
    (∀ (s : State),
      s.inpCode ≠ 6 ∨ 16 * ((s.get INPATH_TFET_T_FET_MAX : Int) - 20) < s.getI INPATH_TJ_T →
      Completes (.inpathRetry) s fun t =>
        t = s.begin) ∧
    (∀ (s : State),
      s.inpCode = 2 ∨ s.inpCode = 4 →
      Completes (.inpathConsecReset) s fun t =>
        t.get INPATH_STATE_CONSEC = 0 ∧ t.inpCode = s.inpCode ∧ Frame [PG_INPATH] s t) ∧
    (∀ (s : State),
      s.inpCode ≠ 2 ∧ s.inpCode ≠ 4 →
      Completes (.inpathConsecReset) s fun t =>
        t = s.begin)

/-- In RUN and RIDE an input loss sets LOSS once; a return long enough with the path ready is confirmed; after N_RSHED low rounds RIDE sheds a
level, and after T_RUNSHED restores one; the pack is found present by its sense and its seat; its precharge, termination, safety and hiccup
timers change its state as Table 6 gives it; CLEAR, RESTART and HOLD of CMD act on the latch and the state with their key alone; four
periods of a running pack without its current stop its law. (R285 of spec/12_ride_through_pack.md, R286 of spec/12_ride_through_pack.md,
R288 of spec/12_ride_through_pack.md, R293 of spec/12_ride_through_pack.md, R294 of spec/12_ride_through_pack.md, R297 of
spec/12_ride_through_pack.md, R299 of spec/12_ride_through_pack.md, R301 of spec/12_ride_through_pack.md.) -/
def Obligations.RideAndPack : Prop :=
  (∀ (s : State),
      (s.nDet ≤ s.pack.lowRun ∨ s.pathDown = true ∨ s.inp.lost = true) ∧ (s.mode = .run ∨ s.mode = .ride) ∧
        s.on PACK_STATE_LOSS = false →
      Completes (.inputLoss) s fun t =>
        t.get PACK_STATE_LOSS = 1 ∧ t.statusOf PG_PACK PACK_ST_LOSS = true ∧ Frame [PG_PACK, PG_EVQ] s t) ∧
    (∀ (s : State),
      (s.nDet ≤ s.pack.lowRun ∨ s.pathDown = true ∨ s.inp.lost = true) ∧ s.mode ≠ .run ∧ s.mode ≠ .ride →
      Completes (.inputLoss) s fun t =>
        t.statusOf PG_PACK PACK_ST_LOSS = true ∧ t.get PACK_STATE_LOSS = s.get PACK_STATE_LOSS ∧ Frame [PG_PACK, PG_EVQ] s t) ∧
    (∀ (s : State),
      (s.pack.lowRun < s.nDet ∧ s.pathDown = false ∧ s.inp.lost = false) ∨ ((s.mode = .run ∨ s.mode = .ride) ∧
        s.on PACK_STATE_LOSS = true) →
      Completes (.inputLoss) s fun t =>
        t = s.begin) ∧
    (∀ (s : State),
      s.mode = .ride ∧ s.get PACK_RETURN_T_RETURN * 1000 ≤ s.pack.retUs ∧ s.inpReady = true ∧ s.enabled PG_INPATH = true ∧
        s.inpCode ≠ 7 →
      Completes (.returnOk) s fun t =>
        t.get PACK_STATE_RETOK = 1 ∧ Frame [PG_PACK] s t) ∧
    (∀ (s : State),
      s.mode ≠ .ride ∨ s.pack.retUs < s.get PACK_RETURN_T_RETURN * 1000 ∨ s.inpReady = false ∨ s.enabled PG_INPATH = false ∨
        s.inpCode = 7 →
      Completes (.returnOk) s fun t =>
        t = s.begin) ∧
    (∀ (s : State),
      s.mode = .ride ∧ s.rshed < 3 ∧ atLeast1 (s.get PACK_UNSHED_N_RSHED) ≤ s.pack.shedRun →
      Completes (.rshedRounds) s fun t =>
        t.rshed = s.rshed + 1 ∧ t.pack = { s.pack with shedRun := 0 } ∧ t.statusOf PG_PACK PACK_ST_RSHED = true ∧
          Frame [PG_PACK, PG_EVQ] s t) ∧
    (∀ (s : State),
      s.mode ≠ .ride ∨ 3 ≤ s.rshed ∨ s.pack.shedRun < atLeast1 (s.get PACK_UNSHED_N_RSHED) →
      Completes (.rshedRounds) s fun t =>
        t = s.begin) ∧
    (∀ (s : State),
      s.mode = .ride ∧ s.get PACK_UNSHED_T_RUNSHED * 1000000 ≤ s.pack.unshedUs ∧ s.get PACK_HANDBACK_RIDE_SHED0 < s.rshed →
      Completes (.rshedRestore) s fun t =>
        t.rshed = s.rshed - 1 ∧ t.pack = { s.pack with unshedUs := 0 } ∧ Frame [PG_PACK] s t) ∧
    (∀ (s : State),
      s.mode ≠ .ride ∨ s.rshed ≤ s.get PACK_HANDBACK_RIDE_SHED0 ∨ s.pack.unshedUs < s.get PACK_UNSHED_T_RUNSHED * 1000000 →
      Completes (.rshedRestore) s fun t =>
        t = s.begin) ∧
    (∀ (s : State) (det : Bool),
      (decide (s.packMv PACK_VCELL1_V_LOWV_C ≤ 20 * s.vPack) && (!s.on PACK_CFG_DETEN || (det && !s.bankLow 1))) = true →
      Completes (.packPresence det) s fun t =>
        t.pack.det = (det && !s.bankLow 1) ∧ t.on PACK_STATE_PRESENT = true ∧ t.pack.okSeen = true ∧ Frame [PG_PACK, PG_EVQ] s t) ∧
    (∀ (s : State) (det : Bool),
      (decide (s.packMv PACK_VCELL1_V_LOWV_C ≤ 20 * s.vPack) && (!s.on PACK_CFG_DETEN || (det && !s.bankLow 1))) = false →
      Completes (.packPresence det) s fun t =>
        t.pack = { s.pack with det := det && !s.bankLow 1 } ∧ Frame [] s t) ∧
    (∀ (s : State),
      s.packCode = 2 ∧ atLeast1 (s.get PACK_TERM_T_PRE) * 60000 ≤ s.pack.preMs →
      Completes (.packPrechargeTimeout) s fun t =>
        t.get PACK_STATE_TOLATCH = 1 ∧ t.packCode = 2 ∧ t.statusOf PG_PACK PACK_ST_PRETO = true ∧ Frame [PG_PACK, PG_EVQ] s t) ∧
    (∀ (s : State),
      s.packCode ≠ 2 ∨ s.pack.preMs < atLeast1 (s.get PACK_TERM_T_PRE) * 60000 →
      Completes (.packPrechargeTimeout) s fun t =>
        t = s.begin) ∧
    (∀ (s : State),
      s.packCode = 4 ∧ s.get PACK_TERM_T_TERM * 1000 ≤ s.pack.termMs →
      Completes (.packTermination) s fun t =>
        t.packCode = 5 ∧ t.get PACK_COUNTS_CHARGES = satInc 4095 (s.get PACK_COUNTS_CHARGES) ∧ t.statusOf PG_PACK PACK_ST_DONE = true ∧
          t.load (packRec + 0x24) 2 = 50000 ∧ MemBut packRec 64 s t ∧ RegsBut [PG_PACK, PG_EVQ] s t ∧ t.mode = s.mode) ∧
    (∀ (s : State),
      s.packCode ≠ 4 ∨ s.pack.termMs < s.get PACK_TERM_T_TERM * 1000 →
      Completes (.packTermination) s fun t =>
        t = s.begin) ∧
    (∀ (s : State),
      (s.packCode = 3 ∨ s.packCode = 4 ∨ s.packCode = 6) ∧ atLeast1 (s.get PACK_SAFE_T_SAFE) * 120000 ≤ s.pack.safeHalf →
      Completes (.packSafetyTimeout) s fun t =>
        t.get PACK_STATE_TOLATCH = 1 ∧ t.packCode = 7 ∧ t.statusOf PG_PACK PACK_ST_CHGTO = true ∧ Frame [PG_PACK, PG_EVQ] s t) ∧
    (∀ (s : State),
      (s.packCode ≠ 3 ∧ s.packCode ≠ 4 ∧ s.packCode ≠ 6) ∨ s.pack.safeHalf < atLeast1 (s.get PACK_SAFE_T_SAFE) * 120000 →
      Completes (.packSafetyTimeout) s fun t =>
        t = s.begin) ∧
    (∀ (s : State) (m : Master) (key : BitVec 16),
      s.accepts m = true ∧ hostMaster m = true ∧ s.Quiet ∧ key = 0x9AC6 ∧ s.on PACK_STATE_TOLATCH = true →
      Completes (.packTolatchClear m key) s fun t =>
        t.get PACK_STATE_TOLATCH = 0 ∧ t.packCode = s.packCode ∧ FrameE [PG_DEV, PG_PACK, PG_EVQ] s t) ∧
    (∀ (s : State) (m : Master) (key : BitVec 16),
      s.accepts m = true ∧ hostMaster m = true ∧ s.Quiet ∧ key = 0x9AC6 →
      Completes (.packRestart m key) s fun t =>
        t.pack = (if s.pack.hold then { s.pack with hold := false } else if s.packCode = 5 then { s.pack with restart := true } else s.pack) ∧
          FrameE [PG_DEV, PG_PACK] s t) ∧
    (∀ (s : State) (m : Master) (key : BitVec 16),
      s.accepts m = true ∧ hostMaster m = true ∧ s.Quiet ∧ key = 0x9AC6 →
      Completes (.packHold m key) s fun t =>
        t.pack = { s.pack with hold := true } ∧ t.packCode = s.packCode ∧ FrameE [PG_DEV, PG_PACK] s t) ∧
    (∀ (s : State) (m : Master) (key : BitVec 16),
      s.accepts m = true ∧ hostMaster m = true ∧ s.Quiet ∧ key = 0x9AC6 ∧ s.on PACK_STATE_TOLATCH = false →
      Completes (.packTolatchClear m key) s fun t =>
        t.pack = s.pack ∧ t.packCode = s.packCode ∧ t.get PACK_STATE_TOLATCH = 0 ∧ FrameE [PG_DEV, PG_PACK] s t) ∧
    (∀ (s : State) (m : Master) (key : BitVec 16),
      s.accepts m = true ∧ hostMaster m = true ∧ s.Quiet ∧ key ≠ 0x9AC6 →
      Completes (.packTolatchClear m key) s fun t =>
        t.pack = s.pack ∧ t.packCode = s.packCode ∧ t.get PACK_STATE_TOLATCH = s.get PACK_STATE_TOLATCH ∧ FrameE [PG_DEV, PG_PACK] s t) ∧
    (∀ (s : State) (m : Master) (key : BitVec 16),
      s.accepts m = true ∧ hostMaster m = true ∧ s.Quiet ∧ key ≠ 0x9AC6 →
      Completes (.packRestart m key) s fun t =>
        t.pack = s.pack ∧ t.packCode = s.packCode ∧ t.get PACK_STATE_TOLATCH = s.get PACK_STATE_TOLATCH ∧ FrameE [PG_DEV, PG_PACK] s t) ∧
    (∀ (s : State) (m : Master) (key : BitVec 16),
      s.accepts m = true ∧ hostMaster m = true ∧ s.Quiet ∧ key ≠ 0x9AC6 →
      Completes (.packHold m key) s fun t =>
        t.pack = s.pack ∧ t.packCode = s.packCode ∧ t.get PACK_STATE_TOLATCH = s.get PACK_STATE_TOLATCH ∧ FrameE [PG_DEV, PG_PACK] s t) ∧
    (∀ (s : State),
      s.packCode = 10 ∧ s.pack.hicFrom < 10 →
      Completes (.packHiccupEnd) s fun t =>
        t.packCode = s.pack.hicFrom ∧ Frame [PG_PACK, PG_EVQ] s t) ∧
    (∀ (s : State),
      s.packCode ≠ 10 →
      Completes (.packHiccupEnd) s fun t =>
        t = s.begin) ∧
    (∀ (s : State),
      s.packRunning = true ∧ 4 ≤ s.pack.noCs →
      Completes (.packSenseLoss) s fun t =>
        t.pack.senseStop = true ∧ t.pack.e1 = 0 ∧ t.pack.e2 = 0 ∧ t.errOf PG_PACK PACK_ERR_SENSE = true ∧ Frame [PG_PACK, PG_EVQ] s t) ∧
    (∀ (s : State),
      s.packRunning = false ∨ s.pack.noCs < 4 →
      Completes (.packSenseLoss) s fun t =>
        t = s.begin)

/-- A current result takes current and drop with their calibration; a feed that is its turn starts; 1 ms of its monitors in START is power good
and ON; a start whose comparator is still tripped, one that lasts T_START_MAX and a timed trip lead to TRIPPED or LOCKED; a seat found
queues a feed that waited for it, and one lost takes it back; a retry queues a tripped feed whose off time has passed, or sheds it; four
rounds without a current of a feed in START or ON are ERR.SENSE; a good time clears the trips in a row; shedding takes the level of the mode
and sheds the feeds at or above it; CLEAR LOCKED and RESTART act on the feeds of their mask with their key alone. (R306 of
spec/13_branch_feeds.md, R307 of spec/13_branch_feeds.md, R308 of spec/13_branch_feeds.md, R309 of spec/13_branch_feeds.md, R311 of
spec/13_branch_feeds.md, R313 of spec/13_branch_feeds.md, R314 of spec/13_branch_feeds.md, R315 of spec/13_branch_feeds.md.) -/
def Obligations.BranchFeeds : Prop :=
  (∀ (s : State) (n : Fin 8),
      s.feedCode n ≠ 3 ∧ s.feedCode n ≠ 4 →
      Completes (.feedCurrentResult n) s fun t =>
        t.get (feedF FEEDS_I_I n) = ofSigned FEEDS_I_I.w (scaleCode ((s.rd (adcPage 2 * 0x400 + 0x300 + 4 * s.get (feedF FEEDS_CFG_SRC n))).toNat % 4096) (s.getI (feedF FEEDS_CSCAL_OFFSET n)) (s.get (feedF FEEDS_CSCAL_GAIN n)) 16) ∧
          (t.fd n).lastT = some s.tMarker ∧ (t.fd n).noRes = 0 ∧ (∀ k : Fin 8, k ≠ n → t.feedCode k = s.feedCode k) ∧
          t.feedCode n = s.feedCode n ∧ Frame [PG_FEEDS] s t) ∧
    (∀ (s : State) (n : Fin 8),
      s.feedCode n = 3 ∨ s.feedCode n = 4 →
      Completes (.feedCurrentResult n) s fun t =>
        t.get (feedF FEEDS_I_I n) = ofSigned FEEDS_I_I.w (scaleCode ((s.rd (adcPage 2 * 0x400 + 0x300 + 4 * s.get (feedF FEEDS_CFG_SRC n))).toNat % 4096) (s.getI (feedF FEEDS_CSCAL_OFFSET n)) (s.get (feedF FEEDS_CSCAL_GAIN n)) 16) ∧
          (t.fd n).lastT = some s.tMarker ∧ (t.fd n).noRes = 0 ∧ (∀ k : Fin 8, k ≠ n → t.feedCode k = s.feedCode k) ∧ t.mode = s.mode) ∧
    (∀ (s : State) (n : Fin 8),
      (s.feedCode n = 3 ∨ s.feedCode n = 4) ∧ (s.fd n).above = true ∧
        (atLeast1 (s.get (feedF FEEDS_LIM_T_OC n)) : Int) * 400000 ≤ (s.fd n).span →
      Completes (.feedTimedTrip n) s fun t =>
        (t.feedCode n = 6 ∨ t.feedCode n = 7) ∧ (∀ k : Fin 8, k ≠ n → t.feedCode k = s.feedCode k) ∧ t.mode = s.mode) ∧
    (∀ (s : State) (n : Fin 8),
      (s.feedCode n ≠ 3 ∧ s.feedCode n ≠ 4) ∨ (s.fd n).above = false ∨
        (s.fd n).span < (atLeast1 (s.get (feedF FEEDS_LIM_T_OC n)) : Int) * 400000 →
      Completes (.feedTimedTrip n) s fun t =>
        t = s.begin) ∧
    (∀ (s : State) (n : Fin 8),
      (s.feedCode n = 3 ∨ s.feedCode n = 4) ∧ 4 ≤ (s.fd n).noRes →
      Completes (.feedSenseLoss n) s fun t =>
        t.errOf PG_FEEDS FEEDS_ERR_SENSE = true ∧ t.feed = s.feed ∧ (∀ k : Fin 8, k ≠ n → t.feedCode k = s.feedCode k) ∧
          Frame [PG_FEEDS] s t) ∧
    (∀ (s : State) (n : Fin 8),
      (s.feedCode n ≠ 3 ∧ s.feedCode n ≠ 4) ∨ (s.fd n).noRes < 4 →
      Completes (.feedSenseLoss n) s fun t =>
        t = s.begin) ∧
    (∀ (s : State) (n : Fin 8),
      s.bankLow 1 = false ∧ s.dev.pll = true ∧ s.seated n = false →
      Completes (.feedSeatConfirm n) s fun t =>
        t.seated n = true ∧ t.feedCode n = (if s.feedCode n = 1 then (if s.feedShed n then 5 else 2) else s.feedCode n) ∧
          (∀ k : Fin 8, k ≠ n → t.feedCode k = s.feedCode k) ∧ Frame [PG_FEEDS, PG_EVQ] s t) ∧
    (∀ (s : State) (n : Fin 8),
      s.bankLow 1 = true ∨ s.dev.pll = false ∨ s.seated n = true →
      Completes (.feedSeatConfirm n) s fun t =>
        t = s.begin) ∧
    (∀ (s : State) (n : Fin 8),
      s.dev.pll = true ∧ s.feedCode n ≠ 0 →
      Completes (.feedSeatRemove n) s fun t =>
        t.seated n = false ∧ t.feedCode n = 1 ∧ (t.fd n).restart = (if s.feedCode n = 1 then (s.fd n).restart else false) ∧
          (∀ k : Fin 8, k ≠ n → t.feedCode k = s.feedCode k) ∧ Frame [PG_FEEDS, PG_EVQ] s t) ∧
    (∀ (s : State) (n : Fin 8),
      s.dev.pll = false →
      Completes (.feedSeatRemove n) s fun t =>
        t = s.begin) ∧
    (∀ (s : State) (n : Fin 8),
      s.dev.pll = true ∧ s.feedCode n = 0 →
      Completes (.feedSeatRemove n) s fun t =>
        t.seated n = false ∧ t.feedCode n = 0 ∧ (∀ k : Fin 8, k ≠ n → t.feedCode k = s.feedCode k) ∧ Frame [PG_FEEDS, PG_EVQ] s t) ∧
    (∀ (s : State) (n : Fin 8),
      s.feedTurn n = true ∧ s.on (cmpHold (24 + n.val)) = false →
      Completes (.feedStart n) s fun t =>
        t.feedCode n = 3 ∧ (t.fd n).startT = s.tMarker ∧ (t.fd n).restart = false ∧ (∀ k : Fin 8, k ≠ n → t.feedCode k = s.feedCode k) ∧
          Frame [PG_FEEDS, PG_EVQ] s t) ∧
    (∀ (s : State) (n : Fin 8),
      s.feedTurn n = true ∧ s.on (cmpHold (24 + n.val)) = true ∧ s.on (cmpTState (24 + n.val)) = true →
      Completes (.feedStart n) s fun t =>
        (t.feedCode n = 6 ∨ t.feedCode n = 7) ∧ (∀ k : Fin 8, k ≠ n → t.feedCode k = s.feedCode k) ∧ t.mode = s.mode) ∧
    (∀ (s : State) (n : Fin 8),
      s.feedTurn n = false →
      Completes (.feedStart n) s fun t =>
        t = s.begin) ∧
    (∀ (s : State) (n : Fin 8) (u : Int),
      (s.fd n).pgSince = some u →
      s.feedCode n = 3 ∧ u + 400000 ≤ s.tMarker →
      Completes (.feedPowerGood n) s fun t =>
        t.feedCode n = 4 ∧ (t.fd n).onT = s.tMarker ∧ t.get (feedF FEEDS_STATE_PG n) = 1 ∧ bitOf (t.get FEEDS_SUMMARY_PG) n.val = true ∧
          (∀ k : Fin 8, k ≠ n → t.fd k = s.fd k) ∧ (∀ k : Fin 8, k ≠ n → t.feedCode k = s.feedCode k) ∧ Frame [PG_FEEDS, PG_EVQ] s t) ∧
    (∀ (s : State) (n : Fin 8),
      s.feedCode n ≠ 3 ∨ (s.fd n).pgSince = none →
      Completes (.feedPowerGood n) s fun t =>
        t = s.begin) ∧
    (∀ (s : State) (n : Fin 8) (u : Int),
      (s.fd n).pgSince = some u →
      s.tMarker < u + 400000 →
      Completes (.feedPowerGood n) s fun t =>
        t = s.begin) ∧
    (∀ (s : State) (n : Fin 8) (u : Int),
      (s.fd n).startT = some u →
      s.feedCode n = 3 ∧ u + (atLeast1 (s.get FEEDS_LIMITS_T_START_MAX) : Int) * 400000 ≤ s.tMarker →
      Completes (.feedStartTimeout n) s fun t =>
        (t.feedCode n = 6 ∨ t.feedCode n = 7) ∧ (∀ k : Fin 8, k ≠ n → t.feedCode k = s.feedCode k) ∧ t.mode = s.mode) ∧
    (∀ (s : State) (n : Fin 8),
      s.feedCode n ≠ 3 ∨ (s.fd n).startT = none →
      Completes (.feedStartTimeout n) s fun t =>
        t = s.begin) ∧
    (∀ (s : State) (n : Fin 8) (u : Int),
      (s.fd n).startT = some u →
      s.tMarker < u + (atLeast1 (s.get FEEDS_LIMITS_T_START_MAX) : Int) * 400000 →
      Completes (.feedStartTimeout n) s fun t =>
        t = s.begin) ∧
    (∀ (s : State) (n : Fin 8),
      s.feedCode n = 6 ∧ (s.fd n).offLeft = 0 ∧ s.on (feedF FEEDS_CFG_AUTO n) = true ∧ s.seated n = true ∧ s.mode ≠ .service ∧
        ((s.fd n).hotTrip = false ∨ s.getI (feedF FEEDS_TJ_T n) ≤ 16 * ((s.get FEEDS_LIMITS_T_FET_MAX : Int) - 20)) →
      Completes (.feedRetry n) s fun t =>
        t.feedCode n = (if s.feedShed n then 5 else 2) ∧ t.feed = s.feed ∧ (∀ k : Fin 8, k ≠ n → t.feedCode k = s.feedCode k) ∧
          Frame [PG_FEEDS, PG_EVQ] s t) ∧
    (∀ (s : State) (n : Fin 8),
      s.feedCode n ≠ 6 ∨ (s.fd n).offLeft ≠ 0 ∨ s.on (feedF FEEDS_CFG_AUTO n) = false ∨ s.seated n = false ∨ s.mode = .service ∨
        ((s.fd n).hotTrip = true ∧ 16 * ((s.get FEEDS_LIMITS_T_FET_MAX : Int) - 20) < s.getI (feedF FEEDS_TJ_T n)) →
      Completes (.feedRetry n) s fun t =>
        t = s.begin) ∧
    (∀ (s : State) (n : Fin 8),
      s.feedCode n = 4 ∧ (s.fd n).onT + (s.get FEEDS_GOOD_T_GOOD : Int) * 400000000 ≤ s.tMarker →
      Completes (.feedGoodTimer n) s fun t =>
        t.get (feedF FEEDS_STATE_CONSEC n) = 0 ∧ t.feedCode n = 4 ∧ (∀ k : Fin 8, k ≠ n → t.feedCode k = s.feedCode k) ∧
          Frame [PG_FEEDS] s t) ∧
    (∀ (s : State) (n : Fin 8),
      s.feedCode n ≠ 4 ∨ s.tMarker < (s.fd n).onT + (s.get FEEDS_GOOD_T_GOOD : Int) * 400000000 →
      Completes (.feedGoodTimer n) s fun t =>
        t = s.begin) ∧
    (∀ (s : State),
      s.mode ≠ .service →
      Completes (.feedShed) s fun t =>
        t.feedL = (match s.mode with | .safe => s.feedL | .service => 0 | _ => max (s.get DISPATCH_INCAP_SHEDLVL) (s.get PACK_STATE_RSHED)) ∧
          t.get FEEDS_LEVEL_L = (if s.on FAULT_HOLDS_SHED then 3 else (match s.mode with | .safe => s.feedL | .service => 0 | _ => max (s.get DISPATCH_INCAP_SHEDLVL) (s.get PACK_STATE_RSHED)) % 4) ∧
          (∀ n : Fin 8, (s.feedCode n = 2 ∨ s.feedCode n = 3 ∨ s.feedCode n = 4) →
          t.feedCode n = (if t.feedShed n then 5 else s.feedCode n)) ∧ Frame [PG_FEEDS, PG_EVQ] s t) ∧
    (∀ (s : State),
      s.mode = .service ∧ s.on FAULT_HOLDS_SHED = false →
      Completes (.feedShed) s fun t =>
        t.feedL = 0 ∧ t.get FEEDS_LEVEL_L = 0 ∧ (∀ n : Fin 8, t.feedCode n = s.feedCode n) ∧ Frame [PG_FEEDS, PG_EVQ] s t) ∧
    (∀ (s : State) (m : Master) (key : BitVec 16) (mask : BitVec 8),
      s.accepts m = true ∧ hostMaster m = true ∧ s.Quiet ∧ key = 0x3F0D →
      Completes (.feedsClearLocked m key mask) s fun t =>
        (∀ n : Fin 8, bitOf mask.toNat n.val = true → s.feedCode n = 7 → t.feedCode n ≠ 7) ∧
          (∀ n : Fin 8, (bitOf mask.toNat n.val = false ∨ s.feedCode n ≠ 7) → t.feedCode n = s.feedCode n) ∧
          FrameE [PG_DEV, PG_FEEDS, PG_EVQ] s t) ∧
    (∀ (s : State) (m : Master) (key : BitVec 16) (mask : BitVec 8),
      s.accepts m = true ∧ hostMaster m = true ∧ s.Quiet ∧ key = 0x3F0D ∧ s.mode ≠ .service →
      Completes (.feedsRestart m key mask) s fun t =>
        (∀ n : Fin 8, bitOf mask.toNat n.val = true → s.feedCode n = 6 → t.feedCode n ≠ 6) ∧
          (∀ n : Fin 8, (bitOf mask.toNat n.val = false ∨ s.feedCode n ≠ 6) → t.feedCode n = s.feedCode n) ∧
          FrameE [PG_DEV, PG_FEEDS, PG_EVQ] s t) ∧
    (∀ (s : State) (m : Master) (key : BitVec 16) (mask : BitVec 8),
      s.accepts m = true ∧ hostMaster m = true ∧ s.Quiet ∧ key = 0x3F0D ∧ s.mode = .service →
      Completes (.feedsRestart m key mask) s fun t =>
        (∀ n : Fin 8, bitOf mask.toNat n.val = true → (s.feedCode n = 2 ∨ s.feedCode n = 5 ∨ s.feedCode n = 6) → t.feedCode n = 2 ∧
          (t.fd n).restart = true) ∧ (∀ n : Fin 8, bitOf mask.toNat n.val = false → t.feedCode n = s.feedCode n) ∧
          FrameE [PG_DEV, PG_FEEDS, PG_EVQ] s t) ∧
    (∀ (s : State) (m : Master) (key : BitVec 16) (mask : BitVec 8),
      s.accepts m = true ∧ hostMaster m = true ∧ s.Quiet ∧ key ≠ 0x3F0D →
      Completes (.feedsClearLocked m key mask) s fun t =>
        t.feed = s.feed ∧ (∀ n : Fin 8, t.feedCode n = s.feedCode n) ∧ FrameE [PG_DEV, PG_FEEDS] s t) ∧
    (∀ (s : State) (m : Master) (key : BitVec 16) (mask : BitVec 8),
      s.accepts m = true ∧ hostMaster m = true ∧ s.Quiet ∧ key ≠ 0x3F0D →
      Completes (.feedsRestart m key mask) s fun t =>
        t.feed = s.feed ∧ (∀ n : Fin 8, t.feedCode n = s.feedCode n) ∧ FrameE [PG_DEV, PG_FEEDS] s t)

/-- A rail judged between its thresholds is inside, and one that is not on takes what is judged; a good rail judged under or over outside a fall
is a rail fault of its kind; a falling rail below the level of off is off; VHB judged low while the start is held leaves it held, and judged
between its thresholds changes nothing; the end of a rail's delay starts it, the end of its ramp makes it ready, a rail ready and inside is
good; a rise and a fall that time out report PGTO and FALLTO, and the fall is forced; a hiccup ends in a new start. (R319 of
spec/14_board_rails.md, R329 of spec/14_board_rails.md, R330 of spec/14_board_rails.md, R331 of spec/14_board_rails.md, R332 of
spec/14_board_rails.md, R333 of spec/14_board_rails.md, R334 of spec/14_board_rails.md.) -/
def Obligations.RailJudgements : Prop :=
  (∀ (s : State) (r : Fin 15) (uv : Nat),
      s.Quiet ∧ (match railPage r.val with | some pg => s.injOn pg 1 | none => false) = false ∧ (s.rs r).phase ≠ .falling ∧
        s.railWindow r = true ∧ s.railUnder r uv = false ∧ s.railOver r uv = false →
      Completes (.supervisorJudgement (Fin.castLE (by decide) r) uv) s fun t =>
        t.rs r = { s.rs r with inside := true, below := s.railBelow r uv } ∧ (∀ k : Fin 15, k ≠ r → t.rs k = s.rs k) ∧ FrameE [] s t) ∧
    (∀ (s : State) (r : Fin 15) (uv : Nat),
      s.Quiet ∧ (match railPage r.val with | some pg => s.injOn pg 1 | none => false) = false ∧ (s.rs r).phase ≠ .falling ∧
        s.railOn r.val = false →
      Completes (.supervisorJudgement (Fin.castLE (by decide) r) uv) s fun t =>
        t.rs r = { s.rs r with inside := s.railWindow r && !s.railUnder r uv && !s.railOver r uv, below := s.railBelow r uv } ∧
          (∀ k : Fin 15, k ≠ r → t.rs k = s.rs k) ∧ FrameE [] s t) ∧
    (∀ (s : State) (r : Fin 15) (uv : Nat),
      s.Quiet ∧ (match railPage r.val with | some pg => s.injOn pg 1 | none => false) = false ∧ (s.rs r).phase = .falling ∧
        s.railBelow r uv = true →
      Completes (.supervisorJudgement (Fin.castLE (by decide) r) uv) s fun t =>
        (t.rs r).phase = .off ∧ (t.rs r).vref = 0 ∧ (t.rs r).below = true ∧ bitOf (t.get SEQ_PGOOD_ON) r.val = false ∧
          (∀ k : Fin 15, k ≠ r → t.rs k = s.rs k) ∧
          FrameE [PG_SEQ, PG_IBC, PG_POL, PG_POL + 1, PG_POL + 2, PG_POL + 3, PG_LDO, PG_EVQ] s t) ∧
    (∀ (s : State) (r : Fin 15) (uv : Nat),
      s.Quiet ∧ (match railPage r.val with | some pg => s.injOn pg 1 | none => false) = false ∧ (s.rs r).phase = .good ∧
        s.railOn r.val = true ∧ s.railPg r.val = true ∧ s.seqPhase ≠ 3 ∧ s.get SEQ_FIRST_KIND = 0 ∧ s.railUnder r uv = true ∧
        s.railOver r uv = false →
      Completes (.supervisorJudgement (Fin.castLE (by decide) r) uv) s fun t =>
        t.errOf PG_SEQ SEQ_ERR_RAILFLT = true ∧ t.get SEQ_FIRST_KIND = 1 ∧ t.get SEQ_FIRST_RAIL = r.val ∧ t.railPg r.val = false ∧
          (∀ k : Fin 15, k ≠ r → t.rs k = s.rs k) ∧ t.mode = s.mode) ∧
    (∀ (s : State) (r : Fin 15) (uv : Nat),
      s.Quiet ∧ (match railPage r.val with | some pg => s.injOn pg 1 | none => false) = false ∧ (s.rs r).phase = .good ∧
        s.railOn r.val = true ∧ s.railPg r.val = true ∧ s.seqPhase ≠ 3 ∧ s.get SEQ_FIRST_KIND = 0 ∧ s.railOver r uv = true →
      Completes (.supervisorJudgement (Fin.castLE (by decide) r) uv) s fun t =>
        t.errOf PG_SEQ SEQ_ERR_RAILFLT = true ∧ t.get SEQ_FIRST_KIND = 2 ∧ t.get SEQ_FIRST_RAIL = r.val ∧ t.railPg r.val = false ∧
          (∀ k : Fin 15, k ≠ r → t.rs k = s.rs k) ∧ t.mode = s.mode) ∧
    (∀ (s : State) (uv : Nat),
      s.Quiet ∧ s.injOn PG_SEQ 1 = false ∧ s.seq.hold = true ∧ uv < 10000 * s.vhbFallAt →
      Completes (.supervisorJudgement 15 uv) s fun t =>
        t.dev.vhbOn = false ∧ t.seq = s.seq ∧ FrameE [] s t) ∧
    (∀ (s : State) (uv : Nat),
      s.Quiet ∧ s.injOn PG_SEQ 1 = false ∧ 10000 * s.vhbFallAt ≤ uv ∧ uv ≤ 10000 * s.get SEQ_VHB_V_HBON →
      Completes (.supervisorJudgement 15 uv) s fun t =>
        t.rail = s.rail ∧ t.dev = s.dev ∧ t.seq = s.seq ∧ FrameE [] s t) ∧
    (∀ (s : State) (r : Fin 15),
      s.Quiet ∧ (s.rs r).phase = .delay →
      Completes (.railDelayExpire r) s fun t =>
        (t.rs r).phase = (if railExt r then .ready else .ramp) ∧ bitOf (t.get SEQ_PGOOD_ON) r.val = true ∧ (railExt r = false →
          (t.rs r).vref = min (s.railSet r) (s.railOut r) * 1000) ∧ (∀ k : Fin 15, k ≠ r → t.rs k = s.rs k) ∧ FrameE [PG_SEQ] s t) ∧
    (∀ (s : State) (r : Fin 15),
      s.Quiet ∧ (s.rs r).phase ≠ .delay →
      Completes (.railDelayExpire r) s fun t =>
        t.rail = s.rail ∧ FrameE [] s t) ∧
    (∀ (s : State) (r : Fin 15),
      (s.rs r).phase = .ramp →
      Completes (.railRampEnd r) s fun t =>
        (t.rs r).phase = .ready ∧ (t.rs r).vref = s.railSet r * 1000 ∧ (∀ k : Fin 15, k ≠ r → t.rs k = s.rs k) ∧
          Frame [PG_SEQ, PG_IBC, PG_POL, PG_POL + 1, PG_POL + 2, PG_POL + 3, PG_LDO, PG_EVQ] s t) ∧
    (∀ (s : State) (r : Fin 15),
      (s.rs r).phase ≠ .ramp →
      Completes (.railRampEnd r) s fun t =>
        t = s.begin) ∧
    (∀ (s : State) (r : Fin 15),
      s.Quiet ∧ (s.rs r).phase = .ready ∧ (s.rs r).inside = true →
      Completes (.railPowerGood r) s fun t =>
        (t.rs r).phase = .good ∧ t.railPg r.val = true ∧ (r.val = 0 → bitOf t.dev.biasMask 0 = true) ∧ (∀ k : Fin 15, k ≠ r →
          t.rs k = s.rs k) ∧ FrameE [PG_SEQ, PG_IBC, PG_POL, PG_POL + 1, PG_POL + 2, PG_POL + 3, PG_LDO, PG_EVQ] s t) ∧
    (∀ (s : State) (r : Fin 15),
      s.Quiet ∧ ((s.rs r).phase ≠ .ready ∨ (s.rs r).inside = false) →
      Completes (.railPowerGood r) s fun t =>
        t.rail = s.rail ∧ FrameE [] s t) ∧
    (∀ (s : State) (r : Fin 15),
      s.Quiet ∧ ((s.rs r).phase = .delay ∨ (s.rs r).phase = .ramp ∨ (s.rs r).phase = .ready ∨ (s.rs r).phase = .hiccup) ∧
        s.seqPhase = 1 →
      Completes (.railRiseTimeout r) s fun t =>
        t.errOf PG_SEQ SEQ_ERR_PGTO = true ∧ (s.get SEQ_FIRST_KIND = 0 → t.get SEQ_FIRST_KIND = 5 ∧ t.get SEQ_FIRST_RAIL = r.val) ∧
          t.rail = s.rail ∧ FrameE [PG_SEQ] s t) ∧
    (∀ (s : State) (r : Fin 15),
      s.Quiet ∧ ((s.rs r).phase = .off ∨ (s.rs r).phase = .good ∨ (s.rs r).phase = .falling ∨ s.seqPhase ≠ 1) →
      Completes (.railRiseTimeout r) s fun t =>
        t.rail = s.rail ∧ FrameE [] s t) ∧
    (∀ (s : State) (r : Fin 15),
      s.Quiet ∧ (s.rs r).phase = .falling →
      Completes (.railFallTimeout r) s fun t =>
        (t.rs r).phase = .off ∧ bitOf (t.get SEQ_FORCED_R) r.val = true ∧ t.errOf PG_SEQ SEQ_ERR_FALLTO = true ∧
          t.statusOf PG_SEQ SEQ_ST_FORCED = true ∧ (∀ k : Fin 15, k ≠ r → t.rs k = s.rs k) ∧
          FrameE [PG_SEQ, PG_IBC, PG_POL, PG_POL + 1, PG_POL + 2, PG_POL + 3, PG_LDO, PG_EVQ] s t) ∧
    (∀ (s : State) (r : Fin 15),
      s.Quiet ∧ (s.rs r).phase ≠ .falling →
      Completes (.railFallTimeout r) s fun t =>
        t.rail = s.rail ∧ FrameE [] s t) ∧
    (∀ (s : State) (r : Fin 15),
      s.Quiet ∧ (s.rs r).phase ≠ .hiccup ∨ s.Quiet ∧ (s.rs r).blocked = true →
      Completes (.railHiccupEnd (Fin.castLE (by decide) r)) s fun t =>
        t.rail = s.rail ∧ FrameE [] s t) ∧
    (∀ (s : State) (r : Fin 15),
      s.Quiet ∧ (s.rs r).phase = .hiccup ∧ (s.rs r).blocked = false →
      Completes (.railHiccupEnd (Fin.castLE (by decide) r)) s fun t =>
        (t.rs r).phase = (if railExt r then .ready else .ramp) ∧ bitOf (t.get SEQ_PGOOD_ON) r.val = true ∧ (r.val = 0 →
          t.get IBC_STATE_HIC = 0) ∧ (∀ k : Fin 15, k ≠ r → t.rs k = s.rs k) ∧ FrameE [PG_SEQ, PG_IBC] s t) ∧
    (∀ (s : State),
      s.Quiet ∧ s.get SVC_STATE_CODE = 4 →
      Completes (.railHiccupEnd 15) s fun t =>
        t.get SVC_STATE_CODE = 1 ∧ t.svc = { s.svc with vref := 10 * s.get SVC_MEAS_V } ∧ FrameE [PG_SVC] s t) ∧
    (∀ (s : State) (r : Fin 7),
      (s.rs (Fin.castLE (by decide) r)).native = false ∧ 4 ≤ (s.rs (Fin.castLE (by decide) r)).noComp →
      Completes (.nativeFallback r) s fun t =>
        (t.rs (Fin.castLE (by decide) r)).native = true ∧ (t.rs (Fin.castLE (by decide) r)).noComp = 0 ∧
          Frame [PG_SEQ, PG_IBC, PG_POL, PG_POL + 1, PG_POL + 2, PG_POL + 3, PG_LDO, PG_EVQ] s t) ∧
    (∀ (s : State) (r : Fin 7),
      (s.rs (Fin.castLE (by decide) r)).native = true ∨ (s.rs (Fin.castLE (by decide) r)).noComp < 4 →
      Completes (.nativeFallback r) s fun t =>
        t = s.begin) ∧
    (∀ (s : State) (v i : BitVec 16),
      s.Quiet →
      Completes (.svcTarget v i) s fun t =>
        t.get SVC_TARGET_V_TGT = v.toNat % 2 ^ SVC_TARGET_V_TGT.w ∧ t.get SVC_TARGET_I_LIM = i.toNat % 2 ^ SVC_TARGET_I_LIM.w ∧
          FrameE [PG_SVC] s t)

/-- The next slot of a rise begins the delays of its rails; when every rail has risen the rise is done; the next slot of a fall turns its rails
off or lets them fall; the end of the minimum off time starts RISE from CELLAR when an on request waits, or a rise of the rails; a reset
group that may be released shows it in LEVEL unless it is forced. (R329 of spec/14_board_rails.md, R335 of spec/14_board_rails.md, R336 of
spec/14_board_rails.md, R337 of spec/14_board_rails.md, R339 of spec/14_board_rails.md, R340 of spec/14_board_rails.md.) -/
def Obligations.Sequencer : Prop :=
  (∀ (s : State) (k : Nat),
      s.slotNext = some k →
      s.Quiet →
      Completes (.seqSlotBegin) s fun t =>
        t.get SEQ_STATE_SLOT = k % 2 ^ SEQ_STATE_SLOT.w ∧ t.seq.next = k + 1 ∧
          (∀ r : Fin 15, t.rs r = if s.takesPart r && s.railOrder r == k && (s.rs r).phase == .off then { s.rs r with phase := .delay } else s.rs r) ∧
          FrameE [PG_SEQ] s t) ∧
    (∀ (s : State),
      s.Quiet ∧ s.slotNext = none ∧ s.seqPhase = 1 ∧ s.seq.hold = false ∧ (List.finRange 15).all (fun r => s.risen r) = true →
      Completes (.seqSlotBegin) s fun t =>
        t.seqPhase = 2 ∧ t.statusOf PG_SEQ SEQ_ST_RISEDONE = true ∧ t.rail = s.rail ∧ FrameE [PG_SEQ, PG_EVQ] s t) ∧
    (∀ (s : State) (top : Nat),
      s.fallNext = some top →
      s.Quiet →
      Completes (.fallSlot) s fun t =>
        t.get SEQ_STATE_SLOT = (top - 1) % 2 ^ SEQ_STATE_SLOT.w ∧ (∀ r : Fin 15, s.railOn r.val = true → s.kept r.val = false →
          s.fallKey r.val = top → t.railOn r.val = false ∧ ((t.rs r).phase = .off ∨ (t.rs r).phase = .falling)) ∧ t.mode = s.mode) ∧
    (∀ (s : State),
      s.Quiet ∧ s.fallNext = none ∧ s.seqPhase ≠ 3 →
      Completes (.fallSlot) s fun t =>
        t.rail = s.rail ∧ FrameE [] s t) ∧
    (∀ (s : State),
      s.mode = .cellar ∧ s.dev.onAtFall = true ∧ s.dev.bias ≠ .none →
      Completes (.offMinWaitEnd) s fun t =>
        t.mode = .rise ∧ t.get DEV_MODE_CAUSE = 2 ∧ t.get DEV_BOOT_RISECAUSE = 7 ∧ t.dev.onAtFall = false) ∧
    (∀ (s : State),
      s.mode ≠ .cellar ∧ s.mode ≠ .fall ∧ s.seqPhase = 5 ∧ s.Quiet →
      Completes (.offMinWaitEnd) s fun t =>
        (t.seqPhase = 1 ∨ t.seqPhase = 2) ∧ t.seq.next = 0 ∧ t.seq.hold = !s.dev.vhbOn ∧ t.seq.keep = 0 ∧ t.seq.vhbFall = false ∧
          FrameE [PG_SEQ, PG_DEV, PG_EVQ] s t) ∧
    (∀ (s : State) (g : Fin 4),
      s.resetMay g.val = true →
      Completes (.resetOutputRelease g) s fun t =>
        bitOf t.seq.released g.val = true ∧ bitOf (t.get SEQ_RSTCTL_LEVEL) g.val = (!bitOf (s.get SEQ_RSTCTL_FORCE) g.val) ∧
          Frame [PG_SEQ, PG_EVQ] s t) ∧
    (∀ (s : State) (g : Fin 4),
      s.resetMay g.val = false →
      Completes (.resetOutputRelease g) s fun t =>
        t = s.begin)

/-- A result of an AUX input as a voltage gives its reading; a die sensor at the end of its code at a gain gives none and reports TSFAIL; a
stale reading is not valid; a step of throttling, commanded or of itself, moves the die level at most one step by the hottest reading and
its threshold, and a page not enabled takes every level to 0; a shutdown latches its sensor and pulses line 0. (R344 of spec/15_thermal.md,
R345 of spec/15_thermal.md, R346 of spec/15_thermal.md, R349 of spec/15_thermal.md, R350 of spec/15_thermal.md, R351 of spec/15_thermal.md.) -/
def Obligations.TemperaturesAndThrottling : Prop :=
  (∀ (s : State) (table : Fin 4) (entry : Fin 16) (k : Fin 8),
      bitsOf ((s.resultCfg 3 (16 * (table.val % 4) + entry.val % 16))) 0 6 = 16 + k.val ∧ s.get (THERM_AUXCFG_MODE.el k.val) = 2 ∧
        s.injOn PG_THERM 2 = false →
      Completes (.sensorResult table entry) s fun t =>
        t.getI (THERM_AUXT_T.el k.val) = toSigned THERM_AUXT_T.w (ofSigned THERM_AUXT_T.w (roundDiv (((((s.rd (adcPage 3 * 0x400 + 0x300 + 4 * (16 * (table.val % 4) + entry.val % 16))).toNat % 4096) : Int) - s.getI (THERM_AUXNTC_R0.el k.val)) * s.getI (THERM_AUXNTC_BETA.el k.val)) 256)) ∧
          t.get (THERM_AUXT_VALID.el k.val) = 1 ∧ t.mode = s.mode) ∧
    (∀ (s : State) (table : Fin 4) (entry : Fin 16) (k : Fin 12),
      bitsOf ((s.resultCfg 3 (16 * (table.val % 4) + entry.val % 16))) 0 6 = 40 + k.val ∧
        bitsOf ((s.resultCfg 3 (16 * (table.val % 4) + entry.val % 16))) 12 2 ≠ 0 ∧
        ((s.rd (adcPage 3 * 0x400 + 0x300 + 4 * (16 * (table.val % 4) + entry.val % 16))).toNat % 4096) = 4095 →
      Completes (.sensorResult table entry) s fun t =>
        t.get (THERM_TS_VALID.el k.val) = 0 ∧ t.errOf PG_THERM THERM_ERR_TSFAIL = true ∧ Frame [PG_THERM] s t) ∧
    (∀ (s : State) (table : Fin 4) (entry : Fin 16),
      (bitsOf ((s.resultCfg 3 (16 * (table.val % 4) + entry.val % 16))) 0 6 < 16 ∨
        (23 < bitsOf ((s.resultCfg 3 (16 * (table.val % 4) + entry.val % 16))) 0 6 ∧
        bitsOf ((s.resultCfg 3 (16 * (table.val % 4) + entry.val % 16))) 0 6 < 40) ∨
        51 < bitsOf ((s.resultCfg 3 (16 * (table.val % 4) + entry.val % 16))) 0 6) →
      Completes (.sensorResult table entry) s fun t =>
        t = s.begin) ∧
    (∀ (s : State) (r : Fin 20),
      Completes (.readingStale r) s fun t =>
        (∀ k : Fin 12, r.val = k.val → t.get (THERM_TS_VALID.el k.val) = 0) ∧ (∀ k : Fin 8, r.val = 12 + k.val →
          t.get (THERM_AUXT_VALID.el k.val) = 0) ∧ t.therm = s.therm ∧ Frame [PG_THERM] s t) ∧
    (∀ (s : State) (m : Master),
      s.accepts m = true ∧ hostMaster m = true ∧ s.enabled PG_THERM = true ∧ s.dev.freset.contains PG_THERM = false →
      Completes (.thermStep m) s fun t =>
        t.get THERM_LEVEL_TD = (throttleStep s.tempMax (s.get THERM_CFG_T_THROTTLE) s.tdMax (s.get THERM_LEVEL_TD) % 2 ^ THERM_LEVEL_TD.w) ∧
          Frame [PG_DEV, PG_THERM, PG_POL, PG_POL + 1, PG_POL + 2, PG_POL + 3, PG_LDO, PG_EVQ, PG_BAL, PG_BAL + 1, PG_BAL + 2, PG_BAL + 3, PG_BAL + 4, PG_BAL + 5, PG_BAL + 6, PG_BAL + 7, PG_BAL + 8, PG_BAL + 9, PG_BAL + 10, PG_BAL + 11, PG_BAL + 12, PG_BAL + 13, PG_BAL + 14, PG_BAL + 15] s t) ∧
    (∀ (s : State) (m : Master),
      s.accepts m = true ∧ hostMaster m = true ∧ s.enabled PG_THERM = false ∧ s.dev.freset.contains PG_THERM = false →
      Completes (.thermStep m) s fun t =>
        t.get THERM_LEVEL_TD = 0 ∧ (∀ n : Fin 16, t.get (tcField n) = 0) ∧
          Frame [PG_DEV, PG_THERM, PG_POL, PG_POL + 1, PG_POL + 2, PG_POL + 3, PG_LDO, PG_EVQ, PG_BAL, PG_BAL + 1, PG_BAL + 2, PG_BAL + 3, PG_BAL + 4, PG_BAL + 5, PG_BAL + 6, PG_BAL + 7, PG_BAL + 8, PG_BAL + 9, PG_BAL + 10, PG_BAL + 11, PG_BAL + 12, PG_BAL + 13, PG_BAL + 14, PG_BAL + 15] s t) ∧
    (∀ (s : State),
      s.enabled PG_THERM = true →
      Completes (.thermAutostep) s fun t =>
        t.get THERM_LEVEL_TD = (throttleStep s.tempMax (s.get THERM_CFG_T_THROTTLE) s.tdMax (s.get THERM_LEVEL_TD) % 2 ^ THERM_LEVEL_TD.w) ∧
          t.statusOf PG_THERM THERM_ST_AUTOSTEP = true ∧
          Frame [PG_DEV, PG_THERM, PG_POL, PG_POL + 1, PG_POL + 2, PG_POL + 3, PG_LDO, PG_EVQ, PG_BAL, PG_BAL + 1, PG_BAL + 2, PG_BAL + 3, PG_BAL + 4, PG_BAL + 5, PG_BAL + 6, PG_BAL + 7, PG_BAL + 8, PG_BAL + 9, PG_BAL + 10, PG_BAL + 11, PG_BAL + 12, PG_BAL + 13, PG_BAL + 14, PG_BAL + 15] s t) ∧
    (∀ (s : State),
      s.enabled PG_THERM = false →
      Completes (.thermAutostep) s fun t =>
        t.get THERM_LEVEL_TD = 0 ∧ (∀ n : Fin 16, t.get (tcField n) = 0) ∧
          Frame [PG_DEV, PG_THERM, PG_POL, PG_POL + 1, PG_POL + 2, PG_POL + 3, PG_LDO, PG_EVQ, PG_BAL, PG_BAL + 1, PG_BAL + 2, PG_BAL + 3, PG_BAL + 4, PG_BAL + 5, PG_BAL + 6, PG_BAL + 7, PG_BAL + 8, PG_BAL + 9, PG_BAL + 10, PG_BAL + 11, PG_BAL + 12, PG_BAL + 13, PG_BAL + 14, PG_BAL + 15] s t) ∧
    (∀ (s : State) (k : Fin 12),
      s.injOn PG_THERM 1 = false →
      Completes (.thermalShutdown k) s fun t =>
        bitOf t.therm.shut k.val = true ∧ t.errOf PG_THERM THERM_ERR_SHUT = true ∧ t.fault.lines = s.fault.lines ++ [⟨0, false, 0, 0⟩] ∧
          bitOf (t.hdr PG_THERM hdrRAW) THERM_ST_HOT = true ∧ Frame [PG_THERM, PG_EVQ] s t)

/-- A clock off or stopped is reported in CLKMON and pulses line 2 or 3; a line that pulses for a source not set yet sets its status, latches
its class and begins a reaction, and for a source set already counts a repeat; a latch of class 3 in RUN enters SAFE with cause 8 and the
FULL hold; a line that disagrees reports error LINE; a reaction that ends writes its record; the readback of the forced pads notes the pads
that are wrong. (R9 of spec/01_architecture.md, R357 of spec/16_fault_collection.md, R358 of spec/16_fault_collection.md, R359 of
spec/16_fault_collection.md, R361 of spec/16_fault_collection.md, R362 of spec/16_fault_collection.md.) -/
def Obligations.FaultLines : Prop :=
  (∀ (s : State) (off stopped : BitVec 7),
      s.guardRuns = true →
      Completes (.clockMonitor off stopped) s fun t =>
        t.fault.clkBad = (off.toNat ||| stopped.toNat) % 128 ∧
          (t.rd FAULT_CLKMON_REF.addr).toNat % 128 = ((s.rd FAULT_CLKMON_REF.addr).toNat ||| stopped.toNat ||| (off.toNat &&& s.fault.clkBad)) % 128 ∧
          (bitOf stopped.toNat 0 = true → bitOf (s.rd FAULT_CLKMON_REF.addr).toNat 0 = false → 2 ∈ t.lineSrcs) ∧ Frame [PG_FAULT] s t) ∧
    (∀ (s : State) (off stopped : BitVec 7),
      s.guardRuns = false →
      Completes (.clockMonitor off stopped) s fun t =>
        t = s.begin) ∧
    (∀ (s : State) (sources : List (Fin 64)) (p : LinePulse),
      s.guardRuns = true ∧ s.Quiet ∧ s.pulsesOf (sources.map Fin.val) = [p] ∧ s.faultSet p.src = false ∧ s.classOf p.src = 0 ∧
        s.on FAULT_REACT_BUSY = false ∧ s.fault.latched = [] ∧ s.on FAULT_HOLDS_SHED = false ∧ s.on FAULT_HOLDS_HALT = false ∧
        s.on FAULT_HOLDS_FULL = false →
      Completes (.errorLinePulse sources) s fun t =>
        t.faultSet p.src = true ∧ t.fault.latched = [(p.src, 0)] ∧ t.get FAULT_REACT_BUSY = 1 ∧ t.get FAULT_REACT_FIRST = p.src % 64 ∧
          t.fault.reactLo = p.lo ∧ t.fault.reactHi = p.hi ∧ t.fault.reactMode = s.mode.code ∧ t.statusOf PG_FAULT FAULT_ST_LATCH = true ∧
          FrameE [PG_FAULT, PG_EVQ] s t) ∧
    (∀ (s : State) (sources : List (Fin 64)) (p : LinePulse),
      s.guardRuns = true ∧ s.Quiet ∧ s.pulsesOf (sources.map Fin.val) = [p] ∧ s.faultSet p.src = false ∧ s.classOf p.src = 3 ∧
        s.on FAULT_REACT_BUSY = false ∧ s.mode = .run ∧ p.src ≠ 5 ∧ s.fault.latched = [] ∧ s.on FAULT_HOLDS_SHED = false ∧
        s.on FAULT_HOLDS_HALT = false ∧ s.on FAULT_HOLDS_FULL = false →
      Completes (.errorLinePulse sources) s fun t =>
        t.mode = .safe ∧ t.get DEV_MODE_PREV = s.mode.code ∧ t.get DEV_MODE_CAUSE = 8 ∧ t.faultSet p.src = true ∧
          t.get FAULT_HOLDS_FULL = 1 ∧ t.get FAULT_HOLDS_HALT = 1 ∧ t.fault.latched = [(p.src, 3)]) ∧
    (∀ (s : State) (sources : List (Fin 64)),
      s.Quiet ∧ (s.guardRuns = false ∨ s.pulsesOf (sources.map Fin.val) = []) →
      Completes (.errorLinePulse sources) s fun t =>
        t.fault = s.fault ∧ FrameE [] s t) ∧
    (∀ (s : State) (k : Fin 64),
      s.guardRuns = true ∧ s.Quiet →
      Completes (.errorLineDisagree k) s fun t =>
        t.errOf PG_FAULT FAULT_ERR_LINE = true ∧ (k.val ≠ 6 → k.val ∈ t.lineSrcs) ∧ FrameE [PG_FAULT] s t) ∧
    (∀ (s : State) (k : Fin 64),
      s.guardRuns = false ∧ s.Quiet →
      Completes (.errorLineDisagree k) s fun t =>
        t.fault = s.fault ∧ FrameE [] s t) ∧
    (∀ (s : State),
      s.on FAULT_REACT_BUSY = true ∧ (s.get FAULT_REACT_CLASS < 2 ∨ s.fault.rbFirst = true) →
      Completes (.reactionEnd) s fun t =>
        t.get FAULT_REACT_BUSY = 0 ∧ t.get FAULT_COUNTS_RECORDS = satInc 4095 (s.get FAULT_COUNTS_RECORDS) ∧
          t.statusOf PG_FAULT FAULT_ST_REACTEND = true ∧ t.load (recArea + 0x18) 4 = (s.rd (faultWord 0)).toNat ∧
          RegsBut [PG_FAULT, PG_EVQ] s t ∧ t.mode = s.mode) ∧
    (∀ (s : State),
      s.on FAULT_REACT_BUSY = false ∨ (2 ≤ s.get FAULT_REACT_CLASS ∧ s.fault.rbFirst = false) →
      Completes (.reactionEnd) s fun t =>
        t = s.begin) ∧
    (∀ (s : State) (bad : List (Fin 128)),
      s.guardRuns = true ∧ s.on FAULT_HOLDS_HALT = true ∧ s.injOn PG_FAULT 1 = false →
      Completes (.snuffReadback bad) s fun t =>
        t.fault.rbFirst = true ∧ t.fault.rbBad = s.forcedPads.filter (fun p => (bad.map Fin.val).contains p) ∧ Frame [PG_FAULT] s t) ∧
    (∀ (s : State) (bad : List (Fin 128)),
      s.guardRuns = false ∨ s.on FAULT_HOLDS_HALT = false →
      Completes (.snuffReadback bad) s fun t =>
        t = s.begin)

/-- A status bit written 1 clears its source, and one whose source is still active and whose class is not 0 stays and is reported; RAISE sets
and clears its lines and pulses those it sets; the lock stays; a class is the nearest one in its source's range, and locked classes stay; an
entry that waits is written to the log and the log counts on. (R360 of spec/16_fault_collection.md, R363 of spec/16_fault_collection.md,
R364 of spec/16_fault_collection.md, R365 of spec/16_fault_collection.md, R366 of spec/16_fault_collection.md.) -/
def Obligations.FaultRegisters : Prop :=
  (∀ (s : State) (m : Master) (hi : Bool) (v : Word) (k : Nat),
      s.accepts m = true ∧ hostMaster m = true ∧ s.Quiet ∧ k / 32 = b2n hi ∧ k < 64 ∧ bitOf v.toNat (k % 32) = true ∧
        s.faultSet k = true ∧ s.fault.latched = [(k, 0)] ∧ s.on FAULT_HOLDS_SHED = false ∧ s.on FAULT_HOLDS_HALT = false ∧
        s.on FAULT_HOLDS_FULL = false →
      Completes (.faultStatusClear m hi v []) s fun t =>
        t.faultSet k = false ∧ t.fault.latched = [] ∧ FrameE [PG_DEV, PG_FAULT, PG_EVQ] s t) ∧
    (∀ (s : State) (m : Master) (hi : Bool) (v : Word) (k : Nat),
      s.accepts m = true ∧ hostMaster m = true ∧ s.Quiet ∧ k / 32 = b2n hi ∧ k < 64 ∧ bitOf v.toNat (k % 32) = true ∧
        s.faultSet k = true ∧ s.fault.latched = [(k, 1)] ∧ s.srcActive k = true ∧ s.on FAULT_HOLDS_SHED = true ∧
        s.on FAULT_HOLDS_HALT = false ∧ s.on FAULT_HOLDS_FULL = false →
      Completes (.faultStatusClear m hi v []) s fun t =>
        t.faultSet k = true ∧ t.fault.latched = [(k, 1)] ∧ t.statusOf PG_FAULT FAULT_ST_CLRREF = true ∧
          FrameE [PG_DEV, PG_FAULT, PG_EVQ] s t) ∧
    (∀ (s : State) (m : Master) (mask : BitVec 7),
      s.accepts m = true ∧ hostMaster m = true →
      Completes (.raiseSet m mask) s fun t =>
        t.get FAULT_RAISE_SET = s.get FAULT_RAISE_SET ||| mask.toNat ∧ (∀ i : Fin 7, bitOf mask.toNat i.val = true →
          bitOf (s.get FAULT_RAISE_SET) i.val = false → 57 + i.val ∈ t.lineSrcs) ∧ Frame [PG_DEV, PG_FAULT] s t) ∧
    (∀ (s : State) (m : Master) (mask : BitVec 7),
      s.accepts m = true ∧ hostMaster m = true →
      Completes (.raiseClear m mask) s fun t =>
        (∀ i : Fin 7, bitOf (t.get FAULT_RAISE_SET) i.val = (bitOf (s.get FAULT_RAISE_SET) i.val && !bitOf mask.toNat i.val)) ∧
          t.fault = s.fault ∧ Frame [PG_DEV, PG_FAULT] s t) ∧
    (∀ (s : State) (m : Master) (rest : BitVec 31),
      s.accepts m = true ∧ hostMaster m = true →
      Completes (.faultCfgLock m rest) s fun t =>
        t.get FAULT_CFG_LOCK = 1 ∧ t.fault = s.fault ∧ Frame [PG_DEV, PG_FAULT] s t) ∧
    (∀ (s : State) (m : Master) (j : Fin 8) (v : Word),
      s.accepts m = true ∧ hostMaster m = true ∧ s.on FAULT_CFG_LOCK = false →
      Completes (.classWrite m j v) s fun t =>
        (∀ i : Fin 8, t.get (classField (8 * j.val + i.val)) = clampN (classRange (8 * j.val + i.val)).1 (classRange (8 * j.val + i.val)).2 (bitsOf v.toNat (4 * i.val) 3)) ∧
          Frame [PG_DEV, PG_FAULT] s t) ∧
    (∀ (s : State) (m : Master) (j : Fin 8) (v : Word),
      s.accepts m = true ∧ hostMaster m = true ∧ s.on FAULT_CFG_LOCK = true →
      Completes (.classWrite m j v) s fun t =>
        (∀ k : Fin 64, t.get (classField k.val) = s.get (classField k.val)) ∧ Frame [PG_DEV, PG_FAULT] s t) ∧
    (∀ (s : State) (e : List Byte) (l : List (List Byte)),
      s.fault.logq = e :: l ∧ s.busy = false →
      Completes (.faultLogWrite) s fun t =>
        t.fault.logq = l ∧ t.get FAULT_LOGSTAT_PEND = l.length % 2 ^ FAULT_LOGSTAT_PEND.w ∧
          t.get FAULT_LOGSTAT_NEXT = (s.load (faultLog + 8) 4 + 1) % 1022 ∧
          t.load (faultLog + 8) 4 = (s.load (faultLog + 8) 4 + 1) % 1022 ∧
          t.load (faultLog + 12) 4 = satInc (2 ^ 32 - 1) (s.load (faultLog + 12) 4) ∧ RegsBut [PG_FAULT] s t ∧ t.mode = s.mode) ∧
    (∀ (s : State),
      s.fault.logq = [] ∨ s.busy = true →
      Completes (.faultLogWrite) s fun t =>
        t = s.begin)

/-- A tick advances the count by one, by two or by none as the trim accumulates, modulo 2^48 (clauses: no alarm enabled; and alarm 0, single,
reached within this tick, where it sets its status and its enable clears); the crystal's stop and return change the source, once each; a
read of TICK_LO freezes the set for its master, one of TICK_HI takes the frozen high word and releases it, or the live one where none is
frozen, and a freeze ends by timeout; SET waits with its key, does nothing without it, and loads at the tick that takes it; PWRON is set and
released, and a write of both sets it and counts one in COLLIDE. (R378 of spec/17_time_watchdog_cellar.md, R379 of
spec/17_time_watchdog_cellar.md, R380 of spec/17_time_watchdog_cellar.md, R381 of spec/17_time_watchdog_cellar.md, R382 of
spec/17_time_watchdog_cellar.md, R383 of spec/17_time_watchdog_cellar.md.) -/
def Obligations.RealTimeClock : Prop :=
  (∀ (s : State) (padHigh : Bool),
      s.Quiet ∧ s.injOn PG_RTC 1 = false ∧ s.injOn PG_WDOG 2 = false ∧ s.on (RTC_ALM_HI_EN.el 0) = false ∧
        s.on (RTC_ALM_HI_EN.el 1) = false →
      Completes (.rtcTick padHigh) s fun t =>
        t.cellar.count = (s.cellar.count + (if 10000000 ≤ (s.cellar.trimAcc + s.rtcTrim) then 2 else if (s.cellar.trimAcc + s.rtcTrim) ≤ -10000000 then 0 else 1)) % 2 ^ 48 ∧
          t.cellar.trimAcc = (if 10000000 ≤ (s.cellar.trimAcc + s.rtcTrim) then (s.cellar.trimAcc + s.rtcTrim) - 10000000 else if (s.cellar.trimAcc + s.rtcTrim) ≤ -10000000 then (s.cellar.trimAcc + s.rtcTrim) + 10000000 else (s.cellar.trimAcc + s.rtcTrim)) ∧
          FrameE [PG_CELLAR] s t) ∧
    (∀ (s : State) (padHigh : Bool),
      s.Quiet ∧ s.injOn PG_RTC 1 = false ∧ s.injOn PG_WDOG 2 = false ∧ s.on (RTC_ALM_HI_EN.el 0) = true ∧
        s.on (RTC_ALM_HI_EN.el 1) = false ∧ s.cellar.count < s.almValue 0 ∧
        s.almValue 0 ≤ (s.cellar.count + (if 10000000 ≤ (s.cellar.trimAcc + s.rtcTrim) then 2 else if (s.cellar.trimAcc + s.rtcTrim) ≤ -10000000 then 0 else 1)) % 2 ^ 48 ∧
        s.get (RTC_ALM_PER_PER.el 0) = 0 ∧ (s.on (RTC_ALM_HI_WAKE.el 0) = false ∨ (s.mode ≠ .cellar ∧ s.mode ≠ .hibernate)) →
      Completes (.rtcTick padHigh) s fun t =>
        t.cellar.count = (s.cellar.count + (if 10000000 ≤ (s.cellar.trimAcc + s.rtcTrim) then 2 else if (s.cellar.trimAcc + s.rtcTrim) ≤ -10000000 then 0 else 1)) % 2 ^ 48 ∧
          t.get (RTC_ALM_HI_EN.el 0) = 0 ∧ t.statusOf PG_RTC RTC_ST_ALM0 = true ∧ (s.on (RTC_ALM_HI_PWRON.el 0) = true →
          t.get CELLAR_PWRON_SET = 1) ∧ FrameE [PG_RTC, PG_CELLAR, PG_EVQ] s t) ∧
    (∀ (s : State),
      s.cellar.fallback = false →
      Completes (.crystalStop) s fun t =>
        t.cellar.fallback = true ∧ t.get RTC_SRC_FALLBACK = 1 ∧ t.errOf PG_RTC RTC_ERR_XTAL = true ∧ Frame [PG_RTC] s t) ∧
    (∀ (s : State),
      s.cellar.fallback = true →
      Completes (.crystalStop) s fun t =>
        t = s.begin) ∧
    (∀ (s : State),
      s.cellar.fallback = true →
      Completes (.crystalReturn) s fun t =>
        t.cellar.fallback = false ∧ t.get RTC_SRC_FALLBACK = 0 ∧ t.statusOf PG_RTC RTC_ST_XTOK = true ∧ Frame [PG_RTC, PG_EVQ] s t) ∧
    (∀ (s : State),
      s.cellar.fallback = false →
      Completes (.crystalReturn) s fun t =>
        t = s.begin) ∧
    (∀ (s : State) (m : Master),
      s.accepts m = true ∧ s.injOn PG_RTC 0 = false ∧ s.frozenOf (masterId m) = none →
      Completes (.rtcTickLoRead m) s fun t =>
        t.answer = [s.cellar.count % 2 ^ 32] ∧ t.frozenOf (masterId m) = some s.cellar.count ∧ t.cellar.count = s.cellar.count ∧
          Frame [] s t) ∧
    (∀ (s : State) (m : Master) (v : Nat),
      s.accepts m = true ∧ s.injOn PG_RTC 0 = false ∧ s.frozenOf (masterId m) = some v →
      Completes (.rtcTickLoRead m) s fun t =>
        t.answer = [v % 2 ^ 32] ∧ t.cellar = s.cellar ∧ Frame [] s t) ∧
    (∀ (s : State) (m : Master) (v : Nat),
      s.accepts m = true ∧ s.injOn PG_RTC 0 = false ∧ s.frozenOf (masterId m) = some v →
      Completes (.rtcTickHiRead m) s fun t =>
        t.answer = [v / 2 ^ 32] ∧ t.frozenOf (masterId m) = none ∧ t.cellar.count = s.cellar.count ∧ Frame [] s t) ∧
    (∀ (s : State) (m : Master),
      s.accepts m = true ∧ s.injOn PG_RTC 0 = false ∧ s.frozenOf (masterId m) = none →
      Completes (.rtcTickHiRead m) s fun t =>
        t.answer = [s.cellar.count / 2 ^ 32] ∧ t.cellar = s.cellar ∧ Frame [] s t) ∧
    (∀ (s : State) (m : Master),
      (s.frozenOf (masterId m)).isSome = true →
      Completes (.rtcFreezeTimeout m) s fun t =>
        t.frozenOf (masterId m) = none ∧ t.statusOf PG_RTC RTC_ST_FRZTO = true ∧ t.cellar.count = s.cellar.count ∧
          Frame [PG_RTC, PG_EVQ] s t) ∧
    (∀ (s : State) (m : Master),
      s.frozenOf (masterId m) = none →
      Completes (.rtcFreezeTimeout m) s fun t =>
        t = s.begin) ∧
    (∀ (s : State) (m : Master) (key : BitVec 16),
      s.accepts m = true ∧ hostMaster m = true ∧ key = 0x2C7D →
      Completes (.rtcSet m key) s fun t =>
        t.cellar = { s.cellar with setWait := some ((s.rd (PG_RTC * 0x400 + 0x048)).toNat + s.get RTC_SET_HI_HI * 2 ^ 32) } ∧
          Frame [PG_DEV, PG_RTC] s t) ∧
    (∀ (s : State) (m : Master) (key : BitVec 16),
      s.accepts m = true ∧ hostMaster m = true ∧ key ≠ 0x2C7D →
      Completes (.rtcSet m key) s fun t =>
        t.cellar = s.cellar ∧ Frame [PG_DEV, PG_RTC] s t) ∧
    (∀ (s : State) (v : Nat),
      s.cellar.setWait = some v →
      Completes (.rtcSetLoad) s fun t =>
        t.cellar = { s.cellar with count := v, trimAcc := 0, setWait := none } ∧ t.statusOf PG_RTC RTC_ST_SETDONE = true ∧
          Frame [PG_RTC, PG_EVQ] s t) ∧
    (∀ (s : State),
      s.cellar.setWait = none →
      Completes (.rtcSetLoad) s fun t =>
        t = s.begin) ∧
    (∀ (s : State) (m : Master),
      s.accepts m = true ∧ hostMaster m = true →
      Completes (.pwronSet m) s fun t =>
        t.get CELLAR_PWRON_SET = 1 ∧ bitOf (t.hdr PG_CELLAR hdrRAW) CELLAR_ST_PWRON = true ∧ Frame [PG_DEV, PG_CELLAR, PG_EVQ] s t) ∧
    (∀ (s : State) (m : Master),
      s.accepts m = true ∧ hostMaster m = true →
      Completes (.pwronRelease m false) s fun t =>
        t.get CELLAR_PWRON_SET = 0 ∧ bitOf (t.hdr PG_CELLAR hdrRAW) CELLAR_ST_PWRON = false ∧ Frame [PG_DEV, PG_CELLAR] s t) ∧
    (∀ (s : State) (m : Master),
      s.accepts m = true ∧ hostMaster m = true →
      Completes (.pwronRelease m true) s fun t =>
        t.get CELLAR_PWRON_SET = 1 ∧ t.hdr PG_CELLAR hdrCOLLIDE = min 255 (s.hdr PG_CELLAR hdrCOLLIDE % 256 + 1) ∧
          Frame [PG_DEV, PG_CELLAR, PG_EVQ] s t)

/-- A write of CFG switches the watchdog on, and a later one changes nothing and reports LOCKWR; a service with its key inside the window and
with every task checked in begins a new window; a wrong key, a service before the window opens, a task that has not checked in and the
window's end bite, each with its cause: with ACTION 1 a bite reports, pulses line 4 and begins a first window, with ACTION 0 it is a device
reset; WARN is reported at its count; a failed GUARD clock is a device reset, and a failed cellar clock reports CLKFAIL, or bites where the
watchdog runs by it. (R387 of spec/17_time_watchdog_cellar.md, R388 of spec/17_time_watchdog_cellar.md, R389 of
spec/17_time_watchdog_cellar.md, R390 of spec/17_time_watchdog_cellar.md, R391 of spec/17_time_watchdog_cellar.md, R392 of
spec/17_time_watchdog_cellar.md, R393 of spec/17_time_watchdog_cellar.md.) -/
def Obligations.Watchdog : Prop :=
  (∀ (s : State) (m : Master) (v : Word),
      s.accepts m = true ∧ hostMaster m = true ∧ s.wdog.on = false →
      Completes (.wdogCfgWrite m v) s fun t =>
        t.wdog.on = true ∧ (s.mode = .run → t.wdog = ⟨true, 0, true, List.replicate 16 0, true⟩) ∧ Frame [PG_DEV, PG_WDOG] s t) ∧
    (∀ (s : State) (m : Master) (v : Word),
      s.accepts m = true ∧ hostMaster m = true ∧ s.wdog.on = true →
      Completes (.wdogCfgWrite m v) s fun t =>
        t.rd (hdrAddr PG_WDOG 0x40) = s.rd (hdrAddr PG_WDOG 0x40) ∧ t.wdog = s.wdog ∧ t.errOf PG_WDOG WDOG_ERR_LOCKWR = true ∧
          Frame [PG_DEV, PG_WDOG] s t) ∧
    (∀ (s : State) (m : Master) (v : Word) (count : BitVec 16),
      s.accepts m = true ∧ hostMaster m = true ∧ s.Quiet ∧ s.wdog.on = true ∧ s.wdog.window = true ∧ s.injOn PG_WDOG 1 = false ∧
        v.toNat / 0x10000 = 0x7D1E ∧ atLeast1 (s.get WDOG_WIN_OPEN) ≤ count.toNat ∧ count.toNat < s.wdogClose ∧ s.missingMask = 0 →
      Completes (.wdogService m v count) s fun t =>
        t.wdog = ⟨true, 0, false, List.replicate 16 0, true⟩ ∧ t.statusOf PG_WDOG WDOG_ST_SERVICED = true ∧
          FrameE [PG_DEV, PG_WDOG, PG_EVQ] s t) ∧
    (∀ (s : State) (m : Master) (v : Word) (count : BitVec 16),
      s.accepts m = true ∧ hostMaster m = true ∧ s.Quiet ∧ s.wdog.on = true ∧ s.wdog.window = true ∧ s.injOn PG_WDOG 1 = false ∧
        v.toNat / 0x10000 ≠ 0x7D1E ∧ s.on WDOG_CFG_ACTION = true →
      Completes (.wdogService m v count) s fun t =>
        t.get WDOG_BITE1_CAUSE = 5 ∧ t.get WDOG_BITE1_COUNT = count.toNat ∧ t.statusOf PG_WDOG WDOG_ST_BITE = true ∧ 4 ∈ t.lineSrcs ∧
          t.wdog = ⟨true, 0, true, List.replicate 16 0, true⟩ ∧ RegsButE [PG_DEV, PG_WDOG, PG_EVQ] s t ∧ t.mode = s.mode) ∧
    (∀ (s : State) (m : Master) (v : Word) (count : BitVec 16),
      s.accepts m = true ∧ hostMaster m = true ∧ s.Quiet ∧ s.wdog.on = true ∧ s.wdog.window = true ∧ s.injOn PG_WDOG 1 = false ∧
        v.toNat / 0x10000 = 0x7D1E ∧ count.toNat < atLeast1 (s.get WDOG_WIN_OPEN) ∧ s.on WDOG_CFG_ACTION = true →
      Completes (.wdogService m v count) s fun t =>
        t.get WDOG_BITE1_CAUSE = 1 ∧ t.get WDOG_BITE1_COUNT = count.toNat ∧ t.statusOf PG_WDOG WDOG_ST_BITE = true ∧ 4 ∈ t.lineSrcs ∧
          t.wdog = ⟨true, 0, true, List.replicate 16 0, true⟩ ∧ RegsButE [PG_DEV, PG_WDOG, PG_EVQ] s t ∧ t.mode = s.mode) ∧
    (∀ (s : State) (m : Master) (v : Word) (count : BitVec 16),
      s.accepts m = true ∧ hostMaster m = true ∧ s.Quiet ∧ s.wdog.on = true ∧ s.wdog.window = true ∧ s.injOn PG_WDOG 1 = false ∧
        v.toNat / 0x10000 = 0x7D1E ∧ atLeast1 (s.get WDOG_WIN_OPEN) ≤ count.toNat ∧ s.missingMask ≠ 0 ∧ s.on WDOG_CFG_ACTION = true →
      Completes (.wdogService m v count) s fun t =>
        t.get WDOG_BITE1_CAUSE = 3 ∧ t.get WDOG_BITE1_COUNT = count.toNat ∧ t.statusOf PG_WDOG WDOG_ST_BITE = true ∧ 4 ∈ t.lineSrcs ∧
          t.wdog = ⟨true, 0, true, List.replicate 16 0, true⟩ ∧ RegsButE [PG_DEV, PG_WDOG, PG_EVQ] s t ∧ t.mode = s.mode) ∧
    (∀ (s : State) (m : Master) (v : Word) (count : BitVec 16),
      s.accepts m = true ∧ hostMaster m = true ∧ s.wdog.on = true ∧ s.wdog.window = true ∧ s.injOn PG_WDOG 1 = false ∧
        v.toNat / 0x10000 ≠ 0x7D1E ∧ s.on WDOG_CFG_ACTION = false →
      Completes (.wdogService m v count) s fun t =>
        t.mode = .rise ∧ t.get DEV_MODE_CAUSE = 3 ∧ t.get DEV_MODE_PREV = s.mode.code ∧ t.get DEV_BOOT_RISECAUSE = 4) ∧
    (∀ (s : State) (m : Master) (v : Word) (count : BitVec 16),
      s.accepts m = true ∧ hostMaster m = true ∧ s.Quiet ∧ (s.wdog.on = false ∨ s.wdog.window = false) →
      Completes (.wdogService m v count) s fun t =>
        t.wdog = s.wdog ∧ FrameE [PG_DEV, PG_WDOG] s t) ∧
    (∀ (s : State),
      s.wdogCounting = true ∧ s.wdog.window = true ∧ s.get WDOG_WIN1_WARN ≠ 0 →
      Completes (.wdogWarn) s fun t =>
        t.wdog = { s.wdog with count := s.get WDOG_WIN1_WARN } ∧ t.statusOf PG_WDOG WDOG_ST_WARN = true ∧ Frame [PG_WDOG, PG_EVQ] s t) ∧
    (∀ (s : State),
      s.wdogCounting = false ∨ s.wdog.window = false ∨ s.get WDOG_WIN1_WARN = 0 →
      Completes (.wdogWarn) s fun t =>
        t = s.begin) ∧
    (∀ (s : State),
      s.Quiet ∧ s.wdogCounting = true ∧ s.wdog.window = true ∧ s.on WDOG_CFG_ACTION = true →
      Completes (.wdogClose) s fun t =>
        t.get WDOG_BITE1_CAUSE = 2 ∧ t.statusOf PG_WDOG WDOG_ST_BITE = true ∧ 4 ∈ t.lineSrcs ∧
          t.wdog = ⟨true, 0, true, List.replicate 16 0, true⟩ ∧ RegsButE [PG_WDOG, PG_EVQ] s t ∧ t.mode = s.mode) ∧
    (∀ (s : State),
      s.wdogCounting = true ∧ s.wdog.window = true ∧ s.on WDOG_CFG_ACTION = false →
      Completes (.wdogClose) s fun t =>
        t.mode = .rise ∧ t.get DEV_MODE_CAUSE = 3 ∧ t.get DEV_MODE_PREV = s.mode.code ∧ t.get DEV_BOOT_RISECAUSE = 4) ∧
    (∀ (s : State),
      s.Quiet ∧ (s.wdogCounting = false ∨ s.wdog.window = false) →
      Completes (.wdogClose) s fun t =>
        t.wdog = s.wdog ∧ FrameE [] s t) ∧
    (∀ (s : State),
      s.guardRuns = true →
      Completes (.mutualClockFail true) s fun t =>
        t.mode = .rise ∧ t.get DEV_MODE_CAUSE = 3 ∧ t.get DEV_MODE_PREV = s.mode.code ∧ t.get DEV_BOOT_RISECAUSE = 5) ∧
    (∀ (s : State),
      s.Quiet ∧ s.guardRuns = true ∧ (s.wdog.on = false ∨ s.on WDOG_CFG_CLKSEL = false) →
      Completes (.mutualClockFail false) s fun t =>
        t.errOf PG_WDOG WDOG_ERR_CLKFAIL = true ∧ t.wdog = s.wdog ∧ FrameE [PG_WDOG] s t) ∧
    (∀ (s : State),
      s.Quiet ∧ s.guardRuns = true ∧ s.wdog.on = true ∧ s.on WDOG_CFG_CLKSEL = true ∧ s.on WDOG_CFG_ACTION = true →
      Completes (.mutualClockFail false) s fun t =>
        t.get WDOG_BITE1_CAUSE = 6 ∧ t.get WDOG_BITE1_COUNT = s.wdog.count ∧ t.statusOf PG_WDOG WDOG_ST_BITE = true ∧ 4 ∈ t.lineSrcs ∧
          t.wdog = ⟨true, 0, true, List.replicate 16 0, true⟩ ∧ RegsButE [PG_WDOG, PG_EVQ] s t ∧ t.mode = s.mode) ∧
    (∀ (s : State) (guardRc : Bool),
      s.Quiet ∧ s.guardRuns = false →
      Completes (.mutualClockFail guardRc) s fun t =>
        t.wdog = s.wdog ∧ FrameE [] s t)

/-- Without DONE mode the oldest firing is written as a record into its shelf, with the next sequence number and the write pointer after it, or
is counted as lost when the shelf is full; in DONE mode the first firing of a source is recorded and the source becomes active, and a firing
of an active source waits; a read pointer within the shelf's records is taken, and another reports BADPTR; DONE takes an active source out,
records a firing that waits for it, and reports BADDONE for a source that is not active; the end of the moderation time asserts a line that
has records; a drained host is idle after its time; a notification that got through or failed is reported. (R396 of
spec/17_time_watchdog_cellar.md, R397 of spec/18_event_queues.md, R399 of spec/18_event_queues.md, R402 of spec/18_event_queues.md, R403 of
spec/18_event_queues.md, R404 of spec/18_event_queues.md, R406 of spec/18_event_queues.md, R421 of spec/19_host_buses.md.) -/
def Obligations.EventQueue : Prop :=
  (∀ (s : State) (f : Firing) (l : List Firing),
      s.evq.firings = f :: l ∧ s.evqRuns = true ∧ s.on (evqCfg EVQ_CFGA_DONEMODE f.shelfB) = false ∧ s.evqCount f.shelfB ≠ 512 →
      Completes (.eventRecord) s fun t =>
        t.evq.firings = l ∧ t.get (evqW f.shelfB) = (s.get (evqW f.shelfB) + 1) % 1024 ∧
          t.get (evqSt EVQ_STATEA_NEXTSEQ f.shelfB) = (s.get (evqSt EVQ_STATEA_NEXTSEQ f.shelfB) + 1) % 65536 ∧
          t.load ((if f.shelfB then 0x1A2000 else 0x1A0000) + 16 * (s.get (evqW f.shelfB) % 512)) 4 = nth (recordWords f false (s.get (evqSt EVQ_STATEA_NEXTSEQ f.shelfB))) 0 % 2 ^ 32 ∧
          MemBut ((if f.shelfB then 0x1A2000 else 0x1A0000) + 16 * (s.get (evqW f.shelfB) % 512)) 16 s t ∧ RegsBut [PG_EVQ] s t ∧
          t.mode = s.mode) ∧
    (∀ (s : State) (f : Firing) (l : List Firing),
      s.evq.firings = f :: l ∧ s.evqRuns = true ∧ s.on (evqCfg EVQ_CFGA_DONEMODE f.shelfB) = false ∧ s.evqCount f.shelfB = 512 →
      Completes (.eventRecord) s fun t =>
        t.get (if f.shelfB then EVQ_LOST_B else EVQ_LOST_A) = satInc 32767 (s.get (if f.shelfB then EVQ_LOST_B else EVQ_LOST_A)) ∧
          t.statusOf PG_EVQ (if f.shelfB then EVQ_ST_OVFB else EVQ_ST_OVFA) = true ∧ t.get (evqW f.shelfB) = s.get (evqW f.shelfB) ∧
          Frame [PG_EVQ] s t) ∧
    (∀ (s : State) (f : Firing) (l : List Firing),
      s.evq.firings = f :: l ∧ s.evqRuns = true ∧ s.on (evqCfg EVQ_CFGA_DONEMODE f.shelfB) = true ∧ s.injOn PG_EVQ 1 = false ∧
        s.srcState f.src = none ∧ s.evqCount f.shelfB ≠ 512 →
      Completes (.eventRecord) s fun t =>
        t.evq.firings = l ∧ t.evq.active = s.evq.active ++ [⟨f.src, false, f⟩] ∧
          t.get (evqW f.shelfB) = (s.get (evqW f.shelfB) + 1) % 1024 ∧ RegsBut [PG_EVQ] s t ∧ t.mode = s.mode) ∧
    (∀ (s : State) (f : Firing) (l : List Firing) (x : SrcState),
      s.evq.firings = f :: l ∧ s.evqRuns = true ∧ s.on (evqCfg EVQ_CFGA_DONEMODE f.shelfB) = true ∧ s.injOn PG_EVQ 1 = false ∧
        s.srcState f.src = some x →
      Completes (.eventRecord) s fun t =>
        t.evq.firings = l ∧ (t.srcState f.src).map (·.pend) = some true ∧ t.get (evqW f.shelfB) = s.get (evqW f.shelfB) ∧ Frame [] s t) ∧
    (∀ (s : State),
      s.evq.firings = [] ∨ s.evqRuns = false →
      Completes (.eventRecord) s fun t =>
        t = s.begin) ∧
    (∀ (s : State) (m : Master) (shelfB : Bool) (v : Word),
      s.accepts m = true ∧ hostMaster m = true ∧ ((v.toNat % 1024 + 1024 - s.get (evqR shelfB)) % 1024) ≤ s.evqCount shelfB →
      Completes (.rptrWrite m shelfB v) s fun t =>
        t.get (evqR shelfB) = v.toNat % 1024 ∧ (t.irqLine shelfB).idle = false ∧ (t.irqLine shelfB).drained = (t.evqCount shelfB == 0) ∧
          t.irqLine (!shelfB) = s.irqLine (!shelfB) ∧ Frame [PG_DEV, PG_EVQ] s t) ∧
    (∀ (s : State) (m : Master) (shelfB : Bool) (v : Word),
      s.accepts m = true ∧ hostMaster m = true ∧ s.evqCount shelfB < ((v.toNat % 1024 + 1024 - s.get (evqR shelfB)) % 1024) →
      Completes (.rptrWrite m shelfB v) s fun t =>
        t.get (evqR shelfB) = s.get (evqR shelfB) ∧ t.statusOf PG_EVQ EVQ_ST_BADPTR = true ∧ Frame [PG_DEV, PG_EVQ] s t) ∧
    (∀ (s : State) (m : Master) (src : BitVec 10),
      s.accepts m = true ∧ hostMaster m = true ∧ s.injOn PG_EVQ 1 = false ∧ src.toNat < 0x3C8 ∧
        (s.srcState src.toNat).map (·.pend) = some false →
      Completes (.doneWrite m src) s fun t =>
        t.srcState src.toNat = none ∧ t.evq.firings = s.evq.firings ∧ Frame [PG_DEV, PG_EVQ] s t) ∧
    (∀ (s : State) (m : Master) (src : BitVec 10) (x : SrcState),
      s.accepts m = true ∧ hostMaster m = true ∧ s.injOn PG_EVQ 1 = false ∧ src.toNat < 0x3C8 ∧ s.srcState src.toNat = some x ∧
        x.pend = true ∧ s.evqCount x.f.shelfB ≠ 512 →
      Completes (.doneWrite m src) s fun t =>
        (t.srcState src.toNat).map (·.pend) = some false ∧ t.get (evqW x.f.shelfB) = (s.get (evqW x.f.shelfB) + 1) % 1024 ∧
          RegsBut [PG_DEV, PG_EVQ] s t ∧ t.mode = s.mode) ∧
    (∀ (s : State) (m : Master) (src : BitVec 10),
      s.accepts m = true ∧ hostMaster m = true ∧ s.injOn PG_EVQ 1 = false ∧ s.srcState src.toNat = none →
      Completes (.doneWrite m src) s fun t =>
        t.evq.active = s.evq.active ∧ t.statusOf PG_EVQ EVQ_ST_BADDONE = true ∧ Frame [PG_DEV, PG_EVQ] s t) ∧
    (∀ (s : State) (shelfB : Bool),
      s.evqCount shelfB = 0 ∨ s.enabled PG_EVQ = false →
      Completes (.irqModerationExpire shelfB) s fun t =>
        (t.irqLine shelfB).modOk = true ∧ (t.irqLine shelfB).asserted = false ∧ t.irqLine (!shelfB) = s.irqLine (!shelfB) ∧
          Frame [PG_EVQ] s t) ∧
    (∀ (s : State) (shelfB : Bool),
      s.evqCount shelfB ≠ 0 ∧ s.enabled PG_EVQ = true ∧ (s.irqLine shelfB).asserted = false →
      Completes (.irqModerationExpire shelfB) s fun t =>
        (t.irqLine shelfB).asserted = true ∧ (t.irqLine shelfB).modOk = false ∧
          t.get (evqSt EVQ_STATEA_IRQ shelfB) = b2n (s.on (evqCfg EVQ_CFGA_IRQEN shelfB)) ∧ t.irqLine (!shelfB) = s.irqLine (!shelfB) ∧
          Frame [PG_EVQ] s t) ∧
    (∀ (s : State) (shelfB : Bool),
      (s.irqLine shelfB).drained = true →
      Completes (.hostIdle shelfB) s fun t =>
        (t.irqLine shelfB).idle = true ∧ t.get (evqSt EVQ_STATEA_IDLE shelfB) = 1 ∧ t.irqLine (!shelfB) = s.irqLine (!shelfB) ∧
          Frame [PG_EVQ] s t) ∧
    (∀ (s : State) (shelfB : Bool),
      (s.irqLine shelfB).drained = false →
      Completes (.hostIdle shelfB) s fun t =>
        t = s.begin) ∧
    (∀ (s : State) (shelfB ok : Bool),
      (s.irqLine shelfB).notify = true →
      Completes (.hostNotifyRepeat shelfB ok) s fun t =>
        (t.irqLine shelfB).notify = false ∧ t.statusOf PG_I2CT (if ok then I2CT_ST_HNSENT else I2CT_ST_HNFAIL) = true ∧
          t.irqLine (!shelfB) = s.irqLine (!shelfB) ∧ Frame [PG_I2CT, PG_EVQ] s t) ∧
    (∀ (s : State) (shelfB ok : Bool),
      (s.irqLine shelfB).notify = false ∧ ((s.irqLine shelfB).asserted = false ∨ s.notifyOn shelfB = false) →
      Completes (.hostNotifyRepeat shelfB ok) s fun t =>
        t = s.begin)

/-- A local or remote frame whose CRC is right, well formed and met by no long operation is answered with the status byte and the token 0xA5, a
local read with the data and their CRC after it; a remote write or read is queued for the ring, and a read marks its copy pending; one whose
CRC is wrong, and one met by a long operation, is answered with the token 0x5A and recorded (CRCERR with the next status byte's CRC_ERR;
BUSYREJ), and nothing of it is applied; a remote command that cannot be sent is answered with 0x5A and RMTREJ; a frame cut short is recorded
as ABORT; while the port does not run nothing is answered. (R412 of spec/19_host_buses.md, R413 of spec/19_host_buses.md, R414 of
spec/19_host_buses.md, R416 of spec/19_host_buses.md, R417 of spec/19_host_buses.md.) -/
def Obligations.SpiFrames : Prop :=
  (∀ (s : State) (f : HostFrame),
      s.bankLow 2 = false ∧ s.portRuns = true ∧ s.injOn PG_SPI 1 = false ∧ crc8 0xFF (frameBytes f true none) = f.crc.toNat ∧
        frameMalformed f true none = false ∧ s.busy = false ∧ frameCount f ≤ f.data.length →
      Completes (.spiLocalWrite f) s fun t =>
        t.answer = [s.statusByte s.bus.spiBad, 0xA5]) ∧
    (∀ (s : State) (f : HostFrame),
      s.Quiet ∧ s.bankLow 2 = false ∧ s.portRuns = true ∧ s.injOn PG_SPI 1 = false ∧ crc8 0xFF (frameBytes f true none) ≠ f.crc.toNat ∧
        frameCount f ≤ f.data.length →
      Completes (.spiLocalWrite f) s fun t =>
        t.answer = [s.statusByte s.bus.spiBad, 0x5A] ∧ t.bus.spiBad = true ∧ t.statusOf PG_SPI SPI_ST_CRCERR = true ∧
          t.get SPI_COUNTS_BAD = satInc 32767 (s.get SPI_COUNTS_BAD) ∧ t.get SPI_LASTBAD_ADDR = f.addr.toNat ∧ FrameE [PG_SPI, PG_EVQ] s t) ∧
    (∀ (s : State) (f : HostFrame),
      s.bankLow 2 = false ∧ s.portRuns = false →
      Completes (.spiLocalWrite f) s fun t =>
        t.answer = [] ∧ t.bus = s.bus) ∧
    (∀ (s : State) (f : HostFrame),
      s.bankLow 2 = false ∧ s.portRuns = true ∧ s.injOn PG_SPI 1 = false ∧ crc8 0xFF (frameBytes f false none) = f.crc.toNat ∧
        frameMalformed f false none = false ∧ s.busy = false →
      Completes (.spiLocalRead f) s fun t =>
        t.answer = [s.statusByte s.bus.spiBad, 0xA5] ++ ((s.begin.spiRecord .spi .accept 0 0).readWords .spi f.addr.toNat (frameCount f)).1.flatMap (msbBytes 4) ++ [crc8 0xFF (s.statusByte s.bus.spiBad :: ((s.begin.spiRecord .spi .accept 0 0).readWords .spi f.addr.toNat (frameCount f)).1.flatMap (msbBytes 4))] ∧
          t.bus.spiBad = false) ∧
    (∀ (s : State) (f : HostFrame),
      s.Quiet ∧ s.bankLow 2 = false ∧ s.portRuns = true ∧ s.injOn PG_SPI 1 = false ∧ crc8 0xFF (frameBytes f false none) ≠ f.crc.toNat →
      Completes (.spiLocalRead f) s fun t =>
        t.answer = [s.statusByte s.bus.spiBad, 0x5A] ∧ t.bus.spiBad = true ∧ t.statusOf PG_SPI SPI_ST_CRCERR = true ∧
          t.get SPI_COUNTS_BAD = satInc 32767 (s.get SPI_COUNTS_BAD) ∧ t.get SPI_LASTBAD_ADDR = f.addr.toNat ∧ FrameE [PG_SPI, PG_EVQ] s t) ∧
    (∀ (s : State) (f : HostFrame),
      s.bankLow 2 = false ∧ s.portRuns = false →
      Completes (.spiLocalRead f) s fun t =>
        t.answer = [] ∧ t.bus = s.bus) ∧
    (∀ (s : State) (dev : BitVec 16) (f : HostFrame),
      s.bankLow 2 = false ∧ s.portRuns = true ∧ s.injOn PG_SPI 1 = false ∧ crc8 0xFF (frameBytes f true (some dev)) = f.crc.toNat ∧
        frameMalformed f true (some dev) = false ∧ s.busy = false ∧ s.ownNum dev.toNat = false ∧ 512 ≤ dev.toNat ∧ dev ≠ 0xFFFF ∧
        frameCount f ≤ f.data.length →
      Completes (.spiRemoteWrite dev f) s fun t =>
        t.answer = [s.statusByte s.bus.spiBad, 0xA5] ∧ t.bus.spiBad = false ∧ t.statusOf PG_DEV DEV_ST_UNMAPPED = true) ∧
    (∀ (s : State) (dev : BitVec 16) (f : HostFrame),
      s.Quiet ∧ s.bankLow 2 = false ∧ s.portRuns = true ∧ s.injOn PG_SPI 1 = false ∧
        crc8 0xFF (frameBytes f true (some dev)) = f.crc.toNat ∧ frameMalformed f true (some dev) = false ∧ s.busy = false ∧
        s.ownNum dev.toNat = false ∧ dev.toNat < 512 ∧ s.postWriteOk = true ∧ frameCount f ≤ f.data.length →
      Completes (.spiRemoteWrite dev f) s fun t =>
        t.answer = [s.statusByte s.bus.spiBad, 0xA5] ∧ t.ring.txq.length = s.ring.txq.length + 1 ∧ FrameE [PG_SPI, PG_EVQ] s t) ∧
    (∀ (s : State) (dev : BitVec 16) (f : HostFrame),
      s.Quiet ∧ s.bankLow 2 = false ∧ s.portRuns = true ∧ s.injOn PG_SPI 1 = false ∧
        crc8 0xFF (frameBytes f true (some dev)) = f.crc.toNat ∧ frameMalformed f true (some dev) = false ∧ s.busy = false ∧
        s.ownNum dev.toNat = false ∧ dev.toNat < 512 ∧ s.postWriteOk = false ∧ frameCount f ≤ f.data.length →
      Completes (.spiRemoteWrite dev f) s fun t =>
        t.answer = [s.statusByte s.bus.spiBad, 0x5A] ∧ t.statusOf PG_SPI SPI_ST_RMTREJ = true ∧ FrameE [PG_SPI, PG_EVQ] s t) ∧
    (∀ (s : State) (dev : BitVec 16) (f : HostFrame),
      s.bankLow 2 = false ∧ s.portRuns = true ∧ s.injOn PG_SPI 1 = false ∧ crc8 0xFF (frameBytes f true (some dev)) = f.crc.toNat ∧
        frameMalformed f true (some dev) = false ∧ s.busy = false ∧ s.ownNum dev.toNat = true ∧ frameCount f ≤ f.data.length →
      Completes (.spiRemoteWrite dev f) s fun t =>
        t.answer = [s.statusByte s.bus.spiBad, 0xA5]) ∧
    (∀ (s : State) (dev : BitVec 16) (f : HostFrame),
      s.Quiet ∧ s.bankLow 2 = false ∧ s.portRuns = true ∧ s.injOn PG_SPI 1 = false ∧
        crc8 0xFF (frameBytes f false (some dev)) = f.crc.toNat ∧ frameMalformed f false (some dev) = false ∧ s.busy = false ∧
        s.ownNum dev.toNat = false ∧ dev.toNat < 512 ∧ s.postReadOk 1 = true →
      Completes (.spiRemoteRead dev f) s fun t =>
        t.answer = [s.statusByte s.bus.spiBad, 0xA5] ∧ t.ring.txq.length = s.ring.txq.length + 1 ∧
          t.rmtOf 1 = ⟨1, 0, 0, dev.toNat, []⟩ ∧ FrameE [PG_SPI, PG_EVQ] s t) ∧
    (∀ (s : State) (dev : BitVec 16) (f : HostFrame),
      s.Quiet ∧ s.bankLow 2 = false ∧ s.portRuns = true ∧ s.injOn PG_SPI 1 = false ∧
        crc8 0xFF (frameBytes f false (some dev)) = f.crc.toNat ∧ frameMalformed f false (some dev) = false ∧ s.busy = false ∧
        s.ownNum dev.toNat = false ∧ dev.toNat < 512 ∧ s.postReadOk 1 = false →
      Completes (.spiRemoteRead dev f) s fun t =>
        t.answer = [s.statusByte s.bus.spiBad, 0x5A] ∧ t.statusOf PG_SPI SPI_ST_RMTREJ = true ∧ FrameE [PG_SPI, PG_EVQ] s t) ∧
    (∀ (s : State) (f : HostFrame),
      s.Quiet ∧ s.bankLow 2 = false ∧ s.portRuns = true ∧ s.injOn PG_SPI 1 = false ∧ crc8 0xFF (frameBytes f true none) = f.crc.toNat ∧
        frameMalformed f true none = false ∧ s.busy = true ∧ frameCount f ≤ f.data.length →
      Completes (.spiLocalWrite f) s fun t =>
        t.answer = [s.statusByte s.bus.spiBad, 0x5A] ∧ t.bus = s.bus ∧ t.statusOf PG_SPI SPI_ST_BUSYREJ = true ∧
          t.get SPI_COUNTS_BAD = satInc 32767 (s.get SPI_COUNTS_BAD) ∧ t.get SPI_LASTBAD_ADDR = f.addr.toNat ∧ t.ring.txq = s.ring.txq ∧
          FrameE [PG_SPI, PG_EVQ] s t) ∧
    (∀ (s : State) (f : HostFrame),
      s.Quiet ∧ s.bankLow 2 = false ∧ s.portRuns = true ∧ s.injOn PG_SPI 1 = false ∧ crc8 0xFF (frameBytes f false none) = f.crc.toNat ∧
        frameMalformed f false none = false ∧ s.busy = true →
      Completes (.spiLocalRead f) s fun t =>
        t.answer = [s.statusByte s.bus.spiBad, 0x5A] ∧ t.bus = s.bus ∧ t.statusOf PG_SPI SPI_ST_BUSYREJ = true ∧
          t.get SPI_COUNTS_BAD = satInc 32767 (s.get SPI_COUNTS_BAD) ∧ t.get SPI_LASTBAD_ADDR = f.addr.toNat ∧ t.ring.txq = s.ring.txq ∧
          FrameE [PG_SPI, PG_EVQ] s t) ∧
    (∀ (s : State) (dev : BitVec 16) (f : HostFrame),
      s.Quiet ∧ s.bankLow 2 = false ∧ s.portRuns = true ∧ s.injOn PG_SPI 1 = false ∧
        crc8 0xFF (frameBytes f true (some dev)) = f.crc.toNat ∧ frameMalformed f true (some dev) = false ∧ s.busy = true ∧
        frameCount f ≤ f.data.length →
      Completes (.spiRemoteWrite dev f) s fun t =>
        t.answer = [s.statusByte s.bus.spiBad, 0x5A] ∧ t.bus = s.bus ∧ t.statusOf PG_SPI SPI_ST_BUSYREJ = true ∧
          t.get SPI_COUNTS_BAD = satInc 32767 (s.get SPI_COUNTS_BAD) ∧ t.get SPI_LASTBAD_ADDR = f.addr.toNat ∧ t.ring.txq = s.ring.txq ∧
          FrameE [PG_SPI, PG_EVQ] s t) ∧
    (∀ (s : State) (dev : BitVec 16) (f : HostFrame),
      s.Quiet ∧ s.bankLow 2 = false ∧ s.portRuns = true ∧ s.injOn PG_SPI 1 = false ∧
        crc8 0xFF (frameBytes f false (some dev)) = f.crc.toNat ∧ frameMalformed f false (some dev) = false ∧ s.busy = true →
      Completes (.spiRemoteRead dev f) s fun t =>
        t.answer = [s.statusByte s.bus.spiBad, 0x5A] ∧ t.bus = s.bus ∧ t.statusOf PG_SPI SPI_ST_BUSYREJ = true ∧
          t.get SPI_COUNTS_BAD = satInc 32767 (s.get SPI_COUNTS_BAD) ∧ t.get SPI_LASTBAD_ADDR = f.addr.toNat ∧ t.ring.txq = s.ring.txq ∧
          FrameE [PG_SPI, PG_EVQ] s t) ∧
    (∀ (s : State) (dev : BitVec 16) (f : HostFrame),
      s.Quiet ∧ s.bankLow 2 = false ∧ s.portRuns = true ∧ s.injOn PG_SPI 1 = false ∧
        crc8 0xFF (frameBytes f true (some dev)) ≠ f.crc.toNat ∧ frameCount f ≤ f.data.length →
      Completes (.spiRemoteWrite dev f) s fun t =>
        t.answer = [s.statusByte s.bus.spiBad, 0x5A] ∧ t.bus.spiBad = true ∧ t.statusOf PG_SPI SPI_ST_CRCERR = true ∧
          t.get SPI_COUNTS_BAD = satInc 32767 (s.get SPI_COUNTS_BAD) ∧ t.get SPI_LASTBAD_ADDR = f.addr.toNat ∧ FrameE [PG_SPI, PG_EVQ] s t) ∧
    (∀ (s : State) (dev : BitVec 16) (f : HostFrame),
      s.Quiet ∧ s.bankLow 2 = false ∧ s.portRuns = true ∧ s.injOn PG_SPI 1 = false ∧
        crc8 0xFF (frameBytes f false (some dev)) ≠ f.crc.toNat →
      Completes (.spiRemoteRead dev f) s fun t =>
        t.answer = [s.statusByte s.bus.spiBad, 0x5A] ∧ t.bus.spiBad = true ∧ t.statusOf PG_SPI SPI_ST_CRCERR = true ∧
          t.get SPI_COUNTS_BAD = satInc 32767 (s.get SPI_COUNTS_BAD) ∧ t.get SPI_LASTBAD_ADDR = f.addr.toNat ∧ FrameE [PG_SPI, PG_EVQ] s t) ∧
    (∀ (s : State) (dev : BitVec 16) (f : HostFrame),
      s.bankLow 2 = false ∧ s.portRuns = false →
      Completes (.spiRemoteWrite dev f) s fun t =>
        t.answer = [] ∧ t.bus = s.bus) ∧
    (∀ (s : State) (dev : BitVec 16) (f : HostFrame),
      s.bankLow 2 = false ∧ s.portRuns = false →
      Completes (.spiRemoteRead dev f) s fun t =>
        t.answer = [] ∧ t.bus = s.bus) ∧
    (∀ (s : State),
      s.bankLow 2 = false ∧ s.portRuns = true →
      Completes (.spiAbort) s fun t =>
        t.answer = [s.statusByte s.bus.spiBad] ∧ t.statusOf PG_SPI SPI_ST_ABORT = true ∧
          t.get SPI_COUNTS_BAD = satInc 32767 (s.get SPI_COUNTS_BAD) ∧ t.bus = s.bus ∧ Frame [PG_SPI, PG_EVQ] s t) ∧
    (∀ (s : State),
      s.bankLow 2 = true ∨ s.portRuns = false →
      Completes (.spiAbort) s fun t =>
        t = s.begin)

/-- A write of one whole word to the device itself without PEC is accepted, one met by a long operation is NACKed with BUSYNAK and one with
reserved command bits discarded with FRAME; a read without a read command is NACKed with NOCMD, and one with it answers its data; a remote
read is sent and marks the copy pending or is NACKed with RMTREJ; the low clock timeout is reported; an address match in HIBERNATE whose
source is enabled holds the clock, and the hold ends with a NACK where the port does not run in time; the controller takes one transfer or
bus clear at a time, refuses a second transfer with REJ, and records each end with its result; a debug frame is answered in lantern mode
only, and one with a wrong CRC is remembered for the next status byte. (R416 of spec/19_host_buses.md, R417 of spec/19_host_buses.md, R420
of spec/19_host_buses.md, R422 of spec/19_host_buses.md, R423 of spec/19_host_buses.md, R424 of spec/19_host_buses.md, R425 of
spec/19_host_buses.md.) -/
def Obligations.I2cTransactions : Prop :=
  (∀ (s : State) (addr : BitVec 24) (data : List (BitVec 8)),
      s.bankLow 2 = false ∧ s.portRuns = true ∧ s.busy = false ∧ s.on I2CT_CFG_PEC = false ∧ data.length = 4 ∧ addr.toNat / 0x400 ≠ 0 →
      Completes (.i2cWrite 0 none addr data) s fun t =>
        t.bus.nack = false ∧ (addr.toNat / 0x400 ≠ PG_I2CT → t.get I2CT_COUNTS_GOOD = satInc 65535 (s.get I2CT_COUNTS_GOOD))) ∧
    (∀ (s : State) (low : BitVec 6) (dev : Option (BitVec 16)) (addr : BitVec 24) (data : List (BitVec 8)),
      s.Quiet ∧ s.bankLow 2 = false ∧ s.portRuns = true ∧ s.busy = true →
      Completes (.i2cWrite low dev addr data) s fun t =>
        t.bus.nack = true ∧ t.answer = [] ∧ t.statusOf PG_I2CT I2CT_ST_BUSYNAK = true ∧
          t.get I2CT_COUNTS_BAD = satInc 32767 (s.get I2CT_COUNTS_BAD) ∧ FrameE [PG_I2CT, PG_EVQ] s t) ∧
    (∀ (s : State) (low : BitVec 6) (addr : BitVec 24) (data : List (BitVec 8)),
      s.Quiet ∧ s.bankLow 2 = false ∧ s.portRuns = true ∧ s.busy = false ∧ low ≠ 0 →
      Completes (.i2cWrite low none addr data) s fun t =>
        t.bus.nack = false ∧ t.answer = [] ∧ t.statusOf PG_I2CT I2CT_ST_FRAME = true ∧
          t.get I2CT_COUNTS_BAD = satInc 32767 (s.get I2CT_COUNTS_BAD) ∧ FrameE [PG_I2CT, PG_EVQ] s t) ∧
    (∀ (s : State) (low : BitVec 6) (dev : Option (BitVec 16)) (addr : BitVec 24) (data : List (BitVec 8)),
      s.Quiet ∧ (s.bankLow 2 = true ∨ s.portRuns = false) →
      Completes (.i2cWrite low dev addr data) s fun t =>
        t.bus = s.bus ∧ FrameE [] s t) ∧
    (∀ (s : State) (addr : BitVec 24) (len : BitVec 8),
      s.bankLow 2 = false ∧ s.portRuns = true ∧ s.busy = false ∧ s.on I2CT_CFG_PEC = false ∧ len.toNat < 64 →
      Completes (.i2cLocalRead (some (addr, len)) none) s fun t =>
        t.bus.nack = false ∧ t.answer = (s.begin.readWords .i2c addr.toNat (len.toNat + 1)).1.flatMap (msbBytes 4)) ∧
    (∀ (s : State) (take : Option Nat),
      s.Quiet ∧ s.bankLow 2 = false ∧ s.portRuns = true ∧ s.busy = false →
      Completes (.i2cLocalRead none take) s fun t =>
        t.bus.nack = true ∧ t.answer = [] ∧ t.statusOf PG_I2CT I2CT_ST_NOCMD = true ∧
          t.get I2CT_COUNTS_BAD = satInc 32767 (s.get I2CT_COUNTS_BAD) ∧ FrameE [PG_I2CT, PG_EVQ] s t) ∧
    (∀ (s : State) (cmd : Option (BitVec 24 × BitVec 8)) (take : Option Nat),
      s.Quiet ∧ (s.bankLow 2 = true ∨ s.portRuns = false) →
      Completes (.i2cLocalRead cmd take) s fun t =>
        t.bus = s.bus ∧ FrameE [] s t) ∧
    (∀ (s : State) (dev : BitVec 16) (addr : BitVec 24) (len : BitVec 8),
      s.Quiet ∧ s.bankLow 2 = false ∧ s.portRuns = true ∧ s.busy = false ∧ len.toNat < 64 ∧ dev.toNat < 512 ∧
        s.ownNum dev.toNat = false ∧ s.postReadOk 2 = true →
      Completes (.i2cRemoteRead dev addr len) s fun t =>
        t.bus.nack = false ∧ t.ring.txq.length = s.ring.txq.length + 1 ∧ t.rmtOf 2 = ⟨1, 0, 0, dev.toNat, []⟩ ∧
          t.statusOf PG_I2CT I2CT_ST_ACCEPT = true ∧ FrameE [PG_I2CT, PG_EVQ] s t) ∧
    (∀ (s : State) (dev : BitVec 16) (addr : BitVec 24) (len : BitVec 8),
      s.Quiet ∧ s.bankLow 2 = false ∧ s.portRuns = true ∧ s.busy = false ∧ len.toNat < 64 ∧ dev.toNat < 512 ∧
        s.ownNum dev.toNat = false ∧ s.postReadOk 2 = false →
      Completes (.i2cRemoteRead dev addr len) s fun t =>
        t.bus.nack = true ∧ t.answer = [] ∧ t.statusOf PG_I2CT I2CT_ST_RMTREJ = true ∧
          t.get I2CT_COUNTS_BAD = satInc 32767 (s.get I2CT_COUNTS_BAD) ∧ FrameE [PG_I2CT, PG_EVQ] s t) ∧
    (∀ (s : State),
      s.portRuns = true ∧ s.on I2CT_CFG_TIMEOUT = true →
      Completes (.i2cTimeout) s fun t =>
        t.bus.nack = false ∧ t.answer = [] ∧ t.statusOf PG_I2CT I2CT_ST_TIMEOUT = true ∧
          t.get I2CT_COUNTS_BAD = satInc 32767 (s.get I2CT_COUNTS_BAD) ∧ Frame [PG_I2CT, PG_EVQ] s t) ∧
    (∀ (s : State),
      s.portRuns = false ∨ s.on I2CT_CFG_TIMEOUT = false →
      Completes (.i2cTimeout) s fun t =>
        t = s.begin) ∧
    (∀ (s : State),
      s.bankLow 2 = false ∧ s.mode = .hibernate ∧ s.dev.stage = 0 ∧ bitOf (s.get CELLAR_WAKEEN_SRC) 1 = true →
      Completes (.i2cWakeMatch) s fun t =>
        t.bus.tsclHeld = true ∧ MemSame s t) ∧
    (∀ (s : State),
      s.Quiet ∧ (s.bankLow 2 = true ∨ s.mode ≠ .hibernate ∨ bitOf (s.get CELLAR_WAKEEN_SRC) 1 = false) →
      Completes (.i2cWakeMatch) s fun t =>
        t.bus = s.bus ∧ FrameE [] s t) ∧
    (∀ (s : State),
      s.bus.tsclHeld = true ∧ s.portRuns = false →
      Completes (.i2cWakeTimeout) s fun t =>
        t.bus = { s.bus with tsclHeld := false, nack := true } ∧ Frame [] s t) ∧
    (∀ (s : State),
      s.bus.tsclHeld = false ∨ s.portRuns = true →
      Completes (.i2cWakeTimeout) s fun t =>
        t = s.begin) ∧
    (∀ (s : State) (m : Master) (v : BitVec 30),
      s.accepts m = true ∧ hostMaster m = true ∧ s.on I2CC_STATE_BUSY = false →
      Completes (.i2ccGo m v) s fun t =>
        t.get I2CC_STATE_BUSY = 1 ∧ t.bus.clearOnly = false ∧ Frame [PG_DEV, PG_I2CC] s t) ∧
    (∀ (s : State) (m : Master) (v : BitVec 30),
      s.accepts m = true ∧ hostMaster m = true ∧ s.on I2CC_STATE_BUSY = true →
      Completes (.i2ccGo m v) s fun t =>
        t.bus = s.bus ∧ t.statusOf PG_I2CC I2CC_ST_REJ = true ∧ Frame [PG_DEV, PG_I2CC, PG_EVQ] s t) ∧
    (∀ (s : State) (m : Master) (v : BitVec 30),
      s.accepts m = true ∧ hostMaster m = true ∧ s.on I2CC_STATE_BUSY = false →
      Completes (.i2ccClear m v) s fun t =>
        t.get I2CC_STATE_BUSY = 1 ∧ t.bus.clearOnly = true ∧ Frame [PG_DEV, PG_I2CC] s t) ∧
    (∀ (s : State) (m : Master) (v : BitVec 30),
      s.accepts m = true ∧ hostMaster m = true ∧ s.on I2CC_STATE_BUSY = true →
      Completes (.i2ccClear m v) s fun t =>
        t.bus = s.bus ∧ t.get I2CC_STATE_BUSY = 1 ∧ Frame [PG_DEV, PG_I2CC] s t) ∧
    (∀ (s : State) (cleared : Bool) (rx : List (BitVec 8)),
      s.on I2CC_STATE_BUSY = true ∧ s.bus.clearOnly = false ∧ s.injOn PG_I2CC 1 = false →
      Completes (.i2ccDone cleared .ok rx) s fun t =>
        t.get I2CC_STATE_BUSY = 0 ∧ t.get I2CC_STATE_RESULT = (if cleared then 6 else 1) ∧ t.get I2CC_STATE_BYTE = 0 ∧
          t.statusOf PG_I2CC I2CC_ST_DONE = true ∧ Frame [PG_I2CC, PG_EVQ] s t) ∧
    (∀ (s : State) (cleared : Bool) (rx : List (BitVec 8)),
      s.on I2CC_STATE_BUSY = true ∧ s.bus.clearOnly = false ∧ s.injOn PG_I2CC 1 = false →
      Completes (.i2ccDone cleared .addrNack rx) s fun t =>
        t.get I2CC_STATE_BUSY = 0 ∧ t.get I2CC_STATE_RESULT = 2 ∧ t.get I2CC_STATE_BYTE = 0 ∧ t.statusOf PG_I2CC I2CC_ST_FAIL = true ∧
          Frame [PG_I2CC, PG_EVQ] s t) ∧
    (∀ (s : State) (cleared : Bool) (b : Fin 32) (rx : List (BitVec 8)),
      s.on I2CC_STATE_BUSY = true ∧ s.bus.clearOnly = false ∧ s.injOn PG_I2CC 1 = false →
      Completes (.i2ccDone cleared (.dataNack b) rx) s fun t =>
        t.get I2CC_STATE_BUSY = 0 ∧ t.get I2CC_STATE_RESULT = 3 ∧ t.get I2CC_STATE_BYTE = b.val ∧
          t.statusOf PG_I2CC I2CC_ST_FAIL = true ∧ Frame [PG_I2CC, PG_EVQ] s t) ∧
    (∀ (s : State) (cleared : Bool) (rx : List (BitVec 8)),
      s.on I2CC_STATE_BUSY = true ∧ s.bus.clearOnly = false ∧ s.injOn PG_I2CC 1 = false →
      Completes (.i2ccDone cleared .arbLost rx) s fun t =>
        t.get I2CC_STATE_BUSY = 0 ∧ t.get I2CC_STATE_RESULT = 4 ∧ t.get I2CC_STATE_BYTE = 0 ∧ t.statusOf PG_I2CC I2CC_ST_FAIL = true ∧
          Frame [PG_I2CC, PG_EVQ] s t) ∧
    (∀ (s : State) (cleared : Bool) (rx : List (BitVec 8)),
      s.on I2CC_STATE_BUSY = true ∧ s.bus.clearOnly = false ∧ s.injOn PG_I2CC 1 = false →
      Completes (.i2ccDone cleared .stuck rx) s fun t =>
        t.get I2CC_STATE_BUSY = 0 ∧ t.get I2CC_STATE_RESULT = 7 ∧ t.get I2CC_STATE_BYTE = 0 ∧ t.statusOf PG_I2CC I2CC_ST_FAIL = true ∧
          t.errOf PG_I2CC I2CC_ERR_STUCK = true ∧ Frame [PG_I2CC, PG_EVQ] s t) ∧
    (∀ (s : State) (cleared : Bool) (e : I2ccEnd) (rx : List (BitVec 8)),
      s.on I2CC_STATE_BUSY = true ∧ s.bus.clearOnly = true →
      Completes (.i2ccDone cleared e rx) s fun t =>
        t.get I2CC_STATE_BUSY = 0 ∧ t.bus.clearOnly = false ∧
          t.get I2CC_STATE_RESULT = (if e = .stuck then 7 else if cleared then 6 else 1) ∧ Frame [PG_I2CC, PG_EVQ] s t) ∧
    (∀ (s : State) (cleared : Bool) (e : I2ccEnd) (rx : List (BitVec 8)),
      s.on I2CC_STATE_BUSY = false →
      Completes (.i2ccDone cleared e rx) s fun t =>
        t = s.begin) ∧
    (∀ (s : State),
      s.on I2CC_STATE_BUSY = true →
      Completes (.i2ccStretchTimeout) s fun t =>
        t.get I2CC_STATE_BUSY = 0 ∧ t.get I2CC_STATE_RESULT = 5 ∧ t.statusOf PG_I2CC I2CC_ST_FAIL = true ∧ Frame [PG_I2CC, PG_EVQ] s t) ∧
    (∀ (s : State),
      s.on I2CC_STATE_BUSY = false →
      Completes (.i2ccStretchTimeout) s fun t =>
        t = s.begin) ∧
    (∀ (s : State) (f : HostFrame),
      s.port.lantern = true ∧ s.portRuns = true ∧ crc8 0xFF (frameBytes f false none) = f.crc.toNat ∧
        frameMalformed f false none = false ∧ s.busy = false →
      Completes (.debugLinkFrame false none f) s fun t =>
        t.answer = [s.statusByte s.bus.dbgBad, 0xA5] ++ (({ s.begin with bus := { s.bus with dbgBad := false } } : State).readWords .debug f.addr.toNat (frameCount f)).1.flatMap (msbBytes 4) ++ [crc8 0xFF (s.statusByte s.bus.dbgBad :: (({ s.begin with bus := { s.bus with dbgBad := false } } : State).readWords .debug f.addr.toNat (frameCount f)).1.flatMap (msbBytes 4))] ∧
          t.bus.spiBad = s.bus.spiBad) ∧
    (∀ (s : State) (w : Bool) (dev : Option (BitVec 16)) (f : HostFrame),
      s.port.lantern = true ∧ s.portRuns = true ∧ (w = true → frameCount f ≤ f.data.length) ∧
        crc8 0xFF (frameBytes f w dev) ≠ f.crc.toNat →
      Completes (.debugLinkFrame w dev f) s fun t =>
        t.answer = [s.statusByte s.bus.dbgBad, 0x5A] ∧ t.bus = { s.bus with dbgBad := true } ∧ t.ring.txq = s.ring.txq) ∧
    (∀ (s : State) (w : Bool) (dev : Option (BitVec 16)) (f : HostFrame),
      s.Quiet ∧ s.port.lantern = false →
      Completes (.debugLinkFrame w dev f) s fun t =>
        t.bus = s.bus ∧ t.answer = s.answer ∧ FrameE [] s t)

/-- A dual-role port with SRC_OK toggles; a termination attaches it as sink with VBUS above 4.00 V and not below, or from Try.SNK's wait for Rp
as source or to Try.SNK first; Try.SNK ends in that wait; detaching leaves no contract and no lantern, and a lost VBUS detaches a sink only;
VCONN overcurrent switches VCONN off and is reported; ErrorRecovery is entered by its key and left for the unattached state; a VBUS level
moves on the swap, Hard Reset or Fast Role Swap that waits for it, and VBUS above 22 V opens both switches. (R428 of
spec/20_service_port.md, R430 of spec/20_service_port.md, R431 of spec/20_service_port.md, R432 of spec/20_service_port.md, R433 of
spec/20_service_port.md, R434 of spec/20_service_port.md, R453 of spec/20_service_port.md.) -/
def Obligations.TypecPort : Prop :=
  (∀ (s : State),
      s.Steady ∧ s.enabled PG_TYPEC = true ∧ s.polTake = s ∧ s.srcOk = true ∧ s.portRole = 0 ∧ s.portCode ≤ 1 →
      Completes (.typecToggle) s fun t =>
        t.portCode = 1 - s.portCode ∧ t.port.accessory = false ∧ Frame [PG_TYPEC, PG_PD, PG_SVC, PG_EVQ] s t) ∧
    (∀ (s : State),
      s.Quiet ∧ (s.portRuns = false ∨ s.enabled PG_TYPEC = false ∨ s.srcOk = false ∨ s.portRole ≠ 0) →
      Completes (.typecToggle) s fun t =>
        t.port.stage = s.port.stage ∧ t.port.lantern = s.port.lantern ∧ t.port.sent = [] ∧ FrameE [] s t) ∧
    (∀ (s : State) (cc2 : Bool) (rp : Fin 3) (v : BitVec 12) (dead : Bool),
      s.Steady ∧ s.enabled PG_TYPEC = true ∧ (s.portCode = 0 ∨ s.portCode = 2 ∨ s.portCode = 4) ∧ 400 < v.toNat →
      Completes (.typecAttach cc2 rp v dead) s fun t =>
        t.portCode = 5 ∧ t.get TYPEC_STATE_ORIENT = b2n cc2 ∧ t.get TYPEC_STATE_RPSEEN = rp.val ∧ t.get TYPEC_STATE_DEADBAT = b2n dead ∧
          t.get TYPEC_VBUS_V = v.toNat ∧ t.statusOf PG_TYPEC TYPEC_ST_ATTACH = true ∧ t.port.stage = .idle ∧ t.port.lantern = false ∧
          t.get PD_CONTRACT_PROLE = 0 ∧ t.get PD_CONTRACT_DROLE = 0 ∧ Frame [PG_TYPEC, PG_PD, PG_SVC, PG_EVQ] s t) ∧
    (∀ (s : State) (cc2 : Bool) (rp : Fin 3) (v : BitVec 12) (dead : Bool),
      s.Steady ∧ s.enabled PG_TYPEC = true ∧ s.portCode = 3 ∧ (s.on TYPEC_CFG_TRYSNK = false ∨ s.port.tried = true) →
      Completes (.typecAttach cc2 rp v dead) s fun t =>
        t.portCode = 6 ∧ t.get TYPEC_STATE_ORIENT = b2n cc2 ∧ t.get TYPEC_STATE_DEADBAT = 0 ∧ t.get TYPEC_VBUS_V = v.toNat ∧
          t.statusOf PG_TYPEC TYPEC_ST_ATTACH = true ∧ t.port.stage = .idle ∧ t.port.capsLeft = 50 ∧ t.get SVC_TARGET_V_TGT = 500 ∧
          t.get PD_CONTRACT_PROLE = 1 ∧ t.get PD_CONTRACT_DROLE = 1 ∧ Frame [PG_TYPEC, PG_PD, PG_SVC, PG_EVQ] s t) ∧
    (∀ (s : State) (cc2 : Bool) (rp : Fin 3) (v : BitVec 12) (dead : Bool),
      s.Steady ∧ s.enabled PG_TYPEC = true ∧ s.portCode = 3 ∧ s.on TYPEC_CFG_TRYSNK = true ∧ s.port.tried = false →
      Completes (.typecAttach cc2 rp v dead) s fun t =>
        t.portCode = 4 ∧ t.port.tried = true ∧ t.port.stage = s.port.stage ∧ Frame [PG_TYPEC, PG_PD, PG_SVC, PG_EVQ] s t) ∧
    (∀ (s : State) (cc2 : Bool) (rp : Fin 3) (v : BitVec 12) (dead : Bool),
      s.Steady ∧ s.enabled PG_TYPEC = true ∧ (s.portCode = 2 ∨ s.portCode = 4) ∧ v.toNat ≤ 400 →
      Completes (.typecAttach cc2 rp v dead) s fun t =>
        t.portCode = s.portCode ∧ t.get TYPEC_VBUS_V = v.toNat ∧ Frame [PG_TYPEC, PG_PD, PG_SVC, PG_EVQ] s t) ∧
    (∀ (s : State) (cc2 : Bool) (rp : Fin 3) (v : BitVec 12) (dead : Bool),
      s.Quiet ∧ (s.portRuns = false ∨ s.enabled PG_TYPEC = false) →
      Completes (.typecAttach cc2 rp v dead) s fun t =>
        t.port.stage = s.port.stage ∧ t.port.lantern = s.port.lantern ∧ t.port.sent = [] ∧ FrameE [] s t) ∧
    (∀ (s : State),
      s.Steady ∧ s.portCode = 4 →
      Completes (.trySnkExpire) s fun t =>
        t.portCode = 3 ∧ t.port.stage = s.port.stage ∧ Frame [PG_TYPEC, PG_PD, PG_SVC, PG_EVQ] s t) ∧
    (∀ (s : State),
      s.Quiet ∧ (s.portCode ≠ 4) →
      Completes (.trySnkExpire) s fun t =>
        t.port.stage = s.port.stage ∧ t.port.lantern = s.port.lantern ∧ t.port.sent = [] ∧ FrameE [] s t) ∧
    (∀ (s : State) (vbusLost : Bool),
      s.Steady ∧ (s.portCode = 5 ∨ s.portCode = 6) ∧ (vbusLost = true → s.portCode = 5 ∧ s.port.stage.ownsVbus = false) →
      Completes (.typecDetach vbusLost) s fun t =>
        t.portCode ≤ 1 ∧ t.on PD_CONTRACT_VALID = false ∧ t.port.lantern = false ∧ t.port.stage = .idle ∧ t.port.vconnOff = false ∧
          t.statusOf PG_TYPEC TYPEC_ST_DETACH = true ∧ Frame [PG_TYPEC, PG_PD, PG_SVC, PG_EVQ] s t) ∧
    (∀ (s : State),
      s.Steady ∧ s.portCode = 6 →
      Completes (.typecDetach true) s fun t =>
        t.portCode = 6 ∧ t.port.stage = s.port.stage ∧ Frame [PG_TYPEC, PG_PD, PG_SVC, PG_EVQ] s t) ∧
    (∀ (s : State) (vbusLost : Bool),
      s.Quiet ∧ (s.portCode ≤ 1) →
      Completes (.typecDetach vbusLost) s fun t =>
        t.port.stage = s.port.stage ∧ t.port.lantern = s.port.lantern ∧ t.port.sent = [] ∧ FrameE [] s t) ∧
    (∀ (s : State),
      s.Steady ∧ s.on TYPEC_STATE_VCONN = true →
      Completes (.vconnOvercurrent) s fun t =>
        t.on TYPEC_STATE_VCONN = false ∧ t.port.vconnOff = true ∧ t.statusOf PG_TYPEC TYPEC_ST_VCONNOC = true ∧
          Frame [PG_TYPEC, PG_PD, PG_SVC, PG_EVQ] s t) ∧
    (∀ (s : State),
      s.Steady ∧ s.on TYPEC_STATE_VCONN = false →
      Completes (.vconnOvercurrent) s fun t =>
        t.port.vconnOff = s.port.vconnOff ∧ t.hdr PG_TYPEC hdrSTATUS = s.hdr PG_TYPEC hdrSTATUS ∧
          Frame [PG_TYPEC, PG_PD, PG_SVC, PG_EVQ] s t) ∧
    (∀ (s : State) (m : Master) (key : BitVec 16),
      s.accepts m = true ∧ hostMaster m = true ∧ s.Steady ∧ key = 0x7C2E →
      Completes (.typecErrorRecovery m key) s fun t =>
        t.portCode = 7 ∧ t.port.vbusDis = true ∧ t.port.lantern = false ∧ t.port.stage = .idle ∧ t.on PD_CONTRACT_VALID = false ∧
          Frame [PG_DEV, PG_TYPEC, PG_PD, PG_SVC, PG_EVQ] s t) ∧
    (∀ (s : State) (m : Master) (key : BitVec 16),
      s.accepts m = true ∧ hostMaster m = true ∧ s.Steady ∧ key ≠ 0x7C2E →
      Completes (.typecErrorRecovery m key) s fun t =>
        t.port.stage = s.port.stage ∧ t.on PD_CONTRACT_VALID = s.on PD_CONTRACT_VALID ∧
          Frame [PG_DEV, PG_TYPEC, PG_PD, PG_SVC, PG_EVQ] s t) ∧
    (∀ (s : State),
      s.Steady ∧ s.portCode = 7 →
      Completes (.errorRecoveryEnd) s fun t =>
        t.portCode ≤ 1 ∧ t.port.vbusDis = false ∧ t.statusOf PG_TYPEC TYPEC_ST_ERRREC = true ∧
          Frame [PG_TYPEC, PG_PD, PG_SVC, PG_EVQ] s t) ∧
    (∀ (s : State),
      s.Quiet ∧ (s.portCode ≠ 7) →
      Completes (.errorRecoveryEnd) s fun t =>
        t.port.stage = s.port.stage ∧ t.port.lantern = s.port.lantern ∧ t.port.sent = [] ∧ FrameE [] s t) ∧
    (∀ (s : State) (v : BitVec 12),
      s.Steady ∧ s.injOn PG_TYPEC 1 = false ∧ s.portCode = 6 ∧ s.port.stage = .toSnkDis ∧ v.toNat < 80 →
      Completes (.vbusSafe0v v) s fun t =>
        t.portCode = 5 ∧ t.port.stage = .toSnkWait ∧ t.port.vbusDis = false ∧ t.port.sent = [.psRdy] ∧ t.get TYPEC_VBUS_V = v.toNat ∧
          Frame [PG_TYPEC, PG_PD, PG_SVC, PG_EVQ] s t) ∧
    (∀ (s : State) (v : BitVec 12),
      s.Steady ∧ s.injOn PG_TYPEC 1 = false ∧ s.port.stage = .hrDis ∧ v.toNat < 80 →
      Completes (.vbusSafe0v v) s fun t =>
        t.port.stage = .hrOff ∧ t.port.vbusDis = false ∧ Frame [PG_TYPEC, PG_PD, PG_SVC, PG_EVQ] s t) ∧
    (∀ (s : State) (v : BitVec 12),
      s.Steady ∧ s.injOn PG_TYPEC 1 = false ∧ s.port.stage = .hrSink ∧ 475 < v.toNat →
      Completes (.vbusSafe0v v) s fun t =>
        t.port.stage = .idle ∧ Frame [PG_TYPEC, PG_PD, PG_SVC, PG_EVQ] s t) ∧
    (∀ (s : State) (v : BitVec 12),
      s.Steady ∧ s.injOn PG_TYPEC 1 = false ∧ s.port.stage = .frsDrop ∧ v.toNat < 550 →
      Completes (.vbusSafe0v v) s fun t =>
        t.portCode = 5 ∧ t.port.stage = .frsTake ∧ t.port.sent = [.psRdy] ∧ Frame [PG_TYPEC, PG_PD, PG_SVC, PG_EVQ] s t) ∧
    (∀ (s : State) (v : BitVec 12),
      s.Steady ∧ s.injOn PG_TYPEC 1 = true ∧ s.portCode = 5 ∧ s.port.stage = .idle →
      Completes (.vbusSafe0v v) s fun t =>
        t.portCode ≤ 1 ∧ t.on PD_CONTRACT_VALID = false ∧ t.statusOf PG_TYPEC TYPEC_ST_DETACH = true ∧
          Frame [PG_TYPEC, PG_PD, PG_SVC, PG_EVQ] s t) ∧
    (∀ (s : State) (v : BitVec 12),
      s.Quiet ∧ (s.portRuns = false) →
      Completes (.vbusSafe0v v) s fun t =>
        t.port.stage = s.port.stage ∧ t.port.lantern = s.port.lantern ∧ t.port.sent = [] ∧ FrameE [] s t) ∧
    (∀ (s : State) (v : BitVec 12),
      s.Steady ∧ 2200 < v.toNat →
      Completes (.vbusOvervoltage v) s fun t =>
        t.port.ov = true ∧ t.port.srcEn = false ∧ t.get TYPEC_VBUS_V = v.toNat ∧ t.get PD_SNKLIM_I = 0 ∧
          t.errOf PG_TYPEC TYPEC_ERR_VBUSOV = true ∧ Frame [PG_TYPEC, PG_PD, PG_SVC, PG_EVQ] s t) ∧
    (∀ (s : State) (v : BitVec 12),
      s.Quiet ∧ (v.toNat ≤ 2200) →
      Completes (.vbusOvervoltage v) s fun t =>
        t.port.stage = s.port.stage ∧ t.port.lantern = s.port.lantern ∧ t.port.sent = [] ∧ FrameE [] s t)

/-- A source with capabilities left to send sends them, once less where they are not acknowledged; a sink answers them with the Request of its
choice; a source accepts a Request within what it offered, or rejects it; PS_RDY, sent when the output stands at the voltage or received,
makes the contract, and a sink that may arm Fast Role Swap asks for the partner's capabilities; a message that no GoodCRC answers is sent
twice more and then followed by a Soft Reset; a Soft Reset not answered leads to a Hard Reset, or to none where VBUS is the only supply;
Soft Reset, Get_Sink_Cap, Get_Status and unsupported messages are answered; a received message with a bad CRC is counted and not answered,
and none is taken while PD does not run. (R435 of spec/20_service_port.md, R436 of spec/20_service_port.md, R437 of spec/20_service_port.md,
R438 of spec/20_service_port.md, R439 of spec/20_service_port.md, R440 of spec/20_service_port.md, R441 of spec/20_service_port.md.) -/
def Obligations.PowerDelivery : Prop :=
  (∀ (s : State) (acked : Bool),
      s.Steady ∧ s.portCode = 6 ∧ s.polTake.pdOn = true ∧ s.port.capsLeft ≠ 0 ∧ s.port.stage = .idle →
      Completes (.pdSourceCapsSend acked) s fun t =>
        t.port.sent = [.sourceCaps (s.pdosUsed true)] ∧ t.port.offered = s.pdosUsed true ∧
          t.port.capsLeft = (if acked then 0 else s.port.capsLeft - 1) ∧ t.port.stage = .idle ∧
          Frame [PG_TYPEC, PG_PD, PG_SVC, PG_EVQ] s t) ∧
    (∀ (s : State) (acked : Bool),
      s.Steady ∧ (s.portCode ≠ 6 ∨ s.port.capsLeft = 0) →
      Completes (.pdSourceCapsSend acked) s fun t =>
        t.port.sent = [] ∧ t.port.capsLeft = s.port.capsLeft ∧ Frame [PG_TYPEC, PG_PD, PG_SVC, PG_EVQ] s t) ∧
    (∀ (s : State) (caps : List Word),
      s.Steady ∧ s.portCode = 5 ∧ s.pdOn = true ∧ s.polTake.pdOn = true ∧ s.injOn PG_PD 1 = false ∧ 0 < caps.length ∧ caps.length ≤ 7 →
      Completes (.pdSourceCapsRx caps true) s fun t =>
        t.port.sent = [.request ((pickPdo (caps.map BitVec.toNat) (s.pdosUsed false) (!s.imageLit)).1 * 0x10000000 + b2n (decide ((pickPdo (caps.map BitVec.toNat) (s.pdosUsed false) (!s.imageLit)).2.2 * (pickPdo (caps.map BitVec.toNat) (s.pdosUsed false) (!s.imageLit)).2.1 < s.get PD_CFG_SNKMIN * 2000)) * 0x4000000 + 0x1000000 + (pickPdo (caps.map BitVec.toNat) (s.pdosUsed false) (!s.imageLit)).2.1 * 0x400 + (pickPdo (caps.map BitVec.toNat) (s.pdosUsed false) (!s.imageLit)).2.1)] ∧
          t.port.stage = .request ∧
          t.port.reqRdo = ((pickPdo (caps.map BitVec.toNat) (s.pdosUsed false) (!s.imageLit)).1 * 0x10000000 + b2n (decide ((pickPdo (caps.map BitVec.toNat) (s.pdosUsed false) (!s.imageLit)).2.2 * (pickPdo (caps.map BitVec.toNat) (s.pdosUsed false) (!s.imageLit)).2.1 < s.get PD_CFG_SNKMIN * 2000)) * 0x4000000 + 0x1000000 + (pickPdo (caps.map BitVec.toNat) (s.pdosUsed false) (!s.imageLit)).2.1 * 0x400 + (pickPdo (caps.map BitVec.toNat) (s.pdosUsed false) (!s.imageLit)).2.1) ∧
          t.port.reqV = (pickPdo (caps.map BitVec.toNat) (s.pdosUsed false) (!s.imageLit)).2.2 ∧
          t.port.reqI = (pickPdo (caps.map BitVec.toNat) (s.pdosUsed false) (!s.imageLit)).2.1 ∧
          Frame [PG_TYPEC, PG_PD, PG_SVC, PG_EVQ] s t) ∧
    (∀ (s : State) (caps : List Word),
      s.Steady ∧ s.pdOn = true ∧ 0 < caps.length ∧ caps.length ≤ 7 →
      Completes (.pdSourceCapsRx caps false) s fun t =>
        t.get PD_COUNTS_CRCERR = satInc 255 (s.get PD_COUNTS_CRCERR) ∧ t.port.sent = [] ∧ t.port.stage = s.port.stage ∧
          Frame [PG_TYPEC, PG_PD, PG_SVC, PG_EVQ] s t) ∧
    (∀ (s : State) (rdo : Word),
      s.Steady ∧ s.portCode = 6 ∧ s.pdOn = true ∧ s.injOn PG_PD 1 = false ∧ 0 < (rdo.toNat / 0x10000000 % 8) ∧
        (rdo.toNat / 0x10000000 % 8) ≤ s.port.offered.length ∧
        (bitsOf rdo.toNat 10 10) ≤ pdoI (nth s.port.offered ((rdo.toNat / 0x10000000 % 8) - 1)) →
      Completes (.pdRequestRx rdo true) s fun t =>
        t.port.sent = [.accept] ∧ t.port.stage = .supply ∧ t.port.reqRdo = rdo.toNat ∧
          t.port.reqV = pdoV (nth s.port.offered ((rdo.toNat / 0x10000000 % 8) - 1)) ∧ t.port.reqI = (bitsOf rdo.toNat 10 10) ∧
          t.port.capsLeft = 0 ∧ Frame [PG_TYPEC, PG_PD, PG_SVC, PG_EVQ] s t) ∧
    (∀ (s : State) (rdo : Word),
      s.Steady ∧ s.portCode = 6 ∧ s.pdOn = true ∧ s.injOn PG_PD 1 = false ∧ ((rdo.toNat / 0x10000000 % 8) = 0 ∨
        s.port.offered.length < (rdo.toNat / 0x10000000 % 8) ∨
        pdoI (nth s.port.offered ((rdo.toNat / 0x10000000 % 8) - 1)) < (bitsOf rdo.toNat 10 10)) →
      Completes (.pdRequestRx rdo true) s fun t =>
        t.port.sent = [.reject] ∧ t.statusOf PG_PD PD_ST_REJECT = true ∧ t.port.capsLeft = 0 ∧
          Frame [PG_TYPEC, PG_PD, PG_SVC, PG_EVQ] s t) ∧
    (∀ (s : State) (rdo : Word),
      s.Steady ∧ s.pdOn = true →
      Completes (.pdRequestRx rdo false) s fun t =>
        t.get PD_COUNTS_CRCERR = satInc 255 (s.get PD_COUNTS_CRCERR) ∧ t.port.sent = [] ∧ t.port.stage = s.port.stage ∧
          Frame [PG_TYPEC, PG_PD, PG_SVC, PG_EVQ] s t) ∧
    (∀ (s : State),
      s.Steady ∧ s.portCode = 6 ∧ s.port.stage = .supply ∧ s.svcWithin (s.port.reqV * 5) = true ∧ s.polOn PD_CFG_PD_EN = true →
      Completes (.pdPsRdySend) s fun t =>
        t.port.sent = .psRdy :: (if s.polOn PD_CFG_FRS_SNK_EN then [.getSinkCap] else []) ∧ t.port.stage = .idle ∧
          t.on PD_CONTRACT_VALID = true ∧ t.get PD_CONTRACT_POS = s.port.reqRdo / 0x10000000 % 8 ∧
          t.get PD_CONTRACT_FIVEONLY = b2n (!s.imageLit) ∧ t.statusOf PG_PD PD_ST_CONTRACT = true ∧
          Frame [PG_TYPEC, PG_PD, PG_SVC, PG_EVQ] s t) ∧
    (∀ (s : State),
      s.Steady ∧ s.port.stage = .toSrcSupply ∧ s.svcWithin 500 = true →
      Completes (.pdPsRdySend) s fun t =>
        t.port.sent = [.psRdy] ∧ t.port.stage = .idle ∧ t.port.srcEn = true ∧ t.port.capsLeft = 50 ∧ t.get PD_CONTRACT_PROLE = 1 ∧
          t.statusOf PG_PD PD_ST_SWAP = true ∧ Frame [PG_TYPEC, PG_PD, PG_SVC, PG_EVQ] s t) ∧
    (∀ (s : State),
      s.Steady ∧ s.port.stage = .supply ∧ s.svcWithin (s.port.reqV * 5) = false →
      Completes (.pdPsRdySend) s fun t =>
        t.port.sent = [] ∧ t.port.stage = .supply ∧ Frame [PG_TYPEC, PG_PD, PG_SVC, PG_EVQ] s t) ∧
    (∀ (s : State),
      s.Steady ∧ s.port.stage ≠ .supply ∧ s.port.stage ≠ .toSrcSupply →
      Completes (.pdPsRdySend) s fun t =>
        t.port.sent = [] ∧ t.port.stage = s.port.stage ∧ Frame [PG_TYPEC, PG_PD, PG_SVC, PG_EVQ] s t) ∧
    (∀ (s : State) (x : PdMsg),
      s.port.last = some x →
      s.Steady ∧ s.port.retries < 2 ∧ x ≠ .hardReset →
      Completes (.pdGoodcrcTimeout) s fun t =>
        t.port.sent = [x] ∧ t.port.retries = s.port.retries + 1 ∧ t.port.stage = s.port.stage ∧
          Frame [PG_TYPEC, PG_PD, PG_SVC, PG_EVQ] s t) ∧
    (∀ (s : State) (x : PdMsg),
      s.port.last = some x →
      s.Steady ∧ 2 ≤ s.port.retries ∧ (match x with | .softReset | .hardReset | .sourceCaps _ | .vdm _ => false | _ => true) = true →
      Completes (.pdGoodcrcTimeout) s fun t =>
        t.port.sent = [.softReset] ∧ t.port.stage = .soft ∧ t.get PD_COUNTS_SOFT = satInc 255 (s.get PD_COUNTS_SOFT) ∧
          Frame [PG_TYPEC, PG_PD, PG_SVC, PG_EVQ] s t) ∧
    (∀ (s : State),
      s.Steady ∧ s.port.last = none →
      Completes (.pdGoodcrcTimeout) s fun t =>
        t.port.sent = [] ∧ t.port.stage = s.port.stage ∧ Frame [PG_TYPEC, PG_PD, PG_SVC, PG_EVQ] s t) ∧
    (∀ (s : State),
      s.Steady ∧ s.pdOn = true ∧ s.injOn PG_PD 1 = false →
      Completes (.pdMessageRx .softReset true) s fun t =>
        t.port.sent = [.accept] ∧ t.port.stage = .idle ∧ Frame [PG_TYPEC, PG_PD, PG_SVC, PG_EVQ] s t) ∧
    (∀ (s : State),
      s.Steady ∧ s.pdOn = true ∧ s.injOn PG_PD 1 = false →
      Completes (.pdMessageRx .getSinkCap true) s fun t =>
        t.port.sent = [if (s.pdoList false).1.isEmpty then .notSupported else .sinkCaps (s.pdosUsed false)] ∧
          Frame [PG_TYPEC, PG_PD, PG_SVC, PG_EVQ] s t) ∧
    (∀ (s : State),
      s.Steady ∧ s.pdOn = true ∧ s.injOn PG_PD 1 = false →
      Completes (.pdMessageRx .getStatus true) s fun t =>
        t.port.sent = [.status] ∧ Frame [PG_TYPEC, PG_PD, PG_SVC, PG_EVQ] s t) ∧
    (∀ (s : State),
      s.Steady ∧ s.pdOn = true ∧ s.injOn PG_PD 1 = false →
      Completes (.pdMessageRx .unsupported true) s fun t =>
        t.port.sent = [.notSupported] ∧ Frame [PG_TYPEC, PG_PD, PG_SVC, PG_EVQ] s t) ∧
    (∀ (s : State),
      s.Steady ∧ s.pdOn = true ∧ s.injOn PG_PD 1 = false ∧ s.port.stage = .request →
      Completes (.pdMessageRx .accept true) s fun t =>
        t.port.stage = .ready ∧ t.port.sent = [] ∧ Frame [PG_TYPEC, PG_PD, PG_SVC, PG_EVQ] s t) ∧
    (∀ (s : State),
      s.Steady ∧ s.pdOn = true ∧ s.injOn PG_PD 1 = false ∧ s.port.stage = .ready ∧ s.portCode = 5 →
      Completes (.pdMessageRx .psRdy true) s fun t =>
        t.port.sent = (if s.polOn PD_CFG_FRS_SNK_EN ∧ s.get TYPEC_STATE_RPSEEN = 2 then [.getSinkCap] else []) ∧ t.port.stage = .idle ∧
          t.on PD_CONTRACT_VALID = true ∧ t.get PD_CONTRACT_POS = s.port.reqRdo / 0x10000000 % 8 ∧
          t.statusOf PG_PD PD_ST_CONTRACT = true ∧ Frame [PG_TYPEC, PG_PD, PG_SVC, PG_EVQ] s t) ∧
    (∀ (s : State) (x : PdMsg),
      s.Steady ∧ s.pdOn = true ∧ pdMsgOk x = true →
      Completes (.pdMessageRx x false) s fun t =>
        t.get PD_COUNTS_CRCERR = satInc 255 (s.get PD_COUNTS_CRCERR) ∧ t.port.sent = [] ∧ t.port.stage = s.port.stage ∧
          Frame [PG_TYPEC, PG_PD, PG_SVC, PG_EVQ] s t) ∧
    (∀ (s : State) (x : PdMsg) (good : Bool),
      s.Steady ∧ s.pdOn = false ∧ pdMsgOk x = true →
      Completes (.pdMessageRx x good) s fun t =>
        t.port.sent = [] ∧ t.port.stage = s.port.stage ∧ Frame [PG_TYPEC, PG_PD, PG_SVC, PG_EVQ] s t) ∧
    (∀ (s : State),
      s.Steady ∧ s.port.stage = .soft ∧ s.portCode = 5 ∧ s.dev.bias = .vbus →
      Completes (.pdResponseTimeout) s fun t =>
        t.port.stage = .idle ∧ t.port.sent = [] ∧ t.errOf PG_PD PD_ERR_NORESP = true ∧ Frame [PG_TYPEC, PG_PD, PG_SVC, PG_EVQ] s t) ∧
    (∀ (s : State),
      s.Steady ∧ s.port.stage = .soft ∧ s.portCode = 5 ∧ s.dev.bias ≠ .vbus ∧ s.port.hrCount < 2 →
      Completes (.pdResponseTimeout) s fun t =>
        t.port.stage = .hrSink ∧ t.port.sent = [.hardReset] ∧ t.port.hrCount = s.port.hrCount + 1 ∧
          t.get PD_COUNTS_HARD = satInc 255 (s.get PD_COUNTS_HARD) ∧ t.on PD_CONTRACT_VALID = false ∧
          Frame [PG_TYPEC, PG_PD, PG_SVC, PG_EVQ] s t) ∧
    (∀ (s : State),
      s.Steady ∧ s.port.stage ≠ .soft →
      Completes (.pdResponseTimeout) s fun t =>
        t.port.sent = [] ∧ t.port.stage = s.port.stage ∧ Frame [PG_TYPEC, PG_PD, PG_SVC, PG_EVQ] s t)

/-- A swap that the partner asks for while nothing else is under way is accepted where the policy allows it (a data, a VCONN and a power swap
from either role, each with what it begins) and rejected otherwise; a power swap that stalls is ErrorRecovery; the host's commands with
their key send the message named, from the idle state, or hold it back as sink with a contract until SinkTxOK, and do nothing without the
key; a Hard Reset, received or sent, ends the contract and begins the sequence of the role, whose timers move it on; a Fast Role Swap signal
closes SRC_EN and asks for the swap, and without an Accept it is ErrorRecovery; SRC_OK falling as source is signalled as a Fast Role Swap
where that is agreed, and is ErrorRecovery otherwise. (R442 of spec/20_service_port.md, R443 of spec/20_service_port.md, R444 of
spec/20_service_port.md, R445 of spec/20_service_port.md, R446 of spec/20_service_port.md, R447 of spec/20_service_port.md, R448 of
spec/20_service_port.md, R449 of spec/20_service_port.md, R454 of spec/20_service_port.md.) -/
def Obligations.PortSwapsAndResets : Prop :=
  (∀ (s : State) (vconnIn : Bool),
      s.Steady ∧ s.pdOn = true ∧ s.injOn PG_PD 1 = false ∧ s.port.stage = .idle ∧ s.polOn PD_CFG_ACC_DRS = true →
      Completes (.pdSwapRx .data vconnIn true) s fun t =>
        t.port.sent = [.accept] ∧ t.get PD_CONTRACT_DROLE = 1 - s.get PD_CONTRACT_DROLE ∧ t.port.stage = .idle ∧
          t.statusOf PG_PD PD_ST_SWAP = true ∧ Frame [PG_TYPEC, PG_PD, PG_SVC, PG_EVQ] s t) ∧
    (∀ (s : State) (k : PdSwap) (vconnIn : Bool),
      s.Steady ∧ s.pdOn = true ∧ s.injOn PG_PD 1 = false ∧ s.port.stage = .idle ∧ s.swapAllowed k vconnIn = false →
      Completes (.pdSwapRx k vconnIn true) s fun t =>
        t.port.sent = [.reject] ∧ t.statusOf PG_PD PD_ST_REJECT = true ∧ t.port.stage = .idle ∧
          Frame [PG_TYPEC, PG_PD, PG_SVC, PG_EVQ] s t) ∧
    (∀ (s : State) (vconnIn : Bool),
      s.Steady ∧ s.pdOn = true ∧ s.injOn PG_PD 1 = false ∧ s.port.stage = .idle ∧ s.portCode = 6 ∧ s.polOn PD_CFG_ACC_PRS = true →
      Completes (.pdSwapRx .power vconnIn true) s fun t =>
        t.port.sent = [.accept] ∧ t.port.stage = .toSnkDis ∧ t.port.srcEn = false ∧ t.port.vbusDis = true ∧
          Frame [PG_TYPEC, PG_PD, PG_SVC, PG_EVQ] s t) ∧
    (∀ (s : State) (vconnIn : Bool),
      s.Steady ∧ s.pdOn = true ∧ s.injOn PG_PD 1 = false ∧ s.port.stage = .idle ∧ s.portCode = 5 ∧ s.polOn PD_CFG_ACC_PRS = true ∧
        s.srcOk = true →
      Completes (.pdSwapRx .power vconnIn true) s fun t =>
        t.port.sent = [.accept] ∧ t.port.stage = .toSrcWait ∧ t.portCode = 5 ∧ Frame [PG_TYPEC, PG_PD, PG_SVC, PG_EVQ] s t) ∧
    (∀ (s : State) (vconnIn : Bool),
      s.Steady ∧ s.pdOn = true ∧ s.injOn PG_PD 1 = false ∧ s.port.stage = .idle ∧ s.polOn PD_CFG_ACC_VCS = true ∧
        (s.on PD_CONTRACT_VCONNSRC = true ∨ vconnIn = true) →
      Completes (.pdSwapRx .vconn vconnIn true) s fun t =>
        t.port.sent = [.accept] ∧ t.get PD_CONTRACT_VCONNSRC = 1 - s.get PD_CONTRACT_VCONNSRC ∧ t.port.stage = .idle ∧
          t.statusOf PG_PD PD_ST_SWAP = true ∧ Frame [PG_TYPEC, PG_PD, PG_SVC, PG_EVQ] s t) ∧
    (∀ (s : State) (k : PdSwap) (vconnIn : Bool),
      s.Steady ∧ s.pdOn = true →
      Completes (.pdSwapRx k vconnIn false) s fun t =>
        t.get PD_COUNTS_CRCERR = satInc 255 (s.get PD_COUNTS_CRCERR) ∧ t.port.sent = [] ∧ t.port.stage = s.port.stage ∧
          Frame [PG_TYPEC, PG_PD, PG_SVC, PG_EVQ] s t) ∧
    (∀ (s : State),
      s.Steady ∧ (s.port.stage = .toSnkWait ∨ s.port.stage = .toSrcWait ∨ s.port.stage = .toSrcSupply) →
      Completes (.pdSwapTimeout) s fun t =>
        t.portCode = 7 ∧ t.port.vbusDis = true ∧ t.port.stage = .idle ∧ t.on PD_CONTRACT_VALID = false ∧
          Frame [PG_TYPEC, PG_PD, PG_SVC, PG_EVQ] s t) ∧
    (∀ (s : State),
      s.Steady ∧ s.port.stage = .idle →
      Completes (.pdSwapTimeout) s fun t =>
        t.port.sent = [] ∧ t.port.stage = .idle ∧ Frame [PG_TYPEC, PG_PD, PG_SVC, PG_EVQ] s t) ∧
    (∀ (s : State) (m : Master) (key : BitVec 16),
      s.accepts m = true ∧ hostMaster m = true ∧ s.Steady ∧ key = 0x5D3A ∧ s.pdOn = true ∧ s.portCode = 5 ∧
        s.on PD_CONTRACT_VALID = true ∧ s.get TYPEC_STATE_RPSEEN ≠ 2 ∧ s.port.stage = .idle →
      Completes (.pdRenegotiate m key) s fun t =>
        t.port.sent = [] ∧ t.port.held = some (.getSourceCap, .idle) ∧ t.port.stage = .idle ∧
          Frame [PG_DEV, PG_TYPEC, PG_PD, PG_SVC, PG_EVQ] s t) ∧
    (∀ (s : State) (m : Master) (key : BitVec 16),
      s.accepts m = true ∧ hostMaster m = true ∧ s.Steady ∧ key = 0x5D3A ∧ s.pdOn = true ∧ s.portCode = 5 ∧
        s.on PD_CONTRACT_VALID = true ∧ s.get TYPEC_STATE_RPSEEN ≠ 2 ∧ s.port.stage = .idle →
      Completes (.pdPrSwap m key) s fun t =>
        t.port.sent = [] ∧ t.port.held = some (.swap .power, .swap .power) ∧ t.port.stage = .idle ∧
          Frame [PG_DEV, PG_TYPEC, PG_PD, PG_SVC, PG_EVQ] s t) ∧
    (∀ (s : State) (m : Master) (key : BitVec 16),
      s.accepts m = true ∧ hostMaster m = true ∧ s.Steady ∧ key = 0x5D3A ∧ s.pdOn = true ∧ s.portCode = 5 ∧
        s.on PD_CONTRACT_VALID = true ∧ s.get TYPEC_STATE_RPSEEN ≠ 2 ∧ s.port.stage = .idle →
      Completes (.pdDrSwap m key) s fun t =>
        t.port.sent = [] ∧ t.port.held = some (.swap .data, .swap .data) ∧ t.port.stage = .idle ∧
          Frame [PG_DEV, PG_TYPEC, PG_PD, PG_SVC, PG_EVQ] s t) ∧
    (∀ (s : State) (m : Master) (key : BitVec 16),
      s.accepts m = true ∧ hostMaster m = true ∧ s.Steady ∧ key = 0x5D3A ∧ s.pdOn = true ∧ s.portCode = 5 ∧
        s.on PD_CONTRACT_VALID = true ∧ s.get TYPEC_STATE_RPSEEN ≠ 2 ∧ s.port.stage = .idle →
      Completes (.pdVconnSwap m key) s fun t =>
        t.port.sent = [] ∧ t.port.held = some (.swap .vconn, .swap .vconn) ∧ t.port.stage = .idle ∧
          Frame [PG_DEV, PG_TYPEC, PG_PD, PG_SVC, PG_EVQ] s t) ∧
    (∀ (s : State) (m : Master) (key : BitVec 16),
      s.accepts m = true ∧ hostMaster m = true ∧ s.Steady ∧ key = 0x5D3A ∧ s.pdOn = true ∧ s.portCode = 5 ∧
        s.on PD_CONTRACT_VALID = true ∧ s.get TYPEC_STATE_RPSEEN ≠ 2 ∧ s.port.stage = .idle →
      Completes (.pdGetStatus m key) s fun t =>
        t.port.sent = [] ∧ t.port.held = some (.getStatus, .idle) ∧ t.port.stage = .idle ∧
          Frame [PG_DEV, PG_TYPEC, PG_PD, PG_SVC, PG_EVQ] s t) ∧
    (∀ (s : State) (m : Master) (key : BitVec 16),
      s.accepts m = true ∧ hostMaster m = true ∧ s.Steady ∧ key = 0x5D3A ∧ s.pdOn = true ∧ (s.portCode = 6 ∨
        s.on PD_CONTRACT_VALID = false ∨ s.get TYPEC_STATE_RPSEEN = 2) ∧ s.port.stage = .idle →
      Completes (.pdRenegotiate m key) s fun t =>
        t.port.sent = [if s.portCode = 6 then .sourceCaps (s.pdosUsed true) else .getSourceCap] ∧ t.port.stage = .idle ∧
          Frame [PG_DEV, PG_TYPEC, PG_PD, PG_SVC, PG_EVQ] s t) ∧
    (∀ (s : State) (m : Master) (key : BitVec 16),
      s.accepts m = true ∧ hostMaster m = true ∧ s.Steady ∧ key ≠ 0x5D3A →
      Completes (.pdRenegotiate m key) s fun t =>
        t.port.sent = [] ∧ t.port.stage = s.port.stage ∧ t.port.lantern = s.port.lantern ∧
          Frame [PG_DEV, PG_TYPEC, PG_PD, PG_SVC, PG_EVQ] s t) ∧
    (∀ (s : State) (m : Master) (key : BitVec 16),
      s.accepts m = true ∧ hostMaster m = true ∧ s.Steady ∧ key = 0x5D3A ∧ s.pdOn = true ∧ (s.portCode = 6 ∨
        s.on PD_CONTRACT_VALID = false ∨ s.get TYPEC_STATE_RPSEEN = 2) ∧ s.port.stage = .idle →
      Completes (.pdPrSwap m key) s fun t =>
        t.port.sent = [.swap .power] ∧ t.port.stage = .swap .power ∧ Frame [PG_DEV, PG_TYPEC, PG_PD, PG_SVC, PG_EVQ] s t) ∧
    (∀ (s : State) (m : Master) (key : BitVec 16),
      s.accepts m = true ∧ hostMaster m = true ∧ s.Steady ∧ key ≠ 0x5D3A →
      Completes (.pdPrSwap m key) s fun t =>
        t.port.sent = [] ∧ t.port.stage = s.port.stage ∧ t.port.lantern = s.port.lantern ∧
          Frame [PG_DEV, PG_TYPEC, PG_PD, PG_SVC, PG_EVQ] s t) ∧
    (∀ (s : State) (m : Master) (key : BitVec 16),
      s.accepts m = true ∧ hostMaster m = true ∧ s.Steady ∧ key = 0x5D3A ∧ s.pdOn = true ∧ (s.portCode = 6 ∨
        s.on PD_CONTRACT_VALID = false ∨ s.get TYPEC_STATE_RPSEEN = 2) ∧ s.port.stage = .idle →
      Completes (.pdDrSwap m key) s fun t =>
        t.port.sent = [.swap .data] ∧ t.port.stage = .swap .data ∧ Frame [PG_DEV, PG_TYPEC, PG_PD, PG_SVC, PG_EVQ] s t) ∧
    (∀ (s : State) (m : Master) (key : BitVec 16),
      s.accepts m = true ∧ hostMaster m = true ∧ s.Steady ∧ key ≠ 0x5D3A →
      Completes (.pdDrSwap m key) s fun t =>
        t.port.sent = [] ∧ t.port.stage = s.port.stage ∧ t.port.lantern = s.port.lantern ∧
          Frame [PG_DEV, PG_TYPEC, PG_PD, PG_SVC, PG_EVQ] s t) ∧
    (∀ (s : State) (m : Master) (key : BitVec 16),
      s.accepts m = true ∧ hostMaster m = true ∧ s.Steady ∧ key = 0x5D3A ∧ s.pdOn = true ∧ (s.portCode = 6 ∨
        s.on PD_CONTRACT_VALID = false ∨ s.get TYPEC_STATE_RPSEEN = 2) ∧ s.port.stage = .idle →
      Completes (.pdVconnSwap m key) s fun t =>
        t.port.sent = [.swap .vconn] ∧ t.port.stage = .swap .vconn ∧ Frame [PG_DEV, PG_TYPEC, PG_PD, PG_SVC, PG_EVQ] s t) ∧
    (∀ (s : State) (m : Master) (key : BitVec 16),
      s.accepts m = true ∧ hostMaster m = true ∧ s.Steady ∧ key ≠ 0x5D3A →
      Completes (.pdVconnSwap m key) s fun t =>
        t.port.sent = [] ∧ t.port.stage = s.port.stage ∧ t.port.lantern = s.port.lantern ∧
          Frame [PG_DEV, PG_TYPEC, PG_PD, PG_SVC, PG_EVQ] s t) ∧
    (∀ (s : State) (m : Master) (key : BitVec 16),
      s.accepts m = true ∧ hostMaster m = true ∧ s.Steady ∧ key = 0x5D3A ∧ s.pdOn = true ∧ s.portCode = 5 ∧ s.port.stage = .idle ∧
        s.port.hrCount < 2 →
      Completes (.pdHardResetCmd m key) s fun t =>
        t.port.sent = [.hardReset] ∧ t.port.stage = .hrSink ∧ t.port.hrCount = s.port.hrCount + 1 ∧
          t.get PD_COUNTS_HARD = satInc 255 (s.get PD_COUNTS_HARD) ∧ t.on PD_CONTRACT_VALID = false ∧
          Frame [PG_DEV, PG_TYPEC, PG_PD, PG_SVC, PG_EVQ] s t) ∧
    (∀ (s : State) (m : Master) (key : BitVec 16),
      s.accepts m = true ∧ hostMaster m = true ∧ s.Steady ∧ key ≠ 0x5D3A →
      Completes (.pdHardResetCmd m key) s fun t =>
        t.port.sent = [] ∧ t.port.stage = s.port.stage ∧ t.port.lantern = s.port.lantern ∧
          Frame [PG_DEV, PG_TYPEC, PG_PD, PG_SVC, PG_EVQ] s t) ∧
    (∀ (s : State) (m : Master) (key : BitVec 16),
      s.accepts m = true ∧ hostMaster m = true ∧ s.Steady ∧ key = 0x5D3A ∧ s.pdOn = true ∧ s.portCode = 6 ∧ s.port.stage = .idle ∧
        s.port.hrCount < 2 →
      Completes (.pdHardResetCmd m key) s fun t =>
        t.port.sent = [.hardReset] ∧ t.port.stage = .hrHold ∧ t.port.hrCount = s.port.hrCount + 1 ∧ t.on PD_CONTRACT_VALID = false ∧
          Frame [PG_DEV, PG_TYPEC, PG_PD, PG_SVC, PG_EVQ] s t) ∧
    (∀ (s : State) (m : Master) (key : BitVec 16),
      s.accepts m = true ∧ hostMaster m = true ∧ s.Steady ∧ key = 0x5D3A ∧ s.pdOn = true ∧ s.port.stage = .idle ∧ 2 ≤ s.port.hrCount →
      Completes (.pdHardResetCmd m key) s fun t =>
        t.portCode = 7 ∧ t.errOf PG_PD PD_ERR_NORESP = true ∧ t.on PD_CONTRACT_VALID = false ∧
          Frame [PG_DEV, PG_TYPEC, PG_PD, PG_SVC, PG_EVQ] s t) ∧
    (∀ (s : State) (m : Master) (key : BitVec 16),
      s.accepts m = true ∧ hostMaster m = true ∧ s.Steady ∧ key = 0x5D3A ∧ s.pdOn = true →
      Completes (.pdSendVdm m key) s fun t =>
        t.port.sent = [.vdm ((List.range 7).map fun j => s.get (PD_TXVDM_VDO.el j))] ∧ t.statusOf PG_PD PD_ST_VDMTXDONE = true ∧
          t.port.vdmWait = false ∧ Frame [PG_DEV, PG_TYPEC, PG_PD, PG_SVC, PG_EVQ] s t) ∧
    (∀ (s : State) (m : Master) (key : BitVec 16),
      s.accepts m = true ∧ hostMaster m = true ∧ s.Steady ∧ key ≠ 0x5D3A →
      Completes (.pdSendVdm m key) s fun t =>
        t.port.sent = [] ∧ t.port.stage = s.port.stage ∧ t.port.lantern = s.port.lantern ∧
          Frame [PG_DEV, PG_TYPEC, PG_PD, PG_SVC, PG_EVQ] s t) ∧
    (∀ (s : State) (m : Master) (key : BitVec 16),
      s.accepts m = true ∧ hostMaster m = true ∧ s.Steady ∧ key = 0x5D3A ∧ s.pdOn = true ∧ (s.portCode = 6 ∨
        s.on PD_CONTRACT_VALID = false ∨ s.get TYPEC_STATE_RPSEEN = 2) →
      Completes (.pdGetStatus m key) s fun t =>
        t.port.sent = [.getStatus] ∧ t.port.stage = s.port.stage ∧ Frame [PG_DEV, PG_TYPEC, PG_PD, PG_SVC, PG_EVQ] s t) ∧
    (∀ (s : State) (m : Master) (key : BitVec 16),
      s.accepts m = true ∧ hostMaster m = true ∧ s.Steady ∧ key ≠ 0x5D3A →
      Completes (.pdGetStatus m key) s fun t =>
        t.port.sent = [] ∧ t.port.stage = s.port.stage ∧ t.port.lantern = s.port.lantern ∧
          Frame [PG_DEV, PG_TYPEC, PG_PD, PG_SVC, PG_EVQ] s t) ∧
    (∀ (s : State),
      s.Steady ∧ s.pdOn = true ∧ s.portCode = 5 ∧ s.port.stage = .idle →
      Completes (.pdHardReset) s fun t =>
        t.port.stage = .hrSink ∧ t.port.srcEn = false ∧ t.portCode = 5 ∧ t.on PD_CONTRACT_VALID = false ∧ t.port.lantern = false ∧
          t.statusOf PG_PD PD_ST_HARDRESET = true ∧ Frame [PG_TYPEC, PG_PD, PG_SVC, PG_EVQ] s t) ∧
    (∀ (s : State),
      s.Steady ∧ s.pdOn = true ∧ s.portCode = 6 ∧ s.port.stage = .idle →
      Completes (.pdHardReset) s fun t =>
        t.port.stage = .hrHold ∧ t.portCode = 6 ∧ t.on PD_CONTRACT_VALID = false ∧ t.port.lantern = false ∧
          t.statusOf PG_PD PD_ST_HARDRESET = true ∧ Frame [PG_TYPEC, PG_PD, PG_SVC, PG_EVQ] s t) ∧
    (∀ (s : State),
      s.Steady ∧ s.pdOn = false →
      Completes (.pdHardReset) s fun t =>
        t.port.stage = s.port.stage ∧ t.port.sent = [] ∧ Frame [PG_TYPEC, PG_PD, PG_SVC, PG_EVQ] s t) ∧
    (∀ (s : State),
      s.Steady ∧ s.port.stage = .hrSink →
      Completes (.pdHardResetVbusTimeout) s fun t =>
        t.portCode = 7 ∧ t.port.stage = .idle ∧ t.port.vbusDis = true ∧ Frame [PG_TYPEC, PG_PD, PG_SVC, PG_EVQ] s t) ∧
    (∀ (s : State),
      s.Steady ∧ s.port.stage ≠ .hrSink →
      Completes (.pdHardResetVbusTimeout) s fun t =>
        t.port.stage = s.port.stage ∧ t.port.sent = [] ∧ Frame [PG_TYPEC, PG_PD, PG_SVC, PG_EVQ] s t) ∧
    (∀ (s : State),
      s.Steady ∧ s.port.stage = .hrHold →
      Completes (.pdHardResetTimer) s fun t =>
        t.port.stage = .hrDis ∧ t.port.srcEn = false ∧ t.port.vbusDis = true ∧ Frame [PG_TYPEC, PG_PD, PG_SVC, PG_EVQ] s t) ∧
    (∀ (s : State),
      s.Steady ∧ s.portCode = 6 ∧ s.port.stage = .hrOff ∧ s.srcOk = true →
      Completes (.pdHardResetTimer) s fun t =>
        t.port.stage = .hrOn ∧ t.port.capsLeft = 50 ∧ t.get SVC_TARGET_V_TGT = 500 ∧ Frame [PG_TYPEC, PG_PD, PG_SVC, PG_EVQ] s t) ∧
    (∀ (s : State),
      s.Steady ∧ s.port.stage = .hrOff ∧ s.srcOk = false →
      Completes (.pdHardResetTimer) s fun t =>
        t.portCode = 7 ∧ t.port.stage = .idle ∧ Frame [PG_TYPEC, PG_PD, PG_SVC, PG_EVQ] s t) ∧
    (∀ (s : State),
      s.Steady ∧ s.port.stage = .idle →
      Completes (.pdHardResetTimer) s fun t =>
        t.port.stage = .idle ∧ t.port.sent = [] ∧ Frame [PG_TYPEC, PG_PD, PG_SVC, PG_EVQ] s t) ∧
    (∀ (s : State),
      s.Steady ∧ s.pdOn = true ∧ s.on TYPEC_STATE_FRSARM = true ∧ s.port.stage = .idle →
      Completes (.pdFrsSignal) s fun t =>
        t.port.sent = [.frSwap] ∧ t.port.stage = .frsReq ∧ t.port.srcEn = true ∧ Frame [PG_TYPEC, PG_PD, PG_SVC, PG_EVQ] s t) ∧
    (∀ (s : State),
      s.Steady ∧ s.on TYPEC_STATE_FRSARM = false →
      Completes (.pdFrsSignal) s fun t =>
        t.port.sent = [] ∧ t.port.stage = s.port.stage ∧ Frame [PG_TYPEC, PG_PD, PG_SVC, PG_EVQ] s t) ∧
    (∀ (s : State),
      s.Steady ∧ s.port.stage = .frsReq →
      Completes (.pdFrsAcceptTimeout) s fun t =>
        t.portCode = 7 ∧ t.port.stage = .idle ∧ t.statusOf PG_PD PD_ST_FRS = true ∧ Frame [PG_TYPEC, PG_PD, PG_SVC, PG_EVQ] s t) ∧
    (∀ (s : State),
      s.Steady ∧ s.port.stage ≠ .frsReq →
      Completes (.pdFrsAcceptTimeout) s fun t =>
        t.port.stage = s.port.stage ∧ t.port.sent = [] ∧ Frame [PG_TYPEC, PG_PD, PG_SVC, PG_EVQ] s t) ∧
    (∀ (s : State),
      s.Steady ∧ s.srcOk = false ∧ s.portCode = 6 ∧ s.port.stage = .idle ∧ (s.on PD_CONTRACT_VALID = false ∨
        s.polOn PD_CFG_FRS_SRC_EN = false ∨ s.get PD_PARTNER_FRSCUR = 0) →
      Completes (.srcOkFall) s fun t =>
        t.portCode = 7 ∧ t.port.stage = .idle ∧ t.port.vbusDis = true ∧ t.statusOf PG_TYPEC TYPEC_ST_SRCLOST = true ∧
          Frame [PG_TYPEC, PG_PD, PG_SVC, PG_EVQ] s t) ∧
    (∀ (s : State),
      s.Steady ∧ s.srcOk = false ∧ s.portCode = 6 ∧ s.port.stage = .idle ∧ s.on PD_CONTRACT_VALID = true ∧
        s.polOn PD_CFG_FRS_SRC_EN = true ∧ s.get PD_PARTNER_FRSCUR ≠ 0 →
      Completes (.srcOkFall) s fun t =>
        t.port.stage = .frsOffer ∧ t.port.srcEn = false ∧ t.statusOf PG_TYPEC TYPEC_ST_SRCLOST = true ∧
          Frame [PG_TYPEC, PG_PD, PG_SVC, PG_EVQ] s t) ∧
    (∀ (s : State),
      s.Steady ∧ (s.srcOk = true ∨ (s.portCode ≠ 6 ∧ s.port.stage = .idle)) →
      Completes (.srcOkFall) s fun t =>
        t.port.stage = s.port.stage ∧ t.port.sent = [] ∧ Frame [PG_TYPEC, PG_PD, PG_SVC, PG_EVQ] s t)

/-- A structured VDM that the lantern responder does not answer is placed in RXVDM with its count, or answered BUSY while RXINFO is full; an
unstructured one is answered Not_Supported; a host that does not answer in time is answered for with NAK; the responder's Discover Identity,
Enter Mode and Exit Mode are answered with ACK, and Enter Mode and Exit Mode begin and end service lantern mode; a VDM with a bad CRC is
counted and not answered. (R450 of spec/20_service_port.md, R451 of spec/20_service_port.md, R452 of spec/20_service_port.md.) -/
def Obligations.PortVdmsAndLantern : Prop :=
  (∀ (s : State) (words : List Word),
      s.Steady ∧ s.pdOn = true ∧ s.injOn PG_PD 1 = false ∧ 0 < words.length ∧ words.length ≤ 7 ∧
        bitOf (nth (words.map BitVec.toNat) 0) 15 = true ∧ s.lanternFor (words.map BitVec.toNat) = false ∧ s.on PD_RXINFO_FULL = false →
      Completes (.pdVdmRx words true) s fun t =>
        t.on PD_RXINFO_FULL = true ∧ t.get PD_RXINFO_COUNT = words.length ∧ t.get (PD_RXVDM_VDO.el 0) = nth (words.map BitVec.toNat) 0 ∧
          t.get (PD_RXVDM_VDO.el 6) = nth (words.map BitVec.toNat) 6 ∧ t.statusOf PG_PD PD_ST_VDMRX = true ∧ t.port.vdmWait = true ∧
          t.port.sent = [] ∧ Frame [PG_TYPEC, PG_PD, PG_SVC, PG_EVQ] s t) ∧
    (∀ (s : State) (words : List Word),
      s.Steady ∧ s.pdOn = true ∧ s.injOn PG_PD 1 = false ∧ 0 < words.length ∧ words.length ≤ 7 ∧
        bitOf (nth (words.map BitVec.toNat) 0) 15 = true ∧ s.lanternFor (words.map BitVec.toNat) = false ∧ s.on PD_RXINFO_FULL = true →
      Completes (.pdVdmRx words true) s fun t =>
        t.port.sent = [.vdm [vdmAnswer (nth (words.map BitVec.toNat) 0) 3]] ∧ t.on PD_RXINFO_FULL = true ∧
          Frame [PG_TYPEC, PG_PD, PG_SVC, PG_EVQ] s t) ∧
    (∀ (s : State) (words : List Word),
      s.Steady ∧ s.pdOn = true ∧ s.injOn PG_PD 1 = false ∧ 0 < words.length ∧ words.length ≤ 7 ∧
        bitOf (nth (words.map BitVec.toNat) 0) 15 = false →
      Completes (.pdVdmRx words true) s fun t =>
        t.port.sent = [.notSupported] ∧ Frame [PG_TYPEC, PG_PD, PG_SVC, PG_EVQ] s t) ∧
    (∀ (s : State) (words : List Word),
      s.Steady ∧ s.pdOn = true ∧ 0 < words.length ∧ words.length ≤ 7 →
      Completes (.pdVdmRx words false) s fun t =>
        t.get PD_COUNTS_CRCERR = satInc 255 (s.get PD_COUNTS_CRCERR) ∧ t.port.sent = [] ∧ t.port.stage = s.port.stage ∧
          Frame [PG_TYPEC, PG_PD, PG_SVC, PG_EVQ] s t) ∧
    (∀ (s : State),
      s.Steady ∧ s.port.vdmWait = true ∧ s.pdOn = true →
      Completes (.pdVdmAnswerTimeout) s fun t =>
        t.port.sent = [.vdm [vdmAnswer (s.get (PD_RXVDM_VDO.el 0)) 2]] ∧ t.port.vdmWait = false ∧
          Frame [PG_TYPEC, PG_PD, PG_SVC, PG_EVQ] s t) ∧
    (∀ (s : State),
      s.Steady ∧ (s.port.vdmWait = false ∨ s.pdOn = false) →
      Completes (.pdVdmAnswerTimeout) s fun t =>
        t.port.sent = [] ∧ t.port.vdmWait = s.port.vdmWait ∧ Frame [PG_TYPEC, PG_PD, PG_SVC, PG_EVQ] s t) ∧
    (∀ (s : State) (words : List Word),
      s.Steady ∧ s.pdOn = true ∧ s.injOn PG_PD 1 = false ∧ 0 < words.length ∧ words.length ≤ 7 ∧
        s.lanternFor (words.map BitVec.toNat) = true ∧ bitsOf (nth (words.map BitVec.toNat) 0) 0 5 = 1 ∧
        nth (words.map BitVec.toNat) 0 / 65536 % 65536 = 0xFF00 →
      Completes (.lanternCommand words true) s fun t =>
        t.port.sent = [.vdm [vdmAnswer (nth (words.map BitVec.toNat) 0) 1, s.get PD_IDHDR_VDO, 0, s.get PD_IDPROD_VDO]] ∧
          t.port.lantern = s.port.lantern ∧ Frame [PG_TYPEC, PG_PD, PG_SVC, PG_EVQ] s t) ∧
    (∀ (s : State) (words : List Word),
      s.Steady ∧ s.pdOn = true ∧ s.injOn PG_PD 1 = false ∧ 0 < words.length ∧ words.length ≤ 7 ∧
        s.lanternFor (words.map BitVec.toNat) = true ∧ bitsOf (nth (words.map BitVec.toNat) 0) 0 5 = 4 ∧
        nth (words.map BitVec.toNat) 0 / 65536 % 65536 = s.get PD_SVID_SVID ∧ bitsOf (nth (words.map BitVec.toNat) 0) 8 3 = 1 →
      Completes (.lanternCommand words true) s fun t =>
        t.port.sent = [.vdm [vdmAnswer (nth (words.map BitVec.toNat) 0) 1]] ∧ t.port.lantern = true ∧
          t.statusOf PG_PD PD_ST_LANTERN = true ∧ Frame [PG_TYPEC, PG_PD, PG_SVC, PG_EVQ] s t) ∧
    (∀ (s : State) (words : List Word),
      s.Steady ∧ s.pdOn = true ∧ s.injOn PG_PD 1 = false ∧ 0 < words.length ∧ words.length ≤ 7 ∧
        s.lanternFor (words.map BitVec.toNat) = true ∧ bitsOf (nth (words.map BitVec.toNat) 0) 0 5 = 5 ∧
        nth (words.map BitVec.toNat) 0 / 65536 % 65536 = s.get PD_SVID_SVID →
      Completes (.lanternCommand words true) s fun t =>
        t.port.sent = [.vdm [vdmAnswer (nth (words.map BitVec.toNat) 0) 1]] ∧ t.port.lantern = false ∧
          Frame [PG_TYPEC, PG_PD, PG_SVC, PG_EVQ] s t) ∧
    (∀ (s : State) (words : List Word),
      s.Steady ∧ s.pdOn = true ∧ s.injOn PG_PD 1 = false ∧ 0 < words.length ∧ words.length ≤ 7 ∧
        s.lanternFor (words.map BitVec.toNat) = false →
      Completes (.lanternCommand words true) s fun t =>
        t.port.sent = [] ∧ t.port.lantern = s.port.lantern ∧ Frame [PG_TYPEC, PG_PD, PG_SVC, PG_EVQ] s t) ∧
    (∀ (s : State) (words : List Word),
      s.Steady ∧ s.pdOn = true ∧ 0 < words.length ∧ words.length ≤ 7 →
      Completes (.lanternCommand words false) s fun t =>
        t.get PD_COUNTS_CRCERR = satInc 255 (s.get PD_COUNTS_CRCERR) ∧ t.port.sent = [] ∧ t.port.stage = s.port.stage ∧
          Frame [PG_TYPEC, PG_PD, PG_SVC, PG_EVQ] s t)

/-- A write for another device goes on with one hop less, out of the opposite port or turned back where that is down; one with a bad check is
counted and goes on with its end marked, and one so marked already goes on marked and is not counted; one whose hop count is spent is
dropped and counted; a read for this device goes on claimed and its answer is queued; ENUM of another head ends the ring; a remote read that
gets no answer ends with outcome 3; SNUFF from another origin is forwarded, and recorded and reported where it is new, and one of the
device's own is removed; PILOT is forwarded, a DLYREQ answered, a DLYRESP judged, RFAULT takes the port down, and a set with a bad check is
dropped; SNUFF is repeated; a port that goes down reports the break and queues BREAK, a port that comes up is up and not quiet, one that is
down tells its neighbour until it is quiet and then sends bursts; a healed ring forgets its break. While the ring does not run nothing of it
happens. (R459 of spec/21_plant_ring.md, R460 of spec/21_plant_ring.md, R462 of spec/21_plant_ring.md, R464 of spec/21_plant_ring.md, R465
of spec/21_plant_ring.md, R470 of spec/21_plant_ring.md, R474 of spec/21_plant_ring.md, R476 of spec/21_plant_ring.md, R479 of
spec/21_plant_ring.md.) -/
def Obligations.RingFrames : Prop :=
  (∀ (s : State) (west : Bool) (f : RingFrame) (crc : BitVec 32) (ns res : Nat),
      s.Quiet ∧ ringFrameOk f = true ∧ s.ringRuns = true ∧ crc.toNat = ringCrc f ∧ s.injOn PG_RING 1 = false ∧ s.ring.unusable = false ∧
        f.typ = 2 ∧ f.bc = false ∧ f.turned = false ∧ s.frameOwn f = false ∧ f.dst ≠ s.devNum ∧ 1 < f.hops ∧ s.portUp (!west) = true →
      Completes (.ringFrameRx west f crc false ns res) s fun t =>
        t.ring.sent = [(!west, .frame { f with hops := f.hops - 1 } false)] ∧ FrameE [] s t) ∧
    (∀ (s : State) (west : Bool) (f : RingFrame) (crc : BitVec 32) (ns res : Nat),
      s.Quiet ∧ ringFrameOk f = true ∧ s.ringRuns = true ∧ s.injOn PG_RING 1 = false ∧ s.ring.unusable = false ∧ f.typ = 2 ∧
        f.bc = false ∧ f.turned = false ∧ s.frameOwn f = false ∧ f.dst ≠ s.devNum ∧ 1 < f.hops ∧ s.portUp (!west) = true →
      Completes (.ringFrameRx west f crc true ns res) s fun t =>
        t.ring.sent = [(!west, .frame { f with hops := f.hops - 1 } true)] ∧ FrameE [] s t) ∧
    (∀ (s : State) (west : Bool) (f : RingFrame) (crc : BitVec 32) (ns res : Nat),
      s.Quiet ∧ ringFrameOk f = true ∧ s.ringRuns = true ∧ crc.toNat = ringCrc f ∧ s.injOn PG_RING 1 = false ∧ s.ring.unusable = false ∧
        f.typ = 2 ∧ f.bc = false ∧ f.turned = false ∧ s.frameOwn f = false ∧ 1 < f.hops ∧ s.portUp (!west) = false ∧
        s.portUp west = true ∧ f.dst ≠ s.devNum →
      Completes (.ringFrameRx west f crc false ns res) s fun t =>
        t.ring.sent = [(west, .frame { f with hops := f.hops - 1, turned := true } false)] ∧ FrameE [] s t) ∧
    (∀ (s : State) (west : Bool) (f : RingFrame) (crc : BitVec 32) (eofb : Bool) (ns res : Nat),
      s.Quiet ∧ ringFrameOk f = true ∧ s.ringRuns = true ∧ crc.toNat = ringCrc f ∧ s.injOn PG_RING 1 = false ∧ (f.typ = 2 ∨ f.typ = 3) ∧
        s.frameTarget f = false ∧ s.frameOwn f = false ∧ f.hops ≤ 1 →
      Completes (.ringFrameRx west f crc eofb ns res) s fun t =>
        t.ring.sent = [] ∧ t.statusOf PG_RING RING_ST_TTL = true ∧ t.get RING_COUNTS_TTL = satInc 255 (s.get RING_COUNTS_TTL) ∧
          FrameE [PG_RING, PG_EVQ] s t) ∧
    (∀ (s : State) (west : Bool) (f : RingFrame) (crc : BitVec 32) (ns res : Nat),
      s.Quiet ∧ ringFrameOk f = true ∧ s.ringRuns = true ∧ crc.toNat ≠ ringCrc f ∧ s.ring.unusable = false ∧ f.typ = 2 ∧ f.bc = false ∧
        f.turned = false ∧ s.frameOwn f = false ∧ f.dst ≠ s.devNum ∧ 1 < f.hops ∧ s.portUp (!west) = true →
      Completes (.ringFrameRx west f crc false ns res) s fun t =>
        t.ring.sent = [(!west, .frame { f with hops := f.hops - 1 } true)] ∧
          t.get RING_COUNTS_CRCERR = min 2047 (s.get RING_COUNTS_CRCERR + 1) ∧ FrameE [PG_RING] s t) ∧
    (∀ (s : State) (west : Bool) (f : RingFrame) (crc : BitVec 32) (ns res : Nat),
      s.Quiet ∧ ringFrameOk f = true ∧ s.ringRuns = true ∧ crc.toNat = ringCrc f ∧ s.injOn PG_RING 1 = false ∧ s.ring.unusable = false ∧
        f.typ = 3 ∧ f.bc = false ∧ f.turned = false ∧ s.frameOwn f = false ∧ s.hasNum = true ∧ f.dst = s.devNum ∧ 1 < f.hops ∧
        s.portUp (!west) = true ∧ s.enabled PG_RING = true ∧ s.dev.freset.contains PG_RING = false ∧ s.busy = false ∧
        s.ring.txq.length < 8 →
      Completes (.ringFrameRx west f crc false ns res) s fun t =>
        t.ring.sent = [(!west, .frame { f with hops := f.hops - 1, claimed := true } false)] ∧ t.ring.txq.length = s.ring.txq.length + 1) ∧
    (∀ (s : State) (west : Bool) (f : RingFrame) (crc : BitVec 32) (ns res : Nat),
      s.Quiet ∧ ringFrameOk f = true ∧ s.ringRuns = true ∧ crc.toNat = ringCrc f ∧ s.injOn PG_RING 1 = false ∧ f.typ = 1 ∧
        s.isHead = true ∧ f.turned = false ∧ s.frameOwn f = false →
      Completes (.ringFrameRx west f crc false ns res) s fun t =>
        t.get RING_ENUM_RES_CODE = 0x12 ∧ t.get RING_STATE_ENUM = 0 ∧ t.ring.unusable = true ∧ t.errOf PG_RING RING_ERR_TWOHEAD = true ∧
          FrameE [PG_RING, PG_EVQ] s t) ∧
    (∀ (s : State) (west : Bool) (f : RingFrame) (crc : BitVec 32) (eofb : Bool) (ns res : Nat),
      s.Quiet ∧ ringFrameOk f = true ∧ s.ringRuns = false →
      Completes (.ringFrameRx west f crc eofb ns res) s fun t =>
        t.ring = s.begin.ring ∧ FrameE [] s t) ∧
    (∀ (s : State) (tag : BitVec 8) (r : RingRead),
      s.ring.reads.find? (·.tag == tag.toNat) = some r ∧ 32 ≤ r.tag ∧ r.tag < 160 →
      Completes (.remoteReadTimeout tag) s fun t =>
        t.rmtOf (r.tag / 32) = ⟨2, 3, 0, r.dev, []⟩ ∧ t.ring.reads = s.ring.reads.filter (fun x => x.tag != r.tag) ∧ Frame [] s t) ∧
    (∀ (s : State) (tag : BitVec 8) (r : RingRead) (a : Nat),
      s.ring.reads.find? (·.tag == tag.toNat) = some r ∧ r.tag < 32 ∧ r.result = some a ∧ a % 4 = 0 ∧ 0x1A0000 ≤ a ∧ a < 0x1E0000 →
      Completes (.remoteReadTimeout tag) s fun t =>
        t.load a 4 = ringResult 3 r.tag 3 0 ∧ t.ring.reads = s.ring.reads.filter (fun x => x.tag != r.tag) ∧ RegsBut [] s t ∧
          MemBut a 4 s t ∧ t.mode = s.mode) ∧
    (∀ (s : State) (tag : BitVec 8),
      s.ring.reads.find? (·.tag == tag.toNat) = none →
      Completes (.remoteReadTimeout tag) s fun t =>
        t = s.begin) ∧
    (∀ (s : State) (west : Bool) (b1 b2 b3 chk : BitVec 8) (rt : Nat),
      s.Quiet ∧ s.ringRuns = true ∧ chk.toNat = setCrc 1 b1.toNat b2.toNat b3.toNat ∧ s.injOn PG_RING 2 = false ∧
        s.ownSnuff (setOrigin b1.toNat b2.toNat) b3.toNat = false ∧
        s.ring.seen.contains ((setOrigin b1.toNat b2.toNat), b3.toNat) = false →
      Completes (.orderedSetRx west 1 b1 b2 b3 chk rt) s fun t =>
        t.ring.sent = [(!west, .oset 1 b1.toNat b2.toNat b3.toNat)] ∧ t.errOf PG_RING RING_ERR_SNUFFRX = true ∧
          ((setOrigin b1.toNat b2.toNat), b3.toNat) ∈ t.ring.seen ∧
          t.rd RING_SNUFFLAST_VALID.addr = BitVec.ofNat 32 (0x80000000 + b3.toNat * 65536 + (setOrigin b1.toNat b2.toNat)) ∧
          (s.errOf PG_RING RING_ERR_SNUFFRX = false → 5 ∈ t.lineSrcs) ∧ FrameE [PG_RING] s t) ∧
    (∀ (s : State) (west : Bool) (b1 b2 b3 chk : BitVec 8) (rt : Nat),
      s.Quiet ∧ s.ringRuns = true ∧ chk.toNat = setCrc 1 b1.toNat b2.toNat b3.toNat ∧ s.injOn PG_RING 2 = false ∧
        s.ownSnuff (setOrigin b1.toNat b2.toNat) b3.toNat = false ∧
        s.ring.seen.contains ((setOrigin b1.toNat b2.toNat), b3.toNat) = true →
      Completes (.orderedSetRx west 1 b1 b2 b3 chk rt) s fun t =>
        t.ring.sent = [(!west, .oset 1 b1.toNat b2.toNat b3.toNat)] ∧ t.fault = s.fault ∧ FrameE [] s t) ∧
    (∀ (s : State) (west : Bool) (b1 b2 b3 chk : BitVec 8) (rt : Nat),
      s.Quiet ∧ s.ringRuns = true ∧ chk.toNat = setCrc 1 b1.toNat b2.toNat b3.toNat ∧ s.injOn PG_RING 2 = false ∧
        s.ownSnuff (setOrigin b1.toNat b2.toNat) b3.toNat = true →
      Completes (.orderedSetRx west 1 b1 b2 b3 chk rt) s fun t =>
        t.ring.sent = [] ∧ t.fault = s.fault ∧ FrameE [] s t) ∧
    (∀ (s : State) (west : Bool) (b1 b2 b3 chk : BitVec 8) (rt : Nat),
      s.Quiet ∧ s.ringRuns = true ∧ chk.toNat = setCrc 2 b1.toNat b2.toNat b3.toNat ∧ s.injOn PG_RING 2 = false ∧ s.isHead = false →
      Completes (.orderedSetRx west 2 b1 b2 b3 chk rt) s fun t =>
        t.ring.sent = [(!west, .oset 2 b1.toNat b2.toNat b3.toNat)] ∧ t.on RING_STATE_HEADLOST = false ∧ FrameE [PG_RING] s t) ∧
    (∀ (s : State) (west : Bool) (b1 b2 b3 chk : BitVec 8) (rt : Nat),
      s.Quiet ∧ s.ringRuns = true ∧ chk.toNat = setCrc 4 b1.toNat b2.toNat b3.toNat ∧ s.injOn PG_RING 2 = false →
      Completes (.orderedSetRx west 4 b1 b2 b3 chk rt) s fun t =>
        t.ring.sent = [(west, .oset 5 (rt / 65536 % 256) (rt / 256 % 256) (rt % 256))] ∧ FrameE [] s t) ∧
    (∀ (s : State) (west : Bool) (o b1 b2 b3 chk : BitVec 8) (rt : Nat),
      s.Quiet ∧ s.ringRuns = true ∧ chk.toNat ≠ setCrc o.toNat b1.toNat b2.toNat b3.toNat →
      Completes (.orderedSetRx west o b1 b2 b3 chk rt) s fun t =>
        t.ring = s.begin.ring ∧ t.fault = s.fault ∧ FrameE [PG_RING] s t) ∧
    (∀ (s : State) (west : Bool) (b1 b2 b3 chk : BitVec 8) (rt : Nat),
      s.Quiet ∧ s.ringRuns = true ∧ chk.toNat = setCrc 3 b1.toNat b2.toNat b3.toNat ∧ s.injOn PG_RING 2 = false ∧ s.portUp west = true →
      Completes (.orderedSetRx west 3 b1 b2 b3 chk rt) s fun t =>
        t.portUp west = false ∧ t.on RING_BRKPOS_VALID = true ∧ t.statusOf PG_RING RING_ST_BREAK = true ∧ FrameE [PG_RING, PG_EVQ] s t) ∧
    (∀ (s : State) (west : Bool) (b1 b2 b3 chk : BitVec 8) (rt : Nat),
      s.Quiet ∧ s.ringRuns = true ∧ chk.toNat = setCrc 5 b1.toNat b2.toNat b3.toNat ∧ s.injOn PG_RING 2 = false ∧
        (s.probe west).out = true ∧ (s.probe west).left = 0 →
      Completes (.orderedSetRx west 5 b1 b2 b3 chk rt) s fun t =>
        (t.probe west).out = false ∧
          t.get (linkDly west) = (clampI 0 65535 (s.get (linkDly west) + roundDiv (roundDiv ((rt : Int) - ((b1.toNat * 65536 + b2.toNat * 256 + b3.toNat : Nat) : Int) + s.getI (if west then RING_ASYM_ASYM_W else RING_ASYM_ASYM_E)) 2 - s.get (linkDly west)) 16)).toNat ∧
          FrameE [PG_RING] s t) ∧
    (∀ (s : State) (west : Bool) (o b1 b2 b3 chk : BitVec 8) (rt : Nat),
      s.Quiet ∧ s.ringRuns = false →
      Completes (.orderedSetRx west o b1 b2 b3 chk rt) s fun t =>
        t.ring = s.begin.ring ∧ FrameE [] s t) ∧
    (∀ (s : State),
      s.ringRuns = true ∧ s.ring.snuffLeft ≠ 0 →
      Completes (.snuffRepeat) s fun t =>
        t.ring.snuffLeft = s.ring.snuffLeft - 1 ∧
          t.ring.sent = [(false, .oset 1 (if s.hasNum then s.devNum / 256 else 2) (if s.hasNum then s.devNum % 256 else 0) s.ring.snuffSeq), (true, .oset 1 (if s.hasNum then s.devNum / 256 else 2) (if s.hasNum then s.devNum % 256 else 0) s.ring.snuffSeq)] ∧
          Frame [] s t) ∧
    (∀ (s : State),
      s.ringRuns = false ∨ s.ring.snuffLeft = 0 →
      Completes (.snuffRepeat) s fun t =>
        t = s.begin) ∧
    (∀ (s : State) (west : Bool),
      s.Quiet ∧ s.portUp west = true →
      Completes (.ringPortDown west) s fun t =>
        t.portUp west = false ∧ t.on RING_BRKPOS_VALID = true ∧
          t.get (if west then RING_BRKPOS_WEST_END else RING_BRKPOS_EAST_END) = (if s.hasNum then s.devNum else 0) ∧
          t.statusOf PG_RING RING_ST_BREAK = true ∧ t.errOf PG_RING RING_ERR_BREAK = true ∧ (s.mayOriginate = true →
          s.ring.txq.length < 8 → t.ring.txq.length = s.ring.txq.length + 1) ∧ FrameE [PG_RING, PG_EVQ] s t) ∧
    (∀ (s : State) (west : Bool),
      s.Quiet ∧ s.portUp west = false →
      Completes (.ringPortDown west) s fun t =>
        t.ring = s.begin.ring ∧ FrameE [] s t) ∧
    (∀ (s : State) (west : Bool),
      s.Quiet ∧ s.ringRuns = true ∧ s.injOn PG_RING 3 = false →
      Completes (.ringPortUp west) s fun t =>
        t.portUp west = true ∧ t.portQuiet west = false ∧ t.portUp (!west) = s.portUp (!west) ∧ t.ring = s.begin.ring ∧
          FrameE [PG_RING] s t) ∧
    (∀ (s : State) (west : Bool),
      s.Quiet ∧ s.ringRuns = false →
      Completes (.ringPortUp west) s fun t =>
        t.ring = s.begin.ring ∧ FrameE [] s t) ∧
    (∀ (s : State) (west : Bool),
      s.ringRuns = true ∧ s.portUp west = false ∧ s.portQuiet west = false →
      Completes (.rfaultRepeat west) s fun t =>
        t.ring.sent = [(west, .oset 3 (if s.hasNum then s.devNum / 256 else 2) (if s.hasNum then s.devNum % 256 else 0) 0)] ∧
          Frame [] s t) ∧
    (∀ (s : State) (west : Bool),
      s.ringRuns = false ∨ s.portUp west = true ∨ s.portQuiet west = true →
      Completes (.rfaultRepeat west) s fun t =>
        t = s.begin) ∧
    (∀ (s : State) (west : Bool),
      s.Quiet ∧ s.ringRuns = true ∧ s.portUp west = false →
      Completes (.ringQuiet west) s fun t =>
        t.portQuiet west = true ∧ t.ring.sent = (if s.portQuiet west then [(west, .burst)] else []) ∧ FrameE [PG_RING] s t) ∧
    (∀ (s : State) (west : Bool),
      s.Quiet ∧ (s.ringRuns = false ∨ s.portUp west = true) →
      Completes (.ringQuiet west) s fun t =>
        t.ring = s.begin.ring ∧ FrameE [] s t) ∧
    (∀ (s : State),
      s.Quiet ∧ s.ringRuns = true ∧ s.portUp false = true ∧ s.portUp true = true →
      Completes (.ringHeal) s fun t =>
        t.on RING_BRKPOS_VALID = false ∧ t.ring.verify = (s.ring.verify || (s.isHead && s.on RING_STATE_ENUM)) ∧
          FrameE [PG_RING, PG_EVQ] s t) ∧
    (∀ (s : State),
      s.Quiet ∧ (s.ringRuns = false ∨ s.portUp false = false ∨ s.portUp true = false) →
      Completes (.ringHeal) s fun t =>
        t.ring = s.begin.ring ∧ FrameE [] s t)

/-- ENUMERATE on the head starts the long operation, which waits while a port is neither up nor quiet and otherwise sends its first step, and a
step without its return is tried again up to three times; probes go out and REMEASURE begins sixteen on each port; the head's PILOT and wake
bursts on quiet ports go out; a member without PILOT reports its loss once; SNUFF goes out on both ports with the next SEQ; a summary waits
for its slot and joins the queue, and the deadline counts the records of other epochs; EPSET waits for the next boundary, in SERVICE on the
head only; a command without its key does nothing. (R466 of spec/21_plant_ring.md, R468 of spec/21_plant_ring.md, R470 of
spec/21_plant_ring.md, R473 of spec/21_plant_ring.md, R474 of spec/21_plant_ring.md, R479 of spec/21_plant_ring.md, R480 of
spec/21_plant_ring.md, R481 of spec/21_plant_ring.md, R482 of spec/21_plant_ring.md.) -/
def Obligations.RingTimeAndCommands : Prop :=
  (∀ (s : State) (m : Master) (key : BitVec 16),
      s.accepts m = true ∧ hostMaster m = true ∧ key = 0x61E5 ∧ s.Calm ∧ s.isHead = true ∧ s.ringRuns = true ∧
        s.blockOn PG_RING = true ∧ s.busy = false ∧ (s.portUp false = false ∧ s.portQuiet false = false ∨ s.portUp true = false ∧
        s.portQuiet true = false) →
      Completes (.ringEnumerate m key) s fun t =>
        t.ring.step = 6 ∧ t.ring.tags = [] ∧ t.ring.unusable = false ∧ t.enumerating = true ∧ t.get RING_STATE_ENUM = 0 ∧
          t.mode = s.mode ∧ MemSame s t) ∧
    (∀ (s : State) (m : Master) (key : BitVec 16),
      s.accepts m = true ∧ hostMaster m = true ∧ key = 0x61E5 ∧ s.Calm ∧ s.isHead = true ∧ s.ringRuns = true ∧
        s.blockOn PG_RING = true ∧ s.busy = false ∧ s.portUp false = true ∧ s.portUp true = true →
      Completes (.ringEnumerate m key) s fun t =>
        t.ring.step = 1 ∧ t.ring.tries = 1 ∧ t.ring.await = 2 ∧ t.ring.east = 1 ∧ t.ring.closed = false ∧ t.enumerating = true ∧
          t.get RING_STATE_ENUM = 0 ∧ t.mode = s.mode ∧ MemSame s t) ∧
    (∀ (s : State) (m : Master) (key : BitVec 16),
      s.accepts m = true ∧ hostMaster m = true ∧ s.Quiet ∧ key = 0x61E5 ∧ s.isHead = false →
      Completes (.ringEnumerate m key) s fun t =>
        t.ring = s.begin.ring ∧ FrameE [PG_DEV, PG_RING] s t) ∧
    (∀ (s : State) (m : Master) (key : BitVec 16),
      s.accepts m = true ∧ hostMaster m = true ∧ s.Quiet ∧ key ≠ 0x61E5 →
      Completes (.ringEnumerate m key) s fun t =>
        t.ring = s.begin.ring ∧ FrameE [PG_DEV, PG_RING] s t) ∧
    (∀ (s : State),
      s.Calm ∧ s.enumerating = true ∧ 1 ≤ s.ring.step ∧ s.ring.step ≤ 5 ∧ s.ring.tries < 3 →
      Completes (.ringEnumStepTimeout) s fun t =>
        t.ring.tries = s.ring.tries + 1 ∧ t.ring.step = s.ring.step ∧ t.ring.await = (s.enumPorts s.ring.step).length ∧
          t.mode = s.mode ∧ MemSame s t) ∧
    (∀ (s : State),
      s.Quiet →
      Completes (.ringEnumStepTimeout) s fun t =>
        t.ring = s.begin.ring ∧ FrameE [] s t) ∧
    (∀ (s : State) (west : Bool),
      s.ringRuns = true ∧ s.portUp west = true →
      Completes (.delayProbe west) s fun t =>
        t.ring.sent = [(west, .oset 4 0 0 (s.probe west).no)] ∧
          t.probe west = { (s.probe west) with no := ((s.probe west).no + 1) % 256, out := true } ∧ t.probe (!west) = s.probe (!west) ∧
          Frame [] s t) ∧
    (∀ (s : State) (west : Bool),
      s.ringRuns = false ∨ s.portUp west = false →
      Completes (.delayProbe west) s fun t =>
        t = s.begin) ∧
    (∀ (s : State) (m : Master) (key : BitVec 16),
      s.accepts m = true ∧ hostMaster m = true ∧ s.Quiet ∧ key = 0x61E5 ∧ s.ringRuns = true ∧ s.portUp false = true ∧
        s.portUp true = true →
      Completes (.ringRemeasure m key) s fun t =>
        t.ring.sent = [(false, .oset 4 0 0 (s.probe false).no), (true, .oset 4 0 0 (s.probe true).no)] ∧ (t.probe false).left = 16 ∧
          (t.probe true).left = 16 ∧ FrameE [PG_DEV, PG_RING, PG_EVQ] s t) ∧
    (∀ (s : State) (m : Master) (key : BitVec 16),
      s.accepts m = true ∧ hostMaster m = true ∧ s.Quiet ∧ key ≠ 0x61E5 →
      Completes (.ringRemeasure m key) s fun t =>
        t.ring = s.begin.ring ∧ FrameE [PG_DEV, PG_RING] s t) ∧
    (∀ (s : State),
      s.isHead = true ∧ s.ringRuns = true →
      Completes (.pilotSend) s fun t =>
        t.ring.sent = [(false, (.oset 2 (s.get RING_PTIME_E_E / 256 % 256) (s.get RING_PTIME_E_E % 256) s.ring.pilots)), (true, (.oset 2 (s.get RING_PTIME_E_E / 256 % 256) (s.get RING_PTIME_E_E % 256) s.ring.pilots))] ∧
          t.ring.pilots = (s.ring.pilots + 1) % 256 ∧ Frame [] s t) ∧
    (∀ (s : State),
      s.isHead = false ∨ s.ringRuns = false →
      Completes (.pilotSend) s fun t =>
        t = s.begin) ∧
    (∀ (s : State),
      s.isHead = false ∧ s.ringRuns = true ∧ s.on RING_STATE_HEADLOST = false →
      Completes (.pilotLoss) s fun t =>
        t.on RING_STATE_HEADLOST = true ∧ t.statusOf PG_RING RING_ST_HEADLOST = true ∧ t.errOf PG_RING RING_ERR_PILOTLOSS = true ∧
          Frame [PG_RING, PG_EVQ] s t) ∧
    (∀ (s : State),
      s.isHead = true ∨ s.ringRuns = false ∨ s.on RING_STATE_HEADLOST = true →
      Completes (.pilotLoss) s fun t =>
        t = s.begin) ∧
    (∀ (s : State) (ws : List Nat),
      s.ring.summary = some ws →
      s.isHead = false ∧ s.mayOriginate = true ∧ s.on RING_CFG_SUMEN = true ∧ s.ring.txq.length < 8 →
      Completes (.summarySend) s fun t =>
        t.ring.summary = none ∧ t.ring.txq = s.ring.txq ++ [⟨s.ownFrame 6 0 0 0 ws, none, none⟩] ∧ Frame [] s t) ∧
    (∀ (s : State),
      s.ring.summary = none ∨ s.isHead = true ∨ s.mayOriginate = false ∨ s.on RING_CFG_SUMEN = false →
      Completes (.summarySend) s fun t =>
        t = s.begin) ∧
    (∀ (s : State),
      s.isHead = true ∧ s.ringRuns = true ∧ s.on RING_STATE_ENUM = true ∧ s.enumerating = false ∧ s.on RING_CFG_SUMEN = true →
      Completes (.summaryDeadline) s fun t =>
        t.statusOf PG_RING RING_ST_SUMDONE = true ∧
          t.get RING_COUNTS_SUMMISS = min 4095 (s.get RING_COUNTS_SUMMISS + ((List.range (s.get RING_STATE_N)).filter fun d => s.load (0x1AD000 + 64 * d + 2) 2 != s.get RING_PTIME_E_E % 65536).length) ∧
          Frame [PG_RING, PG_EVQ] s t) ∧
    (∀ (s : State),
      s.isHead = false ∨ s.ringRuns = false ∨ s.on RING_CFG_SUMEN = false ∨ s.on RING_STATE_ENUM = false ∨ s.enumerating = true →
      Completes (.summaryDeadline) s fun t =>
        t = s.begin) ∧
    (∀ (s : State) (m : Master) (key : BitVec 16),
      s.accepts m = true ∧ hostMaster m = true ∧ s.Quiet ∧ key = 0x61E5 ∧ s.ringRuns = true →
      Completes (.ringSnuffCmd m key) s fun t =>
        t.ring.snuffSeq = (s.ring.snuffSeq + 1) % 256 ∧ t.ring.snuffLeft = 2 ∧
          t.ring.sent = [(false, .oset 1 (if s.hasNum then s.devNum / 256 else 2) (if s.hasNum then s.devNum % 256 else 0) ((s.ring.snuffSeq + 1) % 256)), (true, .oset 1 (if s.hasNum then s.devNum / 256 else 2) (if s.hasNum then s.devNum % 256 else 0) ((s.ring.snuffSeq + 1) % 256))] ∧
          t.statusOf PG_RING RING_ST_SNUFFTX = true ∧ FrameE [PG_DEV, PG_RING, PG_EVQ] s t) ∧
    (∀ (s : State) (m : Master) (key : BitVec 16),
      s.accepts m = true ∧ hostMaster m = true ∧ s.Quiet ∧ key ≠ 0x61E5 →
      Completes (.ringSnuffCmd m key) s fun t =>
        t.ring = s.begin.ring ∧ FrameE [PG_DEV, PG_RING] s t) ∧
    (∀ (s : State) (m : Master) (key : BitVec 16),
      s.accepts m = true ∧ hostMaster m = true ∧ s.Quiet ∧ key = 0x61E5 ∧ s.ringRuns = true ∧ s.portQuiet false = true ∧
        s.portQuiet true = true →
      Completes (.ringWakeBurst m key) s fun t =>
        t.ring.sent = [(false, .burst), (true, .burst)] ∧ FrameE [PG_DEV, PG_RING, PG_EVQ] s t) ∧
    (∀ (s : State) (m : Master) (key : BitVec 16),
      s.accepts m = true ∧ hostMaster m = true ∧ s.Quiet ∧ key ≠ 0x61E5 →
      Completes (.ringWakeBurst m key) s fun t =>
        t.ring = s.begin.ring ∧ FrameE [PG_DEV, PG_RING] s t) ∧
    (∀ (s : State) (m : Master) (key : BitVec 16),
      s.accepts m = true ∧ hostMaster m = true ∧ s.Quiet ∧ key = 0x61E5 ∧ s.isHead = true ∧ s.mode = .service →
      Completes (.epsetLoad m key) s fun t =>
        t.ring = { s.begin.ring with epset := true } ∧ FrameE [PG_DEV, PG_RING, PG_EVQ] s t) ∧
    (∀ (s : State) (m : Master) (key : BitVec 16),
      s.accepts m = true ∧ hostMaster m = true ∧ s.Quiet ∧ key ≠ 0x61E5 →
      Completes (.epsetLoad m key) s fun t =>
        t.ring = s.begin.ring ∧ FrameE [PG_DEV, PG_RING] s t) ∧
    (∀ (s : State) (m : Master) (key : BitVec 16),
      s.accepts m = true ∧ hostMaster m = true ∧ s.Quiet ∧ key = 0x61E5 ∧ (s.isHead = false ∨ s.mode ≠ .service) →
      Completes (.epsetLoad m key) s fun t =>
        t.ring = s.begin.ring ∧ FrameE [PG_DEV, PG_RING] s t)

/-- An access of a master to an address of no region, or with its low bits not 0, completes: a read answers the word 0, DEV.STATUS.UNMAPPED is
set, and no other register, no byte of memory and not the mode changes, but for what setting a status bit records in the event queue's hold
registers. (R30 of spec/02_register_pages.md.) Formalises: "An unmapped access has no effect. A read returns 0x0000_0000 for every word, and
a write is ignored. The access sets DEV.STATUS.UNMAPPED." -/
def Obligations.UnmappedAccessesHaveNoEffect : Prop :=
  (∀ (s : State) (m : Master) (addr : BitVec 24) (v : Word),
      s.accepts m = true ∧ s.Quiet ∧ (region addr.toNat = .none ∨ addr.toNat % 4 ≠ 0) →
      Completes (.unmappedAccess m addr (some v)) s fun t =>
        t.statusOf PG_DEV DEV_ST_UNMAPPED = true ∧ t.dev = s.dev ∧ t.op = s.op ∧
          FrameA [hdrAddr PG_DEV hdrSTATUS, EVQ_HOLD_LOST.addr] s t) ∧
    (∀ (s : State) (m : Master) (addr : BitVec 24),
      s.accepts m = true ∧ s.Quiet ∧ (region addr.toNat = .none ∨ addr.toNat % 4 ≠ 0) →
      Completes (.unmappedAccess m addr none) s fun t =>
        t.answer = [0] ∧ t.statusOf PG_DEV DEV_ST_UNMAPPED = true ∧ t.dev = s.dev ∧ t.op = s.op ∧
          FrameA [hdrAddr PG_DEV hdrSTATUS, EVQ_HOLD_LOST.addr] s t)

/-- After a change of the sources present, with one left that counts, the bias is VIB where that is present and the intermediate bus converter
reports power-good, else the start-up regulator where that is, else VBUS_BIAS; no register but those in which the service port shows what it
follows, no byte of memory and not the mode changes, and no reset begins. (R20 of spec/01_architecture.md.) Formalises: "A change of bias
source causes no reset and no mode change." -/
def Obligations.BiasComesFromTheFirstSource : Prop :=
  (∀ (s : State) (vib startUp vbus : Bool),
      s.Quiet ∧ ((vib && s.railPg 0) || startUp || vbus) = true →
      Completes (.biasSourceChange vib startUp vbus) s fun t =>
        t.dev.bias = (if vib && s.railPg 0 then .vib else if startUp then .startUp else .vbus) ∧ t.dev.held = s.dev.held ∧ FrameE [] s t)

/-- A pulse that the fault collection takes on a source whose bit is set: COUNTS.REPEAT goes up by one to its end value; no reaction is started
or joined, nothing latches, no record waits and the holds, the mode and the memory stay. (R368 of spec/16_fault_collection.md.) Formalises:
"A pulse on a source whose status bit is already set starts no reaction and no record, and counts in FAULT.COUNTS.REPEAT." -/
def Obligations.RepeatedPulsesOnlyCount : Prop :=
  (∀ (s : State) (sources : List (Fin 64)) (p : LinePulse),
      s.guardRuns = true ∧ s.Quiet ∧ s.pulsesOf (sources.map Fin.val) = [p] ∧ s.faultSet p.src = true →
      Completes (.errorLinePulse sources) s fun t =>
        t.get FAULT_COUNTS_REPEAT = satInc 4095 (s.get FAULT_COUNTS_REPEAT) ∧ t.fault = (s.dropPulses [p]).fault ∧
          t.evq.firings.length ≤ s.evq.firings.length + 1 ∧
          FrameA [FAULT_COUNTS_REPEAT.addr, hdrAddr PG_FAULT hdrSTATUS, EVQ_HOLD_LOST.addr] s t)

/-- At a count before the end of the window that runs, each enabled task whose bit is written has its count one higher, at most 15, and every
other count stays; where no count exceeds its maximum that is all; where one does, the watchdog bites with cause EXCESS (4): with ACTION 1
it reports BITE and pulses its line, with ACTION 0 it is a device reset. At or after the end of the window the watchdog has bitten first.
With the watchdog off or no window running no check-in counts. (R390 of spec/17_time_watchdog_cellar.md.) Formalises: "Each check-in
increments task t's count, saturating at 15. Excess is judged at once: when the count exceeds MAX_t, the watchdog bites with cause EXCESS in
that clock." -/
def Obligations.CheckInsCountPerTask : Prop :=
  (∀ (s : State) (m : Master) (mask count : BitVec 16),
      s.accepts m = true ∧ hostMaster m = true ∧ s.Quiet ∧ s.wdog.on = true ∧ s.wdog.window = true ∧ count.toNat < s.wdogClose ∧
        ((List.range 16).any fun k => bitOf (s.get WDOG_TASKEN_EN) k && decide (s.taskMax k < nth ((List.range 16).map fun k => if bitOf mask.toNat k && bitOf (s.get WDOG_TASKEN_EN) k then min 15 (nth s.wdog.checkins k + 1) else nth s.wdog.checkins k) k)) = false →
      Completes (.wdogCheckin m mask count) s fun t =>
        t.wdog = { s.wdog with checkins := ((List.range 16).map fun k => if bitOf mask.toNat k && bitOf (s.get WDOG_TASKEN_EN) k then min 15 (nth s.wdog.checkins k + 1) else nth s.wdog.checkins k), count := count.toNat } ∧
          FrameE [PG_DEV, PG_WDOG] s t) ∧
    (∀ (s : State) (m : Master) (mask count : BitVec 16),
      s.accepts m = true ∧ hostMaster m = true ∧ s.Quiet ∧ s.wdog.on = true ∧ s.wdog.window = true ∧ count.toNat < s.wdogClose ∧
        s.on WDOG_CFG_ACTION = true ∧
        ((List.range 16).any fun k => bitOf (s.get WDOG_TASKEN_EN) k && decide (s.taskMax k < nth ((List.range 16).map fun k => if bitOf mask.toNat k && bitOf (s.get WDOG_TASKEN_EN) k then min 15 (nth s.wdog.checkins k + 1) else nth s.wdog.checkins k) k)) = true →
      Completes (.wdogCheckin m mask count) s fun t =>
        t.get WDOG_BITE1_CAUSE = 4 ∧ t.statusOf PG_WDOG WDOG_ST_BITE = true ∧ 4 ∈ t.lineSrcs ∧ RegsButE [PG_DEV, PG_WDOG, PG_EVQ] s t ∧
          t.mode = s.mode) ∧
    (∀ (s : State) (m : Master) (mask count : BitVec 16),
      s.accepts m = true ∧ hostMaster m = true ∧ s.wdog.on = true ∧ s.wdog.window = true ∧ count.toNat < s.wdogClose ∧
        s.on WDOG_CFG_ACTION = false ∧
        ((List.range 16).any fun k => bitOf (s.get WDOG_TASKEN_EN) k && decide (s.taskMax k < nth ((List.range 16).map fun k => if bitOf mask.toNat k && bitOf (s.get WDOG_TASKEN_EN) k then min 15 (nth s.wdog.checkins k + 1) else nth s.wdog.checkins k) k)) = true →
      Completes (.wdogCheckin m mask count) s fun t =>
        t.mode = .rise ∧ t.get DEV_MODE_CAUSE = 3 ∧ t.get DEV_BOOT_RISECAUSE = 4) ∧
    (∀ (s : State) (m : Master) (mask count : BitVec 16),
      s.accepts m = true ∧ hostMaster m = true ∧ s.Quiet ∧ s.wdog.on = true ∧ s.wdog.window = true ∧ s.wdogClose ≤ count.toNat ∧
        s.on WDOG_CFG_ACTION = true →
      Completes (.wdogCheckin m mask count) s fun t =>
        t.statusOf PG_WDOG WDOG_ST_BITE = true ∧ 4 ∈ t.lineSrcs ∧ t.wdog.first = true ∧ RegsButE [PG_DEV, PG_WDOG, PG_EVQ] s t ∧
          t.mode = s.mode) ∧
    (∀ (s : State) (m : Master) (mask count : BitVec 16),
      s.accepts m = true ∧ hostMaster m = true ∧ s.Quiet ∧ (s.wdog.on = false ∨ s.wdog.window = false) →
      Completes (.wdogCheckin m mask count) s fun t =>
        t.wdog = s.wdog ∧ FrameE [PG_DEV, PG_WDOG] s t)

/-- After a function reset of RING its registers of domain FR read their reset values, no frame waits, no read is in progress, and every master
whose read was in progress finds it complete with TIMEOUT and no word; the number, STATE, STEER and OFFSET and all else that the ring holds
stay. (R483 of spec/21_plant_ring.md.) Formalises: "A function reset of RING (R34) clears its FR registers and discards the transmit queue.
Remote reads in progress complete with TIMEOUT. The device keeps its number, topology, servo and forwarding." -/
def Obligations.RingFunctionReset : Prop :=
  (∀ (s : State) (m : Master) (pg : Fin 1024) (enable : Bool),
      s.accepts m = true ∧ hostMaster m = true ∧ s.Quiet ∧ pg.val = PG_RING →
      Completes (.functionReset m pg enable) s fun t =>
        t.ring.txq = [] ∧ t.ring.reads = [] ∧
          (s.ring.reads.all fun r => !(decide (32 ≤ r.tag) && decide (r.tag < 160)) || ((t.rmtOf (r.tag / 32)).state == 2 && (t.rmtOf (r.tag / 32)).outcome == 3 && (t.rmtOf (r.tag / 32)).words.isEmpty)) = true ∧
          FRCleared PG_RING [hdrAddr PG_RING hdrCTRL] t ∧ t.rd RING_NUM_DEVNUM.addr = s.rd RING_NUM_DEVNUM.addr ∧
          t.rd RING_STATE_TOPO.addr = s.rd RING_STATE_TOPO.addr ∧ t.rd RING_STEER_STEER.addr = s.rd RING_STEER_STEER.addr ∧
          t.rd RING_OFFSET_THETA.addr = s.rd RING_OFFSET_THETA.addr ∧
          t.ring = { s.begin.ring with txq := [], reads := [], rmt := t.ring.rmt } ∧ t.mode = s.mode)

/-- Seen while Rp is presented, an accessory sets STATUS.ACCESSORY and the port stays unattached and sources nothing; seen again in the same
presentation, or with no Rp presented, it sets nothing. (R431 of spec/20_service_port.md.) Formalises: "The port then stays unattached,
sources nothing and sets STATUS.ACCESSORY once per presentation (R36)." -/
def Obligations.AccessoriesAreReportedOnce : Prop :=
  (∀ (s : State),
      s.Steady ∧ (s.portCode = 1 ∨ s.portCode = 3) ∧ s.port.accessory = false →
      Completes (.accessory) s fun t =>
        t.port.accessory = true ∧ t.statusOf PG_TYPEC TYPEC_ST_ACCESSORY = true ∧ (t.portCode ≤ 1 ∨ t.portCode = 3) ∧
          t.port.srcEn = s.port.srcEn ∧ t.port.sent = [] ∧ Frame [PG_TYPEC, PG_PD, PG_SVC, PG_EVQ] s t) ∧
    (∀ (s : State),
      s.Steady ∧ ((s.portCode ≠ 1 ∧ s.portCode ≠ 3) ∨ s.port.accessory = true) →
      Completes (.accessory) s fun t =>
        t.port.accessory = s.port.accessory ∧ t.hdr PG_TYPEC hdrSTATUS = s.hdr PG_TYPEC hdrSTATUS ∧ t.port.sent = [] ∧
          Frame [PG_TYPEC, PG_PD, PG_SVC, PG_EVQ] s t)
end

