-- ==== Sys2Proof/Laws/Sparse.lean ====
section
/-! SUPPORT. The laws of sparse tables: a read after a write to the same key and to another key, and that every operation keeps the canonical
form. -/

namespace Sys2Proof.Machine

variable {α : Type}

/-! ### Reads after writes -/

@[simp] theorem Sparse.look_nil (k : Nat) : Sparse.look ([] : List (Nat × α)) k = none := rfl

theorem Sparse.look_cons (e : Nat × α) (t : List (Nat × α)) (k : Nat) :
    Sparse.look (e :: t) k = if e.1 = k then some e.2 else Sparse.look t k := rfl

@[simp] theorem Sparse.look_ins_same (k : Nat) (v : α) : ∀ l : List (Nat × α), (∀ e ∈ l, e.1 ≠ k) → Sparse.look (Sparse.ins k v l) k = some v
  | [], _ => by simp [Sparse.ins, Sparse.look_cons]
  | e :: t, h => by
    have ih := look_ins_same k v t fun x hx => h x (List.mem_cons_of_mem _ hx)
    have he : e.1 ≠ k := h e List.mem_cons_self
    unfold Sparse.ins
    split
    · simp [Sparse.look_cons]
    · simp [Sparse.look_cons, he, ih]

theorem Sparse.look_ins_other {k j : Nat} (v : α) (hj : k ≠ j) : ∀ l : List (Nat × α), Sparse.look (Sparse.ins k v l) j = Sparse.look l j
  | [] => by simp [Sparse.ins, Sparse.look_cons, hj]
  | e :: t => by
    have ih := look_ins_other v hj t
    unfold Sparse.ins
    split
    · simp [Sparse.look_cons, hj]
    · simp [Sparse.look_cons, ih]

theorem Sparse.look_drop_same (k : Nat) : ∀ l : List (Nat × α), Sparse.look (Sparse.drop l k) k = none
  | [] => rfl
  | e :: t => by
    have ih := look_drop_same k t
    unfold Sparse.drop at ih ⊢
    by_cases he : e.1 = k <;> simp [List.filter_cons, he, ih, Sparse.look_cons]

theorem Sparse.look_drop_other {k j : Nat} (hj : k ≠ j) : ∀ l : List (Nat × α), Sparse.look (Sparse.drop l k) j = Sparse.look l j
  | [] => rfl
  | e :: t => by
    have ih := look_drop_other hj t
    unfold Sparse.drop at ih ⊢
    by_cases he : e.1 = k
    · have : e.1 ≠ j := by omega
      simp [he, ih, Sparse.look_cons, hj]
    · simp [he, ih, Sparse.look_cons]

theorem Sparse.drop_keys (l : List (Nat × α)) (k : Nat) : ∀ e ∈ Sparse.drop l k, e.1 ≠ k := by
  intro e he
  have := (List.mem_filter.1 he).2
  simpa using this

/-! ### Rising keys -/

theorem Sparse.rising_cons (e : Nat × α) (t : List (Nat × α)) :
    Sparse.rising (e :: t) = true ↔ (∀ x ∈ t, e.1 < x.1) ∧ Sparse.rising t = true := by
  induction t generalizing e with
  | nil => simp [Sparse.rising]
  | cons b t ih =>
    have hb := ih b
    have : Sparse.rising (e :: b :: t) = (decide (e.1 < b.1) && Sparse.rising (b :: t)) := rfl
    rw [this, Bool.and_eq_true, decide_eq_true_eq]
    constructor
    · rintro ⟨h1, h2⟩
      refine ⟨fun x hx => ?_, h2⟩
      rcases List.mem_cons.1 hx with rfl | hx
      · exact h1
      · exact Nat.lt_trans h1 ((hb.1 h2).1 x hx)
    · rintro ⟨h1, h2⟩
      exact ⟨h1 b List.mem_cons_self, h2⟩

theorem Sparse.rising_filter (p : Nat × α → Bool) : ∀ l : List (Nat × α), Sparse.rising l = true → Sparse.rising (l.filter p) = true
  | [], h => h
  | e :: t, h => by
    have ⟨h1, h2⟩ := (Sparse.rising_cons e t).1 h
    have ih := rising_filter p t h2
    by_cases he : p e = true
    · rw [List.filter_cons_of_pos he, Sparse.rising_cons]
      exact ⟨fun x hx => h1 x (List.mem_filter.1 hx).1, ih⟩
    · rw [List.filter_cons_of_neg he]
      exact ih

theorem Sparse.mem_ins (k : Nat) (v : α) (x : Nat × α) : ∀ l : List (Nat × α), x ∈ Sparse.ins k v l → x = (k, v) ∨ x ∈ l
  | [], h => by simpa [Sparse.ins] using h
  | e :: t, h => by
    unfold Sparse.ins at h
    split at h
    · rcases List.mem_cons.1 h with h | h
      · exact Or.inl h
      · exact Or.inr h
    · rcases List.mem_cons.1 h with h | h
      · exact Or.inr (h ▸ List.mem_cons_self)
      · rcases mem_ins k v x t h with h | h
        · exact Or.inl h
        · exact Or.inr (List.mem_cons_of_mem _ h)

theorem Sparse.rising_ins (k : Nat) (v : α) : ∀ l : List (Nat × α), (∀ e ∈ l, e.1 ≠ k) → Sparse.rising l = true →
    Sparse.rising (Sparse.ins k v l) = true
  | [], _, _ => rfl
  | e :: t, hk, h => by
    have ⟨h1, h2⟩ := (Sparse.rising_cons e t).1 h
    have ih := rising_ins k v t (fun x hx => hk x (List.mem_cons_of_mem _ hx)) h2
    have he : e.1 ≠ k := hk e List.mem_cons_self
    unfold Sparse.ins
    split
    · next hlt =>
      rw [Sparse.rising_cons]
      refine ⟨fun x hx => ?_, h⟩
      rcases List.mem_cons.1 hx with rfl | hx
      · exact hlt
      · exact Nat.lt_trans hlt (h1 x hx)
    · next hlt =>
      rw [Sparse.rising_cons]
      refine ⟨fun x hx => ?_, ih⟩
      rcases Sparse.mem_ins k v x t hx with rfl | hx
      · simp only at hlt ⊢
        omega
      · exact h1 x hx

variable [DecidableEq α]

/-- A read after a write to the same key gives the value written. -/
@[simp] theorem Sparse.get_put_same (d : Nat → α) (l : List (Nat × α)) (k : Nat) (v : α) : Sparse.get d (Sparse.put d l k v) k = v := by
  unfold Sparse.get Sparse.put
  split
  · next h => simp [Sparse.look_drop_same, h]
  · simp [Sparse.look_ins_same k v _ (Sparse.drop_keys l k)]

/-- A write leaves every other key alone. -/
theorem Sparse.get_put_other (d : Nat → α) (l : List (Nat × α)) {k j : Nat} (v : α) (h : k ≠ j) :
    Sparse.get d (Sparse.put d l k v) j = Sparse.get d l j := by
  unfold Sparse.get Sparse.put
  split
  · rw [Sparse.look_drop_other h]
  · rw [Sparse.look_ins_other v h, Sparse.look_drop_other h]

/-! ### The canonical form -/

/-- Leaving entries out keeps the canonical form. -/
theorem Sparse.wf_filter (d : Nat → α) (p : Nat × α → Bool) {l : List (Nat × α)} (h : Sparse.wf d l = true) : Sparse.wf d (l.filter p) = true := by
  unfold Sparse.wf at h ⊢
  rw [Bool.and_eq_true, List.all_eq_true] at h ⊢
  exact ⟨Sparse.rising_filter p l h.1, fun x hx => h.2 x (List.mem_filter.1 hx).1⟩

/-- Every write keeps the canonical form. -/
theorem Sparse.wf_put (d : Nat → α) {l : List (Nat × α)} (k : Nat) (v : α) (h : Sparse.wf d l = true) :
    Sparse.wf d (Sparse.put d l k v) = true := by
  have hd : Sparse.wf d (Sparse.drop l k) = true := Sparse.wf_filter d _ h
  unfold Sparse.put
  split
  · exact hd
  · next hv =>
    unfold Sparse.wf at hd ⊢
    rw [Bool.and_eq_true, List.all_eq_true] at hd ⊢
    refine ⟨Sparse.rising_ins k v _ (Sparse.drop_keys l k) hd.1, fun x hx => ?_⟩
    rcases Sparse.mem_ins k v x _ hx with rfl | hx
    · simpa using hv
    · exact hd.2 x hx

/-- An empty table is canonical. -/
@[simp] theorem Sparse.wf_nil (d : Nat → α) : Sparse.wf d ([] : List (Nat × α)) = true := rfl

/-- A table followed by one whose keys are all greater. -/
theorem Sparse.wf_append (d : Nat → α) : ∀ (l : List (Nat × α)) {r : List (Nat × α)}, Sparse.wf d l = true → Sparse.wf d r = true →
    (∀ x ∈ l, ∀ y ∈ r, x.1 < y.1) → Sparse.wf d (l ++ r) = true
  | [], _, _, hr, _ => hr
  | e :: t, r, hl, hr, hlt => by
    unfold Sparse.wf at hl
    rw [Bool.and_eq_true, List.all_cons, Bool.and_eq_true] at hl
    have ⟨h1, h2⟩ := (Sparse.rising_cons e t).1 hl.1
    have ht : Sparse.wf d t = true := by
      unfold Sparse.wf
      rw [Bool.and_eq_true]
      exact ⟨h2, hl.2.2⟩
    have ih := wf_append d t ht hr fun x hx y hy => hlt x (List.mem_cons_of_mem _ hx) y hy
    unfold Sparse.wf at ih ⊢
    rw [Bool.and_eq_true] at ih ⊢
    refine ⟨?_, ?_⟩
    · rw [List.cons_append, Sparse.rising_cons]
      refine ⟨fun x hx => ?_, ih.1⟩
      rcases List.mem_append.1 hx with hx | hx
      · exact h1 x hx
      · exact hlt e List.mem_cons_self x hx
    · rw [List.cons_append, List.all_cons, Bool.and_eq_true]
      exact ⟨hl.2.1, ih.2⟩

end Sys2Proof.Machine
end

