-- ==== Sys2Proof/Laws/Parts.lean ====
section
/-! SUPPORT. The parts of the state, and what it is for a property of states to be kept by every change of some parts: the lemmas
of Laws/Stable*.lean say of each operation of the model which parts it may change, once, and every frame and every invariant is an
instance of them. -/

namespace Sys2Proof.Machine

/-- The parts of the state a command may change; the queue is none of them. -/
inductive Part where
  | regs
  | mem
  | mode
  | fresh
  | answer
  | dev
  | evq
  | fault
  | lamp
  | cellar
  | wdog
  | op
  | pwm
  | adc
  | cmp
  | link
  | est
  | bal
  | hb
  | inp
  | pack
  | feed
  | feedL
  | rail
  | seq
  | svc
  | therm
  | port
  | ring
  | bus
deriving DecidableEq, Repr

/-- Every part. -/
def Part.all : List Part :=
  [.regs, .mem, .mode, .fresh, .answer, .dev, .evq, .fault, .lamp, .cellar, .wdog, .op, .pwm, .adc, .cmp, .link, .est, .bal, .hb, .inp, .pack, .feed, .feedL, .rail, .seq, .svc, .therm, .port, .ring, .bus]

/-- A property that stands whatever becomes of one part; of the register and memory tables, whatever canonical table takes the place of
a canonical one. -/
def Part.Free (P : State → Prop) : Part → Prop
  | .regs => ∀ s l, (Sparse.wf regReset s.regs = true → Sparse.wf regReset l = true) → P s → P { s with regs := l }
  | .mem => ∀ s l, (Sparse.wf shippedByte s.mem = true → Sparse.wf shippedByte l = true) → P s → P { s with mem := l }
  | .mode => ∀ s x, P s → P { s with mode := x }
  | .fresh => ∀ s x, P s → P { s with fresh := x }
  | .answer => ∀ s x, P s → P { s with answer := x }
  | .dev => ∀ s x, P s → P { s with dev := x }
  | .evq => ∀ s x, P s → P { s with evq := x }
  | .fault => ∀ s x, P s → P { s with fault := x }
  | .lamp => ∀ s x, P s → P { s with lamp := x }
  | .cellar => ∀ s x, P s → P { s with cellar := x }
  | .wdog => ∀ s x, P s → P { s with wdog := x }
  | .op => ∀ s x, P s → P { s with op := x }
  | .pwm => ∀ s x, P s → P { s with pwm := x }
  | .adc => ∀ s x, P s → P { s with adc := x }
  | .cmp => ∀ s x, P s → P { s with cmp := x }
  | .link => ∀ s x, P s → P { s with link := x }
  | .est => ∀ s x, P s → P { s with est := x }
  | .bal => ∀ s x, P s → P { s with bal := x }
  | .hb => ∀ s x, P s → P { s with hb := x }
  | .inp => ∀ s x, P s → P { s with inp := x }
  | .pack => ∀ s x, P s → P { s with pack := x }
  | .feed => ∀ s x, P s → P { s with feed := x }
  | .feedL => ∀ s x, P s → P { s with feedL := x }
  | .rail => ∀ s x, P s → P { s with rail := x }
  | .seq => ∀ s x, P s → P { s with seq := x }
  | .svc => ∀ s x, P s → P { s with svc := x }
  | .therm => ∀ s x, P s → P { s with therm := x }
  | .port => ∀ s x, P s → P { s with port := x }
  | .ring => ∀ s x, P s → P { s with ring := x }
  | .bus => ∀ s x, P s → P { s with bus := x }

/-- A property that stands whatever becomes of the parts `A`. -/
def Free (P : State → Prop) (A : List Part) : Prop := ∀ p ∈ A, p.Free P

theorem Free.mono {P : State → Prop} {A B : List Part} (h : Free P A) (hb : (B.all fun p => A.contains p) = true) : Free P B := by
  intro p hp
  exact h p (by simpa using List.all_eq_true.1 hb p hp)

section
variable {P : State → Prop} {A : List Part} {s : State}

theorem Free.regs (h : Free P A) (ha : A.contains .regs = true) (l : List (Nat × BitVec 32))
    (hl : Sparse.wf regReset s.regs = true → Sparse.wf regReset l = true) (hs : P s) : P { s with regs := l } :=
  h .regs (by simpa using ha) s l hl hs

theorem Free.mem (h : Free P A) (ha : A.contains .mem = true) (l : List Host.Cell)
    (hl : Sparse.wf shippedByte s.mem = true → Sparse.wf shippedByte l = true) (hs : P s) : P { s with mem := l } :=
  h .mem (by simpa using ha) s l hl hs

theorem Free.mode (h : Free P A) (ha : A.contains .mode = true) (x) (hs : P s) : P { s with mode := x } :=
  h .mode (by simpa using ha) s x hs

theorem Free.fresh (h : Free P A) (ha : A.contains .fresh = true) (x) (hs : P s) : P { s with fresh := x } :=
  h .fresh (by simpa using ha) s x hs

theorem Free.answer (h : Free P A) (ha : A.contains .answer = true) (x) (hs : P s) : P { s with answer := x } :=
  h .answer (by simpa using ha) s x hs

theorem Free.dev (h : Free P A) (ha : A.contains .dev = true) (x) (hs : P s) : P { s with dev := x } :=
  h .dev (by simpa using ha) s x hs

theorem Free.evq (h : Free P A) (ha : A.contains .evq = true) (x) (hs : P s) : P { s with evq := x } :=
  h .evq (by simpa using ha) s x hs

theorem Free.fault (h : Free P A) (ha : A.contains .fault = true) (x) (hs : P s) : P { s with fault := x } :=
  h .fault (by simpa using ha) s x hs

theorem Free.lamp (h : Free P A) (ha : A.contains .lamp = true) (x) (hs : P s) : P { s with lamp := x } :=
  h .lamp (by simpa using ha) s x hs

theorem Free.cellar (h : Free P A) (ha : A.contains .cellar = true) (x) (hs : P s) : P { s with cellar := x } :=
  h .cellar (by simpa using ha) s x hs

theorem Free.wdog (h : Free P A) (ha : A.contains .wdog = true) (x) (hs : P s) : P { s with wdog := x } :=
  h .wdog (by simpa using ha) s x hs

theorem Free.op (h : Free P A) (ha : A.contains .op = true) (x) (hs : P s) : P { s with op := x } :=
  h .op (by simpa using ha) s x hs

theorem Free.pwm (h : Free P A) (ha : A.contains .pwm = true) (x) (hs : P s) : P { s with pwm := x } :=
  h .pwm (by simpa using ha) s x hs

theorem Free.adc (h : Free P A) (ha : A.contains .adc = true) (x) (hs : P s) : P { s with adc := x } :=
  h .adc (by simpa using ha) s x hs

theorem Free.cmp (h : Free P A) (ha : A.contains .cmp = true) (x) (hs : P s) : P { s with cmp := x } :=
  h .cmp (by simpa using ha) s x hs

theorem Free.link (h : Free P A) (ha : A.contains .link = true) (x) (hs : P s) : P { s with link := x } :=
  h .link (by simpa using ha) s x hs

theorem Free.est (h : Free P A) (ha : A.contains .est = true) (x) (hs : P s) : P { s with est := x } :=
  h .est (by simpa using ha) s x hs

theorem Free.bal (h : Free P A) (ha : A.contains .bal = true) (x) (hs : P s) : P { s with bal := x } :=
  h .bal (by simpa using ha) s x hs

theorem Free.hb (h : Free P A) (ha : A.contains .hb = true) (x) (hs : P s) : P { s with hb := x } :=
  h .hb (by simpa using ha) s x hs

theorem Free.inp (h : Free P A) (ha : A.contains .inp = true) (x) (hs : P s) : P { s with inp := x } :=
  h .inp (by simpa using ha) s x hs

theorem Free.pack (h : Free P A) (ha : A.contains .pack = true) (x) (hs : P s) : P { s with pack := x } :=
  h .pack (by simpa using ha) s x hs

theorem Free.feed (h : Free P A) (ha : A.contains .feed = true) (x) (hs : P s) : P { s with feed := x } :=
  h .feed (by simpa using ha) s x hs

theorem Free.feedL (h : Free P A) (ha : A.contains .feedL = true) (x) (hs : P s) : P { s with feedL := x } :=
  h .feedL (by simpa using ha) s x hs

theorem Free.rail (h : Free P A) (ha : A.contains .rail = true) (x) (hs : P s) : P { s with rail := x } :=
  h .rail (by simpa using ha) s x hs

theorem Free.seq (h : Free P A) (ha : A.contains .seq = true) (x) (hs : P s) : P { s with seq := x } :=
  h .seq (by simpa using ha) s x hs

theorem Free.svc (h : Free P A) (ha : A.contains .svc = true) (x) (hs : P s) : P { s with svc := x } :=
  h .svc (by simpa using ha) s x hs

theorem Free.therm (h : Free P A) (ha : A.contains .therm = true) (x) (hs : P s) : P { s with therm := x } :=
  h .therm (by simpa using ha) s x hs

theorem Free.port (h : Free P A) (ha : A.contains .port = true) (x) (hs : P s) : P { s with port := x } :=
  h .port (by simpa using ha) s x hs

theorem Free.ring (h : Free P A) (ha : A.contains .ring = true) (x) (hs : P s) : P { s with ring := x } :=
  h .ring (by simpa using ha) s x hs

theorem Free.bus (h : Free P A) (ha : A.contains .bus = true) (x) (hs : P s) : P { s with bus := x } :=
  h .bus (by simpa using ha) s x hs

theorem Free.dev_cellar (h : Free P A) (hx : A.contains .dev = true) (hy : A.contains .cellar = true) (x) (y) (hs : P s) :
    P { s with dev := x, cellar := y } := h.dev hx x (h.cellar hy y hs)

theorem Free.mode_lamp (h : Free P A) (hx : A.contains .mode = true) (hy : A.contains .lamp = true) (x) (y) (hs : P s) :
    P { s with mode := x, lamp := y } := h.mode hx x (h.lamp hy y hs)

theorem Free.dev_bus (h : Free P A) (hx : A.contains .dev = true) (hy : A.contains .bus = true) (x) (y) (hs : P s) :
    P { s with dev := x, bus := y } := h.dev hx x (h.bus hy y hs)

theorem Free.answer_bus (h : Free P A) (hx : A.contains .answer = true) (hy : A.contains .bus = true) (x) (y) (hs : P s) :
    P { s with answer := x, bus := y } := h.answer hx x (h.bus hy y hs)

theorem Free.dev_est (h : Free P A) (hx : A.contains .dev = true) (hy : A.contains .est = true) (x) (y) (hs : P s) :
    P { s with dev := x, est := y } := h.dev hx x (h.est hy y hs)

theorem Free.port_ring (h : Free P A) (hx : A.contains .port = true) (hy : A.contains .ring = true) (x) (y) (hs : P s) :
    P { s with port := x, ring := y } := h.port hx x (h.ring hy y hs)

theorem Free.hb_inp (h : Free P A) (hx : A.contains .hb = true) (hy : A.contains .inp = true) (x) (y) (hs : P s) :
    P { s with hb := x, inp := y } := h.hb hx x (h.inp hy y hs)

theorem Free.lamp_ring (h : Free P A) (hx : A.contains .lamp = true) (hy : A.contains .ring = true) (x) (y) (hs : P s) :
    P { s with lamp := x, ring := y } := h.lamp hx x (h.ring hy y hs)

/-- A property that stands whatever becomes of any part stands of every state with the same queue whose tables are canonical where
they were. -/
theorem Free.all (h : Free P Part.all) (t : State) (hp : t.pending = s.pending)
    (hr : Sparse.wf regReset s.regs = true → Sparse.wf regReset t.regs = true)
    (hm : Sparse.wf shippedByte s.mem = true → Sparse.wf shippedByte t.mem = true) (hs : P s) : P t := by
  obtain ⟨pending, regs, mem, mode, fresh, answer, dev, evq, fault, lamp, cellar, wdog, op, pwm, adc, cmp, link, est, bal, hb, inp, pack, feed, feedL, rail, seq, svc, therm, port, ring, bus⟩ := t
  cases hp
  have k0 : P { s with regs := regs } := h.regs (by decide) _ hr hs
  have k1 : P { s with regs := regs, mem := mem } := @Free.mem P _ { s with regs := regs } h (by decide) mem hm k0
  have k2 := h.mode (by decide) mode k1
  have k3 := h.fresh (by decide) fresh k2
  have k4 := h.answer (by decide) answer k3
  have k5 := h.dev (by decide) dev k4
  have k6 := h.evq (by decide) evq k5
  have k7 := h.fault (by decide) fault k6
  have k8 := h.lamp (by decide) lamp k7
  have k9 := h.cellar (by decide) cellar k8
  have k10 := h.wdog (by decide) wdog k9
  have k11 := h.op (by decide) op k10
  have k12 := h.pwm (by decide) pwm k11
  have k13 := h.adc (by decide) adc k12
  have k14 := h.cmp (by decide) cmp k13
  have k15 := h.link (by decide) link k14
  have k16 := h.est (by decide) est k15
  have k17 := h.bal (by decide) bal k16
  have k18 := h.hb (by decide) hb k17
  have k19 := h.inp (by decide) inp k18
  have k20 := h.pack (by decide) pack k19
  have k21 := h.feed (by decide) feed k20
  have k22 := h.feedL (by decide) feedL k21
  have k23 := h.rail (by decide) rail k22
  have k24 := h.seq (by decide) seq k23
  have k25 := h.svc (by decide) svc k24
  have k26 := h.therm (by decide) therm k25
  have k27 := h.port (by decide) port k26
  have k28 := h.ring (by decide) ring k27
  have k29 := h.bus (by decide) bus k28
  exact k29

/-- A property kept on both branches. -/
theorem Free.ite {c : Prop} [Decidable c] {t u : State} (ht : c → P t) (hu : ¬c → P u) : P (if c then t else u) := by
  split
  · next hc => exact ht hc
  · next hc => exact hu hc

/-- A property kept by every element of a list. -/
theorem Free.foldl {α : Type} {f : State → α → State} (l : List α) (hf : ∀ t a, P t → P (f t a)) (hs : P s) : P (l.foldl f s) := by
  induction l generalizing s with
  | nil => exact hs
  | cons a l ih => exact ih (hf s a hs)

/-- A property kept by every element of a list, a value carried beside the state. -/
theorem Free.foldl_fst {α β : Type} {f : State × β → α → State × β} (l : List α) {x : State × β} (hf : ∀ t a, P t.1 → P (f t a).1)
    (hx : P x.1) : P (l.foldl f x).1 := by
  induction l generalizing x with
  | nil => exact hx
  | cons a l ih => exact ih (hf x a hx)

/-- A property kept by every element of a list, the state beside a value. -/
theorem Free.foldl_snd {α β : Type} {f : β × State → α → β × State} (l : List α) {x : β × State} (hf : ∀ t a, P t.2 → P (f t a).2)
    (hx : P x.2) : P (l.foldl f x).2 := by
  induction l generalizing x with
  | nil => exact hx
  | cons a l ih => exact ih (hf x a hx)

end

end Sys2Proof.Machine
end

