-- ==== Sys2Proof/Laws/StableOps.lean ====
section
/-! SUPPORT. Which parts of the state the operations of Machine/Ops.lean may change: a property that stands whatever becomes of those
parts stands after the operation. -/

namespace Sys2Proof.Machine

theorem State.wr_free {P : State → Prop} (h : Free P [.regs]) {s : State} (hs : P s) (a : Nat) (v : Word) :
    P (s.wr a v) := h.regs (by decide) _ (fun hw => Sparse.wf_put _ _ _ hw) hs

theorem State.put_free {P : State → Prop} (h : Free P [.regs]) {s : State} (hs : P s) (f : Fld) (v : Nat) :
    P (s.put f v) := by
  unfold State.put
  repeat' first
    | (with_reducible assumption)
    | (with_reducible apply State.wr_free h)

theorem State.putByte_free {P : State → Prop} (h : Free P [.mem]) {s : State} (hs : P s) (a : Nat) (b : Byte) :
    P (s.putByte a b) := h.mem (by decide) _ (fun hw => Sparse.wf_put _ _ _ hw) hs

theorem State.store_free {P : State → Prop} (h : Free P [.mem]) {s : State} (hs : P s) (a : Nat) (x2 : Nat) (x3 : Nat) :
    P (s.store a x2 x3) := by
  induction x2 generalizing s a x3 with
  | zero => exact hs
  | succ n ih => exact ih (State.putByte_free h hs a _) (a + 1) (x3 / 256)

theorem State.storeI_free {P : State → Prop} (h : Free P [.mem]) {s : State} (hs : P s) (a : Nat) (n : Nat) (v : Int) :
    P (s.storeI a n v) := by
  unfold State.storeI
  repeat' first
    | (with_reducible assumption)
    | (with_reducible apply State.store_free h)

theorem State.putBytes_free {P : State → Prop} (h : Free P [.mem]) {s : State} (hs : P s) (a : Nat) (x2 : List Byte) :
    P (s.putBytes a x2) := by
  induction x2 generalizing s a with
  | nil => exact hs
  | cons b t ih => exact ih (State.putByte_free h hs a b) (a + 1)

theorem State.zeroRange_free {P : State → Prop} (h : Free P [.mem]) {s : State} (hs : P s) (a : Nat) (n : Nat) :
    P (s.zeroRange a n) := by
  unfold State.zeroRange
  repeat' first
    | (with_reducible assumption)
    | (with_reducible apply State.putBytes_free h)

theorem State.putI_free {P : State → Prop} (h : Free P [.regs]) {s : State} (hs : P s) (f : Fld) (v : Int) :
    P (s.putI f v) := by
  unfold State.putI
  repeat' first
    | (with_reducible assumption)
    | (with_reducible apply State.put_free h)

theorem State.copyRange_free {P : State → Prop} (h : Free P [.mem]) {s : State} (hs : P s) (src : Nat) (dst : Nat) (n : Nat) :
    P (s.copyRange src dst n) := by
  unfold State.copyRange
  repeat' first
    | (with_reducible assumption)
    | (with_reducible apply State.putBytes_free h)

end Sys2Proof.Machine
end

