-- ==== Sys2Proof/Laws/StableFlags.lean ====
section
/-! SUPPORT. Which parts of the state the operations of Machine/Flags.lean may change: a property that stands whatever becomes of those
parts stands after the operation. -/

namespace Sys2Proof.Machine

theorem State.longStart_free {P : State → Prop} (h : Free P [.regs]) {s : State} (hs : P s) (code : Nat) :
    P (s.longStart code) := by
  unfold State.longStart
  repeat' first
    | (with_reducible assumption)
    | (with_reducible apply State.put_free h)

theorem State.pulse_free {P : State → Prop} (h : Free P [.fault]) {s : State} (hs : P s) (p : LinePulse) :
    P (s.pulse p) := by
  unfold State.pulse
  extract_lets
  repeat' first
    | (with_reducible assumption)
    | (with_reducible refine (h.fault (by decide) _ ?_))

theorem State.errI_free {P : State → Prop} (h : Free P [.regs, .fault]) {s : State} (hs : P s) (pg : Nat) (k : Nat) (inj : Bool) :
    P (s.errI pg k inj) := by
  have h1 := h.mono (B := [.fault]) (by decide)
  have h2 := h.mono (B := [.regs]) (by decide)
  unfold State.errI
  repeat' first
    | (with_reducible assumption)
    | (with_reducible apply State.pulse_free h1)
    | (with_reducible apply State.wr_free h2)
    | (with_reducible refine Free.ite (fun _ => ?_) (fun _ => ?_))

theorem State.err_free {P : State → Prop} (h : Free P [.regs, .fault]) {s : State} (hs : P s) (pg : Nat) (k : Nat) :
    P (s.err pg k) := by
  unfold State.err
  repeat' first
    | (with_reducible assumption)
    | (with_reducible apply State.errI_free h)

theorem State.fire_free {P : State → Prop} (h : Free P [.regs, .evq]) {s : State} (hs : P s) (f : Firing) :
    P (s.fire f) := by
  have h1 := h.mono (B := [.regs]) (by decide)
  unfold State.fire
  extract_lets
  repeat' first
    | (with_reducible assumption)
    | (with_reducible apply State.put_free h1)
    | (with_reducible refine Free.ite (fun _ => ?_) (fun _ => ?_))
    | split
    | (with_reducible refine (h.evq (by decide) _ ?_))

theorem State.fireStatus_free {P : State → Prop} (h : Free P [.regs, .evq]) {s : State} (hs : P s) (pg : Nat) (k : Nat) :
    P (s.fireStatus pg k) := by
  unfold State.fireStatus
  repeat' first
    | (with_reducible assumption)
    | (with_reducible apply State.fire_free h)
    | (with_reducible refine Free.ite (fun _ => ?_) (fun _ => ?_))
    | split

theorem State.raise_free {P : State → Prop} (h : Free P [.regs, .evq]) {s : State} (hs : P s) (pg : Nat) (k : Nat) :
    P (s.raise pg k) := by
  have h1 := h.mono (B := [.regs]) (by decide)
  unfold State.raise
  repeat' first
    | (with_reducible assumption)
    | (with_reducible apply State.fireStatus_free h)
    | (with_reducible apply State.wr_free h1)

theorem State.raiseIf_free {P : State → Prop} (h : Free P [.regs, .evq]) {s : State} (hs : P s) (b : Bool) (pg : Nat) (k : Nat) :
    P (s.raiseIf b pg k) := by
  unfold State.raiseIf
  repeat' first
    | (with_reducible assumption)
    | (with_reducible apply State.raise_free h)
    | (with_reducible refine Free.ite (fun _ => ?_) (fun _ => ?_))

theorem State.level_free {P : State → Prop} (h : Free P [.regs, .evq]) {s : State} (hs : P s) (pg : Nat) (k : Nat) (b : Bool) :
    P (s.level pg k b) := by
  have h1 := h.mono (B := [.regs]) (by decide)
  unfold State.level
  extract_lets
  repeat' first
    | (with_reducible assumption)
    | (with_reducible apply State.raise_free h)
    | (with_reducible apply State.wr_free h1)
    | (with_reducible refine Free.ite (fun _ => ?_) (fun _ => ?_))

theorem State.noteWrite_free {P : State → Prop} (h : Free P [.regs]) {s : State} (hs : P s) (m : Master) (pg : Nat) :
    P (s.noteWrite m pg) := by
  unfold State.noteWrite
  extract_lets
  repeat' first
    | (with_reducible assumption)
    | (with_reducible apply State.put_free h)
    | (with_reducible apply State.wr_free h)

theorem State.injTake_free {P : State → Prop} (h : Free P [.regs]) {s : State} (hs : P s) (pg : Nat) (code : Nat) :
    P (s.injTake pg code) := by
  unfold State.injTake
  repeat' first
    | (with_reducible assumption)
    | (with_reducible apply State.wr_free h)
    | (with_reducible refine Free.ite (fun _ => ?_) (fun _ => ?_))

theorem State.tickFresh_free {P : State → Prop} (h : Free P [.fresh]) {s : State} (hs : P s) :
    P (s.tickFresh) := by
  unfold State.tickFresh
  repeat' first
    | (with_reducible assumption)
    | (with_reducible refine (h.fresh (by decide) _ ?_))

theorem State.longEnd_free {P : State → Prop} (h : Free P [.regs, .evq]) {s : State} (hs : P s) (result : Nat) :
    P (s.longEnd result) := by
  have h1 := h.mono (B := [.regs]) (by decide)
  unfold State.longEnd
  repeat' first
    | (with_reducible assumption)
    | (with_reducible apply State.put_free h1)
    | (with_reducible apply State.raise_free h)
    | (with_reducible refine Free.ite (fun _ => ?_) (fun _ => ?_))

theorem State.errW1C_free {P : State → Prop} (h : Free P [.regs]) {s : State} (hs : P s) (pg : Nat) (clr : Word) :
    P (s.errW1C pg clr) := by
  unfold State.errW1C
  extract_lets
  repeat' first
    | (with_reducible assumption)
    | (with_reducible apply State.put_free h)
    | (with_reducible apply State.wr_free h)
    | (with_reducible refine Free.ite (fun _ => ?_) (fun _ => ?_))

theorem State.injWrite_free {P : State → Prop} (h : Free P [.regs]) {s : State} (hs : P s) (pg : Nat) (v : Nat) :
    P (s.injWrite pg v) := by
  unfold State.injWrite
  repeat' first
    | (with_reducible assumption)
    | (with_reducible apply State.wr_free h)

theorem State.statusW1C_free {P : State → Prop} (h : Free P [.regs, .evq]) {s : State} (hs : P s) (pg : Nat) (clr : Word) (sets : Word) :
    P (s.statusW1C pg clr sets) := by
  have h1 := h.mono (B := [.regs]) (by decide)
  unfold State.statusW1C
  extract_lets
  repeat' first
    | (with_reducible assumption)
    | (with_reducible apply State.fireStatus_free h)
    | (with_reducible apply State.wr_free h1)
    | (with_reducible refine Free.ite (fun _ => ?_) (fun _ => ?_))
    | (with_reducible refine Free.foldl _ (fun _ _ _ => ?_) ?_)

theorem State.reply_free {P : State → Prop} (h : Free P [.answer]) {s : State} (hs : P s) (ws : List Nat) :
    P (s.reply ws) := by
  unfold State.reply
  repeat' first
    | (with_reducible assumption)
    | (with_reducible refine (h.answer (by decide) _ ?_))

theorem State.schedPut_free {P : State → Prop} (h : Free P [.regs]) {s : State} (hs : P s) (f : Fld) (v : Nat) :
    P (s.schedPut f v) := by
  unfold State.schedPut
  repeat' first
    | (with_reducible assumption)
    | (with_reducible apply State.noteWrite_free h)
    | (with_reducible apply State.put_free h)
    | (with_reducible refine Free.ite (fun _ => ?_) (fun _ => ?_))

end Sys2Proof.Machine
end

