-- ==== Sys2Proof/Laws/StableAdc.lean ====
section
/-! SUPPORT. Which parts of the state the operations of Machine/Adc.lean may change: a property that stands whatever becomes of those
parts stands after the operation. -/

namespace Sys2Proof.Machine

theorem State.setBank_free {P : State → Prop} (h : Free P [.adc]) {s : State} (hs : P s) (b : Fin 4) (x : AdcS) :
    P (s.setBank b x) := by
  unfold State.setBank
  repeat' first
    | (with_reducible assumption)
    | (with_reducible refine (h.adc (by decide) _ ?_))

theorem State.setFifo_free {P : State → Prop} (h : Free P [.regs, .evq, .adc]) {s : State} (hs : P s) (b : Fin 4) (q : List Nat) :
    P (s.setFifo b q) := by
  have h1 := h.mono (B := [.regs, .evq]) (by decide)
  have h2 := h.mono (B := [.regs]) (by decide)
  have h3 := h.mono (B := [.adc]) (by decide)
  unfold State.setFifo
  extract_lets
  repeat' first
    | (with_reducible assumption)
    | (with_reducible apply State.level_free h1)
    | (with_reducible apply State.put_free h2)
    | (with_reducible apply State.setBank_free h3)

theorem State.fifoPop_free {P : State → Prop} (h : Free P [.regs, .evq, .adc]) {s : State} (hs : P s) (b : Fin 4) :
    P (s.fifoPop b).2 := by
  unfold State.fifoPop
  repeat' first
    | (with_reducible assumption)
    | (with_reducible apply State.setFifo_free h)
    | split

theorem State.startTable_free {P : State → Prop} (h : Free P [.regs, .evq, .adc]) {s : State} (hs : P s) (b : Fin 4) (t : Nat) :
    P (s.startTable b t) := by
  have h1 := h.mono (B := [.regs]) (by decide)
  have h2 := h.mono (B := [.regs, .evq]) (by decide)
  have h3 := h.mono (B := [.adc]) (by decide)
  unfold State.startTable
  extract_lets
  repeat' first
    | (with_reducible assumption)
    | (with_reducible apply State.put_free h1)
    | (with_reducible apply State.raise_free h2)
    | (with_reducible apply State.setBank_free h3)
    | (with_reducible refine Free.ite (fun _ => ?_) (fun _ => ?_))

theorem State.swTrig_free {P : State → Prop} (h : Free P [.regs, .evq, .adc]) {s : State} (hs : P s) (b : Fin 4) (v : Nat) :
    P (s.swTrig b v) := by
  have h1 := h.mono (B := [.regs, .evq]) (by decide)
  unfold State.swTrig
  repeat' first
    | (with_reducible assumption)
    | (with_reducible apply State.raise_free h1)
    | (with_reducible apply State.startTable_free h)
    | (with_reducible refine Free.ite (fun _ => ?_) (fun _ => ?_))

theorem State.calBegin_free {P : State → Prop} (h : Free P [.regs]) {s : State} (hs : P s) (b : Fin 4) (x : Nat) :
    P (s.calBegin b x) := by
  unfold State.calBegin
  repeat' first
    | (with_reducible assumption)
    | (with_reducible apply State.put_free h)

theorem State.handover_free {P : State → Prop} (h : Free P [.regs, .evq]) {s : State} (hs : P s) (b : Fin 4) (p : Nat) :
    P (s.handover b p) := by
  have h1 := h.mono (B := [.regs]) (by decide)
  unfold State.handover
  extract_lets
  repeat' first
    | (with_reducible assumption)
    | (with_reducible apply State.calBegin_free h1)
    | (with_reducible apply State.put_free h1)
    | (with_reducible apply State.raise_free h)

theorem State.sweepBankEnd_free {P : State → Prop} (h : Free P [.regs, .evq, .adc]) {s : State} (hs : P s) (b : Fin 4) :
    P (s.sweepBankEnd b) := by
  have h1 := h.mono (B := [.regs, .evq]) (by decide)
  have h2 := h.mono (B := [.regs]) (by decide)
  have h3 := h.mono (B := [.adc]) (by decide)
  unfold State.sweepBankEnd
  extract_lets
  repeat' first
    | (with_reducible assumption)
    | (with_reducible apply State.longEnd_free h1)
    | (with_reducible apply State.put_free h2)
    | (with_reducible apply State.setBank_free h3)
    | (with_reducible refine Free.ite (fun _ => ?_) (fun _ => ?_))
    | (with_reducible refine Free.foldl _ (fun _ _ _ => ?_) ?_)

theorem State.sweepNext_free {P : State → Prop} (h : Free P [.regs, .evq, .adc]) {s : State} (hs : P s) (b : Fin 4) :
    P (s.sweepNext b) := by
  have h1 := h.mono (B := [.regs]) (by decide)
  have h2 := h.mono (B := [.regs, .evq]) (by decide)
  unfold State.sweepNext
  repeat' first
    | (with_reducible assumption)
    | (with_reducible apply State.calBegin_free h1)
    | (with_reducible apply State.handover_free h2)
    | (with_reducible apply State.sweepBankEnd_free h)
    | (with_reducible refine Free.ite (fun _ => ?_) (fun _ => ?_))
    | split

theorem State.sweepBegin_free {P : State → Prop} (h : Free P [.regs, .evq, .adc]) {s : State} (hs : P s) (b : Fin 4) :
    P (s.sweepBegin b) := by
  have h1 := h.mono (B := [.regs]) (by decide)
  have h2 := h.mono (B := [.adc]) (by decide)
  unfold State.sweepBegin
  extract_lets
  repeat' first
    | (with_reducible assumption)
    | (with_reducible apply State.calBegin_free h1)
    | (with_reducible apply State.put_free h1)
    | (with_reducible apply State.setBank_free h2)
    | (with_reducible apply State.sweepNext_free h)
    | (with_reducible refine Free.ite (fun _ => ?_) (fun _ => ?_))
    | split

theorem State.calSweep_free {P : State → Prop} (h : Free P [.regs, .evq, .adc]) {s : State} (hs : P s) :
    P (s.calSweep) := by
  have h1 := h.mono (B := [.regs]) (by decide)
  unfold State.calSweep
  extract_lets
  repeat' first
    | (with_reducible assumption)
    | (with_reducible apply State.longStart_free h1)
    | (with_reducible apply State.put_free h1)
    | (with_reducible apply State.sweepBegin_free h)
    | (with_reducible refine Free.ite (fun _ => ?_) (fun _ => ?_))
    | (with_reducible refine Free.foldl _ (fun _ _ _ => ?_) ?_)

theorem State.persClear_free {P : State → Prop} (h : Free P [.regs, .adc]) {s : State} (hs : P s) (b : Fin 4) (i : Nat) :
    P (s.persClear b i) := by
  have h1 := h.mono (B := [.regs]) (by decide)
  have h2 := h.mono (B := [.adc]) (by decide)
  unfold State.persClear
  extract_lets
  repeat' first
    | (with_reducible assumption)
    | (with_reducible apply State.put_free h1)
    | (with_reducible apply State.setBank_free h2)

theorem State.entryWritten_free {P : State → Prop} (h : Free P [.regs, .adc]) {s : State} (hs : P s) (b : Fin 4) (off : Nat) (old : Word) :
    P (s.entryWritten b off old) := by
  unfold State.entryWritten
  extract_lets
  repeat' first
    | (with_reducible assumption)
    | (with_reducible apply State.persClear_free h)
    | (with_reducible refine Free.ite (fun _ => ?_) (fun _ => ?_))

theorem State.adcReset_free {P : State → Prop} (h : Free P [.regs, .evq, .adc]) {s : State} (hs : P s) (b : Fin 4) :
    P (s.adcReset b) := by
  have h1 := h.mono (B := [.adc]) (by decide)
  have h2 := h.mono (B := [.regs]) (by decide)
  unfold State.adcReset
  extract_lets
  repeat' first
    | (with_reducible assumption)
    | (with_reducible apply State.setBank_free h1)
    | (with_reducible apply State.setFifo_free h)
    | (with_reducible apply State.wr_free h2)

theorem State.clearResults_free {P : State → Prop} (h : Free P [.regs, .mem, .evq, .adc]) {s : State} (hs : P s) :
    P (s.clearResults) := by
  have h1 := h.mono (B := [.regs, .evq, .adc]) (by decide)
  have h2 := h.mono (B := [.mem]) (by decide)
  have h3 := h.mono (B := [.regs]) (by decide)
  unfold State.clearResults
  extract_lets
  repeat' first
    | (with_reducible assumption)
    | (with_reducible apply State.setFifo_free h1)
    | (with_reducible apply State.store_free h2)
    | (with_reducible apply State.wr_free h3)
    | (with_reducible refine Free.foldl _ (fun _ _ _ => ?_) ?_)

theorem State.sweepAbandon_free {P : State → Prop} (h : Free P [.regs, .adc]) {s : State} (hs : P s) (b : Fin 4) :
    P (s.sweepAbandon b) := by
  have h1 := h.mono (B := [.regs]) (by decide)
  have h2 := h.mono (B := [.adc]) (by decide)
  unfold State.sweepAbandon
  extract_lets
  repeat' first
    | (with_reducible assumption)
    | (with_reducible apply State.put_free h1)
    | (with_reducible apply State.setBank_free h2)

theorem State.fifoPush_free {P : State → Prop} (h : Free P [.regs, .evq, .adc]) {s : State} (hs : P s) (b : Fin 4) (w : Nat) :
    P (s.fifoPush b w) := by
  have h1 := h.mono (B := [.regs]) (by decide)
  have h2 := h.mono (B := [.regs, .evq]) (by decide)
  unfold State.fifoPush
  repeat' first
    | (with_reducible assumption)
    | (with_reducible apply State.put_free h1)
    | (with_reducible apply State.raise_free h2)
    | (with_reducible apply State.setFifo_free h)
    | (with_reducible refine Free.ite (fun _ => ?_) (fun _ => ?_))

theorem State.limitCheck_free {P : State → Prop} (h : Free P [.regs, .evq, .fault, .adc]) {s : State} (hs : P s) (b : Fin 4) (t : Nat) (e : Nat) (cfg : Nat) (lim : Nat) (code : Nat) :
    P (s.limitCheck b t e cfg lim code).2 := by
  have h1 := h.mono (B := [.regs, .fault]) (by decide)
  have h2 := h.mono (B := [.regs]) (by decide)
  have h3 := h.mono (B := [.regs, .evq]) (by decide)
  have h4 := h.mono (B := [.adc]) (by decide)
  unfold State.limitCheck
  extract_lets
  repeat' first
    | (with_reducible assumption)
    | (with_reducible apply State.errI_free h1)
    | (with_reducible apply State.injTake_free h2)
    | (with_reducible apply State.put_free h2)
    | (with_reducible apply State.raise_free h3)
    | (with_reducible apply State.setBank_free h4)
    | (with_reducible refine Free.ite (fun _ => ?_) (fun _ => ?_))
    | split

theorem State.deliver_free {P : State → Prop} (h : Free P [.regs, .mem, .evq, .fault, .adc]) {s : State} (hs : P s) (b : Fin 4) (e : Nat) (cfg : Nat) (lim : Nat) (slice : Nat) (c : Nat) (ago : Nat) :
    P (s.deliver b e cfg lim slice c ago) := by
  have h1 := h.mono (B := [.regs, .evq, .adc]) (by decide)
  have h2 := h.mono (B := [.regs, .evq, .fault, .adc]) (by decide)
  have h3 := h.mono (B := [.regs, .evq]) (by decide)
  have h4 := h.mono (B := [.adc]) (by decide)
  have h5 := h.mono (B := [.mem]) (by decide)
  have h6 := h.mono (B := [.regs]) (by decide)
  unfold State.deliver
  extract_lets
  repeat' first
    | (with_reducible assumption)
    | (with_reducible apply State.fifoPush_free h1)
    | (with_reducible apply State.limitCheck_free h2)
    | (with_reducible apply State.raise_free h3)
    | (with_reducible apply State.setBank_free h4)
    | (with_reducible apply State.store_free h5)
    | (with_reducible apply State.wr_free h6)
    | (with_reducible refine Free.ite (fun _ => ?_) (fun _ => ?_))
    | split

theorem State.placeSlice_free {P : State → Prop} (h : Free P [.regs]) {s : State} (hs : P s) (b : Fin 4) (x : Nat) :
    P (s.placeSlice b x) := by
  unfold State.placeSlice
  repeat' first
    | (with_reducible assumption)
    | (with_reducible apply State.put_free h)
    | (with_reducible refine Free.ite (fun _ => ?_) (fun _ => ?_))
    | split

theorem State.putEntry_free {P : State → Prop} (h : Free P [.regs, .adc]) {s : State} (hs : P s) (b : Fin 4) (off : Nat) (v : Word) :
    P (s.putEntry b off v) := by
  have h1 := h.mono (B := [.regs]) (by decide)
  unfold State.putEntry
  repeat' first
    | (with_reducible assumption)
    | (with_reducible apply State.entryWritten_free h)
    | (with_reducible apply State.wr_free h1)

theorem State.putTable_free {P : State → Prop} (h : Free P [.regs, .adc]) {s : State} (hs : P s) (b : Fin 4) (t : Nat) (cfgs : List Nat) :
    P (s.putTable b t cfgs) := by
  have h1 := h.mono (B := [.regs]) (by decide)
  unfold State.putTable
  extract_lets
  repeat' first
    | (with_reducible assumption)
    | (with_reducible apply State.put_free h1)
    | (with_reducible apply State.putEntry_free h)
    | (with_reducible refine Free.foldl _ (fun _ _ _ => ?_) ?_)

theorem State.loadBuiltinTables_free {P : State → Prop} (h : Free P [.regs, .adc]) {s : State} (hs : P s) :
    P (s.loadBuiltinTables) := by
  have h1 := h.mono (B := [.regs]) (by decide)
  unfold State.loadBuiltinTables
  extract_lets
  repeat' first
    | (with_reducible assumption)
    | (with_reducible apply State.putTable_free h)
    | (with_reducible apply State.wr_free h1)

theorem State.samplingStops_free {P : State → Prop} (h : Free P [.regs, .adc]) {s : State} (hs : P s) :
    P (s.samplingStops) := by
  have h1 := h.mono (B := [.regs]) (by decide)
  have h2 := h.mono (B := [.adc]) (by decide)
  unfold State.samplingStops
  repeat' first
    | (with_reducible assumption)
    | (with_reducible apply State.put_free h1)
    | (with_reducible apply State.setBank_free h2)
    | (with_reducible refine Free.foldl _ (fun _ _ _ => ?_) ?_)

theorem State.calStartBegin_free {P : State → Prop} (h : Free P [.regs]) {s : State} (hs : P s) :
    P (s.calStartBegin) := by
  unfold State.calStartBegin
  repeat' first
    | (with_reducible assumption)
    | (with_reducible apply State.put_free h)
    | (with_reducible refine Free.foldl _ (fun _ _ _ => ?_) ?_)

theorem State.seqDone_free {P : State → Prop} (h : Free P [.regs, .evq, .adc]) {s : State} (hs : P s) (b : Fin 4) :
    P (s.seqDone b) := by
  have h1 := h.mono (B := [.regs]) (by decide)
  have h2 := h.mono (B := [.regs, .evq]) (by decide)
  have h3 := h.mono (B := [.adc]) (by decide)
  unfold State.seqDone
  extract_lets
  repeat' first
    | (with_reducible assumption)
    | (with_reducible apply State.put_free h1)
    | (with_reducible apply State.raise_free h2)
    | (with_reducible apply State.setBank_free h3)
    | (with_reducible refine Free.ite (fun _ => ?_) (fun _ => ?_))

theorem State.setTrim_free {P : State → Prop} (h : Free P [.regs]) {s : State} (hs : P s) (b : Fin 4) (x : Nat) (m : CalMeas) :
    P (s.setTrim b x m) := by
  unfold State.setTrim
  repeat' first
    | (with_reducible assumption)
    | (with_reducible apply State.putI_free h)

theorem State.calStartBank_free {P : State → Prop} (h : Free P [.regs, .evq, .fault, .adc]) {s : State} (hs : P s) (b : Fin 4) (res : List CalMeas) :
    P (s.calStartBank b res) := by
  have h1 := h.mono (B := [.regs, .fault]) (by decide)
  have h2 := h.mono (B := [.regs, .evq]) (by decide)
  have h3 := h.mono (B := [.regs]) (by decide)
  have h4 := h.mono (B := [.adc]) (by decide)
  unfold State.calStartBank
  extract_lets
  repeat' first
    | (with_reducible assumption)
    | (with_reducible apply State.err_free h1)
    | (with_reducible apply State.level_free h2)
    | (with_reducible apply State.put_free h3)
    | (with_reducible apply State.setBank_free h4)
    | (with_reducible apply State.setTrim_free h3)
    | (with_reducible refine Free.ite (fun _ => ?_) (fun _ => ?_))
    | (with_reducible refine Free.foldl _ (fun _ _ _ => ?_) ?_)
    | split

theorem State.calDone_free {P : State → Prop} (h : Free P [.regs, .evq, .fault, .adc]) {s : State} (hs : P s) (b : Fin 4) (m : CalMeas) :
    P (s.calDone b m) := by
  have h1 := h.mono (B := [.regs, .fault]) (by decide)
  have h2 := h.mono (B := [.regs]) (by decide)
  have h3 := h.mono (B := [.regs, .evq]) (by decide)
  have h4 := h.mono (B := [.adc]) (by decide)
  have h5 := h.mono (B := [.regs, .evq, .adc]) (by decide)
  unfold State.calDone
  extract_lets
  repeat' first
    | (with_reducible assumption)
    | (with_reducible apply State.errI_free h1)
    | (with_reducible apply State.injTake_free h2)
    | (with_reducible apply State.level_free h3)
    | (with_reducible apply State.placeSlice_free h2)
    | (with_reducible apply State.put_free h2)
    | (with_reducible apply State.raise_free h3)
    | (with_reducible apply State.setBank_free h4)
    | (with_reducible apply State.setTrim_free h2)
    | (with_reducible apply State.sweepBankEnd_free h5)
    | (with_reducible apply State.sweepNext_free h5)
    | (with_reducible refine Free.ite (fun _ => ?_) (fun _ => ?_))

theorem State.calStep_free {P : State → Prop} (h : Free P [.regs, .evq, .adc]) {s : State} (hs : P s) (b : Fin 4) :
    P (s.calStep b) := by
  have h1 := h.mono (B := [.regs]) (by decide)
  have h2 := h.mono (B := [.regs, .evq]) (by decide)
  have h3 := h.mono (B := [.adc]) (by decide)
  unfold State.calStep
  extract_lets
  repeat' first
    | (with_reducible assumption)
    | (with_reducible apply State.calBegin_free h1)
    | (with_reducible apply State.handover_free h2)
    | (with_reducible apply State.setBank_free h3)
    | (with_reducible refine Free.ite (fun _ => ?_) (fun _ => ?_))
    | split

theorem State.adcResetDone_free {P : State → Prop} (h : Free P [.regs]) {s : State} (hs : P s) (b : Fin 4) :
    P (s.adcResetDone b) := by
  unfold State.adcResetDone
  repeat' first
    | (with_reducible assumption)
    | (with_reducible apply State.put_free h)

end Sys2Proof.Machine
end

