-- ==== Sys2Proof/Laws/StableAreas.lean ====
section
/-! SUPPORT. Which parts of the state the operations of Machine/Areas.lean may change: a property that stands whatever becomes of those
parts stands after the operation. -/

namespace Sys2Proof.Machine

theorem State.bump_free {P : State → Prop} (h : Free P [.mem]) {s : State} (hs : P s) (a : Nat) (n : Nat) (v : Nat) :
    P (s.bump a n v) := by
  unfold State.bump
  repeat' first
    | (with_reducible assumption)
    | (with_reducible apply State.store_free h)

theorem State.selOp_free {P : State → Prop} (h : Free P [.mem]) {s : State} (hs : P s) (n : Nat) (m : Nat) :
    P (s.selOp n m) := by
  unfold State.selOp
  extract_lets
  repeat' first
    | (with_reducible assumption)
    | (with_reducible apply State.store_free h)

theorem State.clearHealthArea_free {P : State → Prop} (h : Free P [.mem]) {s : State} (hs : P s) :
    P (s.clearHealthArea) := by
  unfold State.clearHealthArea
  repeat' first
    | (with_reducible assumption)
    | (with_reducible refine (h.mem (by decide) _ (fun hw => Sparse.wf_filter _ _ hw) ?_))

end Sys2Proof.Machine
end

