-- ==== Sys2Proof/Laws/StableEstCount.lean ====
section
/-! SUPPORT. Which parts of the state the operations of Machine/EstCount.lean may change: a property that stands whatever becomes of those
parts stands after the operation. -/

namespace Sys2Proof.Machine

theorem State.addCharge_free {P : State → Prop} (h : Free P [.mem]) {s : State} (hs : P s) (n : Fin 16) (i : Int) (len : Int) :
    P (s.addCharge n i len) := by
  unfold State.addCharge
  extract_lets
  repeat' first
    | (with_reducible assumption)
    | (with_reducible apply State.store_free h)
    | (with_reducible apply State.storeI_free h)

theorem State.countSpan_free {P : State → Prop} (h : Free P [.mem]) {s : State} (hs : P s) (n : Fin 16) (i : Int) (len : Int) :
    P (s.countSpan n i len) := by
  unfold State.countSpan
  repeat' first
    | (with_reducible assumption)
    | (with_reducible apply State.addCharge_free h)
    | (with_reducible apply State.bump_free h)

theorem State.fillSpan_free {P : State → Prop} (h : Free P [.mem]) {s : State} (hs : P s) (n : Fin 16) (t0 : Int) (t1 : Int) :
    P (s.fillSpan n t0 t1) := by
  unfold State.fillSpan
  repeat' first
    | (with_reducible assumption)
    | (with_reducible apply State.countSpan_free h)
    | (with_reducible refine Free.ite (fun _ => ?_) (fun _ => ?_))

theorem State.setStrFlag_free {P : State → Prop} (h : Free P [.mem]) {s : State} (hs : P s) (n : Fin 16) (k : Nat) (b : Bool) :
    P (s.setStrFlag n k b) := by
  unfold State.setStrFlag
  repeat' first
    | (with_reducible assumption)
    | (with_reducible apply State.store_free h)

theorem State.fillGap_free {P : State → Prop} (h : Free P [.regs, .mem, .evq]) {s : State} (hs : P s) (n : Fin 16) (w : CurWindow) :
    P (s.fillGap n w) := by
  have h1 := h.mono (B := [.mem]) (by decide)
  have h2 := h.mono (B := [.regs, .evq]) (by decide)
  unfold State.fillGap
  repeat' first
    | (with_reducible assumption)
    | (with_reducible apply State.fillSpan_free h1)
    | (with_reducible apply State.raise_free h2)
    | (with_reducible apply State.setStrFlag_free h1)
    | (with_reducible refine Free.ite (fun _ => ?_) (fun _ => ?_))
    | split

theorem State.setEs_free {P : State → Prop} (h : Free P [.est]) {s : State} (hs : P s) (n : Fin 16) (x : EstStr) :
    P (s.setEs n x) := by
  unfold State.setEs
  extract_lets
  repeat' first
    | (with_reducible assumption)
    | (with_reducible refine (h.est (by decide) _ ?_))

theorem State.skipWindow_free {P : State → Prop} (h : Free P [.mem, .est]) {s : State} (hs : P s) (n : Fin 16) (w : CurWindow) :
    P (s.skipWindow n w) := by
  have h1 := h.mono (B := [.est]) (by decide)
  have h2 := h.mono (B := [.mem]) (by decide)
  unfold State.skipWindow
  extract_lets
  repeat' first
    | (with_reducible assumption)
    | (with_reducible apply State.setEs_free h1)
    | (with_reducible apply State.store_free h2)

theorem State.resumeAt_free {P : State → Prop} (h : Free P [.mem, .est]) {s : State} (hs : P s) (n : Fin 16) (t : Int) (ws : List CurWindow) :
    P (s.resumeAt n t ws).2 := by
  have h1 := h.mono (B := [.mem]) (by decide)
  have h2 := h.mono (B := [.est]) (by decide)
  unfold State.resumeAt
  extract_lets
  repeat' first
    | (with_reducible assumption)
    | (with_reducible apply State.fillSpan_free h1)
    | (with_reducible apply State.setEs_free h2)
    | (with_reducible apply State.skipWindow_free h)
    | (with_reducible refine Free.foldl _ (fun _ _ _ => ?_) ?_)
    | split

theorem State.beforeWindows_free {P : State → Prop} (h : Free P [.regs, .mem, .evq, .est]) {s : State} (hs : P s) (n : Fin 16) (ws : List CurWindow) :
    P (s.beforeWindows n ws).2 := by
  have h1 := h.mono (B := [.regs, .mem, .evq]) (by decide)
  have h2 := h.mono (B := [.mem, .est]) (by decide)
  unfold State.beforeWindows
  repeat' first
    | (with_reducible assumption)
    | (with_reducible apply State.fillGap_free h1)
    | (with_reducible apply State.resumeAt_free h2)
    | split

theorem State.moduleCharge_free {P : State → Prop} (h : Free P [.mem, .est]) {s : State} (hs : P s) (n : Fin 16) :
    P (s.moduleCharge n) := by
  have h1 := h.mono (B := [.mem]) (by decide)
  have h2 := h.mono (B := [.est]) (by decide)
  unfold State.moduleCharge
  extract_lets
  repeat' first
    | (with_reducible assumption)
    | (with_reducible apply State.bump_free h1)
    | (with_reducible apply State.setEs_free h2)
    | (with_reducible apply State.storeI_free h1)
    | (with_reducible refine Free.ite (fun _ => ?_) (fun _ => ?_))

theorem State.setBranch_free {P : State → Prop} (h : Free P [.mem]) {s : State} (hs : P s) (n : Fin 16) (b : Nat) :
    P (s.setBranch n b) := by
  unfold State.setBranch
  extract_lets
  repeat' first
    | (with_reducible assumption)
    | (with_reducible apply State.store_free h)

theorem State.clearStr_free {P : State → Prop} (h : Free P [.mem]) {s : State} (hs : P s) (n : Fin 16) :
    P (s.clearStr n) := by
  unfold State.clearStr
  repeat' first
    | (with_reducible assumption)
    | (with_reducible apply State.setBranch_free h)
    | (with_reducible apply State.store_free h)
    | (with_reducible apply State.zeroRange_free h)

theorem State.fallbackStart_free {P : State → Prop} (h : Free P [.regs, .mem, .evq, .est]) {s : State} (hs : P s) (n : Fin 16) :
    P (s.fallbackStart n) := by
  have h1 := h.mono (B := [.regs, .evq]) (by decide)
  have h2 := h.mono (B := [.est]) (by decide)
  have h3 := h.mono (B := [.mem]) (by decide)
  unfold State.fallbackStart
  extract_lets
  repeat' first
    | (with_reducible assumption)
    | (with_reducible apply State.raise_free h1)
    | (with_reducible apply State.setEs_free h2)
    | (with_reducible apply State.setStrFlag_free h3)
    | (with_reducible refine Free.ite (fun _ => ?_) (fun _ => ?_))

theorem State.fallbackDue_free {P : State → Prop} (h : Free P [.regs, .mem, .evq, .est]) {s : State} (hs : P s) (n : Fin 16) :
    P (s.fallbackDue n) := by
  unfold State.fallbackDue
  repeat' first
    | (with_reducible assumption)
    | (with_reducible apply State.fallbackStart_free h)
    | (with_reducible refine Free.ite (fun _ => ?_) (fun _ => ?_))

theorem State.recordReads_free {P : State → Prop} (h : Free P [.regs]) {s : State} (hs : P s) (k : Nat) :
    P (s.recordReads k).2 := by
  unfold State.recordReads
  extract_lets
  repeat' first
    | (with_reducible assumption)
    | (with_reducible apply State.wr_free h)
    | split

theorem State.crossCheck_free {P : State → Prop} (h : Free P [.regs, .mem, .evq, .fault, .est]) {s : State} (hs : P s) (n : Fin 16) (i : Int) (node : Int) :
    P (s.crossCheck n i node) := by
  have h1 := h.mono (B := [.regs, .fault]) (by decide)
  have h2 := h.mono (B := [.regs]) (by decide)
  have h3 := h.mono (B := [.regs, .evq]) (by decide)
  have h4 := h.mono (B := [.est]) (by decide)
  have h5 := h.mono (B := [.mem]) (by decide)
  unfold State.crossCheck
  extract_lets
  repeat' first
    | (with_reducible assumption)
    | (with_reducible apply State.errI_free h1)
    | (with_reducible apply State.injTake_free h2)
    | (with_reducible apply State.raise_free h3)
    | (with_reducible apply State.setEs_free h4)
    | (with_reducible apply State.setStrFlag_free h5)
    | (with_reducible apply State.store_free h5)
    | (with_reducible refine Free.ite (fun _ => ?_) (fun _ => ?_))

theorem State.compareReadings_free {P : State → Prop} (h : Free P [.regs, .mem, .evq, .fault, .est]) {s : State} (hs : P s) (n : Fin 16) :
    P (s.compareReadings n) := by
  have h1 := h.mono (B := [.est]) (by decide)
  unfold State.compareReadings
  repeat' first
    | (with_reducible assumption)
    | (with_reducible apply State.crossCheck_free h)
    | (with_reducible apply State.setEs_free h1)
    | (with_reducible refine Free.ite (fun _ => ?_) (fun _ => ?_))
    | (with_reducible refine Free.foldl _ (fun _ _ _ => ?_) ?_)
    | split

theorem State.clearMod_free {P : State → Prop} (h : Free P [.mem]) {s : State} (hs : P s) (n : Fin 16) (m : Nat) :
    P (s.clearMod n m) := by
  unfold State.clearMod
  repeat' first
    | (with_reducible assumption)
    | (with_reducible apply State.store_free h)
    | (with_reducible apply State.zeroRange_free h)

theorem State.branchStep_free {P : State → Prop} (h : Free P [.mem]) {s : State} (hs : P s) (n : Fin 16) (i : Int) :
    P (s.branchStep n i) := by
  unfold State.branchStep
  extract_lets
  repeat' first
    | (with_reducible assumption)
    | (with_reducible apply State.setBranch_free h)
    | (with_reducible apply State.storeI_free h)
    | (with_reducible refine Free.ite (fun _ => ?_) (fun _ => ?_))
    | split

theorem State.countWindow_free {P : State → Prop} (h : Free P [.mem, .est]) {s : State} (hs : P s) (n : Fin 16) (w : CurWindow) :
    P (s.countWindow n w) := by
  have h1 := h.mono (B := [.mem]) (by decide)
  have h2 := h.mono (B := [.est]) (by decide)
  unfold State.countWindow
  extract_lets
  repeat' first
    | (with_reducible assumption)
    | (with_reducible apply State.countSpan_free h1)
    | (with_reducible apply State.setEs_free h2)
    | (with_reducible apply State.store_free h1)
    | (with_reducible apply State.storeI_free h1)
    | (with_reducible refine Free.ite (fun _ => ?_) (fun _ => ?_))

theorem State.fallbackEnd_free {P : State → Prop} (h : Free P [.mem]) {s : State} (hs : P s) (n : Fin 16) (ws : List CurWindow) :
    P (s.fallbackEnd n ws) := by
  unfold State.fallbackEnd
  repeat' first
    | (with_reducible assumption)
    | (with_reducible apply State.setStrFlag_free h)
    | (with_reducible refine Free.ite (fun _ => ?_) (fun _ => ?_))

theorem State.restStep_free {P : State → Prop} (h : Free P [.mem, .est]) {s : State} (hs : P s) (n : Fin 16) (i : Int) :
    P (s.restStep n i) := by
  have h1 := h.mono (B := [.est]) (by decide)
  have h2 := h.mono (B := [.mem]) (by decide)
  unfold State.restStep
  extract_lets
  repeat' first
    | (with_reducible assumption)
    | (with_reducible apply State.setEs_free h1)
    | (with_reducible apply State.store_free h2)
    | (with_reducible refine Free.ite (fun _ => ?_) (fun _ => ?_))

theorem State.toneWatch_free {P : State → Prop} (h : Free P [.est]) {s : State} (hs : P s) (n : Fin 16) (i : Int) :
    P (s.toneWatch n i) := by
  unfold State.toneWatch
  extract_lets
  repeat' first
    | (with_reducible assumption)
    | (with_reducible apply State.setEs_free h)
    | (with_reducible refine Free.ite (fun _ => ?_) (fun _ => ?_))

theorem State.accumulate_free {P : State → Prop} (h : Free P [.regs, .mem, .evq, .fault, .est]) {s : State} (hs : P s) (n : Fin 16) :
    P (s.accumulate n) := by
  have h1 := h.mono (B := [.regs, .mem, .evq, .est]) (by decide)
  have h2 := h.mono (B := [.mem]) (by decide)
  have h3 := h.mono (B := [.mem, .est]) (by decide)
  have h4 := h.mono (B := [.est]) (by decide)
  unfold State.accumulate
  extract_lets
  repeat' first
    | (with_reducible assumption)
    | (with_reducible apply State.beforeWindows_free h1)
    | (with_reducible apply State.branchStep_free h2)
    | (with_reducible apply State.compareReadings_free h)
    | (with_reducible apply State.countWindow_free h3)
    | (with_reducible apply State.fallbackDue_free h1)
    | (with_reducible apply State.fallbackEnd_free h2)
    | (with_reducible apply State.restStep_free h3)
    | (with_reducible apply State.setEs_free h4)
    | (with_reducible apply State.storeI_free h2)
    | (with_reducible apply State.toneWatch_free h4)
    | (with_reducible refine Free.ite (fun _ => ?_) (fun _ => ?_))
    | (with_reducible refine Free.foldl _ (fun _ _ _ => ?_) ?_)

theorem State.clearCell_free {P : State → Prop} (h : Free P [.mem]) {s : State} (hs : P s) (n : Fin 16) (c : Nat) :
    P (s.clearCell n c) := by
  unfold State.clearCell
  extract_lets
  repeat' first
    | (with_reducible assumption)
    | (with_reducible apply State.store_free h)
    | (with_reducible apply State.zeroRange_free h)

theorem State.accStep_free {P : State → Prop} (h : Free P [.regs, .mem, .evq, .fault, .est]) {s : State} (hs : P s) :
    P (s.accStep) := by
  unfold State.accStep
  repeat' first
    | (with_reducible assumption)
    | (with_reducible apply State.accumulate_free h)
    | (with_reducible refine Free.foldl _ (fun _ _ _ => ?_) ?_)

theorem State.clearString_free {P : State → Prop} (h : Free P [.regs, .mem, .est]) {s : State} (hs : P s) (n : Fin 16) :
    P (s.clearString n) := by
  have h1 := h.mono (B := [.mem]) (by decide)
  have h2 := h.mono (B := [.regs]) (by decide)
  have h3 := h.mono (B := [.est]) (by decide)
  unfold State.clearString
  extract_lets
  repeat' first
    | (with_reducible assumption)
    | (with_reducible apply State.clearCell_free h1)
    | (with_reducible apply State.clearMod_free h1)
    | (with_reducible apply State.clearStr_free h1)
    | (with_reducible apply State.put_free h2)
    | (with_reducible apply State.setEs_free h3)
    | (with_reducible refine Free.foldl _ (fun _ _ _ => ?_) ?_)

theorem State.scrub_free {P : State → Prop} (h : Free P [.regs, .mem, .evq, .fault, .est]) {s : State} (hs : P s) :
    P (s.scrub) := by
  have h1 := h.mono (B := [.regs, .mem, .est]) (by decide)
  have h2 := h.mono (B := [.regs, .fault]) (by decide)
  have h3 := h.mono (B := [.regs, .evq]) (by decide)
  have h4 := h.mono (B := [.regs]) (by decide)
  unfold State.scrub
  repeat' first
    | (with_reducible assumption)
    | (with_reducible apply State.clearString_free h1)
    | (with_reducible apply State.errI_free h2)
    | (with_reducible apply State.raise_free h3)
    | (with_reducible apply State.recordReads_free h4)
    | (with_reducible refine Free.ite (fun _ => ?_) (fun _ => ?_))
    | (with_reducible refine Free.foldl _ (fun _ _ _ => ?_) ?_)

theorem State.istrReading_free {P : State → Prop} (h : Free P [.regs, .mem, .evq, .fault, .est]) {s : State} (hs : P s) (n : Fin 16) :
    P (s.istrReading n) := by
  have h1 := h.mono (B := [.mem]) (by decide)
  have h2 := h.mono (B := [.regs, .mem, .evq, .est]) (by decide)
  have h3 := h.mono (B := [.est]) (by decide)
  unfold State.istrReading
  extract_lets
  repeat' first
    | (with_reducible assumption)
    | (with_reducible apply State.compareReadings_free h)
    | (with_reducible apply State.countSpan_free h1)
    | (with_reducible apply State.fallbackDue_free h2)
    | (with_reducible apply State.setEs_free h3)
    | (with_reducible apply State.storeI_free h1)
    | (with_reducible refine Free.ite (fun _ => ?_) (fun _ => ?_))

theorem State.estFrame_free {P : State → Prop} (h : Free P [.mem]) {s : State} (hs : P s) :
    P (s.estFrame) := by
  unfold State.estFrame
  repeat' first
    | (with_reducible assumption)
    | (with_reducible apply State.store_free h)
    | (with_reducible refine Free.ite (fun _ => ?_) (fun _ => ?_))
    | (with_reducible refine Free.foldl _ (fun _ _ _ => ?_) ?_)

theorem State.taperStep_free {P : State → Prop} (h : Free P [.regs, .est]) {s : State} (hs : P s) (n : Fin 16) :
    P (s.taperStep n) := by
  have h1 := h.mono (B := [.regs]) (by decide)
  have h2 := h.mono (B := [.est]) (by decide)
  unfold State.taperStep
  extract_lets
  repeat' first
    | (with_reducible assumption)
    | (with_reducible apply State.put_free h1)
    | (with_reducible apply State.setEs_free h2)
    | (with_reducible refine Free.ite (fun _ => ?_) (fun _ => ?_))

theorem State.estRound_free {P : State → Prop} (h : Free P [.regs, .mem, .est]) {s : State} (hs : P s) :
    P (s.estRound) := by
  have h1 := h.mono (B := [.mem, .est]) (by decide)
  have h2 := h.mono (B := [.regs, .est]) (by decide)
  unfold State.estRound
  repeat' first
    | (with_reducible assumption)
    | (with_reducible apply State.moduleCharge_free h1)
    | (with_reducible apply State.taperStep_free h2)
    | (with_reducible refine Free.ite (fun _ => ?_) (fun _ => ?_))
    | (with_reducible refine Free.foldl _ (fun _ _ _ => ?_) ?_)

end Sys2Proof.Machine
end

