-- ==== Sys2Proof/Laws/StableEstCell.lean ====
section
/-! SUPPORT. Which parts of the state the operations of Machine/EstCell.lean may change: a property that stands whatever becomes of those
parts stands after the operation. -/

namespace Sys2Proof.Machine

theorem State.stringRead_free {P : State → Prop} (h : Free P [.regs, .mem, .evq, .fault, .est]) {s : State} (hs : P s) (n : Fin 16) :
    P (s.stringRead n) := by
  have h1 := h.mono (B := [.mem]) (by decide)
  have h2 := h.mono (B := [.regs, .fault]) (by decide)
  have h3 := h.mono (B := [.regs, .mem, .evq, .est]) (by decide)
  have h4 := h.mono (B := [.regs]) (by decide)
  have h5 := h.mono (B := [.est]) (by decide)
  unfold State.stringRead
  extract_lets
  repeat' first
    | (with_reducible assumption)
    | (with_reducible apply State.clearStr_free h1)
    | (with_reducible apply State.errI_free h2)
    | (with_reducible apply State.fallbackDue_free h3)
    | (with_reducible apply State.recordReads_free h4)
    | (with_reducible apply State.setEs_free h5)
    | (with_reducible refine Free.ite (fun _ => ?_) (fun _ => ?_))

theorem State.storeCell_free {P : State → Prop} (h : Free P [.mem]) {s : State} (hs : P s) (n : Fin 16) (c : Nat) (r : CellRec) :
    P (s.storeCell n c r) := by
  unfold State.storeCell
  extract_lets
  repeat' first
    | (with_reducible assumption)
    | (with_reducible apply State.store_free h)
    | (with_reducible apply State.storeI_free h)

theorem State.passBegin_free {P : State → Prop} (h : Free P [.regs, .evq, .est]) {s : State} (hs : P s) (x : UpdCtx) :
    P (s.passBegin x) := by
  have h1 := h.mono (B := [.regs]) (by decide)
  have h2 := h.mono (B := [.regs, .evq]) (by decide)
  have h3 := h.mono (B := [.est]) (by decide)
  unfold State.passBegin
  extract_lets
  repeat' first
    | (with_reducible assumption)
    | (with_reducible apply State.put_free h1)
    | (with_reducible apply State.raise_free h2)
    | (with_reducible apply State.setEs_free h3)
    | (with_reducible refine Free.ite (fun _ => ?_) (fun _ => ?_))

theorem State.restRequest_free {P : State → Prop} (h : Free P [.regs, .evq]) {s : State} (hs : P s) (n : Fin 16) :
    P (s.restRequest n) := by
  have h1 := h.mono (B := [.regs]) (by decide)
  unfold State.restRequest
  extract_lets
  repeat' first
    | (with_reducible assumption)
    | (with_reducible apply State.put_free h1)
    | (with_reducible apply State.raiseIf_free h)
    | (with_reducible apply State.wr_free h1)

theorem State.restRequests_free {P : State → Prop} (h : Free P [.regs, .evq]) {s : State} (hs : P s) :
    P (s.restRequests) := by
  unfold State.restRequests
  repeat' first
    | (with_reducible assumption)
    | (with_reducible apply State.restRequest_free h)
    | (with_reducible refine Free.foldl _ (fun _ _ _ => ?_) ?_)

theorem State.moduleRead_free {P : State → Prop} (h : Free P [.regs, .mem, .fault]) {s : State} (hs : P s) (n : Fin 16) (m : Nat) :
    P (s.moduleRead n m) := by
  have h1 := h.mono (B := [.mem]) (by decide)
  have h2 := h.mono (B := [.regs, .fault]) (by decide)
  have h3 := h.mono (B := [.regs]) (by decide)
  unfold State.moduleRead
  extract_lets
  repeat' first
    | (with_reducible assumption)
    | (with_reducible apply State.clearMod_free h1)
    | (with_reducible apply State.errI_free h2)
    | (with_reducible apply State.recordReads_free h3)
    | (with_reducible refine Free.ite (fun _ => ?_) (fun _ => ?_))

theorem State.moduleDone_free {P : State → Prop} (h : Free P [.mem]) {s : State} (hs : P s) (x : UpdCtx) (m : Nat) :
    P (s.moduleDone x m) := by
  unfold State.moduleDone
  extract_lets
  repeat' first
    | (with_reducible assumption)
    | (with_reducible apply State.store_free h)
    | (with_reducible refine Free.ite (fun _ => ?_) (fun _ => ?_))

theorem State.stringDone_free {P : State → Prop} (h : Free P [.regs, .mem, .evq, .est]) {s : State} (hs : P s) (x : UpdCtx) (last : Nat) :
    P (s.stringDone x last) := by
  have h1 := h.mono (B := [.regs]) (by decide)
  have h2 := h.mono (B := [.regs, .evq]) (by decide)
  have h3 := h.mono (B := [.est]) (by decide)
  have h4 := h.mono (B := [.mem]) (by decide)
  unfold State.stringDone
  extract_lets
  repeat' first
    | (with_reducible assumption)
    | (with_reducible apply State.put_free h1)
    | (with_reducible apply State.raise_free h2)
    | (with_reducible apply State.restRequest_free h2)
    | (with_reducible apply State.setEs_free h3)
    | (with_reducible apply State.store_free h4)
    | (with_reducible refine Free.ite (fun _ => ?_) (fun _ => ?_))

theorem State.capUpdate_free {P : State → Prop} (h : Free P [.regs, .evq]) {s : State} (hs : P s) (n : Fin 16) (r : CellRec) (dq : Int) (dsoc : Int) :
    P (s.capUpdate n r dq dsoc).1 := by
  unfold State.capUpdate
  extract_lets
  repeat' first
    | (with_reducible assumption)
    | (with_reducible apply State.raise_free h)
    | split

theorem State.fullAnchor_free {P : State → Prop} (h : Free P [.regs, .evq]) {s : State} (hs : P s) (x : UpdCtx) (r : CellRec) (kind : Nat) (soc : Nat) :
    P (s.fullAnchor x r kind soc).1 := by
  unfold State.fullAnchor
  extract_lets
  repeat' first
    | (with_reducible assumption)
    | (with_reducible apply State.capUpdate_free h)
    | split
    | dsimp only
    | dsimp +zetaDelta only

theorem State.modelAnchor_free {P : State → Prop} (h : Free P [.regs, .evq]) {s : State} (hs : P s) (x : UpdCtx) (r : CellRec) (o : OcvView) (k : Nat) (icell : Int) :
    P (s.modelAnchor x r o k icell).1 := by
  unfold State.modelAnchor
  extract_lets
  repeat' first
    | (with_reducible assumption)
    | (with_reducible apply State.raise_free h)
    | split

theorem State.anchorSeen_free {P : State → Prop} (h : Free P [.regs, .mem, .evq, .est]) {s : State} (hs : P s) (x : UpdCtx) (c : Nat) (terminal : Bool) :
    P (s.anchorSeen x c terminal) := by
  have h1 := h.mono (B := [.regs]) (by decide)
  have h2 := h.mono (B := [.regs, .evq]) (by decide)
  have h3 := h.mono (B := [.est]) (by decide)
  have h4 := h.mono (B := [.mem]) (by decide)
  unfold State.anchorSeen
  extract_lets
  repeat' first
    | (with_reducible assumption)
    | (with_reducible apply State.put_free h1)
    | (with_reducible apply State.restRequest_free h2)
    | (with_reducible apply State.setEs_free h3)
    | (with_reducible apply State.store_free h4)
    | (with_reducible refine Free.ite (fun _ => ?_) (fun _ => ?_))

theorem State.restAnchor_free {P : State → Prop} (h : Free P [.regs, .mem, .evq, .est]) {s : State} (hs : P s) (x : UpdCtx) (c : Nat) (r : CellRec) (o : OcvView) :
    P (s.restAnchor x c r o).1 := by
  have h1 := h.mono (B := [.regs, .evq]) (by decide)
  unfold State.restAnchor
  extract_lets
  repeat' first
    | (with_reducible assumption)
    | (with_reducible apply State.anchorSeen_free h)
    | (with_reducible apply State.fullAnchor_free h1)
    | (with_reducible apply State.raise_free h1)
    | split

theorem State.termAnchor_free {P : State → Prop} (h : Free P [.regs, .mem, .evq, .est]) {s : State} (hs : P s) (x : UpdCtx) (c : Nat) (r : CellRec) (base : Nat) (col : Nat × Int × Int) (v : Nat) (icell : Int) :
    P (s.termAnchor x c r base col v icell).1 := by
  have h1 := h.mono (B := [.regs, .evq]) (by decide)
  have h2 := h.mono (B := [.est]) (by decide)
  unfold State.termAnchor
  extract_lets
  repeat' first
    | (with_reducible assumption)
    | (with_reducible apply State.anchorSeen_free h)
    | (with_reducible apply State.fullAnchor_free h1)
    | (with_reducible apply State.setEs_free h2)

theorem State.anchorCell_free {P : State → Prop} (h : Free P [.regs, .mem, .evq, .est]) {s : State} (hs : P s) (x : UpdCtx) (c : Nat) (r : CellRec) (base : Nat) (col : Nat × Int × Int) (ocvOk : Bool) (v : Nat) (k : Nat) (icell : Int) (vocv : Int) (wake : Bool) :
    P (s.anchorCell x c r base col ocvOk v k icell vocv wake).1 := by
  have h1 := h.mono (B := [.regs, .evq]) (by decide)
  unfold State.anchorCell
  extract_lets
  repeat' first
    | (with_reducible assumption)
    | (with_reducible apply State.fullAnchor_free h1)
    | (with_reducible apply State.modelAnchor_free h1)
    | (with_reducible apply State.raise_free h1)
    | (with_reducible apply State.restAnchor_free h)
    | (with_reducible apply State.termAnchor_free h)
    | split

theorem State.updateCell_free {P : State → Prop} (h : Free P [.regs, .mem, .evq, .fault, .est]) {s : State} (hs : P s) (x : UpdCtx) (c : Nat) :
    P (s.updateCell x c) := by
  have h1 := h.mono (B := [.regs, .mem, .evq, .est]) (by decide)
  have h2 := h.mono (B := [.mem]) (by decide)
  have h3 := h.mono (B := [.regs, .fault]) (by decide)
  have h4 := h.mono (B := [.regs, .evq]) (by decide)
  have h5 := h.mono (B := [.regs]) (by decide)
  have h6 := h.mono (B := [.est]) (by decide)
  unfold State.updateCell
  extract_lets
  repeat' first
    | (with_reducible assumption)
    | (with_reducible apply State.anchorCell_free h1)
    | (with_reducible apply State.clearCell_free h2)
    | (with_reducible apply State.errI_free h3)
    | (with_reducible apply State.raiseIf_free h4)
    | (with_reducible apply State.recordReads_free h5)
    | (with_reducible apply State.setEs_free h6)
    | (with_reducible apply State.storeCell_free h2)
    | (with_reducible refine Free.ite (fun _ => ?_) (fun _ => ?_))
    | split
    | dsimp +zetaDelta only

theorem State.estUpdate_free {P : State → Prop} (h : Free P [.regs, .mem, .evq, .fault, .est]) {s : State} (hs : P s) (n : Fin 16) (first : Nat) (count : Nat) :
    P (s.estUpdate n first count) := by
  have h1 := h.mono (B := [.regs, .fault]) (by decide)
  have h2 := h.mono (B := [.mem]) (by decide)
  have h3 := h.mono (B := [.regs, .mem, .fault]) (by decide)
  have h4 := h.mono (B := [.regs, .evq, .est]) (by decide)
  have h5 := h.mono (B := [.regs, .mem, .evq, .est]) (by decide)
  unfold State.estUpdate
  extract_lets
  repeat' first
    | (with_reducible assumption)
    | (with_reducible apply State.err_free h1)
    | (with_reducible apply State.moduleDone_free h2)
    | (with_reducible apply State.moduleRead_free h3)
    | (with_reducible apply State.passBegin_free h4)
    | (with_reducible apply State.storeI_free h2)
    | (with_reducible apply State.stringDone_free h5)
    | (with_reducible apply State.stringRead_free h)
    | (with_reducible apply State.updateCell_free h)
    | (with_reducible refine Free.ite (fun _ => ?_) (fun _ => ?_))
    | (with_reducible refine Free.foldl _ (fun _ _ _ => ?_) ?_)

end Sys2Proof.Machine
end

