-- ==== Sys2Proof/Laws/StableLinks.lean ====
section
/-! SUPPORT. Which parts of the state the operations of Machine/Links.lean may change: a property that stands whatever becomes of those
parts stands after the operation. -/

namespace Sys2Proof.Machine

theorem State.setLk_free {P : State → Prop} (h : Free P [.regs, .link]) {s : State} (hs : P s) (n : Fin 16) (x : LinkS) :
    P (s.setLk n x) := by
  have h1 := h.mono (B := [.regs]) (by decide)
  unfold State.setLk
  extract_lets
  repeat' first
    | (with_reducible assumption)
    | (with_reducible apply State.put_free h1)
    | (with_reducible refine (h.link (by decide) _ ?_))

theorem State.linkGoStale_free {P : State → Prop} (h : Free P [.regs, .fault, .link]) {s : State} (hs : P s) (n : Fin 16) :
    P (s.linkGoStale n) := by
  have h1 := h.mono (B := [.regs, .fault]) (by decide)
  have h2 := h.mono (B := [.regs, .link]) (by decide)
  unfold State.linkGoStale
  extract_lets
  repeat' first
    | (with_reducible assumption)
    | (with_reducible apply State.err_free h1)
    | (with_reducible apply State.setLk_free h2)

theorem State.toneAbort_free {P : State → Prop} (h : Free P [.regs, .evq]) {s : State} (hs : P s) (n : Fin 16) :
    P (s.toneAbort n) := by
  have h1 := h.mono (B := [.regs]) (by decide)
  unfold State.toneAbort
  repeat' first
    | (with_reducible assumption)
    | (with_reducible apply State.put_free h1)
    | (with_reducible apply State.raise_free h)

theorem State.toneLeft_free {P : State → Prop} (h : Free P [.regs, .evq]) {s : State} (hs : P s) (n : Fin 16) (k : Nat) (v : Nat) :
    P (s.toneLeft n k v) := by
  unfold State.toneLeft
  repeat' first
    | (with_reducible assumption)
    | (with_reducible apply State.toneAbort_free h)
    | (with_reducible refine Free.ite (fun _ => ?_) (fun _ => ?_))

theorem State.setSel_free {P : State → Prop} (h : Free P [.regs, .mem, .evq, .link]) {s : State} (hs : P s) (n : Fin 16) (k : Nat) (v : Nat) :
    P (s.setSel n k v) := by
  have h1 := h.mono (B := [.regs]) (by decide)
  have h2 := h.mono (B := [.mem]) (by decide)
  have h3 := h.mono (B := [.regs, .link]) (by decide)
  have h4 := h.mono (B := [.regs, .evq]) (by decide)
  unfold State.setSel
  extract_lets
  repeat' first
    | (with_reducible assumption)
    | (with_reducible apply State.put_free h1)
    | (with_reducible apply State.selOp_free h2)
    | (with_reducible apply State.setLk_free h3)
    | (with_reducible apply State.store_free h2)
    | (with_reducible apply State.toneLeft_free h4)
    | (with_reducible refine Free.ite (fun _ => ?_) (fun _ => ?_))

theorem State.linkAttempt_free {P : State → Prop} (h : Free P [.regs, .mem, .evq, .link]) {s : State} (hs : P s) (n : Fin 16) (c : LinkCmd) :
    P (s.linkAttempt n c) := by
  have h1 := h.mono (B := [.regs, .link]) (by decide)
  unfold State.linkAttempt
  extract_lets
  repeat' first
    | (with_reducible assumption)
    | (with_reducible apply State.setLk_free h1)
    | (with_reducible apply State.setSel_free h)
    | (with_reducible refine Free.ite (fun _ => ?_) (fun _ => ?_))
    | (with_reducible refine Free.foldl _ (fun _ _ _ => ?_) ?_)

theorem State.linkStep_free {P : State → Prop} (h : Free P [.regs, .mem, .evq, .link]) {s : State} (hs : P s) (n : Fin 16) (p : LinkPhase) (c : LinkCmd) :
    P (s.linkStep n p c) := by
  have h1 := h.mono (B := [.regs, .link]) (by decide)
  unfold State.linkStep
  extract_lets
  repeat' first
    | (with_reducible assumption)
    | (with_reducible apply State.linkAttempt_free h)
    | (with_reducible apply State.setLk_free h1)

theorem State.sendPing_free {P : State → Prop} (h : Free P [.regs, .mem, .evq, .link]) {s : State} (hs : P s) (n : Fin 16) (p : LinkPhase) (k : Nat) (armB : Bool) :
    P (s.sendPing n p k armB) := by
  unfold State.sendPing
  repeat' first
    | (with_reducible assumption)
    | (with_reducible apply State.linkStep_free h)

theorem State.linkReport_free {P : State → Prop} (h : Free P [.regs, .mem]) {s : State} (hs : P s) (n : Fin 16) (c : LinkCmd) (outcome : Nat) :
    P (s.linkReport n c outcome) := by
  have h1 := h.mono (B := [.regs]) (by decide)
  have h2 := h.mono (B := [.mem]) (by decide)
  unfold State.linkReport
  extract_lets
  repeat' first
    | (with_reducible assumption)
    | (with_reducible apply State.put_free h1)
    | (with_reducible apply State.store_free h2)
    | (with_reducible refine Free.ite (fun _ => ?_) (fun _ => ?_))
    | split
    | dsimp +zetaDelta only

theorem State.linkAtOnce_free {P : State → Prop} (h : Free P [.regs, .mem, .evq, .link]) {s : State} (hs : P s) (n : Fin 16) (c : LinkCmd) (outcome : Nat) :
    P (s.linkAtOnce n c outcome) := by
  have h1 := h.mono (B := [.regs, .mem]) (by decide)
  have h2 := h.mono (B := [.regs, .evq]) (by decide)
  have h3 := h.mono (B := [.regs, .link]) (by decide)
  unfold State.linkAtOnce
  extract_lets
  repeat' first
    | (with_reducible assumption)
    | (with_reducible apply State.linkReport_free h1)
    | (with_reducible apply State.raise_free h2)
    | (with_reducible apply State.setLk_free h3)
    | split

theorem State.linkRefuseSelect_free {P : State → Prop} (h : Free P [.regs, .mem, .evq, .fault, .link]) {s : State} (hs : P s) (n : Fin 16) (c : LinkCmd) :
    P (s.linkRefuseSelect n c) := by
  have h1 := h.mono (B := [.regs, .fault]) (by decide)
  have h2 := h.mono (B := [.regs, .mem, .evq, .link]) (by decide)
  have h3 := h.mono (B := [.regs, .evq]) (by decide)
  unfold State.linkRefuseSelect
  extract_lets
  repeat' first
    | (with_reducible assumption)
    | (with_reducible apply State.err_free h1)
    | (with_reducible apply State.linkAtOnce_free h2)
    | (with_reducible apply State.raise_free h3)
    | (with_reducible refine Free.ite (fun _ => ?_) (fun _ => ?_))

theorem State.linkBegin_free {P : State → Prop} (h : Free P [.regs, .mem, .evq, .fault, .link]) {s : State} (hs : P s) (n : Fin 16) (cmd : LinkCmd) (beyond : Bool) :
    P (s.linkBegin n cmd beyond).2 := by
  have h1 := h.mono (B := [.regs, .mem, .evq, .link]) (by decide)
  have h2 := h.mono (B := [.regs, .link]) (by decide)
  unfold State.linkBegin
  extract_lets
  repeat' first
    | (with_reducible assumption)
    | (with_reducible apply State.linkAtOnce_free h1)
    | (with_reducible apply State.linkAttempt_free h1)
    | (with_reducible apply State.linkRefuseSelect_free h)
    | (with_reducible apply State.setLk_free h2)
    | split

theorem State.syncReach_free {P : State → Prop} (h : Free P [.regs]) {s : State} (hs : P s) (n : Fin 16) :
    P (s.syncReach n) := by
  unfold State.syncReach
  repeat' first
    | (with_reducible assumption)
    | (with_reducible apply State.put_free h)

theorem State.enumBegin_free {P : State → Prop} (h : Free P [.regs, .mem, .evq, .link]) {s : State} (hs : P s) (n : Fin 16) :
    P (s.enumBegin n) := by
  have h1 := h.mono (B := [.regs]) (by decide)
  have h2 := h.mono (B := [.regs, .evq]) (by decide)
  have h3 := h.mono (B := [.regs, .link]) (by decide)
  unfold State.enumBegin
  extract_lets
  repeat' first
    | (with_reducible assumption)
    | (with_reducible apply State.linkStep_free h)
    | (with_reducible apply State.put_free h1)
    | (with_reducible apply State.raise_free h2)
    | (with_reducible apply State.setLk_free h3)
    | (with_reducible apply State.setSel_free h)
    | (with_reducible apply State.syncReach_free h1)
    | (with_reducible refine Free.ite (fun _ => ?_) (fun _ => ?_))
    | (with_reducible refine Free.foldl _ (fun _ _ _ => ?_) ?_)

theorem State.linkEnumerate_free {P : State → Prop} (h : Free P [.regs, .mem, .evq, .link]) {s : State} (hs : P s) (n : Fin 16) :
    P (s.linkEnumerate n) := by
  have h1 := h.mono (B := [.regs, .evq]) (by decide)
  have h2 := h.mono (B := [.regs]) (by decide)
  unfold State.linkEnumerate
  extract_lets
  repeat' first
    | (with_reducible assumption)
    | (with_reducible apply State.enumBegin_free h)
    | (with_reducible apply State.longEnd_free h1)
    | (with_reducible apply State.longStart_free h2)
    | (with_reducible refine Free.ite (fun _ => ?_) (fun _ => ?_))

theorem State.linkHostSend_free {P : State → Prop} (h : Free P [.regs, .mem, .evq, .fault, .link]) {s : State} (hs : P s) (n : Fin 16) (k : Nat) :
    P (s.linkHostSend n k) := by
  have h1 := h.mono (B := [.regs, .evq]) (by decide)
  unfold State.linkHostSend
  extract_lets
  repeat' first
    | (with_reducible assumption)
    | (with_reducible apply State.linkBegin_free h)
    | (with_reducible apply State.raise_free h1)
    | (with_reducible refine Free.ite (fun _ => ?_) (fun _ => ?_))

theorem State.enumOver_free {P : State → Prop} (h : Free P [.regs, .evq, .link]) {s : State} (hs : P s) (n : Fin 16) :
    P (s.enumOver n) := by
  have h1 := h.mono (B := [.regs, .evq]) (by decide)
  unfold State.enumOver
  extract_lets
  repeat' first
    | (with_reducible assumption)
    | (with_reducible apply State.longEnd_free h1)
    | (with_reducible refine Free.ite (fun _ => ?_) (fun _ => ?_))
    | (with_reducible refine (h.link (by decide) _ ?_))

theorem State.maintEnd_free {P : State → Prop} (h : Free P [.regs, .evq, .fault, .link]) {s : State} (hs : P s) (n : Fin 16) :
    P (s.maintEnd n) := by
  have h1 := h.mono (B := [.regs, .evq, .link]) (by decide)
  have h2 := h.mono (B := [.regs, .fault]) (by decide)
  have h3 := h.mono (B := [.regs]) (by decide)
  have h4 := h.mono (B := [.regs, .evq]) (by decide)
  have h5 := h.mono (B := [.regs, .link]) (by decide)
  unfold State.maintEnd
  extract_lets
  repeat' first
    | (with_reducible assumption)
    | (with_reducible apply State.enumOver_free h1)
    | (with_reducible apply State.err_free h2)
    | (with_reducible apply State.put_free h3)
    | (with_reducible apply State.raise_free h4)
    | (with_reducible apply State.setLk_free h5)
    | (with_reducible apply State.syncReach_free h3)
    | (with_reducible refine Free.ite (fun _ => ?_) (fun _ => ?_))
    | split

theorem State.compNext_free {P : State → Prop} (h : Free P [.regs, .mem, .evq, .fault, .link]) {s : State} (hs : P s) (n : Fin 16) :
    P (s.compNext n) := by
  have h1 := h.mono (B := [.regs, .mem, .evq, .link]) (by decide)
  have h2 := h.mono (B := [.regs, .evq, .fault, .link]) (by decide)
  have h3 := h.mono (B := [.regs]) (by decide)
  have h4 := h.mono (B := [.regs, .link]) (by decide)
  unfold State.compNext
  extract_lets
  repeat' first
    | (with_reducible assumption)
    | (with_reducible apply State.linkStep_free h1)
    | (with_reducible apply State.maintEnd_free h2)
    | (with_reducible apply State.put_free h3)
    | (with_reducible apply State.setLk_free h4)
    | split

theorem State.pingNext_free {P : State → Prop} (h : Free P [.regs, .mem, .evq, .fault, .link]) {s : State} (hs : P s) (n : Fin 16) :
    P (s.pingNext n) := by
  have h1 := h.mono (B := [.regs, .mem, .evq, .link]) (by decide)
  have h2 := h.mono (B := [.regs, .link]) (by decide)
  unfold State.pingNext
  extract_lets
  repeat' first
    | (with_reducible assumption)
    | (with_reducible apply State.compNext_free h)
    | (with_reducible apply State.sendPing_free h1)
    | (with_reducible apply State.setLk_free h2)
    | split

theorem State.linkMeasure_free {P : State → Prop} (h : Free P [.regs, .mem, .evq, .fault, .link]) {s : State} (hs : P s) (n : Fin 16) :
    P (s.linkMeasure n) := by
  have h1 := h.mono (B := [.regs, .link]) (by decide)
  unfold State.linkMeasure
  extract_lets
  repeat' first
    | (with_reducible assumption)
    | (with_reducible apply State.pingNext_free h)
    | (with_reducible apply State.setLk_free h1)
    | (with_reducible refine Free.ite (fun _ => ?_) (fun _ => ?_))

theorem State.linkCmd_free {P : State → Prop} (h : Free P [.regs, .mem, .evq, .fault, .link]) {s : State} (hs : P s) (n : Fin 16) (v : Nat) :
    P (s.linkCmd n v) := by
  have h1 := h.mono (B := [.regs, .mem, .evq, .link]) (by decide)
  unfold State.linkCmd
  repeat' first
    | (with_reducible assumption)
    | (with_reducible apply State.linkEnumerate_free h1)
    | (with_reducible apply State.linkHostSend_free h)
    | (with_reducible apply State.linkMeasure_free h)
    | (with_reducible refine Free.ite (fun _ => ?_) (fun _ => ?_))
    | split

theorem State.selOvr_free {P : State → Prop} (h : Free P [.regs, .mem, .evq, .link]) {s : State} (hs : P s) (n : Fin 16) (v : Nat) :
    P (s.selOvr n v) := by
  unfold State.selOvr
  repeat' first
    | (with_reducible assumption)
    | (with_reducible apply State.setSel_free h)
    | (with_reducible refine Free.ite (fun _ => ?_) (fun _ => ?_))

theorem State.linkCut_free {P : State → Prop} (h : Free P [.regs, .evq, .link]) {s : State} (hs : P s) (n : Fin 16) :
    P (s.linkCut n) := by
  have h1 := h.mono (B := [.regs, .link]) (by decide)
  unfold State.linkCut
  extract_lets
  repeat' first
    | (with_reducible assumption)
    | (with_reducible apply State.enumOver_free h)
    | (with_reducible apply State.setLk_free h1)
    | (with_reducible refine Free.ite (fun _ => ?_) (fun _ => ?_))

theorem State.linkFuncReset_free {P : State → Prop} (h : Free P [.regs, .evq, .link]) {s : State} (hs : P s) (n : Fin 16) :
    P (s.linkFuncReset n) := by
  unfold State.linkFuncReset
  extract_lets
  repeat' first
    | (with_reducible assumption)
    | (with_reducible apply State.linkCut_free h)
    | (with_reducible refine Free.ite (fun _ => ?_) (fun _ => ?_))

theorem State.safeDeselect_free {P : State → Prop} (h : Free P [.regs, .mem, .evq, .link]) {s : State} (hs : P s) (n : Fin 16) :
    P (s.safeDeselect n) := by
  have h1 := h.mono (B := [.regs, .evq, .link]) (by decide)
  have h2 := h.mono (B := [.regs, .mem]) (by decide)
  have h3 := h.mono (B := [.regs, .evq]) (by decide)
  have h4 := h.mono (B := [.regs, .link]) (by decide)
  unfold State.safeDeselect
  extract_lets
  repeat' first
    | (with_reducible assumption)
    | (with_reducible apply State.linkAttempt_free h)
    | (with_reducible apply State.linkCut_free h1)
    | (with_reducible apply State.linkReport_free h2)
    | (with_reducible apply State.raiseIf_free h3)
    | (with_reducible apply State.setLk_free h4)
    | (with_reducible refine Free.ite (fun _ => ?_) (fun _ => ?_))

theorem State.searchEnd_free {P : State → Prop} (h : Free P [.regs, .mem, .evq, .fault, .link]) {s : State} (hs : P s) (n : Fin 16) :
    P (s.searchEnd n) := by
  have h1 := h.mono (B := [.regs]) (by decide)
  have h2 := h.mono (B := [.regs, .link]) (by decide)
  unfold State.searchEnd
  extract_lets
  repeat' first
    | (with_reducible assumption)
    | (with_reducible apply State.compNext_free h)
    | (with_reducible apply State.put_free h1)
    | (with_reducible apply State.setLk_free h2)
    | (with_reducible apply State.syncReach_free h1)

theorem State.linkTx_free {P : State → Prop} (h : Free P [.regs, .mem, .evq, .fault, .link]) {s : State} (hs : P s) (n : Fin 16) (k : Nat) (node : Nat) (tick : Nat) :
    P (s.linkTx n k node tick).2 := by
  unfold State.linkTx
  extract_lets
  repeat' first
    | (with_reducible assumption)
    | (with_reducible apply State.linkBegin_free h)

theorem State.searchArmB_free {P : State → Prop} (h : Free P [.regs, .mem, .evq, .fault, .link]) {s : State} (hs : P s) (n : Fin 16) :
    P (s.searchArmB n) := by
  have h1 := h.mono (B := [.regs, .mem, .evq, .link]) (by decide)
  have h2 := h.mono (B := [.regs, .link]) (by decide)
  unfold State.searchArmB
  extract_lets
  repeat' first
    | (with_reducible assumption)
    | (with_reducible apply State.searchEnd_free h)
    | (with_reducible apply State.sendPing_free h1)
    | (with_reducible apply State.setLk_free h2)
    | (with_reducible refine Free.ite (fun _ => ?_) (fun _ => ?_))

theorem State.deselEnd_free {P : State → Prop} (h : Free P [.regs, .evq, .fault, .link]) {s : State} (hs : P s) (n : Fin 16) :
    P (s.deselEnd n) := by
  have h1 := h.mono (B := [.regs, .fault]) (by decide)
  have h2 := h.mono (B := [.regs, .evq]) (by decide)
  have h3 := h.mono (B := [.regs, .link]) (by decide)
  unfold State.deselEnd
  extract_lets
  repeat' first
    | (with_reducible assumption)
    | (with_reducible apply State.err_free h1)
    | (with_reducible apply State.raise_free h2)
    | (with_reducible apply State.setLk_free h3)
    | (with_reducible refine Free.ite (fun _ => ?_) (fun _ => ?_))

theorem State.deselNext_free {P : State → Prop} (h : Free P [.regs, .mem, .evq, .fault, .link]) {s : State} (hs : P s) (n : Fin 16) :
    P (s.deselNext n) := by
  have h1 := h.mono (B := [.regs, .evq, .fault, .link]) (by decide)
  have h2 := h.mono (B := [.regs, .mem, .evq, .link]) (by decide)
  have h3 := h.mono (B := [.regs, .link]) (by decide)
  unfold State.deselNext
  extract_lets
  repeat' first
    | (with_reducible assumption)
    | (with_reducible apply State.deselEnd_free h1)
    | (with_reducible apply State.linkAttempt_free h2)
    | (with_reducible apply State.setLk_free h3)
    | (with_reducible refine Free.ite (fun _ => ?_) (fun _ => ?_))
    | split

theorem State.collectDone_free {P : State → Prop} (h : Free P [.regs, .evq, .link]) {s : State} (hs : P s) (n : Fin 16) (got : List Nat) :
    P (s.collectDone n got) := by
  have h1 := h.mono (B := [.regs, .evq]) (by decide)
  have h2 := h.mono (B := [.regs, .link]) (by decide)
  unfold State.collectDone
  extract_lets
  repeat' first
    | (with_reducible assumption)
    | (with_reducible apply State.raiseIf_free h1)
    | (with_reducible apply State.setLk_free h2)
    | (with_reducible refine Free.foldl _ (fun _ _ _ => ?_) ?_)

theorem State.healJudge_free {P : State → Prop} (h : Free P [.regs, .mem, .evq, .fault, .link]) {s : State} (hs : P s) (n : Fin 16) (ok : Bool) :
    P (s.healJudge n ok) := by
  have h1 := h.mono (B := [.regs, .link]) (by decide)
  unfold State.healJudge
  extract_lets
  repeat' first
    | (with_reducible assumption)
    | (with_reducible apply State.pingNext_free h)
    | (with_reducible apply State.setLk_free h1)
    | (with_reducible refine Free.ite (fun _ => ?_) (fun _ => ?_))

theorem State.healProbe_free {P : State → Prop} (h : Free P [.regs, .mem, .evq, .fault, .link]) {s : State} (hs : P s) (n : Fin 16) :
    P (s.healProbe n) := by
  unfold State.healProbe
  extract_lets
  repeat' first
    | (with_reducible assumption)
    | (with_reducible apply State.linkBegin_free h)
    | (with_reducible refine Free.ite (fun _ => ?_) (fun _ => ?_))

theorem State.searchBegin_free {P : State → Prop} (h : Free P [.regs, .mem, .evq, .link]) {s : State} (hs : P s) (n : Fin 16) :
    P (s.searchBegin n) := by
  have h1 := h.mono (B := [.regs]) (by decide)
  have h2 := h.mono (B := [.regs, .link]) (by decide)
  unfold State.searchBegin
  extract_lets
  repeat' first
    | (with_reducible assumption)
    | (with_reducible apply State.put_free h1)
    | (with_reducible apply State.sendPing_free h)
    | (with_reducible apply State.setLk_free h2)

theorem State.linkFinish_free {P : State → Prop} (h : Free P [.regs, .mem, .evq, .fault, .link]) {s : State} (hs : P s) (n : Fin 16) (outcome : Nat) (lost : Bool) :
    P (s.linkFinish n outcome lost) := by
  have h1 := h.mono (B := [.regs, .evq, .link]) (by decide)
  have h2 := h.mono (B := [.regs, .fault, .link]) (by decide)
  have h3 := h.mono (B := [.regs, .mem]) (by decide)
  have h4 := h.mono (B := [.regs, .evq]) (by decide)
  have h5 := h.mono (B := [.regs, .mem, .evq, .link]) (by decide)
  have h6 := h.mono (B := [.regs, .link]) (by decide)
  unfold State.linkFinish
  extract_lets
  repeat' first
    | (with_reducible assumption)
    | (with_reducible apply State.collectDone_free h1)
    | (with_reducible apply State.healJudge_free h)
    | (with_reducible apply State.healProbe_free h)
    | (with_reducible apply State.linkGoStale_free h2)
    | (with_reducible apply State.linkReport_free h3)
    | (with_reducible apply State.raise_free h4)
    | (with_reducible apply State.searchBegin_free h5)
    | (with_reducible apply State.setLk_free h6)
    | (with_reducible refine Free.ite (fun _ => ?_) (fun _ => ?_))

theorem State.countUp_free {P : State → Prop} (h : Free P [.regs]) {s : State} (hs : P s) (f : Fld) :
    P (s.countUp f) := by
  unfold State.countUp
  repeat' first
    | (with_reducible assumption)
    | (with_reducible apply State.put_free h)

theorem State.enumJudge_free {P : State → Prop} (h : Free P [.regs, .mem, .evq, .fault, .link]) {s : State} (hs : P s) (n : Fin 16) (loop : Bool) :
    P (s.enumJudge n loop) := by
  have h1 := h.mono (B := [.regs, .evq, .fault, .link]) (by decide)
  have h2 := h.mono (B := [.regs]) (by decide)
  have h3 := h.mono (B := [.regs, .link]) (by decide)
  have h4 := h.mono (B := [.regs, .mem, .evq, .link]) (by decide)
  unfold State.enumJudge
  extract_lets
  repeat' first
    | (with_reducible assumption)
    | (with_reducible apply State.maintEnd_free h1)
    | (with_reducible apply State.pingNext_free h)
    | (with_reducible apply State.put_free h2)
    | (with_reducible apply State.setLk_free h3)
    | (with_reducible apply State.setSel_free h4)
    | (with_reducible refine Free.ite (fun _ => ?_) (fun _ => ?_))

theorem State.sendProbe_free {P : State → Prop} (h : Free P [.regs, .mem, .evq, .link]) {s : State} (hs : P s) (n : Fin 16) (armB : Bool) (p : Nat) :
    P (s.sendProbe n armB p) := by
  have h1 := h.mono (B := [.regs, .link]) (by decide)
  unfold State.sendProbe
  extract_lets
  repeat' first
    | (with_reducible assumption)
    | (with_reducible apply State.linkStep_free h)
    | (with_reducible apply State.setLk_free h1)

theorem State.probeEnd_free {P : State → Prop} (h : Free P [.regs, .mem, .evq, .fault, .link]) {s : State} (hs : P s) (n : Fin 16) :
    P (s.probeEnd n) := by
  have h1 := h.mono (B := [.regs, .mem, .evq, .link]) (by decide)
  unfold State.probeEnd
  repeat' first
    | (with_reducible assumption)
    | (with_reducible apply State.enumJudge_free h)
    | (with_reducible apply State.sendProbe_free h1)
    | (with_reducible refine Free.ite (fun _ => ?_) (fun _ => ?_))

theorem State.searchNext_free {P : State → Prop} (h : Free P [.regs, .mem, .evq, .fault, .link]) {s : State} (hs : P s) (n : Fin 16) (ok : Bool) :
    P (s.searchNext n ok) := by
  have h1 := h.mono (B := [.regs]) (by decide)
  have h2 := h.mono (B := [.regs, .mem, .evq, .link]) (by decide)
  have h3 := h.mono (B := [.regs, .link]) (by decide)
  unfold State.searchNext
  extract_lets
  repeat' first
    | (with_reducible assumption)
    | (with_reducible apply State.put_free h1)
    | (with_reducible apply State.searchArmB_free h)
    | (with_reducible apply State.searchEnd_free h)
    | (with_reducible apply State.sendPing_free h2)
    | (with_reducible apply State.setLk_free h3)
    | (with_reducible refine Free.ite (fun _ => ?_) (fun _ => ?_))

theorem State.maintNext_free {P : State → Prop} (h : Free P [.regs, .mem, .evq, .fault, .link]) {s : State} (hs : P s) (n : Fin 16) (ok : Bool) :
    P (s.maintNext n ok) := by
  have h1 := h.mono (B := [.regs, .mem, .evq, .link]) (by decide)
  have h2 := h.mono (B := [.regs, .link]) (by decide)
  unfold State.maintNext
  extract_lets
  repeat' first
    | (with_reducible assumption)
    | (with_reducible apply State.compNext_free h)
    | (with_reducible apply State.enumJudge_free h)
    | (with_reducible apply State.linkStep_free h1)
    | (with_reducible apply State.pingNext_free h)
    | (with_reducible apply State.probeEnd_free h)
    | (with_reducible apply State.searchNext_free h)
    | (with_reducible apply State.sendProbe_free h1)
    | (with_reducible apply State.setLk_free h2)
    | (with_reducible refine Free.ite (fun _ => ?_) (fun _ => ?_))
    | split

theorem State.linkJudge_free {P : State → Prop} (h : Free P [.regs, .mem, .evq, .fault, .link]) {s : State} (hs : P s) (n : Fin 16) (fits : Bool) :
    P (s.linkJudge n fits) := by
  have h1 := h.mono (B := [.regs]) (by decide)
  have h2 := h.mono (B := [.regs, .fault]) (by decide)
  have h3 := h.mono (B := [.regs, .mem, .evq, .link]) (by decide)
  have h4 := h.mono (B := [.regs, .evq]) (by decide)
  unfold State.linkJudge
  extract_lets
  repeat' first
    | (with_reducible assumption)
    | (with_reducible apply State.countUp_free h1)
    | (with_reducible apply State.err_free h2)
    | (with_reducible apply State.linkAttempt_free h3)
    | (with_reducible apply State.linkFinish_free h)
    | (with_reducible apply State.maintNext_free h)
    | (with_reducible apply State.raise_free h4)
    | (with_reducible apply State.searchBegin_free h3)
    | (with_reducible refine Free.ite (fun _ => ?_) (fun _ => ?_))

theorem State.windowClose_free {P : State → Prop} (h : Free P [.regs, .mem, .evq, .fault, .link]) {s : State} (hs : P s) (n : Fin 16) (fits : Bool) :
    P (s.windowClose n fits) := by
  have h1 := h.mono (B := [.regs]) (by decide)
  have h2 := h.mono (B := [.regs, .link]) (by decide)
  unfold State.windowClose
  extract_lets
  repeat' first
    | (with_reducible assumption)
    | (with_reducible apply State.deselNext_free h)
    | (with_reducible apply State.injTake_free h1)
    | (with_reducible apply State.linkJudge_free h)
    | (with_reducible apply State.setLk_free h2)
    | (with_reducible refine Free.ite (fun _ => ?_) (fun _ => ?_))

theorem State.linkStale_free {P : State → Prop} (h : Free P [.regs, .fault, .link]) {s : State} (hs : P s) (n : Fin 16) :
    P (s.linkStale n) := by
  have h1 := h.mono (B := [.regs, .link]) (by decide)
  unfold State.linkStale
  extract_lets
  repeat' first
    | (with_reducible assumption)
    | (with_reducible apply State.linkGoStale_free h)
    | (with_reducible apply State.setLk_free h1)
    | (with_reducible refine Free.ite (fun _ => ?_) (fun _ => ?_))

theorem State.linkRound_free {P : State → Prop} (h : Free P [.link]) {s : State} (hs : P s) (n : Fin 16) :
    P (s.linkRound n) := by
  unfold State.linkRound
  extract_lets
  repeat' first
    | (with_reducible assumption)
    | (with_reducible refine (h.link (by decide) _ ?_))

theorem State.deselRetry_free {P : State → Prop} (h : Free P [.regs, .mem, .evq, .fault, .link]) {s : State} (hs : P s) (n : Fin 16) :
    P (s.deselRetry n) := by
  have h1 := h.mono (B := [.regs, .evq, .fault, .link]) (by decide)
  have h2 := h.mono (B := [.regs, .link]) (by decide)
  unfold State.deselRetry
  extract_lets
  repeat' first
    | (with_reducible assumption)
    | (with_reducible apply State.deselEnd_free h1)
    | (with_reducible apply State.deselNext_free h)
    | (with_reducible apply State.setLk_free h2)
    | (with_reducible refine Free.ite (fun _ => ?_) (fun _ => ?_))

theorem State.linkCome_free {P : State → Prop} (h : Free P [.regs, .link]) {s : State} (hs : P s) (n : Fin 16) (pairB : Bool) (bad : Bool) :
    P (s.linkCome n pairB bad) := by
  unfold State.linkCome
  extract_lets
  repeat' first
    | (with_reducible assumption)
    | (with_reducible apply State.setLk_free h)

theorem State.segReport_free {P : State → Prop} (h : Free P [.regs, .mem, .evq, .fault, .link]) {s : State} (hs : P s) (n : Fin 16) (typ : Nat) (fetch : Bool) (seg : List Byte) :
    P (s.segReport n typ fetch seg) := by
  have h1 := h.mono (B := [.regs, .fault]) (by decide)
  have h2 := h.mono (B := [.regs, .evq]) (by decide)
  have h3 := h.mono (B := [.regs, .mem, .evq, .link]) (by decide)
  unfold State.segReport
  extract_lets
  repeat' first
    | (with_reducible assumption)
    | (with_reducible apply State.err_free h1)
    | (with_reducible apply State.raiseIf_free h2)
    | (with_reducible apply State.setSel_free h3)
    | (with_reducible refine Free.ite (fun _ => ?_) (fun _ => ?_))
    | split

theorem State.segTake_free {P : State → Prop} (h : Free P [.regs, .mem, .evq, .fault, .link]) {s : State} (hs : P s) (n : Fin 16) (seg : List Byte) (good : Bool) :
    P (s.segTake n seg good) := by
  have h1 := h.mono (B := [.regs]) (by decide)
  have h2 := h.mono (B := [.mem]) (by decide)
  have h3 := h.mono (B := [.regs, .link]) (by decide)
  unfold State.segTake
  extract_lets
  repeat' first
    | (with_reducible assumption)
    | (with_reducible apply State.countUp_free h1)
    | (with_reducible apply State.putBytes_free h2)
    | (with_reducible apply State.segReport_free h)
    | (with_reducible apply State.setLk_free h3)
    | (with_reducible refine Free.ite (fun _ => ?_) (fun _ => ?_))
    | split
    | dsimp +zetaDelta only

theorem State.takeDelay_free {P : State → Prop} (h : Free P [.regs, .link]) {s : State} (hs : P s) (n : Fin 16) (k : Nat) (rt : Nat) :
    P (s.takeDelay n k rt) := by
  have h1 := h.mono (B := [.regs]) (by decide)
  unfold State.takeDelay
  extract_lets
  repeat' first
    | (with_reducible assumption)
    | (with_reducible apply State.put_free h1)
    | (with_reducible apply State.setLk_free h)

theorem State.linkTake_free {P : State → Prop} (h : Free P [.regs, .mem, .evq, .fault, .link]) {s : State} (hs : P s) (n : Fin 16) (pairB : Bool) (rt : Nat) (bs : List Byte) (inj : Bool) (fits : Bool) :
    P (s.linkTake n pairB rt bs inj fits) := by
  have h1 := h.mono (B := [.regs]) (by decide)
  have h2 := h.mono (B := [.regs, .link]) (by decide)
  unfold State.linkTake
  extract_lets
  repeat' first
    | (with_reducible assumption)
    | (with_reducible apply State.countUp_free h1)
    | (with_reducible apply State.linkCome_free h2)
    | (with_reducible apply State.linkJudge_free h)
    | (with_reducible apply State.put_free h1)
    | (with_reducible apply State.segTake_free h)
    | (with_reducible apply State.setLk_free h2)
    | (with_reducible apply State.takeDelay_free h2)
    | (with_reducible refine Free.ite (fun _ => ?_) (fun _ => ?_))
    | (with_reducible refine Free.foldl _ (fun _ _ _ => ?_) ?_)

theorem State.loopDelay_free {P : State → Prop} (h : Free P [.regs, .evq]) {s : State} (hs : P s) (n : Fin 16) (rt : Nat) :
    P (s.loopDelay n rt) := by
  have h1 := h.mono (B := [.regs]) (by decide)
  unfold State.loopDelay
  extract_lets
  repeat' first
    | (with_reducible assumption)
    | (with_reducible apply State.put_free h1)
    | (with_reducible apply State.raiseIf_free h)
    | (with_reducible refine Free.ite (fun _ => ?_) (fun _ => ?_))

theorem State.deselReturn_free {P : State → Prop} (h : Free P [.regs, .mem, .evq, .fault, .link]) {s : State} (hs : P s) (n : Fin 16) (bs : List Byte) (inj : Bool) :
    P (s.deselReturn n bs inj) := by
  have h1 := h.mono (B := [.regs]) (by decide)
  have h2 := h.mono (B := [.regs, .link]) (by decide)
  unfold State.deselReturn
  extract_lets
  repeat' first
    | (with_reducible assumption)
    | (with_reducible apply State.countUp_free h1)
    | (with_reducible apply State.segReport_free h)
    | (with_reducible apply State.setLk_free h2)
    | (with_reducible refine Free.ite (fun _ => ?_) (fun _ => ?_))
    | (with_reducible refine Free.foldl _ (fun _ _ _ => ?_) ?_)

theorem State.linkReturn_free {P : State → Prop} (h : Free P [.regs, .mem, .evq, .fault, .link]) {s : State} (hs : P s) (n : Fin 16) (pairB : Bool) (rt : Nat) (bs : List Byte) (fits : Bool) :
    P (s.linkReturn n pairB rt bs fits) := by
  have h1 := h.mono (B := [.regs]) (by decide)
  have h2 := h.mono (B := [.regs, .link]) (by decide)
  have h3 := h.mono (B := [.regs, .evq]) (by decide)
  unfold State.linkReturn
  extract_lets
  repeat' first
    | (with_reducible assumption)
    | (with_reducible apply State.deselNext_free h)
    | (with_reducible apply State.deselReturn_free h)
    | (with_reducible apply State.injTake_free h1)
    | (with_reducible apply State.linkCome_free h2)
    | (with_reducible apply State.linkJudge_free h)
    | (with_reducible apply State.linkTake_free h)
    | (with_reducible apply State.loopDelay_free h3)
    | (with_reducible apply State.setLk_free h2)
    | (with_reducible refine Free.ite (fun _ => ?_) (fun _ => ?_))

end Sys2Proof.Machine
end

