-- ==== Sys2Proof/Laws/StableHealth.lean ====
section
/-! SUPPORT. Which parts of the state the operations of Machine/Health.lean may change: a property that stands whatever becomes of those
parts stands after the operation. -/

namespace Sys2Proof.Machine

theorem State.toneCell_free {P : State → Prop} (h : Free P [.mem]) {s : State} (hs : P s) (n : Fin 16) (k : Nat) (f : Nat) (nt : Nat) (pinc : Nat) (j : Nat) :
    P (s.toneCell n k f nt pinc j) := by
  unfold State.toneCell
  extract_lets
  repeat' first
    | (with_reducible assumption)
    | (with_reducible apply State.storeCell_free h)
    | (with_reducible refine Free.ite (fun _ => ?_) (fun _ => ?_))

theorem State.toneEnd_free {P : State → Prop} (h : Free P [.regs, .mem, .evq]) {s : State} (hs : P s) (n : Fin 16) (first : Nat) (count : Nat) (k : Nat) (f : Nat) (r : Nat) (nt : Nat) :
    P (s.toneEnd n first count k f r nt) := by
  have h1 := h.mono (B := [.mem]) (by decide)
  have h2 := h.mono (B := [.regs]) (by decide)
  have h3 := h.mono (B := [.regs, .evq]) (by decide)
  unfold State.toneEnd
  extract_lets
  repeat' first
    | (with_reducible assumption)
    | (with_reducible apply State.bump_free h1)
    | (with_reducible apply State.injTake_free h2)
    | (with_reducible apply State.put_free h2)
    | (with_reducible apply State.raise_free h3)
    | (with_reducible apply State.toneCell_free h1)
    | (with_reducible refine Free.ite (fun _ => ?_) (fun _ => ?_))
    | (with_reducible refine Free.foldl _ (fun _ _ _ => ?_) ?_)

theorem State.healthReset_free {P : State → Prop} (h : Free P [.regs, .evq]) {s : State} (hs : P s) :
    P (s.healthReset) := by
  unfold State.healthReset
  repeat' first
    | (with_reducible assumption)
    | (with_reducible apply State.toneAbort_free h)
    | (with_reducible refine Free.ite (fun _ => ?_) (fun _ => ?_))
    | (with_reducible refine Free.foldl _ (fun _ _ _ => ?_) ?_)

theorem State.toneStart_free {P : State → Prop} (h : Free P [.regs, .mem, .evq, .est]) {s : State} (hs : P s) (n : Fin 16) :
    P (s.toneStart n) := by
  have h1 := h.mono (B := [.regs]) (by decide)
  have h2 := h.mono (B := [.regs, .evq]) (by decide)
  have h3 := h.mono (B := [.est]) (by decide)
  have h4 := h.mono (B := [.mem]) (by decide)
  unfold State.toneStart
  extract_lets
  repeat' first
    | (with_reducible assumption)
    | (with_reducible apply State.put_free h1)
    | (with_reducible apply State.raise_free h2)
    | (with_reducible apply State.setEs_free h3)
    | (with_reducible apply State.zeroRange_free h4)
    | (with_reducible refine Free.ite (fun _ => ?_) (fun _ => ?_))
    | split

theorem flushWord_free {P : State → Prop} (h : Free P [.mem]) (p : State × Nat) (a : Nat) (v : Nat) (hs : P p.1) : P (flushWord p a v).1 := by
  unfold flushWord
  repeat' first
    | (with_reducible assumption)
    | (with_reducible apply State.store_free h)
    | split

theorem flushCell_free {P : State → Prop} (h : Free P [.mem]) (p : State × Nat) (i : Nat) (hs : P p.1) : P (flushCell p i).1 := by
  unfold flushCell
  extract_lets
  repeat' first
    | (with_reducible assumption)
    | (with_reducible apply State.store_free h)
    | (with_reducible apply flushWord_free h)

theorem flushMod_free {P : State → Prop} (h : Free P [.mem]) (p : State × Nat) (n : Nat) (m : Nat) (hs : P p.1) : P (flushMod p n m).1 := by
  unfold flushMod
  extract_lets
  repeat' first
    | (with_reducible assumption)
    | (with_reducible apply State.store_free h)
    | (with_reducible apply flushWord_free h)

theorem State.lifeCheck_free {P : State → Prop} (h : Free P [.regs, .fault, .est]) {s : State} (hs : P s) :
    P (s.lifeCheck) := by
  have h1 := h.mono (B := [.regs, .fault]) (by decide)
  have h2 := h.mono (B := [.regs]) (by decide)
  unfold State.lifeCheck
  extract_lets
  repeat' first
    | (with_reducible assumption)
    | (with_reducible apply State.err_free h1)
    | (with_reducible apply State.put_free h2)
    | (with_reducible refine Free.ite (fun _ => ?_) (fun _ => ?_))
    | (with_reducible refine (h.est (by decide) _ ?_))

theorem State.demodSet_free {P : State → Prop} (h : Free P [.mem]) {s : State} (hs : P s) (n : Fin 16) (first : Nat) (count : Nat) (m : Nat) (i : Nat) (pinc : Nat) (a : Nat) :
    P (s.demodSet n first count m i pinc a) := by
  unfold State.demodSet
  extract_lets
  repeat' first
    | (with_reducible assumption)
    | (with_reducible apply State.storeI_free h)
    | (with_reducible refine Free.ite (fun _ => ?_) (fun _ => ?_))
    | (with_reducible refine Free.foldl _ (fun _ _ _ => ?_) ?_)

theorem State.retireModule_free {P : State → Prop} (h : Free P [.regs, .mem, .evq]) {s : State} (hs : P s) (n : Nat) (m : Nat) :
    P (s.retireModule n m) := by
  have h1 := h.mono (B := [.regs, .evq]) (by decide)
  have h2 := h.mono (B := [.mem]) (by decide)
  unfold State.retireModule
  extract_lets
  repeat' first
    | (with_reducible assumption)
    | (with_reducible apply State.raise_free h1)
    | (with_reducible apply State.zeroRange_free h2)

theorem flushAcc_free {P : State → Prop} (h : Free P [.mem]) (p : State × Nat) (acc : Nat) (n : Nat) (unit : Nat) (a : Nat) (hs : P p.1) : P (flushAcc p acc n unit a).1 := by
  unfold flushAcc
  extract_lets
  repeat' first
    | (with_reducible assumption)
    | (with_reducible apply State.store_free h)
    | (with_reducible apply flushWord_free h)

theorem flushCells_free {P : State → Prop} (h : Free P [.mem]) (n i : Nat) (p : State × Nat) (hs : P p.1) :
    P (flushCells n i p).2.1 := by
  induction n generalizing i p with
  | zero => exact hs
  | succ n ih =>
    unfold flushCells
    split
    · exact hs
    · exact ih _ _ (flushCell_free h p i hs)

theorem flushChan_free {P : State → Prop} (h : Free P [.mem]) (p : State × Nat) (n : Nat) (hs : P p.1) : P (flushChan p n).1 := by
  unfold flushChan
  extract_lets
  repeat' first
    | (with_reducible assumption)
    | (with_reducible apply flushAcc_free h)

theorem State.flush_free {P : State → Prop} (h : Free P [.regs, .mem, .evq, .fault, .est]) {s : State} (hs : P s) (retire : Option (Nat × Nat)) (bad : List Nat) (verify : Bool) :
    P (s.flush retire bad verify) := by
  have h1 := h.mono (B := [.regs, .fault]) (by decide)
  have h2 := h.mono (B := [.regs]) (by decide)
  have h3 := h.mono (B := [.regs, .evq]) (by decide)
  have h4 := h.mono (B := [.regs, .mem, .evq]) (by decide)
  have h5 := h.mono (B := [.mem]) (by decide)
  unfold State.flush
  extract_lets inj s0 isBad s1 s2 z ze s3 s4 p1 p2 p3 p4 p5 p6 res next p7 y ye s5 s6 s7 s8
  have e1 : P s1 := Free.ite (fun _ => State.err_free h1 (State.injTake_free h2 hs ..) ..) (fun _ => State.injTake_free h2 hs ..)
  clear_value s1
  have e2 : P s2 := Free.foldl _ (fun t a ht => Free.ite (fun _ => State.store_free h5 ht ..) (fun _ => ht)) e1
  clear_value s2
  have e3 : P s3 := by
    unfold s3
    with_reducible refine Free.ite (fun _ => ?_) (fun _ => e2)
    with_reducible refine h.est (by decide) _ ?_
    with_reducible exact State.zeroRange_free h5 e2 0x240000 0x20000
  clear_value s3
  have e4 : P s4 := by
    unfold s4
    split
    · exact State.retireModule_free h4 e3 ..
    · exact e3
  clear_value s4
  have f1 : P p1.1 := Free.foldl_fst _ (fun t a ht => flushChan_free h5 _ _ ht) e4
  clear_value p1
  have f2 : P p2.1 := Free.foldl_fst _ (fun t a ht => flushAcc_free h5 _ _ _ _ _ ht) f1
  clear_value p2
  have f3 : P p3.1 := Free.foldl_fst _ (fun t a ht => flushAcc_free h5 _ _ _ _ _ ht) f2
  clear_value p3
  have f4 : P p4.1 := Free.foldl_fst _ (fun t a ht => flushAcc_free h5 _ _ _ _ _ ht) f3
  clear_value p4
  have f5 : P p5.1 := Free.foldl_fst _ (fun t a ht => flushMod_free h5 _ _ _ ht) f4
  clear_value p5
  have f6 : P p6.1 := Free.foldl _ (fun t a ht => State.store_free h5 ht ..) f5
  clear_value p6
  have f7 : P p7.1 := flushCells_free h5 _ _ _ f6
  clear_value p7 next
  have e5 : P s5 := h.est (by decide) _ f7
  clear_value s5
  have e6 : P s6 := State.store_free h5 (State.store_free h5 (State.store_free h5 (State.store_free h5 e5 ..) ..) ..) ..
  clear_value s6
  have e7 : P s7 := State.put_free h2 e6 ..
  clear_value s7
  have e8 : P s8 := Free.ite (fun _ => e7) (fun _ => State.errI_free h1 e7 ..)
  clear_value s8
  exact State.raise_free h3 e8 ..

theorem State.demodSets_free {P : State → Prop} (h : Free P [.regs, .mem, .evq]) {s : State} (hs : P s) (n : Fin 16) (first : Nat) (count : Nat) (m : Nat) (k : Nat) (f : Nat) (r : Nat) (nt : Nat) (seg : Nat) (x10 : Nat) :
    P (s.demodSets n first count m k f r nt seg x10) := by
  have h1 := h.mono (B := [.mem]) (by decide)
  have h2 := h.mono (B := [.regs]) (by decide)
  have h3 := h.mono (B := [.regs, .evq]) (by decide)
  induction x10 with
  | zero => exact hs
  | succ q ih =>
    unfold State.demodSets
    extract_lets t i sets pinc t1
    have ht1 : P t1 := State.put_free h2 (State.demodSet_free h1 ih ..) ..
    repeat' first
      | (with_reducible assumption)
      | (with_reducible apply State.toneAbort_free h3)
      | (with_reducible apply State.toneEnd_free h)
      | split

theorem State.estDemod_free {P : State → Prop} (h : Free P [.regs, .mem, .evq]) {s : State} (hs : P s) (n : Fin 16) (first : Nat) (count : Nat) :
    P (s.estDemod n first count) := by
  have h1 := h.mono (B := [.regs, .evq]) (by decide)
  unfold State.estDemod
  extract_lets
  repeat' first
    | (with_reducible assumption)
    | (with_reducible apply State.demodSets_free h)
    | (with_reducible apply State.toneAbort_free h1)
    | (with_reducible refine Free.ite (fun _ => ?_) (fun _ => ?_))
    | split

end Sys2Proof.Machine
end

