-- ==== Sys2Proof/Laws/StableImageCheck.lean ====
section
/-! SUPPORT. Which parts of the state the operations of Machine/ImageCheck.lean may change: a property that stands whatever becomes of those
parts stands after the operation. -/

namespace Sys2Proof.Machine

theorem State.checkImage_free {P : State → Prop} (h : Free P [.regs, .fault]) {s : State} (hs : P s) (b : Nat) (readBad : Bool) :
    P (s.checkImage b readBad).2 := by
  have h1 := h.mono (B := [.regs]) (by decide)
  unfold State.checkImage
  extract_lets
  repeat' first
    | (with_reducible assumption)
    | (with_reducible apply State.err_free h)
    | (with_reducible apply State.injTake_free h1)
    | (with_reducible refine Free.ite (fun _ => ?_) (fun _ => ?_))

end Sys2Proof.Machine
end

