-- ==== Sys2Proof/Laws/StableAttic.lean ====
section
/-! SUPPORT. Which parts of the state the operations of Machine/Attic.lean may change: a property that stands whatever becomes of those
parts stands after the operation. -/

namespace Sys2Proof.Machine

theorem State.opStart_free {P : State → Prop} (h : Free P [.regs, .op]) {s : State} (hs : P s) (code : Nat) (op : LongOp) :
    P (s.opStart code op) := by
  have h1 := h.mono (B := [.regs]) (by decide)
  unfold State.opStart
  extract_lets
  repeat' first
    | (with_reducible assumption)
    | (with_reducible apply State.longStart_free h1)
    | (with_reducible refine (h.op (by decide) _ ?_))

theorem State.flushNow_free {P : State → Prop} (h : Free P [.regs, .op, .est]) {s : State} (hs : P s) :
    P (s.flushNow) := by
  have h1 := h.mono (B := [.regs, .op]) (by decide)
  unfold State.flushNow
  extract_lets
  repeat' first
    | (with_reducible assumption)
    | (with_reducible apply State.opStart_free h1)
    | (with_reducible refine Free.ite (fun _ => ?_) (fun _ => ?_))
    | (with_reducible refine (h.est (by decide) _ ?_))

theorem State.ocvStale_free {P : State → Prop} (h : Free P [.regs]) {s : State} (hs : P s) (ofs : Nat) (len : Nat) :
    P (s.ocvStale ofs len) := by
  unfold State.ocvStale
  repeat' first
    | (with_reducible assumption)
    | (with_reducible apply State.put_free h)
    | (with_reducible refine Free.ite (fun _ => ?_) (fun _ => ?_))
    | (with_reducible refine Free.foldl _ (fun _ _ _ => ?_) ?_)

theorem State.relightFail_free {P : State → Prop} (h : Free P [.regs, .evq, .lamp]) {s : State} (hs : P s) (code : Nat) (check : Nat) :
    P (s.relightFail code check) := by
  have h1 := h.mono (B := [.regs]) (by decide)
  have h2 := h.mono (B := [.regs, .evq]) (by decide)
  unfold State.relightFail
  extract_lets
  repeat' first
    | (with_reducible assumption)
    | (with_reducible apply State.put_free h1)
    | (with_reducible apply State.raise_free h2)
    | (with_reducible refine (h.lamp (by decide) _ ?_))

theorem State.bankWritten_free {P : State → Prop} (h : Free P [.regs, .evq, .lamp]) {s : State} (hs : P s) (bank : Nat) :
    P (s.bankWritten bank) := by
  have h1 := h.mono (B := [.regs, .evq]) (by decide)
  have h2 := h.mono (B := [.regs]) (by decide)
  unfold State.bankWritten
  extract_lets
  repeat' first
    | (with_reducible assumption)
    | (with_reducible apply State.level_free h1)
    | (with_reducible apply State.put_free h2)
    | (with_reducible apply State.raise_free h1)
    | (with_reducible apply State.relightFail_free h)
    | (with_reducible refine Free.ite (fun _ => ?_) (fun _ => ?_))

theorem State.imageResult_free {P : State → Prop} (h : Free P [.regs, .evq]) {s : State} (hs : P s) (code : Nat) (check : Nat) :
    P (s.imageResult code check) := by
  have h1 := h.mono (B := [.regs]) (by decide)
  unfold State.imageResult
  extract_lets
  repeat' first
    | (with_reducible assumption)
    | (with_reducible apply State.put_free h1)
    | (with_reducible apply State.raise_free h)
    | (with_reducible refine Free.ite (fun _ => ?_) (fun _ => ?_))

theorem State.segmentEnd_free {P : State → Prop} (h : Free P [.regs, .mem, .evq, .fault, .lamp]) {s : State} (hs : P s) (bank : Nat) (ofs : Nat) (len : Nat) (e : OpEnd) :
    P (s.segmentEnd bank ofs len e) := by
  have h1 := h.mono (B := [.regs, .evq, .lamp]) (by decide)
  have h2 := h.mono (B := [.mem]) (by decide)
  have h3 := h.mono (B := [.regs, .fault]) (by decide)
  have h4 := h.mono (B := [.regs, .evq]) (by decide)
  have h5 := h.mono (B := [.regs]) (by decide)
  unfold State.segmentEnd
  extract_lets
  repeat' first
    | (with_reducible assumption)
    | (with_reducible apply State.bankWritten_free h1)
    | (with_reducible apply State.copyRange_free h2)
    | (with_reducible apply State.errI_free h3)
    | (with_reducible apply State.imageResult_free h4)
    | (with_reducible apply State.injTake_free h5)
    | (with_reducible apply State.longEnd_free h4)
    | (with_reducible refine Free.ite (fun _ => ?_) (fun _ => ?_))

theorem State.setArmed_free {P : State → Prop} (h : Free P [.regs, .mem]) {s : State} (hs : P s) (armed : Bool) :
    P (s.setArmed armed) := by
  have h1 := h.mono (B := [.regs]) (by decide)
  have h2 := h.mono (B := [.mem]) (by decide)
  unfold State.setArmed
  repeat' first
    | (with_reducible assumption)
    | (with_reducible apply State.put_free h1)
    | (with_reducible apply State.store_free h2)

theorem State.journalReplay_free {P : State → Prop} (h : Free P [.regs, .mem, .evq, .fault]) {s : State} (hs : P s) (verifyBad : Bool) (readBad : Bool) :
    P (s.journalReplay verifyBad readBad) := by
  have h1 := h.mono (B := [.mem]) (by decide)
  have h2 := h.mono (B := [.regs, .fault]) (by decide)
  have h3 := h.mono (B := [.regs]) (by decide)
  have h4 := h.mono (B := [.regs, .evq]) (by decide)
  have h5 := h.mono (B := [.regs, .mem]) (by decide)
  unfold State.journalReplay
  extract_lets
  repeat' first
    | (with_reducible assumption)
    | (with_reducible apply State.copyRange_free h1)
    | (with_reducible apply State.err_free h2)
    | (with_reducible apply State.injTake_free h3)
    | (with_reducible apply State.put_free h3)
    | (with_reducible apply State.raise_free h4)
    | (with_reducible apply State.setArmed_free h5)
    | (with_reducible refine Free.ite (fun _ => ?_) (fun _ => ?_))

theorem State.ocvRam_free {P : State → Prop} (h : Free P [.regs, .fault]) {s : State} (hs : P s) (k : Nat) (b : Bool) :
    P (s.ocvRam k b) := by
  have h1 := h.mono (B := [.regs]) (by decide)
  unfold State.ocvRam
  extract_lets
  repeat' first
    | (with_reducible assumption)
    | (with_reducible apply State.err_free h)
    | (with_reducible apply State.put_free h1)
    | (with_reducible refine Free.ite (fun _ => ?_) (fun _ => ?_))

theorem State.ocvEdit_free {P : State → Prop} (h : Free P [.regs, .evq, .fault, .est]) {s : State} (hs : P s) (k : Nat) :
    P (s.ocvEdit k) := by
  have h1 := h.mono (B := [.regs, .fault]) (by decide)
  have h2 := h.mono (B := [.regs, .evq]) (by decide)
  unfold State.ocvEdit
  extract_lets
  repeat' first
    | (with_reducible assumption)
    | (with_reducible apply State.ocvRam_free h1)
    | (with_reducible apply State.raise_free h2)
    | (with_reducible refine Free.ite (fun _ => ?_) (fun _ => ?_))
    | split
    | (with_reducible refine (h.est (by decide) _ ?_))

theorem State.journalWrite_free {P : State → Prop} (h : Free P [.regs, .mem]) {s : State} (hs : P s) (data : List Byte) (ofs : Nat) :
    P (s.journalWrite data ofs) := by
  have h1 := h.mono (B := [.regs]) (by decide)
  have h2 := h.mono (B := [.mem]) (by decide)
  unfold State.journalWrite
  extract_lets
  repeat' first
    | (with_reducible assumption)
    | (with_reducible apply State.put_free h1)
    | (with_reducible apply State.putBytes_free h2)
    | (with_reducible apply State.setArmed_free h)
    | (with_reducible apply State.store_free h2)

theorem State.opAbandon_free {P : State → Prop} (h : Free P [.regs, .mem, .fresh, .op]) {s : State} (hs : P s) :
    P (s.opAbandon) := by
  have h1 := h.mono (B := [.mem]) (by decide)
  have h2 := h.mono (B := [.regs, .mem]) (by decide)
  have h3 := h.mono (B := [.fresh]) (by decide)
  unfold State.opAbandon
  extract_lets
  repeat' first
    | (with_reducible assumption)
    | (with_reducible apply State.copyRange_free h1)
    | (with_reducible apply State.journalWrite_free h2)
    | (with_reducible apply State.setArmed_free h2)
    | (with_reducible apply State.tickFresh_free h3)
    | (with_reducible refine Free.ite (fun _ => ?_) (fun _ => ?_))
    | split
    | (with_reducible refine (h.op (by decide) _ ?_))

theorem State.atticResult_free {P : State → Prop} (h : Free P [.regs, .evq]) {s : State} (hs : P s) (code : Nat) (diff : Nat) :
    P (s.atticResult code diff) := by
  have h1 := h.mono (B := [.regs]) (by decide)
  unfold State.atticResult
  extract_lets
  repeat' first
    | (with_reducible assumption)
    | (with_reducible apply State.put_free h1)
    | (with_reducible apply State.raise_free h)
    | (with_reducible refine Free.ite (fun _ => ?_) (fun _ => ?_))

theorem State.atticCmd_free {P : State → Prop} (h : Free P [.regs, .evq, .op]) {s : State} (hs : P s) (key : Nat) (op : Nat) :
    P (s.atticCmd key op) := by
  have h1 := h.mono (B := [.regs, .evq]) (by decide)
  have h2 := h.mono (B := [.regs, .op]) (by decide)
  unfold State.atticCmd
  extract_lets
  repeat' first
    | (with_reducible assumption)
    | (with_reducible apply State.atticResult_free h1)
    | (with_reducible apply State.opStart_free h2)
    | (with_reducible refine Free.ite (fun _ => ?_) (fun _ => ?_))

theorem State.clearStart_free {P : State → Prop} (h : Free P [.regs, .op]) {s : State} (hs : P s) (string : Option (Fin 16)) :
    P (s.clearStart string) := by
  unfold State.clearStart
  repeat' first
    | (with_reducible assumption)
    | (with_reducible apply State.opStart_free h)

theorem State.flushStart_free {P : State → Prop} (h : Free P [.regs, .op, .est]) {s : State} (hs : P s) (retire : Option (Nat × Nat)) :
    P (s.flushStart retire) := by
  have h1 := h.mono (B := [.regs, .op]) (by decide)
  unfold State.flushStart
  extract_lets
  repeat' first
    | (with_reducible assumption)
    | (with_reducible apply State.opStart_free h1)
    | (with_reducible refine Free.ite (fun _ => ?_) (fun _ => ?_))
    | (with_reducible refine (h.est (by decide) _ ?_))

theorem State.showBank_free {P : State → Prop} (h : Free P [.regs]) {s : State} (hs : P s) (bank : Nat) :
    P (s.showBank bank) := by
  unfold State.showBank
  extract_lets
  repeat' first
    | (with_reducible assumption)
    | (with_reducible apply State.wr_free h)

theorem State.sealState_free {P : State → Prop} (h : Free P [.regs, .mem]) {s : State} (hs : P s) (bank : Nat) (v : Nat) :
    P (s.sealState bank v) := by
  have h1 := h.mono (B := [.regs]) (by decide)
  have h2 := h.mono (B := [.mem]) (by decide)
  unfold State.sealState
  repeat' first
    | (with_reducible assumption)
    | (with_reducible apply State.showBank_free h1)
    | (with_reducible apply State.store_free h2)

theorem State.imageCmd_free {P : State → Prop} (h : Free P [.regs, .mem, .evq, .op]) {s : State} (hs : P s) (key : Nat) (bank : Nat) (op : Nat) :
    P (s.imageCmd key bank op) := by
  have h1 := h.mono (B := [.regs, .evq]) (by decide)
  have h2 := h.mono (B := [.regs, .op]) (by decide)
  have h3 := h.mono (B := [.regs, .mem]) (by decide)
  unfold State.imageCmd
  extract_lets
  repeat' first
    | (with_reducible assumption)
    | (with_reducible apply State.imageResult_free h1)
    | (with_reducible apply State.opStart_free h2)
    | (with_reducible apply State.sealState_free h3)
    | (with_reducible refine Free.ite (fun _ => ?_) (fun _ => ?_))
    | split
    | dsimp +zetaDelta only

theorem State.ocvResult_free {P : State → Prop} (h : Free P [.regs, .evq]) {s : State} (hs : P s) (code : Nat) (check : Nat) :
    P (s.ocvResult code check) := by
  have h1 := h.mono (B := [.regs]) (by decide)
  unfold State.ocvResult
  extract_lets
  repeat' first
    | (with_reducible assumption)
    | (with_reducible apply State.put_free h1)
    | (with_reducible apply State.raise_free h)
    | (with_reducible refine Free.ite (fun _ => ?_) (fun _ => ?_))

theorem State.ocvCmd_free {P : State → Prop} (h : Free P [.regs, .evq, .op, .est]) {s : State} (hs : P s) (key : Nat) (set : Nat) (op : Nat) :
    P (s.ocvCmd key set op) := by
  have h1 := h.mono (B := [.regs, .evq]) (by decide)
  have h2 := h.mono (B := [.regs, .op]) (by decide)
  unfold State.ocvCmd
  extract_lets
  repeat' first
    | (with_reducible assumption)
    | (with_reducible apply State.ocvResult_free h1)
    | (with_reducible apply State.opStart_free h2)
    | (with_reducible refine Free.ite (fun _ => ?_) (fun _ => ?_))
    | (with_reducible refine (h.est (by decide) _ ?_))

theorem State.checkEnd_free {P : State → Prop} (h : Free P [.regs, .evq, .fault]) {s : State} (hs : P s) (bank : Nat) (e : OpEnd) :
    P (s.checkEnd bank e) := by
  have h1 := h.mono (B := [.regs, .fault]) (by decide)
  have h2 := h.mono (B := [.regs, .evq]) (by decide)
  unfold State.checkEnd
  extract_lets
  repeat' first
    | (with_reducible assumption)
    | (with_reducible apply State.checkImage_free h1)
    | (with_reducible apply State.imageResult_free h2)
    | (with_reducible apply State.longEnd_free h2)
    | (with_reducible refine Free.ite (fun _ => ?_) (fun _ => ?_))

theorem State.sealEnd_free {P : State → Prop} (h : Free P [.regs, .mem, .evq, .fault, .lamp]) {s : State} (hs : P s) (bank : Nat) (e : OpEnd) :
    P (s.sealEnd bank e) := by
  have h1 := h.mono (B := [.regs, .evq, .lamp]) (by decide)
  have h2 := h.mono (B := [.regs, .fault]) (by decide)
  have h3 := h.mono (B := [.regs, .evq]) (by decide)
  have h4 := h.mono (B := [.regs, .mem]) (by decide)
  have h5 := h.mono (B := [.mem]) (by decide)
  unfold State.sealEnd
  extract_lets
  repeat' first
    | (with_reducible assumption)
    | (with_reducible apply State.bankWritten_free h1)
    | (with_reducible apply State.checkImage_free h2)
    | (with_reducible apply State.imageResult_free h3)
    | (with_reducible apply State.longEnd_free h3)
    | (with_reducible apply State.sealState_free h4)
    | (with_reducible apply State.store_free h5)
    | (with_reducible refine Free.ite (fun _ => ?_) (fun _ => ?_))

theorem State.ocvValidAt_free {P : State → Prop} (h : Free P [.regs]) {s : State} (hs : P s) (k : Nat) (b : Bool) :
    P (s.ocvValidAt k b) := by
  unfold State.ocvValidAt
  repeat' first
    | (with_reducible assumption)
    | (with_reducible apply State.put_free h)

theorem State.ocvJudge_free {P : State → Prop} (h : Free P [.regs]) {s : State} (hs : P s) (a : Nat) (k : Nat) :
    P (s.ocvJudge a k).2 := by
  unfold State.ocvJudge
  extract_lets
  repeat' first
    | (with_reducible assumption)
    | (with_reducible apply State.injTake_free h)
    | (with_reducible refine Free.ite (fun _ => ?_) (fun _ => ?_))

theorem State.ocvRise_free {P : State → Prop} (h : Free P [.regs, .mem, .fault]) {s : State} (hs : P s) :
    P (s.ocvRise) := by
  have h1 := h.mono (B := [.mem]) (by decide)
  have h2 := h.mono (B := [.regs, .fault]) (by decide)
  have h3 := h.mono (B := [.regs]) (by decide)
  unfold State.ocvRise
  repeat' first
    | (with_reducible assumption)
    | (with_reducible apply State.copyRange_free h1)
    | (with_reducible apply State.err_free h2)
    | (with_reducible apply State.ocvJudge_free h3)
    | (with_reducible apply State.ocvRam_free h2)
    | (with_reducible apply State.ocvValidAt_free h3)
    | (with_reducible refine Free.ite (fun _ => ?_) (fun _ => ?_))
    | (with_reducible refine Free.foldl _ (fun _ _ _ => ?_) ?_)

theorem State.flushEnd_free {P : State → Prop} (h : Free P [.regs, .mem, .evq, .fault, .est]) {s : State} (hs : P s) (retire : Option (Nat × Nat)) (e : OpEnd) :
    P (s.flushEnd retire e) := by
  have h1 := h.mono (B := [.regs, .evq]) (by decide)
  unfold State.flushEnd
  extract_lets
  repeat' first
    | (with_reducible assumption)
    | (with_reducible apply State.flush_free h)
    | (with_reducible apply State.longEnd_free h1)

theorem State.ocvFinish_free {P : State → Prop} (h : Free P [.regs, .evq, .fault, .est]) {s : State} (hs : P s) (k : Nat) (code : Nat) (check : Nat) :
    P (s.ocvFinish k code check) := by
  have h1 := h.mono (B := [.regs, .evq]) (by decide)
  have h2 := h.mono (B := [.regs, .fault]) (by decide)
  unfold State.ocvFinish
  extract_lets
  repeat' first
    | (with_reducible assumption)
    | (with_reducible apply State.longEnd_free h1)
    | (with_reducible apply State.ocvRam_free h2)
    | (with_reducible apply State.ocvResult_free h1)
    | (with_reducible apply State.raise_free h1)
    | (with_reducible refine Free.ite (fun _ => ?_) (fun _ => ?_))
    | (with_reducible refine (h.est (by decide) _ ?_))

theorem State.ocvReloadEnd_free {P : State → Prop} (h : Free P [.regs, .mem, .evq, .fault, .est]) {s : State} (hs : P s) (k : Nat) :
    P (s.ocvReloadEnd k) := by
  have h1 := h.mono (B := [.mem]) (by decide)
  have h2 := h.mono (B := [.regs, .evq, .fault, .est]) (by decide)
  have h3 := h.mono (B := [.regs]) (by decide)
  have h4 := h.mono (B := [.regs, .fault]) (by decide)
  unfold State.ocvReloadEnd
  extract_lets
  repeat' first
    | (with_reducible assumption)
    | (with_reducible apply State.copyRange_free h1)
    | (with_reducible apply State.ocvFinish_free h2)
    | (with_reducible apply State.ocvJudge_free h3)
    | (with_reducible apply State.ocvRam_free h4)
    | (with_reducible apply State.ocvValidAt_free h3)
    | (with_reducible refine Free.ite (fun _ => ?_) (fun _ => ?_))

theorem State.journaled_free {P : State → Prop} (h : Free P [.regs, .mem]) {s : State} (hs : P s) (data : List Byte) (ofs : Nat) (verifyBad : Bool) (inJournal : Bool) :
    P (s.journaled data ofs verifyBad inJournal).2 := by
  have h1 := h.mono (B := [.mem]) (by decide)
  unfold State.journaled
  extract_lets
  repeat' first
    | (with_reducible assumption)
    | (with_reducible apply State.journalWrite_free h)
    | (with_reducible apply State.putBytes_free h1)
    | (with_reducible apply State.setArmed_free h)
    | split

theorem State.ocvCheckEnd_free {P : State → Prop} (h : Free P [.regs, .evq, .fault, .est]) {s : State} (hs : P s) (k : Nat) :
    P (s.ocvCheckEnd k) := by
  have h1 := h.mono (B := [.regs]) (by decide)
  have h2 := h.mono (B := [.regs, .fault]) (by decide)
  unfold State.ocvCheckEnd
  extract_lets
  repeat' first
    | (with_reducible assumption)
    | (with_reducible apply State.ocvFinish_free h)
    | (with_reducible apply State.ocvJudge_free h1)
    | (with_reducible apply State.ocvRam_free h2)
    | (with_reducible refine Free.ite (fun _ => ?_) (fun _ => ?_))

theorem State.clearEnd_free {P : State → Prop} (h : Free P [.regs, .mem, .evq, .est]) {s : State} (hs : P s) (string : Option (Fin 16)) :
    P (s.clearEnd string) := by
  have h1 := h.mono (B := [.regs, .mem, .est]) (by decide)
  have h2 := h.mono (B := [.regs, .evq]) (by decide)
  unfold State.clearEnd
  extract_lets
  repeat' first
    | (with_reducible assumption)
    | (with_reducible apply State.clearString_free h1)
    | (with_reducible apply State.fallbackDue_free h)
    | (with_reducible apply State.longEnd_free h2)
    | (with_reducible apply State.raise_free h2)
    | (with_reducible refine Free.foldl _ (fun _ _ _ => ?_) ?_)
    | split
    | dsimp +zetaDelta only

theorem State.commitEnd_free {P : State → Prop} (h : Free P [.regs, .mem, .evq, .fault]) {s : State} (hs : P s) (ofs : Nat) (len : Nat) (e : OpEnd) :
    P (s.commitEnd ofs len e) := by
  have h1 := h.mono (B := [.regs, .evq]) (by decide)
  have h2 := h.mono (B := [.regs, .fault]) (by decide)
  have h3 := h.mono (B := [.regs]) (by decide)
  have h4 := h.mono (B := [.regs, .mem]) (by decide)
  unfold State.commitEnd
  extract_lets
  repeat' first
    | (with_reducible assumption)
    | (with_reducible apply State.atticResult_free h1)
    | (with_reducible apply State.err_free h2)
    | (with_reducible apply State.errI_free h2)
    | (with_reducible apply State.injTake_free h3)
    | (with_reducible apply State.journaled_free h4)
    | (with_reducible apply State.longEnd_free h1)
    | (with_reducible apply State.ocvStale_free h3)
    | (with_reducible refine Free.ite (fun _ => ?_) (fun _ => ?_))
    | split
    | dsimp +zetaDelta only

theorem State.compareEnd_free {P : State → Prop} (h : Free P [.regs, .evq, .fault]) {s : State} (hs : P s) (ofs : Nat) (len : Nat) (e : OpEnd) :
    P (s.compareEnd ofs len e) := by
  have h1 := h.mono (B := [.regs, .evq]) (by decide)
  have h2 := h.mono (B := [.regs, .fault]) (by decide)
  unfold State.compareEnd
  extract_lets
  repeat' first
    | (with_reducible assumption)
    | (with_reducible apply State.atticResult_free h1)
    | (with_reducible apply State.err_free h2)
    | (with_reducible apply State.longEnd_free h1)
    | (with_reducible refine Free.ite (fun _ => ?_) (fun _ => ?_))
    | split

theorem State.ocvCommitEnd_free {P : State → Prop} (h : Free P [.regs, .mem, .evq, .fault, .est]) {s : State} (hs : P s) (k : Nat) (e : OpEnd) :
    P (s.ocvCommitEnd k e) := by
  have h1 := h.mono (B := [.regs, .fault]) (by decide)
  have h2 := h.mono (B := [.regs]) (by decide)
  have h3 := h.mono (B := [.regs, .mem]) (by decide)
  have h4 := h.mono (B := [.regs, .evq, .fault, .est]) (by decide)
  unfold State.ocvCommitEnd
  extract_lets
  repeat' first
    | (with_reducible assumption)
    | (with_reducible apply State.errI_free h1)
    | (with_reducible apply State.injTake_free h2)
    | (with_reducible apply State.journaled_free h3)
    | (with_reducible apply State.ocvFinish_free h4)
    | (with_reducible apply State.ocvJudge_free h2)
    | (with_reducible apply State.ocvRam_free h1)
    | (with_reducible apply State.ocvValidAt_free h2)
    | (with_reducible refine Free.ite (fun _ => ?_) (fun _ => ?_))

theorem State.opEnd_free {P : State → Prop} (h : Free P [.regs, .mem, .evq, .fault, .lamp, .op, .est]) {s : State} (hs : P s) (e : OpEnd) :
    P (s.opEnd e) := by
  have h1 := h.mono (B := [.regs, .evq, .lamp]) (by decide)
  have h2 := h.mono (B := [.regs, .evq, .fault]) (by decide)
  have h3 := h.mono (B := [.regs, .mem, .evq, .est]) (by decide)
  have h4 := h.mono (B := [.regs, .mem, .evq, .fault]) (by decide)
  have h5 := h.mono (B := [.regs, .mem, .evq, .fault, .est]) (by decide)
  have h6 := h.mono (B := [.regs, .evq]) (by decide)
  have h7 := h.mono (B := [.regs, .evq, .fault, .est]) (by decide)
  have h8 := h.mono (B := [.regs, .mem, .evq, .fault, .lamp]) (by decide)
  have h9 := h.mono (B := [.regs, .mem]) (by decide)
  unfold State.opEnd
  extract_lets
  repeat' first
    | (with_reducible assumption)
    | (with_reducible apply State.bankWritten_free h1)
    | (with_reducible apply State.checkEnd_free h2)
    | (with_reducible apply State.clearEnd_free h3)
    | (with_reducible apply State.commitEnd_free h4)
    | (with_reducible apply State.compareEnd_free h2)
    | (with_reducible apply State.flushEnd_free h5)
    | (with_reducible apply State.imageResult_free h6)
    | (with_reducible apply State.longEnd_free h6)
    | (with_reducible apply State.ocvCheckEnd_free h7)
    | (with_reducible apply State.ocvCommitEnd_free h5)
    | (with_reducible apply State.ocvReloadEnd_free h5)
    | (with_reducible apply State.sealEnd_free h8)
    | (with_reducible apply State.sealState_free h9)
    | (with_reducible apply State.segmentEnd_free h8)
    | split
    | (with_reducible refine (h.op (by decide) _ ?_))

end Sys2Proof.Machine
end

