-- ==== Sys2Proof/Laws/StableCmp.lean ====
section
/-! SUPPORT. Which parts of the state the operations of Machine/Cmp.lean may change: a property that stands whatever becomes of those
parts stands after the operation. -/

namespace Sys2Proof.Machine

theorem State.cmpClear_free {P : State → Prop} (h : Free P [.regs, .evq, .cmp]) {s : State} (hs : P s) (k : Nat) :
    P (s.cmpClear k) := by
  have h1 := h.mono (B := [.regs, .evq]) (by decide)
  have h2 := h.mono (B := [.regs]) (by decide)
  unfold State.cmpClear
  extract_lets
  repeat' first
    | (with_reducible assumption)
    | (with_reducible apply State.level_free h1)
    | (with_reducible apply State.put_free h2)
    | (with_reducible refine Free.ite (fun _ => ?_) (fun _ => ?_))
    | (with_reducible refine (h.cmp (by decide) _ ?_))

theorem State.cmpStops_free {P : State → Prop} (h : Free P [.regs, .evq, .cmp]) {s : State} (hs : P s) :
    P (s.cmpStops) := by
  unfold State.cmpStops
  repeat' first
    | (with_reducible assumption)
    | (with_reducible apply State.cmpClear_free h)
    | (with_reducible refine Free.foldl _ (fun _ _ _ => ?_) ?_)

theorem State.monInjTake_free {P : State → Prop} (h : Free P [.regs, .cmp]) {s : State} (hs : P s) (n : Fin 16) :
    P (s.monInjTake n) := by
  have h1 := h.mono (B := [.regs]) (by decide)
  unfold State.monInjTake
  extract_lets
  repeat' first
    | (with_reducible assumption)
    | (with_reducible apply State.wr_free h1)
    | (with_reducible refine (h.cmp (by decide) _ ?_))

theorem State.holdWrite_free {P : State → Prop} (h : Free P [.regs, .cmp]) {s : State} (hs : P s) (v : Nat) :
    P (s.holdWrite v) := by
  have h1 := h.mono (B := [.regs]) (by decide)
  unfold State.holdWrite
  repeat' first
    | (with_reducible assumption)
    | (with_reducible apply State.put_free h1)
    | (with_reducible apply State.wr_free h1)
    | (with_reducible refine Free.ite (fun _ => ?_) (fun _ => ?_))
    | (with_reducible refine Free.foldl _ (fun _ _ _ => ?_) ?_)
    | (with_reducible refine (h.cmp (by decide) _ ?_))

theorem State.cmpDrive_free {P : State → Prop} (h : Free P [.regs, .fault, .cmp]) {s : State} (hs : P s) (k : Nat) (trip : Bool) (latch : Bool) (kill : Bool) (errl : Bool) :
    P (s.cmpDrive k trip latch kill errl) := by
  have h1 := h.mono (B := [.regs, .fault]) (by decide)
  have h2 := h.mono (B := [.regs]) (by decide)
  unfold State.cmpDrive
  extract_lets
  repeat' first
    | (with_reducible assumption)
    | (with_reducible apply State.err_free h1)
    | (with_reducible apply State.put_free h2)
    | (with_reducible refine Free.ite (fun _ => ?_) (fun _ => ?_))
    | (with_reducible refine (h.cmp (by decide) _ ?_))

theorem State.tcfgWritten_free {P : State → Prop} (h : Free P [.regs, .evq, .fault, .cmp]) {s : State} (hs : P s) (k : Nat) (old : Nat) :
    P (s.tcfgWritten k old) := by
  have h1 := h.mono (B := [.regs, .evq, .cmp]) (by decide)
  have h2 := h.mono (B := [.regs, .fault, .cmp]) (by decide)
  unfold State.tcfgWritten
  extract_lets
  repeat' first
    | (with_reducible assumption)
    | (with_reducible apply State.cmpClear_free h1)
    | (with_reducible apply State.cmpDrive_free h2)
    | (with_reducible refine Free.ite (fun _ => ?_) (fun _ => ?_))

theorem State.monChange_free {P : State → Prop} (h : Free P [.regs, .evq, .fault, .est]) {s : State} (hs : P s) (n : Nat) (st : Nat) :
    P (s.monChange n st).2 := by
  have h1 := h.mono (B := [.regs, .fault]) (by decide)
  have h2 := h.mono (B := [.regs, .evq]) (by decide)
  have h3 := h.mono (B := [.regs]) (by decide)
  unfold State.monChange
  extract_lets
  repeat' first
    | (with_reducible assumption)
    | (with_reducible apply State.err_free h1)
    | (with_reducible apply State.fire_free h2)
    | (with_reducible apply State.put_free h3)
    | (with_reducible apply State.wr_free h3)
    | (with_reducible refine Free.ite (fun _ => ?_) (fun _ => ?_))
    | (with_reducible refine (h.est (by decide) _ ?_))

theorem State.wcfgWritten_free {P : State → Prop} (h : Free P [.regs, .evq, .fault, .cmp, .est]) {s : State} (hs : P s) (n : Fin 16) (old : Nat) (new : Nat) :
    P (s.wcfgWritten n old new) := by
  have h1 := h.mono (B := [.regs, .evq, .fault, .est]) (by decide)
  unfold State.wcfgWritten
  extract_lets
  repeat' first
    | (with_reducible assumption)
    | (with_reducible apply State.monChange_free h1)
    | (with_reducible refine Free.ite (fun _ => ?_) (fun _ => ?_))
    | (with_reducible refine (h.cmp (by decide) _ ?_))

theorem State.cmpInject_free {P : State → Prop} (h : Free P [.cmp]) {s : State} (hs : P s) :
    P (s.cmpInject) := by
  unfold State.cmpInject
  extract_lets
  repeat' first
    | (with_reducible assumption)
    | (with_reducible refine (h.cmp (by decide) _ ?_))

theorem State.cmpReset_free {P : State → Prop} (h : Free P [.cmp]) {s : State} (hs : P s) :
    P (s.cmpReset) := by
  unfold State.cmpReset
  extract_lets
  repeat' first
    | (with_reducible assumption)
    | (with_reducible refine (h.cmp (by decide) _ ?_))

theorem State.cmpAct_free {P : State → Prop} (h : Free P [.regs, .evq, .fault, .cmp]) {s : State} (hs : P s) (k : Nat) :
    P (s.cmpAct k) := by
  have h1 := h.mono (B := [.regs, .fault, .cmp]) (by decide)
  have h2 := h.mono (B := [.regs, .evq]) (by decide)
  unfold State.cmpAct
  extract_lets
  repeat' first
    | (with_reducible assumption)
    | (with_reducible apply State.cmpDrive_free h1)
    | (with_reducible apply State.level_free h2)
    | (with_reducible refine (h.cmp (by decide) _ ?_))

theorem State.cmpBlankEnd_free {P : State → Prop} (h : Free P [.regs, .evq, .fault, .cmp]) {s : State} (hs : P s) (k : Nat) :
    P (s.cmpBlankEnd k) := by
  unfold State.cmpBlankEnd
  extract_lets
  repeat' first
    | (with_reducible assumption)
    | (with_reducible apply State.cmpAct_free h)
    | (with_reducible refine Free.ite (fun _ => ?_) (fun _ => ?_))
    | (with_reducible refine (h.cmp (by decide) _ ?_))

theorem State.cmpTrip_free {P : State → Prop} (h : Free P [.regs, .evq, .fault, .cmp]) {s : State} (hs : P s) (k : Nat) (uv : Int) (e0 : Option Nat) (e1 : Option Nat) :
    P (s.cmpTrip k uv e0 e1) := by
  have h1 := h.mono (B := [.regs, .evq]) (by decide)
  have h2 := h.mono (B := [.regs]) (by decide)
  unfold State.cmpTrip
  extract_lets
  repeat' first
    | (with_reducible assumption)
    | (with_reducible apply State.cmpAct_free h)
    | (with_reducible apply State.level_free h1)
    | (with_reducible apply State.put_free h2)
    | (with_reducible refine Free.ite (fun _ => ?_) (fun _ => ?_))
    | (with_reducible refine (h.cmp (by decide) _ ?_))

theorem State.cmpBoundary_free {P : State → Prop} (h : Free P [.cmp]) {s : State} (hs : P s) (k : Nat) :
    P (s.cmpBoundary k).2 := by
  unfold State.cmpBoundary
  extract_lets
  repeat' first
    | (with_reducible assumption)
    | (with_reducible refine (h.cmp (by decide) _ ?_))

theorem State.windowSample_free {P : State → Prop} (h : Free P [.regs, .fresh, .evq, .fault, .cmp, .est]) {s : State} (hs : P s) (n : Fin 16) (uv : Int) :
    P (s.windowSample n uv).2 := by
  have h1 := h.mono (B := [.regs, .evq, .fault, .est]) (by decide)
  have h2 := h.mono (B := [.regs, .cmp]) (by decide)
  have h3 := h.mono (B := [.regs]) (by decide)
  have h4 := h.mono (B := [.fresh]) (by decide)
  unfold State.windowSample
  extract_lets
  repeat' first
    | (with_reducible assumption)
    | (with_reducible apply State.monChange_free h1)
    | (with_reducible apply State.monInjTake_free h2)
    | (with_reducible apply State.put_free h3)
    | (with_reducible apply State.tickFresh_free h4)
    | split
    | dsimp only
    | dsimp +zetaDelta only
    | (with_reducible refine (h.cmp (by decide) _ ?_))

theorem State.cmpRelease_free {P : State → Prop} (h : Free P [.regs, .evq, .cmp]) {s : State} (hs : P s) (k : Nat) (uv : Int) :
    P (s.cmpRelease k uv) := by
  unfold State.cmpRelease
  repeat' first
    | (with_reducible assumption)
    | (with_reducible apply State.cmpClear_free h)
    | (with_reducible refine Free.ite (fun _ => ?_) (fun _ => ?_))

theorem State.windowTick_free {P : State → Prop} (h : Free P [.cmp]) {s : State} (hs : P s) :
    P (s.windowTick) := by
  unfold State.windowTick
  extract_lets
  repeat' first
    | (with_reducible assumption)
    | (with_reducible refine (h.cmp (by decide) _ ?_))

end Sys2Proof.Machine
end

