-- ==== Sys2Proof/Laws/StablePwm.lean ====
section
/-! SUPPORT. Which parts of the state the operations of Machine/Pwm.lean may change: a property that stands whatever becomes of those
parts stands after the operation. -/

namespace Sys2Proof.Machine

theorem State.setPwm_free {P : State → Prop} (h : Free P [.pwm]) {s : State} (hs : P s) (o : Nat) (x : PwmOut) :
    P (s.setPwm o x) := by
  unfold State.setPwm
  repeat' first
    | (with_reducible assumption)
    | (with_reducible refine (h.pwm (by decide) _ ?_))

theorem State.pwmShadow_free {P : State → Prop} (h : Free P [.pwm]) {s : State} (hs : P s) (o : Nat) (field : Nat) (v : Nat) :
    P (s.pwmShadow o field v) := by
  unfold State.pwmShadow
  extract_lets
  repeat' first
    | (with_reducible assumption)
    | (with_reducible apply State.setPwm_free h)

theorem State.pwmSet_free {P : State → Prop} (h : Free P [.pwm]) {s : State} (hs : P s) (o : Nat) (phase : Nat) (duty : Nat) :
    P (s.pwmSet o phase duty) := by
  unfold State.pwmSet
  extract_lets
  repeat' first
    | (with_reducible assumption)
    | (with_reducible apply State.setPwm_free h)

theorem State.pwmBoundary_free {P : State → Prop} (h : Free P [.pwm]) {s : State} (hs : P s) (o : Nat) (tsw : Nat) :
    P (s.pwmBoundary o tsw) := by
  unfold State.pwmBoundary
  extract_lets
  repeat' first
    | (with_reducible assumption)
    | (with_reducible apply State.setPwm_free h)

theorem State.pwmLoad_free {P : State → Prop} (h : Free P [.pwm]) {s : State} (hs : P s) (o : Nat) (field : Nat) (imm : Option Nat) :
    P (s.pwmLoad o field imm) := by
  unfold State.pwmLoad
  extract_lets
  repeat' first
    | (with_reducible assumption)
    | (with_reducible apply State.setPwm_free h)

end Sys2Proof.Machine
end

