-- ==== Sys2Proof/Laws/StableBal.lean ====
section
/-! SUPPORT. Which parts of the state the operations of Machine/Bal.lean may change: a property that stands whatever becomes of those
parts stands after the operation. -/

namespace Sys2Proof.Machine

theorem State.busovSync_free {P : State → Prop} (h : Free P [.regs, .evq]) {s : State} (hs : P s) (n : Fin 16) :
    P (s.busovSync n) := by
  unfold State.busovSync
  repeat' first
    | (with_reducible assumption)
    | (with_reducible apply State.level_free h)

theorem State.setBs_free {P : State → Prop} (h : Free P [.bal]) {s : State} (hs : P s) (n : Fin 16) (x : BalS) :
    P (s.setBs n x) := by
  unfold State.setBs
  repeat' first
    | (with_reducible assumption)
    | (with_reducible refine (h.bal (by decide) _ ?_))

theorem State.overlayEnd_free {P : State → Prop} (h : Free P [.regs, .evq, .bal]) {s : State} (hs : P s) (n : Fin 16) :
    P (s.overlayEnd n) := by
  have h1 := h.mono (B := [.regs]) (by decide)
  have h2 := h.mono (B := [.regs, .evq]) (by decide)
  have h3 := h.mono (B := [.bal]) (by decide)
  unfold State.overlayEnd
  extract_lets
  repeat' first
    | (with_reducible assumption)
    | (with_reducible apply State.put_free h1)
    | (with_reducible apply State.raise_free h2)
    | (with_reducible apply State.setBs_free h3)
    | (with_reducible refine Free.ite (fun _ => ?_) (fun _ => ?_))

theorem State.overlayCheck_free {P : State → Prop} (h : Free P [.regs, .evq, .bal]) {s : State} (hs : P s) (n : Fin 16) :
    P (s.overlayCheck n) := by
  unfold State.overlayCheck
  repeat' first
    | (with_reducible assumption)
    | (with_reducible apply State.overlayEnd_free h)
    | (with_reducible refine Free.ite (fun _ => ?_) (fun _ => ?_))

theorem State.balComp_free {P : State → Prop} (h : Free P [.regs, .evq, .pwm, .bal]) {s : State} (hs : P s) (n : Fin 16) (shadow : Bool) :
    P (s.balComp n shadow) := by
  have h1 := h.mono (B := [.regs, .evq]) (by decide)
  have h2 := h.mono (B := [.regs, .evq, .bal]) (by decide)
  have h3 := h.mono (B := [.regs]) (by decide)
  have h4 := h.mono (B := [.pwm]) (by decide)
  have h5 := h.mono (B := [.bal]) (by decide)
  unfold State.balComp
  extract_lets
  repeat' first
    | (with_reducible assumption)
    | (with_reducible apply State.busovSync_free h1)
    | (with_reducible apply State.overlayCheck_free h2)
    | (with_reducible apply State.putI_free h3)
    | (with_reducible apply State.pwmShadow_free h4)
    | (with_reducible apply State.setBs_free h5)
    | (with_reducible refine Free.ite (fun _ => ?_) (fun _ => ?_))

theorem State.balSetPhi_free {P : State → Prop} (h : Free P [.regs, .pwm]) {s : State} (hs : P s) (n : Fin 16) (phi : Int) :
    P (s.balSetPhi n phi) := by
  have h1 := h.mono (B := [.regs]) (by decide)
  have h2 := h.mono (B := [.pwm]) (by decide)
  unfold State.balSetPhi
  repeat' first
    | (with_reducible assumption)
    | (with_reducible apply State.putI_free h1)
    | (with_reducible apply State.pwmSet_free h2)

theorem State.balRefsLow_free {P : State → Prop} (h : Free P [.regs, .evq, .pwm, .bal]) {s : State} (hs : P s) (n : Fin 16) :
    P (s.balRefsLow n) := by
  have h1 := h.mono (B := [.regs, .pwm]) (by decide)
  have h2 := h.mono (B := [.regs, .evq, .bal]) (by decide)
  have h3 := h.mono (B := [.bal]) (by decide)
  unfold State.balRefsLow
  extract_lets
  repeat' first
    | (with_reducible assumption)
    | (with_reducible apply State.balSetPhi_free h1)
    | (with_reducible apply State.overlayEnd_free h2)
    | (with_reducible apply State.setBs_free h3)

theorem State.syncGroup_free {P : State → Prop} (h : Free P [.regs]) {s : State} (hs : P s) (n : Fin 16) :
    P (s.syncGroup n) := by
  unfold State.syncGroup
  extract_lets
  repeat' first
    | (with_reducible assumption)
    | (with_reducible apply State.put_free h)
    | (with_reducible refine Free.foldl _ (fun _ _ _ => ?_) ?_)

theorem State.setBalCode_free {P : State → Prop} (h : Free P [.regs]) {s : State} (hs : P s) (n : Fin 16) (c : Nat) :
    P (s.setBalCode n c) := by
  unfold State.setBalCode
  repeat' first
    | (with_reducible assumption)
    | (with_reducible apply State.put_free h)
    | (with_reducible apply State.syncGroup_free h)

theorem State.balStopNow_free {P : State → Prop} (h : Free P [.regs, .evq, .pwm, .bal]) {s : State} (hs : P s) (n : Fin 16) :
    P (s.balStopNow n) := by
  have h1 := h.mono (B := [.regs]) (by decide)
  have h2 := h.mono (B := [.bal]) (by decide)
  unfold State.balStopNow
  extract_lets
  repeat' first
    | (with_reducible assumption)
    | (with_reducible apply State.balRefsLow_free h)
    | (with_reducible apply State.setBalCode_free h1)
    | (with_reducible apply State.setBs_free h2)

theorem State.balReadback_free {P : State → Prop} (h : Free P [.regs, .evq, .fault, .pwm, .bal]) {s : State} (hs : P s) (n : Fin 16) (padsBad : Bool) :
    P (s.balReadback n padsBad) := by
  have h1 := h.mono (B := [.regs, .evq, .pwm, .bal]) (by decide)
  have h2 := h.mono (B := [.regs, .fault]) (by decide)
  have h3 := h.mono (B := [.regs]) (by decide)
  have h4 := h.mono (B := [.bal]) (by decide)
  unfold State.balReadback
  extract_lets
  repeat' first
    | (with_reducible assumption)
    | (with_reducible apply State.balStopNow_free h1)
    | (with_reducible apply State.errI_free h2)
    | (with_reducible apply State.injTake_free h3)
    | (with_reducible apply State.setBs_free h4)
    | (with_reducible refine Free.ite (fun _ => ?_) (fun _ => ?_))

theorem State.balOff_free {P : State → Prop} (h : Free P [.regs, .evq, .pwm, .bal]) {s : State} (hs : P s) (n : Fin 16) :
    P (s.balOff n) := by
  have h1 := h.mono (B := [.regs]) (by decide)
  have h2 := h.mono (B := [.bal]) (by decide)
  unfold State.balOff
  extract_lets
  repeat' first
    | (with_reducible assumption)
    | (with_reducible apply State.balRefsLow_free h)
    | (with_reducible apply State.setBalCode_free h1)
    | (with_reducible apply State.setBs_free h2)
    | (with_reducible refine Free.ite (fun _ => ?_) (fun _ => ?_))

theorem State.balStop_free {P : State → Prop} (h : Free P [.regs, .evq, .pwm, .bal]) {s : State} (hs : P s) (n : Fin 16) (off : Bool) :
    P (s.balStop n off) := by
  have h1 := h.mono (B := [.regs, .evq, .bal]) (by decide)
  have h2 := h.mono (B := [.regs]) (by decide)
  have h3 := h.mono (B := [.bal]) (by decide)
  unfold State.balStop
  extract_lets
  repeat' first
    | (with_reducible assumption)
    | (with_reducible apply State.balOff_free h)
    | (with_reducible apply State.overlayEnd_free h1)
    | (with_reducible apply State.setBalCode_free h2)
    | (with_reducible apply State.setBs_free h3)
    | (with_reducible refine Free.ite (fun _ => ?_) (fun _ => ?_))

theorem State.balStand_free {P : State → Prop} (h : Free P [.regs]) {s : State} (hs : P s) (n : Fin 16) :
    P (s.balStand n) := by
  unfold State.balStand
  extract_lets
  repeat' first
    | (with_reducible assumption)
    | (with_reducible apply State.setBalCode_free h)
    | (with_reducible refine Free.ite (fun _ => ?_) (fun _ => ?_))

theorem State.balAllOff_free {P : State → Prop} (h : Free P [.regs, .evq, .pwm, .bal]) {s : State} (hs : P s) :
    P (s.balAllOff) := by
  unfold State.balAllOff
  repeat' first
    | (with_reducible assumption)
    | (with_reducible apply State.balOff_free h)
    | (with_reducible refine Free.foldl _ (fun _ _ _ => ?_) ?_)

theorem State.balDue_free {P : State → Prop} (h : Free P [.bal]) {s : State} (hs : P s) (n : Fin 16) :
    P (s.balDue n) := by
  unfold State.balDue
  extract_lets
  repeat' first
    | (with_reducible assumption)
    | (with_reducible apply State.setBs_free h)

theorem State.overlayRequest_free {P : State → Prop} (h : Free P [.regs, .evq, .bal]) {s : State} (hs : P s) (n : Fin 16) :
    P (s.overlayRequest n) := by
  have h1 := h.mono (B := [.regs]) (by decide)
  have h2 := h.mono (B := [.bal]) (by decide)
  unfold State.overlayRequest
  extract_lets
  repeat' first
    | (with_reducible assumption)
    | (with_reducible apply State.overlayEnd_free h)
    | (with_reducible apply State.put_free h1)
    | (with_reducible apply State.setBs_free h2)

theorem State.stopCheck_free {P : State → Prop} (h : Free P [.regs, .evq, .fault, .bal]) {s : State} (hs : P s) (n : Fin 16) :
    P (s.stopCheck n).2 := by
  have h1 := h.mono (B := [.regs, .fault]) (by decide)
  have h2 := h.mono (B := [.regs]) (by decide)
  have h3 := h.mono (B := [.regs, .evq]) (by decide)
  have h4 := h.mono (B := [.bal]) (by decide)
  unfold State.stopCheck
  extract_lets
  repeat' first
    | (with_reducible assumption)
    | (with_reducible apply State.errI_free h1)
    | (with_reducible apply State.injTake_free h2)
    | (with_reducible apply State.raise_free h3)
    | (with_reducible apply State.setBalCode_free h2)
    | (with_reducible apply State.setBs_free h4)
    | split

theorem State.balLimited_free {P : State → Prop} (h : Free P [.regs, .evq, .fault, .pwm, .bal]) {s : State} (hs : P s) (n : Fin 16) (acted : Bool) :
    P (s.balLimited n acted) := by
  have h1 := h.mono (B := [.regs, .evq, .pwm, .bal]) (by decide)
  have h2 := h.mono (B := [.regs, .fault]) (by decide)
  have h3 := h.mono (B := [.regs]) (by decide)
  have h4 := h.mono (B := [.regs, .evq]) (by decide)
  have h5 := h.mono (B := [.bal]) (by decide)
  unfold State.balLimited
  extract_lets
  repeat' first
    | (with_reducible assumption)
    | (with_reducible apply State.balRefsLow_free h1)
    | (with_reducible apply State.err_free h2)
    | (with_reducible apply State.put_free h3)
    | (with_reducible apply State.raise_free h4)
    | (with_reducible apply State.setBalCode_free h3)
    | (with_reducible apply State.setBs_free h5)
    | (with_reducible refine Free.ite (fun _ => ?_) (fun _ => ?_))

theorem State.syncPower_free {P : State → Prop} (h : Free P [.regs]) {s : State} (hs : P s) (n : Fin 16) :
    P (s.syncPower n) := by
  unfold State.syncPower
  repeat' first
    | (with_reducible assumption)
    | (with_reducible apply State.putI_free h)

theorem State.balInput_free {P : State → Prop} (h : Free P [.regs, .evq, .bal]) {s : State} (hs : P s) (n : Fin 16) (din : Nat) (code : Nat) :
    P (s.balInput n din code) := by
  have h1 := h.mono (B := [.regs, .evq]) (by decide)
  have h2 := h.mono (B := [.regs]) (by decide)
  have h3 := h.mono (B := [.bal]) (by decide)
  unfold State.balInput
  extract_lets
  repeat' first
    | (with_reducible assumption)
    | (with_reducible apply State.busovSync_free h1)
    | (with_reducible apply State.put_free h2)
    | (with_reducible apply State.putI_free h2)
    | (with_reducible apply State.raise_free h1)
    | (with_reducible apply State.setBs_free h3)
    | (with_reducible apply State.syncPower_free h2)
    | (with_reducible refine Free.foldl _ (fun _ _ _ => ?_) ?_)
    | split

theorem State.balAccumulate_free {P : State → Prop} (h : Free P [.bal]) {s : State} (hs : P s) (n : Fin 16) :
    P (s.balAccumulate n) := by
  unfold State.balAccumulate
  extract_lets
  repeat' first
    | (with_reducible assumption)
    | (with_reducible apply State.setBs_free h)

theorem State.balRamp_free {P : State → Prop} (h : Free P [.regs, .pwm, .bal]) {s : State} (hs : P s) (n : Fin 16) :
    P (s.balRamp n) := by
  have h1 := h.mono (B := [.regs, .pwm]) (by decide)
  have h2 := h.mono (B := [.bal]) (by decide)
  unfold State.balRamp
  extract_lets
  repeat' first
    | (with_reducible assumption)
    | (with_reducible apply State.balSetPhi_free h1)
    | (with_reducible apply State.setBs_free h2)
    | (with_reducible refine Free.ite (fun _ => ?_) (fun _ => ?_))

theorem State.correlate_free {P : State → Prop} (h : Free P [.regs, .bal]) {s : State} (hs : P s) (n : Fin 16) (t0 : Int) :
    P (s.correlate n t0) := by
  have h1 := h.mono (B := [.regs]) (by decide)
  have h2 := h.mono (B := [.bal]) (by decide)
  unfold State.correlate
  extract_lets
  repeat' first
    | (with_reducible assumption)
    | (with_reducible apply State.put_free h1)
    | (with_reducible apply State.putI_free h1)
    | (with_reducible apply State.setBs_free h2)
    | (with_reducible refine Free.ite (fun _ => ?_) (fun _ => ?_))
    | split

theorem State.balBoundary_free {P : State → Prop} (h : Free P [.regs, .evq, .fault, .pwm, .cmp, .bal]) {s : State} (hs : P s) (n : Fin 16) (padsBad : Bool) :
    P (s.balBoundary n padsBad) := by
  have h1 := h.mono (B := [.bal]) (by decide)
  have h2 := h.mono (B := [.regs, .evq, .fault, .pwm, .bal]) (by decide)
  have h3 := h.mono (B := [.regs, .pwm, .bal]) (by decide)
  have h4 := h.mono (B := [.cmp]) (by decide)
  have h5 := h.mono (B := [.regs, .bal]) (by decide)
  have h6 := h.mono (B := [.regs]) (by decide)
  have h7 := h.mono (B := [.pwm]) (by decide)
  unfold State.balBoundary
  extract_lets
  repeat' first
    | (with_reducible assumption)
    | (with_reducible apply State.balAccumulate_free h1)
    | (with_reducible apply State.balLimited_free h2)
    | (with_reducible apply State.balRamp_free h3)
    | (with_reducible apply State.balReadback_free h2)
    | (with_reducible apply State.cmpBoundary_free h4)
    | (with_reducible apply State.correlate_free h5)
    | (with_reducible apply State.putI_free h6)
    | (with_reducible apply State.pwmBoundary_free h7)
    | (with_reducible apply State.pwmSet_free h7)
    | (with_reducible apply State.setBs_free h1)
    | (with_reducible refine Free.ite (fun _ => ?_) (fun _ => ?_))
    | split
    | dsimp +zetaDelta only

theorem State.balClass_free {P : State → Prop} (h : Free P [.regs, .evq, .bal]) {s : State} (hs : P s) :
    P (s.balClass) := by
  have h1 := h.mono (B := [.regs]) (by decide)
  unfold State.balClass
  repeat' first
    | (with_reducible assumption)
    | (with_reducible apply State.overlayEnd_free h)
    | (with_reducible apply State.put_free h1)
    | (with_reducible refine Free.ite (fun _ => ?_) (fun _ => ?_))
    | (with_reducible refine Free.foldl _ (fun _ _ _ => ?_) ?_)

theorem State.overlayMarker_free {P : State → Prop} (h : Free P [.regs, .evq, .bal]) {s : State} (hs : P s) (n : Fin 16) :
    P (s.overlayMarker n) := by
  have h1 := h.mono (B := [.regs]) (by decide)
  have h2 := h.mono (B := [.bal]) (by decide)
  unfold State.overlayMarker
  extract_lets
  repeat' first
    | (with_reducible assumption)
    | (with_reducible apply State.overlayCheck_free h)
    | (with_reducible apply State.put_free h1)
    | (with_reducible apply State.setBs_free h2)
    | (with_reducible refine Free.ite (fun _ => ?_) (fun _ => ?_))

theorem State.softStart_free {P : State → Prop} (h : Free P [.regs, .pwm, .bal]) {s : State} (hs : P s) (n : Fin 16) :
    P (s.softStart n) := by
  have h1 := h.mono (B := [.regs, .pwm]) (by decide)
  have h2 := h.mono (B := [.regs]) (by decide)
  have h3 := h.mono (B := [.bal]) (by decide)
  unfold State.softStart
  extract_lets
  repeat' first
    | (with_reducible assumption)
    | (with_reducible apply State.balSetPhi_free h1)
    | (with_reducible apply State.setBalCode_free h2)
    | (with_reducible apply State.setBs_free h3)

theorem State.softDone_free {P : State → Prop} (h : Free P [.regs, .evq, .bal]) {s : State} (hs : P s) (n : Fin 16) :
    P (s.softDone n) := by
  have h1 := h.mono (B := [.regs, .evq]) (by decide)
  have h2 := h.mono (B := [.regs]) (by decide)
  have h3 := h.mono (B := [.bal]) (by decide)
  unfold State.softDone
  extract_lets
  repeat' first
    | (with_reducible assumption)
    | (with_reducible apply State.raise_free h1)
    | (with_reducible apply State.setBalCode_free h2)
    | (with_reducible apply State.setBs_free h3)
    | (with_reducible refine Free.ite (fun _ => ?_) (fun _ => ?_))

theorem State.balStale_free {P : State → Prop} (h : Free P [.regs, .evq, .pwm, .bal]) {s : State} (hs : P s) (n : Fin 16) :
    P (s.balStale n) := by
  have h1 := h.mono (B := [.bal]) (by decide)
  unfold State.balStale
  repeat' first
    | (with_reducible assumption)
    | (with_reducible apply State.balDue_free h1)
    | (with_reducible apply State.balStop_free h)

theorem State.instantNotice_free {P : State → Prop} (h : Free P [.bal]) {s : State} (hs : P s) (n : Fin 16) (clocks : Nat) (burst : Option Nat) :
    P (s.instantNotice n clocks burst) := by
  unfold State.instantNotice
  extract_lets
  repeat' first
    | (with_reducible assumption)
    | (with_reducible apply State.setBs_free h)
    | split

theorem State.hicEnd_free {P : State → Prop} (h : Free P [.regs, .bal]) {s : State} (hs : P s) (n : Fin 16) :
    P (s.hicEnd n) := by
  have h1 := h.mono (B := [.bal]) (by decide)
  have h2 := h.mono (B := [.regs]) (by decide)
  unfold State.hicEnd
  repeat' first
    | (with_reducible assumption)
    | (with_reducible apply State.balDue_free h1)
    | (with_reducible apply State.setBalCode_free h2)
    | (with_reducible refine Free.ite (fun _ => ?_) (fun _ => ?_))

theorem State.balRound_free {P : State → Prop} (h : Free P [.regs, .mem, .pwm, .bal]) {s : State} (hs : P s) (n : Fin 16) :
    P (s.balRound n) := by
  have h1 := h.mono (B := [.regs]) (by decide)
  have h2 := h.mono (B := [.mem]) (by decide)
  have h3 := h.mono (B := [.bal]) (by decide)
  have h4 := h.mono (B := [.regs, .pwm, .bal]) (by decide)
  unfold State.balRound
  extract_lets
  repeat' first
    | (with_reducible assumption)
    | (with_reducible apply State.balStand_free h1)
    | (with_reducible apply State.bump_free h2)
    | (with_reducible apply State.put_free h1)
    | (with_reducible apply State.putI_free h1)
    | (with_reducible apply State.setBs_free h3)
    | (with_reducible apply State.softStart_free h4)
    | (with_reducible refine Free.ite (fun _ => ?_) (fun _ => ?_))

theorem State.balSenseLoss_free {P : State → Prop} (h : Free P [.regs, .evq, .fault, .pwm, .bal]) {s : State} (hs : P s) (n : Fin 16) :
    P (s.balSenseLoss n) := by
  have h1 := h.mono (B := [.regs, .evq, .pwm, .bal]) (by decide)
  have h2 := h.mono (B := [.regs, .fault]) (by decide)
  have h3 := h.mono (B := [.bal]) (by decide)
  unfold State.balSenseLoss
  extract_lets
  repeat' first
    | (with_reducible assumption)
    | (with_reducible apply State.balStopNow_free h1)
    | (with_reducible apply State.err_free h2)
    | (with_reducible apply State.setBs_free h3)
    | (with_reducible refine Free.ite (fun _ => ?_) (fun _ => ?_))

end Sys2Proof.Machine
end

