-- ==== Sys2Proof/Laws/StableFeeds.lean ====
section
/-! SUPPORT. Which parts of the state the operations of Machine/Feeds.lean may change: a property that stands whatever becomes of those
parts stands after the operation. -/

namespace Sys2Proof.Machine

theorem State.setFeed_free {P : State → Prop} (h : Free P [.regs, .evq]) {s : State} (hs : P s) (n : Fin 8) (c : Nat) :
    P (s.setFeed n c) := by
  have h1 := h.mono (B := [.regs]) (by decide)
  unfold State.setFeed
  extract_lets
  repeat' first
    | (with_reducible assumption)
    | (with_reducible apply State.level_free h)
    | (with_reducible apply State.put_free h1)

theorem State.feedQueue_free {P : State → Prop} (h : Free P [.regs, .evq]) {s : State} (hs : P s) (n : Fin 8) :
    P (s.feedQueue n) := by
  unfold State.feedQueue
  repeat' first
    | (with_reducible assumption)
    | (with_reducible apply State.setFeed_free h)
    | (with_reducible refine Free.ite (fun _ => ?_) (fun _ => ?_))

theorem State.feedRetry_free {P : State → Prop} (h : Free P [.regs, .evq]) {s : State} (hs : P s) (n : Fin 8) :
    P (s.feedRetry n) := by
  unfold State.feedRetry
  extract_lets
  repeat' first
    | (with_reducible assumption)
    | (with_reducible apply State.feedQueue_free h)
    | (with_reducible refine Free.ite (fun _ => ?_) (fun _ => ?_))

theorem State.feedsLevel0_free {P : State → Prop} (h : Free P [.regs, .feedL]) {s : State} (hs : P s) :
    P (s.feedsLevel0) := by
  have h1 := h.mono (B := [.regs]) (by decide)
  unfold State.feedsLevel0
  repeat' first
    | (with_reducible assumption)
    | (with_reducible apply State.put_free h1)
    | (with_reducible refine (h.feedL (by decide) _ ?_))

theorem State.setFd_free {P : State → Prop} (h : Free P [.feed]) {s : State} (hs : P s) (n : Fin 8) (x : FeedS) :
    P (s.setFd n x) := by
  unfold State.setFd
  repeat' first
    | (with_reducible assumption)
    | (with_reducible refine (h.feed (by decide) _ ?_))

theorem State.feedTripAt_free {P : State → Prop} (h : Free P [.regs, .mem, .evq, .fault, .feed]) {s : State} (hs : P s) (n : Fin 8) (k : FeedTrip) (ton : Nat) :
    P (s.feedTripAt n k ton) := by
  have h1 := h.mono (B := [.mem]) (by decide)
  have h2 := h.mono (B := [.regs, .fault]) (by decide)
  have h3 := h.mono (B := [.regs]) (by decide)
  have h4 := h.mono (B := [.regs, .evq]) (by decide)
  have h5 := h.mono (B := [.feed]) (by decide)
  unfold State.feedTripAt
  extract_lets
  repeat' first
    | (with_reducible assumption)
    | (with_reducible apply State.bump_free h1)
    | (with_reducible apply State.err_free h2)
    | (with_reducible apply State.put_free h3)
    | (with_reducible apply State.raise_free h4)
    | (with_reducible apply State.setFd_free h5)
    | (with_reducible apply State.setFeed_free h4)
    | (with_reducible refine Free.ite (fun _ => ?_) (fun _ => ?_))

theorem State.feedTrip_free {P : State → Prop} (h : Free P [.regs, .mem, .evq, .fault, .feed]) {s : State} (hs : P s) (n : Fin 8) (k : FeedTrip) :
    P (s.feedTrip n k) := by
  unfold State.feedTrip
  repeat' first
    | (with_reducible assumption)
    | (with_reducible apply State.feedTripAt_free h)
    | (with_reducible refine Free.ite (fun _ => ?_) (fun _ => ?_))

theorem State.feedJudgeT_free {P : State → Prop} (h : Free P [.regs, .mem, .evq, .fault, .feed]) {s : State} (hs : P s) (n : Fin 8) (hot : Bool) :
    P (s.feedJudgeT n hot) := by
  unfold State.feedJudgeT
  repeat' first
    | (with_reducible assumption)
    | (with_reducible apply State.feedTrip_free h)
    | (with_reducible refine Free.ite (fun _ => ?_) (fun _ => ?_))

theorem State.feedModel_free {P : State → Prop} (h : Free P [.regs, .mem, .evq, .fault, .feed]) {s : State} (hs : P s) (n : Fin 8) (vi : Int) (dt : Int) :
    P (s.feedModel n vi dt) := by
  have h1 := h.mono (B := [.regs]) (by decide)
  have h2 := h.mono (B := [.feed]) (by decide)
  unfold State.feedModel
  extract_lets
  repeat' first
    | (with_reducible assumption)
    | (with_reducible apply State.feedJudgeT_free h)
    | (with_reducible apply State.injTake_free h1)
    | (with_reducible apply State.putI_free h1)
    | (with_reducible apply State.setFd_free h2)
    | (with_reducible refine Free.ite (fun _ => ?_) (fun _ => ?_))

theorem State.feedTimed_free {P : State → Prop} (h : Free P [.regs, .mem, .evq, .fault, .feed]) {s : State} (hs : P s) (n : Fin 8) :
    P (s.feedTimed n) := by
  unfold State.feedTimed
  repeat' first
    | (with_reducible assumption)
    | (with_reducible apply State.feedTrip_free h)
    | (with_reducible refine Free.ite (fun _ => ?_) (fun _ => ?_))

theorem State.feedTimedStep_free {P : State → Prop} (h : Free P [.regs, .feed]) {s : State} (hs : P s) (n : Fin 8) (dt : Int) :
    P (s.feedTimedStep n dt) := by
  have h1 := h.mono (B := [.regs]) (by decide)
  have h2 := h.mono (B := [.feed]) (by decide)
  unfold State.feedTimedStep
  extract_lets
  repeat' first
    | (with_reducible assumption)
    | (with_reducible apply State.injTake_free h1)
    | (with_reducible apply State.setFd_free h2)

theorem State.feedStep_free {P : State → Prop} (h : Free P [.regs, .mem, .evq, .fault, .feed]) {s : State} (hs : P s) (n : Fin 8) (i : Int) :
    P (s.feedStep n i) := by
  have h1 := h.mono (B := [.regs, .feed]) (by decide)
  have h2 := h.mono (B := [.feed]) (by decide)
  unfold State.feedStep
  extract_lets
  repeat' first
    | (with_reducible assumption)
    | (with_reducible apply State.feedModel_free h)
    | (with_reducible apply State.feedTimed_free h)
    | (with_reducible apply State.feedTimedStep_free h1)
    | (with_reducible apply State.setFd_free h2)
    | (with_reducible refine Free.ite (fun _ => ?_) (fun _ => ?_))

theorem State.feedRound_free {P : State → Prop} (h : Free P [.regs, .mem, .evq, .fault, .feed]) {s : State} (hs : P s) (n : Fin 8) :
    P (s.feedRound n) := by
  have h1 := h.mono (B := [.regs]) (by decide)
  have h2 := h.mono (B := [.feed]) (by decide)
  unfold State.feedRound
  extract_lets
  repeat' first
    | (with_reducible assumption)
    | (with_reducible apply State.feedModel_free h)
    | (with_reducible apply State.feedStep_free h)
    | (with_reducible apply State.put_free h1)
    | (with_reducible apply State.setFd_free h2)
    | (with_reducible refine Free.ite (fun _ => ?_) (fun _ => ?_))

theorem State.feedResult_free {P : State → Prop} (h : Free P [.regs, .mem, .evq, .fault, .feed]) {s : State} (hs : P s) (n : Fin 8) :
    P (s.feedResult n) := by
  have h1 := h.mono (B := [.regs]) (by decide)
  have h2 := h.mono (B := [.feed]) (by decide)
  unfold State.feedResult
  extract_lets
  repeat' first
    | (with_reducible assumption)
    | (with_reducible apply State.feedStep_free h)
    | (with_reducible apply State.putI_free h1)
    | (with_reducible apply State.setFd_free h2)

theorem State.feedOff_free {P : State → Prop} (h : Free P [.regs, .evq, .feed]) {s : State} (hs : P s) (n : Fin 8) :
    P (s.feedOff n) := by
  have h1 := h.mono (B := [.feed]) (by decide)
  have h2 := h.mono (B := [.regs, .evq]) (by decide)
  unfold State.feedOff
  extract_lets
  repeat' first
    | (with_reducible assumption)
    | (with_reducible apply State.setFd_free h1)
    | (with_reducible apply State.setFeed_free h2)

theorem State.feedsSnuff_free {P : State → Prop} (h : Free P [.regs, .evq, .feed]) {s : State} (hs : P s) :
    P (s.feedsSnuff) := by
  have h1 := h.mono (B := [.feed]) (by decide)
  unfold State.feedsSnuff
  repeat' first
    | (with_reducible assumption)
    | (with_reducible apply State.feedOff_free h)
    | (with_reducible apply State.setFd_free h1)
    | (with_reducible refine Free.ite (fun _ => ?_) (fun _ => ?_))
    | (with_reducible refine Free.foldl _ (fun _ _ _ => ?_) ?_)

theorem State.feedUnseat_free {P : State → Prop} (h : Free P [.regs, .evq]) {s : State} (hs : P s) (n : Fin 8) :
    P (s.feedUnseat n) := by
  unfold State.feedUnseat
  repeat' first
    | (with_reducible assumption)
    | (with_reducible apply State.feedQueue_free h)
    | (with_reducible apply State.setFeed_free h)
    | (with_reducible refine Free.ite (fun _ => ?_) (fun _ => ?_))

theorem State.feedEnable_free {P : State → Prop} (h : Free P [.regs, .evq, .feed]) {s : State} (hs : P s) (n : Fin 8) :
    P (s.feedEnable n) := by
  have h1 := h.mono (B := [.regs, .evq]) (by decide)
  unfold State.feedEnable
  repeat' first
    | (with_reducible assumption)
    | (with_reducible apply State.feedOff_free h)
    | (with_reducible apply State.feedUnseat_free h1)
    | (with_reducible refine Free.ite (fun _ => ?_) (fun _ => ?_))

theorem State.feedsEnable_free {P : State → Prop} (h : Free P [.regs, .evq, .feed]) {s : State} (hs : P s) :
    P (s.feedsEnable) := by
  unfold State.feedsEnable
  repeat' first
    | (with_reducible assumption)
    | (with_reducible apply State.feedEnable_free h)
    | (with_reducible refine Free.foldl _ (fun _ _ _ => ?_) ?_)

theorem State.feedsOff_free {P : State → Prop} (h : Free P [.regs, .evq, .feed]) {s : State} (hs : P s) :
    P (s.feedsOff) := by
  unfold State.feedsOff
  repeat' first
    | (with_reducible assumption)
    | (with_reducible apply State.feedOff_free h)
    | (with_reducible refine Free.foldl _ (fun _ _ _ => ?_) ?_)

theorem State.feedsReset_free {P : State → Prop} (h : Free P [.regs, .evq, .feed]) {s : State} (hs : P s) :
    P (s.feedsReset) := by
  have h1 := h.mono (B := [.regs]) (by decide)
  unfold State.feedsReset
  repeat' first
    | (with_reducible assumption)
    | (with_reducible apply State.feedOff_free h)
    | (with_reducible apply State.put_free h1)
    | (with_reducible refine Free.foldl _ (fun _ _ _ => ?_) ?_)

theorem State.feedsEnter_free {P : State → Prop} (h : Free P [.regs, .evq, .feed]) {s : State} (hs : P s) :
    P (s.feedsEnter) := by
  have h1 := h.mono (B := [.feed]) (by decide)
  unfold State.feedsEnter
  repeat' first
    | (with_reducible assumption)
    | (with_reducible apply State.feedsEnable_free h)
    | (with_reducible apply State.setFd_free h1)
    | (with_reducible refine Free.foldl _ (fun _ _ _ => ?_) ?_)

theorem State.feedsShed_free {P : State → Prop} (h : Free P [.regs, .evq, .feedL]) {s : State} (hs : P s) :
    P (s.feedsShed) := by
  have h1 := h.mono (B := [.regs]) (by decide)
  have h2 := h.mono (B := [.regs, .evq]) (by decide)
  unfold State.feedsShed
  extract_lets
  repeat' first
    | (with_reducible assumption)
    | (with_reducible apply State.put_free h1)
    | (with_reducible apply State.setFeed_free h2)
    | (with_reducible refine Free.ite (fun _ => ?_) (fun _ => ?_))
    | (with_reducible refine Free.foldl _ (fun _ _ _ => ?_) ?_)
    | (with_reducible refine (h.feedL (by decide) _ ?_))

theorem State.feedsClearLocked_free {P : State → Prop} (h : Free P [.regs, .evq]) {s : State} (hs : P s) (mask : Nat) :
    P (s.feedsClearLocked mask) := by
  have h1 := h.mono (B := [.regs]) (by decide)
  unfold State.feedsClearLocked
  repeat' first
    | (with_reducible assumption)
    | (with_reducible apply State.feedUnseat_free h)
    | (with_reducible apply State.put_free h1)
    | (with_reducible refine Free.ite (fun _ => ?_) (fun _ => ?_))
    | (with_reducible refine Free.foldl _ (fun _ _ _ => ?_) ?_)

theorem State.feedsRestart_free {P : State → Prop} (h : Free P [.regs, .evq, .feed]) {s : State} (hs : P s) (mask : Nat) :
    P (s.feedsRestart mask) := by
  have h1 := h.mono (B := [.regs, .evq]) (by decide)
  have h2 := h.mono (B := [.feed]) (by decide)
  unfold State.feedsRestart
  repeat' first
    | (with_reducible assumption)
    | (with_reducible apply State.feedQueue_free h1)
    | (with_reducible apply State.setFd_free h2)
    | (with_reducible apply State.setFeed_free h1)
    | (with_reducible refine Free.ite (fun _ => ?_) (fun _ => ?_))
    | (with_reducible refine Free.foldl _ (fun _ _ _ => ?_) ?_)

theorem State.feedsCmd_free {P : State → Prop} (h : Free P [.regs, .evq, .feed]) {s : State} (hs : P s) (v : Nat) :
    P (s.feedsCmd v) := by
  have h1 := h.mono (B := [.regs, .evq]) (by decide)
  unfold State.feedsCmd
  repeat' first
    | (with_reducible assumption)
    | (with_reducible apply State.feedsClearLocked_free h1)
    | (with_reducible apply State.feedsRestart_free h)
    | (with_reducible refine Free.ite (fun _ => ?_) (fun _ => ?_))
    | split

theorem State.feedFast_free {P : State → Prop} (h : Free P [.regs, .mem, .evq, .fault, .feed]) {s : State} (hs : P s) (n : Fin 8) :
    P (s.feedFast n) := by
  unfold State.feedFast
  repeat' first
    | (with_reducible assumption)
    | (with_reducible apply State.feedTrip_free h)
    | (with_reducible refine Free.ite (fun _ => ?_) (fun _ => ?_))

theorem State.feedPowerGood_free {P : State → Prop} (h : Free P [.regs, .evq, .feed]) {s : State} (hs : P s) (n : Fin 8) :
    P (s.feedPowerGood n) := by
  have h1 := h.mono (B := [.feed]) (by decide)
  have h2 := h.mono (B := [.regs, .evq]) (by decide)
  unfold State.feedPowerGood
  extract_lets
  repeat' first
    | (with_reducible assumption)
    | (with_reducible apply State.setFd_free h1)
    | (with_reducible apply State.setFeed_free h2)
    | (with_reducible refine Free.ite (fun _ => ?_) (fun _ => ?_))
    | split

theorem State.feedStartMax_free {P : State → Prop} (h : Free P [.regs, .mem, .evq, .fault, .feed]) {s : State} (hs : P s) (n : Fin 8) :
    P (s.feedStartMax n) := by
  unfold State.feedStartMax
  repeat' first
    | (with_reducible assumption)
    | (with_reducible apply State.feedTrip_free h)
    | (with_reducible refine Free.ite (fun _ => ?_) (fun _ => ?_))
    | split

theorem State.feedMonitor_free {P : State → Prop} (h : Free P [.regs, .feed]) {s : State} (hs : P s) (n : Fin 8) (x : FetSense) :
    P (s.feedMonitor n x) := by
  have h1 := h.mono (B := [.regs]) (by decide)
  have h2 := h.mono (B := [.feed]) (by decide)
  unfold State.feedMonitor
  extract_lets
  repeat' first
    | (with_reducible assumption)
    | (with_reducible apply State.put_free h1)
    | (with_reducible apply State.setFd_free h2)

theorem State.feedMonitors_free {P : State → Prop} (h : Free P [.regs, .feed]) {s : State} (hs : P s) (l : List FetSense) :
    P (s.feedMonitors l) := by
  unfold State.feedMonitors
  repeat' first
    | (with_reducible assumption)
    | (with_reducible apply State.feedMonitor_free h)
    | (with_reducible refine Free.foldl _ (fun _ _ _ => ?_) ?_)
    | split

theorem State.feedGood_free {P : State → Prop} (h : Free P [.regs]) {s : State} (hs : P s) (n : Fin 8) :
    P (s.feedGood n) := by
  unfold State.feedGood
  repeat' first
    | (with_reducible assumption)
    | (with_reducible apply State.put_free h)
    | (with_reducible refine Free.ite (fun _ => ?_) (fun _ => ?_))

theorem State.setSeat_free {P : State → Prop} (h : Free P [.regs, .evq]) {s : State} (hs : P s) (n : Fin 8) (b : Bool) :
    P (s.setSeat n b) := by
  have h1 := h.mono (B := [.regs]) (by decide)
  unfold State.setSeat
  extract_lets
  repeat' first
    | (with_reducible assumption)
    | (with_reducible apply State.put_free h1)
    | (with_reducible apply State.raise_free h)

theorem State.seatConfirm_free {P : State → Prop} (h : Free P [.regs, .evq]) {s : State} (hs : P s) (n : Fin 8) :
    P (s.seatConfirm n) := by
  unfold State.seatConfirm
  extract_lets
  repeat' first
    | (with_reducible assumption)
    | (with_reducible apply State.feedQueue_free h)
    | (with_reducible apply State.setSeat_free h)
    | (with_reducible refine Free.ite (fun _ => ?_) (fun _ => ?_))

theorem State.feedStart_free {P : State → Prop} (h : Free P [.regs, .mem, .evq, .fault, .cmp, .feed]) {s : State} (hs : P s) (n : Fin 8) :
    P (s.feedStart n) := by
  have h1 := h.mono (B := [.regs, .mem, .evq, .fault, .feed]) (by decide)
  have h2 := h.mono (B := [.regs, .cmp]) (by decide)
  have h3 := h.mono (B := [.feed]) (by decide)
  have h4 := h.mono (B := [.regs, .evq]) (by decide)
  unfold State.feedStart
  extract_lets
  repeat' first
    | (with_reducible assumption)
    | (with_reducible apply State.feedTripAt_free h1)
    | (with_reducible apply State.holdWrite_free h2)
    | (with_reducible apply State.setFd_free h3)
    | (with_reducible apply State.setFeed_free h4)
    | (with_reducible refine Free.ite (fun _ => ?_) (fun _ => ?_))

theorem State.feedsRound_free {P : State → Prop} (h : Free P [.regs, .mem, .evq, .fault, .feed]) {s : State} (hs : P s) :
    P (s.feedsRound) := by
  unfold State.feedsRound
  repeat' first
    | (with_reducible assumption)
    | (with_reducible apply State.feedRound_free h)
    | (with_reducible refine Free.foldl _ (fun _ _ _ => ?_) ?_)

theorem State.feedSenseLoss_free {P : State → Prop} (h : Free P [.regs, .fault]) {s : State} (hs : P s) (n : Fin 8) :
    P (s.feedSenseLoss n) := by
  unfold State.feedSenseLoss
  repeat' first
    | (with_reducible assumption)
    | (with_reducible apply State.err_free h)
    | (with_reducible refine Free.ite (fun _ => ?_) (fun _ => ?_))

theorem State.feedsDirect_free {P : State → Prop} (h : Free P [.regs, .mem, .evq, .fault, .feed]) {s : State} (hs : P s) (m : Nat) :
    P (s.feedsDirect m) := by
  have h1 := h.mono (B := [.regs, .fault]) (by decide)
  have h2 := h.mono (B := [.regs]) (by decide)
  have h3 := h.mono (B := [.feed]) (by decide)
  unfold State.feedsDirect
  repeat' first
    | (with_reducible assumption)
    | (with_reducible apply State.err_free h1)
    | (with_reducible apply State.feedJudgeT_free h)
    | (with_reducible apply State.putI_free h2)
    | (with_reducible apply State.setFd_free h3)
    | (with_reducible refine Free.ite (fun _ => ?_) (fun _ => ?_))
    | (with_reducible refine Free.foldl _ (fun _ _ _ => ?_) ?_)
    | split

theorem State.seatRemove_free {P : State → Prop} (h : Free P [.regs, .evq, .feed]) {s : State} (hs : P s) (n : Fin 8) :
    P (s.seatRemove n) := by
  have h1 := h.mono (B := [.regs]) (by decide)
  have h2 := h.mono (B := [.feed]) (by decide)
  have h3 := h.mono (B := [.regs, .evq]) (by decide)
  unfold State.seatRemove
  extract_lets
  repeat' first
    | (with_reducible assumption)
    | (with_reducible apply State.put_free h1)
    | (with_reducible apply State.setFd_free h2)
    | (with_reducible apply State.setFeed_free h3)
    | (with_reducible apply State.setSeat_free h3)
    | (with_reducible refine Free.ite (fun _ => ?_) (fun _ => ?_))

end Sys2Proof.Machine
end

