-- ==== Sys2Proof/Laws/StableInpath.lean ====
section
/-! SUPPORT. Which parts of the state the operations of Machine/Inpath.lean may change: a property that stands whatever becomes of those
parts stands after the operation. -/

namespace Sys2Proof.Machine

theorem State.setInp_free {P : State → Prop} (h : Free P [.regs, .evq]) {s : State} (hs : P s) (c : Nat) :
    P (s.setInp c) := by
  have h1 := h.mono (B := [.regs]) (by decide)
  unfold State.setInp
  extract_lets
  repeat' first
    | (with_reducible assumption)
    | (with_reducible apply State.level_free h)
    | (with_reducible apply State.put_free h1)

theorem State.inpOff_free {P : State → Prop} (h : Free P [.regs, .evq, .inp]) {s : State} (hs : P s) :
    P (s.inpOff) := by
  have h1 := h.mono (B := [.regs, .evq]) (by decide)
  unfold State.inpOff
  extract_lets
  repeat' first
    | (with_reducible assumption)
    | (with_reducible apply State.setInp_free h1)
    | (with_reducible refine Free.ite (fun _ => ?_) (fun _ => ?_))
    | (with_reducible refine (h.inp (by decide) _ ?_))

theorem State.inpHibernate_free {P : State → Prop} (h : Free P [.regs, .evq, .inp]) {s : State} (hs : P s) :
    P (s.inpHibernate) := by
  unfold State.inpHibernate
  extract_lets
  repeat' first
    | (with_reducible assumption)
    | (with_reducible apply State.inpOff_free h)
    | (with_reducible refine (h.inp (by decide) _ ?_))

theorem State.inpStart_free {P : State → Prop} (h : Free P [.regs, .evq, .inp]) {s : State} (hs : P s) :
    P (s.inpStart) := by
  have h1 := h.mono (B := [.regs, .evq]) (by decide)
  unfold State.inpStart
  extract_lets
  repeat' first
    | (with_reducible assumption)
    | (with_reducible apply State.setInp_free h1)
    | (with_reducible refine (h.inp (by decide) _ ?_))

theorem State.inpEnable_free {P : State → Prop} (h : Free P [.regs, .evq, .inp]) {s : State} (hs : P s) :
    P (s.inpEnable) := by
  unfold State.inpEnable
  repeat' first
    | (with_reducible assumption)
    | (with_reducible apply State.inpOff_free h)
    | (with_reducible apply State.inpStart_free h)
    | (with_reducible refine Free.ite (fun _ => ?_) (fun _ => ?_))

theorem State.inpLock_free {P : State → Prop} (h : Free P [.regs, .evq, .inp]) {s : State} (hs : P s) :
    P (s.inpLock) := by
  have h1 := h.mono (B := [.regs]) (by decide)
  unfold State.inpLock
  extract_lets
  repeat' first
    | (with_reducible assumption)
    | (with_reducible apply State.inpEnable_free h)
    | (with_reducible apply State.wr_free h1)
    | (with_reducible refine (h.inp (by decide) _ ?_))

theorem State.inpReset_free {P : State → Prop} (h : Free P [.regs, .evq, .inp]) {s : State} (hs : P s) :
    P (s.inpReset) := by
  have h1 := h.mono (B := [.regs]) (by decide)
  have h2 := h.mono (B := [.regs, .evq]) (by decide)
  unfold State.inpReset
  extract_lets
  repeat' first
    | (with_reducible assumption)
    | (with_reducible apply State.put_free h1)
    | (with_reducible apply State.setInp_free h2)
    | (with_reducible refine (h.inp (by decide) _ ?_))

theorem State.inpSnuff_free {P : State → Prop} (h : Free P [.regs, .evq, .inp]) {s : State} (hs : P s) :
    P (s.inpSnuff) := by
  unfold State.inpSnuff
  repeat' first
    | (with_reducible assumption)
    | (with_reducible apply State.inpOff_free h)
    | (with_reducible refine Free.ite (fun _ => ?_) (fun _ => ?_))

theorem State.inpLost_free {P : State → Prop} (h : Free P [.regs, .evq, .inp]) {s : State} (hs : P s) (c : Nat) :
    P (s.inpLost c) := by
  have h1 := h.mono (B := [.regs, .evq]) (by decide)
  unfold State.inpLost
  extract_lets
  repeat' first
    | (with_reducible assumption)
    | (with_reducible apply State.raise_free h1)
    | (with_reducible refine Free.ite (fun _ => ?_) (fun _ => ?_))
    | (with_reducible refine (h.inp (by decide) _ ?_))

theorem State.inpTrip_free {P : State → Prop} (h : Free P [.regs, .evq, .fault, .inp]) {s : State} (hs : P s) :
    P (s.inpTrip) := by
  have h1 := h.mono (B := [.regs, .fault]) (by decide)
  have h2 := h.mono (B := [.regs, .evq, .inp]) (by decide)
  have h3 := h.mono (B := [.regs]) (by decide)
  have h4 := h.mono (B := [.regs, .evq]) (by decide)
  unfold State.inpTrip
  extract_lets
  repeat' first
    | (with_reducible assumption)
    | (with_reducible apply State.err_free h1)
    | (with_reducible apply State.inpLost_free h2)
    | (with_reducible apply State.put_free h3)
    | (with_reducible apply State.setInp_free h4)
    | (with_reducible refine Free.ite (fun _ => ?_) (fun _ => ?_))
    | (with_reducible refine (h.inp (by decide) _ ?_))

theorem State.inpFast_free {P : State → Prop} (h : Free P [.regs, .evq, .fault, .inp]) {s : State} (hs : P s) :
    P (s.inpFast) := by
  have h1 := h.mono (B := [.regs, .evq]) (by decide)
  unfold State.inpFast
  extract_lets
  repeat' first
    | (with_reducible assumption)
    | (with_reducible apply State.inpTrip_free h)
    | (with_reducible apply State.raise_free h1)
    | (with_reducible refine Free.ite (fun _ => ?_) (fun _ => ?_))
    | (with_reducible refine (h.inp (by decide) _ ?_))

theorem State.inpExit_free {P : State → Prop} (h : Free P [.regs, .evq, .inp]) {s : State} (hs : P s) :
    P (s.inpExit) := by
  unfold State.inpExit
  extract_lets
  repeat' first
    | (with_reducible assumption)
    | (with_reducible apply State.inpStart_free h)
    | (with_reducible refine Free.ite (fun _ => ?_) (fun _ => ?_))
    | (with_reducible refine (h.inp (by decide) _ ?_))

theorem State.inpModel_free {P : State → Prop} (h : Free P [.regs, .evq, .fault, .inp]) {s : State} (hs : P s) :
    P (s.inpModel) := by
  have h1 := h.mono (B := [.regs]) (by decide)
  have h2 := h.mono (B := [.regs, .evq]) (by decide)
  unfold State.inpModel
  extract_lets
  repeat' first
    | (with_reducible assumption)
    | (with_reducible apply State.injTake_free h1)
    | (with_reducible apply State.inpTrip_free h)
    | (with_reducible apply State.putI_free h1)
    | (with_reducible apply State.raise_free h2)
    | (with_reducible refine Free.ite (fun _ => ?_) (fun _ => ?_))
    | (with_reducible refine (h.inp (by decide) _ ?_))

theorem State.inpUvov_free {P : State → Prop} (h : Free P [.regs, .evq, .inp]) {s : State} (hs : P s) :
    P (s.inpUvov) := by
  have h1 := h.mono (B := [.regs, .evq]) (by decide)
  unfold State.inpUvov
  extract_lets
  repeat' first
    | (with_reducible assumption)
    | (with_reducible apply State.inpLost_free h)
    | (with_reducible apply State.setInp_free h1)
    | (with_reducible refine (h.inp (by decide) _ ?_))

theorem State.inpMarker_free {P : State → Prop} (h : Free P [.regs, .evq, .fault, .inp]) {s : State} (hs : P s) (limiting : Bool) :
    P (s.inpMarker limiting) := by
  have h1 := h.mono (B := [.regs, .evq, .inp]) (by decide)
  have h2 := h.mono (B := [.regs, .evq]) (by decide)
  unfold State.inpMarker
  extract_lets
  repeat' first
    | (with_reducible assumption)
    | (with_reducible apply State.inpExit_free h1)
    | (with_reducible apply State.inpModel_free h)
    | (with_reducible apply State.inpUvov_free h1)
    | (with_reducible apply State.setInp_free h2)
    | (with_reducible refine Free.ite (fun _ => ?_) (fun _ => ?_))
    | (with_reducible refine (h.inp (by decide) _ ?_))

theorem State.inpRelease_free {P : State → Prop} (h : Free P [.regs, .evq, .inp]) {s : State} (hs : P s) :
    P (s.inpRelease) := by
  have h1 := h.mono (B := [.regs]) (by decide)
  unfold State.inpRelease
  repeat' first
    | (with_reducible assumption)
    | (with_reducible apply State.inpStart_free h)
    | (with_reducible apply State.put_free h1)
    | (with_reducible refine Free.ite (fun _ => ?_) (fun _ => ?_))

theorem State.inpTimed_free {P : State → Prop} (h : Free P [.regs, .evq, .fault, .inp]) {s : State} (hs : P s) :
    P (s.inpTimed) := by
  have h1 := h.mono (B := [.regs, .evq]) (by decide)
  unfold State.inpTimed
  repeat' first
    | (with_reducible assumption)
    | (with_reducible apply State.inpTrip_free h)
    | (with_reducible apply State.raise_free h1)
    | (with_reducible refine Free.ite (fun _ => ?_) (fun _ => ?_))

theorem State.inpRetry_free {P : State → Prop} (h : Free P [.regs, .evq, .inp]) {s : State} (hs : P s) :
    P (s.inpRetry) := by
  have h1 := h.mono (B := [.regs]) (by decide)
  unfold State.inpRetry
  repeat' first
    | (with_reducible assumption)
    | (with_reducible apply State.inpExit_free h)
    | (with_reducible apply State.put_free h1)
    | (with_reducible refine Free.ite (fun _ => ?_) (fun _ => ?_))

theorem State.inpResult_free {P : State → Prop} (h : Free P [.regs, .inp]) {s : State} (hs : P s) (which : Fin 3) :
    P (s.inpResult which) := by
  have h1 := h.mono (B := [.regs]) (by decide)
  unfold State.inpResult
  extract_lets
  repeat' first
    | (with_reducible assumption)
    | (with_reducible apply State.put_free h1)
    | (with_reducible apply State.putI_free h1)
    | split
    | (with_reducible refine (h.inp (by decide) _ ?_))

theorem State.inpSenseLoss_free {P : State → Prop} (h : Free P [.regs, .fault]) {s : State} (hs : P s) :
    P (s.inpSenseLoss) := by
  unfold State.inpSenseLoss
  repeat' first
    | (with_reducible assumption)
    | (with_reducible apply State.err_free h)

theorem State.inpEnhanced_free {P : State → Prop} (h : Free P [.regs, .evq]) {s : State} (hs : P s) :
    P (s.inpEnhanced) := by
  unfold State.inpEnhanced
  repeat' first
    | (with_reducible assumption)
    | (with_reducible apply State.setInp_free h)
    | (with_reducible refine Free.ite (fun _ => ?_) (fun _ => ?_))

theorem State.inpRound_free {P : State → Prop} (h : Free P [.regs, .inp]) {s : State} (hs : P s) :
    P (s.inpRound) := by
  have h1 := h.mono (B := [.regs]) (by decide)
  unfold State.inpRound
  extract_lets
  repeat' first
    | (with_reducible assumption)
    | (with_reducible apply State.put_free h1)
    | (with_reducible refine (h.inp (by decide) _ ?_))

theorem State.inpLimit_free {P : State → Prop} (h : Free P [.regs, .evq]) {s : State} (hs : P s) :
    P (s.inpLimit) := by
  unfold State.inpLimit
  repeat' first
    | (with_reducible assumption)
    | (with_reducible apply State.setInp_free h)
    | (with_reducible refine Free.ite (fun _ => ?_) (fun _ => ?_))

theorem State.inpReverse_free {P : State → Prop} (h : Free P [.regs, .evq, .inp]) {s : State} (hs : P s) (after : Nat) :
    P (s.inpReverse after) := by
  have h1 := h.mono (B := [.regs, .evq]) (by decide)
  unfold State.inpReverse
  extract_lets
  repeat' first
    | (with_reducible assumption)
    | (with_reducible apply State.setInp_free h1)
    | (with_reducible refine Free.ite (fun _ => ?_) (fun _ => ?_))
    | (with_reducible refine (h.inp (by decide) _ ?_))

theorem State.inpConsecReset_free {P : State → Prop} (h : Free P [.regs]) {s : State} (hs : P s) :
    P (s.inpConsecReset) := by
  unfold State.inpConsecReset
  repeat' first
    | (with_reducible assumption)
    | (with_reducible apply State.put_free h)
    | (with_reducible refine Free.ite (fun _ => ?_) (fun _ => ?_))

theorem State.inpRecover_free {P : State → Prop} (h : Free P [.regs, .evq, .inp]) {s : State} (hs : P s) :
    P (s.inpRecover) := by
  unfold State.inpRecover
  repeat' first
    | (with_reducible assumption)
    | (with_reducible apply State.inpExit_free h)
    | (with_reducible refine Free.ite (fun _ => ?_) (fun _ => ?_))

theorem State.inpStartTimeout_free {P : State → Prop} (h : Free P [.regs, .evq, .fault, .inp]) {s : State} (hs : P s) :
    P (s.inpStartTimeout) := by
  have h1 := h.mono (B := [.regs, .fault]) (by decide)
  unfold State.inpStartTimeout
  repeat' first
    | (with_reducible assumption)
    | (with_reducible apply State.err_free h1)
    | (with_reducible apply State.inpTrip_free h)
    | (with_reducible refine Free.ite (fun _ => ?_) (fun _ => ?_))

end Sys2Proof.Machine
end

