-- ==== Sys2Proof/Laws/StableOperands.lean ====
section
/-! SUPPORT. Which parts of the state the operations of Machine/Operands.lean may change: a property that stands whatever becomes of those
parts stands after the operation. -/

namespace Sys2Proof.Machine

theorem State.setBudget_free {P : State → Prop} (h : Free P [.lamp]) {s : State} (hs : P s) (w : Nat) (d : Nat) :
    P (s.setBudget w d) := by
  unfold State.setBudget
  extract_lets
  repeat' first
    | (with_reducible assumption)
    | (with_reducible refine (h.lamp (by decide) _ ?_))

end Sys2Proof.Machine
end

