-- ==== Sys2Proof/Laws/StableLoad.lean ====
section
/-! SUPPORT. Which parts of the state the operations of Machine/Load.lean may change: a property that stands whatever becomes of those
parts stands after the operation. -/

namespace Sys2Proof.Machine

theorem State.placeLane_free {P : State → Prop} (h : Free P [.mem, .lamp]) {s : State} (hs : P s) (b : Nat) (n : Nat) (first : Nat) :
    P (s.placeLane b n first) := by
  have h1 := h.mono (B := [.mem]) (by decide)
  have h2 := h.mono (B := [.lamp]) (by decide)
  unfold State.placeLane
  extract_lets
  repeat' first
    | (with_reducible assumption)
    | (with_reducible apply State.copyRange_free h1)
    | (with_reducible apply State.setBudget_free h2)
    | (with_reducible refine Free.foldl _ (fun _ _ _ => ?_) ?_)

theorem State.placeImage_free {P : State → Prop} (h : Free P [.mem, .lamp]) {s : State} (hs : P s) (bank : Nat) (firsts : List Nat) :
    P (s.placeImage bank firsts) := by
  unfold State.placeImage
  extract_lets
  repeat' first
    | (with_reducible assumption)
    | (with_reducible apply State.placeLane_free h)
    | (with_reducible refine Free.foldl _ (fun _ _ _ => ?_) ?_)
    | (with_reducible refine (h.lamp (by decide) _ ?_))

theorem State.loadImage_free {P : State → Prop} (h : Free P [.mem, .lamp]) {s : State} (hs : P s) (bank : Nat) :
    P (s.loadImage bank) := by
  unfold State.loadImage
  repeat' first
    | (with_reducible assumption)
    | (with_reducible apply State.placeImage_free h)

theorem State.tryBanks_free {P : State → Prop} (h : Free P [.regs, .mem, .fault, .lamp]) {s : State} (hs : P s) (bad : Nat → Bool) (x2 : List Nat) (x3 : Bool) :
    P (s.tryBanks bad x2 x3).2 := by
  have h1 := h.mono (B := [.regs, .fault]) (by decide)
  have h2 := h.mono (B := [.mem, .lamp]) (by decide)
  have h3 := h.mono (B := [.regs]) (by decide)
  induction x2 generalizing s x3 with
  | nil => exact hs
  | cons k t ih =>
    unfold State.tryBanks
    split
    · exact ih hs x3
    · dsimp only
      split
      · exact State.loadImage_free h2 (State.checkImage_free h1 hs _ _) k
      · exact ih (State.put_free h3 (State.checkImage_free h1 hs _ _) _ _) true

theorem State.imageForRun_free {P : State → Prop} (h : Free P [.regs, .mem, .fault, .lamp]) {s : State} (hs : P s) (bad : Nat → Bool) :
    P (s.imageForRun bad).2 := by
  have h1 := h.mono (B := [.regs, .fault]) (by decide)
  have h2 := h.mono (B := [.mem, .lamp]) (by decide)
  have h3 := h.mono (B := [.regs]) (by decide)
  unfold State.imageForRun
  extract_lets
  repeat' first
    | (with_reducible assumption)
    | (with_reducible apply State.checkImage_free h1)
    | (with_reducible apply State.loadImage_free h2)
    | (with_reducible apply State.put_free h3)
    | (with_reducible apply State.tryBanks_free h)
    | (with_reducible refine Free.ite (fun _ => ?_) (fun _ => ?_))
    | split

theorem State.regrid_free {P : State → Prop} (h : Free P [.regs, .lamp]) {s : State} (hs : P s) (ms : Nat) :
    P (s.regrid ms) := by
  have h1 := h.mono (B := [.regs]) (by decide)
  unfold State.regrid
  extract_lets
  repeat' first
    | (with_reducible assumption)
    | (with_reducible apply State.put_free h1)
    | split
    | (with_reducible refine (h.lamp (by decide) _ ?_))

theorem State.lightImage_free {P : State → Prop} (h : Free P [.regs, .evq, .lamp]) {s : State} (hs : P s) (bank : Nat) :
    P (s.lightImage bank) := by
  have h1 := h.mono (B := [.regs, .evq]) (by decide)
  have h2 := h.mono (B := [.regs]) (by decide)
  have h3 := h.mono (B := [.regs, .lamp]) (by decide)
  unfold State.lightImage
  extract_lets
  repeat' first
    | (with_reducible assumption)
    | (with_reducible apply State.level_free h1)
    | (with_reducible apply State.put_free h2)
    | (with_reducible apply State.regrid_free h3)
    | (with_reducible apply State.restRequests_free h1)
    | (with_reducible apply State.wr_free h2)
    | (with_reducible refine Free.foldl _ (fun _ _ _ => ?_) ?_)
    | (with_reducible refine (h.lamp (by decide) _ ?_))

theorem State.builtinTemplate_free {P : State → Prop} (h : Free P [.regs]) {s : State} (hs : P s) (n : Fin 16) :
    P (s.builtinTemplate n) := by
  unfold State.builtinTemplate
  extract_lets
  repeat' first
    | (with_reducible assumption)
    | (with_reducible apply State.put_free h)
    | (with_reducible apply State.wr_free h)

theorem State.lightBuiltin_free {P : State → Prop} (h : Free P [.regs, .mem, .evq, .lamp, .adc]) {s : State} (hs : P s) :
    P (s.lightBuiltin) := by
  have h1 := h.mono (B := [.regs]) (by decide)
  have h2 := h.mono (B := [.regs, .evq]) (by decide)
  have h3 := h.mono (B := [.regs, .adc]) (by decide)
  have h4 := h.mono (B := [.mem]) (by decide)
  have h5 := h.mono (B := [.regs, .lamp]) (by decide)
  unfold State.lightBuiltin
  extract_lets
  repeat' first
    | (with_reducible assumption)
    | (with_reducible apply State.builtinTemplate_free h1)
    | (with_reducible apply State.level_free h2)
    | (with_reducible apply State.loadBuiltinTables_free h3)
    | (with_reducible apply State.put_free h1)
    | (with_reducible apply State.putBytes_free h4)
    | (with_reducible apply State.regrid_free h5)
    | (with_reducible apply State.wr_free h1)
    | (with_reducible refine Free.foldl _ (fun _ _ _ => ?_) ?_)
    | (with_reducible refine (h.lamp (by decide) _ ?_))

theorem State.selectImage_free {P : State → Prop} (h : Free P [.regs, .mem, .evq, .fault, .lamp, .adc]) {s : State} (hs : P s) (bad : Nat → Bool) :
    P (s.selectImage bad) := by
  have h1 := h.mono (B := [.regs, .mem, .evq, .lamp, .adc]) (by decide)
  have h2 := h.mono (B := [.regs, .evq, .lamp]) (by decide)
  have h3 := h.mono (B := [.regs]) (by decide)
  have h4 := h.mono (B := [.regs, .evq]) (by decide)
  have h5 := h.mono (B := [.regs, .mem, .fault, .lamp]) (by decide)
  unfold State.selectImage
  extract_lets
  repeat' first
    | (with_reducible assumption)
    | (with_reducible apply State.lightBuiltin_free h1)
    | (with_reducible apply State.lightImage_free h2)
    | (with_reducible apply State.put_free h3)
    | (with_reducible apply State.raiseIf_free h4)
    | (with_reducible apply State.tryBanks_free h5)
    | (with_reducible refine Free.ite (fun _ => ?_) (fun _ => ?_))
    | split
    | dsimp +zetaDelta only

end Sys2Proof.Machine
end

