-- ==== Sys2Proof/Laws/StableHouseBus.lean ====
section
/-! SUPPORT. Which parts of the state the operations of Machine/HouseBus.lean may change: a property that stands whatever becomes of those
parts stands after the operation. -/

namespace Sys2Proof.Machine

theorem State.hbStart_free {P : State → Prop} (h : Free P [.regs, .hb]) {s : State} (hs : P s) :
    P (s.hbStart) := by
  have h1 := h.mono (B := [.regs]) (by decide)
  unfold State.hbStart
  extract_lets
  repeat' first
    | (with_reducible assumption)
    | (with_reducible apply State.put_free h1)
    | (with_reducible apply State.wr_free h1)
    | (with_reducible refine (h.hb (by decide) _ ?_))

theorem State.hbReset_free {P : State → Prop} (h : Free P [.regs, .hb]) {s : State} (hs : P s) :
    P (s.hbReset) := by
  have h1 := h.mono (B := [.regs]) (by decide)
  unfold State.hbReset
  extract_lets
  repeat' first
    | (with_reducible assumption)
    | (with_reducible apply State.hbStart_free h)
    | (with_reducible apply State.put_free h1)
    | (with_reducible refine (h.hb (by decide) _ ?_))

theorem State.handbackEnd_free {P : State → Prop} (h : Free P [.regs, .evq, .hb]) {s : State} (hs : P s) :
    P (s.handbackEnd) := by
  have h1 := h.mono (B := [.regs]) (by decide)
  have h2 := h.mono (B := [.regs, .evq]) (by decide)
  unfold State.handbackEnd
  extract_lets
  repeat' first
    | (with_reducible assumption)
    | (with_reducible apply State.put_free h1)
    | (with_reducible apply State.raise_free h2)
    | (with_reducible refine (h.hb (by decide) _ ?_))

theorem State.inCap_free {P : State → Prop} (h : Free P [.regs, .evq]) {s : State} (hs : P s) :
    P (s.inCap) := by
  have h1 := h.mono (B := [.regs]) (by decide)
  unfold State.inCap
  extract_lets
  repeat' first
    | (with_reducible assumption)
    | (with_reducible apply State.level_free h)
    | (with_reducible apply State.put_free h1)
    | (with_reducible refine Free.ite (fun _ => ?_) (fun _ => ?_))

theorem State.plannedInput_free {P : State → Prop} (h : Free P [.hb]) {s : State} (hs : P s) :
    P (s.plannedInput).2.2 := by
  unfold State.plannedInput
  extract_lets
  repeat' first
    | (with_reducible assumption)
    | (with_reducible refine Free.ite (fun _ => ?_) (fun _ => ?_))
    | split
    | (with_reducible refine (h.hb (by decide) _ ?_))

theorem State.selRequest_free {P : State → Prop} (h : Free P [.regs]) {s : State} (hs : P s) (n : Fin 16) (m : Nat) (force : Bool) :
    P (s.selRequest n m force) := by
  unfold State.selRequest
  repeat' first
    | (with_reducible assumption)
    | (with_reducible apply State.noteWrite_free h)
    | (with_reducible apply State.put_free h)
    | (with_reducible refine Free.ite (fun _ => ?_) (fun _ => ?_))

theorem State.dirRequest_free {P : State → Prop} (h : Free P [.regs, .evq]) {s : State} (hs : P s) (n : Fin 16) (dir : Nat) (cand : Nat) :
    P (s.dirRequest n dir cand) := by
  have h1 := h.mono (B := [.regs]) (by decide)
  unfold State.dirRequest
  extract_lets
  repeat' first
    | (with_reducible assumption)
    | (with_reducible apply State.put_free h1)
    | (with_reducible apply State.raise_free h)
    | (with_reducible apply State.selRequest_free h1)
    | (with_reducible refine Free.ite (fun _ => ?_) (fun _ => ?_))

theorem State.frameStep_free {P : State → Prop} (h : Free P [.regs, .evq]) {s : State} (hs : P s) :
    P (s.frameStep) := by
  have h1 := h.mono (B := [.regs]) (by decide)
  unfold State.frameStep
  extract_lets
  repeat' first
    | (with_reducible assumption)
    | (with_reducible apply State.dirRequest_free h)
    | (with_reducible apply State.put_free h1)
    | (with_reducible apply State.raise_free h)
    | (with_reducible apply State.selRequest_free h1)
    | (with_reducible refine Free.ite (fun _ => ?_) (fun _ => ?_))
    | (with_reducible refine Free.foldl _ (fun _ _ _ => ?_) ?_)

theorem State.hbRound_free {P : State → Prop} (h : Free P [.hb, .inp]) {s : State} (hs : P s) :
    P (s.hbRound) := by
  unfold State.hbRound
  extract_lets
  repeat' first
    | (with_reducible assumption)
    | split
    | (with_reducible refine (h.hb_inp (by decide) (by decide) _ _ ?_))

theorem State.putSetpoints_free {P : State → Prop} (h : Free P [.regs, .hb]) {s : State} (hs : P s) (p : List Int) :
    P (s.putSetpoints p) := by
  have h1 := h.mono (B := [.regs]) (by decide)
  unfold State.putSetpoints
  extract_lets
  repeat' first
    | (with_reducible assumption)
    | (with_reducible apply State.schedPut_free h1)
    | (with_reducible refine Free.foldl _ (fun _ _ _ => ?_) ?_)
    | (with_reducible refine (h.hb (by decide) _ ?_))

theorem State.shedding_free {P : State → Prop} (h : Free P [.regs, .evq, .fault, .hb]) {s : State} (hs : P s) (x : Int) :
    P (s.shedding x) := by
  have h1 := h.mono (B := [.regs, .fault]) (by decide)
  have h2 := h.mono (B := [.regs]) (by decide)
  have h3 := h.mono (B := [.regs, .evq]) (by decide)
  unfold State.shedding
  extract_lets
  repeat' first
    | (with_reducible assumption)
    | (with_reducible apply State.err_free h1)
    | (with_reducible apply State.put_free h2)
    | (with_reducible apply State.raise_free h3)
    | (with_reducible refine Free.ite (fun _ => ?_) (fun _ => ?_))
    | split
    | (with_reducible refine (h.hb (by decide) _ ?_))

theorem State.shares_free {P : State → Prop} (h : Free P [.regs, .evq, .fault, .hb]) {s : State} (hs : P s) (d : Int) :
    P (s.shares d) := by
  have h1 := h.mono (B := [.regs, .evq, .hb]) (by decide)
  have h2 := h.mono (B := [.hb]) (by decide)
  have h3 := h.mono (B := [.regs]) (by decide)
  have h4 := h.mono (B := [.regs, .hb]) (by decide)
  have h5 := h.mono (B := [.regs, .evq]) (by decide)
  unfold State.shares
  extract_lets
  repeat' first
    | (with_reducible assumption)
    | (with_reducible apply State.handbackEnd_free h1)
    | (with_reducible apply State.plannedInput_free h2)
    | (with_reducible apply State.put_free h3)
    | (with_reducible apply State.putI_free h3)
    | (with_reducible apply State.putSetpoints_free h4)
    | (with_reducible apply State.raiseIf_free h5)
    | (with_reducible apply State.shedding_free h)
    | (with_reducible refine Free.ite (fun _ => ?_) (fun _ => ?_))

theorem State.measure_free {P : State → Prop} (h : Free P [.regs, .hb]) {s : State} (hs : P s) :
    P (s.measure).2 := by
  have h1 := h.mono (B := [.regs]) (by decide)
  unfold State.measure
  extract_lets
  repeat' first
    | (with_reducible assumption)
    | (with_reducible apply State.put_free h1)
    | (with_reducible apply State.putI_free h1)
    | (with_reducible refine (h.hb (by decide) _ ?_))

theorem State.roundStep_free {P : State → Prop} (h : Free P [.regs, .evq, .fault, .hb]) {s : State} (hs : P s) :
    P (s.roundStep) := by
  have h1 := h.mono (B := [.regs, .fault]) (by decide)
  have h2 := h.mono (B := [.regs, .evq]) (by decide)
  have h3 := h.mono (B := [.regs]) (by decide)
  have h4 := h.mono (B := [.regs, .hb]) (by decide)
  unfold State.roundStep
  extract_lets
  repeat' first
    | (with_reducible assumption)
    | (with_reducible apply State.err_free h1)
    | (with_reducible apply State.inCap_free h2)
    | (with_reducible apply State.injTake_free h3)
    | (with_reducible apply State.measure_free h4)
    | (with_reducible apply State.put_free h3)
    | (with_reducible apply State.putSetpoints_free h4)
    | (with_reducible apply State.raise_free h2)
    | (with_reducible apply State.shares_free h)
    | (with_reducible refine Free.ite (fun _ => ?_) (fun _ => ?_))
    | (with_reducible refine (h.hb (by decide) _ ?_))

theorem State.putRank_free {P : State → Prop} (h : Free P [.mem]) {s : State} (hs : P s) (n : Fin 16) (m : Nat) (rank : Nat) (ex : Bool) :
    P (s.putRank n m rank ex) := by
  unfold State.putRank
  extract_lets
  repeat' first
    | (with_reducible assumption)
    | (with_reducible apply State.store_free h)

theorem State.rank_free {P : State → Prop} (h : Free P [.regs, .mem, .hb]) {s : State} (hs : P s) (n : Fin 16) (mods : Nat) :
    P (s.rank n mods) := by
  have h1 := h.mono (B := [.regs]) (by decide)
  have h2 := h.mono (B := [.mem]) (by decide)
  unfold State.rank
  extract_lets
  repeat' first
    | (with_reducible assumption)
    | (with_reducible apply State.put_free h1)
    | (with_reducible apply State.putRank_free h2)
    | (with_reducible refine Free.ite (fun _ => ?_) (fun _ => ?_))
    | (with_reducible refine Free.foldl _ (fun _ _ _ => ?_) ?_)
    | (with_reducible refine (h.hb (by decide) _ ?_))

end Sys2Proof.Machine
end

