-- ==== Sys2Proof/Laws/StablePack.lean ====
section
/-! SUPPORT. Which parts of the state the operations of Machine/Pack.lean may change: a property that stands whatever becomes of those
parts stands after the operation. -/

namespace Sys2Proof.Machine

theorem State.setPresent_free {P : State → Prop} (h : Free P [.regs, .evq]) {s : State} (hs : P s) (b : Bool) :
    P (s.setPresent b) := by
  have h1 := h.mono (B := [.regs]) (by decide)
  unfold State.setPresent
  extract_lets
  repeat' first
    | (with_reducible assumption)
    | (with_reducible apply State.level_free h)
    | (with_reducible apply State.put_free h1)
    | (with_reducible apply State.raise_free h)
    | (with_reducible refine Free.ite (fun _ => ?_) (fun _ => ?_))

theorem State.packPresence_free {P : State → Prop} (h : Free P [.regs, .evq, .pack]) {s : State} (hs : P s) (det : Bool) :
    P (s.packPresence det) := by
  have h1 := h.mono (B := [.regs, .evq]) (by decide)
  unfold State.packPresence
  extract_lets
  repeat' first
    | (with_reducible assumption)
    | (with_reducible apply State.setPresent_free h1)
    | (with_reducible refine Free.ite (fun _ => ?_) (fun _ => ?_))
    | (with_reducible refine (h.pack (by decide) _ ?_))

theorem State.packCounts_free {P : State → Prop} (h : Free P [.pack]) {s : State} (hs : P s) :
    P (s.packCounts) := by
  unfold State.packCounts
  extract_lets
  repeat' first
    | (with_reducible assumption)
    | split
    | (with_reducible refine (h.pack (by decide) _ ?_))

theorem State.packEnergy_free {P : State → Prop} (h : Free P [.regs, .pack]) {s : State} (hs : P s) :
    P (s.packEnergy) := by
  have h1 := h.mono (B := [.regs]) (by decide)
  unfold State.packEnergy
  extract_lets
  repeat' first
    | (with_reducible assumption)
    | (with_reducible apply State.put_free h1)
    | (with_reducible apply State.putI_free h1)
    | (with_reducible refine (h.pack (by decide) _ ?_))

theorem State.packRoundPresence_free {P : State → Prop} (h : Free P [.regs, .evq, .pack]) {s : State} (hs : P s) :
    P (s.packRoundPresence) := by
  have h1 := h.mono (B := [.regs, .evq]) (by decide)
  unfold State.packRoundPresence
  extract_lets
  repeat' first
    | (with_reducible assumption)
    | (with_reducible apply State.setPresent_free h1)
    | (with_reducible refine Free.ite (fun _ => ?_) (fun _ => ?_))
    | (with_reducible refine (h.pack (by decide) _ ?_))

theorem State.setCut_free {P : State → Prop} (h : Free P [.regs, .evq]) {s : State} (hs : P s) (b : Bool) :
    P (s.setCut b) := by
  have h1 := h.mono (B := [.regs]) (by decide)
  unfold State.setCut
  repeat' first
    | (with_reducible assumption)
    | (with_reducible apply State.level_free h)
    | (with_reducible apply State.put_free h1)

theorem State.packCutRow_free {P : State → Prop} (h : Free P [.regs, .evq]) {s : State} (hs : P s) :
    P (s.packCutRow) := by
  unfold State.packCutRow
  repeat' first
    | (with_reducible assumption)
    | (with_reducible apply State.setCut_free h)
    | (with_reducible refine Free.ite (fun _ => ?_) (fun _ => ?_))

theorem State.safeReset_free {P : State → Prop} (h : Free P [.regs, .pack]) {s : State} (hs : P s) :
    P (s.safeReset) := by
  have h1 := h.mono (B := [.regs]) (by decide)
  unfold State.safeReset
  extract_lets
  repeat' first
    | (with_reducible assumption)
    | (with_reducible apply State.put_free h1)
    | (with_reducible refine (h.pack (by decide) _ ?_))

theorem State.packClear_free {P : State → Prop} (h : Free P [.pack]) {s : State} (hs : P s) :
    P (s.packClear) := by
  unfold State.packClear
  extract_lets
  repeat' first
    | (with_reducible assumption)
    | (with_reducible refine (h.pack (by decide) _ ?_))

theorem State.setPack_free {P : State → Prop} (h : Free P [.regs, .evq, .pack]) {s : State} (hs : P s) (c : Nat) :
    P (s.setPack c) := by
  have h1 := h.mono (B := [.pack]) (by decide)
  have h2 := h.mono (B := [.regs]) (by decide)
  have h3 := h.mono (B := [.regs, .evq]) (by decide)
  unfold State.setPack
  extract_lets
  repeat' first
    | (with_reducible assumption)
    | (with_reducible apply State.packClear_free h1)
    | (with_reducible apply State.put_free h2)
    | (with_reducible apply State.raise_free h3)
    | (with_reducible refine Free.ite (fun _ => ?_) (fun _ => ?_))
    | (with_reducible refine (h.pack (by decide) _ ?_))

theorem State.packChargeRows_free {P : State → Prop} (h : Free P [.regs, .evq, .pack]) {s : State} (hs : P s) :
    P (s.packChargeRows) := by
  have h1 := h.mono (B := [.regs, .evq]) (by decide)
  have h2 := h.mono (B := [.regs, .pack]) (by decide)
  unfold State.packChargeRows
  extract_lets
  repeat' first
    | (with_reducible assumption)
    | (with_reducible apply State.packCutRow_free h1)
    | (with_reducible apply State.safeReset_free h2)
    | (with_reducible apply State.setPack_free h)
    | (with_reducible refine Free.ite (fun _ => ?_) (fun _ => ?_))
    | (with_reducible refine (h.pack (by decide) _ ?_))

theorem State.packRows_free {P : State → Prop} (h : Free P [.regs, .evq, .pack]) {s : State} (hs : P s) :
    P (s.packRows) := by
  have h1 := h.mono (B := [.regs]) (by decide)
  have h2 := h.mono (B := [.regs, .evq]) (by decide)
  unfold State.packRows
  extract_lets
  repeat' first
    | (with_reducible assumption)
    | (with_reducible apply State.packChargeRows_free h)
    | (with_reducible apply State.put_free h1)
    | (with_reducible apply State.raise_free h2)
    | (with_reducible apply State.setCut_free h2)
    | (with_reducible apply State.setPack_free h)
    | (with_reducible refine Free.ite (fun _ => ?_) (fun _ => ?_))

theorem State.packZone_free {P : State → Prop} (h : Free P [.regs, .evq, .fault]) {s : State} (hs : P s) :
    P (s.packZone) := by
  have h1 := h.mono (B := [.regs, .fault]) (by decide)
  have h2 := h.mono (B := [.regs]) (by decide)
  have h3 := h.mono (B := [.regs, .evq]) (by decide)
  unfold State.packZone
  extract_lets
  repeat' first
    | (with_reducible assumption)
    | (with_reducible apply State.err_free h1)
    | (with_reducible apply State.put_free h2)
    | (with_reducible apply State.putI_free h2)
    | (with_reducible apply State.raise_free h3)
    | (with_reducible refine Free.ite (fun _ => ?_) (fun _ => ?_))
    | split

theorem State.safetyOut_free {P : State → Prop} (h : Free P [.regs, .evq, .pack]) {s : State} (hs : P s) :
    P (s.safetyOut) := by
  have h1 := h.mono (B := [.regs]) (by decide)
  have h2 := h.mono (B := [.regs, .evq]) (by decide)
  unfold State.safetyOut
  repeat' first
    | (with_reducible assumption)
    | (with_reducible apply State.put_free h1)
    | (with_reducible apply State.raise_free h2)
    | (with_reducible apply State.setPack_free h)
    | (with_reducible refine Free.ite (fun _ => ?_) (fun _ => ?_))

theorem State.safetyStep_free {P : State → Prop} (h : Free P [.regs, .evq, .pack]) {s : State} (hs : P s) :
    P (s.safetyStep) := by
  have h1 := h.mono (B := [.regs]) (by decide)
  have h2 := h.mono (B := [.regs, .evq]) (by decide)
  unfold State.safetyStep
  extract_lets
  repeat' first
    | (with_reducible assumption)
    | (with_reducible apply State.put_free h1)
    | (with_reducible apply State.raiseIf_free h2)
    | (with_reducible apply State.safetyOut_free h)
    | (with_reducible refine Free.ite (fun _ => ?_) (fun _ => ?_))
    | (with_reducible refine (h.pack (by decide) _ ?_))

theorem State.packRound_free {P : State → Prop} (h : Free P [.regs, .evq, .fault, .pack]) {s : State} (hs : P s) :
    P (s.packRound) := by
  have h1 := h.mono (B := [.pack]) (by decide)
  have h2 := h.mono (B := [.regs, .pack]) (by decide)
  have h3 := h.mono (B := [.regs, .evq, .pack]) (by decide)
  have h4 := h.mono (B := [.regs, .evq, .fault]) (by decide)
  unfold State.packRound
  repeat' first
    | (with_reducible assumption)
    | (with_reducible apply State.packCounts_free h1)
    | (with_reducible apply State.packEnergy_free h2)
    | (with_reducible apply State.packRoundPresence_free h3)
    | (with_reducible apply State.packRows_free h3)
    | (with_reducible apply State.packZone_free h4)
    | (with_reducible apply State.safetyStep_free h3)

theorem State.packReset_free {P : State → Prop} (h : Free P [.regs, .evq, .pack]) {s : State} (hs : P s) :
    P (s.packReset) := by
  have h1 := h.mono (B := [.pack]) (by decide)
  have h2 := h.mono (B := [.regs]) (by decide)
  unfold State.packReset
  extract_lets
  repeat' first
    | (with_reducible assumption)
    | (with_reducible apply State.packClear_free h1)
    | (with_reducible apply State.put_free h2)
    | (with_reducible apply State.setPack_free h)
    | (with_reducible refine (h.pack (by decide) _ ?_))

theorem State.lossSeen_free {P : State → Prop} (h : Free P [.regs, .evq]) {s : State} (hs : P s) :
    P (s.lossSeen) := by
  have h1 := h.mono (B := [.regs]) (by decide)
  unfold State.lossSeen
  repeat' first
    | (with_reducible assumption)
    | (with_reducible apply State.put_free h1)
    | (with_reducible apply State.raise_free h)
    | (with_reducible refine Free.ite (fun _ => ?_) (fun _ => ?_))

theorem State.packClearTo_free {P : State → Prop} (h : Free P [.regs, .pack]) {s : State} (hs : P s) :
    P (s.packClearTo) := by
  have h1 := h.mono (B := [.regs]) (by decide)
  unfold State.packClearTo
  repeat' first
    | (with_reducible assumption)
    | (with_reducible apply State.put_free h1)
    | (with_reducible apply State.safeReset_free h)
    | (with_reducible refine Free.ite (fun _ => ?_) (fun _ => ?_))

theorem State.packHold_free {P : State → Prop} (h : Free P [.pack]) {s : State} (hs : P s) :
    P (s.packHold) := by
  unfold State.packHold
  extract_lets
  repeat' first
    | (with_reducible assumption)
    | (with_reducible refine (h.pack (by decide) _ ?_))

theorem State.packRestart_free {P : State → Prop} (h : Free P [.pack]) {s : State} (hs : P s) :
    P (s.packRestart) := by
  unfold State.packRestart
  extract_lets
  repeat' first
    | (with_reducible assumption)
    | (with_reducible refine Free.ite (fun _ => ?_) (fun _ => ?_))
    | (with_reducible refine (h.pack (by decide) _ ?_))

theorem State.packCmd_free {P : State → Prop} (h : Free P [.regs, .pack]) {s : State} (hs : P s) (v : Nat) :
    P (s.packCmd v) := by
  have h1 := h.mono (B := [.pack]) (by decide)
  unfold State.packCmd
  repeat' first
    | (with_reducible assumption)
    | (with_reducible apply State.packClearTo_free h)
    | (with_reducible apply State.packHold_free h1)
    | (with_reducible apply State.packRestart_free h1)
    | (with_reducible refine Free.ite (fun _ => ?_) (fun _ => ?_))
    | split

theorem State.setRet_free {P : State → Prop} (h : Free P [.regs, .pack]) {s : State} (hs : P s) (us : Nat) :
    P (s.setRet us) := by
  have h1 := h.mono (B := [.regs]) (by decide)
  unfold State.setRet
  extract_lets
  repeat' first
    | (with_reducible assumption)
    | (with_reducible apply State.put_free h1)
    | (with_reducible refine (h.pack (by decide) _ ?_))

theorem State.rideEntered_free {P : State → Prop} (h : Free P [.regs, .evq, .hb, .pack]) {s : State} (hs : P s) :
    P (s.rideEntered) := by
  have h1 := h.mono (B := [.regs, .evq, .pack]) (by decide)
  have h2 := h.mono (B := [.regs]) (by decide)
  have h3 := h.mono (B := [.regs, .evq]) (by decide)
  have h4 := h.mono (B := [.regs, .pack]) (by decide)
  unfold State.rideEntered
  extract_lets
  repeat' first
    | (with_reducible assumption)
    | (with_reducible apply State.packRows_free h1)
    | (with_reducible apply State.put_free h2)
    | (with_reducible apply State.raise_free h3)
    | (with_reducible apply State.setRet_free h4)
    | (with_reducible refine (h.hb (by decide) _ ?_))

theorem State.packAccumulate_free {P : State → Prop} (h : Free P [.pack]) {s : State} (hs : P s) :
    P (s.packAccumulate) := by
  unfold State.packAccumulate
  extract_lets
  repeat' first
    | (with_reducible assumption)
    | (with_reducible refine (h.pack (by decide) _ ?_))

theorem State.packAnchor_free {P : State → Prop} (h : Free P [.mem]) {s : State} (hs : P s) (full : Bool) :
    P (s.packAnchor full) := by
  unfold State.packAnchor
  extract_lets
  repeat' first
    | (with_reducible assumption)
    | (with_reducible apply State.store_free h)
    | (with_reducible apply State.storeI_free h)

theorem State.packCutoff_free {P : State → Prop} (h : Free P [.regs, .mem, .evq, .pack]) {s : State} (hs : P s) :
    P (s.packCutoff) := by
  have h1 := h.mono (B := [.mem]) (by decide)
  have h2 := h.mono (B := [.regs, .evq, .pack]) (by decide)
  have h3 := h.mono (B := [.regs, .evq]) (by decide)
  unfold State.packCutoff
  extract_lets
  repeat' first
    | (with_reducible assumption)
    | (with_reducible apply State.packAnchor_free h1)
    | (with_reducible apply State.packRows_free h2)
    | (with_reducible apply State.setCut_free h3)
    | (with_reducible refine Free.ite (fun _ => ?_) (fun _ => ?_))
    | (with_reducible refine (h.pack (by decide) _ ?_))

theorem State.packComp_free {P : State → Prop} (h : Free P [.pwm, .pack]) {s : State} (hs : P s) (shadow : Bool) :
    P (s.packComp shadow) := by
  have h1 := h.mono (B := [.pwm]) (by decide)
  unfold State.packComp
  extract_lets
  repeat' first
    | (with_reducible assumption)
    | (with_reducible apply State.pwmShadow_free h1)
    | (with_reducible refine Free.ite (fun _ => ?_) (fun _ => ?_))
    | (with_reducible refine (h.pack (by decide) _ ?_))

theorem State.returnJudge_free {P : State → Prop} (h : Free P [.regs]) {s : State} (hs : P s) :
    P (s.returnJudge) := by
  unfold State.returnJudge
  repeat' first
    | (with_reducible assumption)
    | (with_reducible apply State.put_free h)
    | (with_reducible refine Free.ite (fun _ => ?_) (fun _ => ?_))

theorem State.packInput_free {P : State → Prop} (h : Free P [.regs, .evq, .bal, .pack]) {s : State} (hs : P s) (din : Nat) (code : Nat) :
    P (s.packInput din code) := by
  have h1 := h.mono (B := [.regs, .evq, .bal]) (by decide)
  have h2 := h.mono (B := [.regs]) (by decide)
  unfold State.packInput
  extract_lets
  repeat' first
    | (with_reducible assumption)
    | (with_reducible apply State.balInput_free h1)
    | (with_reducible apply State.put_free h2)
    | (with_reducible apply State.putI_free h2)
    | split
    | (with_reducible refine (h.pack (by decide) _ ?_))

theorem State.packFrame_free {P : State → Prop} (h : Free P [.mem, .pack]) {s : State} (hs : P s) :
    P (s.packFrame) := by
  have h1 := h.mono (B := [.mem]) (by decide)
  unfold State.packFrame
  extract_lets
  repeat' first
    | (with_reducible assumption)
    | (with_reducible apply State.store_free h1)
    | (with_reducible apply State.storeI_free h1)
    | (with_reducible refine (h.pack (by decide) _ ?_))

theorem State.rideLeft_free {P : State → Prop} (h : Free P [.regs, .evq, .hb, .inp, .pack]) {s : State} (hs : P s) :
    P (s.rideLeft) := by
  have h1 := h.mono (B := [.regs, .hb]) (by decide)
  have h2 := h.mono (B := [.regs, .evq, .inp]) (by decide)
  have h3 := h.mono (B := [.regs]) (by decide)
  have h4 := h.mono (B := [.regs, .evq]) (by decide)
  have h5 := h.mono (B := [.regs, .evq, .pack]) (by decide)
  unfold State.rideLeft
  extract_lets
  repeat' first
    | (with_reducible assumption)
    | (with_reducible apply State.hbStart_free h1)
    | (with_reducible apply State.inpRelease_free h2)
    | (with_reducible apply State.put_free h3)
    | (with_reducible apply State.raise_free h4)
    | (with_reducible apply State.schedPut_free h3)
    | (with_reducible apply State.setPack_free h5)
    | (with_reducible refine Free.ite (fun _ => ?_) (fun _ => ?_))
    | (with_reducible refine Free.foldl _ (fun _ _ _ => ?_) ?_)
    | (with_reducible refine (h.hb (by decide) _ ?_))

theorem State.runEntered_free {P : State → Prop} (h : Free P [.regs, .hb]) {s : State} (hs : P s) :
    P (s.runEntered) := by
  have h1 := h.mono (B := [.regs]) (by decide)
  unfold State.runEntered
  repeat' first
    | (with_reducible assumption)
    | (with_reducible apply State.hbStart_free h)
    | (with_reducible apply State.put_free h1)

theorem State.packSums_free {P : State → Prop} (h : Free P [.pack]) {s : State} (hs : P s) :
    P (s.packSums) := by
  unfold State.packSums
  extract_lets
  repeat' first
    | (with_reducible assumption)
    | split
    | (with_reducible refine (h.pack (by decide) _ ?_))

theorem State.rshedFast_free {P : State → Prop} (h : Free P [.regs, .evq]) {s : State} (hs : P s) :
    P (s.rshedFast) := by
  have h1 := h.mono (B := [.regs]) (by decide)
  unfold State.rshedFast
  repeat' first
    | (with_reducible assumption)
    | (with_reducible apply State.put_free h1)
    | (with_reducible apply State.raise_free h)
    | (with_reducible refine Free.ite (fun _ => ?_) (fun _ => ?_))

theorem State.packMarker_free {P : State → Prop} (h : Free P [.regs, .mem, .evq, .pack]) {s : State} (hs : P s) :
    P (s.packMarker) := by
  have h1 := h.mono (B := [.pack]) (by decide)
  have h2 := h.mono (B := [.regs, .evq]) (by decide)
  unfold State.packMarker
  extract_lets
  repeat' first
    | (with_reducible assumption)
    | (with_reducible apply State.packCutoff_free h)
    | (with_reducible apply State.packSums_free h1)
    | (with_reducible apply State.rshedFast_free h2)
    | (with_reducible refine Free.ite (fun _ => ?_) (fun _ => ?_))
    | (with_reducible refine (h.pack (by decide) _ ?_))

theorem State.rideMarker_free {P : State → Prop} (h : Free P [.regs, .evq, .inp, .pack]) {s : State} (hs : P s) :
    P (s.rideMarker) := by
  have h1 := h.mono (B := [.regs]) (by decide)
  have h2 := h.mono (B := [.regs, .evq]) (by decide)
  have h3 := h.mono (B := [.regs, .pack]) (by decide)
  unfold State.rideMarker
  extract_lets
  repeat' first
    | (with_reducible assumption)
    | (with_reducible apply State.injTake_free h1)
    | (with_reducible apply State.lossSeen_free h2)
    | (with_reducible apply State.returnJudge_free h1)
    | (with_reducible apply State.setRet_free h3)
    | (with_reducible refine Free.ite (fun _ => ?_) (fun _ => ?_))
    | (with_reducible refine (h.inp (by decide) _ ?_))
    | (with_reducible refine (h.pack (by decide) _ ?_))

theorem State.packRecCheck_free {P : State → Prop} (h : Free P [.mem]) {s : State} (hs : P s) :
    P (s.packRecCheck) := by
  unfold State.packRecCheck
  repeat' first
    | (with_reducible assumption)
    | (with_reducible apply State.store_free h)
    | (with_reducible apply State.zeroRange_free h)
    | (with_reducible refine Free.ite (fun _ => ?_) (fun _ => ?_))

theorem State.packFault_free {P : State → Prop} (h : Free P [.regs, .evq, .fault, .pack]) {s : State} (hs : P s) (cause : Nat) (inj : Bool) :
    P (s.packFault cause inj) := by
  have h1 := h.mono (B := [.regs, .fault]) (by decide)
  have h2 := h.mono (B := [.regs, .evq, .pack]) (by decide)
  unfold State.packFault
  repeat' first
    | (with_reducible assumption)
    | (with_reducible apply State.errI_free h1)
    | (with_reducible apply State.setPack_free h2)

theorem State.packOv_free {P : State → Prop} (h : Free P [.regs, .evq, .fault, .pack]) {s : State} (hs : P s) :
    P (s.packOv) := by
  unfold State.packOv
  repeat' first
    | (with_reducible assumption)
    | (with_reducible apply State.packFault_free h)

theorem State.packZero_free {P : State → Prop} (h : Free P [.pack]) {s : State} (hs : P s) :
    P (s.packZero) := by
  unfold State.packZero
  extract_lets
  repeat' first
    | (with_reducible assumption)
    | (with_reducible refine Free.ite (fun _ => ?_) (fun _ => ?_))
    | (with_reducible refine (h.pack (by decide) _ ?_))

theorem State.inputLoss_free {P : State → Prop} (h : Free P [.regs, .evq]) {s : State} (hs : P s) :
    P (s.inputLoss) := by
  unfold State.inputLoss
  repeat' first
    | (with_reducible assumption)
    | (with_reducible apply State.lossSeen_free h)
    | (with_reducible refine Free.ite (fun _ => ?_) (fun _ => ?_))

theorem State.packHicEnd_free {P : State → Prop} (h : Free P [.regs, .evq, .pack]) {s : State} (hs : P s) :
    P (s.packHicEnd) := by
  have h1 := h.mono (B := [.pack]) (by decide)
  unfold State.packHicEnd
  repeat' first
    | (with_reducible assumption)
    | (with_reducible apply State.packClear_free h1)
    | (with_reducible apply State.setPack_free h)
    | (with_reducible refine Free.ite (fun _ => ?_) (fun _ => ?_))

theorem State.rshedRounds_free {P : State → Prop} (h : Free P [.regs, .evq, .pack]) {s : State} (hs : P s) :
    P (s.rshedRounds) := by
  have h1 := h.mono (B := [.regs]) (by decide)
  have h2 := h.mono (B := [.regs, .evq]) (by decide)
  unfold State.rshedRounds
  extract_lets
  repeat' first
    | (with_reducible assumption)
    | (with_reducible apply State.put_free h1)
    | (with_reducible apply State.raise_free h2)
    | (with_reducible refine Free.ite (fun _ => ?_) (fun _ => ?_))
    | (with_reducible refine (h.pack (by decide) _ ?_))

theorem State.packDone_free {P : State → Prop} (h : Free P [.regs, .mem, .evq, .pack]) {s : State} (hs : P s) :
    P (s.packDone) := by
  have h1 := h.mono (B := [.mem]) (by decide)
  have h2 := h.mono (B := [.regs]) (by decide)
  have h3 := h.mono (B := [.regs, .evq]) (by decide)
  have h4 := h.mono (B := [.regs, .evq, .pack]) (by decide)
  unfold State.packDone
  extract_lets
  repeat' first
    | (with_reducible assumption)
    | (with_reducible apply State.packAnchor_free h1)
    | (with_reducible apply State.put_free h2)
    | (with_reducible apply State.raise_free h3)
    | (with_reducible apply State.setPack_free h4)
    | (with_reducible refine Free.ite (fun _ => ?_) (fun _ => ?_))

theorem State.packLimited_free {P : State → Prop} (h : Free P [.regs, .evq, .pack]) {s : State} (hs : P s) (acted : Bool) :
    P (s.packLimited acted) := by
  have h1 := h.mono (B := [.pack]) (by decide)
  have h2 := h.mono (B := [.regs]) (by decide)
  have h3 := h.mono (B := [.regs, .evq]) (by decide)
  unfold State.packLimited
  extract_lets
  repeat' first
    | (with_reducible assumption)
    | (with_reducible apply State.packClear_free h1)
    | (with_reducible apply State.put_free h2)
    | (with_reducible apply State.raise_free h3)
    | (with_reducible apply State.setPack_free h)
    | (with_reducible refine Free.ite (fun _ => ?_) (fun _ => ?_))
    | (with_reducible refine (h.pack (by decide) _ ?_))

theorem State.packBoundary_free {P : State → Prop} (h : Free P [.regs, .evq, .fault, .pwm, .cmp, .pack]) {s : State} (hs : P s) (padsBad : Bool) :
    P (s.packBoundary padsBad) := by
  have h1 := h.mono (B := [.cmp]) (by decide)
  have h2 := h.mono (B := [.regs]) (by decide)
  have h3 := h.mono (B := [.pack]) (by decide)
  have h4 := h.mono (B := [.regs, .evq, .fault, .pack]) (by decide)
  have h5 := h.mono (B := [.regs, .evq, .pack]) (by decide)
  have h6 := h.mono (B := [.pwm]) (by decide)
  unfold State.packBoundary
  extract_lets
  repeat' first
    | (with_reducible assumption)
    | (with_reducible apply State.cmpBoundary_free h1)
    | (with_reducible apply State.injTake_free h2)
    | (with_reducible apply State.packAccumulate_free h3)
    | (with_reducible apply State.packFault_free h4)
    | (with_reducible apply State.packLimited_free h5)
    | (with_reducible apply State.pwmBoundary_free h6)
    | (with_reducible refine Free.ite (fun _ => ?_) (fun _ => ?_))
    | (with_reducible refine (h.pack (by decide) _ ?_))

theorem State.packCount_free {P : State → Prop} (h : Free P [.mem, .pack]) {s : State} (hs : P s) :
    P (s.packCount) := by
  have h1 := h.mono (B := [.mem]) (by decide)
  unfold State.packCount
  extract_lets
  repeat' first
    | (with_reducible assumption)
    | (with_reducible apply State.bump_free h1)
    | (with_reducible apply State.storeI_free h1)
    | (with_reducible refine (h.pack (by decide) _ ?_))

theorem State.prechargeTimeout_free {P : State → Prop} (h : Free P [.regs, .evq]) {s : State} (hs : P s) :
    P (s.prechargeTimeout) := by
  have h1 := h.mono (B := [.regs]) (by decide)
  unfold State.prechargeTimeout
  repeat' first
    | (with_reducible assumption)
    | (with_reducible apply State.put_free h1)
    | (with_reducible apply State.raise_free h)
    | (with_reducible refine Free.ite (fun _ => ?_) (fun _ => ?_))

theorem State.rshedRestore_free {P : State → Prop} (h : Free P [.regs, .pack]) {s : State} (hs : P s) :
    P (s.rshedRestore) := by
  have h1 := h.mono (B := [.regs]) (by decide)
  unfold State.rshedRestore
  extract_lets
  repeat' first
    | (with_reducible assumption)
    | (with_reducible apply State.put_free h1)
    | (with_reducible refine Free.ite (fun _ => ?_) (fun _ => ?_))
    | (with_reducible refine (h.pack (by decide) _ ?_))

theorem State.packSenseLoss_free {P : State → Prop} (h : Free P [.regs, .fault, .pack]) {s : State} (hs : P s) :
    P (s.packSenseLoss) := by
  have h1 := h.mono (B := [.regs, .fault]) (by decide)
  have h2 := h.mono (B := [.pack]) (by decide)
  unfold State.packSenseLoss
  extract_lets
  repeat' first
    | (with_reducible assumption)
    | (with_reducible apply State.err_free h1)
    | (with_reducible apply State.packClear_free h2)
    | (with_reducible refine Free.ite (fun _ => ?_) (fun _ => ?_))
    | (with_reducible refine (h.pack (by decide) _ ?_))

end Sys2Proof.Machine
end

