-- ==== Sys2Proof/Laws/StableRails.lean ====
section
/-! SUPPORT. Which parts of the state the operations of Machine/Rails.lean may change: a property that stands whatever becomes of those
parts stands after the operation. -/

namespace Sys2Proof.Machine

theorem State.setSvc_free {P : State → Prop} (h : Free P [.regs]) {s : State} (hs : P s) (c : Nat) :
    P (s.setSvc c) := by
  unfold State.setSvc
  repeat' first
    | (with_reducible assumption)
    | (with_reducible apply State.put_free h)

theorem State.railLevel_free {P : State → Prop} (h : Free P [.regs, .evq]) {s : State} (hs : P s) (r : Nat) (k : Nat) (b : Bool) :
    P (s.railLevel r k b) := by
  unfold State.railLevel
  repeat' first
    | (with_reducible assumption)
    | (with_reducible apply State.level_free h)
    | split

theorem State.railRaise_free {P : State → Prop} (h : Free P [.regs, .evq]) {s : State} (hs : P s) (r : Nat) (k : Nat) :
    P (s.railRaise r k) := by
  unfold State.railRaise
  repeat' first
    | (with_reducible assumption)
    | (with_reducible apply State.raise_free h)
    | split

theorem State.setRs_free {P : State → Prop} (h : Free P [.rail]) {s : State} (hs : P s) (r : Fin 15) (x : RailS) :
    P (s.setRs r x) := by
  unfold State.setRs
  repeat' first
    | (with_reducible assumption)
    | (with_reducible refine (h.rail (by decide) _ ?_))

theorem State.setNative_free {P : State → Prop} (h : Free P [.regs, .evq, .rail]) {s : State} (hs : P s) (r : Fin 15) (b : Bool) :
    P (s.setNative r b) := by
  have h1 := h.mono (B := [.regs]) (by decide)
  have h2 := h.mono (B := [.regs, .evq]) (by decide)
  have h3 := h.mono (B := [.rail]) (by decide)
  unfold State.setNative
  extract_lets
  repeat' first
    | (with_reducible assumption)
    | (with_reducible apply State.put_free h1)
    | (with_reducible apply State.railLevel_free h2)
    | (with_reducible apply State.railRaise_free h2)
    | (with_reducible apply State.setRs_free h3)
    | (with_reducible refine Free.ite (fun _ => ?_) (fun _ => ?_))

theorem State.ibcCurrents_free {P : State → Prop} (h : Free P [.regs, .seq]) {s : State} (hs : P s) (i0 : Int) (i1 : Int) :
    P (s.ibcCurrents i0 i1) := by
  have h1 := h.mono (B := [.regs]) (by decide)
  unfold State.ibcCurrents
  extract_lets
  repeat' first
    | (with_reducible assumption)
    | (with_reducible apply State.put_free h1)
    | (with_reducible refine (h.seq (by decide) _ ?_))

theorem State.ibcInput_free {P : State → Prop} (h : Free P [.regs, .rail, .seq]) {s : State} (hs : P s) (din : Nat) (code : Nat) :
    P (s.ibcInput din code) := by
  have h1 := h.mono (B := [.regs, .seq]) (by decide)
  have h2 := h.mono (B := [.regs]) (by decide)
  have h3 := h.mono (B := [.rail]) (by decide)
  unfold State.ibcInput
  extract_lets
  repeat' first
    | (with_reducible assumption)
    | (with_reducible apply State.ibcCurrents_free h1)
    | (with_reducible apply State.put_free h2)
    | (with_reducible apply State.setRs_free h3)
    | split

theorem State.svcStop_free {P : State → Prop} (h : Free P [.regs, .svc]) {s : State} (hs : P s) :
    P (s.svcStop) := by
  have h1 := h.mono (B := [.regs]) (by decide)
  unfold State.svcStop
  extract_lets
  repeat' first
    | (with_reducible assumption)
    | (with_reducible apply State.setSvc_free h1)
    | (with_reducible refine (h.svc (by decide) _ ?_))

theorem State.svcRun_free {P : State → Prop} (h : Free P [.regs, .svc]) {s : State} (hs : P s) (on : Bool) :
    P (s.svcRun on) := by
  have h1 := h.mono (B := [.regs]) (by decide)
  unfold State.svcRun
  extract_lets
  repeat' first
    | (with_reducible assumption)
    | (with_reducible apply State.setSvc_free h1)
    | (with_reducible apply State.svcStop_free h)
    | (with_reducible refine Free.ite (fun _ => ?_) (fun _ => ?_))
    | (with_reducible refine (h.svc (by decide) _ ?_))

theorem State.svcTarget_free {P : State → Prop} (h : Free P [.regs]) {s : State} (hs : P s) (v : Nat) (i : Nat) :
    P (s.svcTarget v i) := by
  unfold State.svcTarget
  extract_lets
  repeat' first
    | (with_reducible assumption)
    | (with_reducible apply State.put_free h)
    | (with_reducible apply State.setSvc_free h)
    | (with_reducible refine Free.ite (fun _ => ?_) (fun _ => ?_))

theorem State.setSeqPhase_free {P : State → Prop} (h : Free P [.regs]) {s : State} (hs : P s) (p : Nat) :
    P (s.setSeqPhase p) := by
  unfold State.setSeqPhase
  repeat' first
    | (with_reducible assumption)
    | (with_reducible apply State.put_free h)

theorem State.fallCheck_free {P : State → Prop} (h : Free P [.regs, .evq]) {s : State} (hs : P s) :
    P (s.fallCheck) := by
  have h1 := h.mono (B := [.regs]) (by decide)
  unfold State.fallCheck
  repeat' first
    | (with_reducible assumption)
    | (with_reducible apply State.raise_free h)
    | (with_reducible apply State.setSeqPhase_free h1)
    | (with_reducible refine Free.ite (fun _ => ?_) (fun _ => ?_))

theorem State.biasSource_free {P : State → Prop} (h : Free P [.dev]) {s : State} (hs : P s) (k : Nat) (present : Bool) :
    P (s.biasSource k present) := by
  unfold State.biasSource
  extract_lets
  repeat' first
    | (with_reducible assumption)
    | (with_reducible refine (h.dev (by decide) _ ?_))

theorem State.resetLevels_free {P : State → Prop} (h : Free P [.regs, .evq]) {s : State} (hs : P s) :
    P (s.resetLevels) := by
  have h1 := h.mono (B := [.regs]) (by decide)
  unfold State.resetLevels
  extract_lets
  repeat' first
    | (with_reducible assumption)
    | (with_reducible apply State.put_free h1)
    | (with_reducible apply State.raiseIf_free h)

theorem State.resetAssert_free {P : State → Prop} (h : Free P [.regs, .evq, .seq]) {s : State} (hs : P s) (p : Nat → Bool) :
    P (s.resetAssert p) := by
  have h1 := h.mono (B := [.regs, .evq]) (by decide)
  unfold State.resetAssert
  extract_lets
  repeat' first
    | (with_reducible assumption)
    | (with_reducible apply State.resetLevels_free h1)
    | (with_reducible refine (h.seq (by decide) _ ?_))

theorem State.resetOfRail_free {P : State → Prop} (h : Free P [.regs, .evq, .seq]) {s : State} (hs : P s) (r : Nat) :
    P (s.resetOfRail r) := by
  unfold State.resetOfRail
  repeat' first
    | (with_reducible assumption)
    | (with_reducible apply State.resetAssert_free h)

theorem State.railNotGood_free {P : State → Prop} (h : Free P [.regs, .dev, .evq, .seq]) {s : State} (hs : P s) (r : Fin 15) :
    P (s.railNotGood r) := by
  have h1 := h.mono (B := [.dev]) (by decide)
  have h2 := h.mono (B := [.regs]) (by decide)
  have h3 := h.mono (B := [.regs, .evq]) (by decide)
  have h4 := h.mono (B := [.regs, .evq, .seq]) (by decide)
  unfold State.railNotGood
  extract_lets
  repeat' first
    | (with_reducible assumption)
    | (with_reducible apply State.biasSource_free h1)
    | (with_reducible apply State.put_free h2)
    | (with_reducible apply State.railLevel_free h3)
    | (with_reducible apply State.resetOfRail_free h4)
    | (with_reducible refine Free.ite (fun _ => ?_) (fun _ => ?_))

theorem State.railStop_free {P : State → Prop} (h : Free P [.regs, .dev, .evq, .rail, .seq]) {s : State} (hs : P s) (r : Fin 15) :
    P (s.railStop r) := by
  have h1 := h.mono (B := [.regs]) (by decide)
  have h2 := h.mono (B := [.regs, .dev, .evq, .seq]) (by decide)
  have h3 := h.mono (B := [.rail]) (by decide)
  unfold State.railStop
  extract_lets
  repeat' first
    | (with_reducible assumption)
    | (with_reducible apply State.put_free h1)
    | (with_reducible apply State.railNotGood_free h2)
    | (with_reducible apply State.setRs_free h3)
    | (with_reducible refine Free.ite (fun _ => ?_) (fun _ => ?_))
    | (with_reducible refine (h.seq (by decide) _ ?_))

theorem State.railDown_free {P : State → Prop} (h : Free P [.regs, .dev, .evq, .rail, .seq]) {s : State} (hs : P s) (r : Fin 15) :
    P (s.railDown r) := by
  have h1 := h.mono (B := [.regs]) (by decide)
  have h2 := h.mono (B := [.regs, .dev, .evq, .seq]) (by decide)
  have h3 := h.mono (B := [.rail]) (by decide)
  unfold State.railDown
  extract_lets
  repeat' first
    | (with_reducible assumption)
    | (with_reducible apply State.put_free h1)
    | (with_reducible apply State.railNotGood_free h2)
    | (with_reducible apply State.railStop_free h)
    | (with_reducible apply State.setRs_free h3)
    | (with_reducible refine Free.ite (fun _ => ?_) (fun _ => ?_))

theorem State.seqFall_free {P : State → Prop} (h : Free P [.regs, .dev, .evq, .rail, .seq]) {s : State} (hs : P s) (keep : Nat) :
    P (s.seqFall keep) := by
  have h1 := h.mono (B := [.regs, .evq]) (by decide)
  have h2 := h.mono (B := [.regs, .evq, .seq]) (by decide)
  have h3 := h.mono (B := [.rail]) (by decide)
  have h4 := h.mono (B := [.regs]) (by decide)
  unfold State.seqFall
  extract_lets
  repeat' first
    | (with_reducible assumption)
    | (with_reducible apply State.fallCheck_free h1)
    | (with_reducible apply State.level_free h1)
    | (with_reducible apply State.railDown_free h)
    | (with_reducible apply State.raise_free h1)
    | (with_reducible apply State.raiseIf_free h1)
    | (with_reducible apply State.resetAssert_free h2)
    | (with_reducible apply State.setRs_free h3)
    | (with_reducible apply State.setSeqPhase_free h4)
    | (with_reducible refine Free.ite (fun _ => ?_) (fun _ => ?_))
    | (with_reducible refine Free.foldl _ (fun _ _ _ => ?_) ?_)
    | (with_reducible refine (h.seq (by decide) _ ?_))

theorem State.ibcUpdate_free {P : State → Prop} (h : Free P [.regs, .seq]) {s : State} (hs : P s) :
    P (s.ibcUpdate) := by
  have h1 := h.mono (B := [.regs]) (by decide)
  unfold State.ibcUpdate
  extract_lets
  repeat' first
    | (with_reducible assumption)
    | (with_reducible apply State.put_free h1)
    | (with_reducible refine (h.seq (by decide) _ ?_))

theorem State.svcLimited_free {P : State → Prop} (h : Free P [.regs, .evq, .svc]) {s : State} (hs : P s) (limited : Bool) :
    P (s.svcLimited limited) := by
  have h1 := h.mono (B := [.regs, .evq]) (by decide)
  have h2 := h.mono (B := [.regs]) (by decide)
  unfold State.svcLimited
  extract_lets
  repeat' first
    | (with_reducible assumption)
    | (with_reducible apply State.raise_free h1)
    | (with_reducible apply State.setSvc_free h2)
    | (with_reducible refine Free.ite (fun _ => ?_) (fun _ => ?_))
    | (with_reducible refine (h.svc (by decide) _ ?_))

theorem State.railLight_free {P : State → Prop} (h : Free P [.regs, .evq]) {s : State} (hs : P s) (r : Nat) (f : Fld) (m : Nat) :
    P (s.railLight r f m) := by
  have h1 := h.mono (B := [.regs]) (by decide)
  unfold State.railLight
  extract_lets
  repeat' first
    | (with_reducible assumption)
    | (with_reducible apply State.put_free h1)
    | (with_reducible apply State.raiseIf_free h)

theorem State.railPageOff_free {P : State → Prop} (h : Free P [.regs, .dev, .evq, .rail, .seq]) {s : State} (hs : P s) (pg : Nat) (block : Bool) :
    P (s.railPageOff pg block) := by
  have h1 := h.mono (B := [.rail]) (by decide)
  unfold State.railPageOff
  repeat' first
    | (with_reducible assumption)
    | (with_reducible apply State.railDown_free h)
    | (with_reducible apply State.setRs_free h1)
    | (with_reducible refine Free.ite (fun _ => ?_) (fun _ => ?_))
    | (with_reducible refine Free.foldl _ (fun _ _ _ => ?_) ?_)

theorem State.svcRef_free {P : State → Prop} (h : Free P [.regs, .evq, .svc]) {s : State} (hs : P s) :
    P (s.svcRef) := by
  have h1 := h.mono (B := [.regs, .evq]) (by decide)
  have h2 := h.mono (B := [.regs]) (by decide)
  unfold State.svcRef
  extract_lets
  repeat' first
    | (with_reducible assumption)
    | (with_reducible apply State.raise_free h1)
    | (with_reducible apply State.setSvc_free h2)
    | (with_reducible refine Free.ite (fun _ => ?_) (fun _ => ?_))
    | (with_reducible refine (h.svc (by decide) _ ?_))

theorem State.trimStep_free {P : State → Prop} (h : Free P [.regs, .evq, .rail]) {s : State} (hs : P s) (r : Fin 15) (mx : Fld) (ki : Fld) (trim : Fld) :
    P (s.trimStep r mx ki trim) := by
  have h1 := h.mono (B := [.regs]) (by decide)
  have h2 := h.mono (B := [.regs, .evq]) (by decide)
  have h3 := h.mono (B := [.rail]) (by decide)
  unfold State.trimStep
  extract_lets
  repeat' first
    | (with_reducible assumption)
    | (with_reducible apply State.putI_free h1)
    | (with_reducible apply State.railRaise_free h2)
    | (with_reducible apply State.setRs_free h3)
    | (with_reducible refine Free.ite (fun _ => ?_) (fun _ => ?_))

theorem State.polComp_free {P : State → Prop} (h : Free P [.regs, .evq, .pwm, .rail]) {s : State} (hs : P s) (k : Fin 4) (shadow : Bool) :
    P (s.polComp k shadow) := by
  have h1 := h.mono (B := [.pwm]) (by decide)
  have h2 := h.mono (B := [.regs, .evq, .rail]) (by decide)
  have h3 := h.mono (B := [.rail]) (by decide)
  unfold State.polComp
  extract_lets
  repeat' first
    | (with_reducible assumption)
    | (with_reducible apply State.pwmShadow_free h1)
    | (with_reducible apply State.setNative_free h2)
    | (with_reducible apply State.setRs_free h3)
    | (with_reducible apply State.trimStep_free h2)
    | (with_reducible refine Free.ite (fun _ => ?_) (fun _ => ?_))

theorem State.ibcZero_free {P : State → Prop} (h : Free P [.rail]) {s : State} (hs : P s) (k : Nat) :
    P (s.ibcZero k) := by
  unfold State.ibcZero
  extract_lets
  repeat' first
    | (with_reducible assumption)
    | (with_reducible apply State.setRs_free h)
    | (with_reducible refine Free.ite (fun _ => ?_) (fun _ => ?_))

theorem State.svcSnuff_free {P : State → Prop} (h : Free P [.regs, .svc]) {s : State} (hs : P s) :
    P (s.svcSnuff) := by
  unfold State.svcSnuff
  repeat' first
    | (with_reducible assumption)
    | (with_reducible apply State.svcStop_free h)
    | (with_reducible refine Free.ite (fun _ => ?_) (fun _ => ?_))

theorem State.railForce_free {P : State → Prop} (h : Free P [.regs, .dev, .evq, .rail, .seq]) {s : State} (hs : P s) (r : Fin 15) :
    P (s.railForce r) := by
  have h1 := h.mono (B := [.rail]) (by decide)
  unfold State.railForce
  extract_lets
  repeat' first
    | (with_reducible assumption)
    | (with_reducible apply State.railStop_free h)
    | (with_reducible apply State.setRs_free h1)

theorem State.railsStop_free {P : State → Prop} (h : Free P [.regs, .dev, .evq, .rail, .seq]) {s : State} (hs : P s) :
    P (s.railsStop) := by
  have h1 := h.mono (B := [.regs, .evq]) (by decide)
  have h2 := h.mono (B := [.regs, .evq, .seq]) (by decide)
  have h3 := h.mono (B := [.regs]) (by decide)
  unfold State.railsStop
  extract_lets
  repeat' first
    | (with_reducible assumption)
    | (with_reducible apply State.level_free h1)
    | (with_reducible apply State.railForce_free h)
    | (with_reducible apply State.resetAssert_free h2)
    | (with_reducible apply State.setSeqPhase_free h3)
    | (with_reducible refine Free.foldl _ (fun _ _ _ => ?_) ?_)
    | (with_reducible refine (h.seq (by decide) _ ?_))

theorem State.riseCheck_free {P : State → Prop} (h : Free P [.regs, .evq]) {s : State} (hs : P s) :
    P (s.riseCheck) := by
  have h1 := h.mono (B := [.regs]) (by decide)
  unfold State.riseCheck
  repeat' first
    | (with_reducible assumption)
    | (with_reducible apply State.raise_free h)
    | (with_reducible apply State.setSeqPhase_free h1)
    | (with_reducible refine Free.ite (fun _ => ?_) (fun _ => ?_))

theorem State.seqRise_free {P : State → Prop} (h : Free P [.regs, .evq, .rail, .seq]) {s : State} (hs : P s) (hold : Bool) :
    P (s.seqRise hold) := by
  have h1 := h.mono (B := [.regs, .evq]) (by decide)
  have h2 := h.mono (B := [.regs]) (by decide)
  have h3 := h.mono (B := [.rail]) (by decide)
  unfold State.seqRise
  extract_lets
  repeat' first
    | (with_reducible assumption)
    | (with_reducible apply State.level_free h1)
    | (with_reducible apply State.put_free h2)
    | (with_reducible apply State.riseCheck_free h1)
    | (with_reducible apply State.setRs_free h3)
    | (with_reducible apply State.setSeqPhase_free h2)
    | (with_reducible refine Free.foldl _ (fun _ _ _ => ?_) ?_)
    | (with_reducible refine (h.seq (by decide) _ ?_))

theorem State.ibcComp_free {P : State → Prop} (h : Free P [.regs, .evq, .pwm, .rail, .seq]) {s : State} (hs : P s) (shadow : Bool) :
    P (s.ibcComp shadow) := by
  have h1 := h.mono (B := [.regs, .seq]) (by decide)
  have h2 := h.mono (B := [.pwm]) (by decide)
  have h3 := h.mono (B := [.regs, .evq, .rail]) (by decide)
  have h4 := h.mono (B := [.rail]) (by decide)
  unfold State.ibcComp
  extract_lets
  repeat' first
    | (with_reducible assumption)
    | (with_reducible apply State.ibcUpdate_free h1)
    | (with_reducible apply State.pwmShadow_free h2)
    | (with_reducible apply State.setNative_free h3)
    | (with_reducible apply State.setRs_free h4)
    | (with_reducible refine Free.ite (fun _ => ?_) (fun _ => ?_))

theorem State.ldoComp_free {P : State → Prop} (h : Free P [.regs, .evq, .rail]) {s : State} (hs : P s) (k : Fin 2) :
    P (s.ldoComp k) := by
  have h1 := h.mono (B := [.rail]) (by decide)
  unfold State.ldoComp
  extract_lets
  repeat' first
    | (with_reducible assumption)
    | (with_reducible apply State.setNative_free h)
    | (with_reducible apply State.setRs_free h1)
    | (with_reducible apply State.trimStep_free h)
    | (with_reducible refine Free.ite (fun _ => ?_) (fun _ => ?_))

theorem State.svcComp_free {P : State → Prop} (h : Free P [.pwm, .svc]) {s : State} (hs : P s) (shadow : Bool) :
    P (s.svcComp shadow) := by
  have h1 := h.mono (B := [.pwm]) (by decide)
  unfold State.svcComp
  extract_lets
  repeat' first
    | (with_reducible assumption)
    | (with_reducible apply State.pwmShadow_free h1)
    | (with_reducible refine Free.ite (fun _ => ?_) (fun _ => ?_))
    | (with_reducible refine (h.svc (by decide) _ ?_))

theorem State.svcInput_free {P : State → Prop} (h : Free P [.regs, .evq, .bal, .svc]) {s : State} (hs : P s) (din : Nat) (code : Nat) :
    P (s.svcInput din code) := by
  have h1 := h.mono (B := [.regs, .evq, .bal]) (by decide)
  have h2 := h.mono (B := [.regs]) (by decide)
  unfold State.svcInput
  extract_lets
  repeat' first
    | (with_reducible assumption)
    | (with_reducible apply State.balInput_free h1)
    | (with_reducible apply State.put_free h2)
    | split
    | (with_reducible refine (h.svc (by decide) _ ?_))

theorem State.slotBegin_free {P : State → Prop} (h : Free P [.regs, .evq, .fault, .rail, .seq]) {s : State} (hs : P s) :
    P (s.slotBegin) := by
  have h1 := h.mono (B := [.regs, .fault]) (by decide)
  have h2 := h.mono (B := [.regs]) (by decide)
  have h3 := h.mono (B := [.regs, .evq]) (by decide)
  have h4 := h.mono (B := [.rail]) (by decide)
  unfold State.slotBegin
  extract_lets
  repeat' first
    | (with_reducible assumption)
    | (with_reducible apply State.err_free h1)
    | (with_reducible apply State.put_free h2)
    | (with_reducible apply State.riseCheck_free h3)
    | (with_reducible apply State.setRs_free h4)
    | (with_reducible refine Free.ite (fun _ => ?_) (fun _ => ?_))
    | (with_reducible refine Free.foldl _ (fun _ _ _ => ?_) ?_)
    | split
    | (with_reducible refine (h.seq (by decide) _ ?_))

theorem State.railsNative_free {P : State → Prop} (h : Free P [.regs, .evq, .rail]) {s : State} (hs : P s) :
    P (s.railsNative) := by
  unfold State.railsNative
  repeat' first
    | (with_reducible assumption)
    | (with_reducible apply State.setNative_free h)
    | (with_reducible refine Free.foldl _ (fun _ _ _ => ?_) ?_)

theorem State.seqHoldEnd_free {P : State → Prop} (h : Free P [.regs, .evq, .seq]) {s : State} (hs : P s) :
    P (s.seqHoldEnd) := by
  have h1 := h.mono (B := [.regs, .evq]) (by decide)
  unfold State.seqHoldEnd
  extract_lets
  repeat' first
    | (with_reducible assumption)
    | (with_reducible apply State.level_free h1)
    | (with_reducible apply State.riseCheck_free h1)
    | (with_reducible refine Free.ite (fun _ => ?_) (fun _ => ?_))
    | (with_reducible refine (h.seq (by decide) _ ?_))

theorem State.seqOnRequest_free {P : State → Prop} (h : Free P [.regs, .evq, .seq]) {s : State} (hs : P s) :
    P (s.seqOnRequest) := by
  have h1 := h.mono (B := [.regs, .evq]) (by decide)
  unfold State.seqOnRequest
  extract_lets
  repeat' first
    | (with_reducible assumption)
    | (with_reducible apply State.raise_free h1)
    | (with_reducible refine Free.ite (fun _ => ?_) (fun _ => ?_))
    | (with_reducible refine (h.seq (by decide) _ ?_))

theorem State.railErr_free {P : State → Prop} (h : Free P [.regs, .fault]) {s : State} (hs : P s) (r : Nat) (k : Nat) (inj : Bool) :
    P (s.railErr r k inj) := by
  unfold State.railErr
  repeat' first
    | (with_reducible assumption)
    | (with_reducible apply State.errI_free h)
    | split

theorem State.seqFirst_free {P : State → Prop} (h : Free P [.regs]) {s : State} (hs : P s) (r : Nat) (kind : Nat) :
    P (s.seqFirst r kind) := by
  unfold State.seqFirst
  repeat' first
    | (with_reducible assumption)
    | (with_reducible apply State.put_free h)
    | (with_reducible refine Free.ite (fun _ => ?_) (fun _ => ?_))

theorem State.railFault_free {P : State → Prop} (h : Free P [.regs, .dev, .evq, .fault, .seq]) {s : State} (hs : P s) (r : Fin 15) (kind : Nat) (inj : Bool) :
    P (s.railFault r kind inj) := by
  have h1 := h.mono (B := [.regs, .fault]) (by decide)
  have h2 := h.mono (B := [.regs, .dev, .evq, .seq]) (by decide)
  have h3 := h.mono (B := [.regs]) (by decide)
  unfold State.railFault
  extract_lets
  repeat' first
    | (with_reducible assumption)
    | (with_reducible apply State.errI_free h1)
    | (with_reducible apply State.railErr_free h1)
    | (with_reducible apply State.railNotGood_free h2)
    | (with_reducible apply State.seqFirst_free h3)
    | split
    | dsimp +zetaDelta only

theorem State.railJudge_free {P : State → Prop} (h : Free P [.regs, .fresh, .dev, .evq, .fault, .rail, .seq]) {s : State} (hs : P s) (r : Fin 15) (uv : Nat) :
    P (s.railJudge r uv) := by
  have h1 := h.mono (B := [.regs, .evq]) (by decide)
  have h2 := h.mono (B := [.regs]) (by decide)
  have h3 := h.mono (B := [.regs, .dev, .evq, .fault, .seq]) (by decide)
  have h4 := h.mono (B := [.regs, .dev, .evq, .seq]) (by decide)
  have h5 := h.mono (B := [.regs, .dev, .evq, .rail, .seq]) (by decide)
  have h6 := h.mono (B := [.rail]) (by decide)
  have h7 := h.mono (B := [.fresh]) (by decide)
  unfold State.railJudge
  extract_lets
  repeat' first
    | (with_reducible assumption)
    | (with_reducible apply State.fallCheck_free h1)
    | (with_reducible apply State.injTake_free h2)
    | (with_reducible apply State.railFault_free h3)
    | (with_reducible apply State.railNotGood_free h4)
    | (with_reducible apply State.railStop_free h5)
    | (with_reducible apply State.raise_free h1)
    | (with_reducible apply State.setRs_free h6)
    | (with_reducible apply State.tickFresh_free h7)
    | (with_reducible refine Free.ite (fun _ => ?_) (fun _ => ?_))
    | split
    | dsimp +zetaDelta only

theorem State.resetRelease_free {P : State → Prop} (h : Free P [.regs, .evq, .seq]) {s : State} (hs : P s) (g : Nat) :
    P (s.resetRelease g) := by
  have h1 := h.mono (B := [.regs, .evq]) (by decide)
  unfold State.resetRelease
  extract_lets
  repeat' first
    | (with_reducible assumption)
    | (with_reducible apply State.resetLevels_free h1)
    | (with_reducible refine Free.ite (fun _ => ?_) (fun _ => ?_))
    | (with_reducible refine (h.seq (by decide) _ ?_))

theorem State.railHiccup_free {P : State → Prop} (h : Free P [.regs, .dev, .evq, .fault, .rail, .seq]) {s : State} (hs : P s) (r : Fin 15) :
    P (s.railHiccup r) := by
  have h1 := h.mono (B := [.regs]) (by decide)
  have h2 := h.mono (B := [.regs, .dev, .evq, .fault, .seq]) (by decide)
  have h3 := h.mono (B := [.regs, .evq]) (by decide)
  have h4 := h.mono (B := [.rail]) (by decide)
  unfold State.railHiccup
  extract_lets
  repeat' first
    | (with_reducible assumption)
    | (with_reducible apply State.put_free h1)
    | (with_reducible apply State.railFault_free h2)
    | (with_reducible apply State.railRaise_free h3)
    | (with_reducible apply State.setRs_free h4)
    | (with_reducible refine Free.ite (fun _ => ?_) (fun _ => ?_))
    | (with_reducible refine (h.seq (by decide) _ ?_))

theorem State.railLimited_free {P : State → Prop} (h : Free P [.regs, .dev, .evq, .fault, .rail, .seq]) {s : State} (hs : P s) (r : Fin 15) (limited : Bool) :
    P (s.railLimited r limited) := by
  have h1 := h.mono (B := [.regs, .evq]) (by decide)
  have h2 := h.mono (B := [.rail]) (by decide)
  unfold State.railLimited
  extract_lets
  repeat' first
    | (with_reducible assumption)
    | (with_reducible apply State.railHiccup_free h)
    | (with_reducible apply State.railRaise_free h1)
    | (with_reducible apply State.setRs_free h2)
    | (with_reducible refine Free.ite (fun _ => ?_) (fun _ => ?_))

theorem State.svcBoundary_free {P : State → Prop} (h : Free P [.regs, .evq, .fault, .pwm, .svc]) {s : State} (hs : P s) (padsBad : Bool) :
    P (s.svcBoundary padsBad) := by
  have h1 := h.mono (B := [.regs, .fault]) (by decide)
  have h2 := h.mono (B := [.regs]) (by decide)
  have h3 := h.mono (B := [.pwm]) (by decide)
  have h4 := h.mono (B := [.regs, .evq, .svc]) (by decide)
  have h5 := h.mono (B := [.regs, .svc]) (by decide)
  unfold State.svcBoundary
  extract_lets
  repeat' first
    | (with_reducible assumption)
    | (with_reducible apply State.err_free h1)
    | (with_reducible apply State.errI_free h1)
    | (with_reducible apply State.injTake_free h2)
    | (with_reducible apply State.pwmBoundary_free h3)
    | (with_reducible apply State.svcLimited_free h4)
    | (with_reducible apply State.svcRef_free h4)
    | (with_reducible apply State.svcStop_free h5)
    | (with_reducible refine Free.ite (fun _ => ?_) (fun _ => ?_))
    | (with_reducible refine (h.svc (by decide) _ ?_))

theorem State.railStart_free {P : State → Prop} (h : Free P [.regs, .rail]) {s : State} (hs : P s) (r : Fin 15) :
    P (s.railStart r) := by
  have h1 := h.mono (B := [.regs]) (by decide)
  have h2 := h.mono (B := [.rail]) (by decide)
  unfold State.railStart
  extract_lets
  repeat' first
    | (with_reducible assumption)
    | (with_reducible apply State.put_free h1)
    | (with_reducible apply State.setRs_free h2)
    | (with_reducible refine Free.ite (fun _ => ?_) (fun _ => ?_))

theorem State.railHiccupEnd_free {P : State → Prop} (h : Free P [.regs, .rail]) {s : State} (hs : P s) (r : Fin 15) :
    P (s.railHiccupEnd r) := by
  have h1 := h.mono (B := [.regs]) (by decide)
  unfold State.railHiccupEnd
  extract_lets
  repeat' first
    | (with_reducible assumption)
    | (with_reducible apply State.put_free h1)
    | (with_reducible apply State.railStart_free h)
    | (with_reducible refine Free.ite (fun _ => ?_) (fun _ => ?_))

theorem State.riseTimeout_free {P : State → Prop} (h : Free P [.regs, .fault]) {s : State} (hs : P s) (r : Fin 15) :
    P (s.riseTimeout r) := by
  have h1 := h.mono (B := [.regs]) (by decide)
  unfold State.riseTimeout
  repeat' first
    | (with_reducible assumption)
    | (with_reducible apply State.err_free h)
    | (with_reducible apply State.seqFirst_free h1)
    | (with_reducible refine Free.ite (fun _ => ?_) (fun _ => ?_))
    | split

theorem State.railsRound_free {P : State → Prop} (h : Free P [.mem]) {s : State} (hs : P s) :
    P (s.railsRound) := by
  unfold State.railsRound
  repeat' first
    | (with_reducible assumption)
    | (with_reducible apply State.bump_free h)
    | (with_reducible refine Free.ite (fun _ => ?_) (fun _ => ?_))
    | (with_reducible refine Free.foldl _ (fun _ _ _ => ?_) ?_)

theorem State.svcHiccupEnd_free {P : State → Prop} (h : Free P [.regs, .svc]) {s : State} (hs : P s) :
    P (s.svcHiccupEnd) := by
  have h1 := h.mono (B := [.regs]) (by decide)
  unfold State.svcHiccupEnd
  extract_lets
  repeat' first
    | (with_reducible assumption)
    | (with_reducible apply State.setSvc_free h1)
    | (with_reducible refine Free.ite (fun _ => ?_) (fun _ => ?_))
    | (with_reducible refine (h.svc (by decide) _ ?_))

theorem State.railGood_free {P : State → Prop} (h : Free P [.regs, .dev, .evq, .rail]) {s : State} (hs : P s) (r : Fin 15) :
    P (s.railGood r) := by
  have h1 := h.mono (B := [.dev]) (by decide)
  have h2 := h.mono (B := [.regs]) (by decide)
  have h3 := h.mono (B := [.regs, .evq]) (by decide)
  have h4 := h.mono (B := [.rail]) (by decide)
  unfold State.railGood
  extract_lets
  repeat' first
    | (with_reducible assumption)
    | (with_reducible apply State.biasSource_free h1)
    | (with_reducible apply State.put_free h2)
    | (with_reducible apply State.railLevel_free h3)
    | (with_reducible apply State.setRs_free h4)
    | (with_reducible refine Free.ite (fun _ => ?_) (fun _ => ?_))

theorem State.railPowerGood_free {P : State → Prop} (h : Free P [.regs, .dev, .evq, .rail]) {s : State} (hs : P s) (r : Fin 15) :
    P (s.railPowerGood r) := by
  have h1 := h.mono (B := [.regs, .evq]) (by decide)
  unfold State.railPowerGood
  repeat' first
    | (with_reducible assumption)
    | (with_reducible apply State.railGood_free h)
    | (with_reducible apply State.riseCheck_free h1)
    | (with_reducible refine Free.ite (fun _ => ?_) (fun _ => ?_))

theorem State.railPads_free {P : State → Prop} (h : Free P [.regs, .dev, .evq, .fault, .rail, .seq]) {s : State} (hs : P s) (r : Fin 15) (padsBad : Bool) :
    P (s.railPads r padsBad) := by
  have h1 := h.mono (B := [.regs]) (by decide)
  have h2 := h.mono (B := [.regs, .fault]) (by decide)
  have h3 := h.mono (B := [.regs, .dev, .evq, .fault, .seq]) (by decide)
  have h4 := h.mono (B := [.rail]) (by decide)
  unfold State.railPads
  repeat' first
    | (with_reducible assumption)
    | (with_reducible apply State.injTake_free h1)
    | (with_reducible apply State.railErr_free h2)
    | (with_reducible apply State.railFault_free h3)
    | (with_reducible apply State.setRs_free h4)
    | (with_reducible refine Free.ite (fun _ => ?_) (fun _ => ?_))
    | split

theorem State.railDelayEnd_free {P : State → Prop} (h : Free P [.regs, .rail]) {s : State} (hs : P s) (r : Fin 15) :
    P (s.railDelayEnd r) := by
  unfold State.railDelayEnd
  repeat' first
    | (with_reducible assumption)
    | (with_reducible apply State.railStart_free h)
    | (with_reducible refine Free.ite (fun _ => ?_) (fun _ => ?_))

theorem State.nativeFallback_free {P : State → Prop} (h : Free P [.regs, .evq, .rail]) {s : State} (hs : P s) (r : Fin 15) :
    P (s.nativeFallback r) := by
  unfold State.nativeFallback
  repeat' first
    | (with_reducible assumption)
    | (with_reducible apply State.setNative_free h)
    | (with_reducible refine Free.ite (fun _ => ?_) (fun _ => ?_))

theorem State.railNoComp_free {P : State → Prop} (h : Free P [.regs, .evq, .rail]) {s : State} (hs : P s) (r : Fin 15) :
    P (s.railNoComp r) := by
  have h1 := h.mono (B := [.rail]) (by decide)
  unfold State.railNoComp
  extract_lets
  repeat' first
    | (with_reducible assumption)
    | (with_reducible apply State.nativeFallback_free h)
    | (with_reducible apply State.setRs_free h1)
    | (with_reducible refine Free.ite (fun _ => ?_) (fun _ => ?_))

theorem State.railRef_free {P : State → Prop} (h : Free P [.rail]) {s : State} (hs : P s) (r : Fin 15) :
    P (s.railRef r) := by
  unfold State.railRef
  extract_lets
  repeat' first
    | (with_reducible assumption)
    | (with_reducible apply State.setRs_free h)
    | (with_reducible refine Free.ite (fun _ => ?_) (fun _ => ?_))

theorem State.ibcBoundary_free {P : State → Prop} (h : Free P [.regs, .dev, .evq, .fault, .pwm, .cmp, .rail, .seq]) {s : State} (hs : P s) (padsBad : Bool) (x : RailSense) :
    P (s.ibcBoundary padsBad x) := by
  have h1 := h.mono (B := [.cmp]) (by decide)
  have h2 := h.mono (B := [.regs, .fault]) (by decide)
  have h3 := h.mono (B := [.regs, .seq]) (by decide)
  have h4 := h.mono (B := [.regs]) (by decide)
  have h5 := h.mono (B := [.pwm]) (by decide)
  have h6 := h.mono (B := [.regs, .evq]) (by decide)
  have h7 := h.mono (B := [.regs, .dev, .evq, .fault, .rail, .seq]) (by decide)
  have h8 := h.mono (B := [.regs, .evq, .rail]) (by decide)
  have h9 := h.mono (B := [.rail]) (by decide)
  unfold State.ibcBoundary
  extract_lets
  repeat' first
    | (with_reducible assumption)
    | (with_reducible apply State.cmpBoundary_free h1)
    | (with_reducible apply State.err_free h2)
    | (with_reducible apply State.ibcCurrents_free h3)
    | (with_reducible apply State.ibcUpdate_free h3)
    | (with_reducible apply State.put_free h4)
    | (with_reducible apply State.pwmBoundary_free h5)
    | (with_reducible apply State.railLight_free h6)
    | (with_reducible apply State.railLimited_free h7)
    | (with_reducible apply State.railNoComp_free h8)
    | (with_reducible apply State.railPads_free h7)
    | (with_reducible apply State.railRef_free h9)
    | (with_reducible apply State.setRs_free h9)
    | (with_reducible refine Free.ite (fun _ => ?_) (fun _ => ?_))

theorem State.fallSlot_free {P : State → Prop} (h : Free P [.regs, .dev, .evq, .rail, .seq]) {s : State} (hs : P s) :
    P (s.fallSlot) := by
  have h1 := h.mono (B := [.regs, .evq]) (by decide)
  have h2 := h.mono (B := [.regs]) (by decide)
  unfold State.fallSlot
  repeat' first
    | (with_reducible assumption)
    | (with_reducible apply State.fallCheck_free h1)
    | (with_reducible apply State.put_free h2)
    | (with_reducible apply State.railDown_free h)
    | (with_reducible refine Free.ite (fun _ => ?_) (fun _ => ?_))
    | (with_reducible refine Free.foldl _ (fun _ _ _ => ?_) ?_)
    | split

theorem State.polBoundary_free {P : State → Prop} (h : Free P [.regs, .dev, .evq, .fault, .pwm, .rail, .seq]) {s : State} (hs : P s) (k : Fin 4) (padsBad : Bool) (x : RailSense) :
    P (s.polBoundary k padsBad x) := by
  have h1 := h.mono (B := [.regs]) (by decide)
  have h2 := h.mono (B := [.pwm]) (by decide)
  have h3 := h.mono (B := [.regs, .evq]) (by decide)
  have h4 := h.mono (B := [.regs, .dev, .evq, .fault, .rail, .seq]) (by decide)
  have h5 := h.mono (B := [.regs, .evq, .rail]) (by decide)
  have h6 := h.mono (B := [.rail]) (by decide)
  unfold State.polBoundary
  extract_lets
  repeat' first
    | (with_reducible assumption)
    | (with_reducible apply State.put_free h1)
    | (with_reducible apply State.pwmBoundary_free h2)
    | (with_reducible apply State.railLight_free h3)
    | (with_reducible apply State.railLimited_free h4)
    | (with_reducible apply State.railNoComp_free h5)
    | (with_reducible apply State.railPads_free h4)
    | (with_reducible apply State.railRef_free h6)
    | (with_reducible refine Free.ite (fun _ => ?_) (fun _ => ?_))

theorem State.ldoBoundary_free {P : State → Prop} (h : Free P [.regs, .dev, .evq, .fault, .rail, .seq]) {s : State} (hs : P s) (k : Fin 2) (padsBad : Bool) (x : RailSense) :
    P (s.ldoBoundary k padsBad x) := by
  have h1 := h.mono (B := [.regs]) (by decide)
  have h2 := h.mono (B := [.regs, .evq, .rail]) (by decide)
  have h3 := h.mono (B := [.rail]) (by decide)
  unfold State.ldoBoundary
  extract_lets
  repeat' first
    | (with_reducible assumption)
    | (with_reducible apply State.put_free h1)
    | (with_reducible apply State.railLimited_free h)
    | (with_reducible apply State.railNoComp_free h2)
    | (with_reducible apply State.railPads_free h)
    | (with_reducible apply State.railRef_free h3)
    | (with_reducible refine Free.ite (fun _ => ?_) (fun _ => ?_))

theorem State.railRampEnd_free {P : State → Prop} (h : Free P [.regs, .evq, .rail]) {s : State} (hs : P s) (r : Fin 15) :
    P (s.railRampEnd r) := by
  have h1 := h.mono (B := [.regs, .evq]) (by decide)
  have h2 := h.mono (B := [.rail]) (by decide)
  unfold State.railRampEnd
  extract_lets
  repeat' first
    | (with_reducible assumption)
    | (with_reducible apply State.railRaise_free h1)
    | (with_reducible apply State.setRs_free h2)
    | (with_reducible refine Free.ite (fun _ => ?_) (fun _ => ?_))

theorem State.fallTimeout_free {P : State → Prop} (h : Free P [.regs, .dev, .evq, .fault, .rail, .seq]) {s : State} (hs : P s) (r : Fin 15) :
    P (s.fallTimeout r) := by
  have h1 := h.mono (B := [.regs, .fault]) (by decide)
  have h2 := h.mono (B := [.regs, .evq]) (by decide)
  have h3 := h.mono (B := [.regs]) (by decide)
  have h4 := h.mono (B := [.regs, .dev, .evq, .rail, .seq]) (by decide)
  unfold State.fallTimeout
  extract_lets
  repeat' first
    | (with_reducible assumption)
    | (with_reducible apply State.err_free h1)
    | (with_reducible apply State.fallCheck_free h2)
    | (with_reducible apply State.put_free h3)
    | (with_reducible apply State.railForce_free h4)
    | (with_reducible apply State.raise_free h2)
    | (with_reducible refine Free.ite (fun _ => ?_) (fun _ => ?_))

end Sys2Proof.Machine
end

