-- ==== Sys2Proof/Laws/StableRecords.lean ====
section
/-! SUPPORT. Which parts of the state the operations of Machine/Records.lean may change: a property that stands whatever becomes of those
parts stands after the operation. -/

namespace Sys2Proof.Machine

theorem State.recSeal_free {P : State → Prop} (h : Free P [.mem]) {s : State} (hs : P s) :
    P (s.recSeal) := by
  unfold State.recSeal
  repeat' first
    | (with_reducible assumption)
    | (with_reducible apply State.store_free h)

theorem State.recPut_free {P : State → Prop} (h : Free P [.mem]) {s : State} (hs : P s) (ofs : Nat) (n : Nat) (v : Nat) :
    P (s.recPut ofs n v) := by
  unfold State.recPut
  repeat' first
    | (with_reducible assumption)
    | (with_reducible apply State.recSeal_free h)
    | (with_reducible apply State.store_free h)

theorem State.recBump_free {P : State → Prop} (h : Free P [.mem]) {s : State} (hs : P s) (ofs : Nat) (n : Nat) :
    P (s.recBump ofs n) := by
  unfold State.recBump
  repeat' first
    | (with_reducible assumption)
    | (with_reducible apply State.recPut_free h)

theorem State.pwronSet_free {P : State → Prop} (h : Free P [.regs, .evq]) {s : State} (hs : P s) :
    P (s.pwronSet) := by
  have h1 := h.mono (B := [.regs]) (by decide)
  unfold State.pwronSet
  repeat' first
    | (with_reducible assumption)
    | (with_reducible apply State.level_free h)
    | (with_reducible apply State.put_free h1)

theorem State.pwronRelease_free {P : State → Prop} (h : Free P [.regs, .evq]) {s : State} (hs : P s) (both : Bool) :
    P (s.pwronRelease both) := by
  have h1 := h.mono (B := [.regs]) (by decide)
  unfold State.pwronRelease
  extract_lets
  repeat' first
    | (with_reducible assumption)
    | (with_reducible apply State.level_free h)
    | (with_reducible apply State.put_free h1)
    | (with_reducible apply State.pwronSet_free h)
    | (with_reducible apply State.wr_free h1)
    | (with_reducible refine Free.ite (fun _ => ?_) (fun _ => ?_))

theorem State.recClear_free {P : State → Prop} (h : Free P [.mem]) {s : State} (hs : P s) :
    P (s.recClear) := by
  unfold State.recClear
  repeat' first
    | (with_reducible assumption)
    | (with_reducible apply State.recPut_free h)
    | (with_reducible apply State.zeroRange_free h)

theorem State.recCheck_free {P : State → Prop} (h : Free P [.regs, .mem, .fault]) {s : State} (hs : P s) :
    P (s.recCheck) := by
  have h1 := h.mono (B := [.regs, .fault]) (by decide)
  have h2 := h.mono (B := [.regs]) (by decide)
  have h3 := h.mono (B := [.mem]) (by decide)
  unfold State.recCheck
  extract_lets
  repeat' first
    | (with_reducible assumption)
    | (with_reducible apply State.errI_free h1)
    | (with_reducible apply State.injTake_free h2)
    | (with_reducible apply State.recClear_free h3)
    | (with_reducible refine Free.ite (fun _ => ?_) (fun _ => ?_))

theorem State.wakePower_free {P : State → Prop} (h : Free P [.regs, .evq]) {s : State} (hs : P s) (bits : Nat) :
    P (s.wakePower bits) := by
  unfold State.wakePower
  repeat' first
    | (with_reducible assumption)
    | (with_reducible apply State.pwronSet_free h)
    | (with_reducible refine Free.ite (fun _ => ?_) (fun _ => ?_))

theorem State.wakeRecord_free {P : State → Prop} (h : Free P [.regs, .evq]) {s : State} (hs : P s) (bits : Nat) :
    P (s.wakeRecord bits) := by
  have h1 := h.mono (B := [.regs]) (by decide)
  unfold State.wakeRecord
  extract_lets
  repeat' first
    | (with_reducible assumption)
    | (with_reducible apply State.put_free h1)
    | (with_reducible apply State.raise_free h)
    | (with_reducible apply State.wakePower_free h)

theorem State.pwronCheck_free {P : State → Prop} (h : Free P [.regs, .fault, .cellar]) {s : State} (hs : P s) (padHigh : Bool) :
    P (s.pwronCheck padHigh) := by
  have h1 := h.mono (B := [.regs, .fault]) (by decide)
  unfold State.pwronCheck
  extract_lets
  repeat' first
    | (with_reducible assumption)
    | (with_reducible apply State.err_free h1)
    | (with_reducible refine Free.ite (fun _ => ?_) (fun _ => ?_))
    | (with_reducible refine (h.cellar (by decide) _ ?_))

end Sys2Proof.Machine
end

