-- ==== Sys2Proof/Laws/StableSelect.lean ====
section
/-! SUPPORT. Which parts of the state the operations of Machine/Select.lean may change: a property that stands whatever becomes of those
parts stands after the operation. -/

namespace Sys2Proof.Machine

theorem State.setStep_free {P : State → Prop} (h : Free P [.regs]) {s : State} (hs : P s) (n : Fin 16) (k : Nat) :
    P (s.setStep n k) := by
  unfold State.setStep
  repeat' first
    | (with_reducible assumption)
    | (with_reducible apply State.put_free h)

theorem State.closedLost_free {P : State → Prop} (h : Free P [.regs, .evq, .pwm, .bal]) {s : State} (hs : P s) (n : Fin 16) :
    P (s.closedLost n) := by
  have h1 := h.mono (B := [.regs]) (by decide)
  have h2 := h.mono (B := [.regs, .evq]) (by decide)
  unfold State.closedLost
  extract_lets
  repeat' first
    | (with_reducible assumption)
    | (with_reducible apply State.balStop_free h)
    | (with_reducible apply State.put_free h1)
    | (with_reducible apply State.raise_free h2)
    | (with_reducible refine Free.ite (fun _ => ?_) (fun _ => ?_))

theorem State.selClosed_free {P : State → Prop} (h : Free P [.regs, .bal]) {s : State} (hs : P s) (n : Fin 16) :
    P (s.selClosed n) := by
  have h1 := h.mono (B := [.bal]) (by decide)
  have h2 := h.mono (B := [.regs]) (by decide)
  unfold State.selClosed
  extract_lets
  repeat' first
    | (with_reducible assumption)
    | (with_reducible apply State.setBs_free h1)
    | (with_reducible apply State.setStep_free h2)

theorem State.selEnd_free {P : State → Prop} (h : Free P [.regs, .evq, .bal, .hb]) {s : State} (hs : P s) (n : Fin 16) (result : Nat) :
    P (s.selEnd n result) := by
  have h1 := h.mono (B := [.regs]) (by decide)
  have h2 := h.mono (B := [.regs, .evq]) (by decide)
  have h3 := h.mono (B := [.bal]) (by decide)
  unfold State.selEnd
  extract_lets
  repeat' first
    | (with_reducible assumption)
    | (with_reducible apply State.put_free h1)
    | (with_reducible apply State.raise_free h2)
    | (with_reducible apply State.setBalCode_free h1)
    | (with_reducible apply State.setBs_free h3)
    | (with_reducible apply State.setStep_free h1)
    | (with_reducible refine Free.ite (fun _ => ?_) (fun _ => ?_))
    | (with_reducible refine (h.hb (by decide) _ ?_))

theorem State.selOpenFail_free {P : State → Prop} (h : Free P [.regs, .evq, .fault, .bal, .hb]) {s : State} (hs : P s) (n : Fin 16) :
    P (s.selOpenFail n) := by
  have h1 := h.mono (B := [.regs, .fault]) (by decide)
  have h2 := h.mono (B := [.regs, .evq, .bal, .hb]) (by decide)
  unfold State.selOpenFail
  extract_lets
  repeat' first
    | (with_reducible assumption)
    | (with_reducible apply State.err_free h1)
    | (with_reducible apply State.selEnd_free h2)

theorem State.selSend_free {P : State → Prop} (h : Free P [.regs, .mem, .evq, .fault, .link]) {s : State} (hs : P s) (n : Fin 16) (typ : Nat) (k : Nat) :
    P (s.selSend n typ k) := by
  unfold State.selSend
  extract_lets
  repeat' first
    | (with_reducible assumption)
    | (with_reducible apply State.linkBegin_free h)

theorem State.selTake_free {P : State → Prop} (h : Free P [.regs, .link]) {s : State} (hs : P s) (n : Fin 16) :
    P (s.selTake n) := by
  unfold State.selTake
  extract_lets
  repeat' first
    | (with_reducible assumption)
    | (with_reducible apply State.setLk_free h)

theorem State.selDeselect_free {P : State → Prop} (h : Free P [.regs, .mem, .evq, .fault, .link, .bal, .hb]) {s : State} (hs : P s) (n : Fin 16) (m : Nat) :
    P (s.selDeselect n m) := by
  have h1 := h.mono (B := [.regs, .evq, .bal, .hb]) (by decide)
  have h2 := h.mono (B := [.regs, .evq, .fault, .bal, .hb]) (by decide)
  have h3 := h.mono (B := [.regs, .mem, .evq, .fault, .link]) (by decide)
  have h4 := h.mono (B := [.regs, .link]) (by decide)
  have h5 := h.mono (B := [.bal]) (by decide)
  have h6 := h.mono (B := [.regs]) (by decide)
  unfold State.selDeselect
  extract_lets
  repeat' first
    | (with_reducible assumption)
    | (with_reducible apply State.selEnd_free h1)
    | (with_reducible apply State.selOpenFail_free h2)
    | (with_reducible apply State.selSend_free h3)
    | (with_reducible apply State.selTake_free h4)
    | (with_reducible apply State.setBs_free h5)
    | (with_reducible apply State.setStep_free h6)
    | (with_reducible refine Free.ite (fun _ => ?_) (fun _ => ?_))
    | split

theorem State.selFailBack_free {P : State → Prop} (h : Free P [.regs, .mem, .evq, .fault, .link, .bal, .hb]) {s : State} (hs : P s) (n : Fin 16) (result : Nat) (inj : Bool) :
    P (s.selFailBack n result inj) := by
  have h1 := h.mono (B := [.regs, .fault]) (by decide)
  have h2 := h.mono (B := [.regs]) (by decide)
  have h3 := h.mono (B := [.bal]) (by decide)
  unfold State.selFailBack
  extract_lets
  repeat' first
    | (with_reducible assumption)
    | (with_reducible apply State.errI_free h1)
    | (with_reducible apply State.put_free h2)
    | (with_reducible apply State.selDeselect_free h)
    | (with_reducible apply State.setBs_free h3)

theorem State.selSelect_free {P : State → Prop} (h : Free P [.regs, .mem, .evq, .fault, .link, .bal, .hb]) {s : State} (hs : P s) (n : Fin 16) :
    P (s.selSelect n) := by
  have h1 := h.mono (B := [.regs, .evq, .bal, .hb]) (by decide)
  have h2 := h.mono (B := [.regs, .mem, .evq, .fault, .link]) (by decide)
  have h3 := h.mono (B := [.regs, .link]) (by decide)
  have h4 := h.mono (B := [.regs]) (by decide)
  unfold State.selSelect
  extract_lets
  repeat' first
    | (with_reducible assumption)
    | (with_reducible apply State.selEnd_free h1)
    | (with_reducible apply State.selSend_free h2)
    | (with_reducible apply State.selTake_free h3)
    | (with_reducible apply State.setStep_free h4)
    | (with_reducible refine Free.ite (fun _ => ?_) (fun _ => ?_))
    | split

theorem State.selOpened_free {P : State → Prop} (h : Free P [.regs, .mem, .evq, .fault, .link, .bal, .hb]) {s : State} (hs : P s) (n : Fin 16) :
    P (s.selOpened n) := by
  have h1 := h.mono (B := [.regs]) (by decide)
  have h2 := h.mono (B := [.regs, .evq, .bal, .hb]) (by decide)
  unfold State.selOpened
  extract_lets
  repeat' first
    | (with_reducible assumption)
    | (with_reducible apply State.put_free h1)
    | (with_reducible apply State.selEnd_free h2)
    | (with_reducible apply State.selSelect_free h)
    | (with_reducible apply State.setBalCode_free h1)
    | (with_reducible refine Free.ite (fun _ => ?_) (fun _ => ?_))

theorem State.selLink_free {P : State → Prop} (h : Free P [.regs, .mem, .evq, .fault, .link, .bal, .hb]) {s : State} (hs : P s) (n : Fin 16) :
    P (s.selLink n) := by
  have h1 := h.mono (B := [.regs, .bal]) (by decide)
  have h2 := h.mono (B := [.regs, .evq, .bal, .hb]) (by decide)
  have h3 := h.mono (B := [.regs, .evq, .fault, .bal, .hb]) (by decide)
  have h4 := h.mono (B := [.regs, .link]) (by decide)
  have h5 := h.mono (B := [.bal]) (by decide)
  unfold State.selLink
  extract_lets
  repeat' first
    | (with_reducible assumption)
    | (with_reducible apply State.selClosed_free h1)
    | (with_reducible apply State.selEnd_free h2)
    | (with_reducible apply State.selFailBack_free h)
    | (with_reducible apply State.selOpenFail_free h3)
    | (with_reducible apply State.selOpened_free h)
    | (with_reducible apply State.selTake_free h4)
    | (with_reducible apply State.setBs_free h5)
    | (with_reducible refine Free.ite (fun _ => ?_) (fun _ => ?_))
    | split

theorem State.afterLink_free {P : State → Prop} (h : Free P [.regs, .mem, .evq, .fault, .pwm, .link, .bal, .hb]) {s : State} (hs : P s) (n : Fin 16) :
    P (s.afterLink n) := by
  have h1 := h.mono (B := [.regs, .evq, .pwm, .bal]) (by decide)
  have h2 := h.mono (B := [.regs, .evq, .bal]) (by decide)
  have h3 := h.mono (B := [.regs, .mem, .evq, .fault, .link, .bal, .hb]) (by decide)
  unfold State.afterLink
  repeat' first
    | (with_reducible assumption)
    | (with_reducible apply State.closedLost_free h1)
    | (with_reducible apply State.overlayCheck_free h2)
    | (with_reducible apply State.selLink_free h3)

theorem State.selAbort_free {P : State → Prop} (h : Free P [.regs, .evq, .bal, .hb]) {s : State} (hs : P s) (n : Fin 16) :
    P (s.selAbort n) := by
  have h1 := h.mono (B := [.bal]) (by decide)
  unfold State.selAbort
  extract_lets
  repeat' first
    | (with_reducible assumption)
    | (with_reducible apply State.selEnd_free h)
    | (with_reducible apply State.setBs_free h1)
    | (with_reducible refine Free.ite (fun _ => ?_) (fun _ => ?_))

theorem State.selReset_free {P : State → Prop} (h : Free P [.regs, .evq, .bal, .hb]) {s : State} (hs : P s) (n : Fin 16) :
    P (s.selReset n) := by
  have h1 := h.mono (B := [.bal]) (by decide)
  unfold State.selReset
  extract_lets
  repeat' first
    | (with_reducible assumption)
    | (with_reducible apply State.selAbort_free h)
    | (with_reducible apply State.setBs_free h1)
    | (with_reducible refine Free.ite (fun _ => ?_) (fun _ => ?_))

theorem State.balFuncReset_free {P : State → Prop} (h : Free P [.regs, .evq, .pwm, .bal, .hb]) {s : State} (hs : P s) (n : Fin 16) :
    P (s.balFuncReset n) := by
  have h1 := h.mono (B := [.regs, .evq, .pwm, .bal]) (by decide)
  have h2 := h.mono (B := [.regs, .evq, .bal, .hb]) (by decide)
  have h3 := h.mono (B := [.regs]) (by decide)
  have h4 := h.mono (B := [.bal]) (by decide)
  unfold State.balFuncReset
  extract_lets
  repeat' first
    | (with_reducible assumption)
    | (with_reducible apply State.balRefsLow_free h1)
    | (with_reducible apply State.selReset_free h2)
    | (with_reducible apply State.setBalCode_free h3)
    | (with_reducible apply State.setBs_free h4)

theorem State.deselectAll_free {P : State → Prop} (h : Free P [.regs, .mem, .evq, .pwm, .link, .bal, .hb]) {s : State} (hs : P s) :
    P (s.deselectAll) := by
  have h1 := h.mono (B := [.regs, .evq, .pwm, .bal]) (by decide)
  have h2 := h.mono (B := [.regs, .mem, .evq, .link]) (by decide)
  have h3 := h.mono (B := [.regs, .evq, .bal, .hb]) (by decide)
  unfold State.deselectAll
  repeat' first
    | (with_reducible assumption)
    | (with_reducible apply State.closedLost_free h1)
    | (with_reducible apply State.safeDeselect_free h2)
    | (with_reducible apply State.selAbort_free h3)
    | (with_reducible refine Free.foldl _ (fun _ _ _ => ?_) ?_)

theorem State.selVerify_free {P : State → Prop} (h : Free P [.regs, .mem, .evq, .fault, .link, .bal, .hb]) {s : State} (hs : P s) (n : Fin 16) (ago : Nat) :
    P (s.selVerify n ago) := by
  have h1 := h.mono (B := [.regs]) (by decide)
  have h2 := h.mono (B := [.regs, .evq, .bal, .hb]) (by decide)
  unfold State.selVerify
  extract_lets
  repeat' first
    | (with_reducible assumption)
    | (with_reducible apply State.injTake_free h1)
    | (with_reducible apply State.selEnd_free h2)
    | (with_reducible apply State.selFailBack_free h)
    | (with_reducible refine Free.ite (fun _ => ?_) (fun _ => ?_))

theorem State.selStopped_free {P : State → Prop} (h : Free P [.regs, .mem, .evq, .fault, .link, .bal, .hb]) {s : State} (hs : P s) (n : Fin 16) :
    P (s.selStopped n) := by
  have h1 := h.mono (B := [.regs, .evq, .bal, .hb]) (by decide)
  have h2 := h.mono (B := [.regs]) (by decide)
  unfold State.selStopped
  extract_lets
  repeat' first
    | (with_reducible assumption)
    | (with_reducible apply State.selDeselect_free h)
    | (with_reducible apply State.selEnd_free h1)
    | (with_reducible apply State.selSelect_free h)
    | (with_reducible apply State.setStep_free h2)
    | (with_reducible refine Free.ite (fun _ => ?_) (fun _ => ?_))

theorem State.selBegin_free {P : State → Prop} (h : Free P [.regs, .mem, .evq, .fault, .pwm, .link, .bal, .hb]) {s : State} (hs : P s) (n : Fin 16) (module : Nat) :
    P (s.selBegin n module) := by
  have h1 := h.mono (B := [.regs, .evq, .pwm, .bal]) (by decide)
  have h2 := h.mono (B := [.regs]) (by decide)
  have h3 := h.mono (B := [.regs, .evq, .bal, .hb]) (by decide)
  have h4 := h.mono (B := [.regs, .mem, .evq, .fault, .link, .bal, .hb]) (by decide)
  have h5 := h.mono (B := [.bal]) (by decide)
  unfold State.selBegin
  extract_lets
  repeat' first
    | (with_reducible assumption)
    | (with_reducible apply State.balStop_free h1)
    | (with_reducible apply State.put_free h2)
    | (with_reducible apply State.selEnd_free h3)
    | (with_reducible apply State.selStopped_free h4)
    | (with_reducible apply State.setBs_free h5)
    | (with_reducible apply State.setStep_free h2)
    | (with_reducible refine Free.ite (fun _ => ?_) (fun _ => ?_))

theorem State.selVerifyTimeout_free {P : State → Prop} (h : Free P [.regs, .mem, .evq, .fault, .link, .bal, .hb]) {s : State} (hs : P s) (n : Fin 16) :
    P (s.selVerifyTimeout n) := by
  unfold State.selVerifyTimeout
  repeat' first
    | (with_reducible assumption)
    | (with_reducible apply State.selFailBack_free h)
    | (with_reducible refine Free.ite (fun _ => ?_) (fun _ => ?_))

theorem State.selPoll_free {P : State → Prop} (h : Free P [.regs, .mem, .evq, .fault, .link, .bal, .hb]) {s : State} (hs : P s) (n : Fin 16) :
    P (s.selPoll n) := by
  have h1 := h.mono (B := [.regs, .mem, .evq, .fault, .link]) (by decide)
  unfold State.selPoll
  repeat' first
    | (with_reducible assumption)
    | (with_reducible apply State.selLink_free h)
    | (with_reducible apply State.selSend_free h1)
    | (with_reducible refine Free.ite (fun _ => ?_) (fun _ => ?_))

theorem State.selOpenTimeout_free {P : State → Prop} (h : Free P [.regs, .evq, .fault, .bal, .hb]) {s : State} (hs : P s) (n : Fin 16) :
    P (s.selOpenTimeout n) := by
  unfold State.selOpenTimeout
  repeat' first
    | (with_reducible assumption)
    | (with_reducible apply State.selOpenFail_free h)
    | (with_reducible refine Free.ite (fun _ => ?_) (fun _ => ?_))

theorem State.selAfterStop_free {P : State → Prop} (h : Free P [.regs, .mem, .evq, .fault, .link, .bal, .hb]) {s : State} (hs : P s) (n : Fin 16) :
    P (s.selAfterStop n) := by
  have h1 := h.mono (B := [.regs, .evq, .bal, .hb]) (by decide)
  unfold State.selAfterStop
  repeat' first
    | (with_reducible assumption)
    | (with_reducible apply State.selEnd_free h1)
    | (with_reducible apply State.selStopped_free h)
    | (with_reducible refine Free.ite (fun _ => ?_) (fun _ => ?_))

theorem State.selCloseTimeout_free {P : State → Prop} (h : Free P [.regs, .mem, .evq, .fault, .link, .bal, .hb]) {s : State} (hs : P s) (n : Fin 16) :
    P (s.selCloseTimeout n) := by
  unfold State.selCloseTimeout
  repeat' first
    | (with_reducible assumption)
    | (with_reducible apply State.selFailBack_free h)
    | (with_reducible refine Free.ite (fun _ => ?_) (fun _ => ?_))

end Sys2Proof.Machine
end

