-- ==== Sys2Proof/Laws/StableTherm.lean ====
section
/-! SUPPORT. Which parts of the state the operations of Machine/Therm.lean may change: a property that stands whatever becomes of those
parts stands after the operation. -/

namespace Sys2Proof.Machine

theorem State.setTd_free {P : State → Prop} (h : Free P [.regs, .evq]) {s : State} (hs : P s) (v : Nat) :
    P (s.setTd v) := by
  have h1 := h.mono (B := [.regs]) (by decide)
  unfold State.setTd
  extract_lets
  repeat' first
    | (with_reducible assumption)
    | (with_reducible apply State.level_free h)
    | (with_reducible apply State.put_free h1)
    | (with_reducible refine Free.foldl _ (fun _ _ _ => ?_) ?_)

theorem State.setTc_free {P : State → Prop} (h : Free P [.regs]) {s : State} (hs : P s) (n : Fin 16) (v : Nat) :
    P (s.setTc n v) := by
  unfold State.setTc
  repeat' first
    | (with_reducible assumption)
    | (with_reducible apply State.put_free h)

theorem State.judgeTc_free {P : State → Prop} (h : Free P [.regs, .evq]) {s : State} (hs : P s) (n : Fin 16) :
    P (s.judgeTc n) := by
  have h1 := h.mono (B := [.regs]) (by decide)
  unfold State.judgeTc
  extract_lets
  repeat' first
    | (with_reducible assumption)
    | (with_reducible apply State.raise_free h)
    | (with_reducible apply State.setTc_free h1)
    | (with_reducible refine Free.ite (fun _ => ?_) (fun _ => ?_))

theorem State.throttleJudge_free {P : State → Prop} (h : Free P [.regs, .evq]) {s : State} (hs : P s) :
    P (s.throttleJudge) := by
  have h1 := h.mono (B := [.regs]) (by decide)
  unfold State.throttleJudge
  extract_lets
  repeat' first
    | (with_reducible assumption)
    | (with_reducible apply State.judgeTc_free h)
    | (with_reducible apply State.raise_free h)
    | (with_reducible apply State.setTc_free h1)
    | (with_reducible apply State.setTd_free h)
    | (with_reducible refine Free.ite (fun _ => ?_) (fun _ => ?_))
    | (with_reducible refine Free.foldl _ (fun _ _ _ => ?_) ?_)

theorem State.auxModes_free {P : State → Prop} (h : Free P [.regs]) {s : State} (hs : P s) :
    P (s.auxModes) := by
  unfold State.auxModes
  repeat' first
    | (with_reducible assumption)
    | (with_reducible apply State.put_free h)
    | (with_reducible refine Free.ite (fun _ => ?_) (fun _ => ?_))
    | (with_reducible refine Free.foldl _ (fun _ _ _ => ?_) ?_)

theorem State.thermCool_free {P : State → Prop} (h : Free P [.regs, .evq, .therm]) {s : State} (hs : P s) :
    P (s.thermCool) := by
  have h1 := h.mono (B := [.regs, .evq]) (by decide)
  unfold State.thermCool
  extract_lets
  repeat' first
    | (with_reducible assumption)
    | (with_reducible apply State.level_free h1)
    | (with_reducible refine (h.therm (by decide) _ ?_))

theorem State.slowRound_free {P : State → Prop} (h : Free P [.regs, .mem, .therm]) {s : State} (hs : P s) :
    P (s.slowRound) := by
  have h1 := h.mono (B := [.mem]) (by decide)
  have h2 := h.mono (B := [.regs]) (by decide)
  unfold State.slowRound
  extract_lets
  repeat' first
    | (with_reducible assumption)
    | (with_reducible apply State.bump_free h1)
    | (with_reducible apply State.putI_free h2)
    | split
    | (with_reducible refine (h.therm (by decide) _ ?_))

theorem State.throttleAuto_free {P : State → Prop} (h : Free P [.regs, .evq]) {s : State} (hs : P s) :
    P (s.throttleAuto) := by
  unfold State.throttleAuto
  repeat' first
    | (with_reducible assumption)
    | (with_reducible apply State.raise_free h)
    | (with_reducible apply State.throttleJudge_free h)
    | (with_reducible refine Free.ite (fun _ => ?_) (fun _ => ?_))

theorem State.syncTempMax_free {P : State → Prop} (h : Free P [.regs, .fault]) {s : State} (hs : P s) (inj : Bool) :
    P (s.syncTempMax inj) := by
  have h1 := h.mono (B := [.regs]) (by decide)
  unfold State.syncTempMax
  repeat' first
    | (with_reducible assumption)
    | (with_reducible apply State.errI_free h)
    | (with_reducible apply State.put_free h1)
    | (with_reducible apply State.putI_free h1)
    | split

theorem State.thermTrip_free {P : State → Prop} (h : Free P [.regs, .evq, .fault, .therm]) {s : State} (hs : P s) (k : Fin 12) :
    P (s.thermTrip k) := by
  have h1 := h.mono (B := [.regs]) (by decide)
  have h2 := h.mono (B := [.regs, .evq]) (by decide)
  have h3 := h.mono (B := [.fault]) (by decide)
  unfold State.thermTrip
  extract_lets
  repeat' first
    | (with_reducible assumption)
    | (with_reducible apply State.injTake_free h1)
    | (with_reducible apply State.level_free h2)
    | (with_reducible apply State.pulse_free h3)
    | (with_reducible apply State.wr_free h1)
    | (with_reducible refine (h.therm (by decide) _ ?_))

theorem State.auxResult_free {P : State → Prop} (h : Free P [.regs, .fault]) {s : State} (hs : P s) (m : Nat) (c : Nat) (stale : Bool) :
    P (s.auxResult m c stale) := by
  have h1 := h.mono (B := [.regs]) (by decide)
  unfold State.auxResult
  repeat' first
    | (with_reducible assumption)
    | (with_reducible apply State.err_free h)
    | (with_reducible apply State.put_free h1)
    | (with_reducible apply State.putI_free h1)
    | (with_reducible refine Free.ite (fun _ => ?_) (fun _ => ?_))
    | split

theorem State.dieResult_free {P : State → Prop} (h : Free P [.regs, .fault]) {s : State} (hs : P s) (k : Nat) (g : Nat) (code : Nat) (stale : Bool) :
    P (s.dieResult k g code stale) := by
  have h1 := h.mono (B := [.regs]) (by decide)
  unfold State.dieResult
  extract_lets
  repeat' first
    | (with_reducible assumption)
    | (with_reducible apply State.err_free h)
    | (with_reducible apply State.put_free h1)
    | (with_reducible apply State.putI_free h1)
    | (with_reducible apply State.syncTempMax_free h)
    | (with_reducible refine Free.ite (fun _ => ?_) (fun _ => ?_))

theorem State.sensorResult_free {P : State → Prop} (h : Free P [.regs, .fault]) {s : State} (hs : P s) (t : Nat) (e : Nat) :
    P (s.sensorResult t e) := by
  have h1 := h.mono (B := [.regs]) (by decide)
  unfold State.sensorResult
  extract_lets
  repeat' first
    | (with_reducible assumption)
    | (with_reducible apply State.auxResult_free h)
    | (with_reducible apply State.dieResult_free h)
    | (with_reducible apply State.injTake_free h1)
    | (with_reducible refine Free.ite (fun _ => ?_) (fun _ => ?_))

theorem State.readingStale_free {P : State → Prop} (h : Free P [.regs, .fault]) {s : State} (hs : P s) (r : Fin 20) :
    P (s.readingStale r) := by
  have h1 := h.mono (B := [.regs]) (by decide)
  unfold State.readingStale
  repeat' first
    | (with_reducible assumption)
    | (with_reducible apply State.put_free h1)
    | (with_reducible apply State.syncTempMax_free h)
    | (with_reducible refine Free.ite (fun _ => ?_) (fun _ => ?_))

end Sys2Proof.Machine
end

