-- ==== Sys2Proof/Laws/StableModes.lean ====
section
/-! SUPPORT. Which parts of the state the operations of Machine/Modes.lean may change: a property that stands whatever becomes of those
parts stands after the operation. -/

namespace Sys2Proof.Machine

theorem State.inReset_free {P : State → Prop} (h : Free P Part.all) {s : State} (hs : P s) :
    P (s.inReset) := by
  have h1 := h.mono (B := [.regs]) (by decide)
  unfold State.inReset
  extract_lets st raw r0 x1 x2 x3 r
  have hr : P r := @Free.all P s h r rfl (fun hw => Sparse.wf_filter _ _ hw) (fun hw => Sparse.wf_filter _ _ hw) hs
  exact State.wr_free h1 (State.wr_free h1 hr _ _) _ _

theorem State.setMode_free {P : State → Prop} (h : Free P [.regs, .mode, .evq, .lamp]) {s : State} (hs : P s) (m : Mode) (cause : Nat) :
    P (s.setMode m cause) := by
  have h1 := h.mono (B := [.regs]) (by decide)
  have h2 := h.mono (B := [.regs, .evq]) (by decide)
  unfold State.setMode
  extract_lets
  repeat' first
    | (with_reducible assumption)
    | (with_reducible apply State.put_free h1)
    | (with_reducible apply State.raise_free h2)
    | (with_reducible refine (h.mode_lamp (by decide) (by decide) _ _ ?_))

theorem State.riseReset_free {P : State → Prop} (h : Free P Part.all) {s : State} (hs : P s) (cause : Nat) (riseCause : Nat) :
    P (s.riseReset cause riseCause) := by
  have h1 := h.mono (B := [.regs]) (by decide)
  have h2 := h.mono (B := [.regs, .mode, .evq, .lamp]) (by decide)
  unfold State.riseReset
  extract_lets
  repeat' first
    | (with_reducible assumption)
    | (with_reducible apply State.inReset_free h)
    | (with_reducible apply State.put_free h1)
    | (with_reducible apply State.setMode_free h2)

theorem State.riseFromCellar_free {P : State → Prop} (h : Free P Part.all) {s : State} (hs : P s) (riseCause : Nat) :
    P (s.riseFromCellar riseCause) := by
  unfold State.riseFromCellar
  extract_lets
  repeat' first
    | (with_reducible assumption)
    | (with_reducible apply State.riseReset_free h)
    | (with_reducible refine Free.ite (fun _ => ?_) (fun _ => ?_))
    | (with_reducible refine (h.dev_cellar (by decide) (by decide) _ _ ?_))

theorem State.convertersOff_free {P : State → Prop} (h : Free P [.regs, .evq, .pwm, .bal, .pack]) {s : State} (hs : P s) :
    P (s.convertersOff) := by
  have h1 := h.mono (B := [.regs, .evq, .pwm, .bal]) (by decide)
  have h2 := h.mono (B := [.regs, .evq, .pack]) (by decide)
  unfold State.convertersOff
  repeat' first
    | (with_reducible assumption)
    | (with_reducible apply State.balAllOff_free h1)
    | (with_reducible apply State.packRows_free h2)

theorem State.holdImage_free {P : State → Prop} (h : Free P [.regs, .lamp]) {s : State} (hs : P s) :
    P (s.holdImage) := by
  have h1 := h.mono (B := [.regs]) (by decide)
  unfold State.holdImage
  extract_lets
  repeat' first
    | (with_reducible assumption)
    | (with_reducible apply State.put_free h1)
    | (with_reducible refine (h.lamp (by decide) _ ?_))

theorem State.relightOut_free {P : State → Prop} (h : Free P [.regs, .evq, .lamp]) {s : State} (hs : P s) (safe : Bool) :
    P (s.relightOut safe) := by
  have h1 := h.mono (B := [.regs, .lamp]) (by decide)
  have h2 := h.mono (B := [.regs]) (by decide)
  unfold State.relightOut
  extract_lets
  repeat' first
    | (with_reducible assumption)
    | (with_reducible apply State.holdImage_free h1)
    | (with_reducible apply State.put_free h2)
    | (with_reducible apply State.relightFail_free h)
    | (with_reducible refine Free.ite (fun _ => ?_) (fun _ => ?_))
    | (with_reducible refine (h.lamp (by decide) _ ?_))

theorem State.enterSafe_free {P : State → Prop} (h : Free P [.regs, .mem, .mode, .dev, .evq, .lamp, .pwm, .link, .bal, .hb, .pack, .feed, .svc]) {s : State} (hs : P s) (cause : Nat) :
    P (s.enterSafe cause) := by
  have h1 := h.mono (B := [.regs, .evq, .pwm, .bal, .pack]) (by decide)
  have h2 := h.mono (B := [.regs, .mem, .evq, .pwm, .link, .bal, .hb]) (by decide)
  have h3 := h.mono (B := [.regs, .evq, .feed]) (by decide)
  have h4 := h.mono (B := [.regs, .evq, .lamp]) (by decide)
  have h5 := h.mono (B := [.regs, .mode, .evq, .lamp]) (by decide)
  have h6 := h.mono (B := [.regs, .svc]) (by decide)
  unfold State.enterSafe
  extract_lets
  repeat' first
    | (with_reducible assumption)
    | (with_reducible apply State.convertersOff_free h1)
    | (with_reducible apply State.deselectAll_free h2)
    | (with_reducible apply State.feedsSnuff_free h3)
    | (with_reducible apply State.relightOut_free h4)
    | (with_reducible apply State.setMode_free h5)
    | (with_reducible apply State.svcSnuff_free h6)
    | (with_reducible refine (h.dev (by decide) _ ?_))

theorem State.stopRails_free {P : State → Prop} (h : Free P [.regs, .mem, .dev, .evq, .rail, .seq]) {s : State} (hs : P s) :
    P (s.stopRails) := by
  have h1 := h.mono (B := [.regs, .dev, .evq, .rail, .seq]) (by decide)
  have h2 := h.mono (B := [.mem]) (by decide)
  unfold State.stopRails
  extract_lets
  repeat' first
    | (with_reducible assumption)
    | (with_reducible apply State.railsStop_free h1)
    | (with_reducible apply State.recBump_free h2)
    | (with_reducible refine (h.dev (by decide) _ ?_))

theorem State.riseAgain_free {P : State → Prop} (h : Free P [.regs, .mode, .dev, .evq, .lamp, .feed, .rail, .seq]) {s : State} (hs : P s) (cause : Nat) (riseCause : Nat) :
    P (s.riseAgain cause riseCause) := by
  have h1 := h.mono (B := [.regs, .evq, .feed]) (by decide)
  have h2 := h.mono (B := [.regs]) (by decide)
  have h3 := h.mono (B := [.regs, .evq, .rail, .seq]) (by decide)
  have h4 := h.mono (B := [.regs, .mode, .evq, .lamp]) (by decide)
  unfold State.riseAgain
  extract_lets
  repeat' first
    | (with_reducible assumption)
    | (with_reducible apply State.feedsOff_free h1)
    | (with_reducible apply State.put_free h2)
    | (with_reducible apply State.seqRise_free h3)
    | (with_reducible apply State.setMode_free h4)
    | (with_reducible refine (h.dev (by decide) _ ?_))

theorem State.wakeRise_free {P : State → Prop} (h : Free P [.regs, .mode, .dev, .evq, .lamp, .feed, .rail, .seq]) {s : State} (hs : P s) :
    P (s.wakeRise) := by
  unfold State.wakeRise
  repeat' first
    | (with_reducible assumption)
    | (with_reducible apply State.riseAgain_free h)

theorem State.wakeByLatch_free {P : State → Prop} (h : Free P [.regs, .mode, .dev, .evq, .lamp, .feed, .rail, .seq]) {s : State} (hs : P s) :
    P (s.wakeByLatch) := by
  have h1 := h.mono (B := [.regs, .evq]) (by decide)
  unfold State.wakeByLatch
  extract_lets
  repeat' first
    | (with_reducible assumption)
    | (with_reducible apply State.raise_free h1)
    | (with_reducible apply State.wakeRise_free h)
    | (with_reducible refine Free.ite (fun _ => ?_) (fun _ => ?_))
    | (with_reducible refine (h.dev (by decide) _ ?_))

theorem State.deviceReset_free {P : State → Prop} (h : Free P Part.all) {s : State} (hs : P s) (riseCause : Nat) :
    P (s.deviceReset riseCause) := by
  have h1 := h.mono (B := [.regs, .mem, .fresh, .op]) (by decide)
  have h2 := h.mono (B := [.mem]) (by decide)
  unfold State.deviceReset
  repeat' first
    | (with_reducible assumption)
    | (with_reducible apply State.opAbandon_free h1)
    | (with_reducible apply State.recPut_free h2)
    | (with_reducible apply State.riseReset_free h)
    | (with_reducible refine Free.ite (fun _ => ?_) (fun _ => ?_))

theorem State.abandonForFlush_free {P : State → Prop} (h : Free P [.regs, .evq, .adc, .link]) {s : State} (hs : P s) :
    P (s.abandonForFlush) := by
  have h1 := h.mono (B := [.regs, .evq]) (by decide)
  have h2 := h.mono (B := [.regs, .link]) (by decide)
  have h3 := h.mono (B := [.regs, .adc]) (by decide)
  unfold State.abandonForFlush
  extract_lets
  repeat' first
    | (with_reducible assumption)
    | (with_reducible apply State.longEnd_free h1)
    | (with_reducible apply State.setLk_free h2)
    | (with_reducible apply State.sweepAbandon_free h3)
    | (with_reducible refine Free.ite (fun _ => ?_) (fun _ => ?_))
    | (with_reducible refine Free.foldl _ (fun _ _ _ => ?_) ?_)

theorem State.flushForEntry_free {P : State → Prop} (h : Free P [.regs, .evq, .op, .adc, .link, .est]) {s : State} (hs : P s) :
    P (s.flushForEntry) := by
  have h1 := h.mono (B := [.regs, .evq, .adc, .link]) (by decide)
  have h2 := h.mono (B := [.regs, .op, .est]) (by decide)
  unfold State.flushForEntry
  repeat' first
    | (with_reducible assumption)
    | (with_reducible apply State.abandonForFlush_free h1)
    | (with_reducible apply State.flushStart_free h2)

theorem State.enterFall_free {P : State → Prop} (h : Free P [.regs, .mem, .mode, .dev, .evq, .lamp, .op, .pwm, .adc, .link, .est, .bal, .hb, .pack, .feed, .rail, .seq, .svc]) {s : State} (hs : P s) :
    P (s.enterFall) := by
  have h1 := h.mono (B := [.regs, .evq, .pwm, .bal, .pack]) (by decide)
  have h2 := h.mono (B := [.regs, .mem, .evq, .pwm, .link, .bal, .hb]) (by decide)
  have h3 := h.mono (B := [.regs, .evq, .feed]) (by decide)
  have h4 := h.mono (B := [.regs, .evq, .op, .adc, .link, .est]) (by decide)
  have h5 := h.mono (B := [.regs, .evq, .lamp]) (by decide)
  have h6 := h.mono (B := [.regs, .dev, .evq, .rail, .seq]) (by decide)
  have h7 := h.mono (B := [.regs, .mode, .evq, .lamp]) (by decide)
  have h8 := h.mono (B := [.regs, .svc]) (by decide)
  unfold State.enterFall
  extract_lets
  repeat' first
    | (with_reducible assumption)
    | (with_reducible apply State.convertersOff_free h1)
    | (with_reducible apply State.deselectAll_free h2)
    | (with_reducible apply State.feedsOff_free h3)
    | (with_reducible apply State.flushForEntry_free h4)
    | (with_reducible apply State.relightOut_free h5)
    | (with_reducible apply State.seqFall_free h6)
    | (with_reducible apply State.setMode_free h7)
    | (with_reducible apply State.svcStop_free h8)
    | (with_reducible refine Free.ite (fun _ => ?_) (fun _ => ?_))
    | (with_reducible refine (h.dev (by decide) _ ?_))

theorem State.estSleeps_free {P : State → Prop} (h : Free P [.est]) {s : State} (hs : P s) :
    P (s.estSleeps) := by
  unfold State.estSleeps
  repeat' first
    | (with_reducible assumption)
    | (with_reducible apply State.setEs_free h)
    | (with_reducible refine Free.foldl _ (fun _ _ _ => ?_) ?_)

theorem State.enterHibernate_free {P : State → Prop} (h : Free P [.regs, .mem, .mode, .dev, .evq, .lamp, .op, .pwm, .adc, .cmp, .link, .est, .bal, .hb, .inp, .pack, .feed, .svc]) {s : State} (hs : P s) :
    P (s.enterHibernate) := by
  have h1 := h.mono (B := [.regs, .evq, .cmp]) (by decide)
  have h2 := h.mono (B := [.regs, .evq, .pwm, .bal, .pack]) (by decide)
  have h3 := h.mono (B := [.regs, .mem, .evq, .pwm, .link, .bal, .hb]) (by decide)
  have h4 := h.mono (B := [.est]) (by decide)
  have h5 := h.mono (B := [.regs, .evq, .feed]) (by decide)
  have h6 := h.mono (B := [.regs, .evq, .op, .adc, .link, .est]) (by decide)
  have h7 := h.mono (B := [.regs, .evq, .inp]) (by decide)
  have h8 := h.mono (B := [.regs, .evq, .lamp]) (by decide)
  have h9 := h.mono (B := [.regs, .mode, .evq, .lamp]) (by decide)
  have h10 := h.mono (B := [.regs, .svc]) (by decide)
  have h11 := h.mono (B := [.regs]) (by decide)
  unfold State.enterHibernate
  extract_lets
  repeat' first
    | (with_reducible assumption)
    | (with_reducible apply State.cmpStops_free h1)
    | (with_reducible apply State.convertersOff_free h2)
    | (with_reducible apply State.deselectAll_free h3)
    | (with_reducible apply State.estSleeps_free h4)
    | (with_reducible apply State.feedsOff_free h5)
    | (with_reducible apply State.flushForEntry_free h6)
    | (with_reducible apply State.inpHibernate_free h7)
    | (with_reducible apply State.relightOut_free h8)
    | (with_reducible apply State.setMode_free h9)
    | (with_reducible apply State.svcStop_free h10)
    | (with_reducible apply State.wr_free h11)
    | (with_reducible refine (h.dev (by decide) _ ?_))
    | (with_reducible refine (h.dev_est (by decide) (by decide) _ _ ?_))

theorem State.enterRun_free {P : State → Prop} (h : Free P [.regs, .mode, .evq, .lamp, .feed, .svc]) {s : State} (hs : P s) :
    P (s.enterRun) := by
  have h1 := h.mono (B := [.regs, .evq, .feed]) (by decide)
  have h2 := h.mono (B := [.regs, .mode, .evq, .lamp]) (by decide)
  have h3 := h.mono (B := [.regs, .svc]) (by decide)
  unfold State.enterRun
  extract_lets
  repeat' first
    | (with_reducible assumption)
    | (with_reducible apply State.feedsEnter_free h1)
    | (with_reducible apply State.setMode_free h2)
    | (with_reducible apply State.svcRun_free h3)

theorem State.enterService_free {P : State → Prop} (h : Free P [.regs, .mem, .mode, .dev, .evq, .lamp, .pwm, .link, .bal, .hb, .pack, .feedL, .svc]) {s : State} (hs : P s) (cause : Nat) :
    P (s.enterService cause) := by
  have h1 := h.mono (B := [.regs, .evq, .pwm, .bal, .pack]) (by decide)
  have h2 := h.mono (B := [.regs, .mem, .evq, .pwm, .link, .bal, .hb]) (by decide)
  have h3 := h.mono (B := [.regs, .feedL]) (by decide)
  have h4 := h.mono (B := [.regs]) (by decide)
  have h5 := h.mono (B := [.regs, .mode, .evq, .lamp]) (by decide)
  have h6 := h.mono (B := [.regs, .svc]) (by decide)
  unfold State.enterService
  extract_lets
  repeat' first
    | (with_reducible assumption)
    | (with_reducible apply State.convertersOff_free h1)
    | (with_reducible apply State.deselectAll_free h2)
    | (with_reducible apply State.feedsLevel0_free h3)
    | (with_reducible apply State.put_free h4)
    | (with_reducible apply State.setMode_free h5)
    | (with_reducible apply State.svcRun_free h6)
    | (with_reducible refine Free.ite (fun _ => ?_) (fun _ => ?_))
    | (with_reducible refine (h.dev (by decide) _ ?_))
    | (with_reducible refine (h.lamp (by decide) _ ?_))

theorem State.modeRes_free {P : State → Prop} (h : Free P [.regs, .evq]) {s : State} (hs : P s) (code : Nat) :
    P (s.modeRes code) := by
  have h1 := h.mono (B := [.regs]) (by decide)
  unfold State.modeRes
  extract_lets
  repeat' first
    | (with_reducible assumption)
    | (with_reducible apply State.put_free h1)
    | (with_reducible apply State.raise_free h)
    | (with_reducible refine Free.ite (fun _ => ?_) (fun _ => ?_))

theorem State.runFromService_free {P : State → Prop} (h : Free P [.regs, .mem, .evq, .fault, .lamp]) {s : State} (hs : P s) (bad : Nat → Bool) :
    P (s.runFromService bad) := by
  have h1 := h.mono (B := [.regs, .mem, .fault, .lamp]) (by decide)
  have h2 := h.mono (B := [.regs, .evq]) (by decide)
  unfold State.runFromService
  extract_lets
  repeat' first
    | (with_reducible assumption)
    | (with_reducible apply State.imageForRun_free h1)
    | (with_reducible apply State.modeRes_free h2)
    | split
    | (with_reducible refine (h.lamp (by decide) _ ?_))

theorem State.modeReq_free {P : State → Prop} (h : Free P [.regs, .mem, .mode, .dev, .evq, .fault, .lamp, .op, .pwm, .adc, .cmp, .link, .est, .bal, .hb, .inp, .pack, .feed, .feedL, .rail, .seq, .svc]) {s : State} (hs : P s) (key : Nat) (op : Nat) (bad : Nat → Bool) :
    P (s.modeReq key op bad) := by
  have h1 := h.mono (B := [.regs, .mem, .mode, .dev, .evq, .lamp, .op, .pwm, .adc, .link, .est, .bal, .hb, .pack, .feed, .rail, .seq, .svc]) (by decide)
  have h2 := h.mono (B := [.regs, .mem, .mode, .dev, .evq, .lamp, .op, .pwm, .adc, .cmp, .link, .est, .bal, .hb, .inp, .pack, .feed, .svc]) (by decide)
  have h3 := h.mono (B := [.regs, .mode, .evq, .lamp, .feed, .svc]) (by decide)
  have h4 := h.mono (B := [.regs, .mem, .mode, .dev, .evq, .lamp, .pwm, .link, .bal, .hb, .pack, .feed, .svc]) (by decide)
  have h5 := h.mono (B := [.regs, .mem, .mode, .dev, .evq, .lamp, .pwm, .link, .bal, .hb, .pack, .feedL, .svc]) (by decide)
  have h6 := h.mono (B := [.regs, .evq]) (by decide)
  have h7 := h.mono (B := [.regs, .mem, .evq, .fault, .lamp]) (by decide)
  unfold State.modeReq
  extract_lets
  repeat' first
    | (with_reducible assumption)
    | (with_reducible apply State.enterFall_free h1)
    | (with_reducible apply State.enterHibernate_free h2)
    | (with_reducible apply State.enterRun_free h3)
    | (with_reducible apply State.enterSafe_free h4)
    | (with_reducible apply State.enterService_free h5)
    | (with_reducible apply State.modeRes_free h6)
    | (with_reducible apply State.runFromService_free h7)
    | (with_reducible refine Free.ite (fun _ => ?_) (fun _ => ?_))
    | split
    | (with_reducible refine (h.dev (by decide) _ ?_))

theorem State.offRequest_free {P : State → Prop} (h : Free P [.regs, .mem, .mode, .dev, .evq, .lamp, .op, .pwm, .adc, .link, .est, .bal, .hb, .pack, .feed, .rail, .seq, .svc]) {s : State} (hs : P s) :
    P (s.offRequest) := by
  unfold State.offRequest
  repeat' first
    | (with_reducible assumption)
    | (with_reducible apply State.enterFall_free h)
    | (with_reducible refine Free.ite (fun _ => ?_) (fun _ => ?_))

theorem State.powerCycle_free {P : State → Prop} (h : Free P [.regs, .mem, .mode, .dev, .evq, .lamp, .op, .pwm, .adc, .link, .est, .bal, .hb, .pack, .feed, .rail, .seq, .svc]) {s : State} (hs : P s) (v : Nat) :
    P (s.powerCycle v) := by
  unfold State.powerCycle
  extract_lets
  repeat' first
    | (with_reducible assumption)
    | (with_reducible apply State.offRequest_free h)
    | (with_reducible refine Free.ite (fun _ => ?_) (fun _ => ?_))
    | (with_reducible refine (h.dev (by decide) _ ?_))

theorem State.thermRelease_free {P : State → Prop} (h : Free P [.regs, .mode, .dev, .evq, .lamp, .feed, .rail, .seq, .therm]) {s : State} (hs : P s) :
    P (s.thermRelease) := by
  have h1 := h.mono (B := [.regs, .evq]) (by decide)
  have h2 := h.mono (B := [.regs, .mode, .dev, .evq, .lamp, .feed, .rail, .seq]) (by decide)
  have h3 := h.mono (B := [.regs, .evq, .therm]) (by decide)
  unfold State.thermRelease
  repeat' first
    | (with_reducible assumption)
    | (with_reducible apply State.raise_free h1)
    | (with_reducible apply State.riseAgain_free h2)
    | (with_reducible apply State.thermCool_free h3)
    | (with_reducible refine Free.ite (fun _ => ?_) (fun _ => ?_))

theorem State.enterCellar_free {P : State → Prop} (h : Free P Part.all) {s : State} (hs : P s) (cause : Nat) :
    P (s.enterCellar cause) := by
  have h1 := h.mono (B := [.regs, .mem, .fresh, .op]) (by decide)
  have h2 := h.mono (B := [.mem]) (by decide)
  have h3 := h.mono (B := [.regs, .mode, .evq, .lamp]) (by decide)
  have h4 := h.mono (B := [.regs]) (by decide)
  unfold State.enterCellar
  extract_lets
  repeat' first
    | (with_reducible assumption)
    | (with_reducible apply State.inReset_free h)
    | (with_reducible apply State.opAbandon_free h1)
    | (with_reducible apply State.recPut_free h2)
    | (with_reducible apply State.setMode_free h3)
    | (with_reducible apply State.wr_free h4)
    | (with_reducible refine (h.mem (by decide) _ (fun hw => Sparse.wf_filter _ _ hw) ?_))

theorem State.fallComplete_free {P : State → Prop} (h : Free P Part.all) {s : State} (hs : P s) :
    P (s.fallComplete) := by
  unfold State.fallComplete
  extract_lets
  repeat' first
    | (with_reducible assumption)
    | (with_reducible apply State.enterCellar_free h)
    | (with_reducible refine Free.ite (fun _ => ?_) (fun _ => ?_))
    | (with_reducible refine (h.dev (by decide) _ ?_))

theorem State.biasMask_free {P : State → Prop} (h : Free P [.dev]) {s : State} (hs : P s) (mask : Nat) :
    P (s.biasMask mask) := by
  unfold State.biasMask
  extract_lets
  repeat' first
    | (with_reducible assumption)
    | (with_reducible refine (h.dev (by decide) _ ?_))

theorem State.stageStep_free {P : State → Prop} (h : Free P [.regs, .mode, .dev, .evq, .lamp, .adc, .feed, .rail, .seq]) {s : State} (hs : P s) :
    P (s.stageStep) := by
  have h1 := h.mono (B := [.regs, .evq, .feed]) (by decide)
  have h2 := h.mono (B := [.regs, .evq, .rail]) (by decide)
  have h3 := h.mono (B := [.regs, .adc]) (by decide)
  have h4 := h.mono (B := [.regs, .dev, .evq, .rail, .seq]) (by decide)
  have h5 := h.mono (B := [.regs, .mode, .dev, .evq, .lamp, .feed, .rail, .seq]) (by decide)
  unfold State.stageStep
  extract_lets
  repeat' first
    | (with_reducible assumption)
    | (with_reducible apply State.feedsOff_free h1)
    | (with_reducible apply State.railsNative_free h2)
    | (with_reducible apply State.samplingStops_free h3)
    | (with_reducible apply State.seqFall_free h4)
    | (with_reducible apply State.wakeRise_free h5)
    | (with_reducible refine Free.ite (fun _ => ?_) (fun _ => ?_))
    | (with_reducible refine (h.dev (by decide) _ ?_))

theorem State.wakeRequest_free {P : State → Prop} (h : Free P Part.all) {s : State} (hs : P s) (bits : Nat) :
    P (s.wakeRequest bits) := by
  have h1 := h.mono (B := [.regs, .evq]) (by decide)
  have h2 := h.mono (B := [.regs, .mode, .dev, .evq, .lamp, .feed, .rail, .seq]) (by decide)
  unfold State.wakeRequest
  extract_lets
  repeat' first
    | (with_reducible assumption)
    | (with_reducible apply State.riseFromCellar_free h)
    | (with_reducible apply State.wakePower_free h1)
    | (with_reducible apply State.wakeRecord_free h1)
    | (with_reducible apply State.wakeRise_free h2)
    | (with_reducible refine Free.ite (fun _ => ?_) (fun _ => ?_))
    | (with_reducible refine (h.dev (by decide) _ ?_))

theorem State.clearStopCauses_free {P : State → Prop} (h : Free P [.regs]) {s : State} (hs : P s) :
    P (s.clearStopCauses) := by
  unfold State.clearStopCauses
  repeat' first
    | (with_reducible assumption)
    | (with_reducible apply State.errW1C_free h)
    | (with_reducible apply State.put_free h)
    | (with_reducible apply State.wr_free h)
    | (with_reducible refine Free.ite (fun _ => ?_) (fun _ => ?_))
    | (with_reducible refine Free.foldl _ (fun _ _ _ => ?_) ?_)

theorem State.resetPin_free {P : State → Prop} (h : Free P Part.all) {s : State} (hs : P s) :
    P (s.resetPin) := by
  have h1 := h.mono (B := [.mem]) (by decide)
  unfold State.resetPin
  extract_lets
  repeat' first
    | (with_reducible assumption)
    | (with_reducible apply State.deviceReset_free h)
    | (with_reducible apply State.recPut_free h1)
    | (with_reducible apply State.riseReset_free h)
    | (with_reducible refine Free.ite (fun _ => ?_) (fun _ => ?_))
    | (with_reducible refine (h.dev (by decide) _ ?_))
    | (with_reducible refine (h.dev_cellar (by decide) (by decide) _ _ ?_))

theorem State.stopRestart_free {P : State → Prop} (h : Free P [.regs, .mode, .dev, .evq, .fault, .lamp, .feed, .rail, .seq]) {s : State} (hs : P s) :
    P (s.stopRestart) := by
  have h1 := h.mono (B := [.regs]) (by decide)
  have h2 := h.mono (B := [.regs, .fault]) (by decide)
  have h3 := h.mono (B := [.regs, .evq]) (by decide)
  have h4 := h.mono (B := [.regs, .mode, .dev, .evq, .lamp, .feed, .rail, .seq]) (by decide)
  unfold State.stopRestart
  extract_lets
  repeat' first
    | (with_reducible assumption)
    | (with_reducible apply State.clearStopCauses_free h1)
    | (with_reducible apply State.err_free h2)
    | (with_reducible apply State.put_free h1)
    | (with_reducible apply State.raise_free h3)
    | (with_reducible apply State.riseAgain_free h4)
    | (with_reducible refine Free.ite (fun _ => ?_) (fun _ => ?_))
    | (with_reducible refine (h.dev (by decide) _ ?_))

end Sys2Proof.Machine
end

