-- ==== Sys2Proof/Laws/StableClock.lean ====
section
/-! SUPPORT. Which parts of the state the operations of Machine/Clock.lean may change: a property that stands whatever becomes of those
parts stands after the operation. -/

namespace Sys2Proof.Machine

theorem State.thaw_free {P : State → Prop} (h : Free P [.cellar]) {s : State} (hs : P s) (m : Nat) :
    P (s.thaw m) := by
  unfold State.thaw
  extract_lets
  repeat' first
    | (with_reducible assumption)
    | (with_reducible refine (h.cellar (by decide) _ ?_))

theorem State.tickHi_free {P : State → Prop} (h : Free P [.cellar]) {s : State} (hs : P s) (m : Nat) :
    P (s.tickHi m).2 := by
  unfold State.tickHi
  repeat' first
    | (with_reducible assumption)
    | (with_reducible apply State.thaw_free h)
    | split

theorem State.tickLo_free {P : State → Prop} (h : Free P [.cellar]) {s : State} (hs : P s) (m : Nat) :
    P (s.tickLo m).2 := by
  unfold State.tickLo
  extract_lets
  repeat' first
    | (with_reducible assumption)
    | split
    | (with_reducible refine (h.cellar (by decide) _ ?_))

theorem State.wdogWindow_free {P : State → Prop} (h : Free P [.wdog]) {s : State} (hs : P s) (first : Bool) :
    P (s.wdogWindow first) := by
  unfold State.wdogWindow
  extract_lets
  repeat' first
    | (with_reducible assumption)
    | (with_reducible refine (h.wdog (by decide) _ ?_))

theorem State.biteRecord_free {P : State → Prop} (h : Free P [.mem]) {s : State} (hs : P s) (cause : Nat) (missing : Nat) (excess : Nat) :
    P (s.biteRecord cause missing excess) := by
  unfold State.biteRecord
  repeat' first
    | (with_reducible assumption)
    | (with_reducible apply State.recBump_free h)
    | (with_reducible apply State.recPut_free h)

theorem State.rtcCmd_free {P : State → Prop} (h : Free P [.cellar]) {s : State} (hs : P s) (v : Nat) :
    P (s.rtcCmd v) := by
  unfold State.rtcCmd
  extract_lets
  repeat' first
    | (with_reducible assumption)
    | (with_reducible refine Free.ite (fun _ => ?_) (fun _ => ?_))
    | (with_reducible refine (h.cellar (by decide) _ ?_))

theorem State.wdogBite_free {P : State → Prop} (h : Free P Part.all) {s : State} (hs : P s) (cause : Nat) (count : Nat) :
    P (s.wdogBite cause count) := by
  have h1 := h.mono (B := [.mem]) (by decide)
  have h2 := h.mono (B := [.fault]) (by decide)
  have h3 := h.mono (B := [.regs]) (by decide)
  have h4 := h.mono (B := [.regs, .evq]) (by decide)
  have h5 := h.mono (B := [.wdog]) (by decide)
  unfold State.wdogBite
  extract_lets
  repeat' first
    | (with_reducible assumption)
    | (with_reducible apply State.biteRecord_free h1)
    | (with_reducible apply State.deviceReset_free h)
    | (with_reducible apply State.pulse_free h2)
    | (with_reducible apply State.put_free h3)
    | (with_reducible apply State.raise_free h4)
    | (with_reducible apply State.recBump_free h1)
    | (with_reducible apply State.wdogWindow_free h5)
    | (with_reducible refine Free.ite (fun _ => ?_) (fun _ => ?_))

theorem State.taskCheckin_free {P : State → Prop} (h : Free P Part.all) {s : State} (hs : P s) (mask : Nat) (count : Nat) :
    P (s.taskCheckin mask count) := by
  unfold State.taskCheckin
  extract_lets
  repeat' first
    | (with_reducible assumption)
    | (with_reducible apply State.wdogBite_free h)
    | (with_reducible refine Free.ite (fun _ => ?_) (fun _ => ?_))
    | (with_reducible refine (h.wdog (by decide) _ ?_))

theorem State.wdogCheckin_free {P : State → Prop} (h : Free P Part.all) {s : State} (hs : P s) (mask : Nat) (count : Nat) :
    P (s.wdogCheckin mask count) := by
  unfold State.wdogCheckin
  repeat' first
    | (with_reducible assumption)
    | (with_reducible apply State.taskCheckin_free h)
    | (with_reducible apply State.wdogBite_free h)
    | (with_reducible refine Free.ite (fun _ => ?_) (fun _ => ?_))

theorem State.wdogService_free {P : State → Prop} (h : Free P Part.all) {s : State} (hs : P s) (v : Nat) (count : Nat) :
    P (s.wdogService v count) := by
  have h1 := h.mono (B := [.regs]) (by decide)
  have h2 := h.mono (B := [.regs, .evq]) (by decide)
  have h3 := h.mono (B := [.wdog]) (by decide)
  unfold State.wdogService
  extract_lets
  repeat' first
    | (with_reducible assumption)
    | (with_reducible apply State.injTake_free h1)
    | (with_reducible apply State.raise_free h2)
    | (with_reducible apply State.wdogBite_free h)
    | (with_reducible apply State.wdogWindow_free h3)
    | (with_reducible refine Free.ite (fun _ => ?_) (fun _ => ?_))
    | (with_reducible refine (h.wdog (by decide) _ ?_))

theorem State.wdogSwitchOn_free {P : State → Prop} (h : Free P [.wdog]) {s : State} (hs : P s) :
    P (s.wdogSwitchOn) := by
  unfold State.wdogSwitchOn
  extract_lets
  repeat' first
    | (with_reducible assumption)
    | (with_reducible apply State.wdogWindow_free h)
    | (with_reducible refine Free.ite (fun _ => ?_) (fun _ => ?_))
    | (with_reducible refine (h.wdog (by decide) _ ?_))

theorem State.wdogConfig_free {P : State → Prop} (h : Free P [.regs, .fault, .wdog]) {s : State} (hs : P s) (addr : Nat) (v : Word) :
    P (s.wdogConfig addr v) := by
  have h1 := h.mono (B := [.regs, .fault]) (by decide)
  have h2 := h.mono (B := [.wdog]) (by decide)
  have h3 := h.mono (B := [.regs]) (by decide)
  unfold State.wdogConfig
  extract_lets
  repeat' first
    | (with_reducible assumption)
    | (with_reducible apply State.err_free h1)
    | (with_reducible apply State.wdogSwitchOn_free h2)
    | (with_reducible apply State.wr_free h3)
    | (with_reducible refine Free.ite (fun _ => ?_) (fun _ => ?_))

theorem State.freezeTimeout_free {P : State → Prop} (h : Free P [.regs, .evq, .cellar]) {s : State} (hs : P s) (m : Nat) :
    P (s.freezeTimeout m) := by
  have h1 := h.mono (B := [.regs, .evq]) (by decide)
  have h2 := h.mono (B := [.cellar]) (by decide)
  unfold State.freezeTimeout
  repeat' first
    | (with_reducible assumption)
    | (with_reducible apply State.raise_free h1)
    | (with_reducible apply State.thaw_free h2)
    | split

theorem State.rtcSource_free {P : State → Prop} (h : Free P [.regs, .cellar]) {s : State} (hs : P s) (b : Bool) :
    P (s.rtcSource b) := by
  have h1 := h.mono (B := [.regs]) (by decide)
  unfold State.rtcSource
  extract_lets
  repeat' first
    | (with_reducible assumption)
    | (with_reducible apply State.put_free h1)
    | (with_reducible refine (h.cellar (by decide) _ ?_))

theorem State.crystalStop_free {P : State → Prop} (h : Free P [.regs, .fault, .cellar]) {s : State} (hs : P s) (inj : Bool) :
    P (s.crystalStop inj) := by
  have h1 := h.mono (B := [.regs, .fault]) (by decide)
  have h2 := h.mono (B := [.regs, .cellar]) (by decide)
  unfold State.crystalStop
  repeat' first
    | (with_reducible assumption)
    | (with_reducible apply State.errI_free h1)
    | (with_reducible apply State.rtcSource_free h2)
    | (with_reducible refine Free.ite (fun _ => ?_) (fun _ => ?_))

theorem State.rtcSetLoad_free {P : State → Prop} (h : Free P [.regs, .evq, .cellar]) {s : State} (hs : P s) :
    P (s.rtcSetLoad) := by
  have h1 := h.mono (B := [.regs, .evq]) (by decide)
  unfold State.rtcSetLoad
  extract_lets
  repeat' first
    | (with_reducible assumption)
    | (with_reducible apply State.raise_free h1)
    | split
    | (with_reducible refine (h.cellar (by decide) _ ?_))

theorem State.wdogWarn_free {P : State → Prop} (h : Free P [.regs, .evq, .wdog]) {s : State} (hs : P s) :
    P (s.wdogWarn) := by
  have h1 := h.mono (B := [.regs, .evq]) (by decide)
  unfold State.wdogWarn
  extract_lets
  repeat' first
    | (with_reducible assumption)
    | (with_reducible apply State.raise_free h1)
    | (with_reducible refine Free.ite (fun _ => ?_) (fun _ => ?_))
    | (with_reducible refine (h.wdog (by decide) _ ?_))

theorem State.cellarClockFail_free {P : State → Prop} (h : Free P Part.all) {s : State} (hs : P s) (inj : Bool) :
    P (s.cellarClockFail inj) := by
  have h1 := h.mono (B := [.regs, .fault]) (by decide)
  unfold State.cellarClockFail
  repeat' first
    | (with_reducible assumption)
    | (with_reducible apply State.errI_free h1)
    | (with_reducible apply State.wdogBite_free h)
    | (with_reducible refine Free.ite (fun _ => ?_) (fun _ => ?_))

theorem State.cellarEdge_free {P : State → Prop} (h : Free P Part.all) {s : State} (hs : P s) :
    P (s.cellarEdge) := by
  have h1 := h.mono (B := [.regs]) (by decide)
  unfold State.cellarEdge
  repeat' first
    | (with_reducible assumption)
    | (with_reducible apply State.cellarClockFail_free h)
    | (with_reducible apply State.injTake_free h1)
    | (with_reducible refine Free.ite (fun _ => ?_) (fun _ => ?_))

theorem State.almFire_free {P : State → Prop} (h : Free P Part.all) {s : State} (hs : P s) (k : Nat) :
    P (s.almFire k) := by
  have h1 := h.mono (B := [.regs]) (by decide)
  have h2 := h.mono (B := [.regs, .evq]) (by decide)
  unfold State.almFire
  extract_lets
  repeat' first
    | (with_reducible assumption)
    | (with_reducible apply State.put_free h1)
    | (with_reducible apply State.pwronSet_free h2)
    | (with_reducible apply State.raise_free h2)
    | (with_reducible apply State.wakeRequest_free h)
    | (with_reducible apply State.wr_free h1)
    | (with_reducible refine Free.ite (fun _ => ?_) (fun _ => ?_))

theorem State.crystalReturn_free {P : State → Prop} (h : Free P [.regs, .evq, .cellar]) {s : State} (hs : P s) :
    P (s.crystalReturn) := by
  have h1 := h.mono (B := [.regs, .evq]) (by decide)
  have h2 := h.mono (B := [.regs, .cellar]) (by decide)
  unfold State.crystalReturn
  repeat' first
    | (with_reducible assumption)
    | (with_reducible apply State.raise_free h1)
    | (with_reducible apply State.rtcSource_free h2)
    | (with_reducible refine Free.ite (fun _ => ?_) (fun _ => ?_))

theorem State.stopAge_free {P : State → Prop} (h : Free P [.regs, .dev]) {s : State} (hs : P s) :
    P (s.stopAge) := by
  have h1 := h.mono (B := [.regs]) (by decide)
  unfold State.stopAge
  extract_lets
  repeat' first
    | (with_reducible assumption)
    | (with_reducible apply State.put_free h1)
    | (with_reducible refine Free.ite (fun _ => ?_) (fun _ => ?_))
    | (with_reducible refine (h.dev (by decide) _ ?_))

theorem State.rtcTick_free {P : State → Prop} (h : Free P Part.all) {s : State} (hs : P s) (padHigh : Bool) :
    P (s.rtcTick padHigh) := by
  have h1 := h.mono (B := [.regs, .fault, .cellar]) (by decide)
  have h2 := h.mono (B := [.regs]) (by decide)
  have h3 := h.mono (B := [.regs, .dev]) (by decide)
  unfold State.rtcTick
  extract_lets
  repeat' first
    | (with_reducible assumption)
    | (with_reducible apply State.almFire_free h)
    | (with_reducible apply State.crystalStop_free h1)
    | (with_reducible apply State.injTake_free h2)
    | (with_reducible apply State.pwronCheck_free h1)
    | (with_reducible apply State.stopAge_free h3)
    | (with_reducible refine Free.ite (fun _ => ?_) (fun _ => ?_))
    | (with_reducible refine Free.foldl _ (fun _ _ _ => ?_) ?_)
    | (with_reducible refine (h.cellar (by decide) _ ?_))

theorem State.wdogLate_free {P : State → Prop} (h : Free P Part.all) {s : State} (hs : P s) :
    P (s.wdogLate) := by
  unfold State.wdogLate
  repeat' first
    | (with_reducible assumption)
    | (with_reducible apply State.wdogBite_free h)
    | (with_reducible refine Free.ite (fun _ => ?_) (fun _ => ?_))

theorem State.mutualFail_free {P : State → Prop} (h : Free P Part.all) {s : State} (hs : P s) (guardRc : Bool) :
    P (s.mutualFail guardRc) := by
  have h1 := h.mono (B := [.mem]) (by decide)
  unfold State.mutualFail
  repeat' first
    | (with_reducible assumption)
    | (with_reducible apply State.biteRecord_free h1)
    | (with_reducible apply State.cellarClockFail_free h)
    | (with_reducible apply State.deviceReset_free h)
    | (with_reducible apply State.recBump_free h1)
    | (with_reducible refine Free.ite (fun _ => ?_) (fun _ => ?_))

end Sys2Proof.Machine
end

