-- ==== Sys2Proof/Laws/StableEvq.lean ====
section
/-! SUPPORT. Which parts of the state the operations of Machine/Evq.lean may change: a property that stands whatever becomes of those
parts stands after the operation. -/

namespace Sys2Proof.Machine

theorem State.setLine_free {P : State → Prop} (h : Free P [.regs, .evq]) {s : State} (hs : P s) (b : Bool) (x : IrqLine) :
    P (s.setLine b x) := by
  have h1 := h.mono (B := [.regs]) (by decide)
  unfold State.setLine
  extract_lets
  repeat' first
    | (with_reducible assumption)
    | (with_reducible apply State.put_free h1)
    | (with_reducible refine Free.ite (fun _ => ?_) (fun _ => ?_))
    | (with_reducible refine (h.evq (by decide) _ ?_))

theorem State.hostAccess_free {P : State → Prop} (h : Free P [.regs, .evq]) {s : State} (hs : P s) (b : Bool) :
    P (s.hostAccess b) := by
  unfold State.hostAccess
  extract_lets
  repeat' first
    | (with_reducible assumption)
    | (with_reducible apply State.setLine_free h)

theorem State.srcRead_free {P : State → Prop} (h : Free P [.regs, .evq, .fault]) {s : State} (hs : P s) :
    P (s.srcRead) := by
  have h1 := h.mono (B := [.regs, .fault]) (by decide)
  have h2 := h.mono (B := [.regs]) (by decide)
  unfold State.srcRead
  extract_lets
  repeat' first
    | (with_reducible assumption)
    | (with_reducible apply State.errI_free h1)
    | (with_reducible apply State.injTake_free h2)
    | (with_reducible refine Free.ite (fun _ => ?_) (fun _ => ?_))
    | (with_reducible refine (h.evq (by decide) _ ?_))

theorem State.irqSync_free {P : State → Prop} (h : Free P [.regs, .evq]) {s : State} (hs : P s) (b : Bool) :
    P (s.irqSync b) := by
  have h1 := h.mono (B := [.regs]) (by decide)
  unfold State.irqSync
  extract_lets
  repeat' first
    | (with_reducible assumption)
    | (with_reducible apply State.put_free h1)
    | (with_reducible apply State.setLine_free h)
    | (with_reducible refine Free.ite (fun _ => ?_) (fun _ => ?_))

theorem State.evqFuncReset_free {P : State → Prop} (h : Free P [.regs, .evq]) {s : State} (hs : P s) :
    P (s.evqFuncReset) := by
  have h1 := h.mono (B := [.regs]) (by decide)
  unfold State.evqFuncReset
  extract_lets
  repeat' first
    | (with_reducible assumption)
    | (with_reducible apply State.irqSync_free h)
    | (with_reducible apply State.put_free h1)
    | (with_reducible refine Free.foldl _ (fun _ _ _ => ?_) ?_)
    | (with_reducible refine (h.evq (by decide) _ ?_))

theorem State.evqRelease_free {P : State → Prop} (h : Free P [.regs, .evq]) {s : State} (hs : P s) :
    P (s.evqRelease) := by
  have h1 := h.mono (B := [.regs]) (by decide)
  unfold State.evqRelease
  extract_lets
  repeat' first
    | (with_reducible assumption)
    | (with_reducible apply State.put_free h1)
    | (with_reducible apply State.raiseIf_free h)
    | (with_reducible refine (h.evq (by decide) _ ?_))

theorem State.srcIdle_free {P : State → Prop} (h : Free P [.evq]) {s : State} (hs : P s) (src : Nat) :
    P (s.srcIdle src) := by
  unfold State.srcIdle
  extract_lets
  repeat' first
    | (with_reducible assumption)
    | (with_reducible refine (h.evq (by decide) _ ?_))

theorem State.evqRecord_free {P : State → Prop} (h : Free P [.regs, .mem, .evq]) {s : State} (hs : P s) (f : Firing) (refire : Bool) :
    P (s.evqRecord f refire) := by
  have h1 := h.mono (B := [.regs, .evq]) (by decide)
  have h2 := h.mono (B := [.regs]) (by decide)
  have h3 := h.mono (B := [.evq]) (by decide)
  have h4 := h.mono (B := [.mem]) (by decide)
  unfold State.evqRecord
  extract_lets
  repeat' first
    | (with_reducible assumption)
    | (with_reducible apply State.irqSync_free h1)
    | (with_reducible apply State.put_free h2)
    | (with_reducible apply State.raise_free h1)
    | (with_reducible apply State.setLine_free h1)
    | (with_reducible apply State.srcIdle_free h3)
    | (with_reducible apply State.store_free h4)
    | (with_reducible refine Free.ite (fun _ => ?_) (fun _ => ?_))

theorem State.evqDone_free {P : State → Prop} (h : Free P [.regs, .mem, .evq, .fault]) {s : State} (hs : P s) (src : Nat) :
    P (s.evqDone src) := by
  have h1 := h.mono (B := [.regs, .mem, .evq]) (by decide)
  have h2 := h.mono (B := [.regs, .evq]) (by decide)
  have h3 := h.mono (B := [.evq]) (by decide)
  have h4 := h.mono (B := [.regs, .evq, .fault]) (by decide)
  unfold State.evqDone
  extract_lets
  repeat' first
    | (with_reducible assumption)
    | (with_reducible apply State.evqRecord_free h1)
    | (with_reducible apply State.raise_free h2)
    | (with_reducible apply State.srcIdle_free h3)
    | (with_reducible apply State.srcRead_free h4)
    | (with_reducible refine Free.ite (fun _ => ?_) (fun _ => ?_))
    | split
    | (with_reducible refine (h.evq (by decide) _ ?_))

theorem State.rptrWrite_free {P : State → Prop} (h : Free P [.regs, .evq]) {s : State} (hs : P s) (b : Bool) (v : Nat) :
    P (s.rptrWrite b v) := by
  have h1 := h.mono (B := [.regs]) (by decide)
  unfold State.rptrWrite
  extract_lets
  repeat' first
    | (with_reducible assumption)
    | (with_reducible apply State.irqSync_free h)
    | (with_reducible apply State.put_free h1)
    | (with_reducible apply State.raise_free h)
    | (with_reducible apply State.setLine_free h)
    | (with_reducible refine Free.ite (fun _ => ?_) (fun _ => ?_))

theorem State.evqEmpty_free {P : State → Prop} (h : Free P [.regs, .evq]) {s : State} (hs : P s) :
    P (s.evqEmpty) := by
  have h1 := h.mono (B := [.regs]) (by decide)
  unfold State.evqEmpty
  extract_lets
  repeat' first
    | (with_reducible assumption)
    | (with_reducible apply State.irqSync_free h)
    | (with_reducible apply State.put_free h1)
    | (with_reducible apply State.setLine_free h)
    | (with_reducible refine Free.foldl _ (fun _ _ _ => ?_) ?_)
    | (with_reducible refine (h.evq (by decide) _ ?_))

theorem State.evqFire_free {P : State → Prop} (h : Free P [.regs, .mem, .evq, .fault]) {s : State} (hs : P s) (f : Firing) :
    P (s.evqFire f) := by
  have h1 := h.mono (B := [.regs, .mem, .evq]) (by decide)
  have h2 := h.mono (B := [.regs, .evq, .fault]) (by decide)
  unfold State.evqFire
  extract_lets
  repeat' first
    | (with_reducible assumption)
    | (with_reducible apply State.evqRecord_free h1)
    | (with_reducible apply State.srcRead_free h2)
    | (with_reducible refine Free.ite (fun _ => ?_) (fun _ => ?_))
    | split
    | (with_reducible refine (h.evq (by decide) _ ?_))

theorem State.eventRecord_free {P : State → Prop} (h : Free P [.regs, .mem, .evq, .fault]) {s : State} (hs : P s) :
    P (s.eventRecord) := by
  unfold State.eventRecord
  extract_lets
  repeat' first
    | (with_reducible assumption)
    | (with_reducible apply State.evqFire_free h)
    | (with_reducible refine Free.ite (fun _ => ?_) (fun _ => ?_))
    | split
    | (with_reducible refine (h.evq (by decide) _ ?_))

theorem State.hostNotify_free {P : State → Prop} (h : Free P [.regs, .answer, .evq]) {s : State} (hs : P s) (b : Bool) (ok : Bool) :
    P (s.hostNotify b ok) := by
  have h1 := h.mono (B := [.regs, .evq]) (by decide)
  have h2 := h.mono (B := [.answer]) (by decide)
  unfold State.hostNotify
  extract_lets
  repeat' first
    | (with_reducible assumption)
    | (with_reducible apply State.raise_free h1)
    | (with_reducible apply State.reply_free h2)
    | (with_reducible apply State.setLine_free h1)
    | (with_reducible refine Free.ite (fun _ => ?_) (fun _ => ?_))

theorem State.modExpire_free {P : State → Prop} (h : Free P [.regs, .evq]) {s : State} (hs : P s) (b : Bool) :
    P (s.modExpire b) := by
  unfold State.modExpire
  extract_lets
  repeat' first
    | (with_reducible assumption)
    | (with_reducible apply State.irqSync_free h)
    | (with_reducible apply State.setLine_free h)

theorem State.hostIdle_free {P : State → Prop} (h : Free P [.regs, .evq]) {s : State} (hs : P s) (b : Bool) :
    P (s.hostIdle b) := by
  unfold State.hostIdle
  extract_lets
  repeat' first
    | (with_reducible assumption)
    | (with_reducible apply State.setLine_free h)
    | (with_reducible refine Free.ite (fun _ => ?_) (fun _ => ?_))

end Sys2Proof.Machine
end

