-- ==== Sys2Proof/Laws/StableRing.lean ====
section
/-! SUPPORT. Which parts of the state the operations of Machine/Ring.lean may change: a property that stands whatever becomes of those
parts stands after the operation. -/

namespace Sys2Proof.Machine

theorem State.ringSync_free {P : State → Prop} (h : Free P [.regs]) {s : State} (hs : P s) :
    P (s.ringSync) := by
  unfold State.ringSync
  extract_lets
  repeat' first
    | (with_reducible assumption)
    | (with_reducible apply State.put_free h)
    | (with_reducible refine Free.ite (fun _ => ?_) (fun _ => ?_))

theorem State.ringRise_free {P : State → Prop} (h : Free P [.regs, .ring]) {s : State} (hs : P s) (ext : Bool) :
    P (s.ringRise ext) := by
  have h1 := h.mono (B := [.regs]) (by decide)
  unfold State.ringRise
  extract_lets
  repeat' first
    | (with_reducible assumption)
    | (with_reducible apply State.put_free h1)
    | (with_reducible apply State.ringSync_free h1)
    | (with_reducible apply State.wr_free h1)
    | (with_reducible refine (h.ring (by decide) _ ?_))

theorem State.emit_free {P : State → Prop} (h : Free P [.ring]) {s : State} (hs : P s) (w : Bool) (x : RingItem) :
    P (s.emit w x) := by
  unfold State.emit
  extract_lets
  repeat' first
    | (with_reducible assumption)
    | (with_reducible refine (h.ring (by decide) _ ?_))

theorem State.ringReport_free {P : State → Prop} (h : Free P [.mem]) {s : State} (hs : P s) (dst : Option Nat) (v : Nat) :
    P (s.ringReport dst v) := by
  unfold State.ringReport
  repeat' first
    | (with_reducible assumption)
    | (with_reducible apply State.store_free h)
    | split

theorem State.ringSend_free {P : State → Prop} (h : Free P [.mem, .ring]) {s : State} (hs : P s) (x : RingTx) :
    P (s.ringSend x) := by
  have h1 := h.mono (B := [.ring]) (by decide)
  have h2 := h.mono (B := [.mem]) (by decide)
  unfold State.ringSend
  extract_lets
  repeat' first
    | (with_reducible assumption)
    | (with_reducible apply State.emit_free h1)
    | (with_reducible apply State.ringReport_free h2)
    | (with_reducible refine Free.ite (fun _ => ?_) (fun _ => ?_))
    | (with_reducible refine Free.foldl _ (fun _ _ _ => ?_) ?_)
    | (with_reducible refine (h.ring (by decide) _ ?_))

theorem State.emitSet_free {P : State → Prop} (h : Free P [.ring]) {s : State} (hs : P s) (w : Bool) (o : Nat) (b1 : Nat) (b2 : Nat) (b3 : Nat) :
    P (s.emitSet w o b1 b2 b3) := by
  unfold State.emitSet
  repeat' first
    | (with_reducible assumption)
    | (with_reducible apply State.emit_free h)

theorem State.setRmt_free {P : State → Prop} (h : Free P [.ring]) {s : State} (hs : P s) (m : Nat) (c : RmtCopy) :
    P (s.setRmt m c) := by
  unfold State.setRmt
  extract_lets
  repeat' first
    | (with_reducible assumption)
    | (with_reducible refine (h.ring (by decide) _ ?_))

theorem State.readDone_free {P : State → Prop} (h : Free P [.mem, .ring]) {s : State} (hs : P s) (r : RingRead) (outcome : Nat) (words : List Nat) :
    P (s.readDone r outcome words) := by
  have h1 := h.mono (B := [.ring]) (by decide)
  have h2 := h.mono (B := [.mem]) (by decide)
  unfold State.readDone
  extract_lets
  repeat' first
    | (with_reducible assumption)
    | (with_reducible apply State.setRmt_free h1)
    | (with_reducible apply State.store_free h2)
    | (with_reducible refine Free.ite (fun _ => ?_) (fun _ => ?_))
    | (with_reducible refine Free.foldl_fst _ (fun _ _ _ => ?_) ?_)
    | split
    | (with_reducible refine (h.ring (by decide) _ ?_))

theorem State.ringFuncReset_free {P : State → Prop} (h : Free P [.mem, .ring]) {s : State} (hs : P s) :
    P (s.ringFuncReset) := by
  unfold State.ringFuncReset
  extract_lets
  repeat' first
    | (with_reducible assumption)
    | (with_reducible apply State.readDone_free h)
    | (with_reducible refine Free.foldl _ (fun _ _ _ => ?_) ?_)
    | (with_reducible refine (h.ring (by decide) _ ?_))

theorem State.ringQueue_free {P : State → Prop} (h : Free P [.regs, .evq, .ring]) {s : State} (hs : P s) (x : RingTx) :
    P (s.ringQueue x) := by
  have h1 := h.mono (B := [.regs, .evq]) (by decide)
  unfold State.ringQueue
  extract_lets
  repeat' first
    | (with_reducible assumption)
    | (with_reducible apply State.raise_free h1)
    | (with_reducible refine Free.ite (fun _ => ?_) (fun _ => ?_))
    | (with_reducible refine (h.ring (by decide) _ ?_))

theorem State.enumFrames_free {P : State → Prop} (h : Free P [.regs, .evq, .ring]) {s : State} (hs : P s) (step : Nat) :
    P (s.enumFrames step) := by
  unfold State.enumFrames
  extract_lets
  repeat' first
    | (with_reducible assumption)
    | (with_reducible apply State.ringQueue_free h)
    | (with_reducible refine Free.foldl _ (fun _ _ _ => ?_) ?_)
    | (with_reducible refine (h.ring (by decide) _ ?_))

theorem State.setProbe_free {P : State → Prop} (h : Free P [.ring]) {s : State} (hs : P s) (w : Bool) (p : ProbeS) :
    P (s.setProbe w p) := by
  unfold State.setProbe
  extract_lets
  repeat' first
    | (with_reducible assumption)
    | (with_reducible refine Free.ite (fun _ => ?_) (fun _ => ?_))
    | (with_reducible refine (h.ring (by decide) _ ?_))

theorem State.probeSend_free {P : State → Prop} (h : Free P [.ring]) {s : State} (hs : P s) (w : Bool) :
    P (s.probeSend w) := by
  unfold State.probeSend
  extract_lets
  repeat' first
    | (with_reducible assumption)
    | (with_reducible apply State.emitSet_free h)
    | (with_reducible apply State.setProbe_free h)
    | (with_reducible refine Free.ite (fun _ => ?_) (fun _ => ?_))

theorem State.measureDelays_free {P : State → Prop} (h : Free P [.ring]) {s : State} (hs : P s) :
    P (s.measureDelays) := by
  unfold State.measureDelays
  repeat' first
    | (with_reducible assumption)
    | (with_reducible apply State.probeSend_free h)
    | (with_reducible apply State.setProbe_free h)
    | (with_reducible refine Free.foldl _ (fun _ _ _ => ?_) ?_)

theorem State.ringEnumEnd_free {P : State → Prop} (h : Free P [.regs, .evq, .fault, .ring]) {s : State} (hs : P s) (code : Nat) (n : Nat) :
    P (s.ringEnumEnd code n) := by
  have h1 := h.mono (B := [.regs, .fault]) (by decide)
  have h2 := h.mono (B := [.regs, .evq]) (by decide)
  have h3 := h.mono (B := [.regs]) (by decide)
  unfold State.ringEnumEnd
  extract_lets
  repeat' first
    | (with_reducible assumption)
    | (with_reducible apply State.err_free h1)
    | (with_reducible apply State.longEnd_free h2)
    | (with_reducible apply State.put_free h3)
    | (with_reducible apply State.raise_free h2)
    | (with_reducible apply State.ringSync_free h3)
    | (with_reducible refine Free.ite (fun _ => ?_) (fun _ => ?_))
    | (with_reducible refine (h.ring (by decide) _ ?_))

theorem State.ringEnumGo_free {P : State → Prop} (h : Free P [.regs, .evq, .fault, .ring]) {x1 : State} (hs : P x1) (x0 : Nat) (x2 : Nat) :
    P (State.ringEnumGo x0 x1 x2) := by
  have h1 := h.mono (B := [.regs]) (by decide)
  have h2 := h.mono (B := [.ring]) (by decide)
  have h3 := h.mono (B := [.regs, .evq, .ring]) (by decide)
  induction x0 generalizing x1 x2 with
  | zero => exact hs
  | succ k ih =>
    unfold State.ringEnumGo
    extract_lets z s0 s1 code s2
    have e0 : P s0 := h.ring (by decide) _ hs
    clear_value s0
    have e1 : P s1 := Free.ite (fun _ => State.put_free h1 (State.put_free h1 e0 _ _) _ _) (fun _ => e0)
    clear_value s1
    have e2 : P s2 := Free.ite (fun _ => State.measureDelays_free h2 e1) (fun _ => e1)
    clear_value s2
    repeat' first
      | exact e2
      | (with_reducible refine Free.ite (fun _ => ?_) (fun _ => ?_))
      | exact State.ringEnumEnd_free h e1 _ _
      | exact State.enumFrames_free h3 e2 _
      | exact ih e2 _

theorem State.ringEnumReady_free {P : State → Prop} (h : Free P [.regs, .evq, .fault, .ring]) {s : State} (hs : P s) :
    P (s.ringEnumReady) := by
  unfold State.ringEnumReady
  extract_lets
  repeat' first
    | (with_reducible assumption)
    | (with_reducible apply State.ringEnumGo_free h)
    | (with_reducible refine Free.ite (fun _ => ?_) (fun _ => ?_))
    | (with_reducible refine (h.ring (by decide) _ ?_))

theorem State.ringEnumerate_free {P : State → Prop} (h : Free P [.regs, .evq, .fault, .ring]) {s : State} (hs : P s) :
    P (s.ringEnumerate) := by
  have h1 := h.mono (B := [.regs]) (by decide)
  unfold State.ringEnumerate
  extract_lets
  repeat' first
    | (with_reducible assumption)
    | (with_reducible apply State.longStart_free h1)
    | (with_reducible apply State.put_free h1)
    | (with_reducible apply State.ringEnumReady_free h)
    | (with_reducible apply State.ringSync_free h1)
    | (with_reducible refine Free.ite (fun _ => ?_) (fun _ => ?_))
    | (with_reducible refine (h.ring (by decide) _ ?_))

theorem State.wakeBurst_free {P : State → Prop} (h : Free P [.ring]) {s : State} (hs : P s) :
    P (s.wakeBurst) := by
  unfold State.wakeBurst
  repeat' first
    | (with_reducible assumption)
    | (with_reducible apply State.emit_free h)
    | (with_reducible refine Free.ite (fun _ => ?_) (fun _ => ?_))
    | (with_reducible refine Free.foldl _ (fun _ _ _ => ?_) ?_)

theorem State.snuffOut_free {P : State → Prop} (h : Free P [.ring]) {s : State} (hs : P s) :
    P (s.snuffOut) := by
  unfold State.snuffOut
  repeat' first
    | (with_reducible assumption)
    | (with_reducible apply State.emitSet_free h)
    | (with_reducible refine Free.foldl _ (fun _ _ _ => ?_) ?_)

theorem State.snuffSend_free {P : State → Prop} (h : Free P [.regs, .evq, .ring]) {s : State} (hs : P s) :
    P (s.snuffSend) := by
  have h1 := h.mono (B := [.regs, .evq]) (by decide)
  have h2 := h.mono (B := [.ring]) (by decide)
  unfold State.snuffSend
  extract_lets
  repeat' first
    | (with_reducible assumption)
    | (with_reducible apply State.raise_free h1)
    | (with_reducible apply State.snuffOut_free h2)
    | (with_reducible refine Free.ite (fun _ => ?_) (fun _ => ?_))
    | (with_reducible refine (h.ring (by decide) _ ?_))

theorem State.ringCmd_free {P : State → Prop} (h : Free P [.regs, .evq, .fault, .ring]) {s : State} (hs : P s) (v : Nat) :
    P (s.ringCmd v) := by
  have h1 := h.mono (B := [.ring]) (by decide)
  have h2 := h.mono (B := [.regs, .evq, .ring]) (by decide)
  unfold State.ringCmd
  extract_lets
  repeat' first
    | (with_reducible assumption)
    | (with_reducible apply State.measureDelays_free h1)
    | (with_reducible apply State.ringEnumerate_free h)
    | (with_reducible apply State.snuffSend_free h2)
    | (with_reducible apply State.wakeBurst_free h1)
    | (with_reducible refine Free.ite (fun _ => ?_) (fun _ => ?_))
    | split
    | (with_reducible refine (h.ring (by decide) _ ?_))

theorem State.summaryDeadline_free {P : State → Prop} (h : Free P [.regs, .evq]) {s : State} (hs : P s) :
    P (s.summaryDeadline) := by
  have h1 := h.mono (B := [.regs]) (by decide)
  unfold State.summaryDeadline
  extract_lets
  repeat' first
    | (with_reducible assumption)
    | (with_reducible apply State.put_free h1)
    | (with_reducible apply State.raise_free h)
    | (with_reducible refine Free.ite (fun _ => ?_) (fun _ => ?_))

theorem State.enumBack_free {P : State → Prop} (h : Free P [.regs, .evq, .fault, .ring]) {s : State} (hs : P s) (w : Bool) (f : RingFrame) :
    P (s.enumBack w f) := by
  have h1 := h.mono (B := [.regs, .evq]) (by decide)
  have h2 := h.mono (B := [.regs]) (by decide)
  unfold State.enumBack
  extract_lets
  repeat' first
    | (with_reducible assumption)
    | (with_reducible apply State.raise_free h1)
    | (with_reducible apply State.ringEnumGo_free h)
    | (with_reducible apply State.ringEnumerate_free h)
    | (with_reducible apply State.ringSync_free h2)
    | (with_reducible refine Free.ite (fun _ => ?_) (fun _ => ?_))
    | (with_reducible refine (h.ring (by decide) _ ?_))

theorem State.readBack_free {P : State → Prop} (h : Free P [.mem, .ring]) {s : State} (hs : P s) (f : RingFrame) :
    P (s.readBack f) := by
  unfold State.readBack
  extract_lets
  repeat' first
    | (with_reducible assumption)
    | (with_reducible apply State.readDone_free h)
    | (with_reducible refine Free.ite (fun _ => ?_) (fun _ => ?_))
    | split
    | (with_reducible refine (h.ring (by decide) _ ?_))

theorem State.enumRx_free {P : State → Prop} (h : Free P [.regs, .ring]) {s : State} (hs : P s) (f : RingFrame) :
    P (s.enumRx f).1 := by
  have h1 := h.mono (B := [.ring]) (by decide)
  have h2 := h.mono (B := [.regs]) (by decide)
  unfold State.enumRx
  extract_lets
  repeat' first
    | (with_reducible assumption)
    | (with_reducible apply State.measureDelays_free h1)
    | (with_reducible apply State.put_free h2)
    | (with_reducible apply State.ringSync_free h2)
    | (with_reducible apply State.wr_free h2)
    | (with_reducible refine Free.ite (fun _ => ?_) (fun _ => ?_))
    | split
    | (with_reducible refine (h.ring (by decide) _ ?_))

theorem State.breakAt_free {P : State → Prop} (h : Free P [.regs, .evq, .fault]) {s : State} (hs : P s) (west : Bool) (num : Nat) :
    P (s.breakAt west num) := by
  have h1 := h.mono (B := [.regs, .fault]) (by decide)
  have h2 := h.mono (B := [.regs]) (by decide)
  have h3 := h.mono (B := [.regs, .evq]) (by decide)
  unfold State.breakAt
  extract_lets
  repeat' first
    | (with_reducible assumption)
    | (with_reducible apply State.err_free h1)
    | (with_reducible apply State.put_free h2)
    | (with_reducible apply State.raise_free h3)
    | (with_reducible apply State.ringSync_free h2)

theorem State.setLocked_free {P : State → Prop} (h : Free P [.regs, .evq]) {s : State} (hs : P s) (b : Bool) :
    P (s.setLocked b) := by
  have h1 := h.mono (B := [.regs]) (by decide)
  unfold State.setLocked
  repeat' first
    | (with_reducible assumption)
    | (with_reducible apply State.put_free h1)
    | (with_reducible apply State.raise_free h)
    | (with_reducible refine Free.ite (fun _ => ?_) (fun _ => ?_))

theorem State.servo_free {P : State → Prop} (h : Free P [.regs, .evq, .ring]) {s : State} (hs : P s) (theta : Int) :
    P (s.servo theta) := by
  have h1 := h.mono (B := [.regs]) (by decide)
  have h2 := h.mono (B := [.regs, .evq]) (by decide)
  unfold State.servo
  extract_lets
  repeat' first
    | (with_reducible assumption)
    | (with_reducible apply State.putI_free h1)
    | (with_reducible apply State.setLocked_free h2)
    | (with_reducible refine Free.ite (fun _ => ?_) (fun _ => ?_))
    | (with_reducible refine (h.ring (by decide) _ ?_))

theorem State.epochTake_free {P : State → Prop} (h : Free P [.regs, .evq, .fault, .lamp, .ring]) {s : State} (hs : P s) (w : Bool) (e : Nat) (corr : Nat) (n : Nat) (ns : Nat) :
    P (s.epochTake w e corr n ns) := by
  have h1 := h.mono (B := [.regs, .fault]) (by decide)
  have h2 := h.mono (B := [.regs]) (by decide)
  have h3 := h.mono (B := [.regs, .evq]) (by decide)
  have h4 := h.mono (B := [.regs, .evq, .ring]) (by decide)
  unfold State.epochTake
  extract_lets
  repeat' first
    | (with_reducible assumption)
    | (with_reducible apply State.err_free h1)
    | (with_reducible apply State.put_free h2)
    | (with_reducible apply State.putI_free h2)
    | (with_reducible apply State.raise_free h3)
    | (with_reducible apply State.servo_free h4)
    | (with_reducible refine Free.ite (fun _ => ?_) (fun _ => ?_))
    | (with_reducible refine (h.lamp (by decide) _ ?_))
    | (with_reducible refine (h.ring (by decide) _ ?_))

theorem State.respRx_free {P : State → Prop} (h : Free P [.regs, .mem, .evq, .ring]) {s : State} (hs : P s) (f : RingFrame) :
    P (s.respRx f) := by
  have h1 := h.mono (B := [.regs]) (by decide)
  have h2 := h.mono (B := [.regs, .evq]) (by decide)
  have h3 := h.mono (B := [.mem, .ring]) (by decide)
  unfold State.respRx
  repeat' first
    | (with_reducible assumption)
    | (with_reducible apply State.put_free h1)
    | (with_reducible apply State.raise_free h2)
    | (with_reducible apply State.readDone_free h3)
    | (with_reducible refine Free.ite (fun _ => ?_) (fun _ => ?_))
    | split

theorem State.summaryStore_free {P : State → Prop} (h : Free P [.mem]) {s : State} (hs : P s) (d : Nat) (words : List Nat) :
    P (s.summaryStore d words) := by
  unfold State.summaryStore
  repeat' first
    | (with_reducible assumption)
    | (with_reducible apply State.store_free h)
    | (with_reducible refine Free.foldl_fst _ (fun _ _ _ => ?_) ?_)

theorem State.pilotSend_free {P : State → Prop} (h : Free P [.ring]) {s : State} (hs : P s) :
    P (s.pilotSend) := by
  unfold State.pilotSend
  extract_lets
  repeat' first
    | (with_reducible assumption)
    | (with_reducible apply State.emitSet_free h)
    | (with_reducible refine Free.ite (fun _ => ?_) (fun _ => ?_))
    | (with_reducible refine Free.foldl _ (fun _ _ _ => ?_) ?_)
    | (with_reducible refine (h.ring (by decide) _ ?_))

theorem State.postWrite_free {P : State → Prop} (h : Free P [.regs, .evq, .ring]) {s : State} (hs : P s) (m : Nat) (dst : Option Nat) (addr : Nat) (words : List Nat) (result : Option Nat) :
    P (s.postWrite m dst addr words result) := by
  unfold State.postWrite
  extract_lets
  repeat' first
    | (with_reducible assumption)
    | (with_reducible apply State.ringQueue_free h)

theorem State.postRead_free {P : State → Prop} (h : Free P [.regs, .evq, .ring]) {s : State} (hs : P s) (m : Nat) (dst : Nat) (addr : Nat) (n : Nat) (result : Option Nat) :
    P (s.postRead m dst addr n result) := by
  have h1 := h.mono (B := [.ring]) (by decide)
  unfold State.postRead
  extract_lets
  repeat' first
    | (with_reducible assumption)
    | (with_reducible apply State.ringQueue_free h)
    | (with_reducible apply State.setRmt_free h1)
    | (with_reducible refine Free.ite (fun _ => ?_) (fun _ => ?_))
    | (with_reducible refine (h.ring (by decide) _ ?_))

theorem State.portDown_free {P : State → Prop} (h : Free P [.regs, .evq, .fault, .ring]) {s : State} (hs : P s) (w : Bool) :
    P (s.portDown w) := by
  have h1 := h.mono (B := [.regs, .evq, .fault]) (by decide)
  have h2 := h.mono (B := [.regs]) (by decide)
  have h3 := h.mono (B := [.regs, .evq, .ring]) (by decide)
  unfold State.portDown
  extract_lets
  repeat' first
    | (with_reducible assumption)
    | (with_reducible apply State.breakAt_free h1)
    | (with_reducible apply State.put_free h2)
    | (with_reducible apply State.ringQueue_free h3)
    | (with_reducible refine Free.ite (fun _ => ?_) (fun _ => ?_))

theorem State.probeBack_free {P : State → Prop} (h : Free P [.regs, .ring]) {s : State} (hs : P s) (w : Bool) (rt : Nat) (turn : Nat) :
    P (s.probeBack w rt turn) := by
  have h1 := h.mono (B := [.ring]) (by decide)
  have h2 := h.mono (B := [.regs]) (by decide)
  unfold State.probeBack
  extract_lets
  repeat' first
    | (with_reducible assumption)
    | (with_reducible apply State.probeSend_free h1)
    | (with_reducible apply State.put_free h2)
    | (with_reducible apply State.setProbe_free h1)
    | (with_reducible refine Free.ite (fun _ => ?_) (fun _ => ?_))

theorem State.setHeadLost_free {P : State → Prop} (h : Free P [.regs, .evq]) {s : State} (hs : P s) (b : Bool) :
    P (s.setHeadLost b) := by
  have h1 := h.mono (B := [.regs]) (by decide)
  unfold State.setHeadLost
  repeat' first
    | (with_reducible assumption)
    | (with_reducible apply State.level_free h)
    | (with_reducible apply State.put_free h1)

theorem State.snuffRx_free {P : State → Prop} (h : Free P [.regs, .fault, .ring]) {s : State} (hs : P s) (origin : Nat) (seq : Nat) :
    P (s.snuffRx origin seq) := by
  have h1 := h.mono (B := [.fault]) (by decide)
  have h2 := h.mono (B := [.regs]) (by decide)
  unfold State.snuffRx
  extract_lets
  repeat' first
    | (with_reducible assumption)
    | (with_reducible apply State.pulse_free h1)
    | (with_reducible apply State.wr_free h2)
    | (with_reducible refine Free.ite (fun _ => ?_) (fun _ => ?_))
    | (with_reducible refine (h.ring (by decide) _ ?_))

theorem State.setRx_free {P : State → Prop} (h : Free P [.regs, .evq, .fault, .ring]) {s : State} (hs : P s) (w : Bool) (otype : Nat) (b1 : Nat) (b2 : Nat) (b3 : Nat) (chk : Nat) (rt : Nat) :
    P (s.setRx w otype b1 b2 b3 chk rt) := by
  have h1 := h.mono (B := [.ring]) (by decide)
  have h2 := h.mono (B := [.regs]) (by decide)
  have h3 := h.mono (B := [.regs, .ring]) (by decide)
  have h4 := h.mono (B := [.regs, .evq]) (by decide)
  have h5 := h.mono (B := [.regs, .fault, .ring]) (by decide)
  unfold State.setRx
  extract_lets
  repeat' first
    | (with_reducible assumption)
    | (with_reducible apply State.emitSet_free h1)
    | (with_reducible apply State.injTake_free h2)
    | (with_reducible apply State.portDown_free h)
    | (with_reducible apply State.probeBack_free h3)
    | (with_reducible apply State.setHeadLost_free h4)
    | (with_reducible apply State.snuffRx_free h5)
    | (with_reducible refine Free.ite (fun _ => ?_) (fun _ => ?_))

theorem State.snuffAgain_free {P : State → Prop} (h : Free P [.ring]) {s : State} (hs : P s) :
    P (s.snuffAgain) := by
  unfold State.snuffAgain
  extract_lets
  repeat' first
    | (with_reducible assumption)
    | (with_reducible apply State.snuffOut_free h)
    | (with_reducible refine Free.ite (fun _ => ?_) (fun _ => ?_))
    | (with_reducible refine (h.ring (by decide) _ ?_))

theorem State.epochBoundary_free {P : State → Prop} (h : Free P [.regs, .mem, .evq, .fault, .ring]) {s : State} (hs : P s) (corr : Nat) :
    P (s.epochBoundary corr) := by
  have h1 := h.mono (B := [.regs, .fault]) (by decide)
  have h2 := h.mono (B := [.regs]) (by decide)
  have h3 := h.mono (B := [.regs, .evq]) (by decide)
  have h4 := h.mono (B := [.regs, .evq, .ring]) (by decide)
  have h5 := h.mono (B := [.mem]) (by decide)
  unfold State.epochBoundary
  extract_lets
  repeat' first
    | (with_reducible assumption)
    | (with_reducible apply State.err_free h1)
    | (with_reducible apply State.put_free h2)
    | (with_reducible apply State.raise_free h3)
    | (with_reducible apply State.ringQueue_free h4)
    | (with_reducible apply State.setLocked_free h3)
    | (with_reducible apply State.summaryStore_free h5)
    | (with_reducible refine Free.ite (fun _ => ?_) (fun _ => ?_))
    | (with_reducible refine (h.ring (by decide) _ ?_))

theorem State.summarySend_free {P : State → Prop} (h : Free P [.regs, .evq, .ring]) {s : State} (hs : P s) :
    P (s.summarySend) := by
  unfold State.summarySend
  repeat' first
    | (with_reducible assumption)
    | (with_reducible apply State.ringQueue_free h)
    | (with_reducible refine Free.ite (fun _ => ?_) (fun _ => ?_))
    | split
    | (with_reducible refine (h.ring (by decide) _ ?_))

theorem State.ringTemplate_free {P : State → Prop} (h : Free P [.regs, .mem, .evq, .ring]) {s : State} (hs : P s) (k : Nat) :
    P (s.ringTemplate k) := by
  have h1 := h.mono (B := [.regs, .evq, .ring]) (by decide)
  have h2 := h.mono (B := [.mem]) (by decide)
  unfold State.ringTemplate
  extract_lets
  repeat' first
    | (with_reducible assumption)
    | (with_reducible apply State.postRead_free h1)
    | (with_reducible apply State.postWrite_free h1)
    | (with_reducible apply State.ringReport_free h2)
    | (with_reducible refine Free.ite (fun _ => ?_) (fun _ => ?_))

theorem State.readTimeout_free {P : State → Prop} (h : Free P [.mem, .ring]) {s : State} (hs : P s) (tag : Nat) :
    P (s.readTimeout tag) := by
  unfold State.readTimeout
  repeat' first
    | (with_reducible assumption)
    | (with_reducible apply State.readDone_free h)
    | split

theorem State.rfault_free {P : State → Prop} (h : Free P [.ring]) {s : State} (hs : P s) (w : Bool) :
    P (s.rfault w) := by
  unfold State.rfault
  repeat' first
    | (with_reducible assumption)
    | (with_reducible apply State.emitSet_free h)
    | (with_reducible refine Free.ite (fun _ => ?_) (fun _ => ?_))

theorem State.ringHeal_free {P : State → Prop} (h : Free P [.regs, .evq, .ring]) {s : State} (hs : P s) :
    P (s.ringHeal) := by
  have h1 := h.mono (B := [.regs]) (by decide)
  unfold State.ringHeal
  extract_lets
  repeat' first
    | (with_reducible assumption)
    | (with_reducible apply State.ringQueue_free h)
    | (with_reducible apply State.ringSync_free h1)
    | (with_reducible apply State.wr_free h1)
    | (with_reducible refine Free.ite (fun _ => ?_) (fun _ => ?_))
    | (with_reducible refine (h.ring (by decide) _ ?_))

theorem State.portGoesQuiet_free {P : State → Prop} (h : Free P [.regs, .ring]) {s : State} (hs : P s) (w : Bool) :
    P (s.portGoesQuiet w) := by
  have h1 := h.mono (B := [.ring]) (by decide)
  have h2 := h.mono (B := [.regs]) (by decide)
  unfold State.portGoesQuiet
  repeat' first
    | (with_reducible assumption)
    | (with_reducible apply State.emit_free h1)
    | (with_reducible apply State.put_free h2)
    | (with_reducible refine Free.ite (fun _ => ?_) (fun _ => ?_))

theorem State.portGoesUp_free {P : State → Prop} (h : Free P [.regs, .evq, .fault, .ring]) {s : State} (hs : P s) (w : Bool) :
    P (s.portGoesUp w) := by
  have h1 := h.mono (B := [.regs]) (by decide)
  unfold State.portGoesUp
  extract_lets
  repeat' first
    | (with_reducible assumption)
    | (with_reducible apply State.injTake_free h1)
    | (with_reducible apply State.portDown_free h)
    | (with_reducible apply State.put_free h1)
    | (with_reducible apply State.ringEnumReady_free h)
    | (with_reducible apply State.ringSync_free h1)
    | (with_reducible refine Free.ite (fun _ => ?_) (fun _ => ?_))

theorem State.pilotLoss_free {P : State → Prop} (h : Free P [.regs, .evq, .fault]) {s : State} (hs : P s) :
    P (s.pilotLoss) := by
  have h1 := h.mono (B := [.regs, .fault]) (by decide)
  have h2 := h.mono (B := [.regs, .evq]) (by decide)
  unfold State.pilotLoss
  repeat' first
    | (with_reducible assumption)
    | (with_reducible apply State.err_free h1)
    | (with_reducible apply State.setHeadLost_free h2)
    | (with_reducible refine Free.ite (fun _ => ?_) (fun _ => ?_))

theorem State.ringEnumTimeout_free {P : State → Prop} (h : Free P [.regs, .evq, .fault, .ring]) {s : State} (hs : P s) :
    P (s.ringEnumTimeout) := by
  have h1 := h.mono (B := [.regs, .evq, .ring]) (by decide)
  unfold State.ringEnumTimeout
  extract_lets
  repeat' first
    | (with_reducible assumption)
    | (with_reducible apply State.enumFrames_free h1)
    | (with_reducible apply State.ringEnumGo_free h)
    | (with_reducible refine Free.ite (fun _ => ?_) (fun _ => ?_))
    | (with_reducible refine (h.ring (by decide) _ ?_))

end Sys2Proof.Machine
end

