-- ==== Sys2Proof/Laws/StableFault.lean ====
section
/-! SUPPORT. Which parts of the state the operations of Machine/Fault.lean may change: a property that stands whatever becomes of those
parts stands after the operation. -/

namespace Sys2Proof.Machine

theorem State.logCheck_free {P : State → Prop} (h : Free P [.regs, .mem, .evq]) {s : State} (hs : P s) :
    P (s.logCheck) := by
  have h1 := h.mono (B := [.regs]) (by decide)
  have h2 := h.mono (B := [.regs, .evq]) (by decide)
  have h3 := h.mono (B := [.mem]) (by decide)
  unfold State.logCheck
  extract_lets
  repeat' first
    | (with_reducible assumption)
    | (with_reducible apply State.put_free h1)
    | (with_reducible apply State.raiseIf_free h2)
    | (with_reducible apply State.store_free h3)
    | (with_reducible apply State.zeroRange_free h3)
    | (with_reducible refine Free.ite (fun _ => ?_) (fun _ => ?_))

theorem State.snuffReadback_free {P : State → Prop} (h : Free P [.regs, .fault]) {s : State} (hs : P s) (bad : List Nat) :
    P (s.snuffReadback bad) := by
  have h1 := h.mono (B := [.regs]) (by decide)
  unfold State.snuffReadback
  extract_lets
  repeat' first
    | (with_reducible assumption)
    | (with_reducible apply State.errI_free h)
    | (with_reducible apply State.injTake_free h1)
    | (with_reducible apply State.put_free h1)
    | (with_reducible refine Free.ite (fun _ => ?_) (fun _ => ?_))
    | split
    | dsimp only
    | dsimp +zetaDelta only
    | (with_reducible refine (h.fault (by decide) _ ?_))

theorem State.lineInject_free {P : State → Prop} (h : Free P [.regs, .fault]) {s : State} (hs : P s) :
    P (s.lineInject) := by
  have h1 := h.mono (B := [.fault]) (by decide)
  have h2 := h.mono (B := [.regs]) (by decide)
  unfold State.lineInject
  extract_lets
  repeat' first
    | (with_reducible assumption)
    | (with_reducible apply State.errI_free h)
    | (with_reducible apply State.pulse_free h1)
    | (with_reducible apply State.wr_free h2)
    | (with_reducible refine Free.ite (fun _ => ?_) (fun _ => ?_))

theorem State.reactClass_free {P : State → Prop} (h : Free P [.regs]) {s : State} (hs : P s) (c : Nat) :
    P (s.reactClass c) := by
  unfold State.reactClass
  extract_lets
  repeat' first
    | (with_reducible assumption)
    | (with_reducible apply State.put_free h)
    | (with_reducible refine Free.ite (fun _ => ?_) (fun _ => ?_))

theorem State.reactJoin_free {P : State → Prop} (h : Free P [.regs, .evq, .fault]) {s : State} (hs : P s) (p : LinePulse) (c : Nat) :
    P (s.reactJoin p c) := by
  have h1 := h.mono (B := [.regs]) (by decide)
  have h2 := h.mono (B := [.regs, .evq]) (by decide)
  unfold State.reactJoin
  extract_lets
  repeat' first
    | (with_reducible assumption)
    | (with_reducible apply State.put_free h1)
    | (with_reducible apply State.raise_free h2)
    | (with_reducible apply State.reactClass_free h1)
    | (with_reducible refine Free.ite (fun _ => ?_) (fun _ => ?_))
    | (with_reducible refine (h.fault (by decide) _ ?_))

theorem State.classWrite_free {P : State → Prop} (h : Free P [.regs]) {s : State} (hs : P s) (j : Nat) (v : Nat) :
    P (s.classWrite j v) := by
  unfold State.classWrite
  repeat' first
    | (with_reducible assumption)
    | (with_reducible apply State.put_free h)
    | (with_reducible refine Free.ite (fun _ => ?_) (fun _ => ?_))
    | (with_reducible refine Free.foldl _ (fun _ _ _ => ?_) ?_)

theorem State.dropPulses_free {P : State → Prop} (h : Free P [.fault]) {s : State} (hs : P s) (l : List LinePulse) :
    P (s.dropPulses l) := by
  unfold State.dropPulses
  extract_lets
  repeat' first
    | (with_reducible assumption)
    | (with_reducible refine (h.fault (by decide) _ ?_))

theorem State.holdsSync_free {P : State → Prop} (h : Free P [.regs, .mem, .evq, .fault, .pwm, .link, .bal, .hb, .inp, .pack, .feed, .feedL, .svc, .ring]) {s : State} (hs : P s) :
    P (s.holdsSync) := by
  have h1 := h.mono (B := [.regs, .evq, .pwm, .bal]) (by decide)
  have h2 := h.mono (B := [.bal]) (by decide)
  have h3 := h.mono (B := [.regs, .mem, .evq, .pwm, .link, .bal, .hb]) (by decide)
  have h4 := h.mono (B := [.regs, .evq, .feedL]) (by decide)
  have h5 := h.mono (B := [.regs, .evq, .feed]) (by decide)
  have h6 := h.mono (B := [.regs, .evq, .inp]) (by decide)
  have h7 := h.mono (B := [.regs, .evq, .pack]) (by decide)
  have h8 := h.mono (B := [.regs]) (by decide)
  have h9 := h.mono (B := [.regs, .evq, .ring]) (by decide)
  have h10 := h.mono (B := [.regs, .svc]) (by decide)
  unfold State.holdsSync
  extract_lets
  repeat' first
    | (with_reducible assumption)
    | (with_reducible apply State.balAllOff_free h1)
    | (with_reducible apply State.balDue_free h2)
    | (with_reducible apply State.deselectAll_free h3)
    | (with_reducible apply State.feedsShed_free h4)
    | (with_reducible apply State.feedsSnuff_free h5)
    | (with_reducible apply State.inpSnuff_free h6)
    | (with_reducible apply State.packRows_free h7)
    | (with_reducible apply State.put_free h8)
    | (with_reducible apply State.snuffSend_free h9)
    | (with_reducible apply State.svcRun_free h10)
    | (with_reducible apply State.svcSnuff_free h10)
    | (with_reducible refine Free.ite (fun _ => ?_) (fun _ => ?_))
    | (with_reducible refine Free.foldl _ (fun _ _ _ => ?_) ?_)
    | (with_reducible refine (h.fault (by decide) _ ?_))

theorem State.putFault_free {P : State → Prop} (h : Free P [.regs]) {s : State} (hs : P s) (k : Nat) (b : Bool) :
    P (s.putFault k b) := by
  unfold State.putFault
  repeat' first
    | (with_reducible assumption)
    | (with_reducible apply State.wr_free h)

theorem State.safeEffect_free {P : State → Prop} (h : Free P [.regs, .mem, .mode, .dev, .evq, .lamp, .pwm, .link, .bal, .hb, .pack, .feed, .rail, .seq, .svc]) {s : State} (hs : P s) (k : Nat) (c : Nat) :
    P (s.safeEffect k c) := by
  have h1 := h.mono (B := [.regs, .mem, .mode, .dev, .evq, .lamp, .pwm, .link, .bal, .hb, .pack, .feed, .svc]) (by decide)
  have h2 := h.mono (B := [.mem]) (by decide)
  have h3 := h.mono (B := [.regs, .evq, .lamp]) (by decide)
  have h4 := h.mono (B := [.regs, .mem, .dev, .evq, .rail, .seq]) (by decide)
  have h5 := h.mono (B := [.regs, .mode, .dev, .evq, .lamp, .feed, .rail, .seq]) (by decide)
  unfold State.safeEffect
  extract_lets
  repeat' first
    | (with_reducible assumption)
    | (with_reducible apply State.enterSafe_free h1)
    | (with_reducible apply State.recBump_free h2)
    | (with_reducible apply State.relightOut_free h3)
    | (with_reducible apply State.stopRails_free h4)
    | (with_reducible apply State.wakeByLatch_free h5)
    | (with_reducible refine Free.ite (fun _ => ?_) (fun _ => ?_))
    | split

theorem State.latch_free {P : State → Prop} (h : Free P [.regs, .mem, .mode, .dev, .evq, .fault, .lamp, .pwm, .link, .bal, .hb, .inp, .pack, .feed, .feedL, .rail, .seq, .svc, .ring]) {s : State} (hs : P s) (p : LinePulse) :
    P (s.latch p) := by
  have h1 := h.mono (B := [.regs, .mem, .evq, .fault, .pwm, .link, .bal, .hb, .inp, .pack, .feed, .feedL, .svc, .ring]) (by decide)
  have h2 := h.mono (B := [.regs]) (by decide)
  have h3 := h.mono (B := [.regs, .evq]) (by decide)
  have h4 := h.mono (B := [.regs, .evq, .fault]) (by decide)
  have h5 := h.mono (B := [.regs, .mem, .mode, .dev, .evq, .lamp, .pwm, .link, .bal, .hb, .pack, .feed, .rail, .seq, .svc]) (by decide)
  unfold State.latch
  extract_lets
  repeat' first
    | (with_reducible assumption)
    | (with_reducible apply State.holdsSync_free h1)
    | (with_reducible apply State.put_free h2)
    | (with_reducible apply State.putFault_free h2)
    | (with_reducible apply State.raise_free h3)
    | (with_reducible apply State.reactJoin_free h4)
    | (with_reducible apply State.safeEffect_free h5)
    | (with_reducible refine Free.ite (fun _ => ?_) (fun _ => ?_))
    | (with_reducible refine (h.fault (by decide) _ ?_))

theorem State.faultClear_free {P : State → Prop} (h : Free P [.regs, .mem, .mode, .dev, .evq, .fault, .lamp, .pwm, .link, .bal, .hb, .inp, .pack, .feed, .feedL, .rail, .seq, .svc, .ring]) {s : State} (hs : P s) (hi : Bool) (v : Nat) (sources : List Nat) :
    P (s.faultClear hi v sources) := by
  have h1 := h.mono (B := [.fault]) (by decide)
  have h2 := h.mono (B := [.regs, .mem, .evq, .fault, .pwm, .link, .bal, .hb, .inp, .pack, .feed, .feedL, .svc, .ring]) (by decide)
  have h3 := h.mono (B := [.regs]) (by decide)
  have h4 := h.mono (B := [.regs, .evq]) (by decide)
  unfold State.faultClear
  extract_lets
  repeat' first
    | (with_reducible assumption)
    | (with_reducible apply State.dropPulses_free h1)
    | (with_reducible apply State.holdsSync_free h2)
    | (with_reducible apply State.latch_free h)
    | (with_reducible apply State.putFault_free h3)
    | (with_reducible apply State.raiseIf_free h4)
    | (with_reducible apply State.wr_free h3)
    | (with_reducible refine Free.ite (fun _ => ?_) (fun _ => ?_))
    | (with_reducible refine Free.foldl _ (fun _ _ _ => ?_) ?_)
    | (with_reducible refine (h.fault (by decide) _ ?_))

theorem State.raiseWrite_free {P : State → Prop} (h : Free P [.regs, .fault]) {s : State} (hs : P s) (v : Nat) :
    P (s.raiseWrite v) := by
  have h1 := h.mono (B := [.fault]) (by decide)
  have h2 := h.mono (B := [.regs]) (by decide)
  unfold State.raiseWrite
  extract_lets
  repeat' first
    | (with_reducible assumption)
    | (with_reducible apply State.pulse_free h1)
    | (with_reducible apply State.put_free h2)
    | (with_reducible refine Free.ite (fun _ => ?_) (fun _ => ?_))
    | (with_reducible refine Free.foldl _ (fun _ _ _ => ?_) ?_)

theorem State.clockMonitor_free {P : State → Prop} (h : Free P [.regs, .fault]) {s : State} (hs : P s) (off : Nat) (stopped : Nat) :
    P (s.clockMonitor off stopped) := by
  have h1 := h.mono (B := [.fault]) (by decide)
  have h2 := h.mono (B := [.regs]) (by decide)
  unfold State.clockMonitor
  extract_lets
  repeat' first
    | (with_reducible assumption)
    | (with_reducible apply State.pulse_free h1)
    | (with_reducible apply State.wr_free h2)
    | (with_reducible refine Free.ite (fun _ => ?_) (fun _ => ?_))
    | (with_reducible refine (h.fault (by decide) _ ?_))

theorem State.logWrite_free {P : State → Prop} (h : Free P [.regs, .mem, .fault]) {s : State} (hs : P s) :
    P (s.logWrite) := by
  have h1 := h.mono (B := [.regs]) (by decide)
  have h2 := h.mono (B := [.mem]) (by decide)
  unfold State.logWrite
  extract_lets
  repeat' first
    | (with_reducible assumption)
    | (with_reducible apply State.put_free h1)
    | (with_reducible apply State.putBytes_free h2)
    | (with_reducible apply State.store_free h2)
    | (with_reducible refine Free.ite (fun _ => ?_) (fun _ => ?_))
    | split
    | (with_reducible refine (h.fault (by decide) _ ?_))

theorem State.lineDisagree_free {P : State → Prop} (h : Free P [.regs, .fault]) {s : State} (hs : P s) (k : Nat) :
    P (s.lineDisagree k) := by
  have h1 := h.mono (B := [.fault]) (by decide)
  unfold State.lineDisagree
  extract_lets
  repeat' first
    | (with_reducible assumption)
    | (with_reducible apply State.err_free h)
    | (with_reducible apply State.pulse_free h1)
    | (with_reducible refine Free.ite (fun _ => ?_) (fun _ => ?_))

theorem State.linePulses_free {P : State → Prop} (h : Free P [.regs, .mem, .mode, .dev, .evq, .fault, .lamp, .pwm, .link, .bal, .hb, .inp, .pack, .feed, .feedL, .rail, .seq, .svc, .ring]) {s : State} (hs : P s) (sources : List Nat) :
    P (s.linePulses sources) := by
  have h1 := h.mono (B := [.fault]) (by decide)
  unfold State.linePulses
  extract_lets
  repeat' first
    | (with_reducible assumption)
    | (with_reducible apply State.dropPulses_free h1)
    | (with_reducible apply State.latch_free h)
    | (with_reducible refine Free.ite (fun _ => ?_) (fun _ => ?_))
    | (with_reducible refine Free.foldl _ (fun _ _ _ => ?_) ?_)

theorem State.logQueue_free {P : State → Prop} (h : Free P [.regs, .mem, .evq, .fault]) {s : State} (hs : P s) (e : List Byte) :
    P (s.logQueue e) := by
  have h1 := h.mono (B := [.regs]) (by decide)
  have h2 := h.mono (B := [.regs, .evq]) (by decide)
  have h3 := h.mono (B := [.mem]) (by decide)
  unfold State.logQueue
  extract_lets
  repeat' first
    | (with_reducible assumption)
    | (with_reducible apply State.put_free h1)
    | (with_reducible apply State.raise_free h2)
    | (with_reducible apply State.store_free h3)
    | (with_reducible refine Free.ite (fun _ => ?_) (fun _ => ?_))
    | (with_reducible refine (h.fault (by decide) _ ?_))

theorem State.reactionEnd_free {P : State → Prop} (h : Free P [.regs, .mem, .evq, .fault]) {s : State} (hs : P s) :
    P (s.reactionEnd) := by
  have h1 := h.mono (B := [.regs, .evq]) (by decide)
  have h2 := h.mono (B := [.regs]) (by decide)
  have h3 := h.mono (B := [.mem]) (by decide)
  unfold State.reactionEnd
  extract_lets
  repeat' first
    | (with_reducible assumption)
    | (with_reducible apply State.fire_free h1)
    | (with_reducible apply State.logQueue_free h)
    | (with_reducible apply State.put_free h2)
    | (with_reducible apply State.raise_free h1)
    | (with_reducible apply State.recPut_free h3)
    | (with_reducible refine Free.ite (fun _ => ?_) (fun _ => ?_))

end Sys2Proof.Machine
end

