-- ==== Sys2Proof/Laws/StableLamp.lean ====
section
/-! SUPPORT. Which parts of the state the operations of Machine/Lamp.lean may change: a property that stands whatever becomes of those
parts stands after the operation. -/

namespace Sys2Proof.Machine

theorem State.setLane_free {P : State → Prop} (h : Free P [.lamp]) {s : State} (hs : P s) (n : Fin 6) (x : LaneS) :
    P (s.setLane n x) := by
  unfold State.setLane
  extract_lets
  repeat' first
    | (with_reducible assumption)
    | (with_reducible refine (h.lamp (by decide) _ ?_))

theorem State.poison_free {P : State → Prop} (h : Free P [.lamp]) {s : State} (hs : P s) (n : Fin 6) :
    P (s.poison n) := by
  unfold State.poison
  extract_lets
  repeat' first
    | (with_reducible assumption)
    | (with_reducible apply State.setLane_free h)

theorem State.guardOut_free {P : State → Prop} (h : Free P [.lamp]) {s : State} (hs : P s) (n : Fin 6) (level : Fin 3) (ndep : Nat) :
    P (s.guardOut n level ndep) := by
  unfold State.guardOut
  extract_lets
  repeat' first
    | (with_reducible assumption)
    | (with_reducible apply State.poison_free h)
    | (with_reducible apply State.setLane_free h)

theorem State.budgetNext_free {P : State → Prop} (h : Free P [.regs]) {s : State} (hs : P s) :
    P (s.budgetNext) := by
  unfold State.budgetNext
  repeat' first
    | (with_reducible assumption)
    | (with_reducible apply State.put_free h)
    | (with_reducible refine Free.ite (fun _ => ?_) (fun _ => ?_))

theorem State.budgetRead_free {P : State → Prop} (h : Free P [.regs]) {s : State} (hs : P s) :
    P (s.budgetRead).2 := by
  unfold State.budgetRead
  extract_lets
  repeat' first
    | (with_reducible assumption)
    | (with_reducible apply State.budgetNext_free h)

theorem State.freshFrames_free {P : State → Prop} (h : Free P [.lamp]) {s : State} (hs : P s) (ran : Bool) :
    P (s.freshFrames ran) := by
  unfold State.freshFrames
  extract_lets
  repeat' first
    | (with_reducible assumption)
    | (with_reducible refine (h.lamp (by decide) _ ?_))

theorem State.overrun_free {P : State → Prop} (h : Free P [.regs, .evq, .fault, .lamp]) {s : State} (hs : P s) (n : Fin 6) (level : Fin 3) (word : Nat) (opcode : Nat) (inj : Bool) :
    P (s.overrun n level word opcode inj) := by
  have h1 := h.mono (B := [.regs, .fault]) (by decide)
  have h2 := h.mono (B := [.lamp]) (by decide)
  have h3 := h.mono (B := [.regs]) (by decide)
  have h4 := h.mono (B := [.regs, .evq]) (by decide)
  unfold State.overrun
  extract_lets
  repeat' first
    | (with_reducible assumption)
    | (with_reducible apply State.errI_free h1)
    | (with_reducible apply State.poison_free h2)
    | (with_reducible apply State.put_free h3)
    | (with_reducible apply State.raise_free h4)
    | (with_reducible apply State.wr_free h3)
    | (with_reducible refine Free.ite (fun _ => ?_) (fun _ => ?_))

theorem State.laneMarker_free {P : State → Prop} (h : Free P [.regs, .evq, .lamp]) {s : State} (hs : P s) (n : Fin 6) :
    P (s.laneMarker n) := by
  have h1 := h.mono (B := [.regs, .evq]) (by decide)
  have h2 := h.mono (B := [.regs]) (by decide)
  have h3 := h.mono (B := [.lamp]) (by decide)
  unfold State.laneMarker
  extract_lets
  repeat' first
    | (with_reducible assumption)
    | (with_reducible apply State.level_free h1)
    | (with_reducible apply State.put_free h2)
    | (with_reducible apply State.setLane_free h3)
    | (with_reducible refine Free.ite (fun _ => ?_) (fun _ => ?_))

theorem State.laneStart_free {P : State → Prop} (h : Free P [.lamp]) {s : State} (hs : P s) (n : Fin 6) :
    P (s.laneStart n) := by
  unfold State.laneStart
  extract_lets
  repeat' first
    | (with_reducible assumption)
    | (with_reducible apply State.setLane_free h)
    | (with_reducible refine Free.ite (fun _ => ?_) (fun _ => ?_))

theorem State.storeEdited_free {P : State → Prop} (h : Free P [.regs, .evq]) {s : State} (hs : P s) (a : Nat) :
    P (s.storeEdited a) := by
  have h1 := h.mono (B := [.regs]) (by decide)
  unfold State.storeEdited
  extract_lets
  repeat' first
    | (with_reducible assumption)
    | (with_reducible apply State.level_free h)
    | (with_reducible apply State.put_free h1)
    | (with_reducible refine Free.ite (fun _ => ?_) (fun _ => ?_))

theorem State.budgetWrite_free {P : State → Prop} (h : Free P [.regs, .lamp]) {s : State} (hs : P s) (v : Nat) :
    P (s.budgetWrite v) := by
  have h1 := h.mono (B := [.regs]) (by decide)
  have h2 := h.mono (B := [.lamp]) (by decide)
  unfold State.budgetWrite
  extract_lets
  repeat' first
    | (with_reducible assumption)
    | (with_reducible apply State.budgetNext_free h1)
    | (with_reducible apply State.setBudget_free h2)
    | (with_reducible refine Free.ite (fun _ => ?_) (fun _ => ?_))

theorem State.relightRefuse_free {P : State → Prop} (h : Free P [.regs, .evq]) {s : State} (hs : P s) (code : Nat) :
    P (s.relightRefuse code) := by
  have h1 := h.mono (B := [.regs]) (by decide)
  unfold State.relightRefuse
  extract_lets
  repeat' first
    | (with_reducible assumption)
    | (with_reducible apply State.put_free h1)
    | (with_reducible apply State.raise_free h)
    | (with_reducible refine Free.ite (fun _ => ?_) (fun _ => ?_))

theorem State.relightCmd_free {P : State → Prop} (h : Free P [.regs, .mem, .evq, .lamp]) {s : State} (hs : P s) (v : Nat) :
    P (s.relightCmd v) := by
  have h1 := h.mono (B := [.mem, .lamp]) (by decide)
  have h2 := h.mono (B := [.regs]) (by decide)
  have h3 := h.mono (B := [.regs, .evq]) (by decide)
  unfold State.relightCmd
  extract_lets
  repeat' first
    | (with_reducible assumption)
    | (with_reducible apply State.placeImage_free h1)
    | (with_reducible apply State.put_free h2)
    | (with_reducible apply State.relightRefuse_free h3)
    | (with_reducible refine Free.ite (fun _ => ?_) (fun _ => ?_))
    | (with_reducible refine (h.lamp (by decide) _ ?_))

theorem State.abandonRuns_free {P : State → Prop} (h : Free P [.lamp]) {s : State} (hs : P s) :
    P (s.abandonRuns) := by
  unfold State.abandonRuns
  extract_lets
  repeat' first
    | (with_reducible assumption)
    | (with_reducible refine (h.lamp (by decide) _ ?_))

theorem State.relit_free {P : State → Prop} (h : Free P [.regs, .evq, .lamp]) {s : State} (hs : P s) (bank : Nat) :
    P (s.relit bank) := by
  have h1 := h.mono (B := [.regs]) (by decide)
  have h2 := h.mono (B := [.regs, .evq]) (by decide)
  unfold State.relit
  extract_lets
  repeat' first
    | (with_reducible assumption)
    | (with_reducible apply State.lightImage_free h)
    | (with_reducible apply State.put_free h1)
    | (with_reducible apply State.raise_free h2)

theorem State.frameRelight_free {P : State → Prop} (h : Free P [.regs, .mem, .mode, .dev, .evq, .lamp, .pwm, .link, .bal, .hb, .pack, .feed, .feedL, .svc]) {s : State} (hs : P s) :
    P (s.frameRelight) := by
  have h1 := h.mono (B := [.lamp]) (by decide)
  have h2 := h.mono (B := [.regs, .mode, .evq, .lamp, .feed, .svc]) (by decide)
  have h3 := h.mono (B := [.regs, .mem, .mode, .dev, .evq, .lamp, .pwm, .link, .bal, .hb, .pack, .feedL, .svc]) (by decide)
  have h4 := h.mono (B := [.regs, .evq, .lamp]) (by decide)
  unfold State.frameRelight
  extract_lets
  repeat' first
    | (with_reducible assumption)
    | (with_reducible apply State.abandonRuns_free h1)
    | (with_reducible apply State.enterRun_free h2)
    | (with_reducible apply State.enterService_free h3)
    | (with_reducible apply State.lightImage_free h4)
    | (with_reducible apply State.relit_free h4)
    | (with_reducible refine Free.ite (fun _ => ?_) (fun _ => ?_))
    | (with_reducible refine (h.lamp (by decide) _ ?_))

theorem State.applyAlign_free {P : State → Prop} (h : Free P [.regs, .evq, .lamp]) {s : State} (hs : P s) (delta : Int) :
    P (s.applyAlign delta) := by
  have h1 := h.mono (B := [.lamp]) (by decide)
  have h2 := h.mono (B := [.regs]) (by decide)
  have h3 := h.mono (B := [.regs, .evq]) (by decide)
  unfold State.applyAlign
  extract_lets
  repeat' first
    | (with_reducible assumption)
    | (with_reducible apply State.abandonRuns_free h1)
    | (with_reducible apply State.put_free h2)
    | (with_reducible apply State.putI_free h2)
    | (with_reducible apply State.raise_free h3)
    | (with_reducible refine (h.lamp (by decide) _ ?_))

theorem State.frameBegin_free {P : State → Prop} (h : Free P [.regs, .evq, .lamp]) {s : State} (hs : P s) (e : Nat) (newEpoch : Bool) :
    P (s.frameBegin e newEpoch) := by
  have h1 := h.mono (B := [.lamp]) (by decide)
  have h2 := h.mono (B := [.regs]) (by decide)
  have h3 := h.mono (B := [.regs, .lamp]) (by decide)
  unfold State.frameBegin
  extract_lets
  repeat' first
    | (with_reducible assumption)
    | (with_reducible apply State.applyAlign_free h)
    | (with_reducible apply State.freshFrames_free h1)
    | (with_reducible apply State.put_free h2)
    | (with_reducible apply State.regrid_free h3)
    | (with_reducible refine Free.ite (fun _ => ?_) (fun _ => ?_))
    | split
    | (with_reducible refine (h.lamp (by decide) _ ?_))

theorem State.cyclePosition_free {P : State → Prop} (h : Free P [.regs, .lamp]) {s : State} (hs : P s) :
    P (s.cyclePosition) := by
  have h1 := h.mono (B := [.regs]) (by decide)
  unfold State.cyclePosition
  extract_lets
  repeat' first
    | (with_reducible assumption)
    | (with_reducible apply State.put_free h1)
    | (with_reducible refine Free.ite (fun _ => ?_) (fun _ => ?_))
    | (with_reducible refine (h.lamp (by decide) _ ?_))

theorem State.classSwitch_free {P : State → Prop} (h : Free P [.regs, .mem, .evq, .lamp, .adc, .bal, .hb, .inp, .pack]) {s : State} (hs : P s) :
    P (s.classSwitch) := by
  have h1 := h.mono (B := [.lamp]) (by decide)
  have h2 := h.mono (B := [.regs, .evq, .bal]) (by decide)
  have h3 := h.mono (B := [.regs, .mem, .evq, .lamp, .adc]) (by decide)
  have h4 := h.mono (B := [.regs]) (by decide)
  have h5 := h.mono (B := [.regs, .evq]) (by decide)
  have h6 := h.mono (B := [.regs, .evq, .hb, .pack]) (by decide)
  have h7 := h.mono (B := [.regs, .evq, .hb, .inp, .pack]) (by decide)
  have h8 := h.mono (B := [.regs, .hb]) (by decide)
  unfold State.classSwitch
  extract_lets
  repeat' first
    | (with_reducible assumption)
    | (with_reducible apply State.abandonRuns_free h1)
    | (with_reducible apply State.balClass_free h2)
    | (with_reducible apply State.freshFrames_free h1)
    | (with_reducible apply State.lightBuiltin_free h3)
    | (with_reducible apply State.put_free h4)
    | (with_reducible apply State.raise_free h5)
    | (with_reducible apply State.rideEntered_free h6)
    | (with_reducible apply State.rideLeft_free h7)
    | (with_reducible apply State.runEntered_free h8)
    | (with_reducible refine Free.ite (fun _ => ?_) (fun _ => ?_))
    | (with_reducible refine (h.lamp (by decide) _ ?_))

theorem State.lampMarker_free {P : State → Prop} (h : Free P [.regs, .mem, .evq, .lamp, .adc, .bal, .hb, .inp, .pack]) {s : State} (hs : P s) (l : List (Fin 6)) (settled : Bool) :
    P (s.lampMarker l settled) := by
  have h1 := h.mono (B := [.regs, .evq, .lamp]) (by decide)
  have h2 := h.mono (B := [.lamp]) (by decide)
  unfold State.lampMarker
  extract_lets
  repeat' first
    | (with_reducible assumption)
    | (with_reducible apply State.classSwitch_free h)
    | (with_reducible apply State.laneMarker_free h1)
    | (with_reducible apply State.laneStart_free h2)
    | (with_reducible refine Free.ite (fun _ => ?_) (fun _ => ?_))
    | (with_reducible refine Free.foldl _ (fun _ _ _ => ?_) ?_)

theorem State.modeJump_free {P : State → Prop} (h : Free P [.regs, .mode, .evq, .lamp]) {s : State} (hs : P s) (target : Nat) :
    P (s.modeJump target) := by
  unfold State.modeJump
  extract_lets
  repeat' first
    | (with_reducible assumption)
    | (with_reducible apply State.setMode_free h)
    | (with_reducible refine Free.ite (fun _ => ?_) (fun _ => ?_))
    | (with_reducible refine (h.lamp (by decide) _ ?_))

theorem State.postToken_free {P : State → Prop} (h : Free P [.lamp]) {s : State} (hs : P s) (n : Fin 6) (p : Nat) (void : Bool) :
    P (s.postToken n p void) := by
  unfold State.postToken
  extract_lets
  repeat' first
    | (with_reducible assumption)
    | (with_reducible refine Free.ite (fun _ => ?_) (fun _ => ?_))
    | (with_reducible refine (h.lamp (by decide) _ ?_))

theorem State.lockstep_free {P : State → Prop} (h : Free P [.regs, .evq, .fault, .lamp]) {s : State} (hs : P s) (n : Fin 6) :
    P (s.lockstep n) := by
  have h1 := h.mono (B := [.regs, .fault]) (by decide)
  have h2 := h.mono (B := [.regs]) (by decide)
  have h3 := h.mono (B := [.regs, .evq]) (by decide)
  have h4 := h.mono (B := [.lamp]) (by decide)
  unfold State.lockstep
  extract_lets
  repeat' first
    | (with_reducible assumption)
    | (with_reducible apply State.errI_free h1)
    | (with_reducible apply State.injTake_free h2)
    | (with_reducible apply State.level_free h3)
    | (with_reducible apply State.postToken_free h4)
    | (with_reducible apply State.put_free h2)
    | (with_reducible apply State.setLane_free h4)
    | (with_reducible refine Free.ite (fun _ => ?_) (fun _ => ?_))
    | (with_reducible refine Free.foldl _ (fun _ _ _ => ?_) ?_)

theorem State.notIssued_free {P : State → Prop} (h : Free P [.regs, .evq, .fault, .lamp]) {s : State} (hs : P s) (n : Fin 6) (word : Nat) (opcode : Nat) (cause : Nat) (inj : Bool) :
    P (s.notIssued n word opcode cause inj) := by
  have h1 := h.mono (B := [.regs, .fault]) (by decide)
  have h2 := h.mono (B := [.lamp]) (by decide)
  have h3 := h.mono (B := [.regs, .evq]) (by decide)
  have h4 := h.mono (B := [.regs]) (by decide)
  unfold State.notIssued
  extract_lets
  repeat' first
    | (with_reducible assumption)
    | (with_reducible apply State.errI_free h1)
    | (with_reducible apply State.poison_free h2)
    | (with_reducible apply State.raise_free h3)
    | (with_reducible apply State.wr_free h4)
    | (with_reducible refine Free.ite (fun _ => ?_) (fun _ => ?_))

theorem State.freshRounds_free {P : State → Prop} (h : Free P [.lamp]) {s : State} (hs : P s) :
    P (s.freshRounds) := by
  unfold State.freshRounds
  extract_lets
  repeat' first
    | (with_reducible assumption)
    | (with_reducible refine (h.lamp (by decide) _ ?_))

theorem State.ownPosition_free {P : State → Prop} (h : Free P [.regs, .lamp]) {s : State} (hs : P s) :
    P (s.ownPosition) := by
  have h1 := h.mono (B := [.lamp]) (by decide)
  have h2 := h.mono (B := [.regs]) (by decide)
  unfold State.ownPosition
  extract_lets
  repeat' first
    | (with_reducible assumption)
    | (with_reducible apply State.cyclePosition_free h)
    | (with_reducible apply State.freshFrames_free h1)
    | (with_reducible apply State.freshRounds_free h1)
    | (with_reducible apply State.put_free h2)
    | (with_reducible refine Free.ite (fun _ => ?_) (fun _ => ?_))

theorem State.coldDone_free {P : State → Prop} (h : Free P [.regs, .mem, .evq, .fault, .lamp]) {s : State} (hs : P s) (bad : Nat → Bool) :
    P (s.coldDone bad) := by
  have h1 := h.mono (B := [.regs, .fault]) (by decide)
  have h2 := h.mono (B := [.regs, .lamp]) (by decide)
  have h3 := h.mono (B := [.mem, .lamp]) (by decide)
  have h4 := h.mono (B := [.regs]) (by decide)
  have h5 := h.mono (B := [.regs, .evq]) (by decide)
  have h6 := h.mono (B := [.regs, .evq, .lamp]) (by decide)
  unfold State.coldDone
  extract_lets
  repeat' first
    | (with_reducible assumption)
    | (with_reducible apply State.checkImage_free h1)
    | (with_reducible apply State.holdImage_free h2)
    | (with_reducible apply State.loadImage_free h3)
    | (with_reducible apply State.put_free h4)
    | (with_reducible apply State.raise_free h5)
    | (with_reducible apply State.relightFail_free h6)
    | (with_reducible refine Free.ite (fun _ => ?_) (fun _ => ?_))
    | (with_reducible refine (h.lamp (by decide) _ ?_))

theorem State.warmDone_free {P : State → Prop} (h : Free P [.regs, .evq, .fault, .lamp]) {s : State} (hs : P s) (readBad : Bool) :
    P (s.warmDone readBad) := by
  have h1 := h.mono (B := [.regs, .fault]) (by decide)
  have h2 := h.mono (B := [.regs]) (by decide)
  have h3 := h.mono (B := [.regs, .evq, .lamp]) (by decide)
  unfold State.warmDone
  extract_lets
  repeat' first
    | (with_reducible assumption)
    | (with_reducible apply State.checkImage_free h1)
    | (with_reducible apply State.put_free h2)
    | (with_reducible apply State.relightFail_free h3)
    | (with_reducible refine Free.ite (fun _ => ?_) (fun _ => ?_))

theorem State.rdvGive_free {P : State → Prop} (h : Free P [.regs, .evq, .fault, .lamp]) {s : State} (hs : P s) (n : Fin 6) (word : Nat) (p : Nat) :
    P (s.rdvGive n word p) := by
  have h1 := h.mono (B := [.lamp]) (by decide)
  unfold State.rdvGive
  repeat' first
    | (with_reducible assumption)
    | (with_reducible apply State.notIssued_free h)
    | (with_reducible apply State.postToken_free h1)
    | (with_reducible refine Free.ite (fun _ => ?_) (fun _ => ?_))

theorem State.rdvTake_free {P : State → Prop} (h : Free P [.regs, .evq, .fault, .lamp]) {s : State} (hs : P s) (n : Fin 6) (level : Fin 3) (p : Nat) (ndep : Nat) :
    P (s.rdvTake n level p ndep) := by
  have h1 := h.mono (B := [.regs, .fault]) (by decide)
  have h2 := h.mono (B := [.lamp]) (by decide)
  have h3 := h.mono (B := [.regs]) (by decide)
  have h4 := h.mono (B := [.regs, .evq]) (by decide)
  unfold State.rdvTake
  extract_lets
  repeat' first
    | (with_reducible assumption)
    | (with_reducible apply State.errI_free h1)
    | (with_reducible apply State.guardOut_free h2)
    | (with_reducible apply State.injTake_free h3)
    | (with_reducible apply State.put_free h3)
    | (with_reducible apply State.raise_free h4)
    | (with_reducible apply State.wr_free h3)
    | (with_reducible refine Free.ite (fun _ => ?_) (fun _ => ?_))
    | split
    | dsimp +zetaDelta only
    | (with_reducible refine (h.lamp (by decide) _ ?_))

theorem State.roundPosition_free {P : State → Prop} (h : Free P [.regs, .lamp]) {s : State} (hs : P s) :
    P (s.roundPosition) := by
  have h1 := h.mono (B := [.lamp]) (by decide)
  have h2 := h.mono (B := [.regs]) (by decide)
  unfold State.roundPosition
  extract_lets
  repeat' first
    | (with_reducible assumption)
    | (with_reducible apply State.freshRounds_free h1)
    | (with_reducible apply State.put_free h2)
    | (with_reducible refine (h.lamp (by decide) _ ?_))

end Sys2Proof.Machine
end

