-- ==== Sys2Proof/Laws/StableTypeC.lean ====
section
/-! SUPPORT. Which parts of the state the operations of Machine/TypeC.lean may change: a property that stands whatever becomes of those
parts stands after the operation. -/

namespace Sys2Proof.Machine

theorem State.pdSend_free {P : State → Prop} (h : Free P [.port]) {s : State} (hs : P s) (m : PdMsg) :
    P (s.pdSend m) := by
  unfold State.pdSend
  extract_lets
  repeat' first
    | (with_reducible assumption)
    | (with_reducible refine (h.port (by decide) _ ?_))

theorem State.pdoCheck_free {P : State → Prop} (h : Free P [.regs, .fault]) {s : State} (hs : P s) (source : Bool) :
    P (s.pdoCheck source) := by
  unfold State.pdoCheck
  repeat' first
    | (with_reducible assumption)
    | (with_reducible apply State.err_free h)
    | (with_reducible refine Free.ite (fun _ => ?_) (fun _ => ?_))

theorem State.polTake_free {P : State → Prop} (h : Free P [.port]) {s : State} (hs : P s) :
    P (s.polTake) := by
  unfold State.polTake
  extract_lets
  repeat' first
    | (with_reducible assumption)
    | (with_reducible refine (h.port (by decide) _ ?_))

theorem State.capsRx_free {P : State → Prop} (h : Free P [.regs, .evq, .fault, .port]) {s0 : State} (hs : P s0) (caps : List Nat) :
    P (s0.capsRx caps) := by
  have h1 := h.mono (B := [.port]) (by decide)
  have h2 := h.mono (B := [.regs, .fault]) (by decide)
  have h3 := h.mono (B := [.regs, .evq]) (by decide)
  unfold State.capsRx
  extract_lets
  repeat' first
    | (with_reducible assumption)
    | (with_reducible apply State.pdSend_free h1)
    | (with_reducible apply State.pdoCheck_free h2)
    | (with_reducible apply State.polTake_free h1)
    | (with_reducible apply State.raiseIf_free h3)
    | (with_reducible refine Free.ite (fun _ => ?_) (fun _ => ?_))
    | split
    | (with_reducible refine (h.port (by decide) _ ?_))

theorem State.attachRoles_free {P : State → Prop} (h : Free P [.regs]) {s : State} (hs : P s) :
    P (s.attachRoles) := by
  unfold State.attachRoles
  extract_lets
  repeat' first
    | (with_reducible assumption)
    | (with_reducible apply State.put_free h)

theorem State.setPort_free {P : State → Prop} (h : Free P [.regs]) {s : State} (hs : P s) (c : Nat) :
    P (s.setPort c) := by
  unfold State.setPort
  repeat' first
    | (with_reducible assumption)
    | (with_reducible apply State.put_free h)

theorem State.attachSink_free {P : State → Prop} (h : Free P [.regs, .evq, .fault, .port]) {s : State} (hs : P s) (cc2 : Bool) (rp : Nat) (dead : Bool) :
    P (s.attachSink cc2 rp dead) := by
  have h1 := h.mono (B := [.regs]) (by decide)
  have h2 := h.mono (B := [.regs, .fault]) (by decide)
  have h3 := h.mono (B := [.regs, .evq]) (by decide)
  unfold State.attachSink
  extract_lets
  repeat' first
    | (with_reducible assumption)
    | (with_reducible apply State.attachRoles_free h1)
    | (with_reducible apply State.pdoCheck_free h2)
    | (with_reducible apply State.put_free h1)
    | (with_reducible apply State.raise_free h3)
    | (with_reducible apply State.setPort_free h1)
    | (with_reducible refine (h.port (by decide) _ ?_))

theorem State.pdTarget_free {P : State → Prop} (h : Free P [.port]) {s : State} (hs : P s) (v : Nat) (i : Nat) :
    P (s.pdTarget v i) := by
  unfold State.pdTarget
  extract_lets
  repeat' first
    | (with_reducible assumption)
    | (with_reducible refine (h.port (by decide) _ ?_))

theorem State.attachSource_free {P : State → Prop} (h : Free P [.regs, .evq, .fault, .port]) {s : State} (hs : P s) (cc2 : Bool) :
    P (s.attachSource cc2) := by
  have h1 := h.mono (B := [.regs]) (by decide)
  have h2 := h.mono (B := [.port]) (by decide)
  have h3 := h.mono (B := [.regs, .fault]) (by decide)
  have h4 := h.mono (B := [.regs, .evq]) (by decide)
  unfold State.attachSource
  extract_lets
  repeat' first
    | (with_reducible assumption)
    | (with_reducible apply State.attachRoles_free h1)
    | (with_reducible apply State.pdTarget_free h2)
    | (with_reducible apply State.pdoCheck_free h3)
    | (with_reducible apply State.put_free h1)
    | (with_reducible apply State.raise_free h4)
    | (with_reducible apply State.setPort_free h1)
    | (with_reducible refine (h.port (by decide) _ ?_))

theorem State.pdStage_free {P : State → Prop} (h : Free P [.port]) {s : State} (hs : P s) (x : PdStage) :
    P (s.pdStage x) := by
  unfold State.pdStage
  extract_lets
  repeat' first
    | (with_reducible assumption)
    | (with_reducible refine (h.port (by decide) _ ?_))

theorem State.polTakeFree_free {P : State → Prop} (h : Free P [.port]) {s : State} (hs : P s) :
    P (s.polTakeFree) := by
  unfold State.polTakeFree
  repeat' first
    | (with_reducible assumption)
    | (with_reducible apply State.polTake_free h)
    | (with_reducible refine Free.ite (fun _ => ?_) (fun _ => ?_))

theorem State.attach_free {P : State → Prop} (h : Free P [.regs, .evq, .fault, .port]) {s : State} (hs : P s) (cc2 : Bool) (rp : Nat) (v : Nat) (dead : Bool) :
    P (s.attach cc2 rp v dead) := by
  have h1 := h.mono (B := [.port]) (by decide)
  have h2 := h.mono (B := [.regs]) (by decide)
  unfold State.attach
  extract_lets
  repeat' first
    | (with_reducible assumption)
    | (with_reducible apply State.attachSink_free h)
    | (with_reducible apply State.attachSource_free h)
    | (with_reducible apply State.pdStage_free h1)
    | (with_reducible apply State.polTakeFree_free h1)
    | (with_reducible apply State.put_free h2)
    | (with_reducible apply State.setPort_free h2)
    | (with_reducible refine Free.ite (fun _ => ?_) (fun _ => ?_))
    | (with_reducible refine (h.port (by decide) _ ?_))

theorem State.svcTargetTake_free {P : State → Prop} (h : Free P [.regs, .svc, .port]) {s : State} (hs : P s) :
    P (s.svcTargetTake) := by
  have h1 := h.mono (B := [.regs, .svc]) (by decide)
  have h2 := h.mono (B := [.regs]) (by decide)
  unfold State.svcTargetTake
  extract_lets
  repeat' first
    | (with_reducible assumption)
    | (with_reducible apply State.svcRun_free h1)
    | (with_reducible apply State.svcTarget_free h2)
    | split
    | (with_reducible refine (h.port (by decide) _ ?_))

theorem State.lanternOff_free {P : State → Prop} (h : Free P [.regs, .evq, .port]) {s : State} (hs : P s) :
    P (s.lanternOff) := by
  have h1 := h.mono (B := [.regs, .evq]) (by decide)
  unfold State.lanternOff
  extract_lets
  repeat' first
    | (with_reducible assumption)
    | (with_reducible apply State.level_free h1)
    | (with_reducible refine (h.port (by decide) _ ?_))

theorem State.noContract_free {P : State → Prop} (h : Free P [.regs]) {s : State} (hs : P s) :
    P (s.noContract) := by
  unfold State.noContract
  extract_lets
  repeat' first
    | (with_reducible assumption)
    | (with_reducible apply State.put_free h)

theorem State.portDrop_free {P : State → Prop} (h : Free P [.regs, .evq, .port]) {s : State} (hs : P s) (c : Nat) :
    P (s.portDrop c) := by
  have h1 := h.mono (B := [.regs]) (by decide)
  have h2 := h.mono (B := [.port]) (by decide)
  unfold State.portDrop
  extract_lets
  repeat' first
    | (with_reducible assumption)
    | (with_reducible apply State.lanternOff_free h)
    | (with_reducible apply State.noContract_free h1)
    | (with_reducible apply State.pdTarget_free h2)
    | (with_reducible apply State.put_free h1)
    | (with_reducible apply State.setPort_free h1)
    | (with_reducible refine Free.ite (fun _ => ?_) (fun _ => ?_))
    | split
    | (with_reducible refine (h.port (by decide) _ ?_))

theorem State.sendSoftReset_free {P : State → Prop} (h : Free P [.regs, .port]) {s : State} (hs : P s) :
    P (s.sendSoftReset) := by
  have h1 := h.mono (B := [.port]) (by decide)
  have h2 := h.mono (B := [.regs]) (by decide)
  unfold State.sendSoftReset
  repeat' first
    | (with_reducible assumption)
    | (with_reducible apply State.pdSend_free h1)
    | (with_reducible apply State.pdStage_free h1)
    | (with_reducible apply State.put_free h2)

theorem State.pdFuncReset_free {P : State → Prop} (h : Free P [.regs, .port]) {s : State} (hs : P s) :
    P (s.pdFuncReset) := by
  unfold State.pdFuncReset
  repeat' first
    | (with_reducible assumption)
    | (with_reducible apply State.sendSoftReset_free h)
    | (with_reducible refine Free.ite (fun _ => ?_) (fun _ => ?_))

theorem State.errorRecovery_free {P : State → Prop} (h : Free P [.regs, .evq, .port]) {s : State} (hs : P s) :
    P (s.errorRecovery) := by
  unfold State.errorRecovery
  extract_lets
  repeat' first
    | (with_reducible assumption)
    | (with_reducible apply State.portDrop_free h)
    | (with_reducible refine Free.ite (fun _ => ?_) (fun _ => ?_))
    | (with_reducible refine (h.port (by decide) _ ?_))

theorem State.defaultPower_free {P : State → Prop} (h : Free P [.regs, .port]) {s : State} (hs : P s) :
    P (s.defaultPower) := by
  have h1 := h.mono (B := [.regs]) (by decide)
  have h2 := h.mono (B := [.port]) (by decide)
  unfold State.defaultPower
  extract_lets
  repeat' first
    | (with_reducible assumption)
    | (with_reducible apply State.noContract_free h1)
    | (with_reducible apply State.pdTarget_free h2)
    | (with_reducible refine Free.ite (fun _ => ?_) (fun _ => ?_))
    | (with_reducible refine (h.port (by decide) _ ?_))

theorem State.portDisable_free {P : State → Prop} (h : Free P [.regs, .evq, .port]) {s : State} (hs : P s) :
    P (s.portDisable) := by
  have h1 := h.mono (B := [.regs, .port]) (by decide)
  unfold State.portDisable
  repeat' first
    | (with_reducible assumption)
    | (with_reducible apply State.defaultPower_free h1)
    | (with_reducible apply State.lanternOff_free h)
    | (with_reducible apply State.portDrop_free h)
    | (with_reducible refine Free.ite (fun _ => ?_) (fun _ => ?_))

theorem State.hardReset_free {P : State → Prop} (h : Free P [.regs, .evq, .port]) {s : State} (hs : P s) :
    P (s.hardReset) := by
  have h1 := h.mono (B := [.regs]) (by decide)
  have h2 := h.mono (B := [.port]) (by decide)
  have h3 := h.mono (B := [.regs, .evq]) (by decide)
  unfold State.hardReset
  extract_lets
  repeat' first
    | (with_reducible assumption)
    | (with_reducible apply State.attachRoles_free h1)
    | (with_reducible apply State.errorRecovery_free h)
    | (with_reducible apply State.lanternOff_free h)
    | (with_reducible apply State.noContract_free h1)
    | (with_reducible apply State.pdTarget_free h2)
    | (with_reducible apply State.raise_free h3)
    | (with_reducible apply State.setPort_free h1)
    | (with_reducible refine Free.ite (fun _ => ?_) (fun _ => ?_))
    | split
    | dsimp +zetaDelta only
    | (with_reducible refine (h.port (by decide) _ ?_))

theorem State.sendHardReset_free {P : State → Prop} (h : Free P [.regs, .evq, .fault, .port]) {s : State} (hs : P s) :
    P (s.sendHardReset) := by
  have h1 := h.mono (B := [.regs, .fault]) (by decide)
  have h2 := h.mono (B := [.regs, .evq, .port]) (by decide)
  have h3 := h.mono (B := [.port]) (by decide)
  have h4 := h.mono (B := [.regs]) (by decide)
  unfold State.sendHardReset
  extract_lets
  repeat' first
    | (with_reducible assumption)
    | (with_reducible apply State.err_free h1)
    | (with_reducible apply State.errorRecovery_free h2)
    | (with_reducible apply State.hardReset_free h2)
    | (with_reducible apply State.pdSend_free h3)
    | (with_reducible apply State.put_free h4)
    | (with_reducible refine Free.ite (fun _ => ?_) (fun _ => ?_))
    | (with_reducible refine (h.port (by decide) _ ?_))

theorem State.srcOkFall_free {P : State → Prop} (h : Free P [.regs, .evq, .fault, .port]) {s : State} (hs : P s) :
    P (s.srcOkFall) := by
  have h1 := h.mono (B := [.regs, .evq, .port]) (by decide)
  have h2 := h.mono (B := [.regs, .evq]) (by decide)
  unfold State.srcOkFall
  extract_lets
  repeat' first
    | (with_reducible assumption)
    | (with_reducible apply State.errorRecovery_free h1)
    | (with_reducible apply State.raise_free h2)
    | (with_reducible apply State.sendHardReset_free h)
    | (with_reducible refine Free.ite (fun _ => ?_) (fun _ => ?_))
    | split
    | (with_reducible refine (h.port (by decide) _ ?_))

theorem State.vdmSend_free {P : State → Prop} (h : Free P [.regs, .evq, .port]) {s : State} (hs : P s) :
    P (s.vdmSend) := by
  have h1 := h.mono (B := [.port]) (by decide)
  have h2 := h.mono (B := [.regs, .evq]) (by decide)
  unfold State.vdmSend
  extract_lets
  repeat' first
    | (with_reducible assumption)
    | (with_reducible apply State.pdSend_free h1)
    | (with_reducible apply State.raise_free h2)
    | (with_reducible refine Free.ite (fun _ => ?_) (fun _ => ?_))
    | (with_reducible refine (h.port (by decide) _ ?_))

theorem State.policyLoad_free {P : State → Prop} (h : Free P [.regs, .fault]) {s : State} (hs : P s) :
    P (s.policyLoad) := by
  have h1 := h.mono (B := [.regs]) (by decide)
  unfold State.policyLoad
  extract_lets
  repeat' first
    | (with_reducible assumption)
    | (with_reducible apply State.err_free h)
    | (with_reducible apply State.wr_free h1)
    | (with_reducible refine Free.ite (fun _ => ?_) (fun _ => ?_))
    | (with_reducible refine Free.foldl _ (fun _ _ _ => ?_) ?_)

theorem State.pdStart_free {P : State → Prop} (h : Free P [.port]) {s : State} (hs : P s) (m : PdMsg) (x : PdStage) :
    P (s.pdStart m x) := by
  unfold State.pdStart
  extract_lets
  repeat' first
    | (with_reducible assumption)
    | (with_reducible apply State.pdSend_free h)
    | (with_reducible apply State.pdStage_free h)
    | (with_reducible refine Free.ite (fun _ => ?_) (fun _ => ?_))
    | (with_reducible refine (h.port (by decide) _ ?_))

theorem State.renegotiate_free {P : State → Prop} (h : Free P [.port]) {s : State} (hs : P s) :
    P (s.renegotiate) := by
  unfold State.renegotiate
  extract_lets
  repeat' first
    | (with_reducible assumption)
    | (with_reducible apply State.pdSend_free h)
    | (with_reducible apply State.pdStart_free h)
    | (with_reducible refine Free.ite (fun _ => ?_) (fun _ => ?_))
    | (with_reducible refine (h.port (by decide) _ ?_))

theorem State.swapStart_free {P : State → Prop} (h : Free P [.port]) {s : State} (hs : P s) (k : PdSwap) :
    P (s.swapStart k) := by
  unfold State.swapStart
  repeat' first
    | (with_reducible assumption)
    | (with_reducible apply State.pdStart_free h)
    | (with_reducible refine Free.ite (fun _ => ?_) (fun _ => ?_))

theorem State.pdCmd_free {P : State → Prop} (h : Free P [.regs, .evq, .fault, .port]) {s : State} (hs : P s) (v : Nat) :
    P (s.pdCmd v) := by
  have h1 := h.mono (B := [.port]) (by decide)
  have h2 := h.mono (B := [.regs, .evq, .port]) (by decide)
  unfold State.pdCmd
  repeat' first
    | (with_reducible assumption)
    | (with_reducible apply State.pdStart_free h1)
    | (with_reducible apply State.renegotiate_free h1)
    | (with_reducible apply State.sendHardReset_free h)
    | (with_reducible apply State.swapStart_free h1)
    | (with_reducible apply State.vdmSend_free h2)
    | (with_reducible refine Free.ite (fun _ => ?_) (fun _ => ?_))
    | split

theorem State.typecCmd_free {P : State → Prop} (h : Free P [.regs, .evq, .port]) {s : State} (hs : P s) (v : Nat) :
    P (s.typecCmd v) := by
  unfold State.typecCmd
  repeat' first
    | (with_reducible assumption)
    | (with_reducible apply State.errorRecovery_free h)
    | (with_reducible refine Free.ite (fun _ => ?_) (fun _ => ?_))

theorem State.frsTimeout_free {P : State → Prop} (h : Free P [.regs, .evq, .port]) {s : State} (hs : P s) :
    P (s.frsTimeout) := by
  have h1 := h.mono (B := [.regs, .evq]) (by decide)
  unfold State.frsTimeout
  repeat' first
    | (with_reducible assumption)
    | (with_reducible apply State.errorRecovery_free h)
    | (with_reducible apply State.raise_free h1)
    | (with_reducible refine Free.ite (fun _ => ?_) (fun _ => ?_))

theorem State.swapTimeout_free {P : State → Prop} (h : Free P [.regs, .evq, .port]) {s : State} (hs : P s) :
    P (s.swapTimeout) := by
  unfold State.swapTimeout
  repeat' first
    | (with_reducible assumption)
    | (with_reducible apply State.errorRecovery_free h)
    | split

theorem State.askSinkCap_free {P : State → Prop} (h : Free P [.port]) {s : State} (hs : P s) :
    P (s.askSinkCap) := by
  unfold State.askSinkCap
  repeat' first
    | (with_reducible assumption)
    | (with_reducible apply State.pdStart_free h)
    | (with_reducible refine Free.ite (fun _ => ?_) (fun _ => ?_))

theorem State.makeContract_free {P : State → Prop} (h : Free P [.regs, .evq, .port]) {s : State} (hs : P s) (rdo : Nat) (v : Nat) (i : Nat) :
    P (s.makeContract rdo v i) := by
  have h1 := h.mono (B := [.regs]) (by decide)
  have h2 := h.mono (B := [.regs, .evq]) (by decide)
  unfold State.makeContract
  extract_lets
  repeat' first
    | (with_reducible assumption)
    | (with_reducible apply State.put_free h1)
    | (with_reducible apply State.raise_free h2)
    | (with_reducible refine (h.port (by decide) _ ?_))

theorem State.nowSink_free {P : State → Prop} (h : Free P [.regs, .port]) {s : State} (hs : P s) :
    P (s.nowSink) := by
  have h1 := h.mono (B := [.regs]) (by decide)
  have h2 := h.mono (B := [.port]) (by decide)
  unfold State.nowSink
  repeat' first
    | (with_reducible assumption)
    | (with_reducible apply State.noContract_free h1)
    | (with_reducible apply State.pdStage_free h2)
    | (with_reducible apply State.put_free h1)
    | (with_reducible apply State.setPort_free h1)

theorem State.requestRx_free {P : State → Prop} (h : Free P [.regs, .evq, .port]) {s : State} (hs : P s) (rdo : Nat) :
    P (s.requestRx rdo) := by
  have h1 := h.mono (B := [.port]) (by decide)
  have h2 := h.mono (B := [.regs, .evq]) (by decide)
  unfold State.requestRx
  extract_lets
  repeat' first
    | (with_reducible assumption)
    | (with_reducible apply State.pdSend_free h1)
    | (with_reducible apply State.pdTarget_free h1)
    | (with_reducible apply State.raise_free h2)
    | (with_reducible refine Free.ite (fun _ => ?_) (fun _ => ?_))
    | (with_reducible refine (h.port (by decide) _ ?_))

theorem State.swapGo_free {P : State → Prop} (h : Free P [.regs, .evq, .port]) {s : State} (hs : P s) (k : PdSwap) :
    P (s.swapGo k) := by
  have h1 := h.mono (B := [.port]) (by decide)
  have h2 := h.mono (B := [.regs]) (by decide)
  have h3 := h.mono (B := [.regs, .evq]) (by decide)
  unfold State.swapGo
  extract_lets
  repeat' first
    | (with_reducible assumption)
    | (with_reducible apply State.lanternOff_free h)
    | (with_reducible apply State.pdStage_free h1)
    | (with_reducible apply State.pdTarget_free h1)
    | (with_reducible apply State.put_free h2)
    | (with_reducible apply State.raise_free h3)
    | (with_reducible refine Free.ite (fun _ => ?_) (fun _ => ?_))
    | split
    | (with_reducible refine (h.port (by decide) _ ?_))

theorem State.swapRx_free {P : State → Prop} (h : Free P [.regs, .evq, .port]) {s : State} (hs : P s) (k : PdSwap) (vconnIn : Bool) :
    P (s.swapRx k vconnIn) := by
  have h1 := h.mono (B := [.port]) (by decide)
  have h2 := h.mono (B := [.regs, .evq]) (by decide)
  unfold State.swapRx
  extract_lets
  repeat' first
    | (with_reducible assumption)
    | (with_reducible apply State.pdSend_free h1)
    | (with_reducible apply State.pdStage_free h1)
    | (with_reducible apply State.raise_free h2)
    | (with_reducible apply State.raiseIf_free h2)
    | (with_reducible apply State.swapGo_free h)
    | (with_reducible refine Free.ite (fun _ => ?_) (fun _ => ?_))
    | (with_reducible refine (h.port (by decide) _ ?_))

theorem State.lanternAnswer_free {P : State → Prop} (h : Free P [.regs, .evq, .port]) {s : State} (hs : P s) (words : List Nat) :
    P (s.lanternAnswer words) := by
  have h1 := h.mono (B := [.regs, .evq]) (by decide)
  have h2 := h.mono (B := [.port]) (by decide)
  unfold State.lanternAnswer
  extract_lets
  repeat' first
    | (with_reducible assumption)
    | (with_reducible apply State.lanternOff_free h)
    | (with_reducible apply State.level_free h1)
    | (with_reducible apply State.pdSend_free h2)
    | (with_reducible refine Free.ite (fun _ => ?_) (fun _ => ?_))
    | split
    | dsimp +zetaDelta only
    | (with_reducible refine (h.port (by decide) _ ?_))

theorem State.vdmRx_free {P : State → Prop} (h : Free P [.regs, .evq, .port]) {s : State} (hs : P s) (words : List Nat) :
    P (s.vdmRx words) := by
  have h1 := h.mono (B := [.port]) (by decide)
  have h2 := h.mono (B := [.regs]) (by decide)
  have h3 := h.mono (B := [.regs, .evq]) (by decide)
  unfold State.vdmRx
  extract_lets
  repeat' first
    | (with_reducible assumption)
    | (with_reducible apply State.lanternAnswer_free h)
    | (with_reducible apply State.pdSend_free h1)
    | (with_reducible apply State.put_free h2)
    | (with_reducible apply State.raise_free h3)
    | (with_reducible refine Free.ite (fun _ => ?_) (fun _ => ?_))
    | (with_reducible refine Free.foldl _ (fun _ _ _ => ?_) ?_)
    | (with_reducible refine (h.port (by decide) _ ?_))

theorem State.pdMessage_free {P : State → Prop} (h : Free P [.regs, .evq, .fault, .port]) {s : State} (hs : P s) (m : PdMsg) :
    P (s.pdMessage m) := by
  have h1 := h.mono (B := [.port]) (by decide)
  have h2 := h.mono (B := [.regs, .evq, .port]) (by decide)
  have h3 := h.mono (B := [.regs]) (by decide)
  have h4 := h.mono (B := [.regs, .port]) (by decide)
  have h5 := h.mono (B := [.regs, .evq]) (by decide)
  unfold State.pdMessage
  extract_lets
  repeat' first
    | (with_reducible assumption)
    | (with_reducible apply State.askSinkCap_free h1)
    | (with_reducible apply State.capsRx_free h)
    | (with_reducible apply State.hardReset_free h2)
    | (with_reducible apply State.makeContract_free h2)
    | (with_reducible apply State.noContract_free h3)
    | (with_reducible apply State.nowSink_free h4)
    | (with_reducible apply State.pdSend_free h1)
    | (with_reducible apply State.pdStage_free h1)
    | (with_reducible apply State.pdTarget_free h1)
    | (with_reducible apply State.put_free h3)
    | (with_reducible apply State.raise_free h5)
    | (with_reducible apply State.requestRx_free h2)
    | (with_reducible apply State.setPort_free h3)
    | (with_reducible apply State.swapGo_free h2)
    | (with_reducible apply State.swapRx_free h2)
    | (with_reducible apply State.vdmRx_free h2)
    | (with_reducible refine Free.ite (fun _ => ?_) (fun _ => ?_))
    | split
    | (with_reducible refine (h.port (by decide) _ ?_))

theorem State.detach_free {P : State → Prop} (h : Free P [.regs, .evq, .port]) {s : State} (hs : P s) (vbusLost : Bool) :
    P (s.detach vbusLost) := by
  have h1 := h.mono (B := [.regs, .evq]) (by decide)
  unfold State.detach
  extract_lets
  repeat' first
    | (with_reducible assumption)
    | (with_reducible apply State.portDrop_free h)
    | (with_reducible apply State.raise_free h1)
    | (with_reducible refine Free.ite (fun _ => ?_) (fun _ => ?_))
    | (with_reducible refine (h.port (by decide) _ ?_))

theorem State.ownHardReset_free {P : State → Prop} (h : Free P [.regs, .evq, .fault, .port]) {s : State} (hs : P s) :
    P (s.ownHardReset) := by
  have h1 := h.mono (B := [.regs, .fault]) (by decide)
  have h2 := h.mono (B := [.port]) (by decide)
  unfold State.ownHardReset
  repeat' first
    | (with_reducible assumption)
    | (with_reducible apply State.err_free h1)
    | (with_reducible apply State.pdStage_free h2)
    | (with_reducible apply State.sendHardReset_free h)
    | (with_reducible refine Free.ite (fun _ => ?_) (fun _ => ?_))

theorem State.portFollow_free {P : State → Prop} (h : Free P [.regs, .evq, .fault, .port]) {s : State} (hs : P s) :
    P (s.portFollow) := by
  have h1 := h.mono (B := [.regs, .port]) (by decide)
  have h2 := h.mono (B := [.port]) (by decide)
  have h3 := h.mono (B := [.regs]) (by decide)
  unfold State.portFollow
  extract_lets
  repeat' first
    | (with_reducible assumption)
    | (with_reducible apply State.defaultPower_free h1)
    | (with_reducible apply State.ownHardReset_free h)
    | (with_reducible apply State.pdStart_free h2)
    | (with_reducible apply State.pdTarget_free h2)
    | (with_reducible apply State.put_free h3)
    | (with_reducible apply State.renegotiate_free h2)
    | (with_reducible apply State.setPort_free h3)
    | (with_reducible refine Free.ite (fun _ => ?_) (fun _ => ?_))
    | split
    | (with_reducible refine (h.port (by decide) _ ?_))

theorem State.portSync_free {P : State → Prop} (h : Free P [.regs, .evq, .fault, .port]) {s : State} (hs : P s) :
    P (s.portSync) := by
  have h1 := h.mono (B := [.port]) (by decide)
  have h2 := h.mono (B := [.regs, .evq, .port]) (by decide)
  have h3 := h.mono (B := [.regs]) (by decide)
  unfold State.portSync
  extract_lets
  repeat' first
    | (with_reducible assumption)
    | (with_reducible apply State.polTakeFree_free h1)
    | (with_reducible apply State.portDrop_free h2)
    | (with_reducible apply State.portFollow_free h)
    | (with_reducible apply State.put_free h3)
    | (with_reducible refine Free.ite (fun _ => ?_) (fun _ => ?_))
    | (with_reducible refine (h.port (by decide) _ ?_))

theorem State.vbusLevel_free {P : State → Prop} (h : Free P [.regs, .evq, .port]) {s : State} (hs : P s) (v : Nat) :
    P (s.vbusLevel v) := by
  have h1 := h.mono (B := [.regs]) (by decide)
  have h2 := h.mono (B := [.port]) (by decide)
  unfold State.vbusLevel
  extract_lets
  repeat' first
    | (with_reducible assumption)
    | (with_reducible apply State.detach_free h)
    | (with_reducible apply State.injTake_free h1)
    | (with_reducible apply State.pdSend_free h2)
    | (with_reducible apply State.pdStage_free h2)
    | (with_reducible apply State.pdTarget_free h2)
    | (with_reducible apply State.put_free h1)
    | (with_reducible apply State.setPort_free h1)
    | (with_reducible refine Free.ite (fun _ => ?_) (fun _ => ?_))
    | split
    | (with_reducible refine (h.port (by decide) _ ?_))

theorem State.lanternCmd_free {P : State → Prop} (h : Free P [.regs, .evq, .port]) {s : State} (hs : P s) (words : List Nat) :
    P (s.lanternCmd words) := by
  unfold State.lanternCmd
  repeat' first
    | (with_reducible assumption)
    | (with_reducible apply State.lanternAnswer_free h)
    | (with_reducible refine Free.ite (fun _ => ?_) (fun _ => ?_))

theorem State.recoveryEnd_free {P : State → Prop} (h : Free P [.regs, .evq, .port]) {s : State} (hs : P s) :
    P (s.recoveryEnd) := by
  have h1 := h.mono (B := [.regs, .evq]) (by decide)
  have h2 := h.mono (B := [.regs]) (by decide)
  unfold State.recoveryEnd
  extract_lets
  repeat' first
    | (with_reducible assumption)
    | (with_reducible apply State.raise_free h1)
    | (with_reducible apply State.setPort_free h2)
    | (with_reducible refine Free.ite (fun _ => ?_) (fun _ => ?_))
    | (with_reducible refine (h.port (by decide) _ ?_))

theorem State.trySnkEnd_free {P : State → Prop} (h : Free P [.regs]) {s : State} (hs : P s) :
    P (s.trySnkEnd) := by
  unfold State.trySnkEnd
  repeat' first
    | (with_reducible assumption)
    | (with_reducible apply State.setPort_free h)
    | (with_reducible refine Free.ite (fun _ => ?_) (fun _ => ?_))

theorem State.toggle_free {P : State → Prop} (h : Free P [.regs, .port]) {s : State} (hs : P s) :
    P (s.toggle) := by
  have h1 := h.mono (B := [.regs]) (by decide)
  unfold State.toggle
  extract_lets
  repeat' first
    | (with_reducible assumption)
    | (with_reducible apply State.setPort_free h1)
    | (with_reducible refine Free.ite (fun _ => ?_) (fun _ => ?_))
    | (with_reducible refine (h.port (by decide) _ ?_))

theorem State.vconnTrip_free {P : State → Prop} (h : Free P [.regs, .evq, .port]) {s : State} (hs : P s) :
    P (s.vconnTrip) := by
  have h1 := h.mono (B := [.regs]) (by decide)
  have h2 := h.mono (B := [.regs, .evq]) (by decide)
  unfold State.vconnTrip
  extract_lets
  repeat' first
    | (with_reducible assumption)
    | (with_reducible apply State.put_free h1)
    | (with_reducible apply State.raise_free h2)
    | (with_reducible refine Free.ite (fun _ => ?_) (fun _ => ?_))
    | (with_reducible refine (h.port (by decide) _ ?_))

theorem State.psRdySend_free {P : State → Prop} (h : Free P [.regs, .evq, .port]) {s : State} (hs : P s) :
    P (s.psRdySend) := by
  have h1 := h.mono (B := [.port]) (by decide)
  have h2 := h.mono (B := [.regs]) (by decide)
  have h3 := h.mono (B := [.regs, .evq]) (by decide)
  unfold State.psRdySend
  extract_lets
  repeat' first
    | (with_reducible assumption)
    | (with_reducible apply State.askSinkCap_free h1)
    | (with_reducible apply State.makeContract_free h)
    | (with_reducible apply State.pdSend_free h1)
    | (with_reducible apply State.put_free h2)
    | (with_reducible apply State.raise_free h3)
    | (with_reducible refine Free.ite (fun _ => ?_) (fun _ => ?_))
    | split
    | (with_reducible refine (h.port (by decide) _ ?_))

theorem State.vdmTimeout_free {P : State → Prop} (h : Free P [.port]) {s : State} (hs : P s) :
    P (s.vdmTimeout) := by
  unfold State.vdmTimeout
  extract_lets
  repeat' first
    | (with_reducible assumption)
    | (with_reducible apply State.pdSend_free h)
    | (with_reducible refine Free.ite (fun _ => ?_) (fun _ => ?_))
    | (with_reducible refine (h.port (by decide) _ ?_))

theorem State.goodCrcTimeout_free {P : State → Prop} (h : Free P [.regs, .evq, .fault, .port]) {s : State} (hs : P s) :
    P (s.goodCrcTimeout) := by
  have h1 := h.mono (B := [.regs, .evq]) (by decide)
  have h2 := h.mono (B := [.regs, .port]) (by decide)
  unfold State.goodCrcTimeout
  extract_lets
  repeat' first
    | (with_reducible assumption)
    | (with_reducible apply State.ownHardReset_free h)
    | (with_reducible apply State.raise_free h1)
    | (with_reducible apply State.sendSoftReset_free h2)
    | (with_reducible refine Free.ite (fun _ => ?_) (fun _ => ?_))
    | split
    | (with_reducible refine (h.port (by decide) _ ?_))

theorem State.hrSinkTimeout_free {P : State → Prop} (h : Free P [.regs, .evq, .port]) {s : State} (hs : P s) :
    P (s.hrSinkTimeout) := by
  unfold State.hrSinkTimeout
  repeat' first
    | (with_reducible assumption)
    | (with_reducible apply State.errorRecovery_free h)
    | (with_reducible refine Free.ite (fun _ => ?_) (fun _ => ?_))

theorem State.accessorySeen_free {P : State → Prop} (h : Free P [.regs, .evq, .port]) {s : State} (hs : P s) :
    P (s.accessorySeen) := by
  have h1 := h.mono (B := [.regs, .evq]) (by decide)
  unfold State.accessorySeen
  extract_lets
  repeat' first
    | (with_reducible assumption)
    | (with_reducible apply State.raise_free h1)
    | (with_reducible refine Free.ite (fun _ => ?_) (fun _ => ?_))
    | (with_reducible refine (h.port (by decide) _ ?_))

theorem State.capsSend_free {P : State → Prop} (h : Free P [.regs, .fault, .port]) {s0 : State} (hs : P s0) (acked : Bool) :
    P (s0.capsSend acked) := by
  have h1 := h.mono (B := [.port]) (by decide)
  have h2 := h.mono (B := [.regs, .fault]) (by decide)
  unfold State.capsSend
  extract_lets
  repeat' first
    | (with_reducible assumption)
    | (with_reducible apply State.pdSend_free h1)
    | (with_reducible apply State.pdoCheck_free h2)
    | (with_reducible apply State.polTake_free h1)
    | (with_reducible refine Free.ite (fun _ => ?_) (fun _ => ?_))
    | split
    | (with_reducible refine (h.port (by decide) _ ?_))

theorem State.hrTimer_free {P : State → Prop} (h : Free P [.regs, .evq, .port]) {s : State} (hs : P s) :
    P (s.hrTimer) := by
  have h1 := h.mono (B := [.port]) (by decide)
  unfold State.hrTimer
  extract_lets
  repeat' first
    | (with_reducible assumption)
    | (with_reducible apply State.errorRecovery_free h)
    | (with_reducible apply State.pdTarget_free h1)
    | (with_reducible refine Free.ite (fun _ => ?_) (fun _ => ?_))
    | split
    | (with_reducible refine (h.port (by decide) _ ?_))

theorem State.frsSignal_free {P : State → Prop} (h : Free P [.port]) {s : State} (hs : P s) :
    P (s.frsSignal) := by
  unfold State.frsSignal
  extract_lets
  repeat' first
    | (with_reducible assumption)
    | (with_reducible apply State.pdSend_free h)
    | (with_reducible refine Free.ite (fun _ => ?_) (fun _ => ?_))
    | (with_reducible refine (h.port (by decide) _ ?_))

theorem State.softTimeout_free {P : State → Prop} (h : Free P [.regs, .evq, .fault, .port]) {s : State} (hs : P s) :
    P (s.softTimeout) := by
  unfold State.softTimeout
  repeat' first
    | (with_reducible assumption)
    | (with_reducible apply State.ownHardReset_free h)
    | (with_reducible refine Free.ite (fun _ => ?_) (fun _ => ?_))

theorem State.vbusOver_free {P : State → Prop} (h : Free P [.regs, .fault, .port]) {s : State} (hs : P s) (v : Nat) :
    P (s.vbusOver v) := by
  have h1 := h.mono (B := [.regs, .fault]) (by decide)
  have h2 := h.mono (B := [.regs]) (by decide)
  unfold State.vbusOver
  extract_lets
  repeat' first
    | (with_reducible assumption)
    | (with_reducible apply State.err_free h1)
    | (with_reducible apply State.put_free h2)
    | (with_reducible refine Free.ite (fun _ => ?_) (fun _ => ?_))
    | (with_reducible refine (h.port (by decide) _ ?_))

theorem State.pdRx_free {P : State → Prop} (h : Free P [.regs, .port]) {s : State} (hs : P s) (good : Bool) (f : State → State) (hf : ∀ t, P t → P (f t)) :
    P (s.pdRx good f) := by
  have h1 := h.mono (B := [.regs]) (by decide)
  unfold State.pdRx
  extract_lets
  repeat' first
    | (with_reducible assumption)
    | (with_reducible apply State.injTake_free h1)
    | (with_reducible apply State.put_free h1)
    | (with_reducible refine Free.ite (fun _ => ?_) (fun _ => ?_))
    | (with_reducible apply hf)
    | split
    | (with_reducible refine (h.port (by decide) _ ?_))

theorem State.hardResetRx_free {P : State → Prop} (h : Free P [.regs, .evq, .port]) {s : State} (hs : P s) :
    P (s.hardResetRx) := by
  unfold State.hardResetRx
  repeat' first
    | (with_reducible assumption)
    | (with_reducible apply State.hardReset_free h)
    | (with_reducible refine Free.ite (fun _ => ?_) (fun _ => ?_))

end Sys2Proof.Machine
end

