-- ==== Sys2Proof/Laws/StableAccess.lean ====
section
/-! SUPPORT. Which parts of the state the operations of Machine/Access.lean may change: a property that stands whatever becomes of those
parts stands after the operation. -/

namespace Sys2Proof.Machine

theorem State.parityCheck_free {P : State → Prop} (h : Free P [.regs, .fault]) {s : State} (hs : P s) (pg : Nat) :
    P (s.parityCheck pg) := by
  have h1 := h.mono (B := [.regs]) (by decide)
  unfold State.parityCheck
  repeat' first
    | (with_reducible assumption)
    | (with_reducible apply State.errI_free h)
    | (with_reducible apply State.injTake_free h1)
    | (with_reducible refine Free.ite (fun _ => ?_) (fun _ => ?_))

theorem State.shelfTouch_free {P : State → Prop} (h : Free P [.regs, .evq]) {s : State} (hs : P s) (m : Master) (b : Bool) :
    P (s.shelfTouch m b) := by
  unfold State.shelfTouch
  repeat' first
    | (with_reducible assumption)
    | (with_reducible apply State.hostAccess_free h)
    | (with_reducible refine Free.ite (fun _ => ?_) (fun _ => ?_))

theorem State.readEffect_free {P : State → Prop} (h : Free P [.regs, .fresh, .evq, .fault, .cellar, .adc]) {s : State} (hs : P s) (m : Master) (a : Nat) :
    P (s.readEffect m a).2 := by
  have h1 := h.mono (B := [.regs]) (by decide)
  have h2 := h.mono (B := [.regs, .evq, .adc]) (by decide)
  have h3 := h.mono (B := [.regs, .evq]) (by decide)
  have h4 := h.mono (B := [.regs, .evq, .fault]) (by decide)
  have h5 := h.mono (B := [.fresh]) (by decide)
  have h6 := h.mono (B := [.cellar]) (by decide)
  unfold State.readEffect
  extract_lets
  repeat' first
    | (with_reducible assumption)
    | (with_reducible apply State.budgetRead_free h1)
    | (with_reducible apply State.fifoPop_free h2)
    | (with_reducible apply State.shelfTouch_free h3)
    | (with_reducible apply State.srcRead_free h4)
    | (with_reducible apply State.tickFresh_free h5)
    | (with_reducible apply State.tickHi_free h6)
    | (with_reducible apply State.tickLo_free h6)
    | (with_reducible apply State.wr_free h1)
    | (with_reducible refine Free.ite (fun _ => ?_) (fun _ => ?_))
    | split

theorem State.unmapped_free {P : State → Prop} (h : Free P [.regs, .evq]) {s : State} (hs : P s) :
    P (s.unmapped) := by
  unfold State.unmapped
  repeat' first
    | (with_reducible assumption)
    | (with_reducible apply State.raise_free h)

theorem State.readWord_free {P : State → Prop} (h : Free P [.regs, .fresh, .evq, .fault, .cellar, .adc]) {s : State} (hs : P s) (m : Master) (a : Nat) :
    P (s.readWord m a).2 := by
  have h1 := h.mono (B := [.regs, .fault]) (by decide)
  have h2 := h.mono (B := [.regs, .evq]) (by decide)
  unfold State.readWord
  extract_lets
  repeat' first
    | (with_reducible assumption)
    | (with_reducible apply State.parityCheck_free h1)
    | (with_reducible apply State.readEffect_free h)
    | (with_reducible apply State.shelfTouch_free h2)
    | (with_reducible apply State.unmapped_free h2)
    | (with_reducible refine Free.ite (fun _ => ?_) (fun _ => ?_))
    | split

theorem State.countsClr_free {P : State → Prop} (h : Free P [.regs]) {s : State} (hs : P s) (a : Nat) (v : Word) :
    P (s.countsClr a v) := by
  unfold State.countsClr
  repeat' first
    | (with_reducible assumption)
    | (with_reducible apply State.wr_free h)
    | (with_reducible refine Free.ite (fun _ => ?_) (fun _ => ?_))

theorem State.samplePages_free {P : State → Prop} (h : Free P [.regs, .mem, .evq, .fault, .pwm, .adc, .cmp, .link, .est, .bal, .hb]) {s : State} (hs : P s) (pg : Nat) (off : Nat) (old : Word) (v : Word) :
    P (s.samplePages pg off old v) := by
  have h1 := h.mono (B := [.regs, .mem, .evq, .fault, .pwm, .link, .bal, .hb]) (by decide)
  have h2 := h.mono (B := [.regs, .evq, .adc]) (by decide)
  have h3 := h.mono (B := [.regs]) (by decide)
  have h4 := h.mono (B := [.regs, .adc]) (by decide)
  have h5 := h.mono (B := [.regs, .cmp]) (by decide)
  have h6 := h.mono (B := [.regs, .mem, .evq, .fault, .link]) (by decide)
  have h7 := h.mono (B := [.regs, .mem, .evq, .link]) (by decide)
  have h8 := h.mono (B := [.regs, .evq, .fault, .cmp]) (by decide)
  have h9 := h.mono (B := [.regs, .evq, .fault, .cmp, .est]) (by decide)
  unfold State.samplePages
  extract_lets
  repeat' first
    | (with_reducible assumption)
    | (with_reducible apply State.afterLink_free h1)
    | (with_reducible apply State.calSweep_free h2)
    | (with_reducible apply State.countsClr_free h3)
    | (with_reducible apply State.entryWritten_free h4)
    | (with_reducible apply State.holdWrite_free h5)
    | (with_reducible apply State.linkCmd_free h6)
    | (with_reducible apply State.put_free h3)
    | (with_reducible apply State.selOvr_free h7)
    | (with_reducible apply State.setFifo_free h2)
    | (with_reducible apply State.swTrig_free h2)
    | (with_reducible apply State.syncReach_free h3)
    | (with_reducible apply State.tcfgWritten_free h8)
    | (with_reducible apply State.wcfgWritten_free h9)
    | (with_reducible refine Free.ite (fun _ => ?_) (fun _ => ?_))

theorem State.enableSync_free {P : State → Prop} (h : Free P [.regs, .dev, .evq, .pwm, .bal, .inp, .pack, .feed, .rail, .seq, .svc, .port]) {s : State} (hs : P s) (pg : Nat) :
    P (s.enableSync pg) := by
  have h1 := h.mono (B := [.regs]) (by decide)
  have h2 := h.mono (B := [.regs, .evq, .pwm, .bal]) (by decide)
  have h3 := h.mono (B := [.regs, .evq, .feed]) (by decide)
  have h4 := h.mono (B := [.regs, .evq, .inp]) (by decide)
  have h5 := h.mono (B := [.regs, .evq]) (by decide)
  have h6 := h.mono (B := [.regs, .evq, .pack]) (by decide)
  have h7 := h.mono (B := [.regs, .evq, .port]) (by decide)
  have h8 := h.mono (B := [.regs, .dev, .evq, .rail, .seq]) (by decide)
  have h9 := h.mono (B := [.regs, .svc]) (by decide)
  unfold State.enableSync
  repeat' first
    | (with_reducible assumption)
    | (with_reducible apply State.balStand_free h1)
    | (with_reducible apply State.balStop_free h2)
    | (with_reducible apply State.feedsEnable_free h3)
    | (with_reducible apply State.feedsOff_free h3)
    | (with_reducible apply State.inpEnable_free h4)
    | (with_reducible apply State.irqSync_free h5)
    | (with_reducible apply State.packRows_free h6)
    | (with_reducible apply State.portDisable_free h7)
    | (with_reducible apply State.put_free h1)
    | (with_reducible apply State.railPageOff_free h8)
    | (with_reducible apply State.svcRun_free h9)
    | (with_reducible apply State.throttleJudge_free h5)
    | (with_reducible refine Free.ite (fun _ => ?_) (fun _ => ?_))

theorem State.blockReset_free {P : State → Prop} (h : Free P [.regs, .mem, .dev, .evq, .pwm, .adc, .cmp, .link, .bal, .hb, .inp, .pack, .feed, .rail, .seq, .svc, .port, .ring, .bus]) {s : State} (hs : P s) (pg : Nat) :
    P (s.blockReset pg) := by
  have h1 := h.mono (B := [.regs, .evq, .adc]) (by decide)
  have h2 := h.mono (B := [.regs, .evq, .pwm, .bal, .hb]) (by decide)
  have h3 := h.mono (B := [.cmp]) (by decide)
  have h4 := h.mono (B := [.regs, .evq, .port]) (by decide)
  have h5 := h.mono (B := [.regs, .evq]) (by decide)
  have h6 := h.mono (B := [.regs, .evq, .feed]) (by decide)
  have h7 := h.mono (B := [.regs, .hb]) (by decide)
  have h8 := h.mono (B := [.regs, .evq, .inp]) (by decide)
  have h9 := h.mono (B := [.regs, .evq, .link]) (by decide)
  have h10 := h.mono (B := [.regs, .evq, .bal]) (by decide)
  have h11 := h.mono (B := [.regs, .evq, .pack]) (by decide)
  have h12 := h.mono (B := [.regs, .port]) (by decide)
  have h13 := h.mono (B := [.regs]) (by decide)
  have h14 := h.mono (B := [.regs, .dev, .evq, .rail, .seq]) (by decide)
  have h15 := h.mono (B := [.mem, .ring]) (by decide)
  have h16 := h.mono (B := [.regs, .svc]) (by decide)
  unfold State.blockReset
  extract_lets
  repeat' first
    | (with_reducible assumption)
    | (with_reducible apply State.adcReset_free h1)
    | (with_reducible apply State.balFuncReset_free h2)
    | (with_reducible apply State.cmpReset_free h3)
    | (with_reducible apply State.errorRecovery_free h4)
    | (with_reducible apply State.evqFuncReset_free h5)
    | (with_reducible apply State.feedsReset_free h6)
    | (with_reducible apply State.hbReset_free h7)
    | (with_reducible apply State.healthReset_free h5)
    | (with_reducible apply State.inpReset_free h8)
    | (with_reducible apply State.linkFuncReset_free h9)
    | (with_reducible apply State.overlayCheck_free h10)
    | (with_reducible apply State.packReset_free h11)
    | (with_reducible apply State.pdFuncReset_free h12)
    | (with_reducible apply State.put_free h13)
    | (with_reducible apply State.railPageOff_free h14)
    | (with_reducible apply State.ringFuncReset_free h15)
    | (with_reducible apply State.svcStop_free h16)
    | (with_reducible refine Free.ite (fun _ => ?_) (fun _ => ?_))
    | (with_reducible refine Free.foldl _ (fun _ _ _ => ?_) ?_)
    | (with_reducible refine (h.bus (by decide) _ ?_))

theorem State.clearFR_free {P : State → Prop} (h : Free P [.regs]) {s : State} (hs : P s) (pg : Nat) :
    P (s.clearFR pg) := by
  unfold State.clearFR
  repeat' first
    | (with_reducible assumption)
    | (with_reducible refine (h.regs (by decide) _ (fun hw => Sparse.wf_filter _ _ hw) ?_))

theorem State.funcReset_free {P : State → Prop} (h : Free P [.regs, .mem, .dev, .evq, .pwm, .adc, .cmp, .link, .bal, .hb, .inp, .pack, .feed, .rail, .seq, .svc, .port, .ring, .bus]) {s : State} (hs : P s) (pg : Nat) :
    P (s.funcReset pg) := by
  have h1 := h.mono (B := [.regs]) (by decide)
  unfold State.funcReset
  extract_lets
  repeat' first
    | (with_reducible assumption)
    | (with_reducible apply State.blockReset_free h)
    | (with_reducible apply State.clearFR_free h1)
    | (with_reducible apply State.put_free h1)
    | (with_reducible refine Free.ite (fun _ => ?_) (fun _ => ?_))
    | (with_reducible refine (h.dev (by decide) _ ?_))

theorem State.headerWrite_free {P : State → Prop} (h : Free P [.regs, .mem, .dev, .evq, .fault, .pwm, .adc, .cmp, .link, .bal, .hb, .inp, .pack, .feed, .rail, .seq, .svc, .port, .ring, .bus]) {s : State} (hs : P s) (pg : Nat) (off : Nat) (v : Word) :
    P (s.headerWrite pg off v) := by
  have h1 := h.mono (B := [.cmp]) (by decide)
  have h2 := h.mono (B := [.regs, .dev, .evq, .pwm, .bal, .inp, .pack, .feed, .rail, .seq, .svc, .port]) (by decide)
  have h3 := h.mono (B := [.regs]) (by decide)
  have h4 := h.mono (B := [.regs, .mem, .dev, .evq, .pwm, .adc, .cmp, .link, .bal, .hb, .inp, .pack, .feed, .rail, .seq, .svc, .port, .ring, .bus]) (by decide)
  have h5 := h.mono (B := [.regs, .fault]) (by decide)
  have h6 := h.mono (B := [.regs, .evq]) (by decide)
  unfold State.headerWrite
  extract_lets
  repeat' first
    | (with_reducible assumption)
    | (with_reducible apply State.cmpInject_free h1)
    | (with_reducible apply State.enableSync_free h2)
    | (with_reducible apply State.errW1C_free h3)
    | (with_reducible apply State.funcReset_free h4)
    | (with_reducible apply State.injWrite_free h3)
    | (with_reducible apply State.lineInject_free h5)
    | (with_reducible apply State.put_free h3)
    | (with_reducible apply State.statusW1C_free h6)
    | (with_reducible apply State.wr_free h3)
    | (with_reducible refine Free.ite (fun _ => ?_) (fun _ => ?_))

theorem State.memWrite_free {P : State → Prop} (h : Free P [.regs, .mem, .evq, .fault, .est]) {s : State} (hs : P s) (a : Nat) (v : Word) :
    P (s.memWrite a v) := by
  have h1 := h.mono (B := [.regs, .evq, .fault, .est]) (by decide)
  have h2 := h.mono (B := [.mem]) (by decide)
  have h3 := h.mono (B := [.regs, .evq]) (by decide)
  unfold State.memWrite
  extract_lets
  repeat' first
    | (with_reducible assumption)
    | (with_reducible apply State.ocvEdit_free h1)
    | (with_reducible apply State.store_free h2)
    | (with_reducible apply State.storeEdited_free h3)
    | (with_reducible refine Free.ite (fun _ => ?_) (fun _ => ?_))

theorem State.i2ccClear_free {P : State → Prop} (h : Free P [.regs, .bus]) {s : State} (hs : P s) :
    P (s.i2ccClear) := by
  have h1 := h.mono (B := [.regs]) (by decide)
  unfold State.i2ccClear
  extract_lets
  repeat' first
    | (with_reducible assumption)
    | (with_reducible apply State.put_free h1)
    | (with_reducible refine Free.ite (fun _ => ?_) (fun _ => ?_))
    | (with_reducible refine (h.bus (by decide) _ ?_))

theorem State.i2ccGo_free {P : State → Prop} (h : Free P [.regs, .evq, .bus]) {s : State} (hs : P s) :
    P (s.i2ccGo) := by
  have h1 := h.mono (B := [.regs]) (by decide)
  have h2 := h.mono (B := [.regs, .evq]) (by decide)
  unfold State.i2ccGo
  extract_lets
  repeat' first
    | (with_reducible assumption)
    | (with_reducible apply State.put_free h1)
    | (with_reducible apply State.raise_free h2)
    | (with_reducible refine Free.ite (fun _ => ?_) (fun _ => ?_))
    | (with_reducible refine (h.bus (by decide) _ ?_))

theorem State.guardPages_free {P : State → Prop} (h : Free P Part.all) {s : State} (hs : P s) (pg : Nat) (off : Nat) (v : Word) :
    P (s.guardPages pg off v) := by
  have h1 := h.mono (B := [.regs]) (by decide)
  have h2 := h.mono (B := [.regs, .mem, .evq, .fault]) (by decide)
  have h3 := h.mono (B := [.regs, .bus]) (by decide)
  have h4 := h.mono (B := [.regs, .evq, .bus]) (by decide)
  have h5 := h.mono (B := [.regs, .evq]) (by decide)
  have h6 := h.mono (B := [.regs, .evq, .fault, .port]) (by decide)
  have h7 := h.mono (B := [.regs, .fault]) (by decide)
  have h8 := h.mono (B := [.regs, .evq, .fault, .ring]) (by decide)
  have h9 := h.mono (B := [.cellar]) (by decide)
  have h10 := h.mono (B := [.fresh]) (by decide)
  have h11 := h.mono (B := [.regs, .evq, .port]) (by decide)
  unfold State.guardPages
  extract_lets
  repeat' first
    | (with_reducible assumption)
    | (with_reducible apply State.auxModes_free h1)
    | (with_reducible apply State.countsClr_free h1)
    | (with_reducible apply State.evqDone_free h2)
    | (with_reducible apply State.i2ccClear_free h3)
    | (with_reducible apply State.i2ccGo_free h4)
    | (with_reducible apply State.irqSync_free h5)
    | (with_reducible apply State.level_free h5)
    | (with_reducible apply State.pdCmd_free h6)
    | (with_reducible apply State.put_free h1)
    | (with_reducible apply State.pwronRelease_free h5)
    | (with_reducible apply State.pwronSet_free h5)
    | (with_reducible apply State.raiseWrite_free h7)
    | (with_reducible apply State.ringCmd_free h8)
    | (with_reducible apply State.rtcCmd_free h9)
    | (with_reducible apply State.throttleJudge_free h5)
    | (with_reducible apply State.tickFresh_free h10)
    | (with_reducible apply State.typecCmd_free h11)
    | (with_reducible apply State.wdogCheckin_free h)
    | (with_reducible apply State.wdogService_free h)
    | (with_reducible apply State.wr_free h1)
    | (with_reducible refine Free.ite (fun _ => ?_) (fun _ => ?_))

theorem State.powerPages_free {P : State → Prop} (h : Free P [.regs, .evq, .bal, .pack, .feed, .svc]) {s : State} (hs : P s) (pg : Nat) (off : Nat) (v : Word) :
    P (s.powerPages pg off v) := by
  have h1 := h.mono (B := [.regs, .evq]) (by decide)
  have h2 := h.mono (B := [.regs]) (by decide)
  have h3 := h.mono (B := [.regs, .evq, .feed]) (by decide)
  have h4 := h.mono (B := [.regs, .evq, .bal]) (by decide)
  have h5 := h.mono (B := [.regs, .pack]) (by decide)
  have h6 := h.mono (B := [.regs, .svc]) (by decide)
  unfold State.powerPages
  extract_lets
  repeat' first
    | (with_reducible assumption)
    | (with_reducible apply State.busovSync_free h1)
    | (with_reducible apply State.countsClr_free h2)
    | (with_reducible apply State.feedEnable_free h3)
    | (with_reducible apply State.feedOff_free h3)
    | (with_reducible apply State.feedsCmd_free h3)
    | (with_reducible apply State.overlayCheck_free h4)
    | (with_reducible apply State.packCmd_free h5)
    | (with_reducible apply State.put_free h2)
    | (with_reducible apply State.resetLevels_free h1)
    | (with_reducible apply State.svcRun_free h6)
    | (with_reducible refine Free.ite (fun _ => ?_) (fun _ => ?_))

theorem State.toneWrite_free {P : State → Prop} (h : Free P [.regs, .mem, .evq, .est, .bal]) {s : State} (hs : P s) (n : Fin 16) :
    P (s.toneWrite n) := by
  have h1 := h.mono (B := [.regs, .evq, .bal]) (by decide)
  have h2 := h.mono (B := [.regs, .mem, .evq, .est]) (by decide)
  unfold State.toneWrite
  extract_lets
  repeat' first
    | (with_reducible assumption)
    | (with_reducible apply State.overlayEnd_free h1)
    | (with_reducible apply State.overlayRequest_free h1)
    | (with_reducible apply State.toneStart_free h2)
    | (with_reducible refine Free.ite (fun _ => ?_) (fun _ => ?_))

theorem State.storePages_free {P : State → Prop} (h : Free P Part.all) {s : State} (hs : P s) (pg : Nat) (off : Nat) (v : Word) :
    P (s.storePages pg off v) := by
  have h1 := h.mono (B := [.regs, .evq, .op]) (by decide)
  have h2 := h.mono (B := [.regs, .lamp]) (by decide)
  have h3 := h.mono (B := [.regs, .op]) (by decide)
  have h4 := h.mono (B := [.regs]) (by decide)
  have h5 := h.mono (B := [.regs, .mem, .evq, .est]) (by decide)
  have h6 := h.mono (B := [.regs, .op, .est]) (by decide)
  have h7 := h.mono (B := [.regs, .mem, .evq, .op]) (by decide)
  have h8 := h.mono (B := [.regs, .mem, .mode, .dev, .evq, .fault, .lamp, .op, .pwm, .adc, .cmp, .link, .est, .bal, .hb, .inp, .pack, .feed, .feedL, .rail, .seq, .svc]) (by decide)
  have h9 := h.mono (B := [.regs, .evq, .op, .est]) (by decide)
  have h10 := h.mono (B := [.regs, .mem, .mode, .dev, .evq, .lamp, .op, .pwm, .adc, .link, .est, .bal, .hb, .pack, .feed, .rail, .seq, .svc]) (by decide)
  have h11 := h.mono (B := [.regs, .mem, .evq, .lamp]) (by decide)
  have h12 := h.mono (B := [.regs, .evq]) (by decide)
  have h13 := h.mono (B := [.regs, .mem, .evq, .est, .bal]) (by decide)
  unfold State.storePages
  extract_lets
  repeat' first
    | (with_reducible assumption)
    | (with_reducible apply State.atticCmd_free h1)
    | (with_reducible apply State.budgetWrite_free h2)
    | (with_reducible apply State.clearStart_free h3)
    | (with_reducible apply State.countsClr_free h4)
    | (with_reducible apply State.deviceReset_free h)
    | (with_reducible apply State.fallbackDue_free h5)
    | (with_reducible apply State.flushStart_free h6)
    | (with_reducible apply State.imageCmd_free h7)
    | (with_reducible apply State.modeReq_free h8)
    | (with_reducible apply State.ocvCmd_free h9)
    | (with_reducible apply State.powerCycle_free h10)
    | (with_reducible apply State.put_free h4)
    | (with_reducible apply State.relightCmd_free h11)
    | (with_reducible apply State.restRequest_free h12)
    | (with_reducible apply State.restRequests_free h12)
    | (with_reducible apply State.toneWrite_free h13)
    | (with_reducible apply State.wr_free h4)
    | (with_reducible refine Free.ite (fun _ => ?_) (fun _ => ?_))
    | split

theorem State.blockWrite_free {P : State → Prop} (h : Free P Part.all) {s : State} (hs : P s) (pg : Nat) (off : Nat) (r : RegInfo) (v : Word) :
    P (s.blockWrite pg off r v) := by
  have h1 := h.mono (B := [.regs]) (by decide)
  have h2 := h.mono (B := [.regs, .mem, .mode, .dev, .evq, .fault, .lamp, .pwm, .link, .bal, .hb, .inp, .pack, .feed, .feedL, .rail, .seq, .svc, .ring]) (by decide)
  have h3 := h.mono (B := [.regs, .cmp]) (by decide)
  have h4 := h.mono (B := [.regs, .evq, .bal, .pack, .feed, .svc]) (by decide)
  have h5 := h.mono (B := [.regs, .evq]) (by decide)
  have h6 := h.mono (B := [.regs, .mem, .evq, .fault, .pwm, .adc, .cmp, .link, .est, .bal, .hb]) (by decide)
  have h7 := h.mono (B := [.regs, .fault, .wdog]) (by decide)
  unfold State.blockWrite
  extract_lets
  repeat' first
    | (with_reducible assumption)
    | (with_reducible apply State.classWrite_free h1)
    | (with_reducible apply State.faultClear_free h2)
    | (with_reducible apply State.guardPages_free h)
    | (with_reducible apply State.holdWrite_free h3)
    | (with_reducible apply State.powerPages_free h4)
    | (with_reducible apply State.rptrWrite_free h5)
    | (with_reducible apply State.samplePages_free h6)
    | (with_reducible apply State.storePages_free h)
    | (with_reducible apply State.wdogConfig_free h7)
    | (with_reducible apply State.wr_free h1)
    | (with_reducible refine Free.ite (fun _ => ?_) (fun _ => ?_))

theorem State.regWrite_free {P : State → Prop} (h : Free P Part.all) {s : State} (hs : P s) (m : Master) (a : Nat) (r : RegInfo) (v : Word) :
    P (s.regWrite m a r v) := by
  have h1 := h.mono (B := [.regs, .mem, .dev, .evq, .fault, .pwm, .adc, .cmp, .link, .bal, .hb, .inp, .pack, .feed, .rail, .seq, .svc, .port, .ring, .bus]) (by decide)
  have h2 := h.mono (B := [.regs]) (by decide)
  unfold State.regWrite
  extract_lets
  repeat' first
    | (with_reducible assumption)
    | (with_reducible apply State.blockWrite_free h)
    | (with_reducible apply State.headerWrite_free h1)
    | (with_reducible apply State.noteWrite_free h2)
    | (with_reducible refine Free.ite (fun _ => ?_) (fun _ => ?_))

theorem State.writeWord_free {P : State → Prop} (h : Free P Part.all) {s : State} (hs : P s) (m : Master) (a : Nat) (v : Word) :
    P (s.writeWord m a v) := by
  have h1 := h.mono (B := [.regs, .mem, .evq, .fault, .est]) (by decide)
  have h2 := h.mono (B := [.regs, .evq]) (by decide)
  unfold State.writeWord
  repeat' first
    | (with_reducible assumption)
    | (with_reducible apply State.memWrite_free h1)
    | (with_reducible apply State.raise_free h2)
    | (with_reducible apply State.regWrite_free h)
    | (with_reducible apply State.unmapped_free h2)
    | (with_reducible refine Free.ite (fun _ => ?_) (fun _ => ?_))
    | split

theorem State.readEach_free {P : State → Prop} (h : Free P [.regs, .fresh, .evq, .fault, .cellar, .adc]) {s : State} (hs : P s) (m : Master) (a : Nat) (x3 : Nat) :
    P (s.readEach m a x3).2 := by
  induction x3 generalizing s a with
  | zero => exact hs
  | succ n ih => exact ih (State.readWord_free h hs m a) (a + 4)

theorem State.readSame_free {P : State → Prop} (h : Free P [.regs, .fresh, .evq, .fault, .cellar, .adc]) {s : State} (hs : P s) (m : Master) (a : Nat) (x3 : Nat) :
    P (s.readSame m a x3).2 := by
  induction x3 generalizing s a with
  | zero => exact hs
  | succ n ih => exact ih (State.readWord_free h hs m a) a

theorem State.readWords_free {P : State → Prop} (h : Free P [.regs, .fresh, .evq, .fault, .cellar, .adc]) {s : State} (hs : P s) (m : Master) (a : Nat) (n : Nat) :
    P (s.readWords m a n).2 := by
  unfold State.readWords
  extract_lets
  repeat' first
    | (with_reducible assumption)
    | (with_reducible apply State.readEach_free h)
    | (with_reducible apply State.readSame_free h)
    | split

theorem State.writeWords_free {P : State → Prop} (h : Free P Part.all) {s : State} (hs : P s) (m : Master) (a : Nat) (x3 : List Word) :
    P (s.writeWords m a x3).1 := by
  induction x3 generalizing s a with
  | nil => exact hs
  | cons v t ih =>
    have e : P (s.writeWord m a v) := State.writeWord_free h hs m a v
    unfold State.writeWords
    dsimp only
    split
    · exact e
    · exact ih e (a + 4)

theorem State.parityScan_free {P : State → Prop} (h : Free P [.regs, .fault]) {s : State} (hs : P s) :
    P (s.parityScan) := by
  have h1 := h.mono (B := [.regs]) (by decide)
  unfold State.parityScan
  repeat' first
    | (with_reducible assumption)
    | (with_reducible apply State.errI_free h)
    | (with_reducible apply State.wr_free h1)
    | (with_reducible refine Free.ite (fun _ => ?_) (fun _ => ?_))
    | (with_reducible refine Free.foldl _ (fun _ _ _ => ?_) ?_)

theorem State.funcResetDone_free {P : State → Prop} (h : Free P [.regs, .dev, .evq, .pwm, .bal, .inp, .pack, .feed, .rail, .seq, .svc, .port]) {s : State} (hs : P s) (pg : Nat) :
    P (s.funcResetDone pg) := by
  have h1 := h.mono (B := [.regs]) (by decide)
  unfold State.funcResetDone
  extract_lets
  repeat' first
    | (with_reducible assumption)
    | (with_reducible apply State.adcResetDone_free h1)
    | (with_reducible apply State.enableSync_free h)
    | (with_reducible apply State.put_free h1)
    | (with_reducible refine Free.ite (fun _ => ?_) (fun _ => ?_))
    | (with_reducible refine (h.dev (by decide) _ ?_))

end Sys2Proof.Machine
end

