-- ==== Sys2Proof/Laws/StableRingFrames.lean ====
section
/-! SUPPORT. Which parts of the state the operations of Machine/RingFrames.lean may change: a property that stands whatever becomes of those
parts stands after the operation. -/

namespace Sys2Proof.Machine

theorem State.frameOn_free {P : State → Prop} (h : Free P [.ring]) {s : State} (hs : P s) (w : Bool) (f : RingFrame) (eofb : Bool) :
    P (s.frameOn w f eofb) := by
  unfold State.frameOn
  repeat' first
    | (with_reducible assumption)
    | (with_reducible apply State.emit_free h)
    | (with_reducible refine Free.ite (fun _ => ?_) (fun _ => ?_))

theorem State.respond_free {P : State → Prop} (h : Free P [.regs, .evq, .ring]) {s : State} (hs : P s) (f : RingFrame) (outcome : Nat) (words : List Nat) :
    P (s.respond f outcome words) := by
  unfold State.respond
  extract_lets
  repeat' first
    | (with_reducible assumption)
    | (with_reducible apply State.ringQueue_free h)

theorem State.frameServe_free {P : State → Prop} (h : Free P Part.all) {s : State} (hs : P s) (f : RingFrame) :
    P (s.frameServe f) := by
  have h1 := h.mono (B := [.regs, .fresh, .evq, .fault, .cellar, .adc]) (by decide)
  have h2 := h.mono (B := [.regs, .evq, .ring]) (by decide)
  unfold State.frameServe
  extract_lets
  repeat' first
    | (with_reducible assumption)
    | (with_reducible apply State.readWords_free h1)
    | (with_reducible apply State.respond_free h2)
    | (with_reducible apply State.writeWords_free h)
    | (with_reducible refine Free.ite (fun _ => ?_) (fun _ => ?_))

theorem State.frameAct_free {P : State → Prop} (h : Free P Part.all) {s : State} (hs : P s) (w : Bool) (f : RingFrame) (ns : Nat) :
    P (s.frameAct w f ns) := by
  have h1 := h.mono (B := [.regs, .evq, .fault]) (by decide)
  have h2 := h.mono (B := [.regs, .evq, .fault, .lamp, .ring]) (by decide)
  have h3 := h.mono (B := [.regs, .mem, .evq, .ring]) (by decide)
  have h4 := h.mono (B := [.mem]) (by decide)
  unfold State.frameAct
  repeat' first
    | (with_reducible assumption)
    | (with_reducible apply State.breakAt_free h1)
    | (with_reducible apply State.epochTake_free h2)
    | (with_reducible apply State.frameServe_free h)
    | (with_reducible apply State.respRx_free h3)
    | (with_reducible apply State.summaryStore_free h4)
    | (with_reducible refine Free.ite (fun _ => ?_) (fun _ => ?_))
    | split

theorem State.frameBack_free {P : State → Prop} (h : Free P [.regs, .mem, .evq, .fault, .ring]) {s : State} (hs : P s) (w : Bool) (f : RingFrame) (good : Bool) :
    P (s.frameBack w f good) := by
  have h1 := h.mono (B := [.regs, .evq, .fault, .ring]) (by decide)
  have h2 := h.mono (B := [.mem, .ring]) (by decide)
  unfold State.frameBack
  repeat' first
    | (with_reducible assumption)
    | (with_reducible apply State.enumBack_free h1)
    | (with_reducible apply State.readBack_free h2)
    | (with_reducible refine Free.ite (fun _ => ?_) (fun _ => ?_))

theorem State.frameRx_free {P : State → Prop} (h : Free P Part.all) {s : State} (hs : P s) (w : Bool) (f : RingFrame) (crc : Nat) (eofb : Bool) (ns : Nat) (res : Nat) :
    P (s.frameRx w f crc eofb ns res) := by
  have h1 := h.mono (B := [.regs, .ring]) (by decide)
  have h2 := h.mono (B := [.regs, .mem, .evq, .fault, .ring]) (by decide)
  have h3 := h.mono (B := [.ring]) (by decide)
  have h4 := h.mono (B := [.regs]) (by decide)
  have h5 := h.mono (B := [.regs, .evq]) (by decide)
  have h6 := h.mono (B := [.regs, .evq, .fault, .ring]) (by decide)
  unfold State.frameRx
  extract_lets
  repeat' first
    | (with_reducible assumption)
    | (with_reducible apply State.enumRx_free h1)
    | (with_reducible apply State.frameAct_free h)
    | (with_reducible apply State.frameBack_free h2)
    | (with_reducible apply State.frameOn_free h3)
    | (with_reducible apply State.injTake_free h4)
    | (with_reducible apply State.put_free h4)
    | (with_reducible apply State.raise_free h5)
    | (with_reducible apply State.ringEnumEnd_free h6)
    | (with_reducible refine Free.ite (fun _ => ?_) (fun _ => ?_))

theorem State.ringSlot_free {P : State → Prop} (h : Free P Part.all) {s : State} (hs : P s) (k : Nat) :
    P (s.ringSlot k) := by
  have h1 := h.mono (B := [.regs, .fresh, .evq, .fault, .cellar, .adc]) (by decide)
  have h2 := h.mono (B := [.mem]) (by decide)
  have h3 := h.mono (B := [.regs, .mem, .evq, .ring]) (by decide)
  unfold State.ringSlot
  extract_lets
  repeat' first
    | (with_reducible assumption)
    | (with_reducible apply State.readWords_free h1)
    | (with_reducible apply State.ringReport_free h2)
    | (with_reducible apply State.ringTemplate_free h3)
    | (with_reducible apply State.store_free h2)
    | (with_reducible apply State.writeWords_free h)
    | (with_reducible refine Free.ite (fun _ => ?_) (fun _ => ?_))
    | (with_reducible refine Free.foldl_fst _ (fun _ _ _ => ?_) ?_)
    | split
    | dsimp +zetaDelta only
    | (with_reducible refine (h.ring (by decide) _ ?_))

theorem State.ringDrain_free {P : State → Prop} (h : Free P Part.all) {s : State} (hs : P s) :
    P (s.ringDrain) := by
  have h1 := h.mono (B := [.mem, .ring]) (by decide)
  unfold State.ringDrain
  extract_lets
  repeat' first
    | (with_reducible assumption)
    | (with_reducible apply State.ringSend_free h1)
    | (with_reducible apply State.writeWords_free h)
    | (with_reducible refine Free.ite (fun _ => ?_) (fun _ => ?_))
    | split
    | (with_reducible refine (h.ring (by decide) _ ?_))

end Sys2Proof.Machine
end

