-- ==== Sys2Proof/Laws/StableRise.lean ====
section
/-! SUPPORT. Which parts of the state the operations of Machine/Rise.lean may change: a property that stands whatever becomes of those
parts stands after the operation. -/

namespace Sys2Proof.Machine

theorem State.feedsRise_free {P : State → Prop} (h : Free P [.regs, .evq, .feed, .feedL]) {s : State} (hs : P s) :
    P (s.feedsRise) := by
  have h1 := h.mono (B := [.regs, .evq, .feed]) (by decide)
  have h2 := h.mono (B := [.regs, .feedL]) (by decide)
  have h3 := h.mono (B := [.feed]) (by decide)
  unfold State.feedsRise
  extract_lets
  repeat' first
    | (with_reducible assumption)
    | (with_reducible apply State.feedsEnable_free h1)
    | (with_reducible apply State.feedsEnter_free h1)
    | (with_reducible apply State.feedsLevel0_free h2)
    | (with_reducible apply State.setFd_free h3)
    | (with_reducible refine Free.ite (fun _ => ?_) (fun _ => ?_))
    | (with_reducible refine Free.foldl _ (fun _ _ _ => ?_) ?_)

theorem State.riseEnd_free {P : State → Prop} (h : Free P [.regs, .mem, .mode, .evq, .fault, .lamp, .wdog, .adc, .feed, .feedL, .svc, .ring]) {s : State} (hs : P s) :
    P (s.riseEnd) := by
  have h1 := h.mono (B := [.regs, .mem, .evq, .adc]) (by decide)
  have h2 := h.mono (B := [.regs, .evq]) (by decide)
  have h3 := h.mono (B := [.regs, .evq, .feed, .feedL]) (by decide)
  have h4 := h.mono (B := [.regs, .evq, .fault, .ring]) (by decide)
  have h5 := h.mono (B := [.regs, .mode, .evq, .lamp]) (by decide)
  have h6 := h.mono (B := [.regs, .svc]) (by decide)
  have h7 := h.mono (B := [.ring]) (by decide)
  have h8 := h.mono (B := [.wdog]) (by decide)
  unfold State.riseEnd
  repeat' first
    | (with_reducible assumption)
    | (with_reducible apply State.clearResults_free h1)
    | (with_reducible apply State.evqRelease_free h2)
    | (with_reducible apply State.feedsRise_free h3)
    | (with_reducible apply State.lossSeen_free h2)
    | (with_reducible apply State.raise_free h2)
    | (with_reducible apply State.ringEnumerate_free h4)
    | (with_reducible apply State.setMode_free h5)
    | (with_reducible apply State.svcRun_free h6)
    | (with_reducible apply State.wakeBurst_free h7)
    | (with_reducible apply State.wdogWindow_free h8)
    | (with_reducible refine Free.ite (fun _ => ?_) (fun _ => ?_))
    | split

theorem State.railListApply_free {P : State → Prop} (h : Free P Part.all) {s : State} (hs : P s) :
    P (s.railListApply) := by
  have h1 := h.mono (B := [.regs, .fault]) (by decide)
  have h2 := h.mono (B := [.regs]) (by decide)
  unfold State.railListApply
  extract_lets
  repeat' first
    | (with_reducible assumption)
    | (with_reducible apply State.errI_free h1)
    | (with_reducible apply State.injTake_free h2)
    | (with_reducible apply State.writeWord_free h)
    | (with_reducible refine Free.ite (fun _ => ?_) (fun _ => ?_))
    | (with_reducible refine Free.foldl _ (fun _ _ _ => ?_) ?_)

theorem State.resetDone_free {P : State → Prop} (h : Free P Part.all) {s : State} (hs : P s) (addr : Nat) (head : Bool) (img : Bool) (verifyBad : Bool) (readBad : Bool) :
    P (s.resetDone addr head img verifyBad readBad) := by
  have h1 := h.mono (B := [.regs, .mem, .evq, .fault]) (by decide)
  have h2 := h.mono (B := [.regs, .fault]) (by decide)
  have h3 := h.mono (B := [.regs]) (by decide)
  have h4 := h.mono (B := [.mem]) (by decide)
  have h5 := h.mono (B := [.regs, .mem, .fault]) (by decide)
  have h6 := h.mono (B := [.regs, .evq, .rail, .seq]) (by decide)
  unfold State.resetDone
  extract_lets
  repeat' first
    | (with_reducible assumption)
    | (with_reducible apply State.journalReplay_free h1)
    | (with_reducible apply State.policyLoad_free h2)
    | (with_reducible apply State.put_free h3)
    | (with_reducible apply State.railListApply_free h)
    | (with_reducible apply State.recBump_free h4)
    | (with_reducible apply State.recCheck_free h5)
    | (with_reducible apply State.seqRise_free h6)
    | (with_reducible apply State.showBank_free h3)
    | (with_reducible refine Free.ite (fun _ => ?_) (fun _ => ?_))
    | (with_reducible refine (h.dev (by decide) _ ?_))

theorem State.biasChange_free {P : State → Prop} (h : Free P [.dev]) {s : State} (hs : P s) (mask : Nat) :
    P (s.biasChange mask) := by
  unfold State.biasChange
  repeat' first
    | (with_reducible assumption)
    | (with_reducible apply State.biasMask_free h)
    | (with_reducible refine Free.ite (fun _ => ?_) (fun _ => ?_))

theorem State.wakeAccount_free {P : State → Prop} (h : Free P [.regs, .mem, .evq, .est]) {s : State} (hs : P s) :
    P (s.wakeAccount) := by
  have h1 := h.mono (B := [.regs, .evq]) (by decide)
  have h2 := h.mono (B := [.est]) (by decide)
  have h3 := h.mono (B := [.mem]) (by decide)
  have h4 := h.mono (B := [.regs]) (by decide)
  unfold State.wakeAccount
  extract_lets
  repeat' first
    | (with_reducible assumption)
    | (with_reducible apply State.raise_free h1)
    | (with_reducible apply State.setEs_free h2)
    | (with_reducible apply State.setStrFlag_free h3)
    | (with_reducible apply State.store_free h3)
    | (with_reducible apply State.wr_free h4)
    | (with_reducible refine Free.ite (fun _ => ?_) (fun _ => ?_))
    | (with_reducible refine Free.foldl _ (fun _ _ _ => ?_) ?_)

theorem State.enumerateAll_free {P : State → Prop} (h : Free P [.regs, .mem, .dev, .evq, .link]) {s : State} (hs : P s) :
    P (s.enumerateAll) := by
  have h1 := h.mono (B := [.regs, .mem, .evq, .link]) (by decide)
  have h2 := h.mono (B := [.regs]) (by decide)
  unfold State.enumerateAll
  extract_lets
  repeat' first
    | (with_reducible assumption)
    | (with_reducible apply State.enumBegin_free h1)
    | (with_reducible apply State.longStart_free h2)
    | (with_reducible refine Free.ite (fun _ => ?_) (fun _ => ?_))
    | (with_reducible refine Free.foldl _ (fun _ _ _ => ?_) ?_)
    | (with_reducible refine (h.dev (by decide) _ ?_))

theorem State.holdEnd_free {P : State → Prop} (h : Free P [.regs, .evq, .seq]) {s : State} (hs : P s) :
    P (s.holdEnd) := by
  unfold State.holdEnd
  repeat' first
    | (with_reducible assumption)
    | (with_reducible apply State.seqHoldEnd_free h)

theorem State.pllLock_free {P : State → Prop} (h : Free P [.regs, .mem, .dev, .evq, .fault, .est, .inp, .ring, .bus]) {s : State} (hs : P s) (ext : Bool) :
    P (s.pllLock ext) := by
  have h1 := h.mono (B := [.regs]) (by decide)
  have h2 := h.mono (B := [.mem]) (by decide)
  have h3 := h.mono (B := [.regs, .evq]) (by decide)
  have h4 := h.mono (B := [.regs, .evq, .inp]) (by decide)
  have h5 := h.mono (B := [.regs, .fault, .est]) (by decide)
  have h6 := h.mono (B := [.regs, .mem, .evq]) (by decide)
  have h7 := h.mono (B := [.regs, .mem, .fault]) (by decide)
  have h8 := h.mono (B := [.regs, .ring]) (by decide)
  have h9 := h.mono (B := [.regs, .mem, .evq, .fault, .est]) (by decide)
  unfold State.pllLock
  extract_lets
  repeat' first
    | (with_reducible assumption)
    | (with_reducible apply State.calStartBegin_free h1)
    | (with_reducible apply State.clearHealthArea_free h2)
    | (with_reducible apply State.evqEmpty_free h3)
    | (with_reducible apply State.inpLock_free h4)
    | (with_reducible apply State.lifeCheck_free h5)
    | (with_reducible apply State.logCheck_free h6)
    | (with_reducible apply State.ocvRise_free h7)
    | (with_reducible apply State.packRecCheck_free h2)
    | (with_reducible apply State.ringRise_free h8)
    | (with_reducible apply State.scrub_free h9)
    | (with_reducible refine Free.ite (fun _ => ?_) (fun _ => ?_))
    | (with_reducible refine (h.dev_bus (by decide) (by decide) _ _ ?_))

theorem State.vhbRise_free {P : State → Prop} (h : Free P Part.all) {s : State} (hs : P s) :
    P (s.vhbRise) := by
  have h1 := h.mono (B := [.regs, .evq, .seq]) (by decide)
  unfold State.vhbRise
  extract_lets
  repeat' first
    | (with_reducible assumption)
    | (with_reducible apply State.holdEnd_free h1)
    | (with_reducible apply State.seqOnRequest_free h1)
    | (with_reducible apply State.wakeRequest_free h)
    | (with_reducible refine Free.ite (fun _ => ?_) (fun _ => ?_))
    | (with_reducible refine (h.dev (by decide) _ ?_))

theorem State.vhbLow_free {P : State → Prop} (h : Free P [.regs, .mem, .mode, .dev, .evq, .lamp, .op, .pwm, .adc, .link, .est, .bal, .hb, .pack, .feed, .rail, .seq, .svc]) {s : State} (hs : P s) :
    P (s.vhbLow) := by
  have h1 := h.mono (B := [.regs, .evq]) (by decide)
  unfold State.vhbLow
  extract_lets
  repeat' first
    | (with_reducible assumption)
    | (with_reducible apply State.offRequest_free h)
    | (with_reducible apply State.raise_free h1)
    | (with_reducible refine Free.ite (fun _ => ?_) (fun _ => ?_))
    | (with_reducible refine (h.dev (by decide) _ ?_))
    | (with_reducible refine (h.seq (by decide) _ ?_))

theorem State.biasLost_free {P : State → Prop} (h : Free P Part.all) {s : State} (hs : P s) (mask : Nat) :
    P (s.biasLost mask) := by
  have h1 := h.mono (B := [.dev]) (by decide)
  have h2 := h.mono (B := [.fresh]) (by decide)
  unfold State.biasLost
  extract_lets
  repeat' first
    | (with_reducible assumption)
    | (with_reducible apply State.biasMask_free h1)
    | (with_reducible apply State.deviceReset_free h)
    | (with_reducible apply State.enterCellar_free h)
    | (with_reducible apply State.tickFresh_free h2)
    | (with_reducible refine Free.ite (fun _ => ?_) (fun _ => ?_))

theorem State.preloadBank_free {P : State → Prop} (h : Free P Part.all) {s : State} (hs : P s) (bank : Nat) :
    P (s.preloadBank bank) := by
  unfold State.preloadBank
  extract_lets
  repeat' first
    | (with_reducible assumption)
    | (with_reducible apply State.writeWord_free h)
    | (with_reducible refine Free.foldl _ (fun _ _ _ => ?_) ?_)

theorem State.preloadApply_free {P : State → Prop} (h : Free P Part.all) {s : State} (hs : P s) :
    P (s.preloadApply) := by
  have h1 := h.mono (B := [.regs, .mem, .dev, .evq, .link]) (by decide)
  unfold State.preloadApply
  extract_lets
  repeat' first
    | (with_reducible assumption)
    | (with_reducible apply State.enumerateAll_free h1)
    | (with_reducible apply State.preloadBank_free h)
    | (with_reducible refine Free.ite (fun _ => ?_) (fun _ => ?_))
    | (with_reducible refine (h.dev (by decide) _ ?_))
    | (with_reducible refine (h.lamp (by decide) _ ?_))

theorem State.biasGood_free {P : State → Prop} (h : Free P Part.all) {s : State} (hs : P s) (mask : Nat) :
    P (s.biasGood mask) := by
  have h1 := h.mono (B := [.dev]) (by decide)
  unfold State.biasGood
  repeat' first
    | (with_reducible assumption)
    | (with_reducible apply State.biasMask_free h1)
    | (with_reducible apply State.riseFromCellar_free h)
    | (with_reducible refine Free.ite (fun _ => ?_) (fun _ => ?_))

theorem State.calStart_free {P : State → Prop} (h : Free P [.regs, .dev, .evq, .fault, .adc]) {s : State} (hs : P s) (res : Fin 4 → List CalMeas) :
    P (s.calStart res) := by
  have h1 := h.mono (B := [.regs, .evq, .fault, .adc]) (by decide)
  have h2 := h.mono (B := [.regs, .evq, .adc]) (by decide)
  unfold State.calStart
  extract_lets
  repeat' first
    | (with_reducible assumption)
    | (with_reducible apply State.calStartBank_free h1)
    | (with_reducible apply State.sweepBegin_free h2)
    | (with_reducible refine Free.ite (fun _ => ?_) (fun _ => ?_))
    | (with_reducible refine Free.foldl _ (fun _ _ _ => ?_) ?_)
    | (with_reducible refine (h.dev (by decide) _ ?_))

theorem State.imageRise_free {P : State → Prop} (h : Free P [.regs, .mem, .dev, .evq, .fault, .lamp, .adc]) {s : State} (hs : P s) (bad : Nat → Bool) :
    P (s.imageRise bad) := by
  have h1 := h.mono (B := [.regs, .mem, .evq, .fault, .lamp, .adc]) (by decide)
  unfold State.imageRise
  extract_lets
  repeat' first
    | (with_reducible assumption)
    | (with_reducible apply State.selectImage_free h1)
    | (with_reducible refine Free.ite (fun _ => ?_) (fun _ => ?_))
    | (with_reducible refine (h.dev (by decide) _ ?_))

theorem State.cellarPowerOn_free {P : State → Prop} (h : Free P Part.all) {s : State} (hs : P s) :
    P (s.cellarPowerOn) := by
  refine @Free.all P s h _ rfl (fun _ => Sparse.wf_nil _) (fun hw => ?_) hs
  refine Sparse.wf_append _ _ (Sparse.wf_filter _ _ hw) (by decide) ?_
  intro x hx y hy
  have hx2 := (List.mem_filter.1 hx).2
  have hy2 : 0x300000 ≤ y.1 := by
    revert y
    decide
  simp only [Bool.and_eq_true, decide_eq_true_eq] at hx2
  omega

end Sys2Proof.Machine
end

