-- ==== Sys2Proof/Laws/StableEvents.lean ====
section
/-! SUPPORT. Which parts of the state the operations of Machine/Events.lean may change: a property that stands whatever becomes of those
parts stands after the operation. -/

namespace Sys2Proof.Machine

theorem State.hostAct_free {P : State → Prop} (h : Free P [.regs]) {s : State} (hs : P s) (m : Master) (pg : Nat) (f : State → State) (hf : ∀ t, P t → P (f t)) :
    P (s.hostAct m pg f) := by
  unfold State.hostAct
  repeat' first
    | (with_reducible assumption)
    | (with_reducible apply State.noteWrite_free h)
    | (with_reducible refine Free.ite (fun _ => ?_) (fun _ => ?_))
    | (with_reducible apply hf)

theorem State.guardMarker_free {P : State → Prop} (h : Free P [.regs, .evq, .lamp]) {s : State} (hs : P s) :
    P (s.guardMarker) := by
  have h1 := h.mono (B := [.lamp]) (by decide)
  unfold State.guardMarker
  repeat' first
    | (with_reducible assumption)
    | (with_reducible apply State.laneMarker_free h)
    | (with_reducible apply State.laneStart_free h1)
    | (with_reducible refine Free.ite (fun _ => ?_) (fun _ => ?_))

theorem State.testPin_free {P : State → Prop} (h : Free P Part.all) {s : State} (hs : P s) (high : Bool) :
    P (s.testPin high) := by
  have h1 := h.mono (B := [.fresh]) (by decide)
  unfold State.testPin
  extract_lets
  repeat' first
    | (with_reducible assumption)
    | (with_reducible apply State.deviceReset_free h)
    | (with_reducible apply State.tickFresh_free h1)
    | (with_reducible refine Free.ite (fun _ => ?_) (fun _ => ?_))
    | (with_reducible refine (h.dev (by decide) _ ?_))

theorem State.through_free {P : State → Prop} (_ : Free P []) {s : State} (hs : P s) (bank : Nat) (f : State → State)
    (hf : ∀ t, P t → P (f t)) : P (s.through bank f) := by
  unfold State.through
  split
  · exact hs
  · exact hf s hs

theorem State.cellReading_free {P : State → Prop} (h : Free P [.regs, .evq]) {s : State} (hs : P s) (g : Nat) (code : Nat) :
    P (s.cellReading g code) := by
  have h1 := h.mono (B := [.regs]) (by decide)
  unfold State.cellReading
  extract_lets
  repeat' first
    | (with_reducible assumption)
    | (with_reducible apply State.level_free h)
    | (with_reducible apply State.put_free h1)

theorem State.unitInput_free {P : State → Prop} (h : Free P [.regs, .evq, .bal, .pack, .rail, .seq, .svc]) {s : State} (hs : P s) (unit : Nat) (din : Nat) (code : Nat) :
    P (s.unitInput unit din code) := by
  have h1 := h.mono (B := [.regs, .evq, .bal]) (by decide)
  have h2 := h.mono (B := [.regs, .rail, .seq]) (by decide)
  have h3 := h.mono (B := [.regs, .evq, .bal, .pack]) (by decide)
  have h4 := h.mono (B := [.regs, .evq, .bal, .svc]) (by decide)
  unfold State.unitInput
  repeat' first
    | (with_reducible assumption)
    | (with_reducible apply State.balInput_free h1)
    | (with_reducible apply State.ibcInput_free h2)
    | (with_reducible apply State.packInput_free h3)
    | (with_reducible apply State.svcInput_free h4)
    | (with_reducible refine Free.ite (fun _ => ?_) (fun _ => ?_))

theorem State.unitResult_free {P : State → Prop} (h : Free P [.regs, .mem, .evq, .fault, .pwm, .link, .bal, .hb, .pack, .rail, .seq, .svc]) {s : State} (hs : P s) (unit : Nat) (din : Nat) (c : Nat) (ago : Nat) :
    P (s.unitResult unit din c ago) := by
  have h1 := h.mono (B := [.regs, .mem, .evq, .fault, .pwm, .link, .bal, .hb]) (by decide)
  have h2 := h.mono (B := [.regs, .mem, .evq, .fault, .link, .bal, .hb]) (by decide)
  have h3 := h.mono (B := [.regs, .evq, .bal, .pack, .rail, .seq, .svc]) (by decide)
  unfold State.unitResult
  extract_lets
  repeat' first
    | (with_reducible assumption)
    | (with_reducible apply State.afterLink_free h1)
    | (with_reducible apply State.selVerify_free h2)
    | (with_reducible apply State.unitInput_free h3)
    | (with_reducible refine Free.ite (fun _ => ?_) (fun _ => ?_))

theorem State.converted_free {P : State → Prop} (h : Free P [.regs, .mem, .evq, .fault, .pwm, .adc, .link, .bal, .hb, .pack, .rail, .seq, .svc]) {s : State} (hs : P s) (b : Fin 4) (e : Nat) (uv : Int) (ago : Nat) (onReleased : Bool) :
    P (s.converted b e uv ago onReleased) := by
  have h1 := h.mono (B := [.regs, .evq]) (by decide)
  have h2 := h.mono (B := [.regs, .mem, .evq, .fault, .adc]) (by decide)
  have h3 := h.mono (B := [.regs, .mem, .evq, .fault, .pwm, .link, .bal, .hb, .pack, .rail, .seq, .svc]) (by decide)
  unfold State.converted
  repeat' first
    | (with_reducible assumption)
    | (with_reducible apply State.cellReading_free h1)
    | (with_reducible apply State.deliver_free h2)
    | (with_reducible apply State.raiseIf_free h1)
    | (with_reducible apply State.unitResult_free h3)
    | (with_reducible refine Free.ite (fun _ => ?_) (fun _ => ?_))
    | split

theorem State.offExpire_free {P : State → Prop} (h : Free P Part.all) {s : State} (hs : P s) :
    P (s.offExpire) := by
  unfold State.offExpire
  extract_lets
  repeat' first
    | (with_reducible assumption)
    | (with_reducible apply State.riseFromCellar_free h)
    | (with_reducible refine Free.ite (fun _ => ?_) (fun _ => ?_))
    | (with_reducible refine (h.dev (by decide) _ ?_))

theorem State.frameBoundary_free {P : State → Prop} (h : Free P [.regs, .mem, .mode, .dev, .evq, .lamp, .pwm, .link, .est, .bal, .hb, .pack, .feed, .feedL, .svc, .ring]) {s : State} (hs : P s) :
    P (s.frameBoundary) := by
  have h1 := h.mono (B := [.regs, .evq, .lamp]) (by decide)
  have h2 := h.mono (B := [.regs, .mem, .mode, .dev, .evq, .lamp, .pwm, .link, .bal, .hb, .pack, .feed, .feedL, .svc]) (by decide)
  have h3 := h.mono (B := [.mem, .pack]) (by decide)
  have h4 := h.mono (B := [.regs, .evq]) (by decide)
  have h5 := h.mono (B := [.regs, .mem, .evq, .est]) (by decide)
  unfold State.frameBoundary
  extract_lets
  repeat' first
    | (with_reducible assumption)
    | (with_reducible apply State.frameBegin_free h1)
    | (with_reducible apply State.frameRelight_free h2)
    | (with_reducible apply State.packFrame_free h3)
    | (with_reducible apply State.restRequests_free h4)
    | (with_reducible apply State.wakeAccount_free h5)
    | (with_reducible refine Free.ite (fun _ => ?_) (fun _ => ?_))
    | (with_reducible refine (h.ring (by decide) _ ?_))

theorem State.hostRead_free {P : State → Prop} (h : Free P [.regs, .fresh, .answer, .evq, .fault, .cellar, .adc]) {s : State} (hs : P s) (m : Master) (a : Nat) (n : Nat) :
    P (s.hostRead m a n) := by
  have h1 := h.mono (B := [.regs, .fresh, .evq, .fault, .cellar, .adc]) (by decide)
  have h2 := h.mono (B := [.answer]) (by decide)
  unfold State.hostRead
  extract_lets
  repeat' first
    | (with_reducible assumption)
    | (with_reducible apply State.readWords_free h1)
    | (with_reducible apply State.reply_free h2)
    | (with_reducible refine Free.ite (fun _ => ?_) (fun _ => ?_))

theorem State.hostWrite_free {P : State → Prop} (h : Free P Part.all) {s : State} (hs : P s) (m : Master) (a : Nat) (v : Word) :
    P (s.hostWrite m a v) := by
  unfold State.hostWrite
  repeat' first
    | (with_reducible assumption)
    | (with_reducible apply State.writeWord_free h)
    | (with_reducible refine Free.ite (fun _ => ?_) (fun _ => ?_))

theorem State.hostAccessWord_free {P : State → Prop} (h : Free P Part.all) {s : State} (hs : P s) (m : Master) (a : Nat) (w : Option Word) :
    P (s.hostAccessWord m a w) := by
  have h1 := h.mono (B := [.regs, .fresh, .answer, .evq, .fault, .cellar, .adc]) (by decide)
  unfold State.hostAccessWord
  repeat' first
    | (with_reducible assumption)
    | (with_reducible apply State.hostRead_free h1)
    | (with_reducible apply State.hostWrite_free h)
    | split

theorem State.countCycles_free {P : State → Prop} (h : Free P [.regs]) {s : State} (hs : P s) :
    P (s.countCycles) := by
  unfold State.countCycles
  repeat' first
    | (with_reducible assumption)
    | (with_reducible apply State.put_free h)
    | (with_reducible refine Free.foldl _ (fun _ _ _ => ?_) ?_)

theorem State.cycleMarker_free {P : State → Prop} (h : Free P [.regs, .mem, .evq, .fault, .lamp, .adc, .bal, .hb, .inp, .pack, .feed]) {s : State} (hs : P s) (settled : Bool) (inLimit : Bool) (fets : List FetSense) :
    P (s.cycleMarker settled inLimit fets) := by
  have h1 := h.mono (B := [.regs]) (by decide)
  have h2 := h.mono (B := [.regs, .lamp]) (by decide)
  have h3 := h.mono (B := [.regs, .feed]) (by decide)
  have h4 := h.mono (B := [.regs, .evq, .fault, .inp]) (by decide)
  have h5 := h.mono (B := [.regs, .mem, .evq, .lamp, .adc, .bal, .hb, .inp, .pack]) (by decide)
  have h6 := h.mono (B := [.regs, .evq, .bal]) (by decide)
  have h7 := h.mono (B := [.regs, .mem, .evq, .pack]) (by decide)
  have h8 := h.mono (B := [.regs, .evq, .inp, .pack]) (by decide)
  unfold State.cycleMarker
  extract_lets
  repeat' first
    | (with_reducible assumption)
    | (with_reducible apply State.countCycles_free h1)
    | (with_reducible apply State.cyclePosition_free h2)
    | (with_reducible apply State.feedMonitors_free h3)
    | (with_reducible apply State.inpMarker_free h4)
    | (with_reducible apply State.lampMarker_free h5)
    | (with_reducible apply State.overlayMarker_free h6)
    | (with_reducible apply State.packMarker_free h7)
    | (with_reducible apply State.rideMarker_free h8)
    | (with_reducible refine Free.ite (fun _ => ?_) (fun _ => ?_))
    | (with_reducible refine Free.foldl _ (fun _ _ _ => ?_) ?_)
    | (with_reducible refine (h.lamp (by decide) _ ?_))

theorem State.settle_free {P : State → Prop} (h : Free P [.regs, .mem, .mode, .dev, .evq, .fault, .lamp, .op, .adc, .link, .est, .feed, .rail, .seq, .svc, .port, .ring]) {s : State} (hs : P s) :
    P (s.settle) := by
  have h1 := h.mono (B := [.regs, .mem, .dev, .evq, .link]) (by decide)
  have h2 := h.mono (B := [.regs, .op, .est]) (by decide)
  have h3 := h.mono (B := [.regs, .evq, .fault, .port]) (by decide)
  have h4 := h.mono (B := [.regs, .evq, .fault, .ring]) (by decide)
  have h5 := h.mono (B := [.regs, .mode, .dev, .evq, .lamp, .adc, .feed, .rail, .seq]) (by decide)
  have h6 := h.mono (B := [.regs, .svc, .port]) (by decide)
  unfold State.settle
  repeat' first
    | (with_reducible assumption)
    | (with_reducible apply State.enumerateAll_free h1)
    | (with_reducible apply State.flushNow_free h2)
    | (with_reducible apply State.portSync_free h3)
    | (with_reducible apply State.ringEnumReady_free h4)
    | (with_reducible apply State.stageStep_free h5)
    | (with_reducible apply State.svcTargetTake_free h6)

theorem State.tripFollow_free {P : State → Prop} (h : Free P [.regs, .mem, .evq, .fault, .pack, .feed, .rail]) {s : State} (hs : P s) (k : Nat) :
    P (s.tripFollow k) := by
  have h1 := h.mono (B := [.regs, .mem, .evq, .fault, .feed]) (by decide)
  have h2 := h.mono (B := [.rail]) (by decide)
  have h3 := h.mono (B := [.regs, .evq, .fault, .pack]) (by decide)
  have h4 := h.mono (B := [.pack]) (by decide)
  unfold State.tripFollow
  repeat' first
    | (with_reducible assumption)
    | (with_reducible apply State.feedFast_free h1)
    | (with_reducible apply State.ibcZero_free h2)
    | (with_reducible apply State.packOv_free h3)
    | (with_reducible apply State.packZero_free h4)
    | (with_reducible refine Free.ite (fun _ => ?_) (fun _ => ?_))

theorem State.vddioChange_free {P : State → Prop} (h : Free P [.dev, .pack]) {s : State} (hs : P s) (bank : Fin 5) (low : Bool) :
    P (s.vddioChange bank low) := by
  unfold State.vddioChange
  extract_lets
  repeat' first
    | (with_reducible assumption)
    | (with_reducible refine Free.ite (fun _ => ?_) (fun _ => ?_))
    | (with_reducible refine (h.dev (by decide) _ ?_))
    | (with_reducible refine (h.pack (by decide) _ ?_))

theorem State.windowSampled_free {P : State → Prop} (h : Free P Part.all) {s : State} (hs : P s) (n : Fin 16) (uv : Int) :
    P (s.windowSampled n uv) := by
  have h1 := h.mono (B := [.regs, .fresh, .evq, .fault, .cmp, .est]) (by decide)
  unfold State.windowSampled
  extract_lets
  repeat' first
    | (with_reducible assumption)
    | (with_reducible apply State.wakeRequest_free h)
    | (with_reducible apply State.windowSample_free h1)
    | (with_reducible refine Free.ite (fun _ => ?_) (fun _ => ?_))

theorem State.judged_free {P : State → Prop} (h : Free P Part.all) {s : State} (hs : P s) (r : Fin 16) (uv : Nat) :
    P (s.judged r uv) := by
  have h1 := h.mono (B := [.regs]) (by decide)
  have h2 := h.mono (B := [.regs, .fresh, .dev, .evq, .fault, .rail, .seq]) (by decide)
  have h3 := h.mono (B := [.regs, .mem, .mode, .dev, .evq, .lamp, .op, .pwm, .adc, .link, .est, .bal, .hb, .pack, .feed, .rail, .seq, .svc]) (by decide)
  unfold State.judged
  extract_lets
  repeat' first
    | (with_reducible assumption)
    | (with_reducible apply State.injTake_free h1)
    | (with_reducible apply State.railJudge_free h2)
    | (with_reducible apply State.vhbLow_free h3)
    | (with_reducible apply State.vhbRise_free h)
    | (with_reducible refine Free.ite (fun _ => ?_) (fun _ => ?_))
    | split

theorem State.sequenceEnd_free {P : State → Prop} (h : Free P [.regs, .mem, .evq, .adc, .therm]) {s : State} (hs : P s) (b : Fin 4) :
    P (s.sequenceEnd b) := by
  have h1 := h.mono (B := [.regs, .evq, .adc]) (by decide)
  have h2 := h.mono (B := [.regs, .mem, .therm]) (by decide)
  unfold State.sequenceEnd
  extract_lets
  repeat' first
    | (with_reducible assumption)
    | (with_reducible apply State.seqDone_free h1)
    | (with_reducible apply State.slowRound_free h2)
    | (with_reducible refine Free.ite (fun _ => ?_) (fun _ => ?_))

theorem State.hourly_free {P : State → Prop} (h : Free P [.regs, .op, .est]) {s : State} (hs : P s) :
    P (s.hourly) := by
  unfold State.hourly
  repeat' first
    | (with_reducible assumption)
    | (with_reducible apply State.flushStart_free h)
    | (with_reducible refine Free.ite (fun _ => ?_) (fun _ => ?_))

theorem State.wakeSource_free {P : State → Prop} (h : Free P Part.all) {s : State} (hs : P s) (src : Nat) :
    P (s.wakeSource src) := by
  unfold State.wakeSource
  extract_lets
  repeat' first
    | (with_reducible assumption)
    | (with_reducible apply State.wakeRequest_free h)
    | (with_reducible refine Free.ite (fun _ => ?_) (fun _ => ?_))
    | (with_reducible refine (h.dev (by decide) _ ?_))

theorem State.begin_free {P : State → Prop} (h : Free P [.port, .ring]) {s : State} (hs : P s) :
    P (s.begin) := by
  unfold State.begin
  extract_lets
  repeat' first
    | (with_reducible assumption)
    | (with_reducible refine (h.port_ring (by decide) (by decide) _ _ ?_))

theorem State.setBits_free {P : State → Prop} (h : Free P [.regs, .mem, .mode, .dev, .evq, .fault, .lamp, .pwm, .link, .bal, .hb, .inp, .pack, .feed, .feedL, .rail, .seq, .svc, .ring]) {s : State} (hs : P s) (a : Nat) (r : RegInfo) (sets : Word) :
    P (s.setBits a r sets) := by
  have h1 := h.mono (B := [.regs, .fault]) (by decide)
  have h2 := h.mono (B := [.regs]) (by decide)
  unfold State.setBits
  extract_lets
  repeat' first
    | (with_reducible assumption)
    | (with_reducible apply State.err_free h1)
    | (with_reducible apply State.faultClear_free h)
    | (with_reducible apply State.wr_free h2)
    | (with_reducible refine Free.ite (fun _ => ?_) (fun _ => ?_))
    | (with_reducible refine Free.foldl _ (fun _ _ _ => ?_) ?_)

theorem State.w1cWrite_free {P : State → Prop} (h : Free P Part.all) {s : State} (hs : P s) (m : Master) (a : Nat) (clr : Word) (sets : Word) :
    P (s.w1cWrite m a clr sets) := by
  have h1 := h.mono (B := [.regs]) (by decide)
  have h2 := h.mono (B := [.regs, .mem, .mode, .dev, .evq, .fault, .lamp, .pwm, .link, .bal, .hb, .inp, .pack, .feed, .feedL, .rail, .seq, .svc, .ring]) (by decide)
  have h3 := h.mono (B := [.regs, .evq]) (by decide)
  unfold State.w1cWrite
  extract_lets
  repeat' first
    | (with_reducible assumption)
    | (with_reducible apply State.hostWrite_free h)
    | (with_reducible apply State.noteWrite_free h1)
    | (with_reducible apply State.setBits_free h2)
    | (with_reducible apply State.statusW1C_free h3)
    | (with_reducible apply State.wr_free h1)
    | (with_reducible refine Free.ite (fun _ => ?_) (fun _ => ?_))
    | split

theorem State.hibMarker_free {P : State → Prop} (h : Free P [.regs, .mem, .evq, .lamp, .adc, .bal, .hb, .inp, .pack]) {s : State} (hs : P s) (rail : Bool) (settled : Bool) :
    P (s.hibMarker rail settled) := by
  have h1 := h.mono (B := [.regs, .evq, .lamp]) (by decide)
  have h2 := h.mono (B := [.lamp]) (by decide)
  have h3 := h.mono (B := [.regs, .lamp]) (by decide)
  unfold State.hibMarker
  repeat' first
    | (with_reducible assumption)
    | (with_reducible apply State.lampMarker_free h)
    | (with_reducible apply State.laneMarker_free h1)
    | (with_reducible apply State.laneStart_free h2)
    | (with_reducible apply State.ownPosition_free h3)
    | (with_reducible refine Free.ite (fun _ => ?_) (fun _ => ?_))

theorem State.offMinEnd_free {P : State → Prop} (h : Free P Part.all) {s : State} (hs : P s) :
    P (s.offMinEnd) := by
  have h1 := h.mono (B := [.regs, .evq, .rail, .seq]) (by decide)
  unfold State.offMinEnd
  extract_lets
  repeat' first
    | (with_reducible assumption)
    | (with_reducible apply State.riseFromCellar_free h)
    | (with_reducible apply State.seqRise_free h1)
    | (with_reducible refine Free.ite (fun _ => ?_) (fun _ => ?_))
    | (with_reducible refine (h.dev (by decide) _ ?_))

theorem State.epochEnd_free {P : State → Prop} (h : Free P [.regs, .mem, .evq, .fault, .ring]) {s : State} (hs : P s) (corr : Nat) :
    P (s.epochEnd corr) := by
  unfold State.epochEnd
  repeat' first
    | (with_reducible assumption)
    | (with_reducible apply State.epochBoundary_free h)
    | (with_reducible refine Free.ite (fun _ => ?_) (fun _ => ?_))

theorem State.tripEvent_free {P : State → Prop} (h : Free P [.regs, .mem, .evq, .fault, .pack, .feed, .rail]) {s : State} (hs : P s) (k : Nat) (f : State → State) (hf : ∀ t, P t → P (f t)) :
    P (s.tripEvent k f) := by
  unfold State.tripEvent
  extract_lets
  repeat' first
    | (with_reducible assumption)
    | (with_reducible apply State.tripFollow_free h)
    | (with_reducible refine Free.ite (fun _ => ?_) (fun _ => ?_))
    | (with_reducible apply hf)

theorem State.idle_free {P : State → Prop} (h : Free P Part.all) {s : State} (hs : P s) :
    P (s.idle) := by
  have h1 := h.mono (B := [.port, .ring]) (by decide)
  have h2 := h.mono (B := [.regs, .mem, .mode, .dev, .evq, .fault, .lamp, .op, .adc, .link, .est, .feed, .rail, .seq, .svc, .port, .ring]) (by decide)
  unfold State.idle
  repeat' first
    | (with_reducible assumption)
    | (with_reducible apply State.begin_free h1)
    | (with_reducible apply State.ringDrain_free h)
    | (with_reducible apply State.settle_free h2)
    | (with_reducible refine Free.ite (fun _ => ?_) (fun _ => ?_))

theorem State.sensorTaken_free {P : State → Prop} (h : Free P [.regs, .mem, .evq, .fault, .feed]) {s : State} (hs : P s) (t : Nat) (e : Nat) :
    P (s.sensorTaken t e) := by
  have h1 := h.mono (B := [.regs, .evq, .fault]) (by decide)
  have h2 := h.mono (B := [.regs, .fault]) (by decide)
  unfold State.sensorTaken
  extract_lets
  repeat' first
    | (with_reducible assumption)
    | (with_reducible apply State.feedsDirect_free h)
    | (with_reducible apply State.packZone_free h1)
    | (with_reducible apply State.sensorResult_free h2)
    | (with_reducible refine Free.ite (fun _ => ?_) (fun _ => ?_))

theorem State.linkEvent_free {P : State → Prop} (h : Free P [.regs, .mem, .evq, .fault, .pwm, .link, .est, .bal, .hb]) {s : State} (hs : P s) (n : Fin 16) (f : State → State) (hf : ∀ t, P t → P (f t)) :
    P (s.linkEvent n f) := by
  have h1 := h.mono (B := [.regs, .mem, .evq, .fault, .pwm, .link, .bal, .hb]) (by decide)
  have h2 := h.mono (B := [.regs, .evq, .pwm, .bal]) (by decide)
  have h3 := h.mono (B := [.regs, .mem, .evq, .est]) (by decide)
  unfold State.linkEvent
  extract_lets
  repeat' first
    | (with_reducible assumption)
    | (with_reducible apply State.afterLink_free h1)
    | (with_reducible apply State.balStale_free h2)
    | (with_reducible apply State.fallbackStart_free h3)
    | (with_reducible refine Free.ite (fun _ => ?_) (fun _ => ?_))
    | (with_reducible apply hf)

theorem State.afterStop_free {P : State → Prop} (h : Free P [.regs, .mem, .evq, .fault, .pwm, .link, .bal, .hb]) {s : State} (hs : P s) (n : Fin 16) (f : State → State) (hf : ∀ t, P t → P (f t)) :
    P (s.afterStop n f) := by
  have h1 := h.mono (B := [.regs, .mem, .evq, .fault, .link, .bal, .hb]) (by decide)
  unfold State.afterStop
  extract_lets
  repeat' first
    | (with_reducible assumption)
    | (with_reducible apply State.afterLink_free h)
    | (with_reducible apply State.selAfterStop_free h1)
    | (with_reducible refine Free.ite (fun _ => ?_) (fun _ => ?_))
    | (with_reducible apply hf)

theorem State.countRounds_free {P : State → Prop} (h : Free P [.regs]) {s : State} (hs : P s) :
    P (s.countRounds) := by
  unfold State.countRounds
  repeat' first
    | (with_reducible assumption)
    | (with_reducible apply State.put_free h)
    | (with_reducible refine Free.foldl _ (fun _ _ _ => ?_) ?_)

theorem State.roundBoundary_free {P : State → Prop} (h : Free P [.regs, .mem, .evq, .fault, .lamp, .pwm, .link, .est, .bal, .hb, .inp, .pack, .feed]) {s : State} (hs : P s) :
    P (s.roundBoundary) := by
  have h1 := h.mono (B := [.regs, .mem, .pwm, .bal]) (by decide)
  have h2 := h.mono (B := [.regs]) (by decide)
  have h3 := h.mono (B := [.mem]) (by decide)
  have h4 := h.mono (B := [.regs, .mem, .est]) (by decide)
  have h5 := h.mono (B := [.regs, .mem, .evq, .fault, .feed]) (by decide)
  have h6 := h.mono (B := [.hb, .inp]) (by decide)
  have h7 := h.mono (B := [.regs, .inp]) (by decide)
  have h8 := h.mono (B := [.link]) (by decide)
  have h9 := h.mono (B := [.regs, .evq, .fault, .pack]) (by decide)
  have h10 := h.mono (B := [.regs, .fault]) (by decide)
  have h11 := h.mono (B := [.regs, .lamp]) (by decide)
  unfold State.roundBoundary
  extract_lets
  repeat' first
    | (with_reducible assumption)
    | (with_reducible apply State.balRound_free h1)
    | (with_reducible apply State.countRounds_free h2)
    | (with_reducible apply State.estFrame_free h3)
    | (with_reducible apply State.estRound_free h4)
    | (with_reducible apply State.feedsRound_free h5)
    | (with_reducible apply State.hbRound_free h6)
    | (with_reducible apply State.inpRound_free h7)
    | (with_reducible apply State.linkRound_free h8)
    | (with_reducible apply State.packRound_free h9)
    | (with_reducible apply State.parityScan_free h10)
    | (with_reducible apply State.railsRound_free h3)
    | (with_reducible apply State.roundPosition_free h11)
    | (with_reducible refine Free.ite (fun _ => ?_) (fun _ => ?_))
    | (with_reducible refine Free.foldl _ (fun _ _ _ => ?_) ?_)

theorem State.accumulation_free {P : State → Prop} (h : Free P [.regs, .mem, .evq, .fault, .est, .pack]) {s : State} (hs : P s) :
    P (s.accumulation) := by
  have h1 := h.mono (B := [.regs, .mem, .evq, .fault, .est]) (by decide)
  have h2 := h.mono (B := [.mem, .pack]) (by decide)
  unfold State.accumulation
  repeat' first
    | (with_reducible assumption)
    | (with_reducible apply State.accStep_free h1)
    | (with_reducible apply State.packCount_free h2)
    | (with_reducible refine Free.ite (fun _ => ?_) (fun _ => ?_))

theorem State.periodEnd_free {P : State → Prop} (h : Free P [.regs, .mem, .dev, .evq, .fault, .pwm, .cmp, .link, .bal, .hb, .pack, .rail, .seq, .svc]) {s : State} (hs : P s) (u : Conv) (padsBad : Bool) (x : RailSense) :
    P (s.periodEnd u padsBad x) := by
  have h1 := h.mono (B := [.regs, .mem, .evq, .fault, .pwm, .link, .bal, .hb]) (by decide)
  have h2 := h.mono (B := [.regs, .evq, .fault, .pwm, .cmp, .bal]) (by decide)
  have h3 := h.mono (B := [.regs, .dev, .evq, .fault, .pwm, .cmp, .rail, .seq]) (by decide)
  have h4 := h.mono (B := [.regs, .dev, .evq, .fault, .rail, .seq]) (by decide)
  have h5 := h.mono (B := [.regs, .evq, .fault, .pwm, .cmp, .pack]) (by decide)
  have h6 := h.mono (B := [.regs, .dev, .evq, .fault, .pwm, .rail, .seq]) (by decide)
  have h7 := h.mono (B := [.regs, .evq, .fault, .pwm, .svc]) (by decide)
  unfold State.periodEnd
  repeat' first
    | (with_reducible assumption)
    | (with_reducible apply State.afterStop_free h1)
    | (with_reducible apply State.balBoundary_free h2)
    | (with_reducible apply State.ibcBoundary_free h3)
    | (with_reducible apply State.ldoBoundary_free h4)
    | (with_reducible apply State.packBoundary_free h5)
    | (with_reducible apply State.polBoundary_free h6)
    | (with_reducible apply State.svcBoundary_free h7)
    | (intro _ _)
    | split

theorem State.modeRequest_free {P : State → Prop} (h : Free P [.regs, .mem, .mode, .dev, .evq, .fault, .lamp, .op, .pwm, .adc, .cmp, .link, .est, .bal, .hb, .inp, .pack, .feed, .feedL, .rail, .seq, .svc]) {s : State} (hs : P s) (m : Master) (key : BitVec 16) (op : Nat) (superseded : Bool) (badA : Bool) (badB : Bool) :
    P (s.modeRequest m key op superseded badA badB) := by
  have h1 := h.mono (B := [.regs]) (by decide)
  have h2 := h.mono (B := [.regs, .evq]) (by decide)
  unfold State.modeRequest
  repeat' first
    | (with_reducible assumption)
    | (with_reducible apply State.hostAct_free h1)
    | (with_reducible apply State.modeReq_free h)
    | (with_reducible apply State.modeRes_free h2)
    | (with_reducible refine Free.ite (fun _ => ?_) (fun _ => ?_))
    | (intro _ _)

theorem State.onRequest_free {P : State → Prop} (h : Free P Part.all) {s : State} (hs : P s) (src : Option Nat) :
    P (s.onRequest src) := by
  unfold State.onRequest
  repeat' first
    | (with_reducible assumption)
    | (with_reducible apply State.offMinEnd_free h)
    | (with_reducible apply State.wakeSource_free h)
    | (with_reducible refine Free.ite (fun _ => ?_) (fun _ => ?_))
    | split

theorem State.hiccupOver_free {P : State → Prop} (h : Free P [.regs, .rail, .svc]) {s : State} (hs : P s) (r : Fin 16) :
    P (s.hiccupOver r) := by
  have h1 := h.mono (B := [.regs, .rail]) (by decide)
  have h2 := h.mono (B := [.regs, .svc]) (by decide)
  unfold State.hiccupOver
  repeat' first
    | (with_reducible assumption)
    | (with_reducible apply State.railHiccupEnd_free h1)
    | (with_reducible apply State.svcHiccupEnd_free h2)
    | split

end Sys2Proof.Machine
end

