-- ==== Sys2Proof/Laws/StableSlots.lean ====
section
/-! SUPPORT. Which parts of the state the operations of Machine/Slots.lean may change: a property that stands whatever becomes of those
parts stands after the operation. -/

namespace Sys2Proof.Machine

theorem State.slotCheck_free {P : State → Prop} (h : Free P [.regs, .fresh, .evq, .fault, .cellar, .adc]) {s0 : State} (hs : P s0) (x : Slot) (addr : Nat) (lsb : Nat) (width : Nat) (sgn : Bool) (event : Bool) (line : Nat) (lo : Nat) (hi : Nat) :
    P (s0.slotCheck x addr lsb width sgn event line lo hi) := by
  have h1 := h.mono (B := [.regs, .evq]) (by decide)
  have h2 := h.mono (B := [.fault]) (by decide)
  unfold State.slotCheck
  extract_lets
  repeat' first
    | (with_reducible assumption)
    | (with_reducible apply State.fire_free h1)
    | (with_reducible apply State.pulse_free h2)
    | (with_reducible apply State.readWord_free h)
    | (with_reducible refine Free.ite (fun _ => ?_) (fun _ => ?_))

theorem State.resourceStop_free {P : State → Prop} (h : Free P [.regs, .adc, .link]) {s : State} (hs : P s) (op : SlotOp) :
    P (s.resourceStop op) := by
  have h1 := h.mono (B := [.regs]) (by decide)
  have h2 := h.mono (B := [.adc]) (by decide)
  have h3 := h.mono (B := [.regs, .link]) (by decide)
  unfold State.resourceStop
  repeat' first
    | (with_reducible assumption)
    | (with_reducible apply State.put_free h1)
    | (with_reducible apply State.setBank_free h2)
    | (with_reducible apply State.setLk_free h3)
    | (with_reducible apply State.setStep_free h1)
    | (with_reducible refine Free.ite (fun _ => ?_) (fun _ => ?_))
    | split

theorem State.budgetExpire_free {P : State → Prop} (h : Free P [.regs, .evq, .fault, .lamp, .adc, .link]) {s : State} (hs : P s) (x : Slot) :
    P (s.budgetExpire x) := by
  have h1 := h.mono (B := [.regs, .evq, .fault, .lamp]) (by decide)
  have h2 := h.mono (B := [.regs, .adc, .link]) (by decide)
  unfold State.budgetExpire
  repeat' first
    | (with_reducible assumption)
    | (with_reducible apply State.overrun_free h1)
    | (with_reducible apply State.resourceStop_free h2)
    | (with_reducible refine Free.ite (fun _ => ?_) (fun _ => ?_))
    | split

theorem State.compUnit_free {P : State → Prop} (h : Free P [.regs, .evq, .pwm, .bal, .pack, .rail, .seq, .svc]) {s : State} (hs : P s) (lane : Nat) (unit : Nat) (shadow : Bool) :
    P (s.compUnit lane unit shadow) := by
  have h1 := h.mono (B := [.regs, .evq, .pwm, .bal]) (by decide)
  have h2 := h.mono (B := [.regs, .evq, .pwm, .rail, .seq]) (by decide)
  have h3 := h.mono (B := [.regs, .evq, .rail]) (by decide)
  have h4 := h.mono (B := [.pwm, .pack]) (by decide)
  have h5 := h.mono (B := [.regs, .evq, .pwm, .rail]) (by decide)
  have h6 := h.mono (B := [.pwm, .svc]) (by decide)
  unfold State.compUnit
  repeat' first
    | (with_reducible assumption)
    | (with_reducible apply State.balComp_free h1)
    | (with_reducible apply State.ibcComp_free h2)
    | (with_reducible apply State.ldoComp_free h3)
    | (with_reducible apply State.packComp_free h4)
    | (with_reducible apply State.polComp_free h5)
    | (with_reducible apply State.svcComp_free h6)
    | (with_reducible refine Free.ite (fun _ => ?_) (fun _ => ?_))

theorem State.resourceFree_free {P : State → Prop} (h : Free P [.regs, .evq, .fault, .lamp]) {s : State} (hs : P s) (x : Slot) (used : Nat) (d : Nat) :
    P (s.resourceFree x used d) := by
  have h1 := h.mono (B := [.regs]) (by decide)
  unfold State.resourceFree
  extract_lets
  repeat' first
    | (with_reducible assumption)
    | (with_reducible apply State.injTake_free h1)
    | (with_reducible apply State.overrun_free h)
    | (with_reducible apply State.put_free h1)
    | (with_reducible refine Free.ite (fun _ => ?_) (fun _ => ?_))
    | split

theorem State.slotWait_free {P : State → Prop} (h : Free P [.lamp]) {s : State} (hs : P s) (x : Slot) (n : Nat) :
    P (s.slotWait x n) := by
  unfold State.slotWait
  extract_lets
  repeat' first
    | (with_reducible assumption)
    | (with_reducible apply State.setLane_free h)

theorem State.slotPast_free {P : State → Prop} (h : Free P [.lamp]) {s : State} (hs : P s) (x : Slot) :
    P (s.slotPast x) := by
  unfold State.slotPast
  extract_lets
  repeat' first
    | (with_reducible assumption)
    | (with_reducible apply State.setLane_free h)

theorem State.slotIssue_free {P : State → Prop} (h : Free P [.regs, .evq, .fault, .lamp]) {s : State} (hs : P s) (x : Slot) (want : SlotOp → Bool) :
    P (s.slotIssue x want).2 := by
  have h1 := h.mono (B := [.regs]) (by decide)
  have h2 := h.mono (B := [.lamp]) (by decide)
  unfold State.slotIssue
  extract_lets
  repeat' first
    | (with_reducible assumption)
    | (with_reducible apply State.injTake_free h1)
    | (with_reducible apply State.notIssued_free h)
    | (with_reducible apply State.slotPast_free h2)
    | (with_reducible refine Free.ite (fun _ => ?_) (fun _ => ?_))
    | split
    | dsimp +zetaDelta only

theorem State.slotEnd_free {P : State → Prop} (h : Free P [.lamp]) {s : State} (hs : P s) (x : Slot) :
    P (s.slotEnd x) := by
  unfold State.slotEnd
  repeat' first
    | (with_reducible assumption)
    | (with_reducible apply State.setLane_free h)

theorem State.tableCut_free {P : State → Prop} (h : Free P [.regs, .evq, .fault, .lamp]) {s : State} (hs : P s) (x : Slot) :
    P (s.tableCut x) := by
  have h1 := h.mono (B := [.lamp]) (by decide)
  unfold State.tableCut
  extract_lets
  repeat' first
    | (with_reducible assumption)
    | (with_reducible apply State.overrun_free h)
    | (with_reducible apply State.slotEnd_free h1)
    | (with_reducible refine Free.ite (fun _ => ?_) (fun _ => ?_))

theorem State.waitExpire_free {P : State → Prop} (h : Free P [.lamp]) {s : State} (hs : P s) (n : Fin 6) (level : Fin 3) :
    P (s.waitExpire n level) := by
  unfold State.waitExpire
  extract_lets
  repeat' first
    | (with_reducible assumption)
    | (with_reducible apply State.setLane_free h)
    | (with_reducible refine Free.ite (fun _ => ?_) (fun _ => ?_))

theorem State.slotMove_free {P : State → Prop} (h : Free P Part.all) {s : State} (hs : P s) (dst : Nat) (copy : Bool) (mask : Nat) (data : Nat) :
    P (s.slotMove dst copy mask data) := by
  have h1 := h.mono (B := [.regs, .fresh, .evq, .fault, .cellar, .adc]) (by decide)
  unfold State.slotMove
  extract_lets
  repeat' first
    | (with_reducible assumption)
    | (with_reducible apply State.readWord_free h1)
    | (with_reducible apply State.writeWord_free h)
    | split
    | dsimp +zetaDelta only

end Sys2Proof.Machine
end

