-- ==== Sys2Proof/Laws/Answers.lean ====
section
/-! SUPPORT. What a command's answer may have changed: the three shapes of a meaning, each once. -/

namespace Sys2Proof.Machine

variable {P : State → Prop} {f : State → State} {s t : State}

theorem simple_free (h : Free P [.port, .ring]) (hs : P s) (hf : ∀ u, P u → P (f u)) (he : simple f s = .next t) : P t := by
  injection he with he
  exact he ▸ hf _ (State.begin_free (h.mono (by decide)) hs)

theorem effect_free (h : Free P [.regs, .mem, .mode, .dev, .evq, .fault, .lamp, .op, .adc, .link, .est, .feed, .rail, .seq, .svc, .port, .ring]) (hs : P s) (hf : ∀ u, P u → P (f u)) (he : effect f s = .next t) : P t := by
  injection he with he
  exact he ▸ State.settle_free h (hf _ (State.begin_free (h.mono (by decide)) hs))

theorem checked_free {ok : Bool} (h : Free P [.regs, .mem, .mode, .dev, .evq, .fault, .lamp, .op, .adc, .link, .est, .feed, .rail, .seq, .svc, .port, .ring]) (hs : P s) (hf : ∀ u, P u → P (f u)) (he : checked ok f s = .next t) : P t := by
  unfold checked at he
  split at he
  · exact effect_free h hs hf he
  · cases he

theorem slotEffect_free {x : Slot} {want : SlotOp → Bool} {g : SlotOp → State → State} (h : Free P [.regs, .mem, .mode, .dev, .evq, .fault, .lamp, .op, .adc, .link, .est, .feed, .rail, .seq, .svc, .port, .ring]) (hs : P s)
    (hg : ∀ o u, P u → P (g o u)) (he : slotEffect x want g s = .next t) : P t := by
  refine checked_free h hs (fun u hu => ?_) he
  have hi := State.slotIssue_free (h.mono (by decide)) hu x want
  dsimp only
  split
  · exact hg _ _ hi
  · exact hi

end Sys2Proof.Machine
end

