-- ==== Sys2Proof/Laws/AnswersAccess.lean ====
section
/-! SUPPORT. Which parts each command of Machine/CmdAccess.lean may change, once per command. -/

namespace Sys2Proof.Machine

theorem execRegisterWrite_free {P : State → Prop} (h : Free P Part.all) {s t : State} (hs : P s) (m : Master) (addr : BitVec 24) (v : Word) (he : execRegisterWrite m addr v s = .next t) : P t := by
  refine effect_free (h.mono (by decide)) hs (fun u hu => ?_) he
  have h1 := h.mono (B := Part.all) (by decide)
  repeat' first
    | (with_reducible assumption)
    | (with_reducible apply State.hostWrite_free h1)

theorem execMemoryWrite_free {P : State → Prop} (h : Free P Part.all) {s t : State} (hs : P s) (m : Master) (addr : BitVec 24) (v : Word) (he : execMemoryWrite m addr v s = .next t) : P t := by
  refine effect_free (h.mono (by decide)) hs (fun u hu => ?_) he
  have h1 := h.mono (B := Part.all) (by decide)
  repeat' first
    | (with_reducible assumption)
    | (with_reducible apply State.hostWrite_free h1)

theorem execAtticDirectWrite_free {P : State → Prop} (h : Free P Part.all) {s t : State} (hs : P s) (m : Master) (addr : BitVec 24) (v : Word) (he : execAtticDirectWrite m addr v s = .next t) : P t := by
  refine effect_free (h.mono (by decide)) hs (fun u hu => ?_) he
  have h1 := h.mono (B := Part.all) (by decide)
  repeat' first
    | (with_reducible assumption)
    | (with_reducible apply State.hostWrite_free h1)

theorem execUnmappedAccess_free {P : State → Prop} (h : Free P Part.all) {s t : State} (hs : P s) (m : Master) (addr : BitVec 24) (w : Option Word) (he : execUnmappedAccess m addr w s = .next t) : P t := by
  refine effect_free (h.mono (by decide)) hs (fun u hu => ?_) he
  have h1 := h.mono (B := Part.all) (by decide)
  repeat' first
    | (with_reducible assumption)
    | (with_reducible apply State.hostAccessWord_free h1)

theorem execStatusW1c_free {P : State → Prop} (h : Free P Part.all) {s t : State} (hs : P s) (m : Master) (addr : BitVec 24) (clr sets : Word) (he : execStatusW1c m addr clr sets s = .next t) : P t := by
  refine effect_free (h.mono (by decide)) hs (fun u hu => ?_) he
  have h1 := h.mono (B := Part.all) (by decide)
  repeat' first
    | (with_reducible assumption)
    | (with_reducible apply State.w1cWrite_free h1)

theorem execFunctionReset_free {P : State → Prop} (h : Free P Part.all) {s t : State} (hs : P s) (m : Master) (pg : Fin 1024) (enable : Bool) (he : execFunctionReset m pg enable s = .next t) : P t := by
  refine effect_free (h.mono (by decide)) hs (fun u hu => ?_) he
  have h1 := h.mono (B := Part.all) (by decide)
  repeat' first
    | (with_reducible assumption)
    | (with_reducible apply State.hostWrite_free h1)

theorem execFunctionResetDone_free {P : State → Prop} (h : Free P [.regs, .mem, .mode, .dev, .evq, .fault, .lamp, .op, .pwm, .adc, .link, .est, .bal, .inp, .pack, .feed, .rail, .seq, .svc, .port, .ring]) {s t : State} (hs : P s) (pg : Fin 1024) (he : execFunctionResetDone pg s = .next t) : P t := by
  refine effect_free (h.mono (by decide)) hs (fun u hu => ?_) he
  have h1 := h.mono (B := [.regs, .dev, .evq, .pwm, .bal, .inp, .pack, .feed, .rail, .seq, .svc, .port]) (by decide)
  repeat' first
    | (with_reducible assumption)
    | (with_reducible apply State.funcResetDone_free h1)

theorem execErrInjWrite_free {P : State → Prop} (h : Free P Part.all) {s t : State} (hs : P s) (m : Master) (pg : Fin 1024) (checker : BitVec 5) (count : BitVec 4) (he : execErrInjWrite m pg checker count s = .next t) : P t := by
  refine effect_free (h.mono (by decide)) hs (fun u hu => ?_) he
  have h1 := h.mono (B := Part.all) (by decide)
  repeat' first
    | (with_reducible assumption)
    | (with_reducible apply State.hostWrite_free h1)

theorem execLongopComplete_free {P : State → Prop} (h : Free P [.regs, .mem, .mode, .dev, .evq, .fault, .lamp, .op, .adc, .link, .est, .feed, .rail, .seq, .svc, .port, .ring]) {s t : State} (hs : P s) (e : OpEnd) (he : execLongopComplete e s = .next t) : P t := by
  refine effect_free (h.mono (by decide)) hs (fun u hu => ?_) he
  have h1 := h.mono (B := [.regs, .mem, .evq, .fault, .lamp, .op, .est]) (by decide)
  repeat' first
    | (with_reducible assumption)
    | (with_reducible apply State.opEnd_free h1)

end Sys2Proof.Machine
end

