-- ==== Sys2Proof/Laws/AnswersChannel.lean ====
section
/-! SUPPORT. Which parts each command of Machine/CmdChannel.lean may change, once per command. -/

namespace Sys2Proof.Machine

theorem execPeriodBoundary_free {P : State → Prop} (h : Free P [.regs, .mem, .mode, .dev, .evq, .fault, .lamp, .op, .pwm, .adc, .cmp, .link, .est, .bal, .hb, .pack, .feed, .rail, .seq, .svc, .port, .ring]) {s t : State} (hs : P s) (u : Conv) (padsBad : Bool) (sense : RailSense) (he : execPeriodBoundary u padsBad sense s = .next t) : P t := by
  refine effect_free (h.mono (by decide)) hs (fun u hu => ?_) he
  have h1 := h.mono (B := [.regs, .mem, .dev, .evq, .fault, .pwm, .cmp, .link, .bal, .hb, .pack, .rail, .seq, .svc]) (by decide)
  repeat' first
    | (with_reducible assumption)
    | (with_reducible apply State.periodEnd_free h1)

theorem execHiccupEnd_free {P : State → Prop} (h : Free P [.regs, .bal, .port, .ring]) {s t : State} (hs : P s) (n : Fin 16) (he : execHiccupEnd n s = .next t) : P t := by
  refine simple_free (h.mono (by decide)) hs (fun u hu => ?_) he
  have h1 := h.mono (B := [.regs, .bal]) (by decide)
  repeat' first
    | (with_reducible assumption)
    | (with_reducible apply State.hicEnd_free h1)

theorem execChannelSenseLoss_free {P : State → Prop} (h : Free P [.regs, .mem, .mode, .dev, .evq, .fault, .lamp, .op, .pwm, .adc, .link, .est, .bal, .hb, .feed, .rail, .seq, .svc, .port, .ring]) {s t : State} (hs : P s) (n : Fin 16) (he : execChannelSenseLoss n s = .next t) : P t := by
  refine effect_free (h.mono (by decide)) hs (fun u hu => ?_) he
  have h1 := h.mono (B := [.regs, .mem, .evq, .fault, .pwm, .link, .bal, .hb]) (by decide)
  have h2 := h.mono (B := [.regs, .evq, .fault, .pwm, .bal]) (by decide)
  repeat' first
    | (with_reducible assumption)
    | (with_reducible apply State.afterStop_free h1)
    | (with_reducible apply State.balSenseLoss_free h2)
    | (intro _ _)

theorem execSoftStartDone_free {P : State → Prop} (h : Free P [.regs, .evq, .bal, .port, .ring]) {s t : State} (hs : P s) (n : Fin 16) (he : execSoftStartDone n s = .next t) : P t := by
  refine simple_free (h.mono (by decide)) hs (fun u hu => ?_) he
  have h1 := h.mono (B := [.regs, .evq, .bal]) (by decide)
  repeat' first
    | (with_reducible assumption)
    | (with_reducible apply State.softDone_free h1)

theorem execStopCheck_free {P : State → Prop} (h : Free P [.regs, .mem, .mode, .dev, .evq, .fault, .lamp, .op, .pwm, .adc, .link, .est, .bal, .hb, .feed, .rail, .seq, .svc, .port, .ring]) {s t : State} (hs : P s) (n : Fin 16) (he : execStopCheck n s = .next t) : P t := by
  refine effect_free (h.mono (by decide)) hs (fun u hu => ?_) he
  have h1 := h.mono (B := [.regs, .mem, .evq, .fault, .pwm, .link, .bal, .hb]) (by decide)
  have h2 := h.mono (B := [.regs, .evq, .fault, .bal]) (by decide)
  repeat' first
    | (with_reducible assumption)
    | (with_reducible apply State.afterStop_free h1)
    | (with_reducible apply State.stopCheck_free h2)
    | (intro _ _)

theorem execInstantNotice_free {P : State → Prop} (h : Free P [.bal, .port, .ring]) {s t : State} (hs : P s) (n : Fin 16) (clocks : Nat) (burst : Option Nat) (he : execInstantNotice n clocks burst s = .next t) : P t := by
  refine simple_free (h.mono (by decide)) hs (fun u hu => ?_) he
  have h1 := h.mono (B := [.bal]) (by decide)
  repeat' first
    | (with_reducible assumption)
    | (with_reducible apply State.instantNotice_free h1)

theorem execSelectPoll_free {P : State → Prop} (h : Free P [.regs, .mem, .mode, .dev, .evq, .fault, .lamp, .op, .pwm, .adc, .link, .est, .bal, .hb, .feed, .rail, .seq, .svc, .port, .ring]) {s t : State} (hs : P s) (n : Fin 16) (he : execSelectPoll n s = .next t) : P t := by
  refine effect_free (h.mono (by decide)) hs (fun u hu => ?_) he
  have h1 := h.mono (B := [.regs, .mem, .evq, .fault, .pwm, .link, .est, .bal, .hb]) (by decide)
  have h2 := h.mono (B := [.regs, .mem, .evq, .fault, .link, .bal, .hb]) (by decide)
  repeat' first
    | (with_reducible assumption)
    | (with_reducible apply State.linkEvent_free h1)
    | (with_reducible apply State.selPoll_free h2)
    | (intro _ _)

theorem execSelectOpenTimeout_free {P : State → Prop} (h : Free P [.regs, .mem, .mode, .dev, .evq, .fault, .lamp, .op, .pwm, .adc, .link, .est, .bal, .hb, .feed, .rail, .seq, .svc, .port, .ring]) {s t : State} (hs : P s) (n : Fin 16) (he : execSelectOpenTimeout n s = .next t) : P t := by
  refine effect_free (h.mono (by decide)) hs (fun u hu => ?_) he
  have h1 := h.mono (B := [.regs, .mem, .evq, .fault, .pwm, .link, .est, .bal, .hb]) (by decide)
  have h2 := h.mono (B := [.regs, .evq, .fault, .bal, .hb]) (by decide)
  repeat' first
    | (with_reducible assumption)
    | (with_reducible apply State.linkEvent_free h1)
    | (with_reducible apply State.selOpenTimeout_free h2)
    | (intro _ _)

theorem execSelectCloseTimeout_free {P : State → Prop} (h : Free P [.regs, .mem, .mode, .dev, .evq, .fault, .lamp, .op, .pwm, .adc, .link, .est, .bal, .hb, .feed, .rail, .seq, .svc, .port, .ring]) {s t : State} (hs : P s) (n : Fin 16) (he : execSelectCloseTimeout n s = .next t) : P t := by
  refine effect_free (h.mono (by decide)) hs (fun u hu => ?_) he
  have h1 := h.mono (B := [.regs, .mem, .evq, .fault, .pwm, .link, .est, .bal, .hb]) (by decide)
  have h2 := h.mono (B := [.regs, .mem, .evq, .fault, .link, .bal, .hb]) (by decide)
  repeat' first
    | (with_reducible assumption)
    | (with_reducible apply State.linkEvent_free h1)
    | (with_reducible apply State.selCloseTimeout_free h2)
    | (intro _ _)

theorem execSelectVerifyTimeout_free {P : State → Prop} (h : Free P [.regs, .mem, .mode, .dev, .evq, .fault, .lamp, .op, .pwm, .adc, .link, .est, .bal, .hb, .feed, .rail, .seq, .svc, .port, .ring]) {s t : State} (hs : P s) (n : Fin 16) (he : execSelectVerifyTimeout n s = .next t) : P t := by
  refine effect_free (h.mono (by decide)) hs (fun u hu => ?_) he
  have h1 := h.mono (B := [.regs, .mem, .evq, .fault, .pwm, .link, .est, .bal, .hb]) (by decide)
  have h2 := h.mono (B := [.regs, .mem, .evq, .fault, .link, .bal, .hb]) (by decide)
  repeat' first
    | (with_reducible assumption)
    | (with_reducible apply State.linkEvent_free h1)
    | (with_reducible apply State.selVerifyTimeout_free h2)
    | (intro _ _)

end Sys2Proof.Machine
end

