-- ==== Sys2Proof/Laws/AnswersCollect.lean ====
section
/-! SUPPORT. Which parts each command of Machine/CmdCollect.lean may change, once per command. -/

namespace Sys2Proof.Machine

theorem execClockMonitor_free {P : State → Prop} (h : Free P [.regs, .fault, .port, .ring]) {s t : State} (hs : P s) (off stopped : BitVec 7) (he : execClockMonitor off stopped s = .next t) : P t := by
  refine simple_free (h.mono (by decide)) hs (fun u hu => ?_) he
  have h1 := h.mono (B := [.regs, .fault]) (by decide)
  repeat' first
    | (with_reducible assumption)
    | (with_reducible apply State.clockMonitor_free h1)

theorem execErrorLinePulse_free {P : State → Prop} (h : Free P [.regs, .mem, .mode, .dev, .evq, .fault, .lamp, .op, .pwm, .adc, .link, .est, .bal, .hb, .inp, .pack, .feed, .feedL, .rail, .seq, .svc, .port, .ring]) {s t : State} (hs : P s) (sources : List (Fin 64)) (he : execErrorLinePulse sources s = .next t) : P t := by
  refine effect_free (h.mono (by decide)) hs (fun u hu => ?_) he
  have h1 := h.mono (B := [.regs, .mem, .mode, .dev, .evq, .fault, .lamp, .pwm, .link, .bal, .hb, .inp, .pack, .feed, .feedL, .rail, .seq, .svc, .ring]) (by decide)
  repeat' first
    | (with_reducible assumption)
    | (with_reducible apply State.linePulses_free h1)

theorem execErrorLineDisagree_free {P : State → Prop} (h : Free P [.regs, .mem, .mode, .dev, .evq, .fault, .lamp, .op, .adc, .link, .est, .feed, .rail, .seq, .svc, .port, .ring]) {s t : State} (hs : P s) (k : Fin 64) (he : execErrorLineDisagree k s = .next t) : P t := by
  refine effect_free (h.mono (by decide)) hs (fun u hu => ?_) he
  have h1 := h.mono (B := [.regs, .fault]) (by decide)
  repeat' first
    | (with_reducible assumption)
    | (with_reducible apply State.lineDisagree_free h1)

theorem execReactionEnd_free {P : State → Prop} (h : Free P [.regs, .mem, .evq, .fault, .port, .ring]) {s t : State} (hs : P s) (he : execReactionEnd s = .next t) : P t := by
  refine simple_free (h.mono (by decide)) hs (fun u hu => ?_) he
  have h1 := h.mono (B := [.regs, .mem, .evq, .fault]) (by decide)
  repeat' first
    | (with_reducible assumption)
    | (with_reducible apply State.reactionEnd_free h1)

theorem execSnuffReadback_free {P : State → Prop} (h : Free P [.regs, .fault, .port, .ring]) {s t : State} (hs : P s) (bad : List (Fin 128)) (he : execSnuffReadback bad s = .next t) : P t := by
  refine simple_free (h.mono (by decide)) hs (fun u hu => ?_) he
  have h1 := h.mono (B := [.regs, .fault]) (by decide)
  repeat' first
    | (with_reducible assumption)
    | (with_reducible apply State.snuffReadback_free h1)

theorem execFaultStatusClear_free {P : State → Prop} (h : Free P [.regs, .mem, .mode, .dev, .evq, .fault, .lamp, .op, .pwm, .adc, .link, .est, .bal, .hb, .inp, .pack, .feed, .feedL, .rail, .seq, .svc, .port, .ring]) {s t : State} (hs : P s) (m : Master) (hi : Bool) (v : Word) (sources : List (Fin 64)) (he : execFaultStatusClear m hi v sources s = .next t) : P t := by
  refine effect_free (h.mono (by decide)) hs (fun u hu => ?_) he
  have h1 := h.mono (B := [.regs]) (by decide)
  have h2 := h.mono (B := [.regs, .mem, .mode, .dev, .evq, .fault, .lamp, .pwm, .link, .bal, .hb, .inp, .pack, .feed, .feedL, .rail, .seq, .svc, .ring]) (by decide)
  repeat' first
    | (with_reducible assumption)
    | (with_reducible apply State.hostAct_free h1)
    | (with_reducible apply State.faultClear_free h2)
    | (intro _ _)

theorem execRaiseSet_free {P : State → Prop} (h : Free P Part.all) {s t : State} (hs : P s) (m : Master) (mask : BitVec 7) (he : execRaiseSet m mask s = .next t) : P t := by
  refine simple_free (h.mono (by decide)) hs (fun u hu => ?_) he
  have h1 := h.mono (B := Part.all) (by decide)
  repeat' first
    | (with_reducible assumption)
    | (with_reducible apply State.hostWrite_free h1)

theorem execRaiseClear_free {P : State → Prop} (h : Free P Part.all) {s t : State} (hs : P s) (m : Master) (mask : BitVec 7) (he : execRaiseClear m mask s = .next t) : P t := by
  refine simple_free (h.mono (by decide)) hs (fun u hu => ?_) he
  have h1 := h.mono (B := Part.all) (by decide)
  repeat' first
    | (with_reducible assumption)
    | (with_reducible apply State.hostWrite_free h1)

theorem execFaultCfgLock_free {P : State → Prop} (h : Free P Part.all) {s t : State} (hs : P s) (m : Master) (rest : BitVec 31) (he : execFaultCfgLock m rest s = .next t) : P t := by
  refine simple_free (h.mono (by decide)) hs (fun u hu => ?_) he
  have h1 := h.mono (B := Part.all) (by decide)
  repeat' first
    | (with_reducible assumption)
    | (with_reducible apply State.hostWrite_free h1)

theorem execClassWrite_free {P : State → Prop} (h : Free P Part.all) {s t : State} (hs : P s) (m : Master) (j : Fin 8) (v : Word) (he : execClassWrite m j v s = .next t) : P t := by
  refine simple_free (h.mono (by decide)) hs (fun u hu => ?_) he
  have h1 := h.mono (B := Part.all) (by decide)
  repeat' first
    | (with_reducible assumption)
    | (with_reducible apply State.hostWrite_free h1)

theorem execFaultLogWrite_free {P : State → Prop} (h : Free P [.regs, .mem, .fault, .port, .ring]) {s t : State} (hs : P s) (he : execFaultLogWrite s = .next t) : P t := by
  refine simple_free (h.mono (by decide)) hs (fun u hu => ?_) he
  have h1 := h.mono (B := [.regs, .mem, .fault]) (by decide)
  repeat' first
    | (with_reducible assumption)
    | (with_reducible apply State.logWrite_free h1)

end Sys2Proof.Machine
end

