-- ==== Sys2Proof/Laws/AnswersFeed.lean ====
section
/-! SUPPORT. Which parts each command of Machine/CmdFeed.lean may change, once per command. -/

namespace Sys2Proof.Machine

theorem execFeedCurrentResult_free {P : State → Prop} (h : Free P [.regs, .mem, .evq, .fault, .feed, .port, .ring]) {s t : State} (hs : P s) (n : Fin 8) (he : execFeedCurrentResult n s = .next t) : P t := by
  refine simple_free (h.mono (by decide)) hs (fun u hu => ?_) he
  have h1 := h.mono (B := [.regs, .mem, .evq, .fault, .feed]) (by decide)
  repeat' first
    | (with_reducible assumption)
    | (with_reducible apply State.feedResult_free h1)

theorem execFeedTimedTrip_free {P : State → Prop} (h : Free P [.regs, .mem, .evq, .fault, .feed, .port, .ring]) {s t : State} (hs : P s) (n : Fin 8) (he : execFeedTimedTrip n s = .next t) : P t := by
  refine simple_free (h.mono (by decide)) hs (fun u hu => ?_) he
  have h1 := h.mono (B := [.regs, .mem, .evq, .fault, .feed]) (by decide)
  repeat' first
    | (with_reducible assumption)
    | (with_reducible apply State.feedTimed_free h1)

theorem execFeedSenseLoss_free {P : State → Prop} (h : Free P [.regs, .fault, .port, .ring]) {s t : State} (hs : P s) (n : Fin 8) (he : execFeedSenseLoss n s = .next t) : P t := by
  refine simple_free (h.mono (by decide)) hs (fun u hu => ?_) he
  have h1 := h.mono (B := [.regs, .fault]) (by decide)
  repeat' first
    | (with_reducible assumption)
    | (with_reducible apply State.feedSenseLoss_free h1)

theorem execFeedSeatConfirm_free {P : State → Prop} (h : Free P [.regs, .evq, .port, .ring]) {s t : State} (hs : P s) (n : Fin 8) (he : execFeedSeatConfirm n s = .next t) : P t := by
  refine simple_free (h.mono (by decide)) hs (fun u hu => ?_) he
  have h1 := h.mono (B := []) (by decide)
  have h2 := h.mono (B := [.regs, .evq]) (by decide)
  repeat' first
    | (with_reducible assumption)
    | (with_reducible apply State.through_free h1)
    | (with_reducible apply State.seatConfirm_free h2)
    | (intro _ _)

theorem execFeedSeatRemove_free {P : State → Prop} (h : Free P [.regs, .evq, .feed, .port, .ring]) {s t : State} (hs : P s) (n : Fin 8) (he : execFeedSeatRemove n s = .next t) : P t := by
  refine simple_free (h.mono (by decide)) hs (fun u hu => ?_) he
  have h1 := h.mono (B := [.regs, .evq, .feed]) (by decide)
  repeat' first
    | (with_reducible assumption)
    | (with_reducible apply State.seatRemove_free h1)

theorem execFeedStart_free {P : State → Prop} (h : Free P [.regs, .mem, .evq, .fault, .cmp, .feed, .port, .ring]) {s t : State} (hs : P s) (n : Fin 8) (he : execFeedStart n s = .next t) : P t := by
  refine simple_free (h.mono (by decide)) hs (fun u hu => ?_) he
  have h1 := h.mono (B := [.regs, .mem, .evq, .fault, .cmp, .feed]) (by decide)
  repeat' first
    | (with_reducible assumption)
    | (with_reducible apply State.feedStart_free h1)

theorem execFeedPowerGood_free {P : State → Prop} (h : Free P [.regs, .evq, .feed, .port, .ring]) {s t : State} (hs : P s) (n : Fin 8) (he : execFeedPowerGood n s = .next t) : P t := by
  refine simple_free (h.mono (by decide)) hs (fun u hu => ?_) he
  have h1 := h.mono (B := [.regs, .evq, .feed]) (by decide)
  repeat' first
    | (with_reducible assumption)
    | (with_reducible apply State.feedPowerGood_free h1)

theorem execFeedStartTimeout_free {P : State → Prop} (h : Free P [.regs, .mem, .evq, .fault, .feed, .port, .ring]) {s t : State} (hs : P s) (n : Fin 8) (he : execFeedStartTimeout n s = .next t) : P t := by
  refine simple_free (h.mono (by decide)) hs (fun u hu => ?_) he
  have h1 := h.mono (B := [.regs, .mem, .evq, .fault, .feed]) (by decide)
  repeat' first
    | (with_reducible assumption)
    | (with_reducible apply State.feedStartMax_free h1)

theorem execFeedRetry_free {P : State → Prop} (h : Free P [.regs, .evq, .port, .ring]) {s t : State} (hs : P s) (n : Fin 8) (he : execFeedRetry n s = .next t) : P t := by
  refine simple_free (h.mono (by decide)) hs (fun u hu => ?_) he
  have h1 := h.mono (B := [.regs, .evq]) (by decide)
  repeat' first
    | (with_reducible assumption)
    | (with_reducible apply State.feedRetry_free h1)

theorem execFeedGoodTimer_free {P : State → Prop} (h : Free P [.regs, .port, .ring]) {s t : State} (hs : P s) (n : Fin 8) (he : execFeedGoodTimer n s = .next t) : P t := by
  refine simple_free (h.mono (by decide)) hs (fun u hu => ?_) he
  have h1 := h.mono (B := [.regs]) (by decide)
  repeat' first
    | (with_reducible assumption)
    | (with_reducible apply State.feedGood_free h1)

theorem execFeedShed_free {P : State → Prop} (h : Free P [.regs, .evq, .feedL, .port, .ring]) {s t : State} (hs : P s) (he : execFeedShed s = .next t) : P t := by
  refine simple_free (h.mono (by decide)) hs (fun u hu => ?_) he
  have h1 := h.mono (B := [.regs, .evq, .feedL]) (by decide)
  repeat' first
    | (with_reducible assumption)
    | (with_reducible apply State.feedsShed_free h1)

theorem execFeedsClearLocked_free {P : State → Prop} (h : Free P Part.all) {s t : State} (hs : P s) (m : Master) (key : BitVec 16) (mask : BitVec 8) (he : execFeedsClearLocked m key mask s = .next t) : P t := by
  refine effect_free (h.mono (by decide)) hs (fun u hu => ?_) he
  have h1 := h.mono (B := Part.all) (by decide)
  repeat' first
    | (with_reducible assumption)
    | (with_reducible apply State.hostWrite_free h1)

theorem execFeedsRestart_free {P : State → Prop} (h : Free P Part.all) {s t : State} (hs : P s) (m : Master) (key : BitVec 16) (mask : BitVec 8) (he : execFeedsRestart m key mask s = .next t) : P t := by
  refine effect_free (h.mono (by decide)) hs (fun u hu => ?_) he
  have h1 := h.mono (B := Part.all) (by decide)
  repeat' first
    | (with_reducible assumption)
    | (with_reducible apply State.hostWrite_free h1)

end Sys2Proof.Machine
end

