-- ==== Sys2Proof/Laws/AnswersHeat.lean ====
section
/-! SUPPORT. Which parts each command of Machine/CmdHeat.lean may change, once per command. -/

namespace Sys2Proof.Machine

theorem execSensorResult_free {P : State → Prop} (h : Free P [.regs, .mem, .evq, .fault, .feed, .port, .ring]) {s t : State} (hs : P s) (table : Fin 4) (entry : Fin 16) (he : execSensorResult table entry s = .next t) : P t := by
  refine simple_free (h.mono (by decide)) hs (fun u hu => ?_) he
  have h1 := h.mono (B := [.regs, .mem, .evq, .fault, .feed]) (by decide)
  repeat' first
    | (with_reducible assumption)
    | (with_reducible apply State.sensorTaken_free h1)

theorem execReadingStale_free {P : State → Prop} (h : Free P [.regs, .fault, .port, .ring]) {s t : State} (hs : P s) (r : Fin 20) (he : execReadingStale r s = .next t) : P t := by
  refine simple_free (h.mono (by decide)) hs (fun u hu => ?_) he
  have h1 := h.mono (B := [.regs, .fault]) (by decide)
  repeat' first
    | (with_reducible assumption)
    | (with_reducible apply State.readingStale_free h1)

theorem execThermStep_free {P : State → Prop} (h : Free P Part.all) {s t : State} (hs : P s) (m : Master) (he : execThermStep m s = .next t) : P t := by
  refine simple_free (h.mono (by decide)) hs (fun u hu => ?_) he
  have h1 := h.mono (B := Part.all) (by decide)
  repeat' first
    | (with_reducible assumption)
    | (with_reducible apply State.hostWrite_free h1)

theorem execThermAutostep_free {P : State → Prop} (h : Free P [.regs, .evq, .port, .ring]) {s t : State} (hs : P s) (he : execThermAutostep s = .next t) : P t := by
  refine simple_free (h.mono (by decide)) hs (fun u hu => ?_) he
  have h1 := h.mono (B := [.regs, .evq]) (by decide)
  repeat' first
    | (with_reducible assumption)
    | (with_reducible apply State.throttleAuto_free h1)

theorem execThermalShutdown_free {P : State → Prop} (h : Free P [.regs, .evq, .fault, .therm, .port, .ring]) {s t : State} (hs : P s) (k : Fin 12) (he : execThermalShutdown k s = .next t) : P t := by
  refine simple_free (h.mono (by decide)) hs (fun u hu => ?_) he
  have h1 := h.mono (B := [.regs, .evq, .fault, .therm]) (by decide)
  repeat' first
    | (with_reducible assumption)
    | (with_reducible apply State.thermTrip_free h1)

end Sys2Proof.Machine
end

