-- ==== Sys2Proof/Laws/StableBuses.lean ====
section
/-! SUPPORT. Which parts of the state the operations of Machine/Buses.lean may change: a property that stands whatever becomes of those
parts stands after the operation. -/

namespace Sys2Proof.Machine

theorem State.i2ccFinish_free {P : State → Prop} (h : Free P [.regs, .evq, .fault, .bus]) {s : State} (hs : P s) (code : Nat) (byte : Nat) :
    P (s.i2ccFinish code byte) := by
  have h1 := h.mono (B := [.regs, .fault]) (by decide)
  have h2 := h.mono (B := [.regs]) (by decide)
  have h3 := h.mono (B := [.regs, .evq]) (by decide)
  unfold State.i2ccFinish
  extract_lets
  repeat' first
    | (with_reducible assumption)
    | (with_reducible apply State.err_free h1)
    | (with_reducible apply State.put_free h2)
    | (with_reducible apply State.raise_free h3)
    | (with_reducible refine Free.ite (fun _ => ?_) (fun _ => ?_))
    | (with_reducible refine (h.bus (by decide) _ ?_))

theorem State.i2ccStretch_free {P : State → Prop} (h : Free P [.regs, .evq, .fault, .bus]) {s : State} (hs : P s) :
    P (s.i2ccStretch) := by
  unfold State.i2ccStretch
  repeat' first
    | (with_reducible assumption)
    | (with_reducible apply State.i2ccFinish_free h)
    | (with_reducible refine Free.ite (fun _ => ?_) (fun _ => ?_))

theorem State.i2ccStore_free {P : State → Prop} (h : Free P [.regs]) {s : State} (hs : P s) (rx : List (BitVec 8)) :
    P (s.i2ccStore rx) := by
  unfold State.i2ccStore
  extract_lets
  repeat' first
    | (with_reducible assumption)
    | (with_reducible apply State.put_free h)
    | (with_reducible refine Free.ite (fun _ => ?_) (fun _ => ?_))
    | (with_reducible refine Free.foldl _ (fun _ _ _ => ?_) ?_)

theorem State.i2ccEnd_free {P : State → Prop} (h : Free P [.regs, .evq, .fault, .bus]) {s : State} (hs : P s) (cleared : Bool) (e : I2ccEnd) (rx : List (BitVec 8)) :
    P (s.i2ccEnd cleared e rx) := by
  have h1 := h.mono (B := [.regs]) (by decide)
  unfold State.i2ccEnd
  repeat' first
    | (with_reducible assumption)
    | (with_reducible apply State.i2ccFinish_free h)
    | (with_reducible apply State.i2ccStore_free h1)
    | (with_reducible apply State.injTake_free h1)
    | (with_reducible refine Free.ite (fun _ => ?_) (fun _ => ?_))
    | split

theorem State.i2cWakeTimeout_free {P : State → Prop} (h : Free P [.bus]) {s : State} (hs : P s) :
    P (s.i2cWakeTimeout) := by
  unfold State.i2cWakeTimeout
  extract_lets
  repeat' first
    | (with_reducible assumption)
    | (with_reducible refine Free.ite (fun _ => ?_) (fun _ => ?_))
    | (with_reducible refine (h.bus (by decide) _ ?_))

theorem State.i2cBad_free {P : State → Prop} (h : Free P [.regs, .answer, .evq, .bus]) {s : State} (hs : P s) (k : Nat) (nack : Bool) :
    P (s.i2cBad k nack) := by
  have h1 := h.mono (B := [.regs]) (by decide)
  have h2 := h.mono (B := [.regs, .evq]) (by decide)
  unfold State.i2cBad
  extract_lets
  repeat' first
    | (with_reducible assumption)
    | (with_reducible apply State.put_free h1)
    | (with_reducible apply State.raise_free h2)
    | (with_reducible refine (h.answer_bus (by decide) (by decide) _ _ ?_))

theorem State.i2cWake_free {P : State → Prop} (h : Free P Part.all) {s : State} (hs : P s) :
    P (s.i2cWake) := by
  have h1 := h.mono (B := [.regs, .evq]) (by decide)
  unfold State.i2cWake
  extract_lets
  repeat' first
    | (with_reducible assumption)
    | (with_reducible apply State.raise_free h1)
    | (with_reducible apply State.wakeRequest_free h)
    | (with_reducible refine Free.ite (fun _ => ?_) (fun _ => ?_))
    | (with_reducible refine (h.bus (by decide) _ ?_))

theorem State.remoteWrite_free {P : State → Prop} (h : Free P [.regs, .evq, .ring]) {s : State} (hs : P s) (m : Master) (dev : Nat) (addr : Nat) (words : List Nat) :
    P (s.remoteWrite m dev addr words) := by
  have h1 := h.mono (B := [.regs, .evq]) (by decide)
  unfold State.remoteWrite
  repeat' first
    | (with_reducible assumption)
    | (with_reducible apply State.postWrite_free h)
    | (with_reducible apply State.unmapped_free h1)
    | (with_reducible refine Free.ite (fun _ => ?_) (fun _ => ?_))

theorem State.spiLocal_free {P : State → Prop} (h : Free P Part.all) {s : State} (hs : P s) (m : Master) (w : Bool) (status : Nat) (f : HostFrame) :
    P (s.spiLocal m w status f) := by
  have h1 := h.mono (B := [.regs, .evq]) (by decide)
  have h2 := h.mono (B := [.regs, .fresh, .evq, .fault, .cellar, .adc]) (by decide)
  have h3 := h.mono (B := [.answer]) (by decide)
  unfold State.spiLocal
  extract_lets
  repeat' first
    | (with_reducible assumption)
    | (with_reducible apply State.raise_free h1)
    | (with_reducible apply State.readWords_free h2)
    | (with_reducible apply State.reply_free h3)
    | (with_reducible apply State.writeWords_free h)
    | (with_reducible refine Free.ite (fun _ => ?_) (fun _ => ?_))

theorem State.spiRecord_free {P : State → Prop} (h : Free P [.regs, .evq, .bus]) {s : State} (hs : P s) (m : Master) (e : FrameEnd) (cmd : Nat) (addr : Nat) :
    P (s.spiRecord m e cmd addr) := by
  have h1 := h.mono (B := [.regs]) (by decide)
  have h2 := h.mono (B := [.regs, .evq]) (by decide)
  unfold State.spiRecord
  extract_lets
  repeat' first
    | (with_reducible assumption)
    | (with_reducible apply State.put_free h1)
    | (with_reducible apply State.raise_free h2)
    | (with_reducible refine Free.ite (fun _ => ?_) (fun _ => ?_))
    | split
    | (with_reducible refine (h.bus (by decide) _ ?_))

theorem State.remoteRead_free {P : State → Prop} (h : Free P [.regs, .evq, .ring]) {s : State} (hs : P s) (m : Master) (dev : Nat) (addr : Nat) (n : Nat) :
    P (s.remoteRead m dev addr n) := by
  have h1 := h.mono (B := [.ring]) (by decide)
  have h2 := h.mono (B := [.regs, .evq]) (by decide)
  unfold State.remoteRead
  repeat' first
    | (with_reducible assumption)
    | (with_reducible apply State.postRead_free h)
    | (with_reducible apply State.setRmt_free h1)
    | (with_reducible apply State.unmapped_free h2)
    | (with_reducible refine Free.ite (fun _ => ?_) (fun _ => ?_))

theorem State.i2cGood_free {P : State → Prop} (h : Free P [.regs, .evq, .bus]) {s : State} (hs : P s) :
    P (s.i2cGood) := by
  have h1 := h.mono (B := [.regs]) (by decide)
  have h2 := h.mono (B := [.regs, .evq]) (by decide)
  unfold State.i2cGood
  extract_lets
  repeat' first
    | (with_reducible assumption)
    | (with_reducible apply State.put_free h1)
    | (with_reducible apply State.raise_free h2)
    | (with_reducible refine (h.bus (by decide) _ ?_))

theorem State.i2cRemoteRead_free {P : State → Prop} (h : Free P [.regs, .fresh, .answer, .evq, .fault, .cellar, .adc, .ring, .bus]) {s : State} (hs : P s) (dev : BitVec 16) (addr : BitVec 24) (len : BitVec 8) :
    P (s.i2cRemoteRead dev addr len) := by
  have h1 := h.mono (B := [.regs, .answer, .evq, .bus]) (by decide)
  have h2 := h.mono (B := [.regs, .evq, .bus]) (by decide)
  have h3 := h.mono (B := [.regs, .fresh, .evq, .fault, .cellar, .adc]) (by decide)
  have h4 := h.mono (B := [.regs, .evq, .ring]) (by decide)
  have h5 := h.mono (B := [.ring]) (by decide)
  unfold State.i2cRemoteRead
  extract_lets
  repeat' first
    | (with_reducible assumption)
    | (with_reducible apply State.i2cBad_free h1)
    | (with_reducible apply State.i2cGood_free h2)
    | (with_reducible apply State.readWords_free h3)
    | (with_reducible apply State.remoteRead_free h4)
    | (with_reducible apply State.setRmt_free h5)
    | (with_reducible refine Free.ite (fun _ => ?_) (fun _ => ?_))

theorem State.i2cTimeout_free {P : State → Prop} (h : Free P [.regs, .answer, .evq, .bus]) {s : State} (hs : P s) :
    P (s.i2cTimeout) := by
  unfold State.i2cTimeout
  repeat' first
    | (with_reducible assumption)
    | (with_reducible apply State.i2cBad_free h)
    | (with_reducible refine Free.ite (fun _ => ?_) (fun _ => ?_))

theorem State.i2cWrite_free {P : State → Prop} (h : Free P Part.all) {s : State} (hs : P s) (low : BitVec 6) (dev : Option (BitVec 16)) (addr : BitVec 24) (data : List (BitVec 8)) :
    P (s.i2cWrite low dev addr data) := by
  have h1 := h.mono (B := [.regs, .answer, .evq, .bus]) (by decide)
  have h2 := h.mono (B := [.regs, .evq, .bus]) (by decide)
  have h3 := h.mono (B := [.regs]) (by decide)
  have h4 := h.mono (B := [.regs, .evq, .ring]) (by decide)
  unfold State.i2cWrite
  extract_lets
  repeat' first
    | (with_reducible assumption)
    | (with_reducible apply State.i2cBad_free h1)
    | (with_reducible apply State.i2cGood_free h2)
    | (with_reducible apply State.injTake_free h3)
    | (with_reducible apply State.remoteWrite_free h4)
    | (with_reducible apply State.writeWords_free h)
    | (with_reducible refine Free.ite (fun _ => ?_) (fun _ => ?_))
    | split

theorem State.spiAbort_free {P : State → Prop} (h : Free P [.regs, .answer, .evq, .bus]) {s : State} (hs : P s) (m : Master) :
    P (s.spiAbort m) := by
  have h1 := h.mono (B := [.answer]) (by decide)
  have h2 := h.mono (B := [.regs, .evq, .bus]) (by decide)
  unfold State.spiAbort
  repeat' first
    | (with_reducible assumption)
    | (with_reducible apply State.reply_free h1)
    | (with_reducible apply State.spiRecord_free h2)
    | (with_reducible refine Free.ite (fun _ => ?_) (fun _ => ?_))

theorem State.spiFrame_free {P : State → Prop} (h : Free P Part.all) {s : State} (hs : P s) (m : Master) (w : Bool) (dev : Option (BitVec 16)) (f : HostFrame) :
    P (s.spiFrame m w dev f) := by
  have h1 := h.mono (B := [.regs]) (by decide)
  have h2 := h.mono (B := [.regs, .evq, .ring]) (by decide)
  have h3 := h.mono (B := [.answer]) (by decide)
  have h4 := h.mono (B := [.regs, .answer, .evq, .bus]) (by decide)
  have h5 := h.mono (B := [.regs, .evq, .bus]) (by decide)
  unfold State.spiFrame
  extract_lets
  repeat' first
    | (with_reducible assumption)
    | (with_reducible apply State.injTake_free h1)
    | (with_reducible apply State.remoteRead_free h2)
    | (with_reducible apply State.remoteWrite_free h2)
    | (with_reducible apply State.reply_free h3)
    | (with_reducible apply State.spiAbort_free h4)
    | (with_reducible apply State.spiLocal_free h)
    | (with_reducible apply State.spiRecord_free h5)
    | (with_reducible refine Free.ite (fun _ => ?_) (fun _ => ?_))
    | split

theorem State.i2cRead_free {P : State → Prop} (h : Free P [.regs, .fresh, .answer, .evq, .fault, .cellar, .adc, .bus]) {s : State} (hs : P s) (cmd : Option (BitVec 24 × BitVec 8)) (take : Option Nat) :
    P (s.i2cRead cmd take) := by
  have h1 := h.mono (B := [.regs, .answer, .evq, .bus]) (by decide)
  have h2 := h.mono (B := [.regs, .evq, .bus]) (by decide)
  have h3 := h.mono (B := [.regs, .fresh, .evq, .fault, .cellar, .adc]) (by decide)
  have h4 := h.mono (B := [.answer]) (by decide)
  unfold State.i2cRead
  repeat' first
    | (with_reducible assumption)
    | (with_reducible apply State.i2cBad_free h1)
    | (with_reducible apply State.i2cGood_free h2)
    | (with_reducible apply State.readWords_free h3)
    | (with_reducible apply State.reply_free h4)
    | (with_reducible refine Free.ite (fun _ => ?_) (fun _ => ?_))
    | split

theorem State.debugFrame_free {P : State → Prop} (h : Free P Part.all) {s : State} (hs : P s) (w : Bool) (dev : Option (BitVec 16)) (f : HostFrame) :
    P (s.debugFrame w dev f) := by
  unfold State.debugFrame
  repeat' first
    | (with_reducible assumption)
    | (with_reducible apply State.spiFrame_free h)
    | (with_reducible refine Free.ite (fun _ => ?_) (fun _ => ?_))

end Sys2Proof.Machine
end

