-- ==== Sys2Proof/Laws/AnswersHost.lean ====
section
/-! SUPPORT. Which parts each command of Machine/CmdHost.lean may change, once per command. -/

namespace Sys2Proof.Machine

theorem execSpiLocalWrite_free {P : State → Prop} (h : Free P Part.all) {s t : State} (hs : P s) (f : HostFrame) (he : execSpiLocalWrite f s = .next t) : P t := by
  refine effect_free (h.mono (by decide)) hs (fun u hu => ?_) he
  have h1 := h.mono (B := []) (by decide)
  have h2 := h.mono (B := Part.all) (by decide)
  repeat' first
    | (with_reducible assumption)
    | (with_reducible apply State.through_free h1)
    | (with_reducible apply State.spiFrame_free h2)
    | (intro _ _)

theorem execSpiLocalRead_free {P : State → Prop} (h : Free P Part.all) {s t : State} (hs : P s) (f : HostFrame) (he : execSpiLocalRead f s = .next t) : P t := by
  refine effect_free (h.mono (by decide)) hs (fun u hu => ?_) he
  have h1 := h.mono (B := []) (by decide)
  have h2 := h.mono (B := Part.all) (by decide)
  repeat' first
    | (with_reducible assumption)
    | (with_reducible apply State.through_free h1)
    | (with_reducible apply State.spiFrame_free h2)
    | (intro _ _)

theorem execSpiRemoteWrite_free {P : State → Prop} (h : Free P Part.all) {s t : State} (hs : P s) (dev : BitVec 16) (f : HostFrame) (he : execSpiRemoteWrite dev f s = .next t) : P t := by
  refine effect_free (h.mono (by decide)) hs (fun u hu => ?_) he
  have h1 := h.mono (B := []) (by decide)
  have h2 := h.mono (B := Part.all) (by decide)
  repeat' first
    | (with_reducible assumption)
    | (with_reducible apply State.through_free h1)
    | (with_reducible apply State.spiFrame_free h2)
    | (intro _ _)

theorem execSpiRemoteRead_free {P : State → Prop} (h : Free P Part.all) {s t : State} (hs : P s) (dev : BitVec 16) (f : HostFrame) (he : execSpiRemoteRead dev f s = .next t) : P t := by
  refine effect_free (h.mono (by decide)) hs (fun u hu => ?_) he
  have h1 := h.mono (B := []) (by decide)
  have h2 := h.mono (B := Part.all) (by decide)
  repeat' first
    | (with_reducible assumption)
    | (with_reducible apply State.through_free h1)
    | (with_reducible apply State.spiFrame_free h2)
    | (intro _ _)

theorem execSpiAbort_free {P : State → Prop} (h : Free P [.regs, .answer, .evq, .port, .ring, .bus]) {s t : State} (hs : P s) (he : execSpiAbort s = .next t) : P t := by
  refine simple_free (h.mono (by decide)) hs (fun u hu => ?_) he
  have h1 := h.mono (B := []) (by decide)
  have h2 := h.mono (B := [.regs, .answer, .evq, .bus]) (by decide)
  repeat' first
    | (with_reducible assumption)
    | (with_reducible apply State.through_free h1)
    | (with_reducible apply State.spiAbort_free h2)
    | (intro _ _)

theorem execI2cWrite_free {P : State → Prop} (h : Free P Part.all) {s t : State} (hs : P s) (low : BitVec 6) (dev : Option (BitVec 16)) (addr : BitVec 24) (data : List (BitVec 8)) (he : execI2cWrite low dev addr data s = .next t) : P t := by
  refine effect_free (h.mono (by decide)) hs (fun u hu => ?_) he
  have h1 := h.mono (B := []) (by decide)
  have h2 := h.mono (B := Part.all) (by decide)
  repeat' first
    | (with_reducible assumption)
    | (with_reducible apply State.through_free h1)
    | (with_reducible apply State.i2cWrite_free h2)
    | (intro _ _)

theorem execI2cLocalRead_free {P : State → Prop} (h : Free P [.regs, .mem, .mode, .fresh, .answer, .dev, .evq, .fault, .lamp, .cellar, .op, .adc, .link, .est, .feed, .rail, .seq, .svc, .port, .ring, .bus]) {s t : State} (hs : P s) (cmd : Option (BitVec 24 × BitVec 8)) (take : Option Nat) (he : execI2cLocalRead cmd take s = .next t) : P t := by
  refine effect_free (h.mono (by decide)) hs (fun u hu => ?_) he
  have h1 := h.mono (B := []) (by decide)
  have h2 := h.mono (B := [.regs, .fresh, .answer, .evq, .fault, .cellar, .adc, .bus]) (by decide)
  repeat' first
    | (with_reducible assumption)
    | (with_reducible apply State.through_free h1)
    | (with_reducible apply State.i2cRead_free h2)
    | (intro _ _)

theorem execI2cRemoteRead_free {P : State → Prop} (h : Free P [.regs, .mem, .mode, .fresh, .answer, .dev, .evq, .fault, .lamp, .cellar, .op, .adc, .link, .est, .feed, .rail, .seq, .svc, .port, .ring, .bus]) {s t : State} (hs : P s) (dev : BitVec 16) (addr : BitVec 24) (len : BitVec 8) (he : execI2cRemoteRead dev addr len s = .next t) : P t := by
  refine effect_free (h.mono (by decide)) hs (fun u hu => ?_) he
  have h1 := h.mono (B := []) (by decide)
  have h2 := h.mono (B := [.regs, .fresh, .answer, .evq, .fault, .cellar, .adc, .ring, .bus]) (by decide)
  repeat' first
    | (with_reducible assumption)
    | (with_reducible apply State.through_free h1)
    | (with_reducible apply State.i2cRemoteRead_free h2)
    | (intro _ _)

theorem execI2cTimeout_free {P : State → Prop} (h : Free P [.regs, .answer, .evq, .port, .ring, .bus]) {s t : State} (hs : P s) (he : execI2cTimeout s = .next t) : P t := by
  refine simple_free (h.mono (by decide)) hs (fun u hu => ?_) he
  have h1 := h.mono (B := [.regs, .answer, .evq, .bus]) (by decide)
  repeat' first
    | (with_reducible assumption)
    | (with_reducible apply State.i2cTimeout_free h1)

theorem execI2cWakeMatch_free {P : State → Prop} (h : Free P Part.all) {s t : State} (hs : P s) (he : execI2cWakeMatch s = .next t) : P t := by
  refine effect_free (h.mono (by decide)) hs (fun u hu => ?_) he
  have h1 := h.mono (B := []) (by decide)
  have h2 := h.mono (B := Part.all) (by decide)
  repeat' first
    | (with_reducible assumption)
    | (with_reducible apply State.through_free h1)
    | (with_reducible apply State.i2cWake_free h2)
    | (intro _ _)

theorem execI2cWakeTimeout_free {P : State → Prop} (h : Free P [.port, .ring, .bus]) {s t : State} (hs : P s) (he : execI2cWakeTimeout s = .next t) : P t := by
  refine simple_free (h.mono (by decide)) hs (fun u hu => ?_) he
  have h1 := h.mono (B := [.bus]) (by decide)
  repeat' first
    | (with_reducible assumption)
    | (with_reducible apply State.i2cWakeTimeout_free h1)

theorem execI2ccGo_free {P : State → Prop} (h : Free P Part.all) {s t : State} (hs : P s) (m : Master) (v : BitVec 30) (he : execI2ccGo m v s = .next t) : P t := by
  refine simple_free (h.mono (by decide)) hs (fun u hu => ?_) he
  have h1 := h.mono (B := Part.all) (by decide)
  repeat' first
    | (with_reducible assumption)
    | (with_reducible apply State.hostWrite_free h1)

theorem execI2ccClear_free {P : State → Prop} (h : Free P Part.all) {s t : State} (hs : P s) (m : Master) (v : BitVec 30) (he : execI2ccClear m v s = .next t) : P t := by
  refine simple_free (h.mono (by decide)) hs (fun u hu => ?_) he
  have h1 := h.mono (B := Part.all) (by decide)
  repeat' first
    | (with_reducible assumption)
    | (with_reducible apply State.hostWrite_free h1)

theorem execI2ccDone_free {P : State → Prop} (h : Free P [.regs, .evq, .fault, .port, .ring, .bus]) {s t : State} (hs : P s) (cleared : Bool) (e : I2ccEnd) (rx : List (BitVec 8)) (he : execI2ccDone cleared e rx s = .next t) : P t := by
  refine simple_free (h.mono (by decide)) hs (fun u hu => ?_) he
  have h1 := h.mono (B := [.regs, .evq, .fault, .bus]) (by decide)
  repeat' first
    | (with_reducible assumption)
    | (with_reducible apply State.i2ccEnd_free h1)

theorem execI2ccStretchTimeout_free {P : State → Prop} (h : Free P [.regs, .evq, .fault, .port, .ring, .bus]) {s t : State} (hs : P s) (he : execI2ccStretchTimeout s = .next t) : P t := by
  refine simple_free (h.mono (by decide)) hs (fun u hu => ?_) he
  have h1 := h.mono (B := [.regs, .evq, .fault, .bus]) (by decide)
  repeat' first
    | (with_reducible assumption)
    | (with_reducible apply State.i2ccStretch_free h1)

theorem execDebugLinkFrame_free {P : State → Prop} (h : Free P Part.all) {s t : State} (hs : P s) (w : Bool) (dev : Option (BitVec 16)) (f : HostFrame) (he : execDebugLinkFrame w dev f s = .next t) : P t := by
  refine effect_free (h.mono (by decide)) hs (fun u hu => ?_) he
  have h1 := h.mono (B := Part.all) (by decide)
  repeat' first
    | (with_reducible assumption)
    | (with_reducible apply State.debugFrame_free h1)

end Sys2Proof.Machine
end

