-- ==== Sys2Proof/Laws/AnswersImage.lean ====
section
/-! SUPPORT. Which parts each command of Machine/CmdImage.lean may change, once per command. -/

namespace Sys2Proof.Machine

theorem execRelight_free {P : State → Prop} (h : Free P Part.all) {s t : State} (hs : P s) (m : Master) (v : Word) (he : execRelight m v s = .next t) : P t := by
  refine effect_free (h.mono (by decide)) hs (fun u hu => ?_) he
  have h1 := h.mono (B := Part.all) (by decide)
  repeat' first
    | (with_reducible assumption)
    | (with_reducible apply State.hostWrite_free h1)

theorem execWarmRelightCopyDone_free {P : State → Prop} (h : Free P [.regs, .mem, .mode, .dev, .evq, .fault, .lamp, .op, .adc, .link, .est, .feed, .rail, .seq, .svc, .port, .ring]) {s t : State} (hs : P s) (readBad : Bool) (he : execWarmRelightCopyDone readBad s = .next t) : P t := by
  refine effect_free (h.mono (by decide)) hs (fun u hu => ?_) he
  have h1 := h.mono (B := [.regs, .evq, .fault, .lamp]) (by decide)
  repeat' first
    | (with_reducible assumption)
    | (with_reducible apply State.warmDone_free h1)

theorem execColdRelightLoadDone_free {P : State → Prop} (h : Free P [.regs, .mem, .mode, .dev, .evq, .fault, .lamp, .op, .adc, .link, .est, .feed, .rail, .seq, .svc, .port, .ring]) {s t : State} (hs : P s) (badA badB : Bool) (he : execColdRelightLoadDone badA badB s = .next t) : P t := by
  refine effect_free (h.mono (by decide)) hs (fun u hu => ?_) he
  have h1 := h.mono (B := [.regs, .mem, .evq, .fault, .lamp]) (by decide)
  repeat' first
    | (with_reducible assumption)
    | (with_reducible apply State.coldDone_free h1)

theorem execScheduleStoreWrite_free {P : State → Prop} (h : Free P Part.all) {s t : State} (hs : P s) (m : Master) (addr : BitVec 24) (v : Word) (he : execScheduleStoreWrite m addr v s = .next t) : P t := by
  refine effect_free (h.mono (by decide)) hs (fun u hu => ?_) he
  have h1 := h.mono (B := Part.all) (by decide)
  repeat' first
    | (with_reducible assumption)
    | (with_reducible apply State.hostWrite_free h1)

theorem execBudgetDataAccess_free {P : State → Prop} (h : Free P Part.all) {s t : State} (hs : P s) (m : Master) (w : Option Word) (he : execBudgetDataAccess m w s = .next t) : P t := by
  refine effect_free (h.mono (by decide)) hs (fun u hu => ?_) he
  have h1 := h.mono (B := Part.all) (by decide)
  repeat' first
    | (with_reducible assumption)
    | (with_reducible apply State.hostAccessWord_free h1)

theorem execImageSegment_free {P : State → Prop} (h : Free P Part.all) {s t : State} (hs : P s) (m : Master) (key : BitVec 16) (bank : BitVec 2) (he : execImageSegment m key bank s = .next t) : P t := by
  refine effect_free (h.mono (by decide)) hs (fun u hu => ?_) he
  have h1 := h.mono (B := Part.all) (by decide)
  repeat' first
    | (with_reducible assumption)
    | (with_reducible apply State.hostWrite_free h1)

theorem execImageSeal_free {P : State → Prop} (h : Free P Part.all) {s t : State} (hs : P s) (m : Master) (key : BitVec 16) (bank : BitVec 2) (he : execImageSeal m key bank s = .next t) : P t := by
  refine effect_free (h.mono (by decide)) hs (fun u hu => ?_) he
  have h1 := h.mono (B := Part.all) (by decide)
  repeat' first
    | (with_reducible assumption)
    | (with_reducible apply State.hostWrite_free h1)

theorem execImageErase_free {P : State → Prop} (h : Free P Part.all) {s t : State} (hs : P s) (m : Master) (key : BitVec 16) (bank : BitVec 2) (he : execImageErase m key bank s = .next t) : P t := by
  refine effect_free (h.mono (by decide)) hs (fun u hu => ?_) he
  have h1 := h.mono (B := Part.all) (by decide)
  repeat' first
    | (with_reducible assumption)
    | (with_reducible apply State.hostWrite_free h1)

theorem execImageCheck_free {P : State → Prop} (h : Free P Part.all) {s t : State} (hs : P s) (m : Master) (key : BitVec 16) (bank : BitVec 2) (he : execImageCheck m key bank s = .next t) : P t := by
  refine effect_free (h.mono (by decide)) hs (fun u hu => ?_) he
  have h1 := h.mono (B := Part.all) (by decide)
  repeat' first
    | (with_reducible assumption)
    | (with_reducible apply State.hostWrite_free h1)

theorem execAtticCommit_free {P : State → Prop} (h : Free P Part.all) {s t : State} (hs : P s) (m : Master) (key : BitVec 16) (he : execAtticCommit m key s = .next t) : P t := by
  refine effect_free (h.mono (by decide)) hs (fun u hu => ?_) he
  have h1 := h.mono (B := Part.all) (by decide)
  repeat' first
    | (with_reducible assumption)
    | (with_reducible apply State.hostWrite_free h1)

theorem execAtticCompare_free {P : State → Prop} (h : Free P Part.all) {s t : State} (hs : P s) (m : Master) (key : BitVec 16) (he : execAtticCompare m key s = .next t) : P t := by
  refine effect_free (h.mono (by decide)) hs (fun u hu => ?_) he
  have h1 := h.mono (B := Part.all) (by decide)
  repeat' first
    | (with_reducible assumption)
    | (with_reducible apply State.hostWrite_free h1)

theorem execOcvCommit_free {P : State → Prop} (h : Free P Part.all) {s t : State} (hs : P s) (m : Master) (key : BitVec 16) (set : BitVec 2) (he : execOcvCommit m key set s = .next t) : P t := by
  refine effect_free (h.mono (by decide)) hs (fun u hu => ?_) he
  have h1 := h.mono (B := Part.all) (by decide)
  repeat' first
    | (with_reducible assumption)
    | (with_reducible apply State.hostWrite_free h1)

theorem execOcvReload_free {P : State → Prop} (h : Free P Part.all) {s t : State} (hs : P s) (m : Master) (key : BitVec 16) (set : BitVec 2) (he : execOcvReload m key set s = .next t) : P t := by
  refine effect_free (h.mono (by decide)) hs (fun u hu => ?_) he
  have h1 := h.mono (B := Part.all) (by decide)
  repeat' first
    | (with_reducible assumption)
    | (with_reducible apply State.hostWrite_free h1)

theorem execOcvCheck_free {P : State → Prop} (h : Free P Part.all) {s t : State} (hs : P s) (m : Master) (key : BitVec 16) (set : BitVec 2) (he : execOcvCheck m key set s = .next t) : P t := by
  refine effect_free (h.mono (by decide)) hs (fun u hu => ?_) he
  have h1 := h.mono (B := Part.all) (by decide)
  repeat' first
    | (with_reducible assumption)
    | (with_reducible apply State.hostWrite_free h1)

theorem execOcvSetWrite_free {P : State → Prop} (h : Free P Part.all) {s t : State} (hs : P s) (m : Master) (addr : BitVec 24) (v : Word) (he : execOcvSetWrite m addr v s = .next t) : P t := by
  refine effect_free (h.mono (by decide)) hs (fun u hu => ?_) he
  have h1 := h.mono (B := Part.all) (by decide)
  repeat' first
    | (with_reducible assumption)
    | (with_reducible apply State.hostWrite_free h1)

end Sys2Proof.Machine
end

