-- ==== Sys2Proof/Laws/AnswersLane.lean ====
section
/-! SUPPORT. Which parts each command of Machine/CmdLane.lean may change, once per command. -/

namespace Sys2Proof.Machine

theorem execCycleMarker_free {P : State → Prop} (h : Free P [.regs, .mem, .mode, .dev, .evq, .fault, .lamp, .op, .adc, .link, .est, .bal, .hb, .inp, .pack, .feed, .rail, .seq, .svc, .port, .ring]) {s t : State} (hs : P s) (settled inLimit : Bool) (fets : List FetSense) (he : execCycleMarker settled inLimit fets s = .next t) : P t := by
  refine effect_free (h.mono (by decide)) hs (fun u hu => ?_) he
  have h1 := h.mono (B := [.regs, .mem, .evq, .fault, .lamp, .adc, .bal, .hb, .inp, .pack, .feed]) (by decide)
  repeat' first
    | (with_reducible assumption)
    | (with_reducible apply State.cycleMarker_free h1)

theorem execGuardMarker_free {P : State → Prop} (h : Free P [.regs, .mem, .mode, .dev, .evq, .fault, .lamp, .op, .adc, .link, .est, .feed, .rail, .seq, .svc, .port, .ring]) {s t : State} (hs : P s) (he : execGuardMarker s = .next t) : P t := by
  refine effect_free (h.mono (by decide)) hs (fun u hu => ?_) he
  have h1 := h.mono (B := [.regs, .evq, .lamp]) (by decide)
  repeat' first
    | (with_reducible assumption)
    | (with_reducible apply State.guardMarker_free h1)

theorem execHibernateMarker_free {P : State → Prop} (h : Free P [.regs, .mem, .mode, .dev, .evq, .fault, .lamp, .op, .adc, .link, .est, .bal, .hb, .inp, .pack, .feed, .rail, .seq, .svc, .port, .ring]) {s t : State} (hs : P s) (rail settled : Bool) (he : execHibernateMarker rail settled s = .next t) : P t := by
  refine effect_free (h.mono (by decide)) hs (fun u hu => ?_) he
  have h1 := h.mono (B := [.regs, .mem, .evq, .lamp, .adc, .bal, .hb, .inp, .pack]) (by decide)
  repeat' first
    | (with_reducible assumption)
    | (with_reducible apply State.hibMarker_free h1)

theorem execRoundBoundary_free {P : State → Prop} (h : Free P [.regs, .mem, .mode, .dev, .evq, .fault, .lamp, .op, .pwm, .adc, .link, .est, .bal, .hb, .inp, .pack, .feed, .rail, .seq, .svc, .port, .ring]) {s t : State} (hs : P s) (he : execRoundBoundary s = .next t) : P t := by
  refine effect_free (h.mono (by decide)) hs (fun u hu => ?_) he
  have h1 := h.mono (B := [.regs, .mem, .evq, .fault, .lamp, .pwm, .link, .est, .bal, .hb, .inp, .pack, .feed]) (by decide)
  repeat' first
    | (with_reducible assumption)
    | (with_reducible apply State.roundBoundary_free h1)

theorem execFrameBoundary_free {P : State → Prop} (h : Free P [.regs, .mem, .mode, .dev, .evq, .fault, .lamp, .op, .pwm, .adc, .link, .est, .bal, .hb, .pack, .feed, .feedL, .rail, .seq, .svc, .port, .ring]) {s t : State} (hs : P s) (he : execFrameBoundary s = .next t) : P t := by
  refine effect_free (h.mono (by decide)) hs (fun u hu => ?_) he
  have h1 := h.mono (B := [.regs, .mem, .mode, .dev, .evq, .lamp, .pwm, .link, .est, .bal, .hb, .pack, .feed, .feedL, .svc, .ring]) (by decide)
  repeat' first
    | (with_reducible assumption)
    | (with_reducible apply State.frameBoundary_free h1)

theorem execEpochBoundary_free {P : State → Prop} (h : Free P [.regs, .mem, .mode, .dev, .evq, .fault, .lamp, .op, .adc, .link, .est, .feed, .rail, .seq, .svc, .port, .ring]) {s t : State} (hs : P s) (corr : Nat) (he : execEpochBoundary corr s = .next t) : P t := by
  refine effect_free (h.mono (by decide)) hs (fun u hu => ?_) he
  have h1 := h.mono (B := [.regs, .mem, .evq, .fault, .ring]) (by decide)
  repeat' first
    | (with_reducible assumption)
    | (with_reducible apply State.epochEnd_free h1)

theorem execSlotNop_free {P : State → Prop} (h : Free P [.regs, .mem, .mode, .dev, .evq, .fault, .lamp, .op, .adc, .link, .est, .feed, .rail, .seq, .svc, .port, .ring]) {s t : State} (hs : P s) (x : Slot) (he : execSlotNop x s = .next t) : P t := by
  refine slotEffect_free (h.mono (by decide)) hs (fun o u hu => ?_) he
  split
  all_goals
    repeat' first
      | (with_reducible assumption)
      | (intro _ _)

theorem execSlotEnd_free {P : State → Prop} (h : Free P [.regs, .mem, .mode, .dev, .evq, .fault, .lamp, .op, .adc, .link, .est, .feed, .rail, .seq, .svc, .port, .ring]) {s t : State} (hs : P s) (x : Slot) (he : execSlotEnd x s = .next t) : P t := by
  refine slotEffect_free (h.mono (by decide)) hs (fun o u hu => ?_) he
  have h1 := h.mono (B := [.lamp]) (by decide)
  split
  all_goals
    repeat' first
      | (with_reducible assumption)
      | (with_reducible apply State.slotEnd_free h1)
      | (intro _ _)

theorem execSlotWait_free {P : State → Prop} (h : Free P [.regs, .mem, .mode, .dev, .evq, .fault, .lamp, .op, .adc, .link, .est, .feed, .rail, .seq, .svc, .port, .ring]) {s t : State} (hs : P s) (x : Slot) (he : execSlotWait x s = .next t) : P t := by
  refine slotEffect_free (h.mono (by decide)) hs (fun o u hu => ?_) he
  have h1 := h.mono (B := [.lamp]) (by decide)
  split
  all_goals
    repeat' first
      | (with_reducible assumption)
      | (with_reducible apply State.slotWait_free h1)
      | (intro _ _)

theorem execWaitExpire_free {P : State → Prop} (h : Free P [.lamp, .port, .ring]) {s t : State} (hs : P s) (lane : Fin 6) (level : Fin 3) (he : execWaitExpire lane level s = .next t) : P t := by
  refine simple_free (h.mono (by decide)) hs (fun u hu => ?_) he
  have h1 := h.mono (B := [.lamp]) (by decide)
  repeat' first
    | (with_reducible assumption)
    | (with_reducible apply State.waitExpire_free h1)

theorem execModejump_free {P : State → Prop} (h : Free P [.regs, .mem, .mode, .dev, .evq, .fault, .lamp, .op, .adc, .link, .est, .feed, .rail, .seq, .svc, .port, .ring]) {s t : State} (hs : P s) (x : Slot) (he : execModejump x s = .next t) : P t := by
  refine slotEffect_free (h.mono (by decide)) hs (fun o u hu => ?_) he
  have h1 := h.mono (B := [.regs, .mode, .evq, .lamp]) (by decide)
  split
  all_goals
    repeat' first
      | (with_reducible assumption)
      | (with_reducible apply State.modeJump_free h1)
      | (with_reducible refine Free.ite (fun _ => ?_) (fun _ => ?_))
      | (intro _ _)

theorem execRdvGive_free {P : State → Prop} (h : Free P [.regs, .mem, .mode, .dev, .evq, .fault, .lamp, .op, .adc, .link, .est, .feed, .rail, .seq, .svc, .port, .ring]) {s t : State} (hs : P s) (x : Slot) (he : execRdvGive x s = .next t) : P t := by
  refine slotEffect_free (h.mono (by decide)) hs (fun o u hu => ?_) he
  have h1 := h.mono (B := [.regs, .evq, .fault, .lamp]) (by decide)
  split
  all_goals
    repeat' first
      | (with_reducible assumption)
      | (with_reducible apply State.rdvGive_free h1)
      | (intro _ _)

theorem execRdvTake_free {P : State → Prop} (h : Free P [.regs, .mem, .mode, .dev, .evq, .fault, .lamp, .op, .adc, .link, .est, .feed, .rail, .seq, .svc, .port, .ring]) {s t : State} (hs : P s) (x : Slot) (he : execRdvTake x s = .next t) : P t := by
  refine slotEffect_free (h.mono (by decide)) hs (fun o u hu => ?_) he
  have h1 := h.mono (B := [.regs, .evq, .fault, .lamp]) (by decide)
  have h2 := h.mono (B := [.regs, .evq]) (by decide)
  split
  all_goals
    repeat' first
      | (with_reducible assumption)
      | (with_reducible apply State.rdvTake_free h1)
      | (with_reducible apply State.level_free h2)
      | (intro _ _)

theorem execTrigger_free {P : State → Prop} (h : Free P [.regs, .mem, .mode, .dev, .evq, .fault, .lamp, .op, .adc, .link, .est, .feed, .rail, .seq, .svc, .port, .ring]) {s t : State} (hs : P s) (x : Slot) (he : execTrigger x s = .next t) : P t := by
  refine slotEffect_free (h.mono (by decide)) hs (fun o u hu => ?_) he
  have h1 := h.mono (B := [.regs, .evq, .adc]) (by decide)
  split
  all_goals
    repeat' first
      | (with_reducible assumption)
      | (with_reducible apply State.startTable_free h1)
      | (intro _ _)

theorem execComp_free {P : State → Prop} (h : Free P [.regs, .mem, .mode, .dev, .evq, .fault, .lamp, .op, .pwm, .adc, .link, .est, .bal, .pack, .feed, .rail, .seq, .svc, .port, .ring]) {s t : State} (hs : P s) (x : Slot) (he : execComp x s = .next t) : P t := by
  refine slotEffect_free (h.mono (by decide)) hs (fun o u hu => ?_) he
  have h1 := h.mono (B := [.regs, .evq, .pwm, .bal, .pack, .rail, .seq, .svc]) (by decide)
  split
  all_goals
    repeat' first
      | (with_reducible assumption)
      | (with_reducible apply State.compUnit_free h1)
      | (with_reducible refine Free.ite (fun _ => ?_) (fun _ => ?_))
      | (intro _ _)

theorem execPwmload_free {P : State → Prop} (h : Free P [.regs, .mem, .mode, .dev, .evq, .fault, .lamp, .op, .pwm, .adc, .link, .est, .feed, .rail, .seq, .svc, .port, .ring]) {s t : State} (hs : P s) (x : Slot) (he : execPwmload x s = .next t) : P t := by
  refine slotEffect_free (h.mono (by decide)) hs (fun o u hu => ?_) he
  have h1 := h.mono (B := [.pwm]) (by decide)
  split
  all_goals
    repeat' first
      | (with_reducible assumption)
      | (with_reducible apply State.pwmLoad_free h1)
      | (with_reducible refine Free.ite (fun _ => ?_) (fun _ => ?_))
      | (intro _ _)

theorem execCheck_free {P : State → Prop} (h : Free P [.regs, .mem, .mode, .fresh, .dev, .evq, .fault, .lamp, .cellar, .op, .adc, .link, .est, .feed, .rail, .seq, .svc, .port, .ring]) {s t : State} (hs : P s) (x : Slot) (he : execCheck x s = .next t) : P t := by
  refine slotEffect_free (h.mono (by decide)) hs (fun o u hu => ?_) he
  have h1 := h.mono (B := [.regs, .fresh, .evq, .fault, .cellar, .adc]) (by decide)
  split
  all_goals
    repeat' first
      | (with_reducible assumption)
      | (with_reducible apply State.slotCheck_free h1)
      | (with_reducible refine Free.ite (fun _ => ?_) (fun _ => ?_))
      | (intro _ _)

theorem execMove_free {P : State → Prop} (h : Free P Part.all) {s t : State} (hs : P s) (x : Slot) (he : execMove x s = .next t) : P t := by
  refine slotEffect_free (h.mono (by decide)) hs (fun o u hu => ?_) he
  have h1 := h.mono (B := Part.all) (by decide)
  split
  all_goals
    repeat' first
      | (with_reducible assumption)
      | (with_reducible apply State.slotMove_free h1)
      | (with_reducible refine Free.ite (fun _ => ?_) (fun _ => ?_))
      | (intro _ _)

theorem execLinktx_free {P : State → Prop} (h : Free P [.regs, .mem, .mode, .dev, .evq, .fault, .lamp, .op, .pwm, .adc, .link, .est, .bal, .hb, .feed, .rail, .seq, .svc, .port, .ring]) {s t : State} (hs : P s) (x : Slot) (he : execLinktx x s = .next t) : P t := by
  refine slotEffect_free (h.mono (by decide)) hs (fun o u hu => ?_) he
  have h1 := h.mono (B := [.regs, .mem, .evq, .fault, .pwm, .link, .est, .bal, .hb]) (by decide)
  have h2 := h.mono (B := [.regs, .mem, .evq, .fault, .link]) (by decide)
  split
  all_goals
    repeat' first
      | (with_reducible assumption)
      | (with_reducible apply State.linkEvent_free h1)
      | (with_reducible apply State.linkTx_free h2)
      | (with_reducible refine Free.ite (fun _ => ?_) (fun _ => ?_))
      | (intro _ _)

theorem execLinktxRing_free {P : State → Prop} (h : Free P Part.all) {s t : State} (hs : P s) (x : Slot) (he : execLinktxRing x s = .next t) : P t := by
  refine slotEffect_free (h.mono (by decide)) hs (fun o u hu => ?_) he
  have h1 := h.mono (B := Part.all) (by decide)
  split
  all_goals
    repeat' first
      | (with_reducible assumption)
      | (with_reducible apply State.ringSlot_free h1)
      | (with_reducible refine Free.ite (fun _ => ?_) (fun _ => ?_))
      | (intro _ _)

theorem execEstupd_free {P : State → Prop} (h : Free P [.regs, .mem, .mode, .dev, .evq, .fault, .lamp, .op, .adc, .link, .est, .feed, .rail, .seq, .svc, .port, .ring]) {s t : State} (hs : P s) (x : Slot) (he : execEstupd x s = .next t) : P t := by
  refine slotEffect_free (h.mono (by decide)) hs (fun o u hu => ?_) he
  have h1 := h.mono (B := [.regs, .mem, .evq, .fault, .est]) (by decide)
  split
  all_goals
    repeat' first
      | (with_reducible assumption)
      | (with_reducible apply State.estUpdate_free h1)
      | (with_reducible refine Free.ite (fun _ => ?_) (fun _ => ?_))
      | (intro _ _)

theorem execEstupdDemod_free {P : State → Prop} (h : Free P [.regs, .mem, .mode, .dev, .evq, .fault, .lamp, .op, .adc, .link, .est, .bal, .feed, .rail, .seq, .svc, .port, .ring]) {s t : State} (hs : P s) (x : Slot) (he : execEstupdDemod x s = .next t) : P t := by
  refine slotEffect_free (h.mono (by decide)) hs (fun o u hu => ?_) he
  have h1 := h.mono (B := [.regs, .mem, .evq]) (by decide)
  have h2 := h.mono (B := [.regs, .evq, .bal]) (by decide)
  split
  all_goals
    repeat' first
      | (with_reducible assumption)
      | (with_reducible apply State.estDemod_free h1)
      | (with_reducible apply State.overlayCheck_free h2)
      | (with_reducible refine Free.ite (fun _ => ?_) (fun _ => ?_))
      | (intro _ _)

theorem execRank_free {P : State → Prop} (h : Free P [.regs, .mem, .mode, .dev, .evq, .fault, .lamp, .op, .adc, .link, .est, .hb, .feed, .rail, .seq, .svc, .port, .ring]) {s t : State} (hs : P s) (x : Slot) (he : execRank x s = .next t) : P t := by
  refine slotEffect_free (h.mono (by decide)) hs (fun o u hu => ?_) he
  have h1 := h.mono (B := [.regs, .mem, .hb]) (by decide)
  split
  all_goals
    repeat' first
      | (with_reducible assumption)
      | (with_reducible apply State.rank_free h1)
      | (with_reducible refine Free.ite (fun _ => ?_) (fun _ => ?_))
      | (intro _ _)

theorem execDispatchRoundStep_free {P : State → Prop} (h : Free P [.regs, .mem, .mode, .dev, .evq, .fault, .lamp, .op, .adc, .link, .est, .hb, .feed, .rail, .seq, .svc, .port, .ring]) {s t : State} (hs : P s) (x : Slot) (he : execDispatchRoundStep x s = .next t) : P t := by
  refine slotEffect_free (h.mono (by decide)) hs (fun o u hu => ?_) he
  have h1 := h.mono (B := [.regs, .evq, .fault, .hb]) (by decide)
  split
  all_goals
    repeat' first
      | (with_reducible assumption)
      | (with_reducible apply State.roundStep_free h1)
      | (with_reducible refine Free.ite (fun _ => ?_) (fun _ => ?_))
      | (intro _ _)

theorem execDispatchFrameStep_free {P : State → Prop} (h : Free P [.regs, .mem, .mode, .dev, .evq, .fault, .lamp, .op, .adc, .link, .est, .feed, .rail, .seq, .svc, .port, .ring]) {s t : State} (hs : P s) (x : Slot) (he : execDispatchFrameStep x s = .next t) : P t := by
  refine slotEffect_free (h.mono (by decide)) hs (fun o u hu => ?_) he
  have h1 := h.mono (B := [.regs, .evq]) (by decide)
  split
  all_goals
    repeat' first
      | (with_reducible assumption)
      | (with_reducible apply State.frameStep_free h1)
      | (with_reducible refine Free.ite (fun _ => ?_) (fun _ => ?_))
      | (intro _ _)

theorem execSelect_free {P : State → Prop} (h : Free P [.regs, .mem, .mode, .dev, .evq, .fault, .lamp, .op, .pwm, .adc, .link, .est, .bal, .hb, .feed, .rail, .seq, .svc, .port, .ring]) {s t : State} (hs : P s) (x : Slot) (he : execSelect x s = .next t) : P t := by
  refine slotEffect_free (h.mono (by decide)) hs (fun o u hu => ?_) he
  have h1 := h.mono (B := [.regs, .mem, .evq, .fault, .pwm, .link, .est, .bal, .hb]) (by decide)
  have h2 := h.mono (B := [.regs, .mem, .evq, .fault, .pwm, .link, .bal, .hb]) (by decide)
  split
  all_goals
    repeat' first
      | (with_reducible assumption)
      | (with_reducible apply State.linkEvent_free h1)
      | (with_reducible apply State.selBegin_free h2)
      | (with_reducible refine Free.ite (fun _ => ?_) (fun _ => ?_))
      | (intro _ _)

theorem execSlotResourceFree_free {P : State → Prop} (h : Free P [.regs, .mem, .mode, .dev, .evq, .fault, .lamp, .op, .adc, .link, .est, .feed, .rail, .seq, .svc, .port, .ring]) {s t : State} (hs : P s) (x : Slot) (used d : Nat) (he : execSlotResourceFree x used d s = .next t) : P t := by
  refine checked_free (h.mono (by decide)) hs (fun u hu => ?_) he
  have h1 := h.mono (B := [.regs, .evq, .fault, .lamp]) (by decide)
  repeat' first
    | (with_reducible assumption)
    | (with_reducible apply State.resourceFree_free h1)

theorem execSlotBudgetExpire_free {P : State → Prop} (h : Free P [.regs, .mem, .mode, .dev, .evq, .fault, .lamp, .op, .adc, .link, .est, .feed, .rail, .seq, .svc, .port, .ring]) {s t : State} (hs : P s) (x : Slot) (he : execSlotBudgetExpire x s = .next t) : P t := by
  refine checked_free (h.mono (by decide)) hs (fun u hu => ?_) he
  have h1 := h.mono (B := [.regs, .evq, .fault, .lamp, .adc, .link]) (by decide)
  repeat' first
    | (with_reducible assumption)
    | (with_reducible apply State.budgetExpire_free h1)

theorem execTableCut_free {P : State → Prop} (h : Free P [.regs, .mem, .mode, .dev, .evq, .fault, .lamp, .op, .adc, .link, .est, .feed, .rail, .seq, .svc, .port, .ring]) {s t : State} (hs : P s) (x : Slot) (he : execTableCut x s = .next t) : P t := by
  refine checked_free (h.mono (by decide)) hs (fun u hu => ?_) he
  have h1 := h.mono (B := [.regs, .evq, .fault, .lamp]) (by decide)
  repeat' first
    | (with_reducible assumption)
    | (with_reducible apply State.tableCut_free h1)

theorem execLockstepMismatch_free {P : State → Prop} (h : Free P [.regs, .evq, .fault, .lamp, .port, .ring]) {s t : State} (hs : P s) (lane : Fin 6) (he : execLockstepMismatch lane s = .next t) : P t := by
  refine simple_free (h.mono (by decide)) hs (fun u hu => ?_) he
  have h1 := h.mono (B := [.regs, .evq, .fault, .lamp]) (by decide)
  repeat' first
    | (with_reducible assumption)
    | (with_reducible apply State.lockstep_free h1)

end Sys2Proof.Machine
end

