-- ==== Sys2Proof/Laws/AnswersLink.lean ====
section
/-! SUPPORT. Which parts each command of Machine/CmdLink.lean may change, once per command. -/

namespace Sys2Proof.Machine

theorem execLinkEnumerate_free {P : State → Prop} (h : Free P Part.all) {s t : State} (hs : P s) (m : Master) (n : Fin 16) (key : BitVec 16) (he : execLinkEnumerate m n key s = .next t) : P t := by
  refine effect_free (h.mono (by decide)) hs (fun u hu => ?_) he
  have h1 := h.mono (B := Part.all) (by decide)
  repeat' first
    | (with_reducible assumption)
    | (with_reducible apply State.hostWrite_free h1)

theorem execLinkMeasure_free {P : State → Prop} (h : Free P Part.all) {s t : State} (hs : P s) (m : Master) (n : Fin 16) (key : BitVec 16) (he : execLinkMeasure m n key s = .next t) : P t := by
  refine effect_free (h.mono (by decide)) hs (fun u hu => ?_) he
  have h1 := h.mono (B := Part.all) (by decide)
  repeat' first
    | (with_reducible assumption)
    | (with_reducible apply State.hostWrite_free h1)

theorem execLinkSend_free {P : State → Prop} (h : Free P Part.all) {s t : State} (hs : P s) (m : Master) (n : Fin 16) (key : BitVec 16) (template : BitVec 5) (he : execLinkSend m n key template s = .next t) : P t := by
  refine effect_free (h.mono (by decide)) hs (fun u hu => ?_) he
  have h1 := h.mono (B := Part.all) (by decide)
  repeat' first
    | (with_reducible assumption)
    | (with_reducible apply State.hostWrite_free h1)

theorem execLinkReturn_free {P : State → Prop} (h : Free P [.regs, .mem, .mode, .dev, .evq, .fault, .lamp, .op, .pwm, .adc, .link, .est, .bal, .hb, .feed, .rail, .seq, .svc, .port, .ring]) {s t : State} (hs : P s) (n : Fin 16) (pairB : Bool) (rt : Nat) (bytes : List Byte) (fits : Bool) (he : execLinkReturn n pairB rt bytes fits s = .next t) : P t := by
  refine effect_free (h.mono (by decide)) hs (fun u hu => ?_) he
  have h1 := h.mono (B := [.regs, .mem, .evq, .fault, .pwm, .link, .est, .bal, .hb]) (by decide)
  have h2 := h.mono (B := [.regs, .mem, .evq, .fault, .link]) (by decide)
  repeat' first
    | (with_reducible assumption)
    | (with_reducible apply State.linkEvent_free h1)
    | (with_reducible apply State.linkReturn_free h2)
    | (intro _ _)

theorem execReturnWindowClose_free {P : State → Prop} (h : Free P [.regs, .mem, .mode, .dev, .evq, .fault, .lamp, .op, .pwm, .adc, .link, .est, .bal, .hb, .feed, .rail, .seq, .svc, .port, .ring]) {s t : State} (hs : P s) (n : Fin 16) (fits : Bool) (he : execReturnWindowClose n fits s = .next t) : P t := by
  refine effect_free (h.mono (by decide)) hs (fun u hu => ?_) he
  have h1 := h.mono (B := [.regs, .mem, .evq, .fault, .pwm, .link, .est, .bal, .hb]) (by decide)
  have h2 := h.mono (B := [.regs, .mem, .evq, .fault, .link]) (by decide)
  repeat' first
    | (with_reducible assumption)
    | (with_reducible apply State.linkEvent_free h1)
    | (with_reducible apply State.windowClose_free h2)
    | (intro _ _)

theorem execLinkStale_free {P : State → Prop} (h : Free P [.regs, .mem, .mode, .dev, .evq, .fault, .lamp, .op, .pwm, .adc, .link, .est, .bal, .hb, .feed, .rail, .seq, .svc, .port, .ring]) {s t : State} (hs : P s) (n : Fin 16) (he : execLinkStale n s = .next t) : P t := by
  refine effect_free (h.mono (by decide)) hs (fun u hu => ?_) he
  have h1 := h.mono (B := [.regs, .mem, .evq, .fault, .pwm, .link, .est, .bal, .hb]) (by decide)
  have h2 := h.mono (B := [.regs, .fault, .link]) (by decide)
  repeat' first
    | (with_reducible assumption)
    | (with_reducible apply State.linkEvent_free h1)
    | (with_reducible apply State.linkStale_free h2)
    | (intro _ _)

theorem execDeselectRetry_free {P : State → Prop} (h : Free P [.regs, .mem, .mode, .dev, .evq, .fault, .lamp, .op, .pwm, .adc, .link, .est, .bal, .hb, .feed, .rail, .seq, .svc, .port, .ring]) {s t : State} (hs : P s) (n : Fin 16) (he : execDeselectRetry n s = .next t) : P t := by
  refine effect_free (h.mono (by decide)) hs (fun u hu => ?_) he
  have h1 := h.mono (B := [.regs, .mem, .evq, .fault, .pwm, .link, .est, .bal, .hb]) (by decide)
  have h2 := h.mono (B := [.regs, .mem, .evq, .fault, .link]) (by decide)
  repeat' first
    | (with_reducible assumption)
    | (with_reducible apply State.linkEvent_free h1)
    | (with_reducible apply State.deselRetry_free h2)
    | (intro _ _)

theorem execSelovr_free {P : State → Prop} (h : Free P Part.all) {s t : State} (hs : P s) (m : Master) (n : Fin 16) (key : BitVec 16) (node : BitVec 6) (he : execSelovr m n key node s = .next t) : P t := by
  refine effect_free (h.mono (by decide)) hs (fun u hu => ?_) he
  have h1 := h.mono (B := Part.all) (by decide)
  repeat' first
    | (with_reducible assumption)
    | (with_reducible apply State.hostWrite_free h1)

end Sys2Proof.Machine
end

