-- ==== Sys2Proof/Laws/AnswersModes.lean ====
section
/-! SUPPORT. Which parts each command of Machine/CmdModes.lean may change, once per command. -/

namespace Sys2Proof.Machine

theorem execBiasSourceChange_free {P : State → Prop} (h : Free P [.regs, .mem, .mode, .dev, .evq, .fault, .lamp, .op, .adc, .link, .est, .feed, .rail, .seq, .svc, .port, .ring]) {s t : State} (hs : P s) (vib startUp vbus : Bool) (he : execBiasSourceChange vib startUp vbus s = .next t) : P t := by
  refine effect_free (h.mono (by decide)) hs (fun u hu => ?_) he
  have h1 := h.mono (B := [.dev]) (by decide)
  repeat' first
    | (with_reducible assumption)
    | (with_reducible apply State.biasChange_free h1)

theorem execBiasLost_free {P : State → Prop} (h : Free P Part.all) {s t : State} (hs : P s) (vib startUp vbus : Bool) (he : execBiasLost vib startUp vbus s = .next t) : P t := by
  refine effect_free (h.mono (by decide)) hs (fun u hu => ?_) he
  have h1 := h.mono (B := Part.all) (by decide)
  repeat' first
    | (with_reducible assumption)
    | (with_reducible apply State.biasLost_free h1)

theorem execBiasGood_free {P : State → Prop} (h : Free P Part.all) {s t : State} (hs : P s) (vib startUp vbus : Bool) (he : execBiasGood vib startUp vbus s = .next t) : P t := by
  refine effect_free (h.mono (by decide)) hs (fun u hu => ?_) he
  have h1 := h.mono (B := Part.all) (by decide)
  repeat' first
    | (with_reducible assumption)
    | (with_reducible apply State.biasGood_free h1)

theorem execCellarPowerOn_free {P : State → Prop} (h : Free P Part.all) {s t : State} (hs : P s) (he : execCellarPowerOn s = .next t) : P t := by
  refine simple_free (h.mono (by decide)) hs (fun u hu => ?_) he
  have h1 := h.mono (B := Part.all) (by decide)
  repeat' first
    | (with_reducible assumption)
    | (with_reducible apply State.cellarPowerOn_free h1)

theorem execDeviceResetRelease_free {P : State → Prop} (h : Free P Part.all) {s t : State} (hs : P s) (addr : Fin 8) (head img verifyBad readBad : Bool) (he : execDeviceResetRelease addr head img verifyBad readBad s = .next t) : P t := by
  refine effect_free (h.mono (by decide)) hs (fun u hu => ?_) he
  have h1 := h.mono (B := Part.all) (by decide)
  repeat' first
    | (with_reducible assumption)
    | (with_reducible apply State.resetDone_free h1)

theorem execResetinNAssert_free {P : State → Prop} (h : Free P Part.all) {s t : State} (hs : P s) (he : execResetinNAssert s = .next t) : P t := by
  refine effect_free (h.mono (by decide)) hs (fun u hu => ?_) he
  have h1 := h.mono (B := []) (by decide)
  have h2 := h.mono (B := Part.all) (by decide)
  repeat' first
    | (with_reducible assumption)
    | (with_reducible apply State.through_free h1)
    | (with_reducible apply State.resetPin_free h2)
    | (intro _ _)

theorem execDevReset_free {P : State → Prop} (h : Free P Part.all) {s t : State} (hs : P s) (m : Master) (key : BitVec 16) (he : execDevReset m key s = .next t) : P t := by
  refine effect_free (h.mono (by decide)) hs (fun u hu => ?_) he
  have h1 := h.mono (B := Part.all) (by decide)
  repeat' first
    | (with_reducible assumption)
    | (with_reducible apply State.hostWrite_free h1)

theorem execModereqRun_free {P : State → Prop} (h : Free P [.regs, .mem, .mode, .dev, .evq, .fault, .lamp, .op, .pwm, .adc, .cmp, .link, .est, .bal, .hb, .inp, .pack, .feed, .feedL, .rail, .seq, .svc, .port, .ring]) {s t : State} (hs : P s) (m : Master) (key : BitVec 16) (superseded badA badB : Bool) (he : execModereqRun m key superseded badA badB s = .next t) : P t := by
  refine effect_free (h.mono (by decide)) hs (fun u hu => ?_) he
  have h1 := h.mono (B := [.regs, .mem, .mode, .dev, .evq, .fault, .lamp, .op, .pwm, .adc, .cmp, .link, .est, .bal, .hb, .inp, .pack, .feed, .feedL, .rail, .seq, .svc]) (by decide)
  repeat' first
    | (with_reducible assumption)
    | (with_reducible apply State.modeRequest_free h1)

theorem execModereqSafe_free {P : State → Prop} (h : Free P [.regs, .mem, .mode, .dev, .evq, .fault, .lamp, .op, .pwm, .adc, .cmp, .link, .est, .bal, .hb, .inp, .pack, .feed, .feedL, .rail, .seq, .svc, .port, .ring]) {s t : State} (hs : P s) (m : Master) (key : BitVec 16) (superseded : Bool) (he : execModereqSafe m key superseded s = .next t) : P t := by
  refine effect_free (h.mono (by decide)) hs (fun u hu => ?_) he
  have h1 := h.mono (B := [.regs, .mem, .mode, .dev, .evq, .fault, .lamp, .op, .pwm, .adc, .cmp, .link, .est, .bal, .hb, .inp, .pack, .feed, .feedL, .rail, .seq, .svc]) (by decide)
  repeat' first
    | (with_reducible assumption)
    | (with_reducible apply State.modeRequest_free h1)

theorem execModereqService_free {P : State → Prop} (h : Free P [.regs, .mem, .mode, .dev, .evq, .fault, .lamp, .op, .pwm, .adc, .cmp, .link, .est, .bal, .hb, .inp, .pack, .feed, .feedL, .rail, .seq, .svc, .port, .ring]) {s t : State} (hs : P s) (m : Master) (key : BitVec 16) (superseded : Bool) (he : execModereqService m key superseded s = .next t) : P t := by
  refine effect_free (h.mono (by decide)) hs (fun u hu => ?_) he
  have h1 := h.mono (B := [.regs, .mem, .mode, .dev, .evq, .fault, .lamp, .op, .pwm, .adc, .cmp, .link, .est, .bal, .hb, .inp, .pack, .feed, .feedL, .rail, .seq, .svc]) (by decide)
  repeat' first
    | (with_reducible assumption)
    | (with_reducible apply State.modeRequest_free h1)

theorem execModereqHibernate_free {P : State → Prop} (h : Free P [.regs, .mem, .mode, .dev, .evq, .fault, .lamp, .op, .pwm, .adc, .cmp, .link, .est, .bal, .hb, .inp, .pack, .feed, .feedL, .rail, .seq, .svc, .port, .ring]) {s t : State} (hs : P s) (m : Master) (key : BitVec 16) (superseded : Bool) (he : execModereqHibernate m key superseded s = .next t) : P t := by
  refine effect_free (h.mono (by decide)) hs (fun u hu => ?_) he
  have h1 := h.mono (B := [.regs, .mem, .mode, .dev, .evq, .fault, .lamp, .op, .pwm, .adc, .cmp, .link, .est, .bal, .hb, .inp, .pack, .feed, .feedL, .rail, .seq, .svc]) (by decide)
  repeat' first
    | (with_reducible assumption)
    | (with_reducible apply State.modeRequest_free h1)

theorem execModereqOff_free {P : State → Prop} (h : Free P [.regs, .mem, .mode, .dev, .evq, .fault, .lamp, .op, .pwm, .adc, .cmp, .link, .est, .bal, .hb, .inp, .pack, .feed, .feedL, .rail, .seq, .svc, .port, .ring]) {s t : State} (hs : P s) (m : Master) (key : BitVec 16) (superseded : Bool) (he : execModereqOff m key superseded s = .next t) : P t := by
  refine effect_free (h.mono (by decide)) hs (fun u hu => ?_) he
  have h1 := h.mono (B := [.regs, .mem, .mode, .dev, .evq, .fault, .lamp, .op, .pwm, .adc, .cmp, .link, .est, .bal, .hb, .inp, .pack, .feed, .feedL, .rail, .seq, .svc]) (by decide)
  repeat' first
    | (with_reducible assumption)
    | (with_reducible apply State.modeRequest_free h1)

theorem execPowercycle_free {P : State → Prop} (h : Free P Part.all) {s t : State} (hs : P s) (m : Master) (key tOff : BitVec 16) (he : execPowercycle m key tOff s = .next t) : P t := by
  refine effect_free (h.mono (by decide)) hs (fun u hu => ?_) he
  have h1 := h.mono (B := Part.all) (by decide)
  repeat' first
    | (with_reducible assumption)
    | (with_reducible apply State.hostWrite_free h1)

theorem execPowercycleOffExpire_free {P : State → Prop} (h : Free P Part.all) {s t : State} (hs : P s) (he : execPowercycleOffExpire s = .next t) : P t := by
  refine effect_free (h.mono (by decide)) hs (fun u hu => ?_) he
  have h1 := h.mono (B := Part.all) (by decide)
  repeat' first
    | (with_reducible assumption)
    | (with_reducible apply State.offExpire_free h1)

theorem execCellarOnRequest_free {P : State → Prop} (h : Free P Part.all) {s t : State} (hs : P s) (src : Option (Fin 7)) (he : execCellarOnRequest src s = .next t) : P t := by
  refine effect_free (h.mono (by decide)) hs (fun u hu => ?_) he
  have h1 := h.mono (B := Part.all) (by decide)
  repeat' first
    | (with_reducible assumption)
    | (with_reducible apply State.onRequest_free h1)

theorem execFallComplete_free {P : State → Prop} (h : Free P Part.all) {s t : State} (hs : P s) (he : execFallComplete s = .next t) : P t := by
  refine effect_free (h.mono (by decide)) hs (fun u hu => ?_) he
  have h1 := h.mono (B := Part.all) (by decide)
  repeat' first
    | (with_reducible assumption)
    | (with_reducible apply State.fallComplete_free h1)

theorem execPllLock_free {P : State → Prop} (h : Free P [.regs, .mem, .mode, .dev, .evq, .fault, .lamp, .op, .adc, .link, .est, .inp, .feed, .rail, .seq, .svc, .port, .ring, .bus]) {s t : State} (hs : P s) (ext : Bool) (he : execPllLock ext s = .next t) : P t := by
  refine effect_free (h.mono (by decide)) hs (fun u hu => ?_) he
  have h1 := h.mono (B := [.regs, .mem, .dev, .evq, .fault, .est, .inp, .ring, .bus]) (by decide)
  repeat' first
    | (with_reducible assumption)
    | (with_reducible apply State.pllLock_free h1)

theorem execStartUpCalibrationDone_free {P : State → Prop} (h : Free P [.regs, .mem, .mode, .dev, .evq, .fault, .lamp, .op, .adc, .link, .est, .feed, .rail, .seq, .svc, .port, .ring]) {s t : State} (hs : P s) (a b c d : List CalMeas) (he : execStartUpCalibrationDone a b c d s = .next t) : P t := by
  refine checked_free (h.mono (by decide)) hs (fun u hu => ?_) he
  have h1 := h.mono (B := [.regs, .dev, .evq, .fault, .adc]) (by decide)
  repeat' first
    | (with_reducible assumption)
    | (with_reducible apply State.calStart_free h1)

theorem execImageSelection_free {P : State → Prop} (h : Free P [.regs, .mem, .mode, .dev, .evq, .fault, .lamp, .op, .adc, .link, .est, .feed, .rail, .seq, .svc, .port, .ring]) {s t : State} (hs : P s) (badA badB : Bool) (he : execImageSelection badA badB s = .next t) : P t := by
  refine effect_free (h.mono (by decide)) hs (fun u hu => ?_) he
  have h1 := h.mono (B := [.regs, .mem, .dev, .evq, .fault, .lamp, .adc]) (by decide)
  repeat' first
    | (with_reducible assumption)
    | (with_reducible apply State.imageRise_free h1)

theorem execPreloadApply_free {P : State → Prop} (h : Free P Part.all) {s t : State} (hs : P s) (he : execPreloadApply s = .next t) : P t := by
  refine effect_free (h.mono (by decide)) hs (fun u hu => ?_) he
  have h1 := h.mono (B := Part.all) (by decide)
  repeat' first
    | (with_reducible assumption)
    | (with_reducible apply State.preloadApply_free h1)

theorem execRiseEnd_free {P : State → Prop} (h : Free P [.regs, .mem, .mode, .dev, .evq, .fault, .lamp, .wdog, .op, .adc, .link, .est, .feed, .feedL, .rail, .seq, .svc, .port, .ring]) {s t : State} (hs : P s) (he : execRiseEnd s = .next t) : P t := by
  refine effect_free (h.mono (by decide)) hs (fun u hu => ?_) he
  have h1 := h.mono (B := [.regs, .mem, .mode, .evq, .fault, .lamp, .wdog, .adc, .feed, .feedL, .svc, .ring]) (by decide)
  repeat' first
    | (with_reducible assumption)
    | (with_reducible apply State.riseEnd_free h1)

theorem execRailStartHoldEnd_free {P : State → Prop} (h : Free P Part.all) {s t : State} (hs : P s) (he : execRailStartHoldEnd s = .next t) : P t := by
  refine effect_free (h.mono (by decide)) hs (fun u hu => ?_) he
  have h1 := h.mono (B := Part.all) (by decide)
  repeat' first
    | (with_reducible assumption)
    | (with_reducible apply State.vhbRise_free h1)
    | (with_reducible refine Free.ite (fun _ => ?_) (fun _ => ?_))

theorem execWake_free {P : State → Prop} (h : Free P Part.all) {s t : State} (hs : P s) (src : Fin 7) (he : execWake src s = .next t) : P t := by
  refine effect_free (h.mono (by decide)) hs (fun u hu => ?_) he
  have h1 := h.mono (B := Part.all) (by decide)
  repeat' first
    | (with_reducible assumption)
    | (with_reducible apply State.wakeSource_free h1)
    | (with_reducible refine Free.ite (fun _ => ?_) (fun _ => ?_))

theorem execStopAutoRestart_free {P : State → Prop} (h : Free P [.regs, .mem, .mode, .dev, .evq, .fault, .lamp, .op, .adc, .link, .est, .feed, .rail, .seq, .svc, .port, .ring]) {s t : State} (hs : P s) (he : execStopAutoRestart s = .next t) : P t := by
  refine effect_free (h.mono (by decide)) hs (fun u hu => ?_) he
  have h1 := h.mono (B := [.regs, .mode, .dev, .evq, .fault, .lamp, .feed, .rail, .seq]) (by decide)
  repeat' first
    | (with_reducible assumption)
    | (with_reducible apply State.stopRestart_free h1)

theorem execThermalRelease_free {P : State → Prop} (h : Free P [.regs, .mem, .mode, .dev, .evq, .fault, .lamp, .op, .adc, .link, .est, .feed, .rail, .seq, .svc, .therm, .port, .ring]) {s t : State} (hs : P s) (he : execThermalRelease s = .next t) : P t := by
  refine effect_free (h.mono (by decide)) hs (fun u hu => ?_) he
  have h1 := h.mono (B := [.regs, .mode, .dev, .evq, .lamp, .feed, .rail, .seq, .therm]) (by decide)
  repeat' first
    | (with_reducible assumption)
    | (with_reducible apply State.thermRelease_free h1)

theorem execVddioBankChange_free {P : State → Prop} (h : Free P [.regs, .mem, .mode, .dev, .evq, .fault, .lamp, .op, .adc, .link, .est, .pack, .feed, .rail, .seq, .svc, .port, .ring]) {s t : State} (hs : P s) (bank : Fin 5) (low : Bool) (he : execVddioBankChange bank low s = .next t) : P t := by
  refine effect_free (h.mono (by decide)) hs (fun u hu => ?_) he
  have h1 := h.mono (B := [.dev, .pack]) (by decide)
  repeat' first
    | (with_reducible assumption)
    | (with_reducible apply State.vddioChange_free h1)

theorem execTestAssert_free {P : State → Prop} (h : Free P Part.all) {s t : State} (hs : P s) (high : Bool) (he : execTestAssert high s = .next t) : P t := by
  refine effect_free (h.mono (by decide)) hs (fun u hu => ?_) he
  have h1 := h.mono (B := []) (by decide)
  have h2 := h.mono (B := Part.all) (by decide)
  repeat' first
    | (with_reducible assumption)
    | (with_reducible apply State.through_free h1)
    | (with_reducible apply State.testPin_free h2)
    | (intro _ _)

theorem execJtagInstruction_free {P : State → Prop} (h : Free P [.dev, .port, .ring]) {s t : State} (hs : P s) (instr : Fin 4) (he : execJtagInstruction instr s = .next t) : P t := by
  refine simple_free (h.mono (by decide)) hs (fun u hu => ?_) he
  have h1 := h.mono (B := []) (by decide)
  repeat' first
    | (with_reducible assumption)
    | (with_reducible apply State.through_free h1)
    | (intro _ _)
    | (with_reducible refine (h.dev (by decide) _ ?_))

end Sys2Proof.Machine
end

