-- ==== Sys2Proof/Laws/AnswersPath.lean ====
section
/-! SUPPORT. Which parts each command of Machine/CmdPath.lean may change, once per command. -/

namespace Sys2Proof.Machine

theorem execInpathResult_free {P : State → Prop} (h : Free P [.regs, .mem, .mode, .dev, .evq, .fault, .lamp, .op, .adc, .link, .est, .inp, .feed, .rail, .seq, .svc, .port, .ring]) {s t : State} (hs : P s) (which : Fin 3) (he : execInpathResult which s = .next t) : P t := by
  refine effect_free (h.mono (by decide)) hs (fun u hu => ?_) he
  have h1 := h.mono (B := [.regs, .inp]) (by decide)
  repeat' first
    | (with_reducible assumption)
    | (with_reducible apply State.inpResult_free h1)

theorem execInpathSenseLoss_free {P : State → Prop} (h : Free P [.regs, .fault, .port, .ring]) {s t : State} (hs : P s) (he : execInpathSenseLoss s = .next t) : P t := by
  refine simple_free (h.mono (by decide)) hs (fun u hu => ?_) he
  have h1 := h.mono (B := [.regs, .fault]) (by decide)
  repeat' first
    | (with_reducible assumption)
    | (with_reducible apply State.inpSenseLoss_free h1)

theorem execInpathGateEnhanced_free {P : State → Prop} (h : Free P [.regs, .evq, .port, .ring]) {s t : State} (hs : P s) (he : execInpathGateEnhanced s = .next t) : P t := by
  refine simple_free (h.mono (by decide)) hs (fun u hu => ?_) he
  have h1 := h.mono (B := [.regs, .evq]) (by decide)
  repeat' first
    | (with_reducible assumption)
    | (with_reducible apply State.inpEnhanced_free h1)

theorem execInpathStartTimeout_free {P : State → Prop} (h : Free P [.regs, .evq, .fault, .inp, .port, .ring]) {s t : State} (hs : P s) (he : execInpathStartTimeout s = .next t) : P t := by
  refine simple_free (h.mono (by decide)) hs (fun u hu => ?_) he
  have h1 := h.mono (B := [.regs, .evq, .fault, .inp]) (by decide)
  repeat' first
    | (with_reducible assumption)
    | (with_reducible apply State.inpStartTimeout_free h1)

theorem execInpathReverseBlock_free {P : State → Prop} (h : Free P [.regs, .evq, .inp, .port, .ring]) {s t : State} (hs : P s) (after : Nat) (he : execInpathReverseBlock after s = .next t) : P t := by
  refine simple_free (h.mono (by decide)) hs (fun u hu => ?_) he
  have h1 := h.mono (B := [.regs, .evq, .inp]) (by decide)
  repeat' first
    | (with_reducible assumption)
    | (with_reducible apply State.inpReverse_free h1)

theorem execInpathCurrentLimit_free {P : State → Prop} (h : Free P [.regs, .evq, .port, .ring]) {s t : State} (hs : P s) (he : execInpathCurrentLimit s = .next t) : P t := by
  refine simple_free (h.mono (by decide)) hs (fun u hu => ?_) he
  have h1 := h.mono (B := [.regs, .evq]) (by decide)
  repeat' first
    | (with_reducible assumption)
    | (with_reducible apply State.inpLimit_free h1)

theorem execInpathFastTrip_free {P : State → Prop} (h : Free P [.regs, .evq, .fault, .inp, .port, .ring]) {s t : State} (hs : P s) (he : execInpathFastTrip s = .next t) : P t := by
  refine simple_free (h.mono (by decide)) hs (fun u hu => ?_) he
  have h1 := h.mono (B := [.regs, .evq, .fault, .inp]) (by decide)
  repeat' first
    | (with_reducible assumption)
    | (with_reducible apply State.inpFast_free h1)

theorem execInpathUvovRecover_free {P : State → Prop} (h : Free P [.regs, .evq, .inp, .port, .ring]) {s t : State} (hs : P s) (he : execInpathUvovRecover s = .next t) : P t := by
  refine simple_free (h.mono (by decide)) hs (fun u hu => ?_) he
  have h1 := h.mono (B := [.regs, .evq, .inp]) (by decide)
  repeat' first
    | (with_reducible assumption)
    | (with_reducible apply State.inpRecover_free h1)

theorem execInpathTimedTrip_free {P : State → Prop} (h : Free P [.regs, .evq, .fault, .inp, .port, .ring]) {s t : State} (hs : P s) (he : execInpathTimedTrip s = .next t) : P t := by
  refine simple_free (h.mono (by decide)) hs (fun u hu => ?_) he
  have h1 := h.mono (B := [.regs, .evq, .fault, .inp]) (by decide)
  repeat' first
    | (with_reducible assumption)
    | (with_reducible apply State.inpTimed_free h1)

theorem execInpathRetry_free {P : State → Prop} (h : Free P [.regs, .evq, .inp, .port, .ring]) {s t : State} (hs : P s) (he : execInpathRetry s = .next t) : P t := by
  refine simple_free (h.mono (by decide)) hs (fun u hu => ?_) he
  have h1 := h.mono (B := [.regs, .evq, .inp]) (by decide)
  repeat' first
    | (with_reducible assumption)
    | (with_reducible apply State.inpRetry_free h1)

theorem execInpathConsecReset_free {P : State → Prop} (h : Free P [.regs, .port, .ring]) {s t : State} (hs : P s) (he : execInpathConsecReset s = .next t) : P t := by
  refine simple_free (h.mono (by decide)) hs (fun u hu => ?_) he
  have h1 := h.mono (B := [.regs]) (by decide)
  repeat' first
    | (with_reducible assumption)
    | (with_reducible apply State.inpConsecReset_free h1)

theorem execInputLoss_free {P : State → Prop} (h : Free P [.regs, .evq, .port, .ring]) {s t : State} (hs : P s) (he : execInputLoss s = .next t) : P t := by
  refine simple_free (h.mono (by decide)) hs (fun u hu => ?_) he
  have h1 := h.mono (B := [.regs, .evq]) (by decide)
  repeat' first
    | (with_reducible assumption)
    | (with_reducible apply State.inputLoss_free h1)

theorem execReturnOk_free {P : State → Prop} (h : Free P [.regs, .port, .ring]) {s t : State} (hs : P s) (he : execReturnOk s = .next t) : P t := by
  refine simple_free (h.mono (by decide)) hs (fun u hu => ?_) he
  have h1 := h.mono (B := [.regs]) (by decide)
  repeat' first
    | (with_reducible assumption)
    | (with_reducible apply State.returnJudge_free h1)

theorem execRshedRounds_free {P : State → Prop} (h : Free P [.regs, .evq, .pack, .port, .ring]) {s t : State} (hs : P s) (he : execRshedRounds s = .next t) : P t := by
  refine simple_free (h.mono (by decide)) hs (fun u hu => ?_) he
  have h1 := h.mono (B := [.regs, .evq, .pack]) (by decide)
  repeat' first
    | (with_reducible assumption)
    | (with_reducible apply State.rshedRounds_free h1)

theorem execRshedRestore_free {P : State → Prop} (h : Free P [.regs, .pack, .port, .ring]) {s t : State} (hs : P s) (he : execRshedRestore s = .next t) : P t := by
  refine simple_free (h.mono (by decide)) hs (fun u hu => ?_) he
  have h1 := h.mono (B := [.regs, .pack]) (by decide)
  repeat' first
    | (with_reducible assumption)
    | (with_reducible apply State.rshedRestore_free h1)

theorem execPackPresence_free {P : State → Prop} (h : Free P [.regs, .evq, .pack, .port, .ring]) {s t : State} (hs : P s) (det : Bool) (he : execPackPresence det s = .next t) : P t := by
  refine simple_free (h.mono (by decide)) hs (fun u hu => ?_) he
  have h1 := h.mono (B := [.regs, .evq, .pack]) (by decide)
  repeat' first
    | (with_reducible assumption)
    | (with_reducible apply State.packPresence_free h1)

theorem execPackPrechargeTimeout_free {P : State → Prop} (h : Free P [.regs, .evq, .port, .ring]) {s t : State} (hs : P s) (he : execPackPrechargeTimeout s = .next t) : P t := by
  refine simple_free (h.mono (by decide)) hs (fun u hu => ?_) he
  have h1 := h.mono (B := [.regs, .evq]) (by decide)
  repeat' first
    | (with_reducible assumption)
    | (with_reducible apply State.prechargeTimeout_free h1)

theorem execPackTermination_free {P : State → Prop} (h : Free P [.regs, .mem, .evq, .pack, .port, .ring]) {s t : State} (hs : P s) (he : execPackTermination s = .next t) : P t := by
  refine simple_free (h.mono (by decide)) hs (fun u hu => ?_) he
  have h1 := h.mono (B := [.regs, .mem, .evq, .pack]) (by decide)
  repeat' first
    | (with_reducible assumption)
    | (with_reducible apply State.packDone_free h1)

theorem execPackSafetyTimeout_free {P : State → Prop} (h : Free P [.regs, .evq, .pack, .port, .ring]) {s t : State} (hs : P s) (he : execPackSafetyTimeout s = .next t) : P t := by
  refine simple_free (h.mono (by decide)) hs (fun u hu => ?_) he
  have h1 := h.mono (B := [.regs, .evq, .pack]) (by decide)
  repeat' first
    | (with_reducible assumption)
    | (with_reducible apply State.safetyOut_free h1)

theorem execPackTolatchClear_free {P : State → Prop} (h : Free P Part.all) {s t : State} (hs : P s) (m : Master) (key : BitVec 16) (he : execPackTolatchClear m key s = .next t) : P t := by
  refine effect_free (h.mono (by decide)) hs (fun u hu => ?_) he
  have h1 := h.mono (B := Part.all) (by decide)
  repeat' first
    | (with_reducible assumption)
    | (with_reducible apply State.hostWrite_free h1)

theorem execPackRestart_free {P : State → Prop} (h : Free P Part.all) {s t : State} (hs : P s) (m : Master) (key : BitVec 16) (he : execPackRestart m key s = .next t) : P t := by
  refine effect_free (h.mono (by decide)) hs (fun u hu => ?_) he
  have h1 := h.mono (B := Part.all) (by decide)
  repeat' first
    | (with_reducible assumption)
    | (with_reducible apply State.hostWrite_free h1)

theorem execPackHold_free {P : State → Prop} (h : Free P Part.all) {s t : State} (hs : P s) (m : Master) (key : BitVec 16) (he : execPackHold m key s = .next t) : P t := by
  refine effect_free (h.mono (by decide)) hs (fun u hu => ?_) he
  have h1 := h.mono (B := Part.all) (by decide)
  repeat' first
    | (with_reducible assumption)
    | (with_reducible apply State.hostWrite_free h1)

theorem execPackHiccupEnd_free {P : State → Prop} (h : Free P [.regs, .evq, .pack, .port, .ring]) {s t : State} (hs : P s) (he : execPackHiccupEnd s = .next t) : P t := by
  refine simple_free (h.mono (by decide)) hs (fun u hu => ?_) he
  have h1 := h.mono (B := [.regs, .evq, .pack]) (by decide)
  repeat' first
    | (with_reducible assumption)
    | (with_reducible apply State.packHicEnd_free h1)

theorem execPackSenseLoss_free {P : State → Prop} (h : Free P [.regs, .fault, .pack, .port, .ring]) {s t : State} (hs : P s) (he : execPackSenseLoss s = .next t) : P t := by
  refine simple_free (h.mono (by decide)) hs (fun u hu => ?_) he
  have h1 := h.mono (B := [.regs, .fault, .pack]) (by decide)
  repeat' first
    | (with_reducible assumption)
    | (with_reducible apply State.packSenseLoss_free h1)

end Sys2Proof.Machine
end

