-- ==== Sys2Proof/Laws/AnswersPort.lean ====
section
/-! SUPPORT. Which parts each command of Machine/CmdPort.lean may change, once per command. -/

namespace Sys2Proof.Machine

theorem execTypecToggle_free {P : State → Prop} (h : Free P [.regs, .mem, .mode, .dev, .evq, .fault, .lamp, .op, .adc, .link, .est, .feed, .rail, .seq, .svc, .port, .ring]) {s t : State} (hs : P s) (he : execTypecToggle s = .next t) : P t := by
  refine effect_free (h.mono (by decide)) hs (fun u hu => ?_) he
  have h1 := h.mono (B := [.regs, .port]) (by decide)
  repeat' first
    | (with_reducible assumption)
    | (with_reducible apply State.toggle_free h1)

theorem execTypecAttach_free {P : State → Prop} (h : Free P [.regs, .mem, .mode, .dev, .evq, .fault, .lamp, .op, .adc, .link, .est, .feed, .rail, .seq, .svc, .port, .ring]) {s t : State} (hs : P s) (cc2 : Bool) (rp : Fin 3) (v : BitVec 12) (dead : Bool) (he : execTypecAttach cc2 rp v dead s = .next t) : P t := by
  refine effect_free (h.mono (by decide)) hs (fun u hu => ?_) he
  have h1 := h.mono (B := [.regs, .evq, .fault, .port]) (by decide)
  repeat' first
    | (with_reducible assumption)
    | (with_reducible apply State.attach_free h1)

theorem execTrySnkExpire_free {P : State → Prop} (h : Free P [.regs, .mem, .mode, .dev, .evq, .fault, .lamp, .op, .adc, .link, .est, .feed, .rail, .seq, .svc, .port, .ring]) {s t : State} (hs : P s) (he : execTrySnkExpire s = .next t) : P t := by
  refine effect_free (h.mono (by decide)) hs (fun u hu => ?_) he
  have h1 := h.mono (B := [.regs]) (by decide)
  repeat' first
    | (with_reducible assumption)
    | (with_reducible apply State.trySnkEnd_free h1)

theorem execTypecDetach_free {P : State → Prop} (h : Free P [.regs, .mem, .mode, .dev, .evq, .fault, .lamp, .op, .adc, .link, .est, .feed, .rail, .seq, .svc, .port, .ring]) {s t : State} (hs : P s) (vbusLost : Bool) (he : execTypecDetach vbusLost s = .next t) : P t := by
  refine effect_free (h.mono (by decide)) hs (fun u hu => ?_) he
  have h1 := h.mono (B := [.regs, .evq, .port]) (by decide)
  repeat' first
    | (with_reducible assumption)
    | (with_reducible apply State.detach_free h1)

theorem execAccessory_free {P : State → Prop} (h : Free P [.regs, .mem, .mode, .dev, .evq, .fault, .lamp, .op, .adc, .link, .est, .feed, .rail, .seq, .svc, .port, .ring]) {s t : State} (hs : P s) (he : execAccessory s = .next t) : P t := by
  refine effect_free (h.mono (by decide)) hs (fun u hu => ?_) he
  have h1 := h.mono (B := [.regs, .evq, .port]) (by decide)
  repeat' first
    | (with_reducible assumption)
    | (with_reducible apply State.accessorySeen_free h1)

theorem execVconnOvercurrent_free {P : State → Prop} (h : Free P [.regs, .mem, .mode, .dev, .evq, .fault, .lamp, .op, .adc, .link, .est, .feed, .rail, .seq, .svc, .port, .ring]) {s t : State} (hs : P s) (he : execVconnOvercurrent s = .next t) : P t := by
  refine effect_free (h.mono (by decide)) hs (fun u hu => ?_) he
  have h1 := h.mono (B := [.regs, .evq, .port]) (by decide)
  repeat' first
    | (with_reducible assumption)
    | (with_reducible apply State.vconnTrip_free h1)

theorem execTypecErrorRecovery_free {P : State → Prop} (h : Free P Part.all) {s t : State} (hs : P s) (m : Master) (key : BitVec 16) (he : execTypecErrorRecovery m key s = .next t) : P t := by
  refine effect_free (h.mono (by decide)) hs (fun u hu => ?_) he
  have h1 := h.mono (B := Part.all) (by decide)
  repeat' first
    | (with_reducible assumption)
    | (with_reducible apply State.hostWrite_free h1)

theorem execErrorRecoveryEnd_free {P : State → Prop} (h : Free P [.regs, .mem, .mode, .dev, .evq, .fault, .lamp, .op, .adc, .link, .est, .feed, .rail, .seq, .svc, .port, .ring]) {s t : State} (hs : P s) (he : execErrorRecoveryEnd s = .next t) : P t := by
  refine effect_free (h.mono (by decide)) hs (fun u hu => ?_) he
  have h1 := h.mono (B := [.regs, .evq, .port]) (by decide)
  repeat' first
    | (with_reducible assumption)
    | (with_reducible apply State.recoveryEnd_free h1)

theorem execPdSourceCapsSend_free {P : State → Prop} (h : Free P [.regs, .mem, .mode, .dev, .evq, .fault, .lamp, .op, .adc, .link, .est, .feed, .rail, .seq, .svc, .port, .ring]) {s t : State} (hs : P s) (acked : Bool) (he : execPdSourceCapsSend acked s = .next t) : P t := by
  refine effect_free (h.mono (by decide)) hs (fun u hu => ?_) he
  have h1 := h.mono (B := [.regs, .fault, .port]) (by decide)
  repeat' first
    | (with_reducible assumption)
    | (with_reducible apply State.capsSend_free h1)

theorem execPdSourceCapsRx_free {P : State → Prop} (h : Free P [.regs, .mem, .mode, .dev, .evq, .fault, .lamp, .op, .adc, .link, .est, .feed, .rail, .seq, .svc, .port, .ring]) {s t : State} (hs : P s) (caps : List Word) (good : Bool) (he : execPdSourceCapsRx caps good s = .next t) : P t := by
  refine checked_free (h.mono (by decide)) hs (fun u hu => ?_) he
  have h1 := h.mono (B := [.regs, .port]) (by decide)
  have h2 := h.mono (B := [.regs, .evq, .fault, .port]) (by decide)
  repeat' first
    | (with_reducible assumption)
    | (with_reducible apply State.pdRx_free h1)
    | (with_reducible apply State.capsRx_free h2)
    | (intro _ _)

theorem execPdRequestRx_free {P : State → Prop} (h : Free P [.regs, .mem, .mode, .dev, .evq, .fault, .lamp, .op, .adc, .link, .est, .feed, .rail, .seq, .svc, .port, .ring]) {s t : State} (hs : P s) (rdo : Word) (good : Bool) (he : execPdRequestRx rdo good s = .next t) : P t := by
  refine effect_free (h.mono (by decide)) hs (fun u hu => ?_) he
  have h1 := h.mono (B := [.regs, .port]) (by decide)
  have h2 := h.mono (B := [.regs, .evq, .port]) (by decide)
  repeat' first
    | (with_reducible assumption)
    | (with_reducible apply State.pdRx_free h1)
    | (with_reducible apply State.requestRx_free h2)
    | (intro _ _)

theorem execPdPsRdySend_free {P : State → Prop} (h : Free P [.regs, .mem, .mode, .dev, .evq, .fault, .lamp, .op, .adc, .link, .est, .feed, .rail, .seq, .svc, .port, .ring]) {s t : State} (hs : P s) (he : execPdPsRdySend s = .next t) : P t := by
  refine effect_free (h.mono (by decide)) hs (fun u hu => ?_) he
  have h1 := h.mono (B := [.regs, .evq, .port]) (by decide)
  repeat' first
    | (with_reducible assumption)
    | (with_reducible apply State.psRdySend_free h1)

theorem execPdGoodcrcTimeout_free {P : State → Prop} (h : Free P [.regs, .mem, .mode, .dev, .evq, .fault, .lamp, .op, .adc, .link, .est, .feed, .rail, .seq, .svc, .port, .ring]) {s t : State} (hs : P s) (he : execPdGoodcrcTimeout s = .next t) : P t := by
  refine effect_free (h.mono (by decide)) hs (fun u hu => ?_) he
  have h1 := h.mono (B := [.regs, .evq, .fault, .port]) (by decide)
  repeat' first
    | (with_reducible assumption)
    | (with_reducible apply State.goodCrcTimeout_free h1)

theorem execPdSwapRx_free {P : State → Prop} (h : Free P [.regs, .mem, .mode, .dev, .evq, .fault, .lamp, .op, .adc, .link, .est, .feed, .rail, .seq, .svc, .port, .ring]) {s t : State} (hs : P s) (k : PdSwap) (vconnIn good : Bool) (he : execPdSwapRx k vconnIn good s = .next t) : P t := by
  refine effect_free (h.mono (by decide)) hs (fun u hu => ?_) he
  have h1 := h.mono (B := [.regs, .port]) (by decide)
  have h2 := h.mono (B := [.regs, .evq, .port]) (by decide)
  repeat' first
    | (with_reducible assumption)
    | (with_reducible apply State.pdRx_free h1)
    | (with_reducible apply State.swapRx_free h2)
    | (intro _ _)

theorem execPdSwapTimeout_free {P : State → Prop} (h : Free P [.regs, .mem, .mode, .dev, .evq, .fault, .lamp, .op, .adc, .link, .est, .feed, .rail, .seq, .svc, .port, .ring]) {s t : State} (hs : P s) (he : execPdSwapTimeout s = .next t) : P t := by
  refine effect_free (h.mono (by decide)) hs (fun u hu => ?_) he
  have h1 := h.mono (B := [.regs, .evq, .port]) (by decide)
  repeat' first
    | (with_reducible assumption)
    | (with_reducible apply State.swapTimeout_free h1)

theorem execPdRenegotiate_free {P : State → Prop} (h : Free P Part.all) {s t : State} (hs : P s) (m : Master) (key : BitVec 16) (he : execPdRenegotiate m key s = .next t) : P t := by
  refine effect_free (h.mono (by decide)) hs (fun u hu => ?_) he
  have h1 := h.mono (B := Part.all) (by decide)
  repeat' first
    | (with_reducible assumption)
    | (with_reducible apply State.hostWrite_free h1)

theorem execPdPrSwap_free {P : State → Prop} (h : Free P Part.all) {s t : State} (hs : P s) (m : Master) (key : BitVec 16) (he : execPdPrSwap m key s = .next t) : P t := by
  refine effect_free (h.mono (by decide)) hs (fun u hu => ?_) he
  have h1 := h.mono (B := Part.all) (by decide)
  repeat' first
    | (with_reducible assumption)
    | (with_reducible apply State.hostWrite_free h1)

theorem execPdDrSwap_free {P : State → Prop} (h : Free P Part.all) {s t : State} (hs : P s) (m : Master) (key : BitVec 16) (he : execPdDrSwap m key s = .next t) : P t := by
  refine effect_free (h.mono (by decide)) hs (fun u hu => ?_) he
  have h1 := h.mono (B := Part.all) (by decide)
  repeat' first
    | (with_reducible assumption)
    | (with_reducible apply State.hostWrite_free h1)

theorem execPdVconnSwap_free {P : State → Prop} (h : Free P Part.all) {s t : State} (hs : P s) (m : Master) (key : BitVec 16) (he : execPdVconnSwap m key s = .next t) : P t := by
  refine effect_free (h.mono (by decide)) hs (fun u hu => ?_) he
  have h1 := h.mono (B := Part.all) (by decide)
  repeat' first
    | (with_reducible assumption)
    | (with_reducible apply State.hostWrite_free h1)

theorem execPdHardResetCmd_free {P : State → Prop} (h : Free P Part.all) {s t : State} (hs : P s) (m : Master) (key : BitVec 16) (he : execPdHardResetCmd m key s = .next t) : P t := by
  refine effect_free (h.mono (by decide)) hs (fun u hu => ?_) he
  have h1 := h.mono (B := Part.all) (by decide)
  repeat' first
    | (with_reducible assumption)
    | (with_reducible apply State.hostWrite_free h1)

theorem execPdSendVdm_free {P : State → Prop} (h : Free P Part.all) {s t : State} (hs : P s) (m : Master) (key : BitVec 16) (he : execPdSendVdm m key s = .next t) : P t := by
  refine effect_free (h.mono (by decide)) hs (fun u hu => ?_) he
  have h1 := h.mono (B := Part.all) (by decide)
  repeat' first
    | (with_reducible assumption)
    | (with_reducible apply State.hostWrite_free h1)

theorem execPdGetStatus_free {P : State → Prop} (h : Free P Part.all) {s t : State} (hs : P s) (m : Master) (key : BitVec 16) (he : execPdGetStatus m key s = .next t) : P t := by
  refine effect_free (h.mono (by decide)) hs (fun u hu => ?_) he
  have h1 := h.mono (B := Part.all) (by decide)
  repeat' first
    | (with_reducible assumption)
    | (with_reducible apply State.hostWrite_free h1)

theorem execPdHardReset_free {P : State → Prop} (h : Free P [.regs, .mem, .mode, .dev, .evq, .fault, .lamp, .op, .adc, .link, .est, .feed, .rail, .seq, .svc, .port, .ring]) {s t : State} (hs : P s) (he : execPdHardReset s = .next t) : P t := by
  refine effect_free (h.mono (by decide)) hs (fun u hu => ?_) he
  have h1 := h.mono (B := [.regs, .evq, .port]) (by decide)
  repeat' first
    | (with_reducible assumption)
    | (with_reducible apply State.hardResetRx_free h1)

theorem execPdHardResetVbusTimeout_free {P : State → Prop} (h : Free P [.regs, .mem, .mode, .dev, .evq, .fault, .lamp, .op, .adc, .link, .est, .feed, .rail, .seq, .svc, .port, .ring]) {s t : State} (hs : P s) (he : execPdHardResetVbusTimeout s = .next t) : P t := by
  refine effect_free (h.mono (by decide)) hs (fun u hu => ?_) he
  have h1 := h.mono (B := [.regs, .evq, .port]) (by decide)
  repeat' first
    | (with_reducible assumption)
    | (with_reducible apply State.hrSinkTimeout_free h1)

theorem execPdHardResetTimer_free {P : State → Prop} (h : Free P [.regs, .mem, .mode, .dev, .evq, .fault, .lamp, .op, .adc, .link, .est, .feed, .rail, .seq, .svc, .port, .ring]) {s t : State} (hs : P s) (he : execPdHardResetTimer s = .next t) : P t := by
  refine effect_free (h.mono (by decide)) hs (fun u hu => ?_) he
  have h1 := h.mono (B := [.regs, .evq, .port]) (by decide)
  repeat' first
    | (with_reducible assumption)
    | (with_reducible apply State.hrTimer_free h1)

theorem execPdFrsSignal_free {P : State → Prop} (h : Free P [.regs, .mem, .mode, .dev, .evq, .fault, .lamp, .op, .adc, .link, .est, .feed, .rail, .seq, .svc, .port, .ring]) {s t : State} (hs : P s) (he : execPdFrsSignal s = .next t) : P t := by
  refine effect_free (h.mono (by decide)) hs (fun u hu => ?_) he
  have h1 := h.mono (B := [.port]) (by decide)
  repeat' first
    | (with_reducible assumption)
    | (with_reducible apply State.frsSignal_free h1)

theorem execPdFrsAcceptTimeout_free {P : State → Prop} (h : Free P [.regs, .mem, .mode, .dev, .evq, .fault, .lamp, .op, .adc, .link, .est, .feed, .rail, .seq, .svc, .port, .ring]) {s t : State} (hs : P s) (he : execPdFrsAcceptTimeout s = .next t) : P t := by
  refine effect_free (h.mono (by decide)) hs (fun u hu => ?_) he
  have h1 := h.mono (B := [.regs, .evq, .port]) (by decide)
  repeat' first
    | (with_reducible assumption)
    | (with_reducible apply State.frsTimeout_free h1)

theorem execSrcOkFall_free {P : State → Prop} (h : Free P [.regs, .mem, .mode, .dev, .evq, .fault, .lamp, .op, .adc, .link, .est, .feed, .rail, .seq, .svc, .port, .ring]) {s t : State} (hs : P s) (he : execSrcOkFall s = .next t) : P t := by
  refine effect_free (h.mono (by decide)) hs (fun u hu => ?_) he
  have h1 := h.mono (B := [.regs, .evq, .fault, .port]) (by decide)
  repeat' first
    | (with_reducible assumption)
    | (with_reducible apply State.srcOkFall_free h1)

theorem execPdVdmRx_free {P : State → Prop} (h : Free P [.regs, .mem, .mode, .dev, .evq, .fault, .lamp, .op, .adc, .link, .est, .feed, .rail, .seq, .svc, .port, .ring]) {s t : State} (hs : P s) (words : List Word) (good : Bool) (he : execPdVdmRx words good s = .next t) : P t := by
  refine checked_free (h.mono (by decide)) hs (fun u hu => ?_) he
  have h1 := h.mono (B := [.regs, .port]) (by decide)
  have h2 := h.mono (B := [.regs, .evq, .port]) (by decide)
  repeat' first
    | (with_reducible assumption)
    | (with_reducible apply State.pdRx_free h1)
    | (with_reducible apply State.vdmRx_free h2)
    | (intro _ _)

theorem execPdVdmAnswerTimeout_free {P : State → Prop} (h : Free P [.regs, .mem, .mode, .dev, .evq, .fault, .lamp, .op, .adc, .link, .est, .feed, .rail, .seq, .svc, .port, .ring]) {s t : State} (hs : P s) (he : execPdVdmAnswerTimeout s = .next t) : P t := by
  refine effect_free (h.mono (by decide)) hs (fun u hu => ?_) he
  have h1 := h.mono (B := [.port]) (by decide)
  repeat' first
    | (with_reducible assumption)
    | (with_reducible apply State.vdmTimeout_free h1)

theorem execLanternCommand_free {P : State → Prop} (h : Free P [.regs, .mem, .mode, .dev, .evq, .fault, .lamp, .op, .adc, .link, .est, .feed, .rail, .seq, .svc, .port, .ring]) {s t : State} (hs : P s) (words : List Word) (good : Bool) (he : execLanternCommand words good s = .next t) : P t := by
  refine checked_free (h.mono (by decide)) hs (fun u hu => ?_) he
  have h1 := h.mono (B := [.regs, .port]) (by decide)
  have h2 := h.mono (B := [.regs, .evq, .port]) (by decide)
  repeat' first
    | (with_reducible assumption)
    | (with_reducible apply State.pdRx_free h1)
    | (with_reducible apply State.lanternCmd_free h2)
    | (intro _ _)

theorem execPdMessageRx_free {P : State → Prop} (h : Free P [.regs, .mem, .mode, .dev, .evq, .fault, .lamp, .op, .adc, .link, .est, .feed, .rail, .seq, .svc, .port, .ring]) {s t : State} (hs : P s) (x : PdMsg) (good : Bool) (he : execPdMessageRx x good s = .next t) : P t := by
  refine checked_free (h.mono (by decide)) hs (fun u hu => ?_) he
  have h1 := h.mono (B := [.regs, .port]) (by decide)
  have h2 := h.mono (B := [.regs, .evq, .fault, .port]) (by decide)
  repeat' first
    | (with_reducible assumption)
    | (with_reducible apply State.pdRx_free h1)
    | (with_reducible apply State.pdMessage_free h2)
    | (intro _ _)

theorem execPdResponseTimeout_free {P : State → Prop} (h : Free P [.regs, .mem, .mode, .dev, .evq, .fault, .lamp, .op, .adc, .link, .est, .feed, .rail, .seq, .svc, .port, .ring]) {s t : State} (hs : P s) (he : execPdResponseTimeout s = .next t) : P t := by
  refine effect_free (h.mono (by decide)) hs (fun u hu => ?_) he
  have h1 := h.mono (B := [.regs, .evq, .fault, .port]) (by decide)
  repeat' first
    | (with_reducible assumption)
    | (with_reducible apply State.softTimeout_free h1)

theorem execVbusSafe0v_free {P : State → Prop} (h : Free P [.regs, .mem, .mode, .dev, .evq, .fault, .lamp, .op, .adc, .link, .est, .feed, .rail, .seq, .svc, .port, .ring]) {s t : State} (hs : P s) (v : BitVec 12) (he : execVbusSafe0v v s = .next t) : P t := by
  refine effect_free (h.mono (by decide)) hs (fun u hu => ?_) he
  have h1 := h.mono (B := [.regs, .evq, .port]) (by decide)
  repeat' first
    | (with_reducible assumption)
    | (with_reducible apply State.vbusLevel_free h1)

theorem execVbusOvervoltage_free {P : State → Prop} (h : Free P [.regs, .mem, .mode, .dev, .evq, .fault, .lamp, .op, .adc, .link, .est, .feed, .rail, .seq, .svc, .port, .ring]) {s t : State} (hs : P s) (v : BitVec 12) (he : execVbusOvervoltage v s = .next t) : P t := by
  refine effect_free (h.mono (by decide)) hs (fun u hu => ?_) he
  have h1 := h.mono (B := [.regs, .fault, .port]) (by decide)
  repeat' first
    | (with_reducible assumption)
    | (with_reducible apply State.vbusOver_free h1)
    | (with_reducible refine Free.ite (fun _ => ?_) (fun _ => ?_))

end Sys2Proof.Machine
end

