-- ==== Sys2Proof/Laws/AnswersQueue.lean ====
section
/-! SUPPORT. Which parts each command of Machine/CmdQueue.lean may change, once per command. -/

namespace Sys2Proof.Machine

theorem execEventRecord_free {P : State → Prop} (h : Free P [.regs, .mem, .evq, .fault, .port, .ring]) {s t : State} (hs : P s) (he : execEventRecord s = .next t) : P t := by
  refine simple_free (h.mono (by decide)) hs (fun u hu => ?_) he
  have h1 := h.mono (B := [.regs, .mem, .evq, .fault]) (by decide)
  repeat' first
    | (with_reducible assumption)
    | (with_reducible apply State.eventRecord_free h1)

theorem execRptrWrite_free {P : State → Prop} (h : Free P Part.all) {s t : State} (hs : P s) (m : Master) (shelfB : Bool) (v : Word) (he : execRptrWrite m shelfB v s = .next t) : P t := by
  refine simple_free (h.mono (by decide)) hs (fun u hu => ?_) he
  have h1 := h.mono (B := Part.all) (by decide)
  repeat' first
    | (with_reducible assumption)
    | (with_reducible apply State.hostWrite_free h1)
    | (with_reducible refine Free.ite (fun _ => ?_) (fun _ => ?_))

theorem execDoneWrite_free {P : State → Prop} (h : Free P Part.all) {s t : State} (hs : P s) (m : Master) (src : BitVec 10) (he : execDoneWrite m src s = .next t) : P t := by
  refine simple_free (h.mono (by decide)) hs (fun u hu => ?_) he
  have h1 := h.mono (B := Part.all) (by decide)
  repeat' first
    | (with_reducible assumption)
    | (with_reducible apply State.hostWrite_free h1)

theorem execIrqModerationExpire_free {P : State → Prop} (h : Free P [.regs, .evq, .port, .ring]) {s t : State} (hs : P s) (shelfB : Bool) (he : execIrqModerationExpire shelfB s = .next t) : P t := by
  refine simple_free (h.mono (by decide)) hs (fun u hu => ?_) he
  have h1 := h.mono (B := [.regs, .evq]) (by decide)
  repeat' first
    | (with_reducible assumption)
    | (with_reducible apply State.modExpire_free h1)

theorem execHostIdle_free {P : State → Prop} (h : Free P [.regs, .evq, .port, .ring]) {s t : State} (hs : P s) (shelfB : Bool) (he : execHostIdle shelfB s = .next t) : P t := by
  refine simple_free (h.mono (by decide)) hs (fun u hu => ?_) he
  have h1 := h.mono (B := [.regs, .evq]) (by decide)
  repeat' first
    | (with_reducible assumption)
    | (with_reducible apply State.hostIdle_free h1)

theorem execHostNotifyRepeat_free {P : State → Prop} (h : Free P [.regs, .answer, .evq, .port, .ring]) {s t : State} (hs : P s) (shelfB ok : Bool) (he : execHostNotifyRepeat shelfB ok s = .next t) : P t := by
  refine simple_free (h.mono (by decide)) hs (fun u hu => ?_) he
  have h1 := h.mono (B := [.regs, .answer, .evq]) (by decide)
  repeat' first
    | (with_reducible assumption)
    | (with_reducible apply State.hostNotify_free h1)

end Sys2Proof.Machine
end

