-- ==== Sys2Proof/Laws/AnswersRail.lean ====
section
/-! SUPPORT. Which parts each command of Machine/CmdRail.lean may change, once per command. -/

namespace Sys2Proof.Machine

theorem execSupervisorJudgement_free {P : State → Prop} (h : Free P Part.all) {s t : State} (hs : P s) (r : Fin 16) (uv : Nat) (he : execSupervisorJudgement r uv s = .next t) : P t := by
  refine effect_free (h.mono (by decide)) hs (fun u hu => ?_) he
  have h1 := h.mono (B := Part.all) (by decide)
  repeat' first
    | (with_reducible assumption)
    | (with_reducible apply State.judged_free h1)

theorem execSeqSlotBegin_free {P : State → Prop} (h : Free P [.regs, .mem, .mode, .dev, .evq, .fault, .lamp, .op, .adc, .link, .est, .feed, .rail, .seq, .svc, .port, .ring]) {s t : State} (hs : P s) (he : execSeqSlotBegin s = .next t) : P t := by
  refine effect_free (h.mono (by decide)) hs (fun u hu => ?_) he
  have h1 := h.mono (B := [.regs, .evq, .fault, .rail, .seq]) (by decide)
  repeat' first
    | (with_reducible assumption)
    | (with_reducible apply State.slotBegin_free h1)

theorem execRailDelayExpire_free {P : State → Prop} (h : Free P [.regs, .mem, .mode, .dev, .evq, .fault, .lamp, .op, .adc, .link, .est, .feed, .rail, .seq, .svc, .port, .ring]) {s t : State} (hs : P s) (r : Fin 15) (he : execRailDelayExpire r s = .next t) : P t := by
  refine effect_free (h.mono (by decide)) hs (fun u hu => ?_) he
  have h1 := h.mono (B := [.regs, .rail]) (by decide)
  repeat' first
    | (with_reducible assumption)
    | (with_reducible apply State.railDelayEnd_free h1)

theorem execRailRampEnd_free {P : State → Prop} (h : Free P [.regs, .evq, .rail, .port, .ring]) {s t : State} (hs : P s) (r : Fin 15) (he : execRailRampEnd r s = .next t) : P t := by
  refine simple_free (h.mono (by decide)) hs (fun u hu => ?_) he
  have h1 := h.mono (B := [.regs, .evq, .rail]) (by decide)
  repeat' first
    | (with_reducible assumption)
    | (with_reducible apply State.railRampEnd_free h1)

theorem execRailPowerGood_free {P : State → Prop} (h : Free P [.regs, .mem, .mode, .dev, .evq, .fault, .lamp, .op, .adc, .link, .est, .feed, .rail, .seq, .svc, .port, .ring]) {s t : State} (hs : P s) (r : Fin 15) (he : execRailPowerGood r s = .next t) : P t := by
  refine effect_free (h.mono (by decide)) hs (fun u hu => ?_) he
  have h1 := h.mono (B := [.regs, .dev, .evq, .rail]) (by decide)
  repeat' first
    | (with_reducible assumption)
    | (with_reducible apply State.railPowerGood_free h1)

theorem execRailRiseTimeout_free {P : State → Prop} (h : Free P [.regs, .mem, .mode, .dev, .evq, .fault, .lamp, .op, .adc, .link, .est, .feed, .rail, .seq, .svc, .port, .ring]) {s t : State} (hs : P s) (r : Fin 15) (he : execRailRiseTimeout r s = .next t) : P t := by
  refine effect_free (h.mono (by decide)) hs (fun u hu => ?_) he
  have h1 := h.mono (B := [.regs, .fault]) (by decide)
  repeat' first
    | (with_reducible assumption)
    | (with_reducible apply State.riseTimeout_free h1)

theorem execFallSlot_free {P : State → Prop} (h : Free P [.regs, .mem, .mode, .dev, .evq, .fault, .lamp, .op, .adc, .link, .est, .feed, .rail, .seq, .svc, .port, .ring]) {s t : State} (hs : P s) (he : execFallSlot s = .next t) : P t := by
  refine effect_free (h.mono (by decide)) hs (fun u hu => ?_) he
  have h1 := h.mono (B := [.regs, .dev, .evq, .rail, .seq]) (by decide)
  repeat' first
    | (with_reducible assumption)
    | (with_reducible apply State.fallSlot_free h1)

theorem execRailFallTimeout_free {P : State → Prop} (h : Free P [.regs, .mem, .mode, .dev, .evq, .fault, .lamp, .op, .adc, .link, .est, .feed, .rail, .seq, .svc, .port, .ring]) {s t : State} (hs : P s) (r : Fin 15) (he : execRailFallTimeout r s = .next t) : P t := by
  refine effect_free (h.mono (by decide)) hs (fun u hu => ?_) he
  have h1 := h.mono (B := [.regs, .dev, .evq, .fault, .rail, .seq]) (by decide)
  repeat' first
    | (with_reducible assumption)
    | (with_reducible apply State.fallTimeout_free h1)

theorem execOffMinWaitEnd_free {P : State → Prop} (h : Free P Part.all) {s t : State} (hs : P s) (he : execOffMinWaitEnd s = .next t) : P t := by
  refine effect_free (h.mono (by decide)) hs (fun u hu => ?_) he
  have h1 := h.mono (B := Part.all) (by decide)
  repeat' first
    | (with_reducible assumption)
    | (with_reducible apply State.offMinEnd_free h1)

theorem execResetOutputRelease_free {P : State → Prop} (h : Free P [.regs, .evq, .seq, .port, .ring]) {s t : State} (hs : P s) (g : Fin 4) (he : execResetOutputRelease g s = .next t) : P t := by
  refine simple_free (h.mono (by decide)) hs (fun u hu => ?_) he
  have h1 := h.mono (B := [.regs, .evq, .seq]) (by decide)
  repeat' first
    | (with_reducible assumption)
    | (with_reducible apply State.resetRelease_free h1)

theorem execNativeFallback_free {P : State → Prop} (h : Free P [.regs, .evq, .rail, .port, .ring]) {s t : State} (hs : P s) (r : Fin 7) (he : execNativeFallback r s = .next t) : P t := by
  refine simple_free (h.mono (by decide)) hs (fun u hu => ?_) he
  have h1 := h.mono (B := [.regs, .evq, .rail]) (by decide)
  repeat' first
    | (with_reducible assumption)
    | (with_reducible apply State.nativeFallback_free h1)

theorem execRailHiccupEnd_free {P : State → Prop} (h : Free P [.regs, .mem, .mode, .dev, .evq, .fault, .lamp, .op, .adc, .link, .est, .feed, .rail, .seq, .svc, .port, .ring]) {s t : State} (hs : P s) (r : Fin 16) (he : execRailHiccupEnd r s = .next t) : P t := by
  refine effect_free (h.mono (by decide)) hs (fun u hu => ?_) he
  have h1 := h.mono (B := [.regs, .rail, .svc]) (by decide)
  repeat' first
    | (with_reducible assumption)
    | (with_reducible apply State.hiccupOver_free h1)

theorem execSvcTarget_free {P : State → Prop} (h : Free P [.regs, .mem, .mode, .dev, .evq, .fault, .lamp, .op, .adc, .link, .est, .feed, .rail, .seq, .svc, .port, .ring]) {s t : State} (hs : P s) (v amps : BitVec 16) (he : execSvcTarget v amps s = .next t) : P t := by
  refine effect_free (h.mono (by decide)) hs (fun u hu => ?_) he
  have h1 := h.mono (B := [.regs]) (by decide)
  repeat' first
    | (with_reducible assumption)
    | (with_reducible apply State.svcTarget_free h1)

end Sys2Proof.Machine
end

