-- ==== Sys2Proof/Laws/AnswersRingBus.lean ====
section
/-! SUPPORT. Which parts each command of Machine/CmdRingBus.lean may change, once per command. -/

namespace Sys2Proof.Machine

theorem execRingFrameRx_free {P : State → Prop} (h : Free P Part.all) {s t : State} (hs : P s) (west : Bool) (f : RingFrame) (crc : BitVec 32) (eofb : Bool) (ns res : Nat) (he : execRingFrameRx west f crc eofb ns res s = .next t) : P t := by
  refine checked_free (h.mono (by decide)) hs (fun u hu => ?_) he
  have h1 := h.mono (B := Part.all) (by decide)
  repeat' first
    | (with_reducible assumption)
    | (with_reducible apply State.frameRx_free h1)

theorem execRemoteReadTimeout_free {P : State → Prop} (h : Free P [.mem, .port, .ring]) {s t : State} (hs : P s) (tag : BitVec 8) (he : execRemoteReadTimeout tag s = .next t) : P t := by
  refine simple_free (h.mono (by decide)) hs (fun u hu => ?_) he
  have h1 := h.mono (B := [.mem, .ring]) (by decide)
  repeat' first
    | (with_reducible assumption)
    | (with_reducible apply State.readTimeout_free h1)

theorem execOrderedSetRx_free {P : State → Prop} (h : Free P [.regs, .mem, .mode, .dev, .evq, .fault, .lamp, .op, .adc, .link, .est, .feed, .rail, .seq, .svc, .port, .ring]) {s t : State} (hs : P s) (west : Bool) (otype b1 b2 b3 chk : BitVec 8) (rt : Nat) (he : execOrderedSetRx west otype b1 b2 b3 chk rt s = .next t) : P t := by
  refine effect_free (h.mono (by decide)) hs (fun u hu => ?_) he
  have h1 := h.mono (B := [.regs, .evq, .fault, .ring]) (by decide)
  repeat' first
    | (with_reducible assumption)
    | (with_reducible apply State.setRx_free h1)

theorem execSnuffRepeat_free {P : State → Prop} (h : Free P [.port, .ring]) {s t : State} (hs : P s) (he : execSnuffRepeat s = .next t) : P t := by
  refine simple_free (h.mono (by decide)) hs (fun u hu => ?_) he
  have h1 := h.mono (B := [.ring]) (by decide)
  repeat' first
    | (with_reducible assumption)
    | (with_reducible apply State.snuffAgain_free h1)

theorem execRingSnuffCmd_free {P : State → Prop} (h : Free P Part.all) {s t : State} (hs : P s) (m : Master) (key : BitVec 16) (he : execRingSnuffCmd m key s = .next t) : P t := by
  refine effect_free (h.mono (by decide)) hs (fun u hu => ?_) he
  have h1 := h.mono (B := Part.all) (by decide)
  repeat' first
    | (with_reducible assumption)
    | (with_reducible apply State.hostWrite_free h1)

theorem execRingPortDown_free {P : State → Prop} (h : Free P [.regs, .mem, .mode, .dev, .evq, .fault, .lamp, .op, .adc, .link, .est, .feed, .rail, .seq, .svc, .port, .ring]) {s t : State} (hs : P s) (west : Bool) (he : execRingPortDown west s = .next t) : P t := by
  refine effect_free (h.mono (by decide)) hs (fun u hu => ?_) he
  have h1 := h.mono (B := [.regs, .evq, .fault, .ring]) (by decide)
  repeat' first
    | (with_reducible assumption)
    | (with_reducible apply State.portDown_free h1)

theorem execRingPortUp_free {P : State → Prop} (h : Free P [.regs, .mem, .mode, .dev, .evq, .fault, .lamp, .op, .adc, .link, .est, .feed, .rail, .seq, .svc, .port, .ring]) {s t : State} (hs : P s) (west : Bool) (he : execRingPortUp west s = .next t) : P t := by
  refine effect_free (h.mono (by decide)) hs (fun u hu => ?_) he
  have h1 := h.mono (B := [.regs, .evq, .fault, .ring]) (by decide)
  repeat' first
    | (with_reducible assumption)
    | (with_reducible apply State.portGoesUp_free h1)

theorem execRfaultRepeat_free {P : State → Prop} (h : Free P [.port, .ring]) {s t : State} (hs : P s) (west : Bool) (he : execRfaultRepeat west s = .next t) : P t := by
  refine simple_free (h.mono (by decide)) hs (fun u hu => ?_) he
  have h1 := h.mono (B := [.ring]) (by decide)
  repeat' first
    | (with_reducible assumption)
    | (with_reducible apply State.rfault_free h1)

theorem execRingQuiet_free {P : State → Prop} (h : Free P [.regs, .mem, .mode, .dev, .evq, .fault, .lamp, .op, .adc, .link, .est, .feed, .rail, .seq, .svc, .port, .ring]) {s t : State} (hs : P s) (west : Bool) (he : execRingQuiet west s = .next t) : P t := by
  refine effect_free (h.mono (by decide)) hs (fun u hu => ?_) he
  have h1 := h.mono (B := [.regs, .ring]) (by decide)
  repeat' first
    | (with_reducible assumption)
    | (with_reducible apply State.portGoesQuiet_free h1)

theorem execRingHeal_free {P : State → Prop} (h : Free P [.regs, .mem, .mode, .dev, .evq, .fault, .lamp, .op, .adc, .link, .est, .feed, .rail, .seq, .svc, .port, .ring]) {s t : State} (hs : P s) (he : execRingHeal s = .next t) : P t := by
  refine effect_free (h.mono (by decide)) hs (fun u hu => ?_) he
  have h1 := h.mono (B := [.regs, .evq, .ring]) (by decide)
  repeat' first
    | (with_reducible assumption)
    | (with_reducible apply State.ringHeal_free h1)

theorem execRingEnumerate_free {P : State → Prop} (h : Free P Part.all) {s t : State} (hs : P s) (m : Master) (key : BitVec 16) (he : execRingEnumerate m key s = .next t) : P t := by
  refine effect_free (h.mono (by decide)) hs (fun u hu => ?_) he
  have h1 := h.mono (B := Part.all) (by decide)
  repeat' first
    | (with_reducible assumption)
    | (with_reducible apply State.hostWrite_free h1)

theorem execRingEnumStepTimeout_free {P : State → Prop} (h : Free P [.regs, .mem, .mode, .dev, .evq, .fault, .lamp, .op, .adc, .link, .est, .feed, .rail, .seq, .svc, .port, .ring]) {s t : State} (hs : P s) (he : execRingEnumStepTimeout s = .next t) : P t := by
  refine effect_free (h.mono (by decide)) hs (fun u hu => ?_) he
  have h1 := h.mono (B := [.regs, .evq, .fault, .ring]) (by decide)
  repeat' first
    | (with_reducible assumption)
    | (with_reducible apply State.ringEnumTimeout_free h1)

theorem execDelayProbe_free {P : State → Prop} (h : Free P [.port, .ring]) {s t : State} (hs : P s) (west : Bool) (he : execDelayProbe west s = .next t) : P t := by
  refine simple_free (h.mono (by decide)) hs (fun u hu => ?_) he
  have h1 := h.mono (B := [.ring]) (by decide)
  repeat' first
    | (with_reducible assumption)
    | (with_reducible apply State.probeSend_free h1)

theorem execRingRemeasure_free {P : State → Prop} (h : Free P Part.all) {s t : State} (hs : P s) (m : Master) (key : BitVec 16) (he : execRingRemeasure m key s = .next t) : P t := by
  refine effect_free (h.mono (by decide)) hs (fun u hu => ?_) he
  have h1 := h.mono (B := Part.all) (by decide)
  repeat' first
    | (with_reducible assumption)
    | (with_reducible apply State.hostWrite_free h1)

theorem execPilotSend_free {P : State → Prop} (h : Free P [.port, .ring]) {s t : State} (hs : P s) (he : execPilotSend s = .next t) : P t := by
  refine simple_free (h.mono (by decide)) hs (fun u hu => ?_) he
  have h1 := h.mono (B := [.ring]) (by decide)
  repeat' first
    | (with_reducible assumption)
    | (with_reducible apply State.pilotSend_free h1)

theorem execPilotLoss_free {P : State → Prop} (h : Free P [.regs, .evq, .fault, .port, .ring]) {s t : State} (hs : P s) (he : execPilotLoss s = .next t) : P t := by
  refine simple_free (h.mono (by decide)) hs (fun u hu => ?_) he
  have h1 := h.mono (B := [.regs, .evq, .fault]) (by decide)
  repeat' first
    | (with_reducible assumption)
    | (with_reducible apply State.pilotLoss_free h1)

theorem execSummarySend_free {P : State → Prop} (h : Free P [.regs, .evq, .port, .ring]) {s t : State} (hs : P s) (he : execSummarySend s = .next t) : P t := by
  refine simple_free (h.mono (by decide)) hs (fun u hu => ?_) he
  have h1 := h.mono (B := [.regs, .evq, .ring]) (by decide)
  repeat' first
    | (with_reducible assumption)
    | (with_reducible apply State.summarySend_free h1)

theorem execSummaryDeadline_free {P : State → Prop} (h : Free P [.regs, .evq, .port, .ring]) {s t : State} (hs : P s) (he : execSummaryDeadline s = .next t) : P t := by
  refine simple_free (h.mono (by decide)) hs (fun u hu => ?_) he
  have h1 := h.mono (B := [.regs, .evq]) (by decide)
  repeat' first
    | (with_reducible assumption)
    | (with_reducible apply State.summaryDeadline_free h1)

theorem execRingWakeBurst_free {P : State → Prop} (h : Free P Part.all) {s t : State} (hs : P s) (m : Master) (key : BitVec 16) (he : execRingWakeBurst m key s = .next t) : P t := by
  refine effect_free (h.mono (by decide)) hs (fun u hu => ?_) he
  have h1 := h.mono (B := Part.all) (by decide)
  repeat' first
    | (with_reducible assumption)
    | (with_reducible apply State.hostWrite_free h1)

theorem execEpsetLoad_free {P : State → Prop} (h : Free P Part.all) {s t : State} (hs : P s) (m : Master) (key : BitVec 16) (he : execEpsetLoad m key s = .next t) : P t := by
  refine effect_free (h.mono (by decide)) hs (fun u hu => ?_) he
  have h1 := h.mono (B := Part.all) (by decide)
  repeat' first
    | (with_reducible assumption)
    | (with_reducible apply State.hostWrite_free h1)

end Sys2Proof.Machine
end

