-- ==== Sys2Proof/Laws/AnswersSample.lean ====
section
/-! SUPPORT. Which parts each command of Machine/CmdSample.lean may change, once per command. -/

namespace Sys2Proof.Machine

theorem execSwtrig_free {P : State → Prop} (h : Free P Part.all) {s t : State} (hs : P s) (m : Master) (bank : Fin 4) (seq : BitVec 2) (he : execSwtrig m bank seq s = .next t) : P t := by
  refine effect_free (h.mono (by decide)) hs (fun u hu => ?_) he
  have h1 := h.mono (B := Part.all) (by decide)
  repeat' first
    | (with_reducible assumption)
    | (with_reducible apply State.hostWrite_free h1)

theorem execConversionResult_free {P : State → Prop} (h : Free P [.regs, .mem, .mode, .dev, .evq, .fault, .lamp, .op, .pwm, .adc, .link, .est, .bal, .hb, .pack, .feed, .rail, .seq, .svc, .port, .ring]) {s t : State} (hs : P s) (bank : Fin 4) (entry : Fin 16) (uv : Int) (ago : Nat) (onReleased : Bool) (he : execConversionResult bank entry uv ago onReleased s = .next t) : P t := by
  refine effect_free (h.mono (by decide)) hs (fun u hu => ?_) he
  have h1 := h.mono (B := [.regs, .mem, .evq, .fault, .pwm, .adc, .link, .bal, .hb, .pack, .rail, .seq, .svc]) (by decide)
  repeat' first
    | (with_reducible assumption)
    | (with_reducible apply State.converted_free h1)

theorem execSequenceDone_free {P : State → Prop} (h : Free P [.regs, .mem, .evq, .adc, .therm, .port, .ring]) {s t : State} (hs : P s) (bank : Fin 4) (he : execSequenceDone bank s = .next t) : P t := by
  refine simple_free (h.mono (by decide)) hs (fun u hu => ?_) he
  have h1 := h.mono (B := [.regs, .mem, .evq, .adc, .therm]) (by decide)
  repeat' first
    | (with_reducible assumption)
    | (with_reducible apply State.sequenceEnd_free h1)

theorem execCalStep_free {P : State → Prop} (h : Free P [.regs, .evq, .adc, .port, .ring]) {s t : State} (hs : P s) (bank : Fin 4) (he : execCalStep bank s = .next t) : P t := by
  refine simple_free (h.mono (by decide)) hs (fun u hu => ?_) he
  have h1 := h.mono (B := [.regs, .evq, .adc]) (by decide)
  repeat' first
    | (with_reducible assumption)
    | (with_reducible apply State.calStep_free h1)

theorem execCalDone_free {P : State → Prop} (h : Free P [.regs, .mem, .mode, .dev, .evq, .fault, .lamp, .op, .adc, .link, .est, .feed, .rail, .seq, .svc, .port, .ring]) {s t : State} (hs : P s) (bank : Fin 4) (m : CalMeas) (he : execCalDone bank m s = .next t) : P t := by
  refine effect_free (h.mono (by decide)) hs (fun u hu => ?_) he
  have h1 := h.mono (B := [.regs, .evq, .fault, .adc]) (by decide)
  repeat' first
    | (with_reducible assumption)
    | (with_reducible apply State.calDone_free h1)

theorem execCalSweep_free {P : State → Prop} (h : Free P Part.all) {s t : State} (hs : P s) (m : Master) (bank : Fin 4) (bgen : Bool) (he : execCalSweep m bank bgen s = .next t) : P t := by
  refine effect_free (h.mono (by decide)) hs (fun u hu => ?_) he
  have h1 := h.mono (B := Part.all) (by decide)
  repeat' first
    | (with_reducible assumption)
    | (with_reducible apply State.hostWrite_free h1)

theorem execFifoRead_free {P : State → Prop} (h : Free P [.regs, .fresh, .answer, .evq, .fault, .cellar, .adc, .port, .ring]) {s t : State} (hs : P s) (m : Master) (bank : Fin 4) (he : execFifoRead m bank s = .next t) : P t := by
  refine simple_free (h.mono (by decide)) hs (fun u hu => ?_) he
  have h1 := h.mono (B := [.regs, .fresh, .answer, .evq, .fault, .cellar, .adc]) (by decide)
  repeat' first
    | (with_reducible assumption)
    | (with_reducible apply State.hostRead_free h1)

theorem execFifoClear_free {P : State → Prop} (h : Free P Part.all) {s t : State} (hs : P s) (m : Master) (bank : Fin 4) (thr : BitVec 7) (he : execFifoClear m bank thr s = .next t) : P t := by
  refine simple_free (h.mono (by decide)) hs (fun u hu => ?_) he
  have h1 := h.mono (B := Part.all) (by decide)
  repeat' first
    | (with_reducible assumption)
    | (with_reducible apply State.hostWrite_free h1)

theorem execTripComparatorTrip_free {P : State → Prop} (h : Free P [.regs, .mem, .mode, .dev, .evq, .fault, .lamp, .op, .adc, .cmp, .link, .est, .pack, .feed, .rail, .seq, .svc, .port, .ring]) {s t : State} (hs : P s) (k : Fin 32) (uv : Int) (e0 e1 : Option Nat) (he : execTripComparatorTrip k uv e0 e1 s = .next t) : P t := by
  refine effect_free (h.mono (by decide)) hs (fun u hu => ?_) he
  have h1 := h.mono (B := [.regs, .mem, .evq, .fault, .pack, .feed, .rail]) (by decide)
  have h2 := h.mono (B := [.regs, .evq, .fault, .cmp]) (by decide)
  repeat' first
    | (with_reducible assumption)
    | (with_reducible apply State.tripEvent_free h1)
    | (with_reducible apply State.cmpTrip_free h2)
    | (intro _ _)

theorem execTripComparatorRelease_free {P : State → Prop} (h : Free P [.regs, .evq, .cmp, .port, .ring]) {s t : State} (hs : P s) (k : Fin 32) (uv : Int) (he : execTripComparatorRelease k uv s = .next t) : P t := by
  refine simple_free (h.mono (by decide)) hs (fun u hu => ?_) he
  have h1 := h.mono (B := [.regs, .evq, .cmp]) (by decide)
  repeat' first
    | (with_reducible assumption)
    | (with_reducible apply State.cmpRelease_free h1)

theorem execBlankingWindowEnd_free {P : State → Prop} (h : Free P [.regs, .mem, .mode, .dev, .evq, .fault, .lamp, .op, .adc, .cmp, .link, .est, .pack, .feed, .rail, .seq, .svc, .port, .ring]) {s t : State} (hs : P s) (k : Fin 32) (he : execBlankingWindowEnd k s = .next t) : P t := by
  refine effect_free (h.mono (by decide)) hs (fun u hu => ?_) he
  have h1 := h.mono (B := [.regs, .mem, .evq, .fault, .pack, .feed, .rail]) (by decide)
  have h2 := h.mono (B := [.regs, .evq, .fault, .cmp]) (by decide)
  repeat' first
    | (with_reducible assumption)
    | (with_reducible apply State.tripEvent_free h1)
    | (with_reducible apply State.cmpBlankEnd_free h2)
    | (intro _ _)

theorem execHoldRelease_free {P : State → Prop} (h : Free P Part.all) {s t : State} (hs : P s) (m : Master) (mask : Word) (he : execHoldRelease m mask s = .next t) : P t := by
  refine simple_free (h.mono (by decide)) hs (fun u hu => ?_) he
  have h1 := h.mono (B := Part.all) (by decide)
  repeat' first
    | (with_reducible assumption)
    | (with_reducible apply State.hostWrite_free h1)

theorem execWindowTick_free {P : State → Prop} (h : Free P [.cmp, .port, .ring]) {s t : State} (hs : P s) (he : execWindowTick s = .next t) : P t := by
  refine simple_free (h.mono (by decide)) hs (fun u hu => ?_) he
  have h1 := h.mono (B := [.cmp]) (by decide)
  repeat' first
    | (with_reducible assumption)
    | (with_reducible apply State.windowTick_free h1)

theorem execWindowSample_free {P : State → Prop} (h : Free P Part.all) {s t : State} (hs : P s) (n : Fin 16) (uv : Int) (he : execWindowSample n uv s = .next t) : P t := by
  refine effect_free (h.mono (by decide)) hs (fun u hu => ?_) he
  have h1 := h.mono (B := Part.all) (by decide)
  repeat' first
    | (with_reducible assumption)
    | (with_reducible apply State.windowSampled_free h1)

theorem execWcapHiRead_free {P : State → Prop} (h : Free P [.regs, .fresh, .answer, .evq, .fault, .cellar, .adc, .port, .ring]) {s t : State} (hs : P s) (m : Master) (n : Fin 16) (he : execWcapHiRead m n s = .next t) : P t := by
  refine simple_free (h.mono (by decide)) hs (fun u hu => ?_) he
  have h1 := h.mono (B := [.regs, .fresh, .answer, .evq, .fault, .cellar, .adc]) (by decide)
  repeat' first
    | (with_reducible assumption)
    | (with_reducible apply State.hostRead_free h1)

end Sys2Proof.Machine
end

