-- ==== Sys2Proof/Laws/AnswersTime.lean ====
section
/-! SUPPORT. Which parts each command of Machine/CmdTime.lean may change, once per command. -/

namespace Sys2Proof.Machine

theorem execRtcTick_free {P : State → Prop} (h : Free P Part.all) {s t : State} (hs : P s) (padHigh : Bool) (he : execRtcTick padHigh s = .next t) : P t := by
  refine effect_free (h.mono (by decide)) hs (fun u hu => ?_) he
  have h1 := h.mono (B := Part.all) (by decide)
  repeat' first
    | (with_reducible assumption)
    | (with_reducible apply State.rtcTick_free h1)
    | (with_reducible apply State.cellarEdge_free h1)

theorem execCrystalStop_free {P : State → Prop} (h : Free P [.regs, .fault, .cellar, .port, .ring]) {s t : State} (hs : P s) (he : execCrystalStop s = .next t) : P t := by
  refine simple_free (h.mono (by decide)) hs (fun u hu => ?_) he
  have h1 := h.mono (B := [.regs, .fault, .cellar]) (by decide)
  repeat' first
    | (with_reducible assumption)
    | (with_reducible apply State.crystalStop_free h1)

theorem execCrystalReturn_free {P : State → Prop} (h : Free P [.regs, .evq, .cellar, .port, .ring]) {s t : State} (hs : P s) (he : execCrystalReturn s = .next t) : P t := by
  refine simple_free (h.mono (by decide)) hs (fun u hu => ?_) he
  have h1 := h.mono (B := [.regs, .evq, .cellar]) (by decide)
  repeat' first
    | (with_reducible assumption)
    | (with_reducible apply State.crystalReturn_free h1)

theorem execRtcTickLoRead_free {P : State → Prop} (h : Free P [.regs, .fresh, .answer, .evq, .fault, .cellar, .adc, .port, .ring]) {s t : State} (hs : P s) (m : Master) (he : execRtcTickLoRead m s = .next t) : P t := by
  refine simple_free (h.mono (by decide)) hs (fun u hu => ?_) he
  have h1 := h.mono (B := [.regs, .fresh, .answer, .evq, .fault, .cellar, .adc]) (by decide)
  repeat' first
    | (with_reducible assumption)
    | (with_reducible apply State.hostRead_free h1)

theorem execRtcTickHiRead_free {P : State → Prop} (h : Free P [.regs, .fresh, .answer, .evq, .fault, .cellar, .adc, .port, .ring]) {s t : State} (hs : P s) (m : Master) (he : execRtcTickHiRead m s = .next t) : P t := by
  refine simple_free (h.mono (by decide)) hs (fun u hu => ?_) he
  have h1 := h.mono (B := [.regs, .fresh, .answer, .evq, .fault, .cellar, .adc]) (by decide)
  repeat' first
    | (with_reducible assumption)
    | (with_reducible apply State.hostRead_free h1)

theorem execRtcFreezeTimeout_free {P : State → Prop} (h : Free P [.regs, .evq, .cellar, .port, .ring]) {s t : State} (hs : P s) (m : Master) (he : execRtcFreezeTimeout m s = .next t) : P t := by
  refine simple_free (h.mono (by decide)) hs (fun u hu => ?_) he
  have h1 := h.mono (B := [.regs, .evq, .cellar]) (by decide)
  repeat' first
    | (with_reducible assumption)
    | (with_reducible apply State.freezeTimeout_free h1)

theorem execRtcSet_free {P : State → Prop} (h : Free P Part.all) {s t : State} (hs : P s) (m : Master) (key : BitVec 16) (he : execRtcSet m key s = .next t) : P t := by
  refine simple_free (h.mono (by decide)) hs (fun u hu => ?_) he
  have h1 := h.mono (B := Part.all) (by decide)
  repeat' first
    | (with_reducible assumption)
    | (with_reducible apply State.hostWrite_free h1)

theorem execRtcSetLoad_free {P : State → Prop} (h : Free P [.regs, .evq, .cellar, .port, .ring]) {s t : State} (hs : P s) (he : execRtcSetLoad s = .next t) : P t := by
  refine simple_free (h.mono (by decide)) hs (fun u hu => ?_) he
  have h1 := h.mono (B := [.regs, .evq, .cellar]) (by decide)
  repeat' first
    | (with_reducible assumption)
    | (with_reducible apply State.rtcSetLoad_free h1)

theorem execPwronSet_free {P : State → Prop} (h : Free P Part.all) {s t : State} (hs : P s) (m : Master) (he : execPwronSet m s = .next t) : P t := by
  refine simple_free (h.mono (by decide)) hs (fun u hu => ?_) he
  have h1 := h.mono (B := Part.all) (by decide)
  repeat' first
    | (with_reducible assumption)
    | (with_reducible apply State.hostWrite_free h1)

theorem execPwronRelease_free {P : State → Prop} (h : Free P Part.all) {s t : State} (hs : P s) (m : Master) (set : Bool) (he : execPwronRelease m set s = .next t) : P t := by
  refine simple_free (h.mono (by decide)) hs (fun u hu => ?_) he
  have h1 := h.mono (B := Part.all) (by decide)
  repeat' first
    | (with_reducible assumption)
    | (with_reducible apply State.hostWrite_free h1)

theorem execWdogCfgWrite_free {P : State → Prop} (h : Free P Part.all) {s t : State} (hs : P s) (m : Master) (v : Word) (he : execWdogCfgWrite m v s = .next t) : P t := by
  refine simple_free (h.mono (by decide)) hs (fun u hu => ?_) he
  have h1 := h.mono (B := Part.all) (by decide)
  repeat' first
    | (with_reducible assumption)
    | (with_reducible apply State.hostWrite_free h1)

theorem execWdogCheckin_free {P : State → Prop} (h : Free P Part.all) {s t : State} (hs : P s) (m : Master) (mask count : BitVec 16) (he : execWdogCheckin m mask count s = .next t) : P t := by
  refine effect_free (h.mono (by decide)) hs (fun u hu => ?_) he
  have h1 := h.mono (B := [.regs]) (by decide)
  have h2 := h.mono (B := Part.all) (by decide)
  repeat' first
    | (with_reducible assumption)
    | (with_reducible apply State.hostAct_free h1)
    | (with_reducible apply State.wdogCheckin_free h2)
    | (intro _ _)

theorem execWdogService_free {P : State → Prop} (h : Free P Part.all) {s t : State} (hs : P s) (m : Master) (v : Word) (count : BitVec 16) (he : execWdogService m v count s = .next t) : P t := by
  refine effect_free (h.mono (by decide)) hs (fun u hu => ?_) he
  have h1 := h.mono (B := [.regs]) (by decide)
  have h2 := h.mono (B := Part.all) (by decide)
  repeat' first
    | (with_reducible assumption)
    | (with_reducible apply State.hostAct_free h1)
    | (with_reducible apply State.wdogService_free h2)
    | (intro _ _)

theorem execWdogWarn_free {P : State → Prop} (h : Free P [.regs, .evq, .wdog, .port, .ring]) {s t : State} (hs : P s) (he : execWdogWarn s = .next t) : P t := by
  refine simple_free (h.mono (by decide)) hs (fun u hu => ?_) he
  have h1 := h.mono (B := [.regs, .evq, .wdog]) (by decide)
  repeat' first
    | (with_reducible assumption)
    | (with_reducible apply State.wdogWarn_free h1)

theorem execWdogClose_free {P : State → Prop} (h : Free P Part.all) {s t : State} (hs : P s) (he : execWdogClose s = .next t) : P t := by
  refine effect_free (h.mono (by decide)) hs (fun u hu => ?_) he
  have h1 := h.mono (B := Part.all) (by decide)
  repeat' first
    | (with_reducible assumption)
    | (with_reducible apply State.wdogLate_free h1)

theorem execMutualClockFail_free {P : State → Prop} (h : Free P Part.all) {s t : State} (hs : P s) (guardRc : Bool) (he : execMutualClockFail guardRc s = .next t) : P t := by
  refine effect_free (h.mono (by decide)) hs (fun u hu => ?_) he
  have h1 := h.mono (B := Part.all) (by decide)
  repeat' first
    | (with_reducible assumption)
    | (with_reducible apply State.mutualFail_free h1)

end Sys2Proof.Machine
end

