-- ==== Sys2Proof/Laws/AnswersTrack.lean ====
section
/-! SUPPORT. Which parts each command of Machine/CmdTrack.lean may change, once per command. -/

namespace Sys2Proof.Machine

theorem execAccumulationStep_free {P : State → Prop} (h : Free P [.regs, .mem, .evq, .fault, .est, .pack, .port, .ring]) {s t : State} (hs : P s) (he : execAccumulationStep s = .next t) : P t := by
  refine simple_free (h.mono (by decide)) hs (fun u hu => ?_) he
  have h1 := h.mono (B := [.regs, .mem, .evq, .fault, .est, .pack]) (by decide)
  repeat' first
    | (with_reducible assumption)
    | (with_reducible apply State.accumulation_free h1)

theorem execIstrReading_free {P : State → Prop} (h : Free P [.regs, .mem, .evq, .fault, .est, .port, .ring]) {s t : State} (hs : P s) (n : Fin 16) (he : execIstrReading n s = .next t) : P t := by
  refine simple_free (h.mono (by decide)) hs (fun u hu => ?_) he
  have h1 := h.mono (B := [.regs, .mem, .evq, .fault, .est]) (by decide)
  repeat' first
    | (with_reducible assumption)
    | (with_reducible apply State.istrReading_free h1)

theorem execRecordWrite_free {P : State → Prop} (h : Free P Part.all) {s t : State} (hs : P s) (m : Master) (addr : BitVec 24) (v : Word) (he : execRecordWrite m addr v s = .next t) : P t := by
  refine effect_free (h.mono (by decide)) hs (fun u hu => ?_) he
  have h1 := h.mono (B := Part.all) (by decide)
  repeat' first
    | (with_reducible assumption)
    | (with_reducible apply State.hostWrite_free h1)

theorem execStoreRoomClearAll_free {P : State → Prop} (h : Free P Part.all) {s t : State} (hs : P s) (m : Master) (key : BitVec 16) (he : execStoreRoomClearAll m key s = .next t) : P t := by
  refine effect_free (h.mono (by decide)) hs (fun u hu => ?_) he
  have h1 := h.mono (B := Part.all) (by decide)
  repeat' first
    | (with_reducible assumption)
    | (with_reducible apply State.hostWrite_free h1)

theorem execStoreRoomClearString_free {P : State → Prop} (h : Free P Part.all) {s t : State} (hs : P s) (m : Master) (key : BitVec 16) (n : Fin 16) (he : execStoreRoomClearString m key n s = .next t) : P t := by
  refine effect_free (h.mono (by decide)) hs (fun u hu => ?_) he
  have h1 := h.mono (B := Part.all) (by decide)
  repeat' first
    | (with_reducible assumption)
    | (with_reducible apply State.hostWrite_free h1)

theorem execToneStart_free {P : State → Prop} (h : Free P Part.all) {s t : State} (hs : P s) (m : Master) (n : Fin 16) (v : BitVec 31) (he : execToneStart m n v s = .next t) : P t := by
  refine simple_free (h.mono (by decide)) hs (fun u hu => ?_) he
  have h1 := h.mono (B := Part.all) (by decide)
  repeat' first
    | (with_reducible assumption)
    | (with_reducible apply State.hostWrite_free h1)

theorem execHealthFlush_free {P : State → Prop} (h : Free P Part.all) {s t : State} (hs : P s) (m : Master) (key : BitVec 16) (he : execHealthFlush m key s = .next t) : P t := by
  refine effect_free (h.mono (by decide)) hs (fun u hu => ?_) he
  have h1 := h.mono (B := Part.all) (by decide)
  repeat' first
    | (with_reducible assumption)
    | (with_reducible apply State.hostWrite_free h1)

theorem execHealthFlushRetire_free {P : State → Prop} (h : Free P Part.all) {s t : State} (hs : P s) (m : Master) (key : BitVec 16) (string : Fin 16) (module : BitVec 6) (he : execHealthFlushRetire m key string module s = .next t) : P t := by
  refine effect_free (h.mono (by decide)) hs (fun u hu => ?_) he
  have h1 := h.mono (B := Part.all) (by decide)
  repeat' first
    | (with_reducible assumption)
    | (with_reducible apply State.hostWrite_free h1)

theorem execHourlyFlush_free {P : State → Prop} (h : Free P [.regs, .mem, .mode, .dev, .evq, .fault, .lamp, .op, .adc, .link, .est, .feed, .rail, .seq, .svc, .port, .ring]) {s t : State} (hs : P s) (he : execHourlyFlush s = .next t) : P t := by
  refine effect_free (h.mono (by decide)) hs (fun u hu => ?_) he
  have h1 := h.mono (B := [.regs, .op, .est]) (by decide)
  repeat' first
    | (with_reducible assumption)
    | (with_reducible apply State.hourly_free h1)

end Sys2Proof.Machine
end

