-- ==== Sys2Proof/Laws/Exec.lean ====
section
/-! SUPPORT. Whatever command is executed: a property that stands whatever becomes of the parts of the state stands after it. -/

namespace Sys2Proof.Machine

theorem exec_free {P : State → Prop} (h : Free P Part.all) {s t : State} (hs : P s) (i : Instr) (he : exec i s = .next t) : P t := by
  cases i with
  | biasSourceChange vib startUp vbus => exact execBiasSourceChange_free (h.mono (by decide)) hs vib startUp vbus he
  | biasLost vib startUp vbus => exact execBiasLost_free (h.mono (by decide)) hs vib startUp vbus he
  | biasGood vib startUp vbus => exact execBiasGood_free (h.mono (by decide)) hs vib startUp vbus he
  | cellarPowerOn => exact execCellarPowerOn_free (h.mono (by decide)) hs he
  | deviceResetRelease addr head img verifyBad readBad => exact execDeviceResetRelease_free (h.mono (by decide)) hs addr head img verifyBad readBad he
  | resetinNAssert => exact execResetinNAssert_free (h.mono (by decide)) hs he
  | devReset m key => exact execDevReset_free (h.mono (by decide)) hs m key he
  | modereqRun m key superseded badA badB => exact execModereqRun_free (h.mono (by decide)) hs m key superseded badA badB he
  | modereqSafe m key superseded => exact execModereqSafe_free (h.mono (by decide)) hs m key superseded he
  | modereqService m key superseded => exact execModereqService_free (h.mono (by decide)) hs m key superseded he
  | modereqHibernate m key superseded => exact execModereqHibernate_free (h.mono (by decide)) hs m key superseded he
  | modereqOff m key superseded => exact execModereqOff_free (h.mono (by decide)) hs m key superseded he
  | powercycle m key tOff => exact execPowercycle_free (h.mono (by decide)) hs m key tOff he
  | powercycleOffExpire => exact execPowercycleOffExpire_free (h.mono (by decide)) hs he
  | cellarOnRequest src => exact execCellarOnRequest_free (h.mono (by decide)) hs src he
  | fallComplete => exact execFallComplete_free (h.mono (by decide)) hs he
  | pllLock ext => exact execPllLock_free (h.mono (by decide)) hs ext he
  | startUpCalibrationDone a b c d => exact execStartUpCalibrationDone_free (h.mono (by decide)) hs a b c d he
  | imageSelection badA badB => exact execImageSelection_free (h.mono (by decide)) hs badA badB he
  | preloadApply => exact execPreloadApply_free (h.mono (by decide)) hs he
  | riseEnd => exact execRiseEnd_free (h.mono (by decide)) hs he
  | railStartHoldEnd => exact execRailStartHoldEnd_free (h.mono (by decide)) hs he
  | wake src => exact execWake_free (h.mono (by decide)) hs src he
  | stopAutoRestart => exact execStopAutoRestart_free (h.mono (by decide)) hs he
  | thermalRelease => exact execThermalRelease_free (h.mono (by decide)) hs he
  | registerWrite m addr v => exact execRegisterWrite_free (h.mono (by decide)) hs m addr v he
  | memoryWrite m addr v => exact execMemoryWrite_free (h.mono (by decide)) hs m addr v he
  | atticDirectWrite m addr v => exact execAtticDirectWrite_free (h.mono (by decide)) hs m addr v he
  | unmappedAccess m addr w => exact execUnmappedAccess_free (h.mono (by decide)) hs m addr w he
  | statusW1c m addr clr sets => exact execStatusW1c_free (h.mono (by decide)) hs m addr clr sets he
  | functionReset m pg enable => exact execFunctionReset_free (h.mono (by decide)) hs m pg enable he
  | functionResetDone pg => exact execFunctionResetDone_free (h.mono (by decide)) hs pg he
  | errInjWrite m pg checker count => exact execErrInjWrite_free (h.mono (by decide)) hs m pg checker count he
  | longopComplete e => exact execLongopComplete_free (h.mono (by decide)) hs e he
  | cycleMarker settled inLimit fets => exact execCycleMarker_free (h.mono (by decide)) hs settled inLimit fets he
  | guardMarker => exact execGuardMarker_free (h.mono (by decide)) hs he
  | hibernateMarker rail settled => exact execHibernateMarker_free (h.mono (by decide)) hs rail settled he
  | roundBoundary => exact execRoundBoundary_free (h.mono (by decide)) hs he
  | frameBoundary => exact execFrameBoundary_free (h.mono (by decide)) hs he
  | epochBoundary corr => exact execEpochBoundary_free (h.mono (by decide)) hs corr he
  | slotNop x => exact execSlotNop_free (h.mono (by decide)) hs x he
  | slotEnd x => exact execSlotEnd_free (h.mono (by decide)) hs x he
  | slotWait x => exact execSlotWait_free (h.mono (by decide)) hs x he
  | waitExpire lane level => exact execWaitExpire_free (h.mono (by decide)) hs lane level he
  | modejump x => exact execModejump_free (h.mono (by decide)) hs x he
  | rdvGive x => exact execRdvGive_free (h.mono (by decide)) hs x he
  | rdvTake x => exact execRdvTake_free (h.mono (by decide)) hs x he
  | trigger x => exact execTrigger_free (h.mono (by decide)) hs x he
  | comp x => exact execComp_free (h.mono (by decide)) hs x he
  | pwmload x => exact execPwmload_free (h.mono (by decide)) hs x he
  | check x => exact execCheck_free (h.mono (by decide)) hs x he
  | move x => exact execMove_free (h.mono (by decide)) hs x he
  | linktx x => exact execLinktx_free (h.mono (by decide)) hs x he
  | linktxRing x => exact execLinktxRing_free (h.mono (by decide)) hs x he
  | estupd x => exact execEstupd_free (h.mono (by decide)) hs x he
  | estupdDemod x => exact execEstupdDemod_free (h.mono (by decide)) hs x he
  | rank x => exact execRank_free (h.mono (by decide)) hs x he
  | dispatchRoundStep x => exact execDispatchRoundStep_free (h.mono (by decide)) hs x he
  | dispatchFrameStep x => exact execDispatchFrameStep_free (h.mono (by decide)) hs x he
  | select x => exact execSelect_free (h.mono (by decide)) hs x he
  | slotResourceFree x used d => exact execSlotResourceFree_free (h.mono (by decide)) hs x used d he
  | slotBudgetExpire x => exact execSlotBudgetExpire_free (h.mono (by decide)) hs x he
  | tableCut x => exact execTableCut_free (h.mono (by decide)) hs x he
  | lockstepMismatch lane => exact execLockstepMismatch_free (h.mono (by decide)) hs lane he
  | relight m v => exact execRelight_free (h.mono (by decide)) hs m v he
  | warmRelightCopyDone readBad => exact execWarmRelightCopyDone_free (h.mono (by decide)) hs readBad he
  | coldRelightLoadDone badA badB => exact execColdRelightLoadDone_free (h.mono (by decide)) hs badA badB he
  | scheduleStoreWrite m addr v => exact execScheduleStoreWrite_free (h.mono (by decide)) hs m addr v he
  | budgetDataAccess m w => exact execBudgetDataAccess_free (h.mono (by decide)) hs m w he
  | imageSegment m key bank => exact execImageSegment_free (h.mono (by decide)) hs m key bank he
  | imageSeal m key bank => exact execImageSeal_free (h.mono (by decide)) hs m key bank he
  | imageErase m key bank => exact execImageErase_free (h.mono (by decide)) hs m key bank he
  | imageCheck m key bank => exact execImageCheck_free (h.mono (by decide)) hs m key bank he
  | atticCommit m key => exact execAtticCommit_free (h.mono (by decide)) hs m key he
  | atticCompare m key => exact execAtticCompare_free (h.mono (by decide)) hs m key he
  | ocvCommit m key set => exact execOcvCommit_free (h.mono (by decide)) hs m key set he
  | ocvReload m key set => exact execOcvReload_free (h.mono (by decide)) hs m key set he
  | ocvCheck m key set => exact execOcvCheck_free (h.mono (by decide)) hs m key set he
  | ocvSetWrite m addr v => exact execOcvSetWrite_free (h.mono (by decide)) hs m addr v he
  | swtrig m bank seq => exact execSwtrig_free (h.mono (by decide)) hs m bank seq he
  | conversionResult bank entry uv ago onReleased => exact execConversionResult_free (h.mono (by decide)) hs bank entry uv ago onReleased he
  | sequenceDone bank => exact execSequenceDone_free (h.mono (by decide)) hs bank he
  | calStep bank => exact execCalStep_free (h.mono (by decide)) hs bank he
  | calDone bank m => exact execCalDone_free (h.mono (by decide)) hs bank m he
  | calSweep m bank bgen => exact execCalSweep_free (h.mono (by decide)) hs m bank bgen he
  | fifoRead m bank => exact execFifoRead_free (h.mono (by decide)) hs m bank he
  | fifoClear m bank thr => exact execFifoClear_free (h.mono (by decide)) hs m bank thr he
  | tripComparatorTrip k uv e0 e1 => exact execTripComparatorTrip_free (h.mono (by decide)) hs k uv e0 e1 he
  | tripComparatorRelease k uv => exact execTripComparatorRelease_free (h.mono (by decide)) hs k uv he
  | blankingWindowEnd k => exact execBlankingWindowEnd_free (h.mono (by decide)) hs k he
  | holdRelease m mask => exact execHoldRelease_free (h.mono (by decide)) hs m mask he
  | windowTick => exact execWindowTick_free (h.mono (by decide)) hs he
  | windowSample n uv => exact execWindowSample_free (h.mono (by decide)) hs n uv he
  | wcapHiRead m n => exact execWcapHiRead_free (h.mono (by decide)) hs m n he
  | linkEnumerate m n key => exact execLinkEnumerate_free (h.mono (by decide)) hs m n key he
  | linkMeasure m n key => exact execLinkMeasure_free (h.mono (by decide)) hs m n key he
  | linkSend m n key template => exact execLinkSend_free (h.mono (by decide)) hs m n key template he
  | linkReturn n pairB rt bytes fits => exact execLinkReturn_free (h.mono (by decide)) hs n pairB rt bytes fits he
  | returnWindowClose n fits => exact execReturnWindowClose_free (h.mono (by decide)) hs n fits he
  | linkStale n => exact execLinkStale_free (h.mono (by decide)) hs n he
  | deselectRetry n => exact execDeselectRetry_free (h.mono (by decide)) hs n he
  | selovr m n key node => exact execSelovr_free (h.mono (by decide)) hs m n key node he
  | accumulationStep => exact execAccumulationStep_free (h.mono (by decide)) hs he
  | istrReading n => exact execIstrReading_free (h.mono (by decide)) hs n he
  | recordWrite m addr v => exact execRecordWrite_free (h.mono (by decide)) hs m addr v he
  | storeRoomClearAll m key => exact execStoreRoomClearAll_free (h.mono (by decide)) hs m key he
  | storeRoomClearString m key n => exact execStoreRoomClearString_free (h.mono (by decide)) hs m key n he
  | toneStart m n v => exact execToneStart_free (h.mono (by decide)) hs m n v he
  | healthFlush m key => exact execHealthFlush_free (h.mono (by decide)) hs m key he
  | healthFlushRetire m key string module => exact execHealthFlushRetire_free (h.mono (by decide)) hs m key string module he
  | hourlyFlush => exact execHourlyFlush_free (h.mono (by decide)) hs he
  | periodBoundary u padsBad sense => exact execPeriodBoundary_free (h.mono (by decide)) hs u padsBad sense he
  | hiccupEnd n => exact execHiccupEnd_free (h.mono (by decide)) hs n he
  | channelSenseLoss n => exact execChannelSenseLoss_free (h.mono (by decide)) hs n he
  | softStartDone n => exact execSoftStartDone_free (h.mono (by decide)) hs n he
  | stopCheck n => exact execStopCheck_free (h.mono (by decide)) hs n he
  | instantNotice n clocks burst => exact execInstantNotice_free (h.mono (by decide)) hs n clocks burst he
  | selectPoll n => exact execSelectPoll_free (h.mono (by decide)) hs n he
  | selectOpenTimeout n => exact execSelectOpenTimeout_free (h.mono (by decide)) hs n he
  | selectCloseTimeout n => exact execSelectCloseTimeout_free (h.mono (by decide)) hs n he
  | selectVerifyTimeout n => exact execSelectVerifyTimeout_free (h.mono (by decide)) hs n he
  | inpathResult which => exact execInpathResult_free (h.mono (by decide)) hs which he
  | inpathSenseLoss => exact execInpathSenseLoss_free (h.mono (by decide)) hs he
  | inpathGateEnhanced => exact execInpathGateEnhanced_free (h.mono (by decide)) hs he
  | inpathStartTimeout => exact execInpathStartTimeout_free (h.mono (by decide)) hs he
  | inpathReverseBlock after => exact execInpathReverseBlock_free (h.mono (by decide)) hs after he
  | inpathCurrentLimit => exact execInpathCurrentLimit_free (h.mono (by decide)) hs he
  | inpathFastTrip => exact execInpathFastTrip_free (h.mono (by decide)) hs he
  | inpathUvovRecover => exact execInpathUvovRecover_free (h.mono (by decide)) hs he
  | inpathTimedTrip => exact execInpathTimedTrip_free (h.mono (by decide)) hs he
  | inpathRetry => exact execInpathRetry_free (h.mono (by decide)) hs he
  | inpathConsecReset => exact execInpathConsecReset_free (h.mono (by decide)) hs he
  | inputLoss => exact execInputLoss_free (h.mono (by decide)) hs he
  | returnOk => exact execReturnOk_free (h.mono (by decide)) hs he
  | rshedRounds => exact execRshedRounds_free (h.mono (by decide)) hs he
  | rshedRestore => exact execRshedRestore_free (h.mono (by decide)) hs he
  | packPresence det => exact execPackPresence_free (h.mono (by decide)) hs det he
  | packPrechargeTimeout => exact execPackPrechargeTimeout_free (h.mono (by decide)) hs he
  | packTermination => exact execPackTermination_free (h.mono (by decide)) hs he
  | packSafetyTimeout => exact execPackSafetyTimeout_free (h.mono (by decide)) hs he
  | packTolatchClear m key => exact execPackTolatchClear_free (h.mono (by decide)) hs m key he
  | packRestart m key => exact execPackRestart_free (h.mono (by decide)) hs m key he
  | packHold m key => exact execPackHold_free (h.mono (by decide)) hs m key he
  | packHiccupEnd => exact execPackHiccupEnd_free (h.mono (by decide)) hs he
  | packSenseLoss => exact execPackSenseLoss_free (h.mono (by decide)) hs he
  | feedCurrentResult n => exact execFeedCurrentResult_free (h.mono (by decide)) hs n he
  | feedTimedTrip n => exact execFeedTimedTrip_free (h.mono (by decide)) hs n he
  | feedSenseLoss n => exact execFeedSenseLoss_free (h.mono (by decide)) hs n he
  | feedSeatConfirm n => exact execFeedSeatConfirm_free (h.mono (by decide)) hs n he
  | feedSeatRemove n => exact execFeedSeatRemove_free (h.mono (by decide)) hs n he
  | feedStart n => exact execFeedStart_free (h.mono (by decide)) hs n he
  | feedPowerGood n => exact execFeedPowerGood_free (h.mono (by decide)) hs n he
  | feedStartTimeout n => exact execFeedStartTimeout_free (h.mono (by decide)) hs n he
  | feedRetry n => exact execFeedRetry_free (h.mono (by decide)) hs n he
  | feedGoodTimer n => exact execFeedGoodTimer_free (h.mono (by decide)) hs n he
  | feedShed => exact execFeedShed_free (h.mono (by decide)) hs he
  | feedsClearLocked m key mask => exact execFeedsClearLocked_free (h.mono (by decide)) hs m key mask he
  | feedsRestart m key mask => exact execFeedsRestart_free (h.mono (by decide)) hs m key mask he
  | supervisorJudgement r uv => exact execSupervisorJudgement_free (h.mono (by decide)) hs r uv he
  | seqSlotBegin => exact execSeqSlotBegin_free (h.mono (by decide)) hs he
  | railDelayExpire r => exact execRailDelayExpire_free (h.mono (by decide)) hs r he
  | railRampEnd r => exact execRailRampEnd_free (h.mono (by decide)) hs r he
  | railPowerGood r => exact execRailPowerGood_free (h.mono (by decide)) hs r he
  | railRiseTimeout r => exact execRailRiseTimeout_free (h.mono (by decide)) hs r he
  | fallSlot => exact execFallSlot_free (h.mono (by decide)) hs he
  | railFallTimeout r => exact execRailFallTimeout_free (h.mono (by decide)) hs r he
  | offMinWaitEnd => exact execOffMinWaitEnd_free (h.mono (by decide)) hs he
  | resetOutputRelease g => exact execResetOutputRelease_free (h.mono (by decide)) hs g he
  | nativeFallback r => exact execNativeFallback_free (h.mono (by decide)) hs r he
  | railHiccupEnd r => exact execRailHiccupEnd_free (h.mono (by decide)) hs r he
  | svcTarget v amps => exact execSvcTarget_free (h.mono (by decide)) hs v amps he
  | sensorResult table entry => exact execSensorResult_free (h.mono (by decide)) hs table entry he
  | readingStale r => exact execReadingStale_free (h.mono (by decide)) hs r he
  | thermStep m => exact execThermStep_free (h.mono (by decide)) hs m he
  | thermAutostep => exact execThermAutostep_free (h.mono (by decide)) hs he
  | thermalShutdown k => exact execThermalShutdown_free (h.mono (by decide)) hs k he
  | clockMonitor off stopped => exact execClockMonitor_free (h.mono (by decide)) hs off stopped he
  | errorLinePulse sources => exact execErrorLinePulse_free (h.mono (by decide)) hs sources he
  | errorLineDisagree k => exact execErrorLineDisagree_free (h.mono (by decide)) hs k he
  | reactionEnd => exact execReactionEnd_free (h.mono (by decide)) hs he
  | snuffReadback bad => exact execSnuffReadback_free (h.mono (by decide)) hs bad he
  | faultStatusClear m hi v sources => exact execFaultStatusClear_free (h.mono (by decide)) hs m hi v sources he
  | raiseSet m mask => exact execRaiseSet_free (h.mono (by decide)) hs m mask he
  | raiseClear m mask => exact execRaiseClear_free (h.mono (by decide)) hs m mask he
  | faultCfgLock m rest => exact execFaultCfgLock_free (h.mono (by decide)) hs m rest he
  | classWrite m j v => exact execClassWrite_free (h.mono (by decide)) hs m j v he
  | faultLogWrite => exact execFaultLogWrite_free (h.mono (by decide)) hs he
  | rtcTick padHigh => exact execRtcTick_free (h.mono (by decide)) hs padHigh he
  | crystalStop => exact execCrystalStop_free (h.mono (by decide)) hs he
  | crystalReturn => exact execCrystalReturn_free (h.mono (by decide)) hs he
  | rtcTickLoRead m => exact execRtcTickLoRead_free (h.mono (by decide)) hs m he
  | rtcTickHiRead m => exact execRtcTickHiRead_free (h.mono (by decide)) hs m he
  | rtcFreezeTimeout m => exact execRtcFreezeTimeout_free (h.mono (by decide)) hs m he
  | rtcSet m key => exact execRtcSet_free (h.mono (by decide)) hs m key he
  | rtcSetLoad => exact execRtcSetLoad_free (h.mono (by decide)) hs he
  | pwronSet m => exact execPwronSet_free (h.mono (by decide)) hs m he
  | pwronRelease m set => exact execPwronRelease_free (h.mono (by decide)) hs m set he
  | wdogCfgWrite m v => exact execWdogCfgWrite_free (h.mono (by decide)) hs m v he
  | wdogCheckin m mask count => exact execWdogCheckin_free (h.mono (by decide)) hs m mask count he
  | wdogService m v count => exact execWdogService_free (h.mono (by decide)) hs m v count he
  | wdogWarn => exact execWdogWarn_free (h.mono (by decide)) hs he
  | wdogClose => exact execWdogClose_free (h.mono (by decide)) hs he
  | mutualClockFail guardRc => exact execMutualClockFail_free (h.mono (by decide)) hs guardRc he
  | eventRecord => exact execEventRecord_free (h.mono (by decide)) hs he
  | rptrWrite m shelfB v => exact execRptrWrite_free (h.mono (by decide)) hs m shelfB v he
  | doneWrite m src => exact execDoneWrite_free (h.mono (by decide)) hs m src he
  | irqModerationExpire shelfB => exact execIrqModerationExpire_free (h.mono (by decide)) hs shelfB he
  | hostIdle shelfB => exact execHostIdle_free (h.mono (by decide)) hs shelfB he
  | spiLocalWrite f => exact execSpiLocalWrite_free (h.mono (by decide)) hs f he
  | spiLocalRead f => exact execSpiLocalRead_free (h.mono (by decide)) hs f he
  | spiRemoteWrite dev f => exact execSpiRemoteWrite_free (h.mono (by decide)) hs dev f he
  | spiRemoteRead dev f => exact execSpiRemoteRead_free (h.mono (by decide)) hs dev f he
  | spiAbort => exact execSpiAbort_free (h.mono (by decide)) hs he
  | i2cWrite low dev addr data => exact execI2cWrite_free (h.mono (by decide)) hs low dev addr data he
  | i2cLocalRead cmd take => exact execI2cLocalRead_free (h.mono (by decide)) hs cmd take he
  | i2cRemoteRead dev addr len => exact execI2cRemoteRead_free (h.mono (by decide)) hs dev addr len he
  | i2cTimeout => exact execI2cTimeout_free (h.mono (by decide)) hs he
  | hostNotifyRepeat shelfB ok => exact execHostNotifyRepeat_free (h.mono (by decide)) hs shelfB ok he
  | i2cWakeMatch => exact execI2cWakeMatch_free (h.mono (by decide)) hs he
  | i2cWakeTimeout => exact execI2cWakeTimeout_free (h.mono (by decide)) hs he
  | i2ccGo m v => exact execI2ccGo_free (h.mono (by decide)) hs m v he
  | i2ccClear m v => exact execI2ccClear_free (h.mono (by decide)) hs m v he
  | i2ccDone cleared e rx => exact execI2ccDone_free (h.mono (by decide)) hs cleared e rx he
  | i2ccStretchTimeout => exact execI2ccStretchTimeout_free (h.mono (by decide)) hs he
  | debugLinkFrame w dev f => exact execDebugLinkFrame_free (h.mono (by decide)) hs w dev f he
  | typecToggle => exact execTypecToggle_free (h.mono (by decide)) hs he
  | typecAttach cc2 rp v dead => exact execTypecAttach_free (h.mono (by decide)) hs cc2 rp v dead he
  | trySnkExpire => exact execTrySnkExpire_free (h.mono (by decide)) hs he
  | typecDetach vbusLost => exact execTypecDetach_free (h.mono (by decide)) hs vbusLost he
  | accessory => exact execAccessory_free (h.mono (by decide)) hs he
  | vconnOvercurrent => exact execVconnOvercurrent_free (h.mono (by decide)) hs he
  | typecErrorRecovery m key => exact execTypecErrorRecovery_free (h.mono (by decide)) hs m key he
  | errorRecoveryEnd => exact execErrorRecoveryEnd_free (h.mono (by decide)) hs he
  | pdSourceCapsSend acked => exact execPdSourceCapsSend_free (h.mono (by decide)) hs acked he
  | pdSourceCapsRx caps good => exact execPdSourceCapsRx_free (h.mono (by decide)) hs caps good he
  | pdRequestRx rdo good => exact execPdRequestRx_free (h.mono (by decide)) hs rdo good he
  | pdPsRdySend => exact execPdPsRdySend_free (h.mono (by decide)) hs he
  | pdGoodcrcTimeout => exact execPdGoodcrcTimeout_free (h.mono (by decide)) hs he
  | pdSwapRx k vconnIn good => exact execPdSwapRx_free (h.mono (by decide)) hs k vconnIn good he
  | pdSwapTimeout => exact execPdSwapTimeout_free (h.mono (by decide)) hs he
  | pdRenegotiate m key => exact execPdRenegotiate_free (h.mono (by decide)) hs m key he
  | pdPrSwap m key => exact execPdPrSwap_free (h.mono (by decide)) hs m key he
  | pdDrSwap m key => exact execPdDrSwap_free (h.mono (by decide)) hs m key he
  | pdVconnSwap m key => exact execPdVconnSwap_free (h.mono (by decide)) hs m key he
  | pdHardResetCmd m key => exact execPdHardResetCmd_free (h.mono (by decide)) hs m key he
  | pdSendVdm m key => exact execPdSendVdm_free (h.mono (by decide)) hs m key he
  | pdGetStatus m key => exact execPdGetStatus_free (h.mono (by decide)) hs m key he
  | pdHardReset => exact execPdHardReset_free (h.mono (by decide)) hs he
  | pdHardResetVbusTimeout => exact execPdHardResetVbusTimeout_free (h.mono (by decide)) hs he
  | pdFrsSignal => exact execPdFrsSignal_free (h.mono (by decide)) hs he
  | pdFrsAcceptTimeout => exact execPdFrsAcceptTimeout_free (h.mono (by decide)) hs he
  | srcOkFall => exact execSrcOkFall_free (h.mono (by decide)) hs he
  | pdVdmRx words good => exact execPdVdmRx_free (h.mono (by decide)) hs words good he
  | pdVdmAnswerTimeout => exact execPdVdmAnswerTimeout_free (h.mono (by decide)) hs he
  | lanternCommand words good => exact execLanternCommand_free (h.mono (by decide)) hs words good he
  | ringFrameRx west f crc eofb ns res => exact execRingFrameRx_free (h.mono (by decide)) hs west f crc eofb ns res he
  | remoteReadTimeout tag => exact execRemoteReadTimeout_free (h.mono (by decide)) hs tag he
  | orderedSetRx west otype b1 b2 b3 chk rt => exact execOrderedSetRx_free (h.mono (by decide)) hs west otype b1 b2 b3 chk rt he
  | snuffRepeat => exact execSnuffRepeat_free (h.mono (by decide)) hs he
  | ringSnuffCmd m key => exact execRingSnuffCmd_free (h.mono (by decide)) hs m key he
  | ringPortDown west => exact execRingPortDown_free (h.mono (by decide)) hs west he
  | ringPortUp west => exact execRingPortUp_free (h.mono (by decide)) hs west he
  | rfaultRepeat west => exact execRfaultRepeat_free (h.mono (by decide)) hs west he
  | ringQuiet west => exact execRingQuiet_free (h.mono (by decide)) hs west he
  | ringHeal => exact execRingHeal_free (h.mono (by decide)) hs he
  | ringEnumerate m key => exact execRingEnumerate_free (h.mono (by decide)) hs m key he
  | ringEnumStepTimeout => exact execRingEnumStepTimeout_free (h.mono (by decide)) hs he
  | delayProbe west => exact execDelayProbe_free (h.mono (by decide)) hs west he
  | ringRemeasure m key => exact execRingRemeasure_free (h.mono (by decide)) hs m key he
  | pilotSend => exact execPilotSend_free (h.mono (by decide)) hs he
  | pilotLoss => exact execPilotLoss_free (h.mono (by decide)) hs he
  | summarySend => exact execSummarySend_free (h.mono (by decide)) hs he
  | summaryDeadline => exact execSummaryDeadline_free (h.mono (by decide)) hs he
  | ringWakeBurst m key => exact execRingWakeBurst_free (h.mono (by decide)) hs m key he
  | epsetLoad m key => exact execEpsetLoad_free (h.mono (by decide)) hs m key he
  | pdMessageRx x good => exact execPdMessageRx_free (h.mono (by decide)) hs x good he
  | pdResponseTimeout => exact execPdResponseTimeout_free (h.mono (by decide)) hs he
  | pdHardResetTimer => exact execPdHardResetTimer_free (h.mono (by decide)) hs he
  | vbusSafe0v v => exact execVbusSafe0v_free (h.mono (by decide)) hs v he
  | vbusOvervoltage v => exact execVbusOvervoltage_free (h.mono (by decide)) hs v he
  | vddioBankChange bank low => exact execVddioBankChange_free (h.mono (by decide)) hs bank low he
  | testAssert high => exact execTestAssert_free (h.mono (by decide)) hs high he
  | jtagInstruction instr => exact execJtagInstruction_free (h.mono (by decide)) hs instr he

end Sys2Proof.Machine
end

