-- ==== Sys2Proof/Laws/State.lean ====
section
/-! SUPPORT. What each named update of the state does to each field, by `rfl`, so that no proof unfolds a record update. -/

namespace Sys2Proof.Machine

/-! ### wr -/

@[simp] theorem State.wr_pending (s : State) (a : Nat) (v : Word) : (s.wr a v).pending = s.pending := rfl
theorem State.wr_regs (s : State) (a : Nat) (v : Word) : (s.wr a v).regs = Sparse.put regReset s.regs a v := rfl
@[simp] theorem State.wr_mem (s : State) (a : Nat) (v : Word) : (s.wr a v).mem = s.mem := rfl
@[simp] theorem State.wr_mode (s : State) (a : Nat) (v : Word) : (s.wr a v).mode = s.mode := rfl
@[simp] theorem State.wr_fresh (s : State) (a : Nat) (v : Word) : (s.wr a v).fresh = s.fresh := rfl
@[simp] theorem State.wr_answer (s : State) (a : Nat) (v : Word) : (s.wr a v).answer = s.answer := rfl
@[simp] theorem State.wr_dev (s : State) (a : Nat) (v : Word) : (s.wr a v).dev = s.dev := rfl
@[simp] theorem State.wr_evq (s : State) (a : Nat) (v : Word) : (s.wr a v).evq = s.evq := rfl
@[simp] theorem State.wr_fault (s : State) (a : Nat) (v : Word) : (s.wr a v).fault = s.fault := rfl
@[simp] theorem State.wr_lamp (s : State) (a : Nat) (v : Word) : (s.wr a v).lamp = s.lamp := rfl
@[simp] theorem State.wr_cellar (s : State) (a : Nat) (v : Word) : (s.wr a v).cellar = s.cellar := rfl
@[simp] theorem State.wr_wdog (s : State) (a : Nat) (v : Word) : (s.wr a v).wdog = s.wdog := rfl
@[simp] theorem State.wr_op (s : State) (a : Nat) (v : Word) : (s.wr a v).op = s.op := rfl
@[simp] theorem State.wr_pwm (s : State) (a : Nat) (v : Word) : (s.wr a v).pwm = s.pwm := rfl
@[simp] theorem State.wr_adc (s : State) (a : Nat) (v : Word) : (s.wr a v).adc = s.adc := rfl
@[simp] theorem State.wr_cmp (s : State) (a : Nat) (v : Word) : (s.wr a v).cmp = s.cmp := rfl
@[simp] theorem State.wr_link (s : State) (a : Nat) (v : Word) : (s.wr a v).link = s.link := rfl
@[simp] theorem State.wr_est (s : State) (a : Nat) (v : Word) : (s.wr a v).est = s.est := rfl
@[simp] theorem State.wr_bal (s : State) (a : Nat) (v : Word) : (s.wr a v).bal = s.bal := rfl
@[simp] theorem State.wr_hb (s : State) (a : Nat) (v : Word) : (s.wr a v).hb = s.hb := rfl
@[simp] theorem State.wr_inp (s : State) (a : Nat) (v : Word) : (s.wr a v).inp = s.inp := rfl
@[simp] theorem State.wr_pack (s : State) (a : Nat) (v : Word) : (s.wr a v).pack = s.pack := rfl
@[simp] theorem State.wr_feed (s : State) (a : Nat) (v : Word) : (s.wr a v).feed = s.feed := rfl
@[simp] theorem State.wr_feedL (s : State) (a : Nat) (v : Word) : (s.wr a v).feedL = s.feedL := rfl
@[simp] theorem State.wr_rail (s : State) (a : Nat) (v : Word) : (s.wr a v).rail = s.rail := rfl
@[simp] theorem State.wr_seq (s : State) (a : Nat) (v : Word) : (s.wr a v).seq = s.seq := rfl
@[simp] theorem State.wr_svc (s : State) (a : Nat) (v : Word) : (s.wr a v).svc = s.svc := rfl
@[simp] theorem State.wr_therm (s : State) (a : Nat) (v : Word) : (s.wr a v).therm = s.therm := rfl
@[simp] theorem State.wr_port (s : State) (a : Nat) (v : Word) : (s.wr a v).port = s.port := rfl
@[simp] theorem State.wr_ring (s : State) (a : Nat) (v : Word) : (s.wr a v).ring = s.ring := rfl
@[simp] theorem State.wr_bus (s : State) (a : Nat) (v : Word) : (s.wr a v).bus = s.bus := rfl
@[simp] theorem State.wr_byte (s : State) (a : Nat) (v : Word) (q : Nat) : (s.wr a v).byte q = s.byte q := rfl

/-! ### put -/

@[simp] theorem State.put_pending (s : State) (f : Fld) (v : Nat) : (s.put f v).pending = s.pending := rfl
@[simp] theorem State.put_mem (s : State) (f : Fld) (v : Nat) : (s.put f v).mem = s.mem := rfl
@[simp] theorem State.put_mode (s : State) (f : Fld) (v : Nat) : (s.put f v).mode = s.mode := rfl
@[simp] theorem State.put_fresh (s : State) (f : Fld) (v : Nat) : (s.put f v).fresh = s.fresh := rfl
@[simp] theorem State.put_answer (s : State) (f : Fld) (v : Nat) : (s.put f v).answer = s.answer := rfl
@[simp] theorem State.put_dev (s : State) (f : Fld) (v : Nat) : (s.put f v).dev = s.dev := rfl
@[simp] theorem State.put_evq (s : State) (f : Fld) (v : Nat) : (s.put f v).evq = s.evq := rfl
@[simp] theorem State.put_fault (s : State) (f : Fld) (v : Nat) : (s.put f v).fault = s.fault := rfl
@[simp] theorem State.put_lamp (s : State) (f : Fld) (v : Nat) : (s.put f v).lamp = s.lamp := rfl
@[simp] theorem State.put_cellar (s : State) (f : Fld) (v : Nat) : (s.put f v).cellar = s.cellar := rfl
@[simp] theorem State.put_wdog (s : State) (f : Fld) (v : Nat) : (s.put f v).wdog = s.wdog := rfl
@[simp] theorem State.put_op (s : State) (f : Fld) (v : Nat) : (s.put f v).op = s.op := rfl
@[simp] theorem State.put_pwm (s : State) (f : Fld) (v : Nat) : (s.put f v).pwm = s.pwm := rfl
@[simp] theorem State.put_adc (s : State) (f : Fld) (v : Nat) : (s.put f v).adc = s.adc := rfl
@[simp] theorem State.put_cmp (s : State) (f : Fld) (v : Nat) : (s.put f v).cmp = s.cmp := rfl
@[simp] theorem State.put_link (s : State) (f : Fld) (v : Nat) : (s.put f v).link = s.link := rfl
@[simp] theorem State.put_est (s : State) (f : Fld) (v : Nat) : (s.put f v).est = s.est := rfl
@[simp] theorem State.put_bal (s : State) (f : Fld) (v : Nat) : (s.put f v).bal = s.bal := rfl
@[simp] theorem State.put_hb (s : State) (f : Fld) (v : Nat) : (s.put f v).hb = s.hb := rfl
@[simp] theorem State.put_inp (s : State) (f : Fld) (v : Nat) : (s.put f v).inp = s.inp := rfl
@[simp] theorem State.put_pack (s : State) (f : Fld) (v : Nat) : (s.put f v).pack = s.pack := rfl
@[simp] theorem State.put_feed (s : State) (f : Fld) (v : Nat) : (s.put f v).feed = s.feed := rfl
@[simp] theorem State.put_feedL (s : State) (f : Fld) (v : Nat) : (s.put f v).feedL = s.feedL := rfl
@[simp] theorem State.put_rail (s : State) (f : Fld) (v : Nat) : (s.put f v).rail = s.rail := rfl
@[simp] theorem State.put_seq (s : State) (f : Fld) (v : Nat) : (s.put f v).seq = s.seq := rfl
@[simp] theorem State.put_svc (s : State) (f : Fld) (v : Nat) : (s.put f v).svc = s.svc := rfl
@[simp] theorem State.put_therm (s : State) (f : Fld) (v : Nat) : (s.put f v).therm = s.therm := rfl
@[simp] theorem State.put_port (s : State) (f : Fld) (v : Nat) : (s.put f v).port = s.port := rfl
@[simp] theorem State.put_ring (s : State) (f : Fld) (v : Nat) : (s.put f v).ring = s.ring := rfl
@[simp] theorem State.put_bus (s : State) (f : Fld) (v : Nat) : (s.put f v).bus = s.bus := rfl
@[simp] theorem State.put_byte (s : State) (f : Fld) (v : Nat) (q : Nat) : (s.put f v).byte q = s.byte q := rfl

/-! ### putI -/

@[simp] theorem State.putI_pending (s : State) (f : Fld) (v : Int) : (s.putI f v).pending = s.pending := rfl
@[simp] theorem State.putI_mem (s : State) (f : Fld) (v : Int) : (s.putI f v).mem = s.mem := rfl
@[simp] theorem State.putI_mode (s : State) (f : Fld) (v : Int) : (s.putI f v).mode = s.mode := rfl
@[simp] theorem State.putI_fresh (s : State) (f : Fld) (v : Int) : (s.putI f v).fresh = s.fresh := rfl
@[simp] theorem State.putI_answer (s : State) (f : Fld) (v : Int) : (s.putI f v).answer = s.answer := rfl
@[simp] theorem State.putI_dev (s : State) (f : Fld) (v : Int) : (s.putI f v).dev = s.dev := rfl
@[simp] theorem State.putI_evq (s : State) (f : Fld) (v : Int) : (s.putI f v).evq = s.evq := rfl
@[simp] theorem State.putI_fault (s : State) (f : Fld) (v : Int) : (s.putI f v).fault = s.fault := rfl
@[simp] theorem State.putI_lamp (s : State) (f : Fld) (v : Int) : (s.putI f v).lamp = s.lamp := rfl
@[simp] theorem State.putI_cellar (s : State) (f : Fld) (v : Int) : (s.putI f v).cellar = s.cellar := rfl
@[simp] theorem State.putI_wdog (s : State) (f : Fld) (v : Int) : (s.putI f v).wdog = s.wdog := rfl
@[simp] theorem State.putI_op (s : State) (f : Fld) (v : Int) : (s.putI f v).op = s.op := rfl
@[simp] theorem State.putI_pwm (s : State) (f : Fld) (v : Int) : (s.putI f v).pwm = s.pwm := rfl
@[simp] theorem State.putI_adc (s : State) (f : Fld) (v : Int) : (s.putI f v).adc = s.adc := rfl
@[simp] theorem State.putI_cmp (s : State) (f : Fld) (v : Int) : (s.putI f v).cmp = s.cmp := rfl
@[simp] theorem State.putI_link (s : State) (f : Fld) (v : Int) : (s.putI f v).link = s.link := rfl
@[simp] theorem State.putI_est (s : State) (f : Fld) (v : Int) : (s.putI f v).est = s.est := rfl
@[simp] theorem State.putI_bal (s : State) (f : Fld) (v : Int) : (s.putI f v).bal = s.bal := rfl
@[simp] theorem State.putI_hb (s : State) (f : Fld) (v : Int) : (s.putI f v).hb = s.hb := rfl
@[simp] theorem State.putI_inp (s : State) (f : Fld) (v : Int) : (s.putI f v).inp = s.inp := rfl
@[simp] theorem State.putI_pack (s : State) (f : Fld) (v : Int) : (s.putI f v).pack = s.pack := rfl
@[simp] theorem State.putI_feed (s : State) (f : Fld) (v : Int) : (s.putI f v).feed = s.feed := rfl
@[simp] theorem State.putI_feedL (s : State) (f : Fld) (v : Int) : (s.putI f v).feedL = s.feedL := rfl
@[simp] theorem State.putI_rail (s : State) (f : Fld) (v : Int) : (s.putI f v).rail = s.rail := rfl
@[simp] theorem State.putI_seq (s : State) (f : Fld) (v : Int) : (s.putI f v).seq = s.seq := rfl
@[simp] theorem State.putI_svc (s : State) (f : Fld) (v : Int) : (s.putI f v).svc = s.svc := rfl
@[simp] theorem State.putI_therm (s : State) (f : Fld) (v : Int) : (s.putI f v).therm = s.therm := rfl
@[simp] theorem State.putI_port (s : State) (f : Fld) (v : Int) : (s.putI f v).port = s.port := rfl
@[simp] theorem State.putI_ring (s : State) (f : Fld) (v : Int) : (s.putI f v).ring = s.ring := rfl
@[simp] theorem State.putI_bus (s : State) (f : Fld) (v : Int) : (s.putI f v).bus = s.bus := rfl
@[simp] theorem State.putI_byte (s : State) (f : Fld) (v : Int) (q : Nat) : (s.putI f v).byte q = s.byte q := rfl

/-! ### putByte -/

@[simp] theorem State.putByte_pending (s : State) (a : Nat) (b : Byte) : (s.putByte a b).pending = s.pending := rfl
@[simp] theorem State.putByte_regs (s : State) (a : Nat) (b : Byte) : (s.putByte a b).regs = s.regs := rfl
theorem State.putByte_mem (s : State) (a : Nat) (b : Byte) : (s.putByte a b).mem = Sparse.put shippedByte s.mem a b := rfl
@[simp] theorem State.putByte_mode (s : State) (a : Nat) (b : Byte) : (s.putByte a b).mode = s.mode := rfl
@[simp] theorem State.putByte_fresh (s : State) (a : Nat) (b : Byte) : (s.putByte a b).fresh = s.fresh := rfl
@[simp] theorem State.putByte_answer (s : State) (a : Nat) (b : Byte) : (s.putByte a b).answer = s.answer := rfl
@[simp] theorem State.putByte_dev (s : State) (a : Nat) (b : Byte) : (s.putByte a b).dev = s.dev := rfl
@[simp] theorem State.putByte_evq (s : State) (a : Nat) (b : Byte) : (s.putByte a b).evq = s.evq := rfl
@[simp] theorem State.putByte_fault (s : State) (a : Nat) (b : Byte) : (s.putByte a b).fault = s.fault := rfl
@[simp] theorem State.putByte_lamp (s : State) (a : Nat) (b : Byte) : (s.putByte a b).lamp = s.lamp := rfl
@[simp] theorem State.putByte_cellar (s : State) (a : Nat) (b : Byte) : (s.putByte a b).cellar = s.cellar := rfl
@[simp] theorem State.putByte_wdog (s : State) (a : Nat) (b : Byte) : (s.putByte a b).wdog = s.wdog := rfl
@[simp] theorem State.putByte_op (s : State) (a : Nat) (b : Byte) : (s.putByte a b).op = s.op := rfl
@[simp] theorem State.putByte_pwm (s : State) (a : Nat) (b : Byte) : (s.putByte a b).pwm = s.pwm := rfl
@[simp] theorem State.putByte_adc (s : State) (a : Nat) (b : Byte) : (s.putByte a b).adc = s.adc := rfl
@[simp] theorem State.putByte_cmp (s : State) (a : Nat) (b : Byte) : (s.putByte a b).cmp = s.cmp := rfl
@[simp] theorem State.putByte_link (s : State) (a : Nat) (b : Byte) : (s.putByte a b).link = s.link := rfl
@[simp] theorem State.putByte_est (s : State) (a : Nat) (b : Byte) : (s.putByte a b).est = s.est := rfl
@[simp] theorem State.putByte_bal (s : State) (a : Nat) (b : Byte) : (s.putByte a b).bal = s.bal := rfl
@[simp] theorem State.putByte_hb (s : State) (a : Nat) (b : Byte) : (s.putByte a b).hb = s.hb := rfl
@[simp] theorem State.putByte_inp (s : State) (a : Nat) (b : Byte) : (s.putByte a b).inp = s.inp := rfl
@[simp] theorem State.putByte_pack (s : State) (a : Nat) (b : Byte) : (s.putByte a b).pack = s.pack := rfl
@[simp] theorem State.putByte_feed (s : State) (a : Nat) (b : Byte) : (s.putByte a b).feed = s.feed := rfl
@[simp] theorem State.putByte_feedL (s : State) (a : Nat) (b : Byte) : (s.putByte a b).feedL = s.feedL := rfl
@[simp] theorem State.putByte_rail (s : State) (a : Nat) (b : Byte) : (s.putByte a b).rail = s.rail := rfl
@[simp] theorem State.putByte_seq (s : State) (a : Nat) (b : Byte) : (s.putByte a b).seq = s.seq := rfl
@[simp] theorem State.putByte_svc (s : State) (a : Nat) (b : Byte) : (s.putByte a b).svc = s.svc := rfl
@[simp] theorem State.putByte_therm (s : State) (a : Nat) (b : Byte) : (s.putByte a b).therm = s.therm := rfl
@[simp] theorem State.putByte_port (s : State) (a : Nat) (b : Byte) : (s.putByte a b).port = s.port := rfl
@[simp] theorem State.putByte_ring (s : State) (a : Nat) (b : Byte) : (s.putByte a b).ring = s.ring := rfl
@[simp] theorem State.putByte_bus (s : State) (a : Nat) (b : Byte) : (s.putByte a b).bus = s.bus := rfl
@[simp] theorem State.putByte_rd (s : State) (a : Nat) (b : Byte) (q : Nat) : (s.putByte a b).rd q = s.rd q := rfl

/-! ### setBank -/

@[simp] theorem State.setBank_pending (s : State) (b : Fin 4) (x : AdcS) : (s.setBank b x).pending = s.pending := rfl
@[simp] theorem State.setBank_regs (s : State) (b : Fin 4) (x : AdcS) : (s.setBank b x).regs = s.regs := rfl
@[simp] theorem State.setBank_mem (s : State) (b : Fin 4) (x : AdcS) : (s.setBank b x).mem = s.mem := rfl
@[simp] theorem State.setBank_mode (s : State) (b : Fin 4) (x : AdcS) : (s.setBank b x).mode = s.mode := rfl
@[simp] theorem State.setBank_fresh (s : State) (b : Fin 4) (x : AdcS) : (s.setBank b x).fresh = s.fresh := rfl
@[simp] theorem State.setBank_answer (s : State) (b : Fin 4) (x : AdcS) : (s.setBank b x).answer = s.answer := rfl
@[simp] theorem State.setBank_dev (s : State) (b : Fin 4) (x : AdcS) : (s.setBank b x).dev = s.dev := rfl
@[simp] theorem State.setBank_evq (s : State) (b : Fin 4) (x : AdcS) : (s.setBank b x).evq = s.evq := rfl
@[simp] theorem State.setBank_fault (s : State) (b : Fin 4) (x : AdcS) : (s.setBank b x).fault = s.fault := rfl
@[simp] theorem State.setBank_lamp (s : State) (b : Fin 4) (x : AdcS) : (s.setBank b x).lamp = s.lamp := rfl
@[simp] theorem State.setBank_cellar (s : State) (b : Fin 4) (x : AdcS) : (s.setBank b x).cellar = s.cellar := rfl
@[simp] theorem State.setBank_wdog (s : State) (b : Fin 4) (x : AdcS) : (s.setBank b x).wdog = s.wdog := rfl
@[simp] theorem State.setBank_op (s : State) (b : Fin 4) (x : AdcS) : (s.setBank b x).op = s.op := rfl
@[simp] theorem State.setBank_pwm (s : State) (b : Fin 4) (x : AdcS) : (s.setBank b x).pwm = s.pwm := rfl
theorem State.setBank_adc (s : State) (b : Fin 4) (x : AdcS) : (s.setBank b x).adc = s.adc.set b x := rfl
@[simp] theorem State.setBank_cmp (s : State) (b : Fin 4) (x : AdcS) : (s.setBank b x).cmp = s.cmp := rfl
@[simp] theorem State.setBank_link (s : State) (b : Fin 4) (x : AdcS) : (s.setBank b x).link = s.link := rfl
@[simp] theorem State.setBank_est (s : State) (b : Fin 4) (x : AdcS) : (s.setBank b x).est = s.est := rfl
@[simp] theorem State.setBank_bal (s : State) (b : Fin 4) (x : AdcS) : (s.setBank b x).bal = s.bal := rfl
@[simp] theorem State.setBank_hb (s : State) (b : Fin 4) (x : AdcS) : (s.setBank b x).hb = s.hb := rfl
@[simp] theorem State.setBank_inp (s : State) (b : Fin 4) (x : AdcS) : (s.setBank b x).inp = s.inp := rfl
@[simp] theorem State.setBank_pack (s : State) (b : Fin 4) (x : AdcS) : (s.setBank b x).pack = s.pack := rfl
@[simp] theorem State.setBank_feed (s : State) (b : Fin 4) (x : AdcS) : (s.setBank b x).feed = s.feed := rfl
@[simp] theorem State.setBank_feedL (s : State) (b : Fin 4) (x : AdcS) : (s.setBank b x).feedL = s.feedL := rfl
@[simp] theorem State.setBank_rail (s : State) (b : Fin 4) (x : AdcS) : (s.setBank b x).rail = s.rail := rfl
@[simp] theorem State.setBank_seq (s : State) (b : Fin 4) (x : AdcS) : (s.setBank b x).seq = s.seq := rfl
@[simp] theorem State.setBank_svc (s : State) (b : Fin 4) (x : AdcS) : (s.setBank b x).svc = s.svc := rfl
@[simp] theorem State.setBank_therm (s : State) (b : Fin 4) (x : AdcS) : (s.setBank b x).therm = s.therm := rfl
@[simp] theorem State.setBank_port (s : State) (b : Fin 4) (x : AdcS) : (s.setBank b x).port = s.port := rfl
@[simp] theorem State.setBank_ring (s : State) (b : Fin 4) (x : AdcS) : (s.setBank b x).ring = s.ring := rfl
@[simp] theorem State.setBank_bus (s : State) (b : Fin 4) (x : AdcS) : (s.setBank b x).bus = s.bus := rfl
@[simp] theorem State.setBank_rd (s : State) (b : Fin 4) (x : AdcS) (q : Nat) : (s.setBank b x).rd q = s.rd q := rfl
@[simp] theorem State.setBank_byte (s : State) (b : Fin 4) (x : AdcS) (q : Nat) : (s.setBank b x).byte q = s.byte q := rfl

/-! ### setBs -/

@[simp] theorem State.setBs_pending (s : State) (n : Fin 16) (x : BalS) : (s.setBs n x).pending = s.pending := rfl
@[simp] theorem State.setBs_regs (s : State) (n : Fin 16) (x : BalS) : (s.setBs n x).regs = s.regs := rfl
@[simp] theorem State.setBs_mem (s : State) (n : Fin 16) (x : BalS) : (s.setBs n x).mem = s.mem := rfl
@[simp] theorem State.setBs_mode (s : State) (n : Fin 16) (x : BalS) : (s.setBs n x).mode = s.mode := rfl
@[simp] theorem State.setBs_fresh (s : State) (n : Fin 16) (x : BalS) : (s.setBs n x).fresh = s.fresh := rfl
@[simp] theorem State.setBs_answer (s : State) (n : Fin 16) (x : BalS) : (s.setBs n x).answer = s.answer := rfl
@[simp] theorem State.setBs_dev (s : State) (n : Fin 16) (x : BalS) : (s.setBs n x).dev = s.dev := rfl
@[simp] theorem State.setBs_evq (s : State) (n : Fin 16) (x : BalS) : (s.setBs n x).evq = s.evq := rfl
@[simp] theorem State.setBs_fault (s : State) (n : Fin 16) (x : BalS) : (s.setBs n x).fault = s.fault := rfl
@[simp] theorem State.setBs_lamp (s : State) (n : Fin 16) (x : BalS) : (s.setBs n x).lamp = s.lamp := rfl
@[simp] theorem State.setBs_cellar (s : State) (n : Fin 16) (x : BalS) : (s.setBs n x).cellar = s.cellar := rfl
@[simp] theorem State.setBs_wdog (s : State) (n : Fin 16) (x : BalS) : (s.setBs n x).wdog = s.wdog := rfl
@[simp] theorem State.setBs_op (s : State) (n : Fin 16) (x : BalS) : (s.setBs n x).op = s.op := rfl
@[simp] theorem State.setBs_pwm (s : State) (n : Fin 16) (x : BalS) : (s.setBs n x).pwm = s.pwm := rfl
@[simp] theorem State.setBs_adc (s : State) (n : Fin 16) (x : BalS) : (s.setBs n x).adc = s.adc := rfl
@[simp] theorem State.setBs_cmp (s : State) (n : Fin 16) (x : BalS) : (s.setBs n x).cmp = s.cmp := rfl
@[simp] theorem State.setBs_link (s : State) (n : Fin 16) (x : BalS) : (s.setBs n x).link = s.link := rfl
@[simp] theorem State.setBs_est (s : State) (n : Fin 16) (x : BalS) : (s.setBs n x).est = s.est := rfl
theorem State.setBs_bal (s : State) (n : Fin 16) (x : BalS) : (s.setBs n x).bal = s.bal.set n x := rfl
@[simp] theorem State.setBs_hb (s : State) (n : Fin 16) (x : BalS) : (s.setBs n x).hb = s.hb := rfl
@[simp] theorem State.setBs_inp (s : State) (n : Fin 16) (x : BalS) : (s.setBs n x).inp = s.inp := rfl
@[simp] theorem State.setBs_pack (s : State) (n : Fin 16) (x : BalS) : (s.setBs n x).pack = s.pack := rfl
@[simp] theorem State.setBs_feed (s : State) (n : Fin 16) (x : BalS) : (s.setBs n x).feed = s.feed := rfl
@[simp] theorem State.setBs_feedL (s : State) (n : Fin 16) (x : BalS) : (s.setBs n x).feedL = s.feedL := rfl
@[simp] theorem State.setBs_rail (s : State) (n : Fin 16) (x : BalS) : (s.setBs n x).rail = s.rail := rfl
@[simp] theorem State.setBs_seq (s : State) (n : Fin 16) (x : BalS) : (s.setBs n x).seq = s.seq := rfl
@[simp] theorem State.setBs_svc (s : State) (n : Fin 16) (x : BalS) : (s.setBs n x).svc = s.svc := rfl
@[simp] theorem State.setBs_therm (s : State) (n : Fin 16) (x : BalS) : (s.setBs n x).therm = s.therm := rfl
@[simp] theorem State.setBs_port (s : State) (n : Fin 16) (x : BalS) : (s.setBs n x).port = s.port := rfl
@[simp] theorem State.setBs_ring (s : State) (n : Fin 16) (x : BalS) : (s.setBs n x).ring = s.ring := rfl
@[simp] theorem State.setBs_bus (s : State) (n : Fin 16) (x : BalS) : (s.setBs n x).bus = s.bus := rfl
@[simp] theorem State.setBs_rd (s : State) (n : Fin 16) (x : BalS) (q : Nat) : (s.setBs n x).rd q = s.rd q := rfl
@[simp] theorem State.setBs_byte (s : State) (n : Fin 16) (x : BalS) (q : Nat) : (s.setBs n x).byte q = s.byte q := rfl

/-! ### setEs -/

@[simp] theorem State.setEs_pending (s : State) (n : Fin 16) (x : EstStr) : (s.setEs n x).pending = s.pending := rfl
@[simp] theorem State.setEs_regs (s : State) (n : Fin 16) (x : EstStr) : (s.setEs n x).regs = s.regs := rfl
@[simp] theorem State.setEs_mem (s : State) (n : Fin 16) (x : EstStr) : (s.setEs n x).mem = s.mem := rfl
@[simp] theorem State.setEs_mode (s : State) (n : Fin 16) (x : EstStr) : (s.setEs n x).mode = s.mode := rfl
@[simp] theorem State.setEs_fresh (s : State) (n : Fin 16) (x : EstStr) : (s.setEs n x).fresh = s.fresh := rfl
@[simp] theorem State.setEs_answer (s : State) (n : Fin 16) (x : EstStr) : (s.setEs n x).answer = s.answer := rfl
@[simp] theorem State.setEs_dev (s : State) (n : Fin 16) (x : EstStr) : (s.setEs n x).dev = s.dev := rfl
@[simp] theorem State.setEs_evq (s : State) (n : Fin 16) (x : EstStr) : (s.setEs n x).evq = s.evq := rfl
@[simp] theorem State.setEs_fault (s : State) (n : Fin 16) (x : EstStr) : (s.setEs n x).fault = s.fault := rfl
@[simp] theorem State.setEs_lamp (s : State) (n : Fin 16) (x : EstStr) : (s.setEs n x).lamp = s.lamp := rfl
@[simp] theorem State.setEs_cellar (s : State) (n : Fin 16) (x : EstStr) : (s.setEs n x).cellar = s.cellar := rfl
@[simp] theorem State.setEs_wdog (s : State) (n : Fin 16) (x : EstStr) : (s.setEs n x).wdog = s.wdog := rfl
@[simp] theorem State.setEs_op (s : State) (n : Fin 16) (x : EstStr) : (s.setEs n x).op = s.op := rfl
@[simp] theorem State.setEs_pwm (s : State) (n : Fin 16) (x : EstStr) : (s.setEs n x).pwm = s.pwm := rfl
@[simp] theorem State.setEs_adc (s : State) (n : Fin 16) (x : EstStr) : (s.setEs n x).adc = s.adc := rfl
@[simp] theorem State.setEs_cmp (s : State) (n : Fin 16) (x : EstStr) : (s.setEs n x).cmp = s.cmp := rfl
@[simp] theorem State.setEs_link (s : State) (n : Fin 16) (x : EstStr) : (s.setEs n x).link = s.link := rfl
@[simp] theorem State.setEs_bal (s : State) (n : Fin 16) (x : EstStr) : (s.setEs n x).bal = s.bal := rfl
@[simp] theorem State.setEs_hb (s : State) (n : Fin 16) (x : EstStr) : (s.setEs n x).hb = s.hb := rfl
@[simp] theorem State.setEs_inp (s : State) (n : Fin 16) (x : EstStr) : (s.setEs n x).inp = s.inp := rfl
@[simp] theorem State.setEs_pack (s : State) (n : Fin 16) (x : EstStr) : (s.setEs n x).pack = s.pack := rfl
@[simp] theorem State.setEs_feed (s : State) (n : Fin 16) (x : EstStr) : (s.setEs n x).feed = s.feed := rfl
@[simp] theorem State.setEs_feedL (s : State) (n : Fin 16) (x : EstStr) : (s.setEs n x).feedL = s.feedL := rfl
@[simp] theorem State.setEs_rail (s : State) (n : Fin 16) (x : EstStr) : (s.setEs n x).rail = s.rail := rfl
@[simp] theorem State.setEs_seq (s : State) (n : Fin 16) (x : EstStr) : (s.setEs n x).seq = s.seq := rfl
@[simp] theorem State.setEs_svc (s : State) (n : Fin 16) (x : EstStr) : (s.setEs n x).svc = s.svc := rfl
@[simp] theorem State.setEs_therm (s : State) (n : Fin 16) (x : EstStr) : (s.setEs n x).therm = s.therm := rfl
@[simp] theorem State.setEs_port (s : State) (n : Fin 16) (x : EstStr) : (s.setEs n x).port = s.port := rfl
@[simp] theorem State.setEs_ring (s : State) (n : Fin 16) (x : EstStr) : (s.setEs n x).ring = s.ring := rfl
@[simp] theorem State.setEs_bus (s : State) (n : Fin 16) (x : EstStr) : (s.setEs n x).bus = s.bus := rfl
@[simp] theorem State.setEs_rd (s : State) (n : Fin 16) (x : EstStr) (q : Nat) : (s.setEs n x).rd q = s.rd q := rfl
@[simp] theorem State.setEs_byte (s : State) (n : Fin 16) (x : EstStr) (q : Nat) : (s.setEs n x).byte q = s.byte q := rfl

/-! ### setFd -/

@[simp] theorem State.setFd_pending (s : State) (n : Fin 8) (x : FeedS) : (s.setFd n x).pending = s.pending := rfl
@[simp] theorem State.setFd_regs (s : State) (n : Fin 8) (x : FeedS) : (s.setFd n x).regs = s.regs := rfl
@[simp] theorem State.setFd_mem (s : State) (n : Fin 8) (x : FeedS) : (s.setFd n x).mem = s.mem := rfl
@[simp] theorem State.setFd_mode (s : State) (n : Fin 8) (x : FeedS) : (s.setFd n x).mode = s.mode := rfl
@[simp] theorem State.setFd_fresh (s : State) (n : Fin 8) (x : FeedS) : (s.setFd n x).fresh = s.fresh := rfl
@[simp] theorem State.setFd_answer (s : State) (n : Fin 8) (x : FeedS) : (s.setFd n x).answer = s.answer := rfl
@[simp] theorem State.setFd_dev (s : State) (n : Fin 8) (x : FeedS) : (s.setFd n x).dev = s.dev := rfl
@[simp] theorem State.setFd_evq (s : State) (n : Fin 8) (x : FeedS) : (s.setFd n x).evq = s.evq := rfl
@[simp] theorem State.setFd_fault (s : State) (n : Fin 8) (x : FeedS) : (s.setFd n x).fault = s.fault := rfl
@[simp] theorem State.setFd_lamp (s : State) (n : Fin 8) (x : FeedS) : (s.setFd n x).lamp = s.lamp := rfl
@[simp] theorem State.setFd_cellar (s : State) (n : Fin 8) (x : FeedS) : (s.setFd n x).cellar = s.cellar := rfl
@[simp] theorem State.setFd_wdog (s : State) (n : Fin 8) (x : FeedS) : (s.setFd n x).wdog = s.wdog := rfl
@[simp] theorem State.setFd_op (s : State) (n : Fin 8) (x : FeedS) : (s.setFd n x).op = s.op := rfl
@[simp] theorem State.setFd_pwm (s : State) (n : Fin 8) (x : FeedS) : (s.setFd n x).pwm = s.pwm := rfl
@[simp] theorem State.setFd_adc (s : State) (n : Fin 8) (x : FeedS) : (s.setFd n x).adc = s.adc := rfl
@[simp] theorem State.setFd_cmp (s : State) (n : Fin 8) (x : FeedS) : (s.setFd n x).cmp = s.cmp := rfl
@[simp] theorem State.setFd_link (s : State) (n : Fin 8) (x : FeedS) : (s.setFd n x).link = s.link := rfl
@[simp] theorem State.setFd_est (s : State) (n : Fin 8) (x : FeedS) : (s.setFd n x).est = s.est := rfl
@[simp] theorem State.setFd_bal (s : State) (n : Fin 8) (x : FeedS) : (s.setFd n x).bal = s.bal := rfl
@[simp] theorem State.setFd_hb (s : State) (n : Fin 8) (x : FeedS) : (s.setFd n x).hb = s.hb := rfl
@[simp] theorem State.setFd_inp (s : State) (n : Fin 8) (x : FeedS) : (s.setFd n x).inp = s.inp := rfl
@[simp] theorem State.setFd_pack (s : State) (n : Fin 8) (x : FeedS) : (s.setFd n x).pack = s.pack := rfl
theorem State.setFd_feed (s : State) (n : Fin 8) (x : FeedS) : (s.setFd n x).feed = s.feed.set n x := rfl
@[simp] theorem State.setFd_feedL (s : State) (n : Fin 8) (x : FeedS) : (s.setFd n x).feedL = s.feedL := rfl
@[simp] theorem State.setFd_rail (s : State) (n : Fin 8) (x : FeedS) : (s.setFd n x).rail = s.rail := rfl
@[simp] theorem State.setFd_seq (s : State) (n : Fin 8) (x : FeedS) : (s.setFd n x).seq = s.seq := rfl
@[simp] theorem State.setFd_svc (s : State) (n : Fin 8) (x : FeedS) : (s.setFd n x).svc = s.svc := rfl
@[simp] theorem State.setFd_therm (s : State) (n : Fin 8) (x : FeedS) : (s.setFd n x).therm = s.therm := rfl
@[simp] theorem State.setFd_port (s : State) (n : Fin 8) (x : FeedS) : (s.setFd n x).port = s.port := rfl
@[simp] theorem State.setFd_ring (s : State) (n : Fin 8) (x : FeedS) : (s.setFd n x).ring = s.ring := rfl
@[simp] theorem State.setFd_bus (s : State) (n : Fin 8) (x : FeedS) : (s.setFd n x).bus = s.bus := rfl
@[simp] theorem State.setFd_rd (s : State) (n : Fin 8) (x : FeedS) (q : Nat) : (s.setFd n x).rd q = s.rd q := rfl
@[simp] theorem State.setFd_byte (s : State) (n : Fin 8) (x : FeedS) (q : Nat) : (s.setFd n x).byte q = s.byte q := rfl

/-! ### setLane -/

@[simp] theorem State.setLane_pending (s : State) (n : Fin 6) (x : LaneS) : (s.setLane n x).pending = s.pending := rfl
@[simp] theorem State.setLane_regs (s : State) (n : Fin 6) (x : LaneS) : (s.setLane n x).regs = s.regs := rfl
@[simp] theorem State.setLane_mem (s : State) (n : Fin 6) (x : LaneS) : (s.setLane n x).mem = s.mem := rfl
@[simp] theorem State.setLane_mode (s : State) (n : Fin 6) (x : LaneS) : (s.setLane n x).mode = s.mode := rfl
@[simp] theorem State.setLane_fresh (s : State) (n : Fin 6) (x : LaneS) : (s.setLane n x).fresh = s.fresh := rfl
@[simp] theorem State.setLane_answer (s : State) (n : Fin 6) (x : LaneS) : (s.setLane n x).answer = s.answer := rfl
@[simp] theorem State.setLane_dev (s : State) (n : Fin 6) (x : LaneS) : (s.setLane n x).dev = s.dev := rfl
@[simp] theorem State.setLane_evq (s : State) (n : Fin 6) (x : LaneS) : (s.setLane n x).evq = s.evq := rfl
@[simp] theorem State.setLane_fault (s : State) (n : Fin 6) (x : LaneS) : (s.setLane n x).fault = s.fault := rfl
@[simp] theorem State.setLane_cellar (s : State) (n : Fin 6) (x : LaneS) : (s.setLane n x).cellar = s.cellar := rfl
@[simp] theorem State.setLane_wdog (s : State) (n : Fin 6) (x : LaneS) : (s.setLane n x).wdog = s.wdog := rfl
@[simp] theorem State.setLane_op (s : State) (n : Fin 6) (x : LaneS) : (s.setLane n x).op = s.op := rfl
@[simp] theorem State.setLane_pwm (s : State) (n : Fin 6) (x : LaneS) : (s.setLane n x).pwm = s.pwm := rfl
@[simp] theorem State.setLane_adc (s : State) (n : Fin 6) (x : LaneS) : (s.setLane n x).adc = s.adc := rfl
@[simp] theorem State.setLane_cmp (s : State) (n : Fin 6) (x : LaneS) : (s.setLane n x).cmp = s.cmp := rfl
@[simp] theorem State.setLane_link (s : State) (n : Fin 6) (x : LaneS) : (s.setLane n x).link = s.link := rfl
@[simp] theorem State.setLane_est (s : State) (n : Fin 6) (x : LaneS) : (s.setLane n x).est = s.est := rfl
@[simp] theorem State.setLane_bal (s : State) (n : Fin 6) (x : LaneS) : (s.setLane n x).bal = s.bal := rfl
@[simp] theorem State.setLane_hb (s : State) (n : Fin 6) (x : LaneS) : (s.setLane n x).hb = s.hb := rfl
@[simp] theorem State.setLane_inp (s : State) (n : Fin 6) (x : LaneS) : (s.setLane n x).inp = s.inp := rfl
@[simp] theorem State.setLane_pack (s : State) (n : Fin 6) (x : LaneS) : (s.setLane n x).pack = s.pack := rfl
@[simp] theorem State.setLane_feed (s : State) (n : Fin 6) (x : LaneS) : (s.setLane n x).feed = s.feed := rfl
@[simp] theorem State.setLane_feedL (s : State) (n : Fin 6) (x : LaneS) : (s.setLane n x).feedL = s.feedL := rfl
@[simp] theorem State.setLane_rail (s : State) (n : Fin 6) (x : LaneS) : (s.setLane n x).rail = s.rail := rfl
@[simp] theorem State.setLane_seq (s : State) (n : Fin 6) (x : LaneS) : (s.setLane n x).seq = s.seq := rfl
@[simp] theorem State.setLane_svc (s : State) (n : Fin 6) (x : LaneS) : (s.setLane n x).svc = s.svc := rfl
@[simp] theorem State.setLane_therm (s : State) (n : Fin 6) (x : LaneS) : (s.setLane n x).therm = s.therm := rfl
@[simp] theorem State.setLane_port (s : State) (n : Fin 6) (x : LaneS) : (s.setLane n x).port = s.port := rfl
@[simp] theorem State.setLane_ring (s : State) (n : Fin 6) (x : LaneS) : (s.setLane n x).ring = s.ring := rfl
@[simp] theorem State.setLane_bus (s : State) (n : Fin 6) (x : LaneS) : (s.setLane n x).bus = s.bus := rfl
@[simp] theorem State.setLane_rd (s : State) (n : Fin 6) (x : LaneS) (q : Nat) : (s.setLane n x).rd q = s.rd q := rfl
@[simp] theorem State.setLane_byte (s : State) (n : Fin 6) (x : LaneS) (q : Nat) : (s.setLane n x).byte q = s.byte q := rfl

/-! ### setPwm -/

@[simp] theorem State.setPwm_pending (s : State) (o : Nat) (x : PwmOut) : (s.setPwm o x).pending = s.pending := rfl
@[simp] theorem State.setPwm_regs (s : State) (o : Nat) (x : PwmOut) : (s.setPwm o x).regs = s.regs := rfl
@[simp] theorem State.setPwm_mem (s : State) (o : Nat) (x : PwmOut) : (s.setPwm o x).mem = s.mem := rfl
@[simp] theorem State.setPwm_mode (s : State) (o : Nat) (x : PwmOut) : (s.setPwm o x).mode = s.mode := rfl
@[simp] theorem State.setPwm_fresh (s : State) (o : Nat) (x : PwmOut) : (s.setPwm o x).fresh = s.fresh := rfl
@[simp] theorem State.setPwm_answer (s : State) (o : Nat) (x : PwmOut) : (s.setPwm o x).answer = s.answer := rfl
@[simp] theorem State.setPwm_dev (s : State) (o : Nat) (x : PwmOut) : (s.setPwm o x).dev = s.dev := rfl
@[simp] theorem State.setPwm_evq (s : State) (o : Nat) (x : PwmOut) : (s.setPwm o x).evq = s.evq := rfl
@[simp] theorem State.setPwm_fault (s : State) (o : Nat) (x : PwmOut) : (s.setPwm o x).fault = s.fault := rfl
@[simp] theorem State.setPwm_lamp (s : State) (o : Nat) (x : PwmOut) : (s.setPwm o x).lamp = s.lamp := rfl
@[simp] theorem State.setPwm_cellar (s : State) (o : Nat) (x : PwmOut) : (s.setPwm o x).cellar = s.cellar := rfl
@[simp] theorem State.setPwm_wdog (s : State) (o : Nat) (x : PwmOut) : (s.setPwm o x).wdog = s.wdog := rfl
@[simp] theorem State.setPwm_op (s : State) (o : Nat) (x : PwmOut) : (s.setPwm o x).op = s.op := rfl
theorem State.setPwm_pwm (s : State) (o : Nat) (x : PwmOut) : (s.setPwm o x).pwm = s.pwm.setIfInBounds o x := rfl
@[simp] theorem State.setPwm_adc (s : State) (o : Nat) (x : PwmOut) : (s.setPwm o x).adc = s.adc := rfl
@[simp] theorem State.setPwm_cmp (s : State) (o : Nat) (x : PwmOut) : (s.setPwm o x).cmp = s.cmp := rfl
@[simp] theorem State.setPwm_link (s : State) (o : Nat) (x : PwmOut) : (s.setPwm o x).link = s.link := rfl
@[simp] theorem State.setPwm_est (s : State) (o : Nat) (x : PwmOut) : (s.setPwm o x).est = s.est := rfl
@[simp] theorem State.setPwm_bal (s : State) (o : Nat) (x : PwmOut) : (s.setPwm o x).bal = s.bal := rfl
@[simp] theorem State.setPwm_hb (s : State) (o : Nat) (x : PwmOut) : (s.setPwm o x).hb = s.hb := rfl
@[simp] theorem State.setPwm_inp (s : State) (o : Nat) (x : PwmOut) : (s.setPwm o x).inp = s.inp := rfl
@[simp] theorem State.setPwm_pack (s : State) (o : Nat) (x : PwmOut) : (s.setPwm o x).pack = s.pack := rfl
@[simp] theorem State.setPwm_feed (s : State) (o : Nat) (x : PwmOut) : (s.setPwm o x).feed = s.feed := rfl
@[simp] theorem State.setPwm_feedL (s : State) (o : Nat) (x : PwmOut) : (s.setPwm o x).feedL = s.feedL := rfl
@[simp] theorem State.setPwm_rail (s : State) (o : Nat) (x : PwmOut) : (s.setPwm o x).rail = s.rail := rfl
@[simp] theorem State.setPwm_seq (s : State) (o : Nat) (x : PwmOut) : (s.setPwm o x).seq = s.seq := rfl
@[simp] theorem State.setPwm_svc (s : State) (o : Nat) (x : PwmOut) : (s.setPwm o x).svc = s.svc := rfl
@[simp] theorem State.setPwm_therm (s : State) (o : Nat) (x : PwmOut) : (s.setPwm o x).therm = s.therm := rfl
@[simp] theorem State.setPwm_port (s : State) (o : Nat) (x : PwmOut) : (s.setPwm o x).port = s.port := rfl
@[simp] theorem State.setPwm_ring (s : State) (o : Nat) (x : PwmOut) : (s.setPwm o x).ring = s.ring := rfl
@[simp] theorem State.setPwm_bus (s : State) (o : Nat) (x : PwmOut) : (s.setPwm o x).bus = s.bus := rfl
@[simp] theorem State.setPwm_rd (s : State) (o : Nat) (x : PwmOut) (q : Nat) : (s.setPwm o x).rd q = s.rd q := rfl
@[simp] theorem State.setPwm_byte (s : State) (o : Nat) (x : PwmOut) (q : Nat) : (s.setPwm o x).byte q = s.byte q := rfl

/-! ### setRs -/

@[simp] theorem State.setRs_pending (s : State) (r : Fin 15) (x : RailS) : (s.setRs r x).pending = s.pending := rfl
@[simp] theorem State.setRs_regs (s : State) (r : Fin 15) (x : RailS) : (s.setRs r x).regs = s.regs := rfl
@[simp] theorem State.setRs_mem (s : State) (r : Fin 15) (x : RailS) : (s.setRs r x).mem = s.mem := rfl
@[simp] theorem State.setRs_mode (s : State) (r : Fin 15) (x : RailS) : (s.setRs r x).mode = s.mode := rfl
@[simp] theorem State.setRs_fresh (s : State) (r : Fin 15) (x : RailS) : (s.setRs r x).fresh = s.fresh := rfl
@[simp] theorem State.setRs_answer (s : State) (r : Fin 15) (x : RailS) : (s.setRs r x).answer = s.answer := rfl
@[simp] theorem State.setRs_dev (s : State) (r : Fin 15) (x : RailS) : (s.setRs r x).dev = s.dev := rfl
@[simp] theorem State.setRs_evq (s : State) (r : Fin 15) (x : RailS) : (s.setRs r x).evq = s.evq := rfl
@[simp] theorem State.setRs_fault (s : State) (r : Fin 15) (x : RailS) : (s.setRs r x).fault = s.fault := rfl
@[simp] theorem State.setRs_lamp (s : State) (r : Fin 15) (x : RailS) : (s.setRs r x).lamp = s.lamp := rfl
@[simp] theorem State.setRs_cellar (s : State) (r : Fin 15) (x : RailS) : (s.setRs r x).cellar = s.cellar := rfl
@[simp] theorem State.setRs_wdog (s : State) (r : Fin 15) (x : RailS) : (s.setRs r x).wdog = s.wdog := rfl
@[simp] theorem State.setRs_op (s : State) (r : Fin 15) (x : RailS) : (s.setRs r x).op = s.op := rfl
@[simp] theorem State.setRs_pwm (s : State) (r : Fin 15) (x : RailS) : (s.setRs r x).pwm = s.pwm := rfl
@[simp] theorem State.setRs_adc (s : State) (r : Fin 15) (x : RailS) : (s.setRs r x).adc = s.adc := rfl
@[simp] theorem State.setRs_cmp (s : State) (r : Fin 15) (x : RailS) : (s.setRs r x).cmp = s.cmp := rfl
@[simp] theorem State.setRs_link (s : State) (r : Fin 15) (x : RailS) : (s.setRs r x).link = s.link := rfl
@[simp] theorem State.setRs_est (s : State) (r : Fin 15) (x : RailS) : (s.setRs r x).est = s.est := rfl
@[simp] theorem State.setRs_bal (s : State) (r : Fin 15) (x : RailS) : (s.setRs r x).bal = s.bal := rfl
@[simp] theorem State.setRs_hb (s : State) (r : Fin 15) (x : RailS) : (s.setRs r x).hb = s.hb := rfl
@[simp] theorem State.setRs_inp (s : State) (r : Fin 15) (x : RailS) : (s.setRs r x).inp = s.inp := rfl
@[simp] theorem State.setRs_pack (s : State) (r : Fin 15) (x : RailS) : (s.setRs r x).pack = s.pack := rfl
@[simp] theorem State.setRs_feed (s : State) (r : Fin 15) (x : RailS) : (s.setRs r x).feed = s.feed := rfl
@[simp] theorem State.setRs_feedL (s : State) (r : Fin 15) (x : RailS) : (s.setRs r x).feedL = s.feedL := rfl
theorem State.setRs_rail (s : State) (r : Fin 15) (x : RailS) : (s.setRs r x).rail = s.rail.set r x := rfl
@[simp] theorem State.setRs_seq (s : State) (r : Fin 15) (x : RailS) : (s.setRs r x).seq = s.seq := rfl
@[simp] theorem State.setRs_svc (s : State) (r : Fin 15) (x : RailS) : (s.setRs r x).svc = s.svc := rfl
@[simp] theorem State.setRs_therm (s : State) (r : Fin 15) (x : RailS) : (s.setRs r x).therm = s.therm := rfl
@[simp] theorem State.setRs_port (s : State) (r : Fin 15) (x : RailS) : (s.setRs r x).port = s.port := rfl
@[simp] theorem State.setRs_ring (s : State) (r : Fin 15) (x : RailS) : (s.setRs r x).ring = s.ring := rfl
@[simp] theorem State.setRs_bus (s : State) (r : Fin 15) (x : RailS) : (s.setRs r x).bus = s.bus := rfl
@[simp] theorem State.setRs_rd (s : State) (r : Fin 15) (x : RailS) (q : Nat) : (s.setRs r x).rd q = s.rd q := rfl
@[simp] theorem State.setRs_byte (s : State) (r : Fin 15) (x : RailS) (q : Nat) : (s.setRs r x).byte q = s.byte q := rfl

/-! ### setLk -/

@[simp] theorem State.setLk_pending (s : State) (n : Fin 16) (x : LinkS) : (s.setLk n x).pending = s.pending := rfl
@[simp] theorem State.setLk_mem (s : State) (n : Fin 16) (x : LinkS) : (s.setLk n x).mem = s.mem := rfl
@[simp] theorem State.setLk_mode (s : State) (n : Fin 16) (x : LinkS) : (s.setLk n x).mode = s.mode := rfl
@[simp] theorem State.setLk_fresh (s : State) (n : Fin 16) (x : LinkS) : (s.setLk n x).fresh = s.fresh := rfl
@[simp] theorem State.setLk_answer (s : State) (n : Fin 16) (x : LinkS) : (s.setLk n x).answer = s.answer := rfl
@[simp] theorem State.setLk_dev (s : State) (n : Fin 16) (x : LinkS) : (s.setLk n x).dev = s.dev := rfl
@[simp] theorem State.setLk_evq (s : State) (n : Fin 16) (x : LinkS) : (s.setLk n x).evq = s.evq := rfl
@[simp] theorem State.setLk_fault (s : State) (n : Fin 16) (x : LinkS) : (s.setLk n x).fault = s.fault := rfl
@[simp] theorem State.setLk_lamp (s : State) (n : Fin 16) (x : LinkS) : (s.setLk n x).lamp = s.lamp := rfl
@[simp] theorem State.setLk_cellar (s : State) (n : Fin 16) (x : LinkS) : (s.setLk n x).cellar = s.cellar := rfl
@[simp] theorem State.setLk_wdog (s : State) (n : Fin 16) (x : LinkS) : (s.setLk n x).wdog = s.wdog := rfl
@[simp] theorem State.setLk_op (s : State) (n : Fin 16) (x : LinkS) : (s.setLk n x).op = s.op := rfl
@[simp] theorem State.setLk_pwm (s : State) (n : Fin 16) (x : LinkS) : (s.setLk n x).pwm = s.pwm := rfl
@[simp] theorem State.setLk_adc (s : State) (n : Fin 16) (x : LinkS) : (s.setLk n x).adc = s.adc := rfl
@[simp] theorem State.setLk_cmp (s : State) (n : Fin 16) (x : LinkS) : (s.setLk n x).cmp = s.cmp := rfl
@[simp] theorem State.setLk_est (s : State) (n : Fin 16) (x : LinkS) : (s.setLk n x).est = s.est := rfl
@[simp] theorem State.setLk_bal (s : State) (n : Fin 16) (x : LinkS) : (s.setLk n x).bal = s.bal := rfl
@[simp] theorem State.setLk_hb (s : State) (n : Fin 16) (x : LinkS) : (s.setLk n x).hb = s.hb := rfl
@[simp] theorem State.setLk_inp (s : State) (n : Fin 16) (x : LinkS) : (s.setLk n x).inp = s.inp := rfl
@[simp] theorem State.setLk_pack (s : State) (n : Fin 16) (x : LinkS) : (s.setLk n x).pack = s.pack := rfl
@[simp] theorem State.setLk_feed (s : State) (n : Fin 16) (x : LinkS) : (s.setLk n x).feed = s.feed := rfl
@[simp] theorem State.setLk_feedL (s : State) (n : Fin 16) (x : LinkS) : (s.setLk n x).feedL = s.feedL := rfl
@[simp] theorem State.setLk_rail (s : State) (n : Fin 16) (x : LinkS) : (s.setLk n x).rail = s.rail := rfl
@[simp] theorem State.setLk_seq (s : State) (n : Fin 16) (x : LinkS) : (s.setLk n x).seq = s.seq := rfl
@[simp] theorem State.setLk_svc (s : State) (n : Fin 16) (x : LinkS) : (s.setLk n x).svc = s.svc := rfl
@[simp] theorem State.setLk_therm (s : State) (n : Fin 16) (x : LinkS) : (s.setLk n x).therm = s.therm := rfl
@[simp] theorem State.setLk_port (s : State) (n : Fin 16) (x : LinkS) : (s.setLk n x).port = s.port := rfl
@[simp] theorem State.setLk_ring (s : State) (n : Fin 16) (x : LinkS) : (s.setLk n x).ring = s.ring := rfl
@[simp] theorem State.setLk_bus (s : State) (n : Fin 16) (x : LinkS) : (s.setLk n x).bus = s.bus := rfl
@[simp] theorem State.setLk_byte (s : State) (n : Fin 16) (x : LinkS) (q : Nat) : (s.setLk n x).byte q = s.byte q := rfl

/-! ### emit -/

@[simp] theorem State.emit_pending (s : State) (w : Bool) (x : RingItem) : (s.emit w x).pending = s.pending := rfl
@[simp] theorem State.emit_regs (s : State) (w : Bool) (x : RingItem) : (s.emit w x).regs = s.regs := rfl
@[simp] theorem State.emit_mem (s : State) (w : Bool) (x : RingItem) : (s.emit w x).mem = s.mem := rfl
@[simp] theorem State.emit_mode (s : State) (w : Bool) (x : RingItem) : (s.emit w x).mode = s.mode := rfl
@[simp] theorem State.emit_fresh (s : State) (w : Bool) (x : RingItem) : (s.emit w x).fresh = s.fresh := rfl
@[simp] theorem State.emit_answer (s : State) (w : Bool) (x : RingItem) : (s.emit w x).answer = s.answer := rfl
@[simp] theorem State.emit_dev (s : State) (w : Bool) (x : RingItem) : (s.emit w x).dev = s.dev := rfl
@[simp] theorem State.emit_evq (s : State) (w : Bool) (x : RingItem) : (s.emit w x).evq = s.evq := rfl
@[simp] theorem State.emit_fault (s : State) (w : Bool) (x : RingItem) : (s.emit w x).fault = s.fault := rfl
@[simp] theorem State.emit_lamp (s : State) (w : Bool) (x : RingItem) : (s.emit w x).lamp = s.lamp := rfl
@[simp] theorem State.emit_cellar (s : State) (w : Bool) (x : RingItem) : (s.emit w x).cellar = s.cellar := rfl
@[simp] theorem State.emit_wdog (s : State) (w : Bool) (x : RingItem) : (s.emit w x).wdog = s.wdog := rfl
@[simp] theorem State.emit_op (s : State) (w : Bool) (x : RingItem) : (s.emit w x).op = s.op := rfl
@[simp] theorem State.emit_pwm (s : State) (w : Bool) (x : RingItem) : (s.emit w x).pwm = s.pwm := rfl
@[simp] theorem State.emit_adc (s : State) (w : Bool) (x : RingItem) : (s.emit w x).adc = s.adc := rfl
@[simp] theorem State.emit_cmp (s : State) (w : Bool) (x : RingItem) : (s.emit w x).cmp = s.cmp := rfl
@[simp] theorem State.emit_link (s : State) (w : Bool) (x : RingItem) : (s.emit w x).link = s.link := rfl
@[simp] theorem State.emit_est (s : State) (w : Bool) (x : RingItem) : (s.emit w x).est = s.est := rfl
@[simp] theorem State.emit_bal (s : State) (w : Bool) (x : RingItem) : (s.emit w x).bal = s.bal := rfl
@[simp] theorem State.emit_hb (s : State) (w : Bool) (x : RingItem) : (s.emit w x).hb = s.hb := rfl
@[simp] theorem State.emit_inp (s : State) (w : Bool) (x : RingItem) : (s.emit w x).inp = s.inp := rfl
@[simp] theorem State.emit_pack (s : State) (w : Bool) (x : RingItem) : (s.emit w x).pack = s.pack := rfl
@[simp] theorem State.emit_feed (s : State) (w : Bool) (x : RingItem) : (s.emit w x).feed = s.feed := rfl
@[simp] theorem State.emit_feedL (s : State) (w : Bool) (x : RingItem) : (s.emit w x).feedL = s.feedL := rfl
@[simp] theorem State.emit_rail (s : State) (w : Bool) (x : RingItem) : (s.emit w x).rail = s.rail := rfl
@[simp] theorem State.emit_seq (s : State) (w : Bool) (x : RingItem) : (s.emit w x).seq = s.seq := rfl
@[simp] theorem State.emit_svc (s : State) (w : Bool) (x : RingItem) : (s.emit w x).svc = s.svc := rfl
@[simp] theorem State.emit_therm (s : State) (w : Bool) (x : RingItem) : (s.emit w x).therm = s.therm := rfl
@[simp] theorem State.emit_port (s : State) (w : Bool) (x : RingItem) : (s.emit w x).port = s.port := rfl
@[simp] theorem State.emit_bus (s : State) (w : Bool) (x : RingItem) : (s.emit w x).bus = s.bus := rfl
@[simp] theorem State.emit_rd (s : State) (w : Bool) (x : RingItem) (q : Nat) : (s.emit w x).rd q = s.rd q := rfl
@[simp] theorem State.emit_byte (s : State) (w : Bool) (x : RingItem) (q : Nat) : (s.emit w x).byte q = s.byte q := rfl

/-! ### setRmt -/

@[simp] theorem State.setRmt_pending (s : State) (m : Nat) (c : RmtCopy) : (s.setRmt m c).pending = s.pending := rfl
@[simp] theorem State.setRmt_regs (s : State) (m : Nat) (c : RmtCopy) : (s.setRmt m c).regs = s.regs := rfl
@[simp] theorem State.setRmt_mem (s : State) (m : Nat) (c : RmtCopy) : (s.setRmt m c).mem = s.mem := rfl
@[simp] theorem State.setRmt_mode (s : State) (m : Nat) (c : RmtCopy) : (s.setRmt m c).mode = s.mode := rfl
@[simp] theorem State.setRmt_fresh (s : State) (m : Nat) (c : RmtCopy) : (s.setRmt m c).fresh = s.fresh := rfl
@[simp] theorem State.setRmt_answer (s : State) (m : Nat) (c : RmtCopy) : (s.setRmt m c).answer = s.answer := rfl
@[simp] theorem State.setRmt_dev (s : State) (m : Nat) (c : RmtCopy) : (s.setRmt m c).dev = s.dev := rfl
@[simp] theorem State.setRmt_evq (s : State) (m : Nat) (c : RmtCopy) : (s.setRmt m c).evq = s.evq := rfl
@[simp] theorem State.setRmt_fault (s : State) (m : Nat) (c : RmtCopy) : (s.setRmt m c).fault = s.fault := rfl
@[simp] theorem State.setRmt_lamp (s : State) (m : Nat) (c : RmtCopy) : (s.setRmt m c).lamp = s.lamp := rfl
@[simp] theorem State.setRmt_cellar (s : State) (m : Nat) (c : RmtCopy) : (s.setRmt m c).cellar = s.cellar := rfl
@[simp] theorem State.setRmt_wdog (s : State) (m : Nat) (c : RmtCopy) : (s.setRmt m c).wdog = s.wdog := rfl
@[simp] theorem State.setRmt_op (s : State) (m : Nat) (c : RmtCopy) : (s.setRmt m c).op = s.op := rfl
@[simp] theorem State.setRmt_pwm (s : State) (m : Nat) (c : RmtCopy) : (s.setRmt m c).pwm = s.pwm := rfl
@[simp] theorem State.setRmt_adc (s : State) (m : Nat) (c : RmtCopy) : (s.setRmt m c).adc = s.adc := rfl
@[simp] theorem State.setRmt_cmp (s : State) (m : Nat) (c : RmtCopy) : (s.setRmt m c).cmp = s.cmp := rfl
@[simp] theorem State.setRmt_link (s : State) (m : Nat) (c : RmtCopy) : (s.setRmt m c).link = s.link := rfl
@[simp] theorem State.setRmt_est (s : State) (m : Nat) (c : RmtCopy) : (s.setRmt m c).est = s.est := rfl
@[simp] theorem State.setRmt_bal (s : State) (m : Nat) (c : RmtCopy) : (s.setRmt m c).bal = s.bal := rfl
@[simp] theorem State.setRmt_hb (s : State) (m : Nat) (c : RmtCopy) : (s.setRmt m c).hb = s.hb := rfl
@[simp] theorem State.setRmt_inp (s : State) (m : Nat) (c : RmtCopy) : (s.setRmt m c).inp = s.inp := rfl
@[simp] theorem State.setRmt_pack (s : State) (m : Nat) (c : RmtCopy) : (s.setRmt m c).pack = s.pack := rfl
@[simp] theorem State.setRmt_feed (s : State) (m : Nat) (c : RmtCopy) : (s.setRmt m c).feed = s.feed := rfl
@[simp] theorem State.setRmt_feedL (s : State) (m : Nat) (c : RmtCopy) : (s.setRmt m c).feedL = s.feedL := rfl
@[simp] theorem State.setRmt_rail (s : State) (m : Nat) (c : RmtCopy) : (s.setRmt m c).rail = s.rail := rfl
@[simp] theorem State.setRmt_seq (s : State) (m : Nat) (c : RmtCopy) : (s.setRmt m c).seq = s.seq := rfl
@[simp] theorem State.setRmt_svc (s : State) (m : Nat) (c : RmtCopy) : (s.setRmt m c).svc = s.svc := rfl
@[simp] theorem State.setRmt_therm (s : State) (m : Nat) (c : RmtCopy) : (s.setRmt m c).therm = s.therm := rfl
@[simp] theorem State.setRmt_port (s : State) (m : Nat) (c : RmtCopy) : (s.setRmt m c).port = s.port := rfl
@[simp] theorem State.setRmt_bus (s : State) (m : Nat) (c : RmtCopy) : (s.setRmt m c).bus = s.bus := rfl
@[simp] theorem State.setRmt_rd (s : State) (m : Nat) (c : RmtCopy) (q : Nat) : (s.setRmt m c).rd q = s.rd q := rfl
@[simp] theorem State.setRmt_byte (s : State) (m : Nat) (c : RmtCopy) (q : Nat) : (s.setRmt m c).byte q = s.byte q := rfl

/-! ### pulse -/

@[simp] theorem State.pulse_pending (s : State) (p : LinePulse) : (s.pulse p).pending = s.pending := rfl
@[simp] theorem State.pulse_regs (s : State) (p : LinePulse) : (s.pulse p).regs = s.regs := rfl
@[simp] theorem State.pulse_mem (s : State) (p : LinePulse) : (s.pulse p).mem = s.mem := rfl
@[simp] theorem State.pulse_mode (s : State) (p : LinePulse) : (s.pulse p).mode = s.mode := rfl
@[simp] theorem State.pulse_fresh (s : State) (p : LinePulse) : (s.pulse p).fresh = s.fresh := rfl
@[simp] theorem State.pulse_answer (s : State) (p : LinePulse) : (s.pulse p).answer = s.answer := rfl
@[simp] theorem State.pulse_dev (s : State) (p : LinePulse) : (s.pulse p).dev = s.dev := rfl
@[simp] theorem State.pulse_evq (s : State) (p : LinePulse) : (s.pulse p).evq = s.evq := rfl
@[simp] theorem State.pulse_lamp (s : State) (p : LinePulse) : (s.pulse p).lamp = s.lamp := rfl
@[simp] theorem State.pulse_cellar (s : State) (p : LinePulse) : (s.pulse p).cellar = s.cellar := rfl
@[simp] theorem State.pulse_wdog (s : State) (p : LinePulse) : (s.pulse p).wdog = s.wdog := rfl
@[simp] theorem State.pulse_op (s : State) (p : LinePulse) : (s.pulse p).op = s.op := rfl
@[simp] theorem State.pulse_pwm (s : State) (p : LinePulse) : (s.pulse p).pwm = s.pwm := rfl
@[simp] theorem State.pulse_adc (s : State) (p : LinePulse) : (s.pulse p).adc = s.adc := rfl
@[simp] theorem State.pulse_cmp (s : State) (p : LinePulse) : (s.pulse p).cmp = s.cmp := rfl
@[simp] theorem State.pulse_link (s : State) (p : LinePulse) : (s.pulse p).link = s.link := rfl
@[simp] theorem State.pulse_est (s : State) (p : LinePulse) : (s.pulse p).est = s.est := rfl
@[simp] theorem State.pulse_bal (s : State) (p : LinePulse) : (s.pulse p).bal = s.bal := rfl
@[simp] theorem State.pulse_hb (s : State) (p : LinePulse) : (s.pulse p).hb = s.hb := rfl
@[simp] theorem State.pulse_inp (s : State) (p : LinePulse) : (s.pulse p).inp = s.inp := rfl
@[simp] theorem State.pulse_pack (s : State) (p : LinePulse) : (s.pulse p).pack = s.pack := rfl
@[simp] theorem State.pulse_feed (s : State) (p : LinePulse) : (s.pulse p).feed = s.feed := rfl
@[simp] theorem State.pulse_feedL (s : State) (p : LinePulse) : (s.pulse p).feedL = s.feedL := rfl
@[simp] theorem State.pulse_rail (s : State) (p : LinePulse) : (s.pulse p).rail = s.rail := rfl
@[simp] theorem State.pulse_seq (s : State) (p : LinePulse) : (s.pulse p).seq = s.seq := rfl
@[simp] theorem State.pulse_svc (s : State) (p : LinePulse) : (s.pulse p).svc = s.svc := rfl
@[simp] theorem State.pulse_therm (s : State) (p : LinePulse) : (s.pulse p).therm = s.therm := rfl
@[simp] theorem State.pulse_port (s : State) (p : LinePulse) : (s.pulse p).port = s.port := rfl
@[simp] theorem State.pulse_ring (s : State) (p : LinePulse) : (s.pulse p).ring = s.ring := rfl
@[simp] theorem State.pulse_bus (s : State) (p : LinePulse) : (s.pulse p).bus = s.bus := rfl
@[simp] theorem State.pulse_rd (s : State) (p : LinePulse) (q : Nat) : (s.pulse p).rd q = s.rd q := rfl
@[simp] theorem State.pulse_byte (s : State) (p : LinePulse) (q : Nat) : (s.pulse p).byte q = s.byte q := rfl

/-! ### reply -/

@[simp] theorem State.reply_pending (s : State) (ws : List Nat) : (s.reply ws).pending = s.pending := rfl
@[simp] theorem State.reply_regs (s : State) (ws : List Nat) : (s.reply ws).regs = s.regs := rfl
@[simp] theorem State.reply_mem (s : State) (ws : List Nat) : (s.reply ws).mem = s.mem := rfl
@[simp] theorem State.reply_mode (s : State) (ws : List Nat) : (s.reply ws).mode = s.mode := rfl
@[simp] theorem State.reply_fresh (s : State) (ws : List Nat) : (s.reply ws).fresh = s.fresh := rfl
theorem State.reply_answer (s : State) (ws : List Nat) : (s.reply ws).answer = ws := rfl
@[simp] theorem State.reply_dev (s : State) (ws : List Nat) : (s.reply ws).dev = s.dev := rfl
@[simp] theorem State.reply_evq (s : State) (ws : List Nat) : (s.reply ws).evq = s.evq := rfl
@[simp] theorem State.reply_fault (s : State) (ws : List Nat) : (s.reply ws).fault = s.fault := rfl
@[simp] theorem State.reply_lamp (s : State) (ws : List Nat) : (s.reply ws).lamp = s.lamp := rfl
@[simp] theorem State.reply_cellar (s : State) (ws : List Nat) : (s.reply ws).cellar = s.cellar := rfl
@[simp] theorem State.reply_wdog (s : State) (ws : List Nat) : (s.reply ws).wdog = s.wdog := rfl
@[simp] theorem State.reply_op (s : State) (ws : List Nat) : (s.reply ws).op = s.op := rfl
@[simp] theorem State.reply_pwm (s : State) (ws : List Nat) : (s.reply ws).pwm = s.pwm := rfl
@[simp] theorem State.reply_adc (s : State) (ws : List Nat) : (s.reply ws).adc = s.adc := rfl
@[simp] theorem State.reply_cmp (s : State) (ws : List Nat) : (s.reply ws).cmp = s.cmp := rfl
@[simp] theorem State.reply_link (s : State) (ws : List Nat) : (s.reply ws).link = s.link := rfl
@[simp] theorem State.reply_est (s : State) (ws : List Nat) : (s.reply ws).est = s.est := rfl
@[simp] theorem State.reply_bal (s : State) (ws : List Nat) : (s.reply ws).bal = s.bal := rfl
@[simp] theorem State.reply_hb (s : State) (ws : List Nat) : (s.reply ws).hb = s.hb := rfl
@[simp] theorem State.reply_inp (s : State) (ws : List Nat) : (s.reply ws).inp = s.inp := rfl
@[simp] theorem State.reply_pack (s : State) (ws : List Nat) : (s.reply ws).pack = s.pack := rfl
@[simp] theorem State.reply_feed (s : State) (ws : List Nat) : (s.reply ws).feed = s.feed := rfl
@[simp] theorem State.reply_feedL (s : State) (ws : List Nat) : (s.reply ws).feedL = s.feedL := rfl
@[simp] theorem State.reply_rail (s : State) (ws : List Nat) : (s.reply ws).rail = s.rail := rfl
@[simp] theorem State.reply_seq (s : State) (ws : List Nat) : (s.reply ws).seq = s.seq := rfl
@[simp] theorem State.reply_svc (s : State) (ws : List Nat) : (s.reply ws).svc = s.svc := rfl
@[simp] theorem State.reply_therm (s : State) (ws : List Nat) : (s.reply ws).therm = s.therm := rfl
@[simp] theorem State.reply_port (s : State) (ws : List Nat) : (s.reply ws).port = s.port := rfl
@[simp] theorem State.reply_ring (s : State) (ws : List Nat) : (s.reply ws).ring = s.ring := rfl
@[simp] theorem State.reply_bus (s : State) (ws : List Nat) : (s.reply ws).bus = s.bus := rfl
@[simp] theorem State.reply_rd (s : State) (ws : List Nat) (q : Nat) : (s.reply ws).rd q = s.rd q := rfl
@[simp] theorem State.reply_byte (s : State) (ws : List Nat) (q : Nat) : (s.reply ws).byte q = s.byte q := rfl

/-! ### tickFresh -/

@[simp] theorem State.tickFresh_pending (s : State) : (s.tickFresh).pending = s.pending := rfl
@[simp] theorem State.tickFresh_regs (s : State) : (s.tickFresh).regs = s.regs := rfl
@[simp] theorem State.tickFresh_mem (s : State) : (s.tickFresh).mem = s.mem := rfl
@[simp] theorem State.tickFresh_mode (s : State) : (s.tickFresh).mode = s.mode := rfl
theorem State.tickFresh_fresh (s : State) : (s.tickFresh).fresh = s.fresh + 1 := rfl
@[simp] theorem State.tickFresh_answer (s : State) : (s.tickFresh).answer = s.answer := rfl
@[simp] theorem State.tickFresh_dev (s : State) : (s.tickFresh).dev = s.dev := rfl
@[simp] theorem State.tickFresh_evq (s : State) : (s.tickFresh).evq = s.evq := rfl
@[simp] theorem State.tickFresh_fault (s : State) : (s.tickFresh).fault = s.fault := rfl
@[simp] theorem State.tickFresh_lamp (s : State) : (s.tickFresh).lamp = s.lamp := rfl
@[simp] theorem State.tickFresh_cellar (s : State) : (s.tickFresh).cellar = s.cellar := rfl
@[simp] theorem State.tickFresh_wdog (s : State) : (s.tickFresh).wdog = s.wdog := rfl
@[simp] theorem State.tickFresh_op (s : State) : (s.tickFresh).op = s.op := rfl
@[simp] theorem State.tickFresh_pwm (s : State) : (s.tickFresh).pwm = s.pwm := rfl
@[simp] theorem State.tickFresh_adc (s : State) : (s.tickFresh).adc = s.adc := rfl
@[simp] theorem State.tickFresh_cmp (s : State) : (s.tickFresh).cmp = s.cmp := rfl
@[simp] theorem State.tickFresh_link (s : State) : (s.tickFresh).link = s.link := rfl
@[simp] theorem State.tickFresh_est (s : State) : (s.tickFresh).est = s.est := rfl
@[simp] theorem State.tickFresh_bal (s : State) : (s.tickFresh).bal = s.bal := rfl
@[simp] theorem State.tickFresh_hb (s : State) : (s.tickFresh).hb = s.hb := rfl
@[simp] theorem State.tickFresh_inp (s : State) : (s.tickFresh).inp = s.inp := rfl
@[simp] theorem State.tickFresh_pack (s : State) : (s.tickFresh).pack = s.pack := rfl
@[simp] theorem State.tickFresh_feed (s : State) : (s.tickFresh).feed = s.feed := rfl
@[simp] theorem State.tickFresh_feedL (s : State) : (s.tickFresh).feedL = s.feedL := rfl
@[simp] theorem State.tickFresh_rail (s : State) : (s.tickFresh).rail = s.rail := rfl
@[simp] theorem State.tickFresh_seq (s : State) : (s.tickFresh).seq = s.seq := rfl
@[simp] theorem State.tickFresh_svc (s : State) : (s.tickFresh).svc = s.svc := rfl
@[simp] theorem State.tickFresh_therm (s : State) : (s.tickFresh).therm = s.therm := rfl
@[simp] theorem State.tickFresh_port (s : State) : (s.tickFresh).port = s.port := rfl
@[simp] theorem State.tickFresh_ring (s : State) : (s.tickFresh).ring = s.ring := rfl
@[simp] theorem State.tickFresh_bus (s : State) : (s.tickFresh).bus = s.bus := rfl
@[simp] theorem State.tickFresh_rd (s : State) (q : Nat) : (s.tickFresh).rd q = s.rd q := rfl
@[simp] theorem State.tickFresh_byte (s : State) (q : Nat) : (s.tickFresh).byte q = s.byte q := rfl

/-! ### begin -/

@[simp] theorem State.begin_pending (s : State) : (s.begin).pending = s.pending := rfl
@[simp] theorem State.begin_regs (s : State) : (s.begin).regs = s.regs := rfl
@[simp] theorem State.begin_mem (s : State) : (s.begin).mem = s.mem := rfl
@[simp] theorem State.begin_mode (s : State) : (s.begin).mode = s.mode := rfl
@[simp] theorem State.begin_fresh (s : State) : (s.begin).fresh = s.fresh := rfl
@[simp] theorem State.begin_answer (s : State) : (s.begin).answer = s.answer := rfl
@[simp] theorem State.begin_dev (s : State) : (s.begin).dev = s.dev := rfl
@[simp] theorem State.begin_evq (s : State) : (s.begin).evq = s.evq := rfl
@[simp] theorem State.begin_fault (s : State) : (s.begin).fault = s.fault := rfl
@[simp] theorem State.begin_lamp (s : State) : (s.begin).lamp = s.lamp := rfl
@[simp] theorem State.begin_cellar (s : State) : (s.begin).cellar = s.cellar := rfl
@[simp] theorem State.begin_wdog (s : State) : (s.begin).wdog = s.wdog := rfl
@[simp] theorem State.begin_op (s : State) : (s.begin).op = s.op := rfl
@[simp] theorem State.begin_pwm (s : State) : (s.begin).pwm = s.pwm := rfl
@[simp] theorem State.begin_adc (s : State) : (s.begin).adc = s.adc := rfl
@[simp] theorem State.begin_cmp (s : State) : (s.begin).cmp = s.cmp := rfl
@[simp] theorem State.begin_link (s : State) : (s.begin).link = s.link := rfl
@[simp] theorem State.begin_est (s : State) : (s.begin).est = s.est := rfl
@[simp] theorem State.begin_bal (s : State) : (s.begin).bal = s.bal := rfl
@[simp] theorem State.begin_hb (s : State) : (s.begin).hb = s.hb := rfl
@[simp] theorem State.begin_inp (s : State) : (s.begin).inp = s.inp := rfl
@[simp] theorem State.begin_pack (s : State) : (s.begin).pack = s.pack := rfl
@[simp] theorem State.begin_feed (s : State) : (s.begin).feed = s.feed := rfl
@[simp] theorem State.begin_feedL (s : State) : (s.begin).feedL = s.feedL := rfl
@[simp] theorem State.begin_rail (s : State) : (s.begin).rail = s.rail := rfl
@[simp] theorem State.begin_seq (s : State) : (s.begin).seq = s.seq := rfl
@[simp] theorem State.begin_svc (s : State) : (s.begin).svc = s.svc := rfl
@[simp] theorem State.begin_therm (s : State) : (s.begin).therm = s.therm := rfl
@[simp] theorem State.begin_bus (s : State) : (s.begin).bus = s.bus := rfl
@[simp] theorem State.begin_rd (s : State) (q : Nat) : (s.begin).rd q = s.rd q := rfl
@[simp] theorem State.begin_byte (s : State) (q : Nat) : (s.begin).byte q = s.byte q := rfl

end Sys2Proof.Machine
end

