-- ==== Sys2Proof/Laws/Memory.lean ====
section
/-! SUPPORT. Every memory operation keeps the canonical form of the memory and leaves the other fields, and the memory of the state after
reset has that form. -/

namespace Sys2Proof.Machine

theorem State.putByte_wf (s : State) (a : Nat) (b : Byte) (h : Memory.wf s.mem = true) : Memory.wf (s.putByte a b).mem = true :=
  Sparse.wf_put _ _ _ h

theorem State.store_wf (s : State) (a n v : Nat) (h : Memory.wf s.mem = true) : Memory.wf (s.store a n v).mem = true := by
  induction n generalizing s v a with
  | zero => exact h
  | succ n ih => exact ih _ _ _ (s.putByte_wf _ _ h)

theorem State.putBytes_wf (s : State) (a : Nat) (l : List Byte) (h : Memory.wf s.mem = true) : Memory.wf (s.putBytes a l).mem = true := by
  induction l generalizing s a with
  | nil => exact h
  | cons b l ih => exact ih _ _ (s.putByte_wf _ _ h)

theorem State.zeroRange_wf (s : State) (a n : Nat) (h : Memory.wf s.mem = true) : Memory.wf (s.zeroRange a n).mem = true :=
  s.putBytes_wf _ _ h

theorem State.copyRange_wf (s : State) (src dst n : Nat) (h : Memory.wf s.mem = true) : Memory.wf (s.copyRange src dst n).mem = true :=
  s.putBytes_wf _ _ h

theorem State.reset_wf : Memory.wf State.reset.mem = true := by decide +kernel

/-- What a store leaves: all but the memory. -/
theorem State.store_eq (s : State) (a n v : Nat) : s.store a n v = { s with mem := (s.store a n v).mem } := by
  induction n generalizing s v a with
  | zero => rfl
  | succ n ih => exact (ih (s.putByte _ _) _ _).trans rfl

@[simp] theorem State.store_regs (s : State) (a n v : Nat) : (s.store a n v).regs = s.regs := by rw [State.store_eq]

@[simp] theorem State.store_mode (s : State) (a n v : Nat) : (s.store a n v).mode = s.mode := by rw [State.store_eq]

@[simp] theorem State.store_pending (s : State) (a n v : Nat) : (s.store a n v).pending = s.pending := by rw [State.store_eq]

end Sys2Proof.Machine
end

