-- ==== Sys2Proof/Laws/Settle.lean ====
section
/-! SUPPORT. Reads after writes of registers and memory, a change confined to the registers of some pages and the port, and what settling
does to a state from which nothing follows. -/

namespace Sys2Proof.Machine

/-! ### Reads after writes -/

@[simp] theorem State.rd_wr_same (s : State) (a : Nat) (v : Word) : (s.wr a v).rd a = v := by
  unfold State.rd State.wr
  simp

theorem State.rd_wr_other (s : State) {a b : Nat} (v : Word) (h : a ≠ b) : (s.wr a v).rd b = s.rd b :=
  Sparse.get_put_other _ _ _ h

theorem State.rd_put_other (s : State) (f : Fld) (v : Nat) {b : Nat} (h : f.addr ≠ b) : (s.put f v).rd b = s.rd b :=
  State.rd_wr_other _ _ h

@[simp] theorem State.rd_put_same (s : State) (f : Fld) (v : Nat) : (s.put f v).rd f.addr = putBits (s.rd f.addr) f.lo f.w v :=
  State.rd_wr_same _ _ _

@[simp] theorem State.byte_putByte_same (s : State) (a : Nat) (b : Byte) : (s.putByte a b).byte a = b := by
  unfold State.byte State.putByte
  simp

theorem State.byte_putByte_other (s : State) {a c : Nat} (b : Byte) (h : a ≠ c) : (s.putByte a b).byte c = s.byte c :=
  Sparse.get_put_other _ _ _ h

@[simp] theorem State.byte_wr (s : State) (a : Nat) (v : Word) (c : Nat) : (s.wr a v).byte c = s.byte c := rfl

@[simp] theorem State.byte_put (s : State) (f : Fld) (v c : Nat) : (s.put f v).byte c = s.byte c := rfl

@[simp] theorem State.rd_putByte (s : State) (a : Nat) (b : Byte) (c : Nat) : (s.putByte a b).rd c = s.rd c := rfl

/-- A field of a word reads back what was put there. -/
theorem getBits_putBits_same (x : Word) {lo w v : Nat} (hv : v < 2 ^ w) (hw : lo + w ≤ 32) : getBits (putBits x lo w v) lo w = v := by
  unfold getBits putBits fldMask
  have hw32 : w ≤ 32 := by omega
  have hle : 2 ^ w ≤ 2 ^ 32 := Nat.pow_le_pow_right (by decide) hw32
  have key : ((x &&& ~~~(BitVec.ofNat 32 (2 ^ w - 1) <<< lo)) ||| (BitVec.ofNat 32 v <<< lo) &&& (BitVec.ofNat 32 (2 ^ w - 1) <<< lo)) >>> lo &&&
      BitVec.ofNat 32 (2 ^ w - 1) = BitVec.ofNat 32 v := by
    apply BitVec.eq_of_getLsbD_eq
    intro i hi
    have h1 : ∀ j, (BitVec.ofNat 32 (2 ^ w - 1)).getLsbD j = (decide (j < 32) && decide (j < w)) := by
      intro j
      simp [BitVec.getLsbD_ofNat]
    have h2 : w ≤ i → v.testBit i = false := by
      intro hwi
      apply Nat.testBit_lt_two_pow
      exact Nat.lt_of_lt_of_le hv (Nat.pow_le_pow_right (by decide) hwi)
    have e : lo + i - lo = i := by omega
    simp only [BitVec.getLsbD_and, BitVec.getLsbD_or, BitVec.getLsbD_not, BitVec.getLsbD_ushiftRight, BitVec.getLsbD_shiftLeft, h1, e]
    by_cases hiw : i < w
    · have a1 : lo + i < 32 := by omega
      have a3 : ¬lo + i < lo := by omega
      simp [a1, a3, hiw, hi]
    · simp [hiw, BitVec.getLsbD_ofNat, h2 (by omega)]
  have h3 := congrArg BitVec.toNat key
  rw [BitVec.toNat_and, BitVec.toNat_ofNat, BitVec.toNat_ofNat, Nat.mod_eq_of_lt (a := 2 ^ w - 1) (by omega), Nat.and_two_pow_sub_one_eq_mod,
    Nat.mod_eq_of_lt (a := v) (by omega)] at h3
  exact h3

/-- A field keeps its value when another field of the word is put. -/
theorem getBits_putBits_other (x : Word) {lo w v lo' w' : Nat} (h : lo' + w' ≤ lo ∨ lo + w ≤ lo') (hw : lo' + w' ≤ 32) :
    getBits (putBits x lo w v) lo' w' = getBits x lo' w' := by
  unfold getBits putBits fldMask
  rw [← Nat.and_two_pow_sub_one_eq_mod, ← Nat.and_two_pow_sub_one_eq_mod]
  apply Nat.eq_of_testBit_eq
  intro i
  simp only [Nat.testBit_and, Nat.testBit_two_pow_sub_one, BitVec.testBit_toNat, BitVec.getLsbD_and, BitVec.getLsbD_or, BitVec.getLsbD_not,
    BitVec.getLsbD_ushiftRight, BitVec.getLsbD_shiftLeft, BitVec.getLsbD_ofNat]
  by_cases hi : i < w'
  · rcases h with h | h
    · have a1 : lo' + i < lo := by omega
      have a2 : lo' + i < 32 := by omega
      simp [a1, a2, hi]
    · have a1 : ¬lo' + i < lo := by omega
      have a2 : lo' + i < 32 := by omega
      have a3 : ¬lo' + i - lo < w := by omega
      simp [a1, a2, a3, hi]
  · simp [hi]

/-- A register field reads back the value put, if it fits. -/
theorem State.get_put_same (s : State) (f : Fld) {v : Nat} (hv : v < 2 ^ f.w) (hw : f.lo + f.w ≤ 32) : (s.put f v).get f = v := by
  unfold State.get
  rw [State.rd_put_same, getBits_putBits_same _ hv hw]

/-- A register field keeps its value when a field of another register is put. -/
theorem State.get_put_reg (s : State) {f g : Fld} (v : Nat) (h : f.addr ≠ g.addr) : (s.put f v).get g = s.get g := by
  unfold State.get
  rw [State.rd_put_other s f v h]

/-- A register field keeps its value when another field of its register is put. -/
theorem State.get_put_fld (s : State) {f g : Fld} (v : Nat) (ha : f.addr = g.addr) (h : g.lo + g.w ≤ f.lo ∨ f.lo + f.w ≤ g.lo)
    (hw : g.lo + g.w ≤ 32) : (s.put f v).get g = s.get g := by
  unfold State.get
  rw [← ha, State.rd_put_same, getBits_putBits_other _ h hw]

/-- A register field keeps its value when a register is written that is not its own. -/
theorem State.get_wr_reg (s : State) {a : Nat} {g : Fld} (v : Word) (h : a ≠ g.addr) : (s.wr a v).get g = s.get g := by
  unfold State.get
  rw [State.rd_wr_other s v h]

/-! ### Changes of some registers and the port -/

/-- The state differs in the registers `as` and in the port alone. -/
def PortOnly (as : List Nat) (s t : State) : Prop := (∀ a, a ∉ as → t.rd a = s.rd a) ∧ ∃ r p, t = { s with regs := r, port := p }

theorem PortOnly.refl (as : List Nat) (s : State) : PortOnly as s s := ⟨fun _ _ => rfl, s.regs, s.port, rfl⟩

theorem PortOnly.put {as : List Nat} {s t : State} (h : PortOnly as s t) (f : Fld) (v : Nat) (hf : f.addr ∈ as) :
    PortOnly as s (t.put f v) := by
  obtain ⟨h1, r, p, rfl⟩ := h
  refine ⟨fun a ha => ?_, _, p, rfl⟩
  have hne : f.addr ≠ a := fun e => ha (e ▸ hf)
  rw [State.rd_put_other _ _ _ hne]
  exact h1 a ha

theorem PortOnly.port {as : List Nat} {s t : State} (h : PortOnly as s t) (x : PortS) : PortOnly as s { t with port := x } := by
  obtain ⟨h1, r, p, rfl⟩ := h
  exact ⟨h1, r, x, rfl⟩

theorem PortOnly.ite {as : List Nat} {s t u : State} {c : Prop} [Decidable c] (ht : c → PortOnly as s t) (hu : ¬c → PortOnly as s u) :
    PortOnly as s (if c then t else u) := by
  split
  · next hc => exact ht hc
  · next hc => exact hu hc

theorem PortOnly.get {as : List Nat} {s t : State} (h : PortOnly as s t) (f : Fld) (hf : f.addr ∉ as) : t.get f = s.get f := by
  unfold State.get
  rw [h.1 _ hf]

theorem PortOnly.frame {s t : State} (h : PortOnly portShows s t) : FrameE [] s t := by
  obtain ⟨h1, r, p, rfl⟩ := h
  exact ⟨fun a _ ha => h1 a ha, fun _ => rfl, rfl⟩

/-! ### Settling (R36, R227, R428; the frame of a command) -/

/-- What the service port keeps while nothing is attached to it. -/
def PortFree (s t : State) : Prop :=
  PortOnly portShows s t ∧ t.portCode ≤ 1 ∧ t.on PD_CONTRACT_VALID = false ∧ t.on TYPEC_STATE_FRSARM = false ∧ t.port.target = none

theorem PortFree.port {s t : State} (h : PortFree s t) (x : PortS) (hx : x.target = none) : PortFree s { t with port := x } :=
  ⟨h.1.port x, h.2.1, h.2.2.1, h.2.2.2.1, hx⟩

theorem PortFree.ite {s t u : State} {c : Prop} [Decidable c] (ht : c → PortFree s t) (hu : ¬c → PortFree s u) :
    PortFree s (if c then t else u) := by
  split
  · next hc => exact ht hc
  · next hc => exact hu hc

/-- A field keeps its value when one that does not overlap it is put. -/
theorem State.get_put_apart (s : State) {f g : Fld} (v : Nat) (h : f.addr ≠ g.addr ∨ g.lo + g.w ≤ f.lo ∨ f.lo + f.w ≤ g.lo)
    (hw : g.lo + g.w ≤ 32) : (s.put f v).get g = s.get g := by
  by_cases ha : f.addr = g.addr
  · exact State.get_put_fld _ _ ha (h.resolve_left (fun hn => hn ha)) hw
  · exact State.get_put_reg _ _ ha

/-- A field of TYPEC.STATE other than CODE and FRSARM, or of SNKLIM, leaves what the port keeps. -/
theorem PortFree.putOther {s t : State} (h : PortFree s t) (f : Fld) (v : Nat) (hf : f.addr ∈ portShows)
    (hc : f.addr ≠ TYPEC_STATE_CODE.addr ∨ TYPEC_STATE_CODE.lo + TYPEC_STATE_CODE.w ≤ f.lo ∨ f.lo + f.w ≤ TYPEC_STATE_CODE.lo)
    (hv : f.addr ≠ PD_CONTRACT_VALID.addr)
    (ha : f.addr ≠ TYPEC_STATE_FRSARM.addr ∨ TYPEC_STATE_FRSARM.lo + TYPEC_STATE_FRSARM.w ≤ f.lo ∨ f.lo + f.w ≤ TYPEC_STATE_FRSARM.lo) :
    PortFree s (t.put f v) := by
  refine ⟨h.1.put f v hf, ?_, ?_, ?_, h.2.2.2.2⟩
  · unfold State.portCode
    rw [State.get_put_apart _ _ hc (by decide)]
    exact h.2.1
  · unfold State.on
    rw [State.get_put_reg _ _ hv]
    exact h.2.2.1
  · unfold State.on
    rw [State.get_put_apart _ _ ha (by decide)]
    exact h.2.2.2.1

theorem PortFree.setPort {s t : State} (h : PortFree s t) {c : Nat} (hc : c ≤ 1) : PortFree s (t.setPort c) := by
  refine ⟨h.1.put _ _ (by decide), ?_, ?_, ?_, h.2.2.2.2⟩
  · unfold State.portCode State.setPort
    rw [State.get_put_same _ _ (show c < 2 ^ TYPEC_STATE_CODE.w from Nat.lt_of_le_of_lt hc (by decide)) (by decide)]
    exact hc
  · unfold State.on State.setPort
    rw [State.get_put_reg _ _ (by decide)]
    exact h.2.2.1
  · unfold State.on State.setPort
    rw [State.get_put_apart _ _ (by decide) (by decide)]
    exact h.2.2.2.1

/-- FRSARM put to 0 leaves what the port keeps. -/
theorem PortFree.disarm {s t : State} (h : PortFree s t) : PortFree s (t.put TYPEC_STATE_FRSARM 0) := by
  refine ⟨h.1.put _ _ (by decide), ?_, ?_, ?_, h.2.2.2.2⟩
  · unfold State.portCode
    rw [State.get_put_apart _ _ (by decide) (by decide)]
    exact h.2.1
  · unfold State.on
    rw [State.get_put_reg _ _ (by decide)]
    exact h.2.2.1
  · unfold State.on
    rw [State.get_put_same _ _ (by decide) (by decide)]
    rfl

/-- The port is not attached as sink, nor as source, where its code is that of no attach. -/
theorem PortFree.noAttach {s t : State} (h : PortFree s t) : (t.portCode == 5) = false ∧ (t.portCode == 6) = false := by
  have := h.2.1
  constructor <;> simp only [beq_eq_false_iff_ne] <;> omega

/-- While nothing is attached the port follows its conditions in the registers that show them alone. -/
theorem State.portFollow_portFree {s t : State} (h : PortFree s t) : PortFree s t.portFollow := by
  unfold State.portFollow
  extract_lets ok s0 s1 c s2 armed s3 x s4 vc s5 hic z s6 s7 y s8 w
  have f0 : PortFree s s0 := by
    have : s0 = t := by
      unfold s0
      simp [h.2.2.1]
    exact this ▸ h
  have f1 : PortFree s s1 := f0.putOther _ _ (by decide) (by decide) (by decide) (by decide)
  have f2 : PortFree s s2 :=
    PortFree.ite (fun _ => f1) fun _ => PortFree.ite (fun _ => PortFree.ite (fun _ => f1) fun _ => f1.setPort (by decide)) fun _ =>
      PortFree.ite (fun _ => f1.setPort (by decide)) fun _ => f1
  have a2 : armed = false := by simp [armed, State.frsArmed, f2.noAttach.1]
  have f3 : PortFree s s3 := by
    unfold s3
    simp only [a2, f2.2.2.2.1, Bool.false_and, Bool.and_false, Bool.false_eq_true, ↓reduceIte]
    exact f2.disarm
  have f4 : PortFree s s4 := PortFree.ite (fun _ => f3.port _ f3.2.2.2.2) fun _ => f3
  have f5 : PortFree s s5 :=
    (f4.putOther TYPEC_STATE_VCONN _ (by decide) (by decide) (by decide) (by decide)).putOther _ _ (by decide) (by decide) (by decide) (by decide)
  have f6 : PortFree s s6 := f5.port _ f5.2.2.2.2
  have f7 : PortFree s s7 := by
    have : s7 = s6 := by
      unfold s7
      simp [f5.noAttach.2]
    exact this ▸ f6
  have f8 : PortFree s s8 := by
    unfold s8
    split
    · exact f7
    · have hp : s7.pdOn = false := by simp [State.pdOn, f7.noAttach]
      simp only [hp, Bool.false_eq_true, false_and, ↓reduceIte]
      exact f7
  simp only [f8.2.2.1, Bool.and_false, Bool.false_and, Bool.false_eq_true, ↓reduceIte]
  exact f8

/-- With nothing attached the service port follows its conditions in the registers that show them alone. -/
theorem State.portSync_quiet {s : State} (h : s.Quiet) : PortFree s s.portSync := by
  obtain ⟨-, -, htgt, hcode, hval, harm, hrun⟩ := h
  have f0 : PortFree s s := ⟨PortOnly.refl _ _, hcode, hval, harm, htgt⟩
  unfold State.portSync
  by_cases hr : s.portRuns = true
  · rw [if_neg (by simp [hr])]
    refine State.portFollow_portFree ?_
    unfold State.polTakeFree State.polTake
    exact PortFree.ite (fun _ => f0) fun _ => f0.port _ htgt
  · rw [if_pos (by simp [hr]), if_pos (hrun.resolve_left hr)]
    exact f0

/-- From a quiet state settling changes the registers that show the port's conditions and the port alone. -/
theorem State.settle_quiet {s : State} (h : s.Quiet) : PortOnly portShows s s.settle := by
  have hp := State.portSync_quiet h
  obtain ⟨⟨hstage, hdue, hflush⟩, henum, -⟩ := h
  have e1 : s.stageStep = s := by
    unfold State.stageStep
    simp [hstage]
  have e2 : s.enumerateAll = s := by
    unfold State.enumerateAll
    simp [hdue]
  have e3 : s.flushNow = s := by
    unfold State.flushNow
    simp [hflush]
  have e4 : s.portSync.svcTargetTake = s.portSync := by
    unfold State.svcTargetTake
    rw [hp.2.2.2.2]
  have e5 : s.portSync.enumerating = false := by
    have henum' := henum
    unfold State.enumerating at henum' ⊢
    rw [hp.1.get DEV_LONGOP_RUN (by decide)]
    exact henum'
  unfold State.settle
  rw [e1, e2, e3, e4]
  unfold State.ringEnumReady
  rw [if_neg (by simp [e5])]
  exact hp.1

/-- A command whose effect leaves a quiet state completes with that effect, but for the registers that show the port's conditions and the port. -/
theorem effect_quiet {f : State → State} {s : State} (h : (f s.begin).Quiet) :
    ∃ t, effect f s = .next t ∧ PortOnly portShows (f s.begin) t := ⟨_, rfl, State.settle_quiet h⟩

end Sys2Proof.Machine
end

