-- ==== Sys2Proof/Machine/Pads.lean ====
section
/-! DEFINITION. The levels of the output pads, read off the state (R362, R363, R503, R505, R506 and the chapters of the blocks).  No command's
effect depends on them. -/

namespace Sys2Proof.Machine

/-- What stands on a pad: not driven, driven low, driven high, switching or regulated under its converter, discharged through the device's
resistor, under the boundary scan.  A gate drive is high when it is charged, low when it is discharged. -/
inductive Level where
  | hiZ
  | low
  | high
  | switching
  | discharge
  | scan
deriving DecidableEq, Repr

/-- The output pads whose level the chapters give. -/
inductive Pad where
  | balA (n : Fin 16)
  | balB (n : Fin 16)
  | balEn (g : Fin 4)
  | ibcPwm (k : Fin 2)
  | ibcEn
  | packPwm (k : Fin 2)
  | packEn
  | packSw
  | svcHs
  | svcLs
  | svcEn
  | inGate
  | feedGate (n : Fin 8)
  | feedPg
  | sensePwr
  | extEn (n : Fin 8)
  | sw (k : Fin 4)
  | ldoOut (k : Fin 2)
  | resetN (g : Fin 4)
  | faultN
  | irqN (shelfB : Bool)
  | srcEn
  | snkEn
  | vbusDis
  | pwron
deriving DecidableEq, Repr

/-- The VDDIO bank of a pad (Table 3 of balls and electrical limits); none where another supply drives it. -/
def padBank : Pad → Option Nat
  | .balA _ | .balB _ | .balEn _ | .ibcPwm _ | .ibcEn | .packPwm _ | .packEn | .packSw | .svcHs | .svcLs | .svcEn => some 0
  | .feedPg => some 1
  | .faultN | .irqN _ => some 2
  | .sensePwr => some 3
  | _ => none

/-- High or low. -/
def hl (b : Bool) : Level := if b then .high else .low

/-- A reference that switches or rests low. -/
def sw (b : Bool) : Level := if b then .switching else .low

/-- The output of a POL or LDO: under its converter, discharged or floating (R324, R326). -/
def State.railOutput (s : State) (r : Fin 15) : Level :=
  if s.railSwitches r then .switching else if s.railDischarges r then .discharge else .hiZ

/-- Whether a strand holds a pad at its safe-state level (R363, Table 5). -/
def State.padForced (s : State) (p : Pad) : Bool :=
  match p with
  | .balA _ | .balB _ | .balEn _ | .packPwm _ | .packEn => s.on FAULT_HOLDS_HALT
  | .svcHs | .svcLs | .svcEn => s.on FAULT_HOLDS_HALT && !s.on SVC_CFG_SAFEON
  | .feedGate n => s.on FAULT_HOLDS_FULL && !s.on (feedF FEEDS_CFG_SAFEON n)
  | .feedPg | .faultN => s.on FAULT_HOLDS_FULL
  | .inGate => s.on FAULT_HOLDS_FULL && s.on INPATH_CFG_SNUFFOFF
  | _ => false

/-- The level that a pad's block gives it. -/
def State.padOwn (s : State) (p : Pad) : Level :=
  match p with
  | .balA n | .balB n => sw ((s.bs n).refs && !s.targetIdle n.val)
  | .balEn g => hl (s.on (BAL_STATE_GROUPEN.at (4 * g.val)))
  | .ibcPwm k => 
    if s.railSwitches 0 && !bitOf (s.rs 0).light k.val && (k.val == 0 || s.on IBC_CFG_PH2) then
      sw ((s.rs 0).native || !s.targetIdle (16 + k.val))
    else .hiZ
  | .ibcEn => hl (s.railSwitches 0)
  | .packPwm _ => if s.pack.floats then .hiZ else sw (s.packRunning && !s.targetIdle 20 && !s.targetIdle 21 && !s.targetIdle 23)
  | .packEn => hl s.packRunning
  | .packSw => hl (s.on PACK_STATE_PRESENT && s.packCode != 11)
  | .svcHs | .svcLs => sw s.svcRuns
  | .svcEn => hl s.svcRuns
  | .inGate => hl (s.inpCode == 1 || s.inpCode == 2 || s.inpCode == 3 || (s.mode == .hibernate && s.inp.hibGate))
  | .feedGate n => hl ((s.feedCode n == 3 || s.feedCode n == 4) && !s.targetIdle (24 + n.val))
  | .feedPg =>
    if s.on FEEDS_PGMAP_OE then hl ((List.finRange 8).all fun n => !bitOf (s.get FEEDS_PGMAP_MAP) n.val || s.feedCode n == 4) else .hiZ
  | .sensePwr => hl (s.on CMP_WTICK_SPEN && ((List.range 16).any s.monContinuous || s.cmp.due != 0))
  | .extEn n => hl (s.railOn (7 + n.val))
  | .sw k => s.railOutput ⟨k.val + 1, by omega⟩
  | .ldoOut k => s.railOutput ⟨k.val + 5, by omega⟩
  | .resetN g => hl (bitOf (s.get SEQ_RSTCTL_LEVEL) g.val)
  | .faultN => .hiZ
  | .irqN b => if (s.irqLine b).asserted && s.on (if b then EVQ_CFGB_IRQEN else EVQ_CFGA_IRQEN) then .low else .hiZ
  | .srcEn => hl s.port.srcEn
  | .snkEn => hl (s.snkLim != 0)
  | .vbusDis => hl s.port.vbusDis
  | .pwron => hl (s.on CELLAR_PWRON_SET)

/-- The level of a pad: PWRON stands by the cellar alone; in device reset and CELLAR, or with its VDDIO bank low, a pad is not driven, and
EXTEST takes it while RESETIN_N is held low. -/
def State.padLevel (s : State) (p : Pad) : Level :=
  if p = .pwron then s.padOwn p
  else if s.dev.resetIn && s.dev.jtag == 2 then .scan
  else if s.dev.held || s.mode == .cellar then .hiZ
  else if (match padBank p with | some k => s.bankLow k | none => false) then .hiZ
  else if s.padForced p then .low
  else s.padOwn p

end Sys2Proof.Machine
end

