-- ==== Sys2Proof/Tests/Slice0.lean ====
section
/-! SUPPORT. Small checks of the model, and for every statement a state that meets its hypotheses. -/

namespace Sys2Proof.Tests

open Sys2Proof Sys2Proof.Machine

set_option Elab.async false

/-- A block with bias and its PLL in a mode, every register at its reset value. -/
def atMode (m : Mode) : State :=
  { State.reset with
      mode := m, dev := { State.reset.dev with bias := .vib, biasMask := 1, held := false, vhbOn := true, pll := true, rowC := true, calDone := true, imageDone := true, preloadDone := true } }

/-- A block in CELLAR with no bias. -/
def dark : State := State.reset


/-- A state in which every lane's runs issue slots, of the class of the mode's number. -/
def issuing (c : Nat) (s : State) : State :=
  let r : TableRun := ⟨.issuing, 0, 0, true⟩
  { s.put LAMP_STATE_CLASS c with lamp.lanes := Vector.replicate 6 ⟨false, none, r, r, r⟩ }

/-- A state whose lit image has, in lane `lane`, a table of ten words at `level` for class `c` that begins with the slot `w`, extension word `ext`, at word 100. -/
def image (lane level c w ext : Nat) (s : State) : State :=
  let a := 0x180000 + 8 * laneBase lane
  ((((issuing c s).put LAMP_STATE_SOURCE 2).store (a + 8 * (1 + 3 * c + level)) 8 0xA0064).store (a + 800) 8 w).store (a + 808) 8 ext

/-! ### Ill-formed commands are refused -/

/-- A slot beyond the largest partition. -/
def farSlot : Slot := ⟨0, 3072, 0, false, false, none, none⟩

/-- Every slot command refuses a slot beyond the largest partition (R49). -/
theorem test_farSlot :
    ([.slotNop farSlot, .slotEnd farSlot, .slotWait farSlot, .modejump farSlot, .rdvGive farSlot, .rdvTake farSlot, .trigger farSlot,
      .comp farSlot, .pwmload farSlot, .check farSlot, .move farSlot, .linktx farSlot, .linktxRing farSlot, .estupd farSlot,
      .estupdDemod farSlot, .rank farSlot, .dispatchRoundStep farSlot, .dispatchFrameStep farSlot, .select farSlot,
      .slotResourceFree farSlot 0 0, .slotBudgetExpire farSlot, .tableCut farSlot] : List Instr).all (fun c => !c.wellFormed) = true := by
  decide +kernel

/-- A built-in slot whose operands lie outside the fields of Table 5 (R94) is refused. -/
theorem test_farOperands :
    ([.wait 65536, .modejump 8, .rdv 4 0 0, .trigger 4 0, .comp 64 false, .pwmload 64 0 false 0, .check 0 0 0 false false 0 0 0, .move 0 false 0 (2 ^ 32),
      .linktx 32 0 0, .estupd 0 0 0 0, .rank 16 0, .dispatch 4, .select 0 64] : List SlotOp).all (fun o => !slotOk { farSlot with word := 0, rom := some o }) = true := by
  decide +kernel

/-- A slot that the built-in schedule does not hold is refused, and one that it holds is not (R73, Table 8): DISPATCH nowhere, COMP of the SVC stage in
lane POWER alone. -/
theorem test_builtinSlots :
    slotOk { farSlot with word := 0, rom := some (.dispatch 0) } = false ∧ slotOk { farSlot with word := 0, rom := some (.comp 17 false) } = true ∧
      slotOk { farSlot with lane := 1, word := 0, rom := some (.comp 17 false) } = false := by decide +kernel

/-- A calibration result without its five gains is refused (R123). -/
theorem test_illFormed_startUpCalibration : (Instr.startUpCalibrationDone [] [] [] []).wellFormed = false := by decide +kernel

/-- Messages of no data object, or of eight, are refused (R438). -/
theorem test_illFormed_objects :
    ([.pdSourceCapsRx [] true, .pdVdmRx (List.replicate 8 0) true, .lanternCommand [] true, .pdMessageRx (.sinkCaps []) true] : List Instr).all
      (fun c => !c.wellFormed) = true := by decide +kernel

/-- A ring frame with a type of five bits is refused (R459). -/
theorem test_illFormed_ringFrame :
    (Instr.ringFrameRx true ⟨16, false, false, 0, 0, false, 0, 0, 0, false, 0, 0, []⟩ 0 false 0 0).wellFormed = false := by decide +kernel

/-- exec of an ill-formed command is the fault of that name. -/
theorem test_illFormed_exec : exec (.slotNop farSlot) State.reset = .fault .illFormed := rfl

/-! ### Worked examples of the spec -/

/-- Table 19 of the worked example in spec/04_schedule_image.md. -/
theorem test_table19 :
    decodeSlot 0x1000200000000000 0 = some (.trigger 0 0) ∧ decodeSlot 0x0400B00500000000 0 = some (.rdv 0 5 0) ∧
      decodeSlot 0x0100B10000000000 0 = some .tableEnd := by decide +kernel

/-- Table 20 of the same example. -/
theorem test_table20 :
    decodeSlot 0x0402BF4540000000 0 = some (.rdv 1 5 4) ∧ wordTick 0x0402BF4540000000 = 703 ∧
      decodeSlot 0x1102C00200000000 0 = some (.comp 0 true) ∧ decodeSlot 0x1102D40600000000 0 = some (.comp 1 true) ∧
      decodeSlot 0x1202E80500000000 0 = some (.pwmload 1 1 false 0) ∧ decodeSlot 0x1202EC0D00000000 0 = some (.pwmload 3 1 false 0) := by decide +kernel

/-- The first source ID of BAL13 gives bit 2 the ID 0x276 (the example under Table 4 of spec/18_event_queues.md). -/
theorem test_eventId : statusIds (PG_BAL + 13) = some (0x276 - 2, 12) := by decide +kernel

/-- The SPI frame that reads cell 300 of string 3 has the CRC 0x0E, and the record lies at 0x0011_A040 (the example of
spec/19_host_buses.md). -/
theorem test_recordRead :
    crc8 0xFF [0x20, 0x11, 0xA0, 0x40, 0x0B] = 0x0E ∧ cellAddr 3 300 = 0x11A040 ∧
      frameBytes ⟨0, true, 0x11A040, 0x0B, [], 0x0E⟩ false none = [0x20, 0x11, 0xA0, 0x40, 0x0B] := by decide +kernel

/-- The feed-forward phase of BAL3 in K-7's snapshot is 3,708 (the example under R239). -/
theorem test_feedForward :
    let d := 10 * 9216 * 5280 * 5200
    (16384 * (fixOne - sqrtFix (d - 4 * (11923 * 5200) * 4096) d) + fixOne / 2) / fixOne = 3708 := by decide +kernel

/-- K-7 in RUN with records on shelf A and no fault: the status byte ends in RUN's code 3 (Table 3 of spec/19_host_buses.md). -/
theorem test_statusByte : (atMode .run).statusByte false = 3 := by decide +kernel

/-- The state after a command. -/
def after (i : Instr) (s : State) : State :=
  match exec i s with
  | .next t => t
  | _ => State.reset

/-- The example under R37: the clear and the set of BAL13.STATUS bit 2 in one clock leave it set and count one collision. -/
theorem test_collide :
    let t := after (.statusW1c .spi 0xF408 4 4) ((atMode .run).wr 0xF408 4)
    t.rd 0xF408 = 4 ∧ t.rd 0xF424 = 1 := by decide +kernel

/-- An unmapped read answers 0 and sets DEV.STATUS.UNMAPPED (R30). -/
theorem test_unmapped :
    let t := after (.unmappedAccess .spi 0xF00000 none) (atMode .run)
    t.answer = [0] ∧ t.statusOf PG_DEV DEV_ST_UNMAPPED = true := by decide +kernel

/-- The watchdog of the example of spec/17_time_watchdog_cellar.md: two tasks, OPEN 80 and CLOSE 120, each with MIN 1, MAX_0 1 and MAX_1 3, ACTION 1. -/
def twoTasks : State :=
  ((((((((({ (atMode .run) with wdog := ⟨true, 0, false, List.replicate 16 0, true⟩ } : State).put WDOG_CFG_ACTION 1).put WDOG_WIN_OPEN 80).put
    WDOG_WIN_CLOSE 120).put WDOG_WIN1_WARN 100).put WDOG_TASKEN_EN 3).put (WDOG_TASKLIM_MIN.el 0) 1).put (WDOG_TASKLIM_MAX.el 0) 1).put
    ((WDOG_TASKLIM_MIN.el 0).sh 8) 1).put ((WDOG_TASKLIM_MAX.el 0).sh 8) 3

/-- Each task has checked in once. -/
def bothIn : State := after (.wdogCheckin .spi 3 5) twoTasks

/-- Table 6, row 1: a second check-in of task 0 bites at once with cause EXCESS. -/
theorem test_watchdog_excess :
    let t := after (.wdogCheckin .spi 1 40) (after (.wdogCheckin .spi 1 10) twoTasks)
    t.get WDOG_BITE1_CAUSE = 4 ∧ t.get WDOG_BITE0_MISSING = 2 ∧ t.get WDOG_BITE0_EXCESS = 1 := by decide +kernel

/-- Table 6, rows 2 and 3: a service at count 79 is early, one at 80 is accepted. -/
theorem test_watchdog_open :
    (after (.wdogService .spi 0x7D1E0000 79) bothIn).get WDOG_BITE1_CAUSE = 1 ∧
      (after (.wdogService .spi 0x7D1E0000 80) bothIn).get WDOG_BITE1_CAUSE = 0 := by decide +kernel

/-- Table 6, row 5: a service with task 0 missing bites with cause MISSING. -/
theorem test_watchdog_missing :
    (after (.wdogService .spi 0x7D1E0000 95) (after (.wdogCheckin .spi 2 5) twoTasks)).get WDOG_BITE1_CAUSE = 3 := by decide +kernel

/-- The check values of R85 and R144 over the nine ASCII bytes "123456789". -/
theorem test_crc :
    crc32 [0x31, 0x32, 0x33, 0x34, 0x35, 0x36, 0x37, 0x38, 0x39] = 0xCBF43926 ∧
      crc16 [0x31, 0x32, 0x33, 0x34, 0x35, 0x36, 0x37, 0x38, 0x39] = 0x29B1 := by decide +kernel

/-! ### Witnesses: for every statement with hypotheses, and every clause of it, a state and operands that meet them -/

theorem witness_EmptyQueueIdles_idle_empty : ∃ s : State, s.pending = [] ∧ s.ring.txq = [] :=
  ⟨atMode .run, rfl, rfl⟩

theorem witness_EmptyQueueIdles_idle_frame : ∃ (s : State) (x : RingTx) (l : List RingTx), s.pending = [] ∧ s.ring.txq = x :: l ∧ s.ringRuns = true ∧ s.Quiet ∧ x.frame.typ ≠ 2 :=
  ⟨{ (atMode .run) with ring := { (atMode .run).ring with txq := [⟨(atMode .run).ownFrame 6 0 0 0 [], none, none⟩] } }, ⟨(atMode .run).ownFrame 6 0 0 0 [], none, none⟩, [], by unfold State.Quiet State.Calm; decide +kernel⟩

theorem witness_CommandsKeepTheQueue_queue : ∃ (c : Instr) (s t : State), exec c s = .next t :=
  ⟨.windowTick, atMode .run, _, rfl⟩

theorem witness_StepKeepsCanonicalTables_canonical : ∃ s t : State, s.Canonical ∧ step s = .next t :=
  ⟨{ State.reset with pending := [.windowTick] }, _, by unfold State.Canonical; decide, rfl⟩

theorem witness_CanonicalTablesAreDetermined_tables : ∃ s t : State, s.Canonical ∧ t.Canonical ∧ (∀ a, s.rd a = t.rd a) ∧ ∀ a, s.byte a = t.byte a :=
  ⟨State.reset, { State.reset with mode := .run }, by unfold State.Canonical; decide, by unfold State.Canonical; decide, fun _ => rfl, fun _ => rfl⟩

theorem witness_WritesReadBack_fields : DEV_MODE_CODE.lo + DEV_MODE_CODE.w ≤ 32 ∧ DEV_MODE_PREV.lo + DEV_MODE_PREV.w ≤ 32 ∧
    DEV_MODE_CODE.lo + DEV_MODE_CODE.w ≤ DEV_MODE_PREV.lo :=
  by decide

theorem witness_WellFormedCommandsComplete_wellFormed : (Instr.slotNop ⟨0, 5, 0, false, false, none, none⟩).wellFormed = true ∧
    (Instr.slotNop ⟨0, 3072, 0, false, false, none, none⟩).wellFormed = false :=
  by decide

theorem witness_FewCommandsChangeTheMode_mode : ∃ (c : Instr) (s t : State), s.dev.stage = 0 ∧ c.mayChangeMode = false ∧ exec c s = .next t :=
  ⟨.windowTick, atMode .run, _, rfl, rfl, rfl⟩

theorem witness_FewCommandsStore_store : ∃ (c : Instr) (s t : State), c.mayStore = false ∧ exec c s = .next t :=
  ⟨.windowTick, atMode .run, _, rfl, rfl⟩

theorem witness_FreeValuesAreFresh_fresh : ∃ s t : State, step s = .next t :=
  ⟨State.reset, _, rfl⟩

/-- Each clause of ModesWithoutBias has a state and operands that meet its hypotheses. -/
theorem witness_ModesWithoutBias :
    (∃ (s : State), s.mode ≠ .cellar) ∧
    (∃ (s : State), s.mode = .cellar) ∧
    (∃ (s : State) (startUp : Bool) (vbus : Bool), s.mode ≠ .cellar ∧ biasBits false startUp vbus ≠ 0) ∧
    (∃ (s : State) (startUp : Bool) (vbus : Bool), s.mode = .cellar ∧ s.dev.bias = .none ∧ biasBits false startUp vbus ≠ 0) ∧
    (∃ (s : State), s.Quiet ∧ (s.dev.bias ≠ .none)) := by
  refine ⟨?_, ?_, ?_, ?_, ?_⟩
  · exact ⟨atMode .run, by decide +kernel⟩
  · exact ⟨{ State.reset with dev := { State.reset.dev with bias := .startUp, biasMask := 2 } }, by decide +kernel⟩
  · exact ⟨atMode .run, false, true, by decide +kernel⟩
  · exact ⟨dark, false, true, by decide +kernel⟩
  · exact ⟨atMode .run, by unfold State.Quiet State.Calm; decide +kernel⟩

/-- Each clause of DeviceResetEntered has a state and operands that meet its hypotheses. -/
theorem witness_DeviceResetEntered :
    (∃ (s : State), s.bankLow 3 = false ∧ s.mode ≠ .cellar) ∧
    (∃ (s : State), s.bankLow 3 = false ∧ s.mode = .cellar ∧ s.dev.bias ≠ .none) ∧
    (∃ (s : State), s.bankLow 3 = false ∧ s.mode = .cellar ∧ s.dev.bias = .none ∧ s.Quiet) ∧
    (∃ (s : State), s.Quiet ∧ (s.bankLow 3 = true)) ∧
    (∃ (s : State) (m : Master) (key : BitVec 16), s.accepts m = true ∧ hostMaster m = true ∧ key = 0x5E7D ∧ s.mode ≠ .cellar) ∧
    (∃ (s : State) (m : Master) (key : BitVec 16), s.accepts m = true ∧ hostMaster m = true ∧ key ≠ 0x5E7D ∧ s.Quiet) ∧
    (∃ (s : State), s.bankLow 4 = false ∧ s.mode ≠ .cellar) ∧
    (∃ (s : State), s.bankLow 4 = false ∧ s.Quiet) ∧
    (∃ (s : State), s.Quiet ∧ (s.bankLow 4 = true)) ∧
    (∃ (s : State), s.Quiet) ∧
    (∃ (s : State), s.bankLow 4 = false) ∧
    (∃ (s : State), s.bankLow 4 = true) := by
  refine ⟨?_, ?_, ?_, ?_, ?_, ?_, ?_, ?_, ?_, ?_, ?_, ?_⟩
  · exact ⟨atMode .run, by decide +kernel⟩
  · exact ⟨{ State.reset with dev := { State.reset.dev with bias := .startUp, biasMask := 2 } }, by decide +kernel⟩
  · exact ⟨dark, by unfold State.Quiet State.Calm; decide +kernel⟩
  · exact ⟨({ (atMode .run) with dev.vddioLow := 8 } : State), by unfold State.Quiet State.Calm; decide +kernel⟩
  · exact ⟨atMode .run, .spi, 0x5E7D, by decide +kernel⟩
  · exact ⟨atMode .run, .spi, 0x5E7C, by unfold State.Quiet State.Calm; decide +kernel⟩
  · exact ⟨atMode .run, by decide +kernel⟩
  · exact ⟨atMode .run, by unfold State.Quiet State.Calm; decide +kernel⟩
  · exact ⟨({ (atMode .run) with dev.vddioLow := 16 } : State), by unfold State.Quiet State.Calm; decide +kernel⟩
  · exact ⟨atMode .run, by unfold State.Quiet State.Calm; decide +kernel⟩
  · exact ⟨atMode .run, by decide +kernel⟩
  · exact ⟨({ (atMode .run) with dev.vddioLow := 16 } : State), by decide +kernel⟩

/-- Each clause of ModeRequestsTaken has a state and operands that meet its hypotheses. -/
theorem witness_ModeRequestsTaken :
    (∃ (s : State) (m : Master) (key : BitVec 16), s.accepts m = true ∧ hostMaster m = true ∧ key = 0x3D0E ∧ s.Quiet ∧ s.mode = .safe ∧ s.litBank ≠ 0 ∧ s.on FAULT_HOLDS_FULL = false ∧
      s.seqPhase = 2) ∧
    (∃ (s : State) (m : Master) (key : BitVec 16) (badA : Bool) (badB : Bool), (s.accepts m = true ∧ hostMaster m = true ∧ key = 0x3D0E ∧ s.Quiet ∧ s.mode = .service ∧ s.lamp.coldStage = 0 ∧
      (s.imageForRun (badBanks badA badB)).1.isSome = true ∧ (s.litBank ≠ 0 ∨ s.get LAMP_STATE_LOADED ≠ 0 ∨ s.bankState 1 = 2 ∨
      s.bankState 2 = 2))) ∧
    (∃ (s : State) (m : Master) (key : BitVec 16), (s.accepts m = true ∧ hostMaster m = true ∧ key = 0x3D0E ∧ s.Quiet ∧ (s.mode = .run ∨ s.mode = .ride ∨ s.mode = .service))) ∧
    (∃ (s : State) (m : Master) (key : BitVec 16), s.accepts m = true ∧ hostMaster m = true ∧ key = 0x3D0E ∧ s.Quiet ∧ s.mode = .run) ∧
    (∃ (s : State) (m : Master) (key : BitVec 16), s.accepts m = true ∧ hostMaster m = true ∧ key = 0x3D0E ∧ s.Quiet ∧ s.mode = .safe ∧ s.on FAULT_HOLDS_FULL = false ∧ s.seqPhase = 2) ∧
    (∃ (s : State) (m : Master) (key : BitVec 16), (s.accepts m = true ∧ hostMaster m = true ∧ key = 0x3D0E ∧ s.Quiet ∧ (s.mode = .run ∨ s.mode = .service ∨ (s.mode = .safe ∧
      s.on FAULT_HOLDS_FULL = false)) ∧ s.dev.wakeBits = none)) ∧
    (∃ (s : State) (m : Master) (key : BitVec 16), s.accepts m = true ∧ hostMaster m = true ∧ key = 0x3D0E ∧ s.Quiet ∧ s.mode ≠ .cellar ∧ s.mode ≠ .fall) ∧
    (∃ (s : State) (m : Master) (key : BitVec 16), s.accepts m = true ∧ hostMaster m = true ∧ key = 0xC1C1 ∧ s.Quiet ∧ s.mode = .run) ∧
    (∃ (s : State) (m : Master) (key : BitVec 16), s.accepts m = true ∧ hostMaster m = true ∧ key ≠ 0xC1C1 ∧ s.Quiet) := by
  refine ⟨?_, ?_, ?_, ?_, ?_, ?_, ?_, ?_, ?_⟩
  · exact ⟨((((atMode .safe).put LAMP_STATE_SOURCE 2).put SEQ_STATE_PHASE 2)), .spi, 0x3D0E, by unfold State.Quiet State.Calm; decide +kernel⟩
  · exact ⟨((((atMode .service).put LAMP_STATE_LOADED 1).put SEQ_STATE_PHASE 2)), .spi, 0x3D0E, false, false, by unfold State.Quiet State.Calm; decide +kernel⟩
  · exact ⟨atMode .run, .i2c, 0x3D0E, by unfold State.Quiet State.Calm; decide +kernel⟩
  · exact ⟨atMode .run, .spi, 0x3D0E, by unfold State.Quiet State.Calm; decide +kernel⟩
  · exact ⟨(atMode .safe).put SEQ_STATE_PHASE 2, .spi, 0x3D0E, by unfold State.Quiet State.Calm; decide +kernel⟩
  · exact ⟨atMode .run, .spi, 0x3D0E, by unfold State.Quiet State.Calm; decide +kernel⟩
  · exact ⟨atMode .run, .debug, 0x3D0E, by unfold State.Quiet State.Calm; decide +kernel⟩
  · exact ⟨atMode .run, .spi, 0xC1C1, by unfold State.Quiet State.Calm; decide +kernel⟩
  · exact ⟨atMode .run, .spi, 0xC1C0, by unfold State.Quiet State.Calm; decide +kernel⟩

/-- Each clause of ModeRequestsRefused has a state and operands that meet its hypotheses. -/
theorem witness_ModeRequestsRefused :
    (∃ (s : State) (m : Master) (key : BitVec 16), s.accepts m = true ∧ hostMaster m = true ∧ key ≠ 0x3D0E ∧ s.Quiet) ∧
    (∃ (s : State) (m : Master), s.accepts m = true ∧ hostMaster m = true ∧ s.Quiet) ∧
    (∃ (s : State) (m : Master) (key : BitVec 16), s.accepts m = true ∧ hostMaster m = true ∧ key = 0x3D0E ∧ s.Quiet ∧ opAllowed s.mode 1 = false) ∧
    (∃ (s : State) (m : Master) (key : BitVec 16), s.accepts m = true ∧ hostMaster m = true ∧ key ≠ 0x3D0E ∧ s.Quiet) ∧
    (∃ (s : State) (m : Master), s.accepts m = true ∧ hostMaster m = true ∧ s.Quiet) ∧
    (∃ (s : State) (m : Master) (key : BitVec 16), s.accepts m = true ∧ hostMaster m = true ∧ key = 0x3D0E ∧ s.Quiet ∧ opAllowed s.mode 2 = false) ∧
    (∃ (s : State) (m : Master) (key : BitVec 16), s.accepts m = true ∧ hostMaster m = true ∧ key ≠ 0x3D0E ∧ s.Quiet) ∧
    (∃ (s : State) (m : Master), s.accepts m = true ∧ hostMaster m = true ∧ s.Quiet) ∧
    (∃ (s : State) (m : Master) (key : BitVec 16), s.accepts m = true ∧ hostMaster m = true ∧ key = 0x3D0E ∧ s.Quiet ∧ opAllowed s.mode 3 = false) ∧
    (∃ (s : State) (m : Master) (key : BitVec 16), s.accepts m = true ∧ hostMaster m = true ∧ key ≠ 0x3D0E ∧ s.Quiet) ∧
    (∃ (s : State) (m : Master), s.accepts m = true ∧ hostMaster m = true ∧ s.Quiet) ∧
    (∃ (s : State) (m : Master) (key : BitVec 16), s.accepts m = true ∧ hostMaster m = true ∧ key = 0x3D0E ∧ s.Quiet ∧ opAllowed s.mode 4 = false) ∧
    (∃ (s : State) (m : Master) (key : BitVec 16), s.accepts m = true ∧ hostMaster m = true ∧ key ≠ 0x3D0E ∧ s.Quiet) ∧
    (∃ (s : State) (m : Master), s.accepts m = true ∧ hostMaster m = true ∧ s.Quiet) ∧
    (∃ (s : State) (m : Master) (key : BitVec 16), (s.accepts m = true ∧ hostMaster m = true ∧ key = 0x3D0E ∧ s.Quiet ∧ (s.mode = .cellar ∨ s.mode = .fall))) ∧
    (∃ (s : State) (m : Master) (key : BitVec 16), s.accepts m = true ∧ hostMaster m = true ∧ key = 0x3D0E ∧ s.Quiet ∧ s.mode = .safe ∧ s.on FAULT_HOLDS_FULL = true) ∧
    (∃ (s : State) (m : Master) (key : BitVec 16), s.accepts m = true ∧ hostMaster m = true ∧ key = 0x3D0E ∧ s.Quiet ∧ s.mode = .safe ∧ s.on FAULT_HOLDS_FULL = true) ∧
    (∃ (s : State) (m : Master) (key : BitVec 16), s.accepts m = true ∧ hostMaster m = true ∧ key = 0x3D0E ∧ s.Quiet ∧ s.mode = .safe ∧ s.on FAULT_HOLDS_FULL = false ∧
      s.bankState 1 = 2 ∧ s.seqPhase ≠ 2) := by
  refine ⟨?_, ?_, ?_, ?_, ?_, ?_, ?_, ?_, ?_, ?_, ?_, ?_, ?_, ?_, ?_, ?_, ?_, ?_⟩
  · exact ⟨atMode .run, .spi, 0x3D0F, by unfold State.Quiet State.Calm; decide +kernel⟩
  · exact ⟨atMode .run, .spi, by unfold State.Quiet State.Calm; decide +kernel⟩
  · exact ⟨{ atMode .fall with dev := { (atMode .fall).dev with pll := true } }, .spi, 0x3D0E, by unfold State.Quiet State.Calm; decide +kernel⟩
  · exact ⟨atMode .run, .spi, 0x3D0F, by unfold State.Quiet State.Calm; decide +kernel⟩
  · exact ⟨atMode .run, .spi, by unfold State.Quiet State.Calm; decide +kernel⟩
  · exact ⟨{ atMode .fall with dev := { (atMode .fall).dev with pll := true } }, .spi, 0x3D0E, by unfold State.Quiet State.Calm; decide +kernel⟩
  · exact ⟨atMode .run, .spi, 0x3D0F, by unfold State.Quiet State.Calm; decide +kernel⟩
  · exact ⟨atMode .run, .spi, by unfold State.Quiet State.Calm; decide +kernel⟩
  · exact ⟨{ atMode .fall with dev := { (atMode .fall).dev with pll := true } }, .spi, 0x3D0E, by unfold State.Quiet State.Calm; decide +kernel⟩
  · exact ⟨atMode .run, .spi, 0x3D0F, by unfold State.Quiet State.Calm; decide +kernel⟩
  · exact ⟨atMode .run, .spi, by unfold State.Quiet State.Calm; decide +kernel⟩
  · exact ⟨{ atMode .fall with dev := { (atMode .fall).dev with pll := true } }, .spi, 0x3D0E, by unfold State.Quiet State.Calm; decide +kernel⟩
  · exact ⟨atMode .run, .spi, 0x3D0F, by unfold State.Quiet State.Calm; decide +kernel⟩
  · exact ⟨atMode .run, .spi, by unfold State.Quiet State.Calm; decide +kernel⟩
  · exact ⟨{ atMode .fall with dev := { (atMode .fall).dev with pll := true } }, .spi, 0x3D0E, by unfold State.Quiet State.Calm; decide +kernel⟩
  · exact ⟨(atMode .safe).put FAULT_HOLDS_FULL 1, .spi, 0x3D0E, by unfold State.Quiet State.Calm; decide +kernel⟩
  · exact ⟨(atMode .safe).put FAULT_HOLDS_FULL 1, .spi, 0x3D0E, by unfold State.Quiet State.Calm; decide +kernel⟩
  · exact ⟨(atMode .safe).store (sealAddr 1) 4 2, .spi, 0x3D0E, by unfold State.Quiet State.Calm; decide +kernel⟩

/-- Each clause of RiseRowsEnd has a state and operands that meet its hypotheses. -/
theorem witness_RiseRowsEnd :
    (∃ (s : State), s.mode = .rise ∧ s.dev.held = true ∧ s.dev.bias ≠ .none ∧ s.dev.testHigh = false ∧ s.dev.pll = false ∧ s.Quiet) ∧
    (∃ (s : State), (s.Quiet ∧ (s.mode ≠ .rise ∨ s.dev.held = false ∨ s.dev.bias = .none ∨ s.dev.testHigh = true))) ∧
    (∃ (s : State), s.mode = .rise ∧ s.dev.held = false ∧ s.dev.rowC = false ∧ s.Quiet) ∧
    (∃ (s : State), (s.Quiet ∧ (s.mode ≠ .rise ∨ s.dev.held = true ∨ s.dev.rowC = true))) ∧
    (∃ (s : State) (a : List CalMeas) (b : List CalMeas) (c : List CalMeas) (d : List CalMeas), s.mode = .rise ∧ s.dev.rowC = true ∧ s.dev.calDone = false ∧ s.Quiet ∧ a.length = 5 ∧ b.length = 5 ∧ c.length = 5 ∧ d.length = 5) ∧
    (∃ (s : State) (a : List CalMeas) (b : List CalMeas) (c : List CalMeas) (d : List CalMeas), ((s.mode ≠ .rise ∨ s.dev.rowC = false ∨ s.dev.calDone = true) ∧ s.Quiet ∧ a.length = 5 ∧ b.length = 5 ∧ c.length = 5 ∧ d.length = 5)) ∧
    (∃ (s : State), s.mode = .rise ∧ s.dev.rowC = true ∧ s.dev.imageDone = false ∧ s.Quiet) ∧
    (∃ (s : State), (s.Quiet ∧ (s.mode ≠ .rise ∨ s.dev.rowC = false ∨ s.dev.imageDone = true))) ∧
    (∃ (s : State), (s.mode = .rise ∧ s.dev.imageDone = true ∧ s.dev.preloadDone = false ∧ s.litBank = 0 ∧ (∀ n : Fin 16, s.modules n = 0) ∧
      s.busy = false ∧ s.Quiet)) ∧
    (∃ (s : State), (s.mode = .rise ∧ s.dev.imageDone = true ∧ s.dev.preloadDone = false ∧ s.litBank = 0 ∧ s.busy = false ∧
      (∃ n : Fin 16, s.modules n ≠ 0) ∧ s.Quiet)) ∧
    (∃ (s : State), s.mode = .rise ∧ s.dev.imageDone = true ∧ s.dev.preloadDone = false ∧ s.litBank = 0 ∧ s.busy = true ∧ s.Quiet) ∧
    (∃ (s : State), s.mode = .service ∧ s.lamp.coldStage = 3 ∧ s.Quiet) ∧
    (∃ (s : State), (s.Quiet ∧ ((s.mode ≠ .rise ∨ s.dev.imageDone = false ∨ s.dev.preloadDone = true) ∧ s.lamp.coldStage ≠ 3))) ∧
    (∃ (s : State) (m : Mode), s.riseRows = true ∧ s.riseMode = some m ∧ s.Quiet) ∧
    (∃ (s : State), (s.Quiet ∧ (s.riseRows = false ∨ s.riseMode = none))) ∧
    (∃ (s : State), s.seq.hold = true ∧ s.mode = .rise ∧ s.seq.vhbFall = false ∧ s.Quiet) ∧
    (∃ (s : State), s.Quiet ∧ (s.seq.hold = false)) := by
  refine ⟨?_, ?_, ?_, ?_, ?_, ?_, ?_, ?_, ?_, ?_, ?_, ?_, ?_, ?_, ?_, ?_, ?_⟩
  · exact ⟨({ State.reset with mode := .rise, dev := { State.reset.dev with bias := .startUp, biasMask := 2 } } : State), by unfold State.Quiet State.Calm; decide +kernel⟩
  · exact ⟨atMode .run, by unfold State.Quiet State.Calm; decide +kernel⟩
  · exact ⟨{ atMode .rise with dev := { (atMode .rise).dev with rowC := false } }, by unfold State.Quiet State.Calm; decide +kernel⟩
  · exact ⟨atMode .run, by unfold State.Quiet State.Calm; decide +kernel⟩
  · exact ⟨{ atMode .rise with dev := { (atMode .rise).dev with calDone := false } }, (List.replicate 5 ⟨0, 0, 0, 0⟩), (List.replicate 5 ⟨0, 0, 0, 0⟩), (List.replicate 5 ⟨0, 0, 0, 0⟩), (List.replicate 5 ⟨0, 0, 0, 0⟩), by unfold State.Quiet State.Calm; decide +kernel⟩
  · exact ⟨atMode .run, (List.replicate 5 ⟨0, 0, 0, 0⟩), (List.replicate 5 ⟨0, 0, 0, 0⟩), (List.replicate 5 ⟨0, 0, 0, 0⟩), (List.replicate 5 ⟨0, 0, 0, 0⟩), by unfold State.Quiet State.Calm; decide +kernel⟩
  · exact ⟨{ atMode .rise with dev := { (atMode .rise).dev with imageDone := false } }, by unfold State.Quiet State.Calm; decide +kernel⟩
  · exact ⟨atMode .run, by unfold State.Quiet State.Calm; decide +kernel⟩
  · exact ⟨{ atMode .rise with dev := { (atMode .rise).dev with preloadDone := false } }, by unfold State.Quiet State.Calm; decide +kernel⟩
  · exact ⟨({ atMode .rise with dev := { (atMode .rise).dev with preloadDone := false } } : State).put (SLINK_CFG_MODULES.at 2) 3, by unfold State.Quiet State.Calm; decide +kernel⟩
  · exact ⟨({ atMode .rise with dev := { (atMode .rise).dev with preloadDone := false } } : State).put DEV_LONGOP_RUN 5, by unfold State.Quiet State.Calm; decide +kernel⟩
  · exact ⟨({ (atMode .service) with lamp.coldStage := 3 } : State), by unfold State.Quiet State.Calm; decide +kernel⟩
  · exact ⟨atMode .run, by unfold State.Quiet State.Calm; decide +kernel⟩
  · exact ⟨(atMode .rise).put SEQ_STATE_PHASE 2, Mode.service, by unfold State.Quiet State.Calm; decide +kernel⟩
  · exact ⟨atMode .run, by unfold State.Quiet State.Calm; decide +kernel⟩
  · exact ⟨({ atMode .rise with seq := { (atMode .rise).seq with hold := true }, dev := { (atMode .rise).dev with vhbOn := false } } : State), by unfold State.Quiet State.Calm; decide +kernel⟩
  · exact ⟨atMode .run, by unfold State.Quiet State.Calm; decide +kernel⟩

/-- Each clause of WakesAndRestarts has a state and operands that meet its hypotheses. -/
theorem witness_WakesAndRestarts :
    (∃ (s : State) (src : Fin 7), s.mode = .hibernate ∧ s.wakeEnabled (2 ^ src.val) ≠ 0 ∧ s.Quiet) ∧
    (∃ (s : State) (src : Fin 7), s.mode = .hibernate ∧ s.dev.stage = 1 ∧ s.busy = true ∧ s.wakeEnabled (2 ^ src.val) ≠ 0) ∧
    (∃ (s : State) (src : Fin 7), (s.Quiet ∧ (s.mode ≠ .hibernate ∨ (s.wakeEnabled (2 ^ src.val) = 0 ∧ src.val ≠ 4)))) ∧
    (∃ (s : State), s.mode = .cellar ∧ s.dev.bias ≠ .none ∧ s.dev.onAtFall = true) ∧
    (∃ (s : State) (k : Fin 7), s.mode = .cellar ∧ s.dev.bias ≠ .none ∧ s.wakeEnabled (2 ^ k.val) / 4 ≠ 0) ∧
    (∃ (s : State), s.Quiet ∧ (s.mode ≠ .cellar)) ∧
    (∃ (s : State), s.mode = .cellar ∧ s.dev.armedOff.isSome = true ∧ s.dev.bias ≠ .none) ∧
    (∃ (s : State), (s.Quiet ∧ (s.mode ≠ .cellar ∨ s.dev.armedOff = none))) ∧
    (∃ (s : State), s.mode = .safe ∧ s.seqPhase = 4 ∧ s.dev.stopLatched = true ∧ s.on DEV_CFG_STOPAUTO = true ∧ s.therm.shut = 0 ∧
      s.restartsRecent.length < s.get DEV_CFG_STOPMAX ∧ s.Quiet) ∧
    (∃ (s : State), s.mode = .safe ∧ s.seqPhase = 4 ∧ s.dev.stopLatched = true ∧ s.on DEV_CFG_STOPAUTO = true ∧ s.therm.shut = 0 ∧
      s.get DEV_CFG_STOPMAX ≤ s.restartsRecent.length ∧ s.Quiet) ∧
    (∃ (s : State), (s.Quiet ∧ (s.mode ≠ .safe ∨ s.seqPhase ≠ 4 ∨ s.dev.stopLatched = false ∨ s.on DEV_CFG_STOPAUTO = false ∨ s.therm.shut ≠ 0))) ∧
    (∃ (s : State), s.mode = .safe ∧ s.seqPhase = 4 ∧ s.dev.bias ≠ .none ∧ s.Quiet) ∧
    (∃ (s : State), ((s.mode ≠ .safe ∨ s.seqPhase ≠ 4) ∧ s.Quiet)) ∧
    (∃ (s : State), s.mode = .fall ∧ s.dev.stage = 0 ∧ s.seqPhase ≠ 3 ∧ s.busy = false) ∧
    (∃ (s : State), (s.Quiet ∧ (s.mode ≠ .fall ∨ s.seqPhase = 3 ∨ s.busy = true))) := by
  refine ⟨?_, ?_, ?_, ?_, ?_, ?_, ?_, ?_, ?_, ?_, ?_, ?_, ?_, ?_, ?_⟩
  · exact ⟨({ atMode .hibernate with dev := { (atMode .hibernate).dev with pll := false } } : State).put CELLAR_WAKEEN_SRC 31, 2, by unfold State.Quiet State.Calm; decide +kernel⟩
  · exact ⟨({ atMode .hibernate with dev := { (atMode .hibernate).dev with stage := 1 } } : State).put CELLAR_WAKEEN_SRC 31 |>.put DEV_LONGOP_RUN 8, 2, by decide +kernel⟩
  · exact ⟨atMode .run, 2, by unfold State.Quiet State.Calm; decide +kernel⟩
  · exact ⟨({ State.reset with dev := { State.reset.dev with bias := .startUp, biasMask := 2, onAtFall := true, armedOff := some 100 } } : State), by decide +kernel⟩
  · exact ⟨({ State.reset with dev := { State.reset.dev with bias := .startUp, biasMask := 2, onAtFall := true, armedOff := some 100 } } : State).put CELLAR_WAKEEN_SRC 31, 3, by decide +kernel⟩
  · exact ⟨atMode .run, by unfold State.Quiet State.Calm; decide +kernel⟩
  · exact ⟨({ State.reset with dev := { State.reset.dev with bias := .startUp, biasMask := 2, onAtFall := true, armedOff := some 100 } } : State), by decide +kernel⟩
  · exact ⟨atMode .run, by unfold State.Quiet State.Calm; decide +kernel⟩
  · exact ⟨({ ((((atMode .safe).put SEQ_STATE_PHASE 4).put DEV_CFG_STOPAUTO 1).put DEV_CFG_STOPMAX 3) with dev.stopLatched := true } : State), by unfold State.Quiet State.Calm; decide +kernel⟩
  · exact ⟨({ ((((atMode .safe).put SEQ_STATE_PHASE 4).put DEV_CFG_STOPAUTO 1).put DEV_CFG_STOPMAX 3) with dev.stopLatched := true } : State).put DEV_CFG_STOPMAX 0, by unfold State.Quiet State.Calm; decide +kernel⟩
  · exact ⟨atMode .run, by unfold State.Quiet State.Calm; decide +kernel⟩
  · exact ⟨(atMode .safe).put SEQ_STATE_PHASE 4, by unfold State.Quiet State.Calm; decide +kernel⟩
  · exact ⟨atMode .run, by unfold State.Quiet State.Calm; decide +kernel⟩
  · exact ⟨(atMode .fall).put SEQ_STATE_PHASE 5, by decide +kernel⟩
  · exact ⟨atMode .run, by unfold State.Quiet State.Calm; decide +kernel⟩

/-- Each clause of AccessesByMasters has a state and operands that meet its hypotheses. -/
theorem witness_AccessesByMasters :
    (∃ (s : State) (m : Master) (addr : BitVec 24), s.accepts m = true ∧ hostMaster m = true ∧ s.Quiet ∧ pageAssigned (addr.toNat / 0x400) = true ∧ addr.toNat < 0x40000 ∧
      addr.toNat % 0x400 = hdrEVT_EN ∧ (statusMask (addr.toNat / 0x400) ≠ 0)) ∧
    (∃ (s : State) (m : Master) (addr : BitVec 24) (r : RegInfo), regInfo addr.toNat = some r ∧ (s.accepts m = true ∧ hostMaster m = true ∧ s.Quiet ∧ addr.toNat % 4 = 0 ∧ 0x40 ≤ addr.toNat % 0x400 ∧
      r.rw ≠ 0 ∧ actsOnWrite (addr.toNat / 0x400) (addr.toNat % 0x400) = false ∧ (addr.toNat / 0x400 = PG_LAMP ∨
      (addr.toNat / 0x400 = PG_EST ∧ (addr.toNat % 0x400 < 0x80 ∨ 0xC0 ≤ addr.toNat % 0x400)) ∨ addr.toNat / 0x400 = PG_DEV))) ∧
    (∃ (s : State) (m : Master) (addr : BitVec 24), (s.accepts m = true ∧ m ≠ .preload ∧ s.Quiet ∧ addr.toNat % 4 = 0 ∧ region addr.toNat = .work ∧ (addr.toNat < 0x1A4000 ∨
      0x1AD000 ≤ addr.toNat))) ∧
    (∃ (s : State) (m : Master) (addr : BitVec 24), s.accepts m = true ∧ s.Quiet ∧ addr.toNat % 4 = 0 ∧ region addr.toNat = .attic) ∧
    (∃ (s : State) (m : Master) (addr : BitVec 24), s.accepts m = true ∧ hostMaster m = true ∧ s.Quiet ∧ pageAssigned (addr.toNat / 0x400) = true ∧ addr.toNat % 0x400 = hdrSTATUS ∧
      statusMask (addr.toNat / 0x400) ≠ 0 ∧ addr.toNat < 0x40000) ∧
    (∃ (s : State) (m : Master), s.Quiet ∧ (s.accepts m = false)) ∧
    (∃ (s : State) (m : Master), s.Quiet ∧ (s.accepts m = false)) ∧
    (∃ (s : State) (m : Master), s.Quiet ∧ (s.accepts m = false)) := by
  refine ⟨?_, ?_, ?_, ?_, ?_, ?_, ?_, ?_⟩
  · exact ⟨atMode .run, Master.spi, (BitVec.ofNat 24 (hdrAddr PG_ATTIC hdrEVT_EN)), by unfold State.Quiet State.Calm; decide +kernel⟩
  · exact ⟨atMode .run, Master.spi, (BitVec.ofNat 24 EST_REST_T_REST.addr), ((regInfo EST_REST_T_REST.addr).get (by decide)), rfl, by unfold State.Quiet State.Calm; decide +kernel⟩
  · exact ⟨atMode .run, Master.lamplighter, 0x100010, by unfold State.Quiet State.Calm; decide +kernel⟩
  · exact ⟨atMode .run, Master.debug, 0x200000, by unfold State.Quiet State.Calm; decide +kernel⟩
  · exact ⟨(atMode .run).raise PG_ATTIC ATTIC_ST_DIRWR, Master.spi, (BitVec.ofNat 24 (hdrAddr PG_ATTIC hdrSTATUS)), by unfold State.Quiet State.Calm; decide +kernel⟩
  · exact ⟨((atMode .run)).put DEV_LONGOP_RUN 6, Master.spi, by unfold State.Quiet State.Calm; decide +kernel⟩
  · exact ⟨((atMode .run)).put DEV_LONGOP_RUN 6, Master.spi, by unfold State.Quiet State.Calm; decide +kernel⟩
  · exact ⟨((atMode .run)).put DEV_LONGOP_RUN 6, Master.spi, by unfold State.Quiet State.Calm; decide +kernel⟩

/-- Each clause of PageResetsAndErrors has a state and operands that meet its hypotheses. -/
theorem witness_PageResetsAndErrors :
    (∃ (s : State) (m : Master) (pg : Fin 1024), (s.accepts m = true ∧ hostMaster m = true ∧ s.Quiet ∧ pageAssigned pg.val = true ∧ (pg.val = PG_IMAGE ∨ pg.val = PG_ATTIC ∨
      pg.val = PG_OCV ∨ pg.val = PG_EST ∨ pg.val = PG_SEQ ∨ pg.val = PG_SPI ∨ pg.val = PG_I2CT))) ∧
    (∃ (s : State) (pg : Fin 1024), s.dev.freset.contains pg.val = true ∧ s.enabled pg.val = false ∧ s.Quiet) ∧
    (∃ (s : State) (pg : Fin 1024), s.dev.freset.contains pg.val = false ∧ s.Quiet) ∧
    (∃ (s : State) (m : Master) (pg : Fin 1024), s.accepts m = true ∧ hostMaster m = true ∧ s.Quiet ∧ pageAssigned pg.val = true ∧ pg.val ≠ PG_FAULT) ∧
    (∃ (s : State) (b : Nat), s.op = some (.erase b) ∧ (s.busy = true ∧ s.Quiet ∧ b < 4)) ∧
    (∃ (s : State) (o : LongOp), s.op = some o ∧ s.Quiet) ∧
    (∃ (s : State), s.op = none ∧ s.Quiet) := by
  refine ⟨?_, ?_, ?_, ?_, ?_, ?_, ?_⟩
  · exact ⟨atMode .run, Master.spi, (Fin.ofNat 1024 PG_IMAGE), by unfold State.Quiet State.Calm; decide +kernel⟩
  · exact ⟨({ atMode .run with dev := { (atMode .run).dev with freset := [PG_EST] } } : State).wr (hdrAddr PG_EST hdrCTRL) 2, (Fin.ofNat 1024 PG_EST), by unfold State.Quiet State.Calm; decide +kernel⟩
  · exact ⟨atMode .run, 5, by unfold State.Quiet State.Calm; decide +kernel⟩
  · exact ⟨atMode .run, Master.spi, (Fin.ofNat 1024 PG_LAMP), by unfold State.Quiet State.Calm; decide +kernel⟩
  · exact ⟨({ (atMode .run).put DEV_LONGOP_RUN 3 with op := some (.erase 1) } : State), 1, rfl, by unfold State.Quiet State.Calm; decide +kernel⟩
  · exact ⟨({ (atMode .run).put DEV_LONGOP_RUN 6 with op := some (.clear (some 3)) } : State), (LongOp.clear (some 3)), rfl, by unfold State.Quiet State.Calm; decide +kernel⟩
  · exact ⟨atMode .run, by unfold State.Quiet State.Calm; decide +kernel⟩

/-- Each clause of MarkersAndBoundaries has a state and operands that meet its hypotheses. -/
theorem witness_MarkersAndBoundaries :
    (∃ (s : State), s.dev.pll = true ∧ s.Calm) ∧
    (∃ (s : State), s.Quiet ∧ (s.dev.pll = false)) ∧
    (∃ (s : State), s.guardRuns = true ∧ s.Quiet) ∧
    (∃ (s : State), s.Quiet ∧ (s.guardRuns = false)) ∧
    (∃ (s : State), s.dev.pll = false ∧ s.mode = .hibernate ∧ s.seq.keep ≠ 0 ∧ s.Quiet) ∧
    (∃ (s : State), s.dev.pll = false ∧ s.mode = .hibernate ∧ s.seq.keep ≠ 0 ∧ s.Quiet ∧ s.lamp.switchPending = false) ∧
    (∃ (s : State), s.dev.pll = false ∧ s.mode = .hibernate ∧ s.seq.keep = 0 ∧ s.Quiet ∧ s.lamp.switchPending = false) ∧
    (∃ (s : State), (s.Quiet ∧ (s.dev.pll = true ∨ (s.mode ≠ .hibernate ∧ s.mode ≠ .fall)))) ∧
    (∃ (s : State), s.dev.pll = true) ∧
    (∃ (s : State), s.dev.pll = true ∧ s.mode = .safe ∧ s.lamp.coldStage ≠ 4 ∧ s.Calm ∧ s.lamp.align = none) ∧
    (∃ (s : State), s.Quiet ∧ (s.dev.pll = false)) ∧
    (∃ (s : State), s.dev.pll = true ∧ s.Quiet) ∧
    (∃ (s : State), s.Quiet ∧ (s.dev.pll = false)) := by
  refine ⟨?_, ?_, ?_, ?_, ?_, ?_, ?_, ?_, ?_, ?_, ?_, ?_, ?_⟩
  · exact ⟨atMode .safe, by unfold State.Calm; decide +kernel⟩
  · exact ⟨({ atMode .rise with dev := { (atMode .rise).dev with pll := false } } : State), by unfold State.Quiet State.Calm; decide +kernel⟩
  · exact ⟨atMode .safe, by unfold State.Quiet State.Calm; decide +kernel⟩
  · exact ⟨dark, by unfold State.Quiet State.Calm; decide +kernel⟩
  · exact ⟨({ atMode .hibernate with dev := { (atMode .hibernate).dev with pll := false }, lamp := { (atMode .hibernate).lamp with atRound := true }, seq := { (atMode .hibernate).seq with keep := 2 } } : State), by unfold State.Quiet State.Calm; decide +kernel⟩
  · exact ⟨({ atMode .hibernate with dev := { (atMode .hibernate).dev with pll := false }, lamp := { (atMode .hibernate).lamp with atRound := true }, seq := { (atMode .hibernate).seq with keep := 2 } } : State), by unfold State.Quiet State.Calm; decide +kernel⟩
  · exact ⟨({ atMode .hibernate with dev := { (atMode .hibernate).dev with pll := false }, lamp := { (atMode .hibernate).lamp with atRound := true }, seq := { (atMode .hibernate).seq with keep := 0 } } : State), by unfold State.Quiet State.Calm; decide +kernel⟩
  · exact ⟨atMode .run, by unfold State.Quiet State.Calm; decide +kernel⟩
  · exact ⟨atMode .safe, by decide +kernel⟩
  · exact ⟨atMode .safe, by unfold State.Calm; decide +kernel⟩
  · exact ⟨({ atMode .rise with dev := { (atMode .rise).dev with pll := false } } : State), by unfold State.Quiet State.Calm; decide +kernel⟩
  · exact ⟨atMode .run, by unfold State.Quiet State.Calm; decide +kernel⟩
  · exact ⟨({ atMode .rise with dev := { (atMode .rise).dev with pll := false } } : State), by unfold State.Quiet State.Calm; decide +kernel⟩

/-- Each clause of SlotsOfTime has a state and operands that meet its hypotheses. -/
theorem witness_SlotsOfTime :
    (∃ (s : State) (x : Slot), s.Issues x .nop ∧ s.Quiet) ∧
    (∃ (s : State) (x : Slot), s.Issues x .tableEnd ∧ s.Quiet) ∧
    (∃ (s : State) (x : Slot) (n : Nat), s.Issues x (.wait n) ∧ s.Quiet) ∧
    (∃ (s : State) (lane : Fin 6) (level : Fin 3), ((s.lane lane).run level).phase = .waiting 0) ∧
    (∃ (s : State) (lane : Fin 6) (level : Fin 3), ((s.lane lane).run level).phase ≠ .waiting 0) ∧
    (∃ (s : State) (x : Slot), s.Issues x (.modejump 4) ∧ s.Quiet ∧ s.mode = .run ∧ s.on PACK_STATE_LOSS = true) ∧
    (∃ (s : State) (x : Slot), s.Issues x (.modejump 3) ∧ s.Quiet ∧ s.mode = .ride ∧ s.on PACK_STATE_RETOK = true ∧ s.lamp.rideJump = false) ∧
    (∃ (s : State) (x : Slot) (target : Nat), (s.Issues x (.modejump target) ∧ s.Quiet ∧ (target ≠ 4 ∨ s.mode ≠ .run ∨ s.on PACK_STATE_LOSS = false) ∧ (target ≠ 3 ∨
      s.mode ≠ .ride ∨ s.on PACK_STATE_RETOK = false ∨ s.lamp.rideJump = true))) ∧
    (∃ (s : State) (x : Slot) (p : Nat) (ndep : Nat), s.Issues x (.rdv 0 p ndep) ∧ s.Quiet ∧ s.lamp.posted.contains p = false ∧ s.lamp.tested.contains p = false) ∧
    (∃ (s : State) (x : Slot) (p : Nat) (ndep : Nat) (giver : Nat), (s.Issues x (.rdv 1 p ndep) ∧ s.Quiet ∧ s.injOn PG_LAMP 9 = false ∧
      s.lamp.tokens.find? (fun k => k.point == p) = some ⟨p, s.cycleStamp, false, giver⟩)) ∧
    (∃ (s : State) (x : Slot) (p : Nat) (ndep : Nat), (s.Issues x (.rdv 1 p ndep) ∧ s.Quiet ∧ s.injOn PG_LAMP 9 = false ∧ s.lamp.tokens.find? (fun k => k.point == p) = none)) := by
  refine ⟨?_, ?_, ?_, ?_, ?_, ?_, ?_, ?_, ?_, ?_, ?_⟩
  · exact ⟨(issuing 2 (atMode .safe)), (⟨1, 0, 0, false, false, none, some (.nop)⟩ : Slot), by unfold State.Quiet State.Calm State.Issues; decide +kernel⟩
  · exact ⟨(issuing 2 (atMode .safe)), (⟨1, 0, 0, false, false, none, some (.tableEnd)⟩ : Slot), by unfold State.Quiet State.Calm State.Issues; decide +kernel⟩
  · exact ⟨(issuing 2 (atMode .safe)), (⟨1, 0, 1, false, false, none, some (.wait 7)⟩ : Slot), 7, by unfold State.Quiet State.Calm State.Issues; decide +kernel⟩
  · exact ⟨(atMode .run).setLane 2 (((atMode .run).lane 2).setRun 1 ⟨.waiting 0, 3, 0, true⟩), 2, 1, by decide +kernel⟩
  · exact ⟨atMode .run, 2, 1, by decide +kernel⟩
  · exact ⟨(image 0 0 0 216173331869597696 0 (atMode .run)).put PACK_STATE_LOSS 1, (⟨0, 100, 0, false, false, none, none⟩ : Slot), by unfold State.Quiet State.Calm State.Issues; decide +kernel⟩
  · exact ⟨(image 0 0 1 216173194430644224 0 (atMode .ride)).put PACK_STATE_RETOK 1, (⟨0, 100, 0, false, false, none, none⟩ : Slot), by unfold State.Quiet State.Calm State.Issues; decide +kernel⟩
  · exact ⟨(image 0 0 0 216173331869597696 0 (atMode .run)), (⟨0, 100, 0, false, false, none, none⟩ : Slot), 4, by unfold State.Quiet State.Calm State.Issues; decide +kernel⟩
  · exact ⟨(issuing 2 (atMode .safe)), (⟨1, 0, 0, false, false, none, some (.rdv 0 3 0)⟩ : Slot), 3, 0, by unfold State.Quiet State.Calm State.Issues; decide +kernel⟩
  · exact ⟨(issuing 2 (atMode .safe)).postToken 0 3 false, (⟨1, 0, 0, false, false, none, some (.rdv 1 3 2)⟩ : Slot), 3, 2, 0, by unfold State.Quiet State.Calm State.Issues; decide +kernel⟩
  · exact ⟨(issuing 2 (atMode .safe)), (⟨1, 0, 0, false, false, none, some (.rdv 1 3 2)⟩ : Slot), 3, 2, by unfold State.Quiet State.Calm State.Issues; decide +kernel⟩

/-- Each clause of SlotsOfConverters has a state and operands that meet its hypotheses. -/
theorem witness_SlotsOfConverters :
    (∃ (s : State) (x : Slot) (b : Nat) (k : Nat), s.Issues x (.trigger b k) ∧ s.Quiet ∧ s.dev.pll = true ∧ b < 4 ∧ s.enabled (PG_ADC + b) = true ∧ s.seqLen (Fin.ofNat 4 b) k ≠ 0) ∧
    (∃ (s : State) (x : Slot) (b : Nat) (k : Nat), s.Issues x (.trigger b k) ∧ s.Quiet ∧ s.dev.pll = true ∧ b < 4 ∧ s.enabled (PG_ADC + b) = false) ∧
    (∃ (s : State) (x : Slot) (u : Nat) (sh : Bool), (s.Issues x (.comp u sh) ∧ x.lane = 0 ∧ u < 16 ∧ s.balEffective (Fin.ofNat 16 u) = true ∧ (s.balCode (Fin.ofNat 16 u) = 2 ∨
      s.balCode (Fin.ofNat 16 u) = 3))) ∧
    (∃ (s : State) (x : Slot) (sh : Bool), s.Issues x (.comp 16 sh) ∧ x.lane = 0 ∧ s.packRunning = true ∧ s.compEffective s.packTsw = true) ∧
    (∃ (s : State) (x : Slot) (sh : Bool), s.Issues x (.comp 17 sh) ∧ x.lane = 0 ∧ s.svcRuns = true ∧ s.compEffective s.svcTsw = true) ∧
    (∃ (s : State) (x : Slot) (sh : Bool), s.Issues x (.comp 32 sh) ∧ x.lane = 4 ∧ s.railSwitches 0 = true ∧ s.compEffective (s.railTsw 0) = true) ∧
    (∃ (s : State) (x : Slot) (k : Fin 4) (sh : Bool), s.Issues x (.comp (33 + k.val) sh) ∧ x.lane = 4 ∧ s.railSwitches (Fin.ofNat 15 (k.val + 1)) = true) ∧
    (∃ (s : State) (x : Slot) (k : Fin 2) (sh : Bool), s.Issues x (.comp (37 + k.val) sh) ∧ x.lane = 4 ∧ s.railSwitches (Fin.ofNat 15 (k.val + 5)) = true) ∧
    (∃ (s : State) (x : Slot) (o : Nat) (fl : Nat) (imm : Bool) (v : Nat), s.Issues x (.pwmload o fl imm v) ∧ s.Quiet ∧ o ≤ 41) ∧
    (∃ (s : State) (x : Slot) (addr : Nat) (lsb : Nat) (width : Nat) (ev : Bool) (line : Nat) (lo : Nat) (hi : Nat), s.Issues x (.check addr lsb width false ev line lo hi) ∧ s.Quiet ∧ 0x100000 ≤ addr ∧ addr < 0x180000 ∧ addr % 4 = 0 ∧
      lo ≤ s.peek addr / 2 ^ lsb % 2 ^ min width (32 - lsb) ∧ s.peek addr / 2 ^ lsb % 2 ^ min width (32 - lsb) ≤ hi) ∧
    (∃ (s : State) (x : Slot) (addr : Nat) (lsb : Nat) (width : Nat) (ev : Bool) (line : Nat) (lo : Nat) (hi : Nat), (s.Issues x (.check addr lsb width false ev line lo hi) ∧ s.Quiet ∧ 0x100000 ≤ addr ∧ addr < 0x180000 ∧ addr % 4 = 0 ∧ ev = false ∧
      (s.peek addr / 2 ^ lsb % 2 ^ min width (32 - lsb) < lo ∨ hi < s.peek addr / 2 ^ lsb % 2 ^ min width (32 - lsb)))) ∧
    (∃ (s : State) (x : Slot) (addr : Nat) (lsb : Nat) (width : Nat) (ev : Bool) (line : Nat) (lo : Nat) (hi : Nat), (s.Issues x (.check addr lsb width false ev line lo hi) ∧ s.Quiet ∧ 0x100000 ≤ addr ∧ addr < 0x180000 ∧ addr % 4 = 0 ∧ ev = true ∧
      (s.peek addr / 2 ^ lsb % 2 ^ min width (32 - lsb) < lo ∨ hi < s.peek addr / 2 ^ lsb % 2 ^ min width (32 - lsb)) ∧ s.mode = .run)) ∧
    (∃ (s : State) (x : Slot) (dst : Nat) (mask : Nat) (data : Nat), s.Issues x (.move dst false mask data) ∧ s.Quiet ∧ s.guardRuns = true ∧ dst % 4 = 0 ∧ 0x100000 ≤ dst ∧ dst < 0x180000) := by
  refine ⟨?_, ?_, ?_, ?_, ?_, ?_, ?_, ?_, ?_, ?_, ?_, ?_, ?_⟩
  · exact ⟨((image 1 0 0 1152921779484753920 0 (atMode .run)).wr (hdrAddr (PG_ADC + 1) hdrCTRL) 1).put (adcF ADC_SEQ_LEN_LEN0 1) 3, (⟨1, 100, 0, false, false, none, none⟩ : Slot), 1, 0, by unfold State.Quiet State.Calm State.Issues; decide +kernel⟩
  · exact ⟨(image 1 0 0 1152921779484753920 0 (atMode .run)), (⟨1, 100, 0, false, false, none, none⟩ : Slot), 1, 0, by unfold State.Quiet State.Calm State.Issues; decide +kernel⟩
  · exact ⟨(((image 0 0 0 1224979107234709504 0 (atMode .run)).wr (hdrAddr PG_BAL hdrCTRL) 1).put (BAL_STATE_CODE.at 0) 2), (⟨0, 100, 0, false, false, none, none⟩ : Slot), 0, true, by unfold State.Issues; decide +kernel⟩
  · exact ⟨((image 0 0 0 1224979382112616448 0 (atMode .run)).wr (hdrAddr PG_PACK hdrCTRL) 1).put PACK_STATE_CODE 4, (⟨0, 100, 0, false, false, none, none⟩ : Slot), true, by unfold State.Issues; decide +kernel⟩
  · exact ⟨((issuing 2 (atMode .safe)).wr (hdrAddr PG_SVC hdrCTRL) 1).put SVC_STATE_CODE 2, (⟨0, 0, 0, false, false, none, some (.comp 17 true)⟩ : Slot), true, by unfold State.Issues; decide +kernel⟩
  · exact ⟨((issuing 2 (atMode .safe)).setRs 0 { (issuing 2 (atMode .safe)).rs 0 with phase := .good, vref := 1000 }), (⟨4, 0, 0, false, false, none, some (.comp 32 true)⟩ : Slot), true, by unfold State.Issues; decide +kernel⟩
  · exact ⟨((issuing 2 (atMode .safe)).setRs 2 { (issuing 2 (atMode .safe)).rs 2 with phase := .good, vref := 1000 }), (⟨4, 0, 0, false, false, none, some (.comp 34 true)⟩ : Slot), (1 : Fin 4), true, by unfold State.Issues; decide +kernel⟩
  · exact ⟨((issuing 2 (atMode .safe)).setRs 6 { (issuing 2 (atMode .safe)).rs 6 with phase := .good, vref := 1000 }), (⟨4, 0, 0, false, false, none, some (.comp 38 true)⟩ : Slot), (1 : Fin 2), true, by unfold State.Issues; decide +kernel⟩
  · exact ⟨(image 0 0 0 1297036785024500012 0 (atMode .run)), (⟨0, 100, 0, false, false, none, none⟩ : Slot), 5, 1, true, 300, by unfold State.Quiet State.Calm State.Issues; decide +kernel⟩
  · exact ⟨(image 4 0 0 1369094355440111363 42949672965 (atMode .run)).store 0x100000 4 7, (⟨4, 100, 0, false, false, none, none⟩ : Slot), 0x100000, 0, 16, false, 3, 5, 10, by unfold State.Quiet State.Calm State.Issues; decide +kernel⟩
  · exact ⟨(image 4 0 0 1369094355440111363 42949672965 (atMode .run)), (⟨4, 100, 0, false, false, none, none⟩ : Slot), 0x100000, 0, 16, false, 3, 5, 10, by unfold State.Quiet State.Calm State.Issues; decide +kernel⟩
  · exact ⟨(image 4 0 0 1369094355440111427 42949672965 (atMode .run)), (⟨4, 100, 0, false, false, none, none⟩ : Slot), 0x100000, 0, 16, true, 3, 5, 10, by unfold State.Quiet State.Calm State.Issues; decide +kernel⟩
  · exact ⟨(image 3 0 0 1441151949480132608 280375465126861 (atMode .run)).store 0x100020 4 0x12345678, (⟨3, 100, 0, false, false, none, none⟩ : Slot), 0x100020, 0xFF00, 0xABCD, by unfold State.Quiet State.Calm State.Issues; decide +kernel⟩

/-- Each clause of SlotsOfEngines has a state and operands that meet its hypotheses. -/
theorem witness_SlotsOfEngines :
    (∃ (s : State) (x : Slot) (n : Nat) (k : Nat) (node : Nat), (s.Issues x (.linktx n k node) ∧ n < 16 ∧ (s.lk (Fin.ofNat 16 n)).phase = .idle ∧ s.usable (Fin.ofNat 16 n) = true ∧
      s.twoArmed (Fin.ofNat 16 n) = false ∧ 2 ≤ (s.linkTemplate (Fin.ofNat 16 n) .slot k node).typ ∧
      (s.linkTemplate (Fin.ofNat 16 n) .slot k node).typ ≤ 5 ∧
      s.linkBeyond (Fin.ofNat 16 n) k (s.linkTemplate (Fin.ofNat 16 n) .slot k node) = false ∧
      ((s.linkTemplate (Fin.ofNat 16 n) .slot k node)).payload.length ≤ linkMost ∧
      ((s.linkTemplate (Fin.ofNat 16 n) .slot k node).bc = true ∨ (s.linkTemplate (Fin.ofNat 16 n) .slot k node).addr = 0x3F ∨
      s.nodeReach (Fin.ofNat 16 n) (s.linkTemplate (Fin.ofNat 16 n) .slot k node).addr = true))) ∧
    (∃ (s : State) (x : Slot) (n : Nat) (k : Nat) (node : Nat), s.Issues x (.linktx n k node) ∧ n < 16 ∧ s.usable (Fin.ofNat 16 n) = false ∧ (s.lk (Fin.ofNat 16 n)).ended = none) ∧
    (∃ (s : State) (x : Slot) (k : Nat) (node : Nat), (s.Issues x (.linktx 16 k node) ∧ k < 8 ∧ s.Quiet ∧ s.get (RING_TPL_A_TYPE.el k) = 2 ∧ s.on (RING_TPL_A_BC.el k) = false ∧
      (s.hasNum = false ∨ s.get (RING_TPL_A_DST.el k) ≠ s.devNum) ∧ s.postWriteOk = true ∧ 1 ≤ (s.get (RING_TPL_A_LEN.el k)) ∧
      (s.get (RING_TPL_A_LEN.el k)) ≤ 64)) ∧
    (∃ (s : State) (x : Slot) (k : Nat) (node : Nat), (s.Issues x (.linktx 16 k node) ∧ k < 8 ∧ s.Quiet ∧ ((s.get (RING_TPL_A_LEN.el k)) = 0 ∨ 64 < (s.get (RING_TPL_A_LEN.el k))) ∧
      s.get (RING_TPL_C_DST.el k) ≠ 0xFFFF)) ∧
    (∃ (s : State) (x : Slot) (n : Nat) (first : Nat) (count : Nat), (s.Issues x (.estupd n first count 0) ∧ s.Quiet ∧ (s.tracked (Fin.ofNat 16 n) = false ∨ 640 < first + count))) ∧
    (∃ (s : State) (x : Slot) (n : Nat) (first : Nat) (count : Nat), s.Issues x (.estupd n first count 0) ∧ s.tracked (Fin.ofNat 16 n) = true ∧ first + count ≤ 640 ∧
      first ≤ (if s.modules (Fin.ofNat 16 n) = 0 then 639 else 16 * s.modules (Fin.ofNat 16 n) - 1) ∧
      (if s.modules (Fin.ofNat 16 n) = 0 then 639 else 16 * s.modules (Fin.ofNat 16 n) - 1) < first + count) ∧
    (∃ (s : State) (x : Slot) (n : Nat) (first : Nat) (count : Nat), (s.Issues x (.estupd n first count 1) ∧ s.Quiet ∧ (s.get (HEALTH_PERTN_STATE.el (n % 16)) ≠ 1 ∨ 640 < first + count))) ∧
    (∃ (s : State) (x : Slot) (n : Nat) (first : Nat) (count : Nat), s.Issues x (.estupd n first count 1) ∧ s.Quiet ∧ s.get (HEALTH_PERTN_STATE.el (n % 16)) = 1 ∧ first + count ≤ 640 ∧
      s.sel (Fin.ofNat 16 n) (s.get (HEALTH_PERTN_MODULE.el (n % 16))) ≠ 1) ∧
    (∃ (s : State) (x : Slot) (n : Nat) (mods : Nat), s.Issues x (.rank n mods) ∧ 1 ≤ mods ∧ mods ≤ 40) ∧
    (∃ (s : State) (x : Slot), s.Issues x (.dispatch 0) ∧ s.enabled PG_DISPATCH = true ∧ s.mode ≠ .run) ∧
    (∃ (s : State) (x : Slot), s.Issues x (.dispatch 0) ∧ s.enabled PG_DISPATCH = false ∧ s.Quiet) ∧
    (∃ (s : State) (x : Slot), s.Issues x (.dispatch 1) ∧ s.Quiet ∧ s.enabled PG_DISPATCH = true ∧ s.mode ≠ .run ∧ s.mode ≠ .ride) ∧
    (∃ (s : State) (x : Slot), s.Issues x (.dispatch 1) ∧ s.Quiet ∧ s.enabled PG_DISPATCH = false) ∧
    (∃ (s : State) (x : Slot) (n : Nat) (md : Nat), s.Issues x (.select n md) ∧ n < 16 ∧ md ≤ 40 ∧ s.Quiet ∧ (s.lk (Fin.ofNat 16 n)).ended = none ∧
      (s.lk (Fin.ofNat 16 n)).phase = .idle ∧ s.balCur (Fin.ofNat 16 n) = 0 ∧ s.mode ≠ .run ∧ s.mode ≠ .ride) ∧
    (∃ (s : State) (x : Slot) (n : Nat) (md : Nat), s.Issues x (.select n md) ∧ n < 16 ∧ 1 ≤ md ∧ md ≤ 40 ∧ (s.lk (Fin.ofNat 16 n)).ended = none ∧
      (s.lk (Fin.ofNat 16 n)).phase = .idle ∧ s.balCur (Fin.ofNat 16 n) = md ∧ s.sel (Fin.ofNat 16 n) md = 1 ∧ s.Quiet) ∧
    (∃ (s : State) (x : Slot) (n : Nat) (md : Nat), s.Issues x (.select n md) ∧ n < 16 ∧ 1 ≤ md ∧ md ≤ s.modules (Fin.ofNat 16 n) ∧ s.mode = .run ∧
      (s.lk (Fin.ofNat 16 n)).ended = none ∧ (s.lk (Fin.ofNat 16 n)).phase = .idle ∧ s.balCur (Fin.ofNat 16 n) = 0 ∧
      s.balCode (Fin.ofNat 16 n) = 3 ∧ s.usable (Fin.ofNat 16 n) = true ∧ s.enabled (PG_BAL + n) = true ∧
      s.on (exclBit (Fin.ofNat 16 n) md) = false ∧ s.nodeReach (Fin.ofNat 16 n) md = true ∧
      bitOf (s.hdr (PG_BAL + n) hdrERR) BAL_ERR_STOPFAIL = false) := by
  refine ⟨?_, ?_, ?_, ?_, ?_, ?_, ?_, ?_, ?_, ?_, ?_, ?_, ?_, ?_, ?_, ?_⟩
  · exact ⟨((((image 2 0 0 2305843010270658560 0 (atMode .run)).put (SLINK_STATE_USABLE.at 0) 1).put ((SLINK_TPL_A_TYPE.el 0).at 0) 4).put ((SLINK_TPL_A_ADDR.el 0).at 0) 0x3F).put ((SLINK_TPL_B_DST.el 0).at 0) 0xFFFF, (⟨2, 100, 0, false, false, none, none⟩ : Slot), 0, 0, 0x3F, by unfold State.Issues; decide +kernel⟩
  · exact ⟨(image 2 0 0 2305843010270658560 0 (atMode .run)), (⟨2, 100, 0, false, false, none, none⟩ : Slot), 0, 0, 0x3F, by unfold State.Issues; decide +kernel⟩
  · exact ⟨((((((((image 2 0 0 2305843560043249664 0 (atMode .run)).put (RING_TPL_A_DST.el 1) 2).put RING_STATE_N 4).put (RING_TPL_A_TYPE.el 1) 2).put (RING_TPL_A_LEN.el 1) 2).put (RING_TPL_C_DST.el 1) 0xFFFF).put RING_STATE_ENUM 1).put RING_NUM_VALID 1).wr (hdrAddr PG_RING hdrCTRL) 1, (⟨2, 100, 0, false, false, none, none⟩ : Slot), 1, 0, by unfold State.Quiet State.Calm State.Issues; decide +kernel⟩
  · exact ⟨((image 2 0 0 2305843560043249664 0 (atMode .run)).put (RING_TPL_A_TYPE.el 1) 2).put (RING_TPL_C_DST.el 1) 0x10, (⟨2, 100, 0, false, false, none, none⟩ : Slot), 1, 0, by unfold State.Quiet State.Calm State.Issues; decide +kernel⟩
  · exact ⟨((image 3 0 0 3458764651301371904 0 (atMode .run)).put LAMP_POSITION_CYCLE 7), (⟨3, 100, 0, false, false, none, none⟩ : Slot), 2, 0, 640, by unfold State.Quiet State.Calm State.Issues; decide +kernel⟩
  · exact ⟨(((image 3 0 0 3458764652199084032 0 (atMode .run)).put LAMP_POSITION_CYCLE 7).put (estF EST_STRCFG_EN 2) 1).put (SLINK_CFG_MODULES.at 2) 1, (⟨3, 100, 0, false, false, none, none⟩ : Slot), 2, 14, 2, by unfold State.Issues; decide +kernel⟩
  · exact ⟨((image 3 0 0 3458764651301388288 0 (atMode .run)).put LAMP_POSITION_CYCLE 7), (⟨3, 100, 0, false, false, none, none⟩ : Slot), 2, 0, 640, by unfold State.Quiet State.Calm State.Issues; decide +kernel⟩
  · exact ⟨(((image 3 0 0 3458764651301388288 0 (atMode .run)).put LAMP_POSITION_CYCLE 7)).put (HEALTH_PERTN_STATE.el 2) 1, (⟨3, 100, 0, false, false, none, none⟩ : Slot), 2, 0, 640, by unfold State.Quiet State.Calm State.Issues; decide +kernel⟩
  · exact ⟨(image 3 0 0 3530822249592389632 0 (atMode .run)), (⟨3, 100, 0, false, false, none, none⟩ : Slot), 2, 4, by unfold State.Issues; decide +kernel⟩
  · exact ⟨(image 3 0 2 3602879701896396800 0 (atMode .safe)).wr (hdrAddr PG_DISPATCH hdrCTRL) 1, (⟨3, 100, 0, false, false, none, none⟩ : Slot), by unfold State.Issues; decide +kernel⟩
  · exact ⟨(image 3 0 2 3602879701896396800 0 (atMode .safe)), (⟨3, 100, 0, false, false, none, none⟩ : Slot), by unfold State.Quiet State.Calm State.Issues; decide +kernel⟩
  · exact ⟨(image 3 0 2 3602879976774303744 0 (atMode .safe)).wr (hdrAddr PG_DISPATCH hdrCTRL) 1, (⟨3, 100, 0, false, false, none, none⟩ : Slot), by unfold State.Quiet State.Calm State.Issues; decide +kernel⟩
  · exact ⟨(image 3 0 2 3602879976774303744 0 (atMode .safe)), (⟨3, 100, 0, false, false, none, none⟩ : Slot), by unfold State.Quiet State.Calm State.Issues; decide +kernel⟩
  · exact ⟨(image 2 0 2 3674937504240238592 0 (atMode .safe)), (⟨2, 100, 0, false, false, none, none⟩ : Slot), 3, 2, by unfold State.Quiet State.Calm State.Issues; decide +kernel⟩
  · exact ⟨((image 2 0 0 3674937504240238592 0 (atMode .run)).put (BAL_SELSTATE_CUR.at 3) 2).setSel 3 2 1, (⟨2, 100, 0, false, false, none, none⟩ : Slot), 3, 2, by unfold State.Quiet State.Calm State.Issues; decide +kernel⟩
  · exact ⟨((((((((image 2 0 0 3674937504240238592 0 (atMode .run)).put (SLINK_STATE_USABLE.at 3) 1).put (SLINK_CFG_MODULES.at 3) 4).put (SLINK_STATE_COUNT.at 3) 5).wr (hdrAddr (PG_BAL + 3) hdrCTRL) 1).put (BAL_STATE_CODE.at 3) 3)).setLk 3 { linkIdle with nodes := [⟨2, false, false⟩] }), (⟨2, 100, 0, false, false, none, none⟩ : Slot), 3, 2, by unfold State.Issues; decide +kernel⟩

/-- Each clause of SlotFailures has a state and operands that meet its hypotheses. -/
theorem witness_SlotFailures :
    (∃ (s : State) (x : Slot) (used : Nat) (d : Nat) (op : SlotOp), s.slotAt x = some op ∧ (slotOk x = true ∧ s.Quiet ∧ untimed op = false ∧
      used ≤ (if x.rom.isSome then d else s.budget (laneBase x.lane.val + x.word)) ∧ s.injOn PG_LAMP 8 = false)) ∧
    (∃ (s : State) (x : Slot) (op : SlotOp), s.slotAt x = some op ∧ (slotOk x = true ∧ s.Quiet ∧ untimed op = false ∧ s.get LAMP_STATE_CLASS ≠ 7 ∧
      (match op with | .trigger _ _ | .linktx _ _ _ | .select _ _ => false | _ => true) = true)) ∧
    (∃ (s : State) (x : Slot) (b : Nat) (k : Nat), slotOk x = true ∧ s.Quiet ∧ s.slotAt x = some (.trigger b k) ∧ s.get LAMP_STATE_CLASS ≠ 7) ∧
    (∃ (s : State) (x : Slot) (op : SlotOp), s.slotAt x = some op ∧ (slotOk x = true ∧ untimed op = false ∧ s.get LAMP_STATE_CLASS ≠ 7)) ∧
    (∃ (s : State) (x : Slot), slotOk x = true ∧ s.Quiet ∧ s.laneRuns x.lane = true ∧ ((s.lane x.lane).run x.level).phase ≠ .idle) ∧
    (∃ (s : State) (x : Slot), (slotOk x = true ∧ s.Quiet ∧ (s.laneRuns x.lane = false ∨ ((s.lane x.lane).run x.level).phase = .idle))) ∧
    (∃ (s : State) (lane : Fin 6), s.laneHalted lane = false ∧ s.get LAMP_STATE_CLASS ≠ 7) ∧
    (∃ (s : State) (lane : Fin 6), (s.laneHalted lane = true ∨ s.get LAMP_STATE_CLASS = 7)) := by
  refine ⟨?_, ?_, ?_, ?_, ?_, ?_, ?_, ?_⟩
  · exact ⟨(issuing 2 (atMode .safe)), (⟨1, 0, 0, false, false, none, some (.trigger 2 0)⟩ : Slot), 40, 100, (SlotOp.trigger 2 0), rfl, by unfold State.Quiet State.Calm; decide +kernel⟩
  · exact ⟨(issuing 2 (atMode .safe)), (⟨0, 0, 0, false, false, none, some (.comp 17 true)⟩ : Slot), (SlotOp.comp 17 true), rfl, by unfold State.Quiet State.Calm; decide +kernel⟩
  · exact ⟨(issuing 2 (atMode .safe)), (⟨1, 0, 0, false, false, none, some (.trigger 2 0)⟩ : Slot), 2, 0, by unfold State.Quiet State.Calm; decide +kernel⟩
  · exact ⟨(image 2 0 0 2305843010270658560 0 (atMode .run)), (⟨2, 100, 0, false, false, none, none⟩ : Slot), (SlotOp.linktx 0 0 63), rfl, by decide +kernel⟩
  · exact ⟨(issuing 2 (atMode .safe)), (⟨1, 0, 0, false, false, none, some (.nop)⟩ : Slot), by unfold State.Quiet State.Calm; decide +kernel⟩
  · exact ⟨atMode .safe, (⟨1, 0, 0, false, false, none, some (.nop)⟩ : Slot), by unfold State.Quiet State.Calm; decide +kernel⟩
  · exact ⟨(issuing 2 (atMode .safe)), 2, by decide +kernel⟩
  · exact ⟨(issuing 2 (atMode .safe)).put LAMP_STATE_HALTED 4, 2, by decide +kernel⟩

/-- Each clause of RelightAndStores has a state and operands that meet its hypotheses. -/
theorem witness_RelightAndStores :
    (∃ (s : State) (m : Master) (v : Word), s.accepts m = true ∧ hostMaster m = true ∧ s.Quiet ∧ v.toNat / 0x10000 ≠ 0x5A17) ∧
    (∃ (s : State) (m : Master) (v : Word), s.accepts m = true ∧ hostMaster m = true ∧ s.Quiet ∧ v.toNat / 0x10000 = 0x5A17 ∧ s.mode ≠ .run ∧ s.mode ≠ .service) ∧
    (∃ (s : State) (m : Master) (v : Word), (s.accepts m = true ∧ hostMaster m = true ∧ s.Quiet ∧ v.toNat / 0x10000 = 0x5A17 ∧ (s.mode = .run ∨ s.mode = .service) ∧
      (s.litBank ≠ v.toNat % 4 ∨ s.on LAMP_STATE_BANKSTALE = true) ∧ (v.toNat % 4 = 1 ∨ v.toNat % 4 = 2) ∧ s.bankState (v.toNat % 4) = 2 ∧
      s.get LAMP_STATE_RELIGHT = 0 ∧ s.lamp.coldStage = 0 ∧ (s.warmOk (v.toNat % 4) = false ∨ bitOf v.toNat 4 = true))) ∧
    (∃ (s : State) (m : Master) (v : Word), (s.accepts m = true ∧ hostMaster m = true ∧ s.Quiet ∧ v.toNat / 0x10000 = 0x5A17 ∧ (s.mode = .run ∨ s.mode = .service) ∧
      v.toNat % 4 ≠ 0 ∧ v.toNat % 4 = s.litBank ∧ s.on LAMP_STATE_BANKSTALE = false)) ∧
    (∃ (s : State) (m : Master) (v : Word), (s.accepts m = true ∧ hostMaster m = true ∧ s.Quiet ∧ v.toNat / 0x10000 = 0x5A17 ∧ (s.mode = .run ∨ s.mode = .service) ∧
      (v.toNat % 4 = 0 ∨ s.litBank ≠ v.toNat % 4 ∨ s.on LAMP_STATE_BANKSTALE = true) ∧ (v.toNat % 4 = 0 ∨ v.toNat % 4 = 3 ∨
      s.bankState (v.toNat % 4) ≠ 2))) ∧
    (∃ (s : State) (m : Master) (v : Word), (s.accepts m = true ∧ hostMaster m = true ∧ s.Quiet ∧ v.toNat / 0x10000 = 0x5A17 ∧ (s.mode = .run ∨ s.mode = .service) ∧
      (v.toNat % 4 = 1 ∨ v.toNat % 4 = 2) ∧ (s.litBank ≠ v.toNat % 4 ∨ s.on LAMP_STATE_BANKSTALE = true) ∧ s.bankState (v.toNat % 4) = 2 ∧
      (s.get LAMP_STATE_RELIGHT ≠ 0 ∨ s.lamp.coldStage ≠ 0))) ∧
    (∃ (s : State) (m : Master) (v : Word), (s.accepts m = true ∧ hostMaster m = true ∧ s.Quiet ∧ v.toNat / 0x10000 = 0x5A17 ∧ s.mode = .run ∧ (v.toNat % 4 = 1 ∨
      v.toNat % 4 = 2) ∧ s.get LAMP_STATE_RELIGHT = 0 ∧ s.lamp.coldStage = 0 ∧ s.warmOk (v.toNat % 4) = true ∧ bitOf v.toNat 4 = false)) ∧
    (∃ (s : State), ((s.get LAMP_STATE_RELIGHT ≠ 1 ∨ s.lamp.relightCold = true) ∧ s.Quiet)) ∧
    (∃ (s : State), s.get LAMP_STATE_RELIGHT = 1 ∧ s.lamp.relightCold = false ∧ s.Quiet) ∧
    (∃ (s : State), ((s.lamp.coldStage ≠ 2 ∨ s.litBank ≠ 0) ∧ s.Quiet)) ∧
    (∃ (s : State), s.lamp.coldStage = 2 ∧ s.litBank = 0 ∧ s.lamp.autoRun = false ∧ s.Quiet) ∧
    (∃ (s : State) (m : Master) (addr : BitVec 24), s.accepts m = true ∧ hostMaster m = true ∧ s.Quiet ∧ addr.toNat % 4 = 0 ∧ 0x180000 ≤ addr.toNat ∧ addr.toNat < 0x198000 ∧
      s.litBank = 0) ∧
    (∃ (s : State) (m : Master) (addr : BitVec 24) (lane : Fin 6), s.accepts m = true ∧ hostMaster m = true ∧ s.Quiet ∧ addr.toNat % 4 = 0 ∧ 0x180000 + laneBase lane.val * 8 ≤ addr.toNat ∧
      (addr.toNat - 0x180000) / 8 < laneBase lane.val + laneWords lane.val ∧ s.litBank ≠ 0 ∧
      laneBase lane.val + s.get (LAMP_BASE_FIRST.el lane.val) ≤ (addr.toNat - 0x180000) / 8 ∧
      (addr.toNat - 0x180000) / 8 < laneBase lane.val + s.get (LAMP_BASE_FIRST.el lane.val) + nth s.lamp.litLen lane.val) ∧
    (∃ (s : State) (m : Master) (addr : BitVec 24) (lane : Fin 6), (s.accepts m = true ∧ hostMaster m = true ∧ s.Quiet ∧ addr.toNat % 4 = 0 ∧ 0x180000 + laneBase lane.val * 8 ≤ addr.toNat ∧
      (addr.toNat - 0x180000) / 8 < laneBase lane.val + laneWords lane.val ∧ s.litBank ≠ 0 ∧
      ((addr.toNat - 0x180000) / 8 < laneBase lane.val + s.get (LAMP_BASE_FIRST.el lane.val) ∨
      laneBase lane.val + s.get (LAMP_BASE_FIRST.el lane.val) + nth s.lamp.litLen lane.val ≤ (addr.toNat - 0x180000) / 8))) ∧
    (∃ (s : State) (m : Master), s.accepts m = true ∧ hostMaster m = true ∧ s.Quiet ∧ s.get LAMP_BUDGET_ADDR_WORD ≤ 12287) ∧
    (∃ (s : State) (m : Master), s.accepts m = true ∧ s.Quiet ∧ s.injOn PG_LAMP 0 = false ∧ s.get LAMP_BUDGET_ADDR_WORD ≤ 12287) ∧
    (∃ (s : State) (m : Master) (addr : BitVec 24), s.accepts m = true ∧ hostMaster m = true ∧ s.Quiet ∧ addr.toNat % 4 = 0 ∧ 0x1A4000 ≤ addr.toNat ∧ addr.toNat < 0x1AD000 ∧
      s.op = none) := by
  refine ⟨?_, ?_, ?_, ?_, ?_, ?_, ?_, ?_, ?_, ?_, ?_, ?_, ?_, ?_, ?_, ?_, ?_⟩
  · exact ⟨atMode .run, Master.spi, 0x5A180001, by unfold State.Quiet State.Calm; decide +kernel⟩
  · exact ⟨atMode .safe, Master.spi, 0x5A170001, by unfold State.Quiet State.Calm; decide +kernel⟩
  · exact ⟨(atMode .service).store (sealAddr 1) 4 2, Master.spi, 0x5A170011, by unfold State.Quiet State.Calm; decide +kernel⟩
  · exact ⟨(atMode .run).put LAMP_STATE_SOURCE 2, Master.spi, 0x5A170001, by unfold State.Quiet State.Calm; decide +kernel⟩
  · exact ⟨atMode .run, Master.spi, 0x5A170001, by unfold State.Quiet State.Calm; decide +kernel⟩
  · exact ⟨((atMode .run).put LAMP_STATE_RELIGHT 1).store (sealAddr 1) 4 2, Master.spi, 0x5A170001, by unfold State.Quiet State.Calm; decide +kernel⟩
  · exact ⟨((atMode .run).put LAMP_STATE_SOURCE 3).store (sealAddr 1) 4 2, Master.spi, 0x5A170001, by unfold State.Quiet State.Calm; decide +kernel⟩
  · exact ⟨atMode .run, by unfold State.Quiet State.Calm; decide +kernel⟩
  · exact ⟨{ (atMode .run).put LAMP_STATE_RELIGHT 1 with lamp := { (atMode .run).lamp with relightBank := 1 } }, by unfold State.Quiet State.Calm; decide +kernel⟩
  · exact ⟨atMode .run, by unfold State.Quiet State.Calm; decide +kernel⟩
  · exact ⟨{ (atMode .service).put LAMP_STATE_RELIGHT 1 with lamp := { (atMode .service).lamp with relightBank := 1, coldStage := 2 } }, by unfold State.Quiet State.Calm; decide +kernel⟩
  · exact ⟨atMode .safe, Master.spi, 0x180008, by unfold State.Quiet State.Calm; decide +kernel⟩
  · exact ⟨{ (atMode .run).put LAMP_STATE_SOURCE 2 with lamp := { (atMode .run).lamp with litLen := [4, 4, 4, 4, 4, 4] } }, Master.spi, 0x180008, 0, by unfold State.Quiet State.Calm; decide +kernel⟩
  · exact ⟨{ (atMode .run).put LAMP_STATE_SOURCE 2 with lamp := { (atMode .run).lamp with litLen := [4, 4, 4, 4, 4, 4] } }, Master.spi, 0x180108, 0, by unfold State.Quiet State.Calm; decide +kernel⟩
  · exact ⟨(atMode .safe).put LAMP_BUDGET_ADDR_WORD 7, Master.spi, by unfold State.Quiet State.Calm; decide +kernel⟩
  · exact ⟨(atMode .safe).put LAMP_BUDGET_ADDR_WORD 7, Master.spi, by unfold State.Quiet State.Calm; decide +kernel⟩
  · exact ⟨(atMode .safe).put OCV_VALID_RAM 15, Master.spi, 0x1A4004, by unfold State.Quiet State.Calm; decide +kernel⟩

/-- Each clause of ImageAtticCommands has a state and operands that meet its hypotheses. -/
theorem witness_ImageAtticCommands :
    (∃ (s : State) (m : Master) (key : BitVec 16) (bank : BitVec 2), (s.accepts m = true ∧ hostMaster m = true ∧ s.Quiet ∧ s.enabled PG_IMAGE = true ∧ key = 0x1A6E ∧ (bank = 1 ∨ bank = 2) ∧
      s.bankLoading bank.toNat = false ∧ segmentBad (s.get IMAGE_SEG_OFS_OFS) (s.get IMAGE_SEG_LEN_LEN) = false)) ∧
    (∃ (s : State) (m : Master) (key : BitVec 16) (bank : BitVec 2), (s.accepts m = true ∧ hostMaster m = true ∧ s.Quiet ∧ s.enabled PG_IMAGE = true ∧ key = 0x1A6E ∧ (bank = 1 ∨ bank = 2) ∧
      s.bankLoading bank.toNat = false ∧ s.bankState bank.toNat ≠ 0)) ∧
    (∃ (s : State) (m : Master) (key : BitVec 16) (bank : BitVec 2), (s.accepts m = true ∧ hostMaster m = true ∧ s.Quiet ∧ s.enabled PG_IMAGE = true ∧ key = 0x1A6E ∧ (bank = 1 ∨ bank = 2) ∧
      s.bankLoading bank.toNat = false)) ∧
    (∃ (s : State) (m : Master) (key : BitVec 16) (bank : BitVec 2), (s.accepts m = true ∧ hostMaster m = true ∧ s.Quiet ∧ s.enabled PG_IMAGE = true ∧ key = 0x1A6E ∧ (bank = 1 ∨ bank = 2) ∧
      s.bankLoading bank.toNat = false ∧ s.bankState bank.toNat ≠ 0)) ∧
    (∃ (s : State) (m : Master) (key : BitVec 16), s.accepts m = true ∧ hostMaster m = true ∧ s.Quiet ∧ s.enabled PG_IMAGE = true ∧ key ≠ 0x1A6E) ∧
    (∃ (s : State) (m : Master) (key : BitVec 16), s.accepts m = true ∧ hostMaster m = true ∧ s.Quiet ∧ s.enabled PG_IMAGE = true ∧ key ≠ 0x1A6E) ∧
    (∃ (s : State) (m : Master) (key : BitVec 16), s.accepts m = true ∧ hostMaster m = true ∧ s.Quiet ∧ s.enabled PG_IMAGE = true ∧ key ≠ 0x1A6E) ∧
    (∃ (s : State) (m : Master) (key : BitVec 16), s.accepts m = true ∧ hostMaster m = true ∧ s.Quiet ∧ s.enabled PG_IMAGE = true ∧ key ≠ 0x1A6E) ∧
    (∃ (s : State) (m : Master), s.accepts m = true ∧ hostMaster m = true ∧ s.Quiet ∧ s.enabled PG_IMAGE = false) ∧
    (∃ (s : State) (m : Master) (key : BitVec 16) (bank : BitVec 2), (s.accepts m = true ∧ hostMaster m = true ∧ s.Quiet ∧ s.enabled PG_IMAGE = true ∧ key = 0x1A6E ∧ (bank = 0 ∨ bank = 3))) ∧
    (∃ (s : State) (m : Master), s.accepts m = true ∧ hostMaster m = true ∧ s.Quiet ∧ s.enabled PG_IMAGE = false) ∧
    (∃ (s : State) (m : Master) (key : BitVec 16) (bank : BitVec 2), (s.accepts m = true ∧ hostMaster m = true ∧ s.Quiet ∧ s.enabled PG_IMAGE = true ∧ key = 0x1A6E ∧ (bank = 0 ∨ bank = 3))) ∧
    (∃ (s : State) (m : Master), s.accepts m = true ∧ hostMaster m = true ∧ s.Quiet ∧ s.enabled PG_IMAGE = false) ∧
    (∃ (s : State) (m : Master) (key : BitVec 16) (bank : BitVec 2), (s.accepts m = true ∧ hostMaster m = true ∧ s.Quiet ∧ s.enabled PG_IMAGE = true ∧ key = 0x1A6E ∧ (bank = 0 ∨ bank = 3))) ∧
    (∃ (s : State) (m : Master), s.accepts m = true ∧ hostMaster m = true ∧ s.Quiet ∧ s.enabled PG_IMAGE = false) ∧
    (∃ (s : State) (m : Master) (key : BitVec 16) (bank : BitVec 2), (s.accepts m = true ∧ hostMaster m = true ∧ s.Quiet ∧ s.enabled PG_IMAGE = true ∧ key = 0x1A6E ∧ (bank = 0 ∨ bank = 3))) ∧
    (∃ (s : State) (m : Master) (key : BitVec 16) (bank : BitVec 2), (s.accepts m = true ∧ hostMaster m = true ∧ s.Quiet ∧ s.enabled PG_IMAGE = true ∧ key = 0x1A6E ∧ (bank = 1 ∨ bank = 2) ∧
      segmentBad (s.get IMAGE_SEG_OFS_OFS) (s.get IMAGE_SEG_LEN_LEN) = true)) ∧
    (∃ (s : State) (m : Master) (key : BitVec 16) (bank : BitVec 2), (s.accepts m = true ∧ hostMaster m = true ∧ s.Quiet ∧ s.enabled PG_IMAGE = true ∧ key = 0x1A6E ∧ (bank = 1 ∨ bank = 2) ∧
      s.bankLoading bank.toNat = true)) ∧
    (∃ (s : State) (m : Master) (key : BitVec 16) (bank : BitVec 2), (s.accepts m = true ∧ hostMaster m = true ∧ s.Quiet ∧ s.enabled PG_IMAGE = true ∧ key = 0x1A6E ∧ (bank = 1 ∨ bank = 2) ∧
      s.bankLoading bank.toNat = true)) ∧
    (∃ (s : State) (m : Master) (key : BitVec 16) (bank : BitVec 2), (s.accepts m = true ∧ hostMaster m = true ∧ s.Quiet ∧ s.enabled PG_IMAGE = true ∧ key = 0x1A6E ∧ (bank = 1 ∨ bank = 2) ∧
      s.bankLoading bank.toNat = true)) ∧
    (∃ (s : State) (m : Master) (key : BitVec 16) (bank : BitVec 2), (s.accepts m = true ∧ hostMaster m = true ∧ s.Quiet ∧ s.enabled PG_IMAGE = true ∧ key = 0x1A6E ∧ (bank = 1 ∨ bank = 2) ∧
      s.bankLoading bank.toNat = true ∧ segmentBad (s.get IMAGE_SEG_OFS_OFS) (s.get IMAGE_SEG_LEN_LEN) = false)) ∧
    (∃ (s : State) (m : Master) (key : BitVec 16) (bank : BitVec 2), (s.accepts m = true ∧ hostMaster m = true ∧ s.Quiet ∧ s.enabled PG_IMAGE = true ∧ key = 0x1A6E ∧ (bank = 1 ∨ bank = 2) ∧
      s.bankLoading bank.toNat = false ∧ s.bankState bank.toNat = 0)) ∧
    (∃ (s : State) (m : Master) (key : BitVec 16) (bank : BitVec 2), (s.accepts m = true ∧ hostMaster m = true ∧ s.Quiet ∧ s.enabled PG_IMAGE = true ∧ key = 0x1A6E ∧ (bank = 1 ∨ bank = 2) ∧
      s.bankLoading bank.toNat = false ∧ s.bankState bank.toNat = 0)) ∧
    (∃ (s : State) (m : Master) (key : BitVec 16), s.accepts m = true ∧ hostMaster m = true ∧ s.Quiet ∧ s.enabled PG_ATTIC = true ∧ key = 0xA7C0 ∧
      configBad (s.get ATTIC_SEG_OFS_OFS) (s.get ATTIC_SEG_LEN_LEN) = false) ∧
    (∃ (s : State) (m : Master) (key : BitVec 16), s.accepts m = true ∧ hostMaster m = true ∧ s.Quiet ∧ s.enabled PG_ATTIC = true ∧ key ≠ 0xA7C0) ∧
    (∃ (s : State) (m : Master) (key : BitVec 16), s.accepts m = true ∧ hostMaster m = true ∧ s.Quiet ∧ s.enabled PG_ATTIC = true ∧ key = 0xA7C0 ∧
      configBad (s.get ATTIC_SEG_OFS_OFS) (s.get ATTIC_SEG_LEN_LEN) = false) ∧
    (∃ (s : State) (m : Master) (key : BitVec 16), s.accepts m = true ∧ hostMaster m = true ∧ s.Quiet ∧ s.enabled PG_ATTIC = true ∧ key ≠ 0xA7C0) ∧
    (∃ (s : State) (m : Master), s.accepts m = true ∧ hostMaster m = true ∧ s.Quiet ∧ s.enabled PG_ATTIC = false) ∧
    (∃ (s : State) (m : Master) (key : BitVec 16), s.accepts m = true ∧ hostMaster m = true ∧ s.Quiet ∧ s.enabled PG_ATTIC = true ∧ key = 0xA7C0 ∧
      configBad (s.get ATTIC_SEG_OFS_OFS) (s.get ATTIC_SEG_LEN_LEN) = true) ∧
    (∃ (s : State) (m : Master), s.accepts m = true ∧ hostMaster m = true ∧ s.Quiet ∧ s.enabled PG_ATTIC = false) ∧
    (∃ (s : State) (m : Master) (key : BitVec 16), s.accepts m = true ∧ hostMaster m = true ∧ s.Quiet ∧ s.enabled PG_ATTIC = true ∧ key = 0xA7C0 ∧
      configBad (s.get ATTIC_SEG_OFS_OFS) (s.get ATTIC_SEG_LEN_LEN) = true) ∧
    (∃ (s : State) (m : Master) (key : BitVec 16), s.accepts m = true ∧ hostMaster m = true ∧ s.Quiet ∧ s.enabled PG_OCV = true ∧ key = 0x0C7A) ∧
    (∃ (s : State) (m : Master) (key : BitVec 16), s.accepts m = true ∧ hostMaster m = true ∧ s.Quiet ∧ s.enabled PG_OCV = true ∧ key ≠ 0x0C7A) ∧
    (∃ (s : State) (m : Master) (key : BitVec 16), s.accepts m = true ∧ hostMaster m = true ∧ s.Quiet ∧ s.enabled PG_OCV = true ∧ key = 0x0C7A) ∧
    (∃ (s : State) (m : Master) (key : BitVec 16), s.accepts m = true ∧ hostMaster m = true ∧ s.Quiet ∧ s.enabled PG_OCV = true ∧ key ≠ 0x0C7A) ∧
    (∃ (s : State) (m : Master) (key : BitVec 16), s.accepts m = true ∧ hostMaster m = true ∧ s.Quiet ∧ s.enabled PG_OCV = true ∧ key = 0x0C7A) ∧
    (∃ (s : State) (m : Master) (key : BitVec 16), s.accepts m = true ∧ hostMaster m = true ∧ s.Quiet ∧ s.enabled PG_OCV = true ∧ key ≠ 0x0C7A) ∧
    (∃ (s : State) (m : Master), s.accepts m = true ∧ hostMaster m = true ∧ s.Quiet ∧ s.enabled PG_OCV = false) ∧
    (∃ (s : State) (m : Master), s.accepts m = true ∧ hostMaster m = true ∧ s.Quiet ∧ s.enabled PG_OCV = false) ∧
    (∃ (s : State) (m : Master), s.accepts m = true ∧ hostMaster m = true ∧ s.Quiet ∧ s.enabled PG_OCV = false) := by
  refine ⟨?_, ?_, ?_, ?_, ?_, ?_, ?_, ?_, ?_, ?_, ?_, ?_, ?_, ?_, ?_, ?_, ?_, ?_, ?_, ?_, ?_, ?_, ?_, ?_, ?_, ?_, ?_, ?_, ?_, ?_, ?_, ?_, ?_, ?_, ?_, ?_, ?_, ?_, ?_, ?_⟩
  · exact ⟨(((atMode .safe).wr (hdrAddr PG_IMAGE hdrCTRL) 1).store (sealAddr 1) 4 2).put IMAGE_SEG_LEN_LEN 64, Master.spi, 0x1A6E, 1, by unfold State.Quiet State.Calm; decide +kernel⟩
  · exact ⟨((atMode .safe).wr (hdrAddr PG_IMAGE hdrCTRL) 1).store (sealAddr 1) 4 2, Master.spi, 0x1A6E, 1, by unfold State.Quiet State.Calm; decide +kernel⟩
  · exact ⟨((atMode .safe).wr (hdrAddr PG_IMAGE hdrCTRL) 1).store (sealAddr 1) 4 2, Master.spi, 0x1A6E, 1, by unfold State.Quiet State.Calm; decide +kernel⟩
  · exact ⟨((atMode .safe).wr (hdrAddr PG_IMAGE hdrCTRL) 1).store (sealAddr 1) 4 2, Master.spi, 0x1A6E, 1, by unfold State.Quiet State.Calm; decide +kernel⟩
  · exact ⟨((atMode .safe).wr (hdrAddr PG_IMAGE hdrCTRL) 1).store (sealAddr 1) 4 2, Master.spi, 0x1A6F, by unfold State.Quiet State.Calm; decide +kernel⟩
  · exact ⟨((atMode .safe).wr (hdrAddr PG_IMAGE hdrCTRL) 1).store (sealAddr 1) 4 2, Master.spi, 0x1A6F, by unfold State.Quiet State.Calm; decide +kernel⟩
  · exact ⟨((atMode .safe).wr (hdrAddr PG_IMAGE hdrCTRL) 1).store (sealAddr 1) 4 2, Master.spi, 0x1A6F, by unfold State.Quiet State.Calm; decide +kernel⟩
  · exact ⟨((atMode .safe).wr (hdrAddr PG_IMAGE hdrCTRL) 1).store (sealAddr 1) 4 2, Master.spi, 0x1A6F, by unfold State.Quiet State.Calm; decide +kernel⟩
  · exact ⟨atMode .safe, Master.spi, by unfold State.Quiet State.Calm; decide +kernel⟩
  · exact ⟨((atMode .safe).wr (hdrAddr PG_IMAGE hdrCTRL) 1).store (sealAddr 1) 4 2, Master.spi, 0x1A6E, 3, by unfold State.Quiet State.Calm; decide +kernel⟩
  · exact ⟨atMode .safe, Master.spi, by unfold State.Quiet State.Calm; decide +kernel⟩
  · exact ⟨((atMode .safe).wr (hdrAddr PG_IMAGE hdrCTRL) 1).store (sealAddr 1) 4 2, Master.spi, 0x1A6E, 3, by unfold State.Quiet State.Calm; decide +kernel⟩
  · exact ⟨atMode .safe, Master.spi, by unfold State.Quiet State.Calm; decide +kernel⟩
  · exact ⟨((atMode .safe).wr (hdrAddr PG_IMAGE hdrCTRL) 1).store (sealAddr 1) 4 2, Master.spi, 0x1A6E, 3, by unfold State.Quiet State.Calm; decide +kernel⟩
  · exact ⟨atMode .safe, Master.spi, by unfold State.Quiet State.Calm; decide +kernel⟩
  · exact ⟨((atMode .safe).wr (hdrAddr PG_IMAGE hdrCTRL) 1).store (sealAddr 1) 4 2, Master.spi, 0x1A6E, 3, by unfold State.Quiet State.Calm; decide +kernel⟩
  · exact ⟨((atMode .safe).wr (hdrAddr PG_IMAGE hdrCTRL) 1).store (sealAddr 1) 4 2, Master.spi, 0x1A6E, 1, by unfold State.Quiet State.Calm; decide +kernel⟩
  · exact ⟨{ ((((atMode .safe).wr (hdrAddr PG_IMAGE hdrCTRL) 1).store (sealAddr 1) 4 2).put LAMP_STATE_RELIGHT 2).put IMAGE_SEG_LEN_LEN 64 with lamp := { (atMode .safe).lamp with relightBank := 1, coldStage := 2 } }, Master.spi, 0x1A6E, 1, by unfold State.Quiet State.Calm; decide +kernel⟩
  · exact ⟨{ ((((atMode .safe).wr (hdrAddr PG_IMAGE hdrCTRL) 1).store (sealAddr 1) 4 2).put LAMP_STATE_RELIGHT 2).put IMAGE_SEG_LEN_LEN 64 with lamp := { (atMode .safe).lamp with relightBank := 1, coldStage := 2 } }, Master.spi, 0x1A6E, 1, by unfold State.Quiet State.Calm; decide +kernel⟩
  · exact ⟨{ ((((atMode .safe).wr (hdrAddr PG_IMAGE hdrCTRL) 1).store (sealAddr 1) 4 2).put LAMP_STATE_RELIGHT 2).put IMAGE_SEG_LEN_LEN 64 with lamp := { (atMode .safe).lamp with relightBank := 1, coldStage := 2 } }, Master.spi, 0x1A6E, 1, by unfold State.Quiet State.Calm; decide +kernel⟩
  · exact ⟨{ ((((atMode .safe).wr (hdrAddr PG_IMAGE hdrCTRL) 1).store (sealAddr 1) 4 2).put LAMP_STATE_RELIGHT 2).put IMAGE_SEG_LEN_LEN 64 with lamp := { (atMode .safe).lamp with relightBank := 1, coldStage := 2 } }, Master.spi, 0x1A6E, 1, by unfold State.Quiet State.Calm; decide +kernel⟩
  · exact ⟨(atMode .safe).wr (hdrAddr PG_IMAGE hdrCTRL) 1, Master.spi, 0x1A6E, 1, by unfold State.Quiet State.Calm; decide +kernel⟩
  · exact ⟨(atMode .safe).wr (hdrAddr PG_IMAGE hdrCTRL) 1, Master.spi, 0x1A6E, 1, by unfold State.Quiet State.Calm; decide +kernel⟩
  · exact ⟨((atMode .safe).wr (hdrAddr PG_ATTIC hdrCTRL) 1).put ATTIC_SEG_LEN_LEN 64, Master.spi, 0xA7C0, by unfold State.Quiet State.Calm; decide +kernel⟩
  · exact ⟨(atMode .safe).wr (hdrAddr PG_ATTIC hdrCTRL) 1, Master.spi, 0xA7C1, by unfold State.Quiet State.Calm; decide +kernel⟩
  · exact ⟨((atMode .safe).wr (hdrAddr PG_ATTIC hdrCTRL) 1).put ATTIC_SEG_LEN_LEN 64, Master.spi, 0xA7C0, by unfold State.Quiet State.Calm; decide +kernel⟩
  · exact ⟨(atMode .safe).wr (hdrAddr PG_ATTIC hdrCTRL) 1, Master.spi, 0xA7C1, by unfold State.Quiet State.Calm; decide +kernel⟩
  · exact ⟨atMode .safe, Master.spi, by unfold State.Quiet State.Calm; decide +kernel⟩
  · exact ⟨((atMode .safe).wr (hdrAddr PG_ATTIC hdrCTRL) 1).put ATTIC_SEG_LEN_LEN 1, Master.spi, 0xA7C0, by unfold State.Quiet State.Calm; decide +kernel⟩
  · exact ⟨atMode .safe, Master.spi, by unfold State.Quiet State.Calm; decide +kernel⟩
  · exact ⟨((atMode .safe).wr (hdrAddr PG_ATTIC hdrCTRL) 1).put ATTIC_SEG_LEN_LEN 1, Master.spi, 0xA7C0, by unfold State.Quiet State.Calm; decide +kernel⟩
  · exact ⟨(atMode .safe).wr (hdrAddr PG_OCV hdrCTRL) 1, Master.spi, 0x0C7A, by unfold State.Quiet State.Calm; decide +kernel⟩
  · exact ⟨(atMode .safe).wr (hdrAddr PG_OCV hdrCTRL) 1, Master.spi, 0x0C7B, by unfold State.Quiet State.Calm; decide +kernel⟩
  · exact ⟨(atMode .safe).wr (hdrAddr PG_OCV hdrCTRL) 1, Master.spi, 0x0C7A, by unfold State.Quiet State.Calm; decide +kernel⟩
  · exact ⟨(atMode .safe).wr (hdrAddr PG_OCV hdrCTRL) 1, Master.spi, 0x0C7B, by unfold State.Quiet State.Calm; decide +kernel⟩
  · exact ⟨(atMode .safe).wr (hdrAddr PG_OCV hdrCTRL) 1, Master.spi, 0x0C7A, by unfold State.Quiet State.Calm; decide +kernel⟩
  · exact ⟨(atMode .safe).wr (hdrAddr PG_OCV hdrCTRL) 1, Master.spi, 0x0C7B, by unfold State.Quiet State.Calm; decide +kernel⟩
  · exact ⟨atMode .safe, Master.spi, by unfold State.Quiet State.Calm; decide +kernel⟩
  · exact ⟨atMode .safe, Master.spi, by unfold State.Quiet State.Calm; decide +kernel⟩
  · exact ⟨atMode .safe, Master.spi, by unfold State.Quiet State.Calm; decide +kernel⟩

/-- Each clause of Sampling has a state and operands that meet its hypotheses. -/
theorem witness_Sampling :
    (∃ (s : State) (m : Master) (bank : Fin 4) (seq : BitVec 2), s.accepts m = true ∧ hostMaster m = true ∧ s.Quiet ∧ s.enabled (adcPage bank) = true ∧ s.bankBusy bank = false ∧ s.dev.pll = true ∧
      s.seqLen bank seq.toNat ≠ 0) ∧
    (∃ (s : State) (m : Master) (bank : Fin 4), s.accepts m = true ∧ hostMaster m = true ∧ s.Quiet ∧ s.enabled (adcPage bank) = true ∧ s.bankBusy bank = true) ∧
    (∃ (s : State) (m : Master) (bank : Fin 4), s.accepts m = true ∧ hostMaster m = true ∧ s.Quiet ∧ s.enabled (adcPage bank) = false ∧ s.dev.pll = true) ∧
    (∃ (s : State) (m : Master) (bank : Fin 4) (seq : BitVec 2), s.accepts m = true ∧ hostMaster m = true ∧ s.Quiet ∧ s.enabled (adcPage bank) = true ∧ s.bankBusy bank = false ∧ s.dev.pll = true ∧
      s.seqLen bank seq.toNat = 0) ∧
    (∃ (s : State) (bank : Fin 4) (entry : Fin 16) (onReleased : Bool) (e : Nat × Nat), (s.bank bank).table[entry.val]? = some e ∧ (s.Quiet ∧ s.dev.pll = true ∧ s.convSlice bank (bitsOf e.1 0 6) onReleased ≠ 7 ∧
      (bitsOf e.1 14 2 < 2 ∨ (bitsOf e.1 14 2 = 2 ∧ dinUnitOk (bitsOf e.1 16 6) = false)))) ∧
    (∃ (s : State) (bank : Fin 4) (entry : Fin 16) (onReleased : Bool) (e : Nat × Nat), (s.bank bank).table[entry.val]? = some e ∧ (s.Quiet ∧ s.dev.pll = true ∧ s.convSlice bank (bitsOf e.1 0 6) onReleased ≠ 7 ∧
      bitsOf e.1 14 2 = 3)) ∧
    (∃ (s : State) (bank : Fin 4) (entry : Fin 16) (onReleased : Bool) (e : Nat × Nat), (s.bank bank).table[entry.val]? = some e ∧ (s.Quiet ∧ (s.dev.pll = false ∨ s.convSlice bank (bitsOf e.1 0 6) onReleased = 7))) ∧
    (∃ (s : State) (bank : Fin 4) (entry : Fin 16), s.Quiet ∧ (s.bank bank).table.length ≤ entry.val) ∧
    (∃ (s : State) (bank : Fin 4), (s.on (adcF ADC_STATE_BUSY bank) = true ∧ s.dev.freset.contains (adcPage bank) = false ∧ (bank ≠ 3 ∨
      s.get (adcF ADC_STATE_SEQ bank) ≠ 3))) ∧
    (∃ (s : State), s.on (adcF ADC_STATE_BUSY 3) = true ∧ s.dev.freset.contains (adcPage 3) = false ∧ s.get (adcF ADC_STATE_SEQ 3) = 3) ∧
    (∃ (s : State) (bank : Fin 4), (s.on (adcF ADC_STATE_BUSY bank) = false ∨ (s.dev.freset.contains (adcPage bank) = true ∧ (bank ≠ 3 ∨
      s.get (adcF ADC_STATE_SEQ 3) ≠ 3)))) ∧
    (∃ (s : State) (bank : Fin 4), s.dev.pll = true ∧ (s.bank bank).sweeping = false ∧ s.on (adcF ADC_CAL_CTRL_BGEN bank) = true ∧
      s.get (adcF ADC_STATE_RETIRED bank) = 0 ∧ s.on (adcF ADC_CAL_BUSY bank) = false ∧
      s.get (adcF ADC_COUNT_ROUND32 bank) = 8 * bank.val ∧ (s.bank bank).retry = none ∧ s.get (adcF ADC_STATE_SPARE bank) ≠ 7 ∧
      (s.bank bank).nextPos < 4) ∧
    (∃ (s : State) (bank : Fin 4), (s.dev.pll = false ∨ (s.bank bank).sweeping = true ∨ s.on (adcF ADC_CAL_CTRL_BGEN bank) = false ∨
      s.get (adcF ADC_STATE_RETIRED bank) ≠ 0 ∨ s.on (adcF ADC_CAL_BUSY bank) = true ∨ s.get (adcF ADC_COUNT_ROUND32 bank) ≠ 8 * bank.val)) ∧
    (∃ (s : State) (bank : Fin 4), s.dev.pll = true ∧ (s.bank bank).sweeping = false ∧ s.on (adcF ADC_CAL_CTRL_BGEN bank) = true ∧
      s.get (adcF ADC_STATE_RETIRED bank) = 0 ∧ s.on (adcF ADC_CAL_BUSY bank) = false ∧
      s.get (adcF ADC_COUNT_ROUND32 bank) = 8 * bank.val ∧ (s.bank bank).retry = none ∧ s.get (adcF ADC_STATE_SPARE bank) = 7) ∧
    (∃ (s : State) (bank : Fin 4) (x : Nat), s.dev.pll = true ∧ (s.bank bank).sweeping = false ∧ s.on (adcF ADC_CAL_CTRL_BGEN bank) = true ∧
      s.get (adcF ADC_STATE_RETIRED bank) = 0 ∧ s.on (adcF ADC_CAL_BUSY bank) = false ∧
      s.get (adcF ADC_COUNT_ROUND32 bank) = 8 * bank.val ∧ (s.bank bank).retry = some x) ∧
    (∃ (s : State) (bank : Fin 4) (m : CalMeas), s.Quiet ∧ s.dev.pll = true ∧ s.on (adcF ADC_CAL_BUSY bank) = true ∧ (s.bank bank).sweeping = false ∧
      s.get (adcF ADC_CAL_SLICE bank) < 5 ∧ s.injOn (adcPage bank) 2 = false ∧ calPass m = true ∧ s.get (adcF ADC_STATE_SPARE bank) = 7) ∧
    (∃ (s : State) (bank : Fin 4) (m : CalMeas), (s.Quiet ∧ s.dev.pll = true ∧ s.on (adcF ADC_CAL_BUSY bank) = true ∧ (s.bank bank).sweeping = false ∧
      s.get (adcF ADC_CAL_SLICE bank) < 5 ∧ (calPass m = false ∨ s.injOn (adcPage bank) 2 = true) ∧
      (s.bank bank).retry ≠ some (s.get (adcF ADC_CAL_SLICE bank)))) ∧
    (∃ (s : State) (bank : Fin 4) (m : CalMeas), (s.Quiet ∧ s.dev.pll = true ∧ s.on (adcF ADC_CAL_BUSY bank) = true ∧ (s.bank bank).sweeping = false ∧
      s.get (adcF ADC_CAL_SLICE bank) < 5 ∧ (calPass m = false ∨ s.injOn (adcPage bank) 2 = true) ∧
      (s.bank bank).retry = some (s.get (adcF ADC_CAL_SLICE bank)))) ∧
    (∃ (s : State) (bank : Fin 4), (s.Quiet ∧ (s.dev.pll = false ∨ s.on (adcF ADC_CAL_BUSY bank) = false ∨ s.get (adcF ADC_CAL_SLICE bank) = 7))) ∧
    (∃ (s : State) (m : Master), (s.accepts m = true ∧ hostMaster m = true ∧ s.Quiet ∧ (∀ c : Fin 4, s.on (adcF ADC_CAL_BUSY c) = true))) ∧
    (∃ (s : State) (m : Master), (s.accepts m = true ∧ hostMaster m = true ∧ s.Quiet ∧ s.busy = false ∧ (∀ c : Fin 4, s.on (adcF ADC_CAL_BUSY c) = false ∧
      (s.bank c).retry = none ∧ s.get (adcF ADC_STATE_RETIRED c) = 0 ∧ s.get (adcF ADC_STATE_SPARE c) ≠ 7 ∧ s.get (adcPos c 0) ≠ 7))) ∧
    (∃ (s : State) (m : Master) (bank : Fin 4) (w : Nat) (r : List Nat), s.accepts m = true ∧ s.injOn (adcPage bank) 0 = false ∧ (s.bank bank).fifo = w :: r) ∧
    (∃ (s : State) (m : Master) (bank : Fin 4), s.accepts m = true ∧ s.injOn (adcPage bank) 0 = false ∧ (s.bank bank).fifo = []) ∧
    (∃ (s : State) (m : Master), s.accepts m = true ∧ hostMaster m = true) := by
  refine ⟨?_, ?_, ?_, ?_, ?_, ?_, ?_, ?_, ?_, ?_, ?_, ?_, ?_, ?_, ?_, ?_, ?_, ?_, ?_, ?_, ?_, ?_, ?_, ?_⟩
  · exact ⟨((atMode .run).wr (hdrAddr (PG_ADC + 1) hdrCTRL) 1).put (adcF ADC_SEQ_LEN_LEN0 1) 3, Master.spi, 1, 0, by unfold State.Quiet State.Calm; decide +kernel⟩
  · exact ⟨((atMode .run).wr (hdrAddr (PG_ADC + 1) hdrCTRL) 1).put (adcF ADC_STATE_BUSY 1) 1, Master.spi, 1, by unfold State.Quiet State.Calm; decide +kernel⟩
  · exact ⟨atMode .run, Master.spi, 1, by unfold State.Quiet State.Calm; decide +kernel⟩
  · exact ⟨(atMode .run).wr (hdrAddr (PG_ADC + 1) hdrCTRL) 1, Master.spi, 1, 0, by unfold State.Quiet State.Calm; decide +kernel⟩
  · exact ⟨(((atMode .run).put (adcF ADC_STATE_BUSY 1) 1).put (adcPos 1 3) 2).setBank 1 { (atMode .run).bank 1 with table := [(3, 0)] }, 1, 0, false, ((3, 0) : Nat × Nat), rfl, by unfold State.Quiet State.Calm; decide +kernel⟩
  · exact ⟨(((atMode .run).put (adcF ADC_STATE_BUSY 1) 1).put (adcPos 1 3) 2).setBank 1 { (atMode .run).bank 1 with table := [(0x5C003, 0)] }, 1, 0, false, ((0x5C003, 0) : Nat × Nat), rfl, by unfold State.Quiet State.Calm; decide +kernel⟩
  · exact ⟨(((atMode .run).put (adcF ADC_STATE_BUSY 1) 1).put (adcPos 1 3) 7).setBank 1 { (atMode .run).bank 1 with table := [(3, 0)] }, 1, 0, false, ((3, 0) : Nat × Nat), rfl, by unfold State.Quiet State.Calm; decide +kernel⟩
  · exact ⟨atMode .run, 1, 0, by unfold State.Quiet State.Calm; decide +kernel⟩
  · exact ⟨(atMode .run).put (adcF ADC_STATE_BUSY 1) 1, 1, by decide +kernel⟩
  · exact ⟨((atMode .run).put (adcF ADC_STATE_BUSY 3) 1).put (adcF ADC_STATE_SEQ 3) 3, by decide +kernel⟩
  · exact ⟨atMode .run, 1, by decide +kernel⟩
  · exact ⟨((((atMode .run).put (adcF ADC_CAL_CTRL_BGEN 1) 1).put (adcF ADC_COUNT_ROUND32 1) 8).put (adcF ADC_STATE_SPARE 1) 4), 1, by decide +kernel⟩
  · exact ⟨(atMode .run).put (adcF ADC_CAL_BUSY 1) 1, 1, by decide +kernel⟩
  · exact ⟨((((atMode .run).put (adcF ADC_CAL_CTRL_BGEN 1) 1).put (adcF ADC_COUNT_ROUND32 1) 8).put (adcF ADC_STATE_SPARE 1) 7), 1, by decide +kernel⟩
  · exact ⟨((((atMode .run).put (adcF ADC_CAL_CTRL_BGEN 1) 1).put (adcF ADC_COUNT_ROUND32 1) 8).put (adcF ADC_STATE_SPARE 1) 7).setBank 1 { (atMode .run).bank 1 with retry := some 2 }, 1, 2, by decide +kernel⟩
  · exact ⟨((((atMode .run).put (adcF ADC_CAL_BUSY 1) 1).put (adcF ADC_CAL_SLICE 1) 2).put (adcF ADC_STATE_SPARE 1) 7), 1, (⟨-3, 5, 0, 0⟩ : CalMeas), by unfold State.Quiet State.Calm; decide +kernel⟩
  · exact ⟨((((atMode .run).put (adcF ADC_CAL_BUSY 1) 1).put (adcF ADC_CAL_SLICE 1) 2).put (adcF ADC_STATE_SPARE 1) 7), 1, (⟨300, 5, 0, 0⟩ : CalMeas), by unfold State.Quiet State.Calm; decide +kernel⟩
  · exact ⟨((((atMode .run).put (adcF ADC_CAL_BUSY 1) 1).put (adcF ADC_CAL_SLICE 1) 2).put (adcF ADC_STATE_SPARE 1) 7).setBank 1 { (atMode .run).bank 1 with retry := some 2 }, 1, (⟨300, 5, 0, 0⟩ : CalMeas), by unfold State.Quiet State.Calm; decide +kernel⟩
  · exact ⟨atMode .run, 1, by unfold State.Quiet State.Calm; decide +kernel⟩
  · exact ⟨((((atMode .run).put (adcF ADC_CAL_BUSY 0) 1).put (adcF ADC_CAL_BUSY 1) 1).put (adcF ADC_CAL_BUSY 2) 1).put (adcF ADC_CAL_BUSY 3) 1, Master.spi, by unfold State.Quiet State.Calm; decide +kernel⟩
  · exact ⟨(List.finRange 4).foldl (fun (t : State) (b : Fin 4) => (t.put (adcF ADC_STATE_SPARE b) 4).put (adcPos b 0) 0) (atMode .run), Master.spi, by unfold State.Quiet State.Calm; decide +kernel⟩
  · exact ⟨(atMode .run).setBank 1 { (atMode .run).bank 1 with fifo := [7, 9] }, Master.spi, 1, 7, ([9] : List Nat), by decide +kernel⟩
  · exact ⟨atMode .run, Master.spi, 1, by decide +kernel⟩
  · exact ⟨(atMode .run).setBank 1 { (atMode .run).bank 1 with fifo := [7, 9] }, Master.spi, by decide +kernel⟩

/-- Each clause of Comparators has a state and operands that meet its hypotheses. -/
theorem witness_Comparators :
    (∃ (s : State) (k : Fin 32) (uv : Int) (e0 : Option Nat) (e1 : Option Nat), (s.Quiet ∧ s.loopOn = true ∧ s.on (tcfg CMP_TCFG_EN k.val) = true ∧ s.on (cmpTState k.val) = false ∧ s.cmpBeyond k.val uv = true ∧
      (s.cmpWindow k.val 0 e0 || s.cmpWindow k.val 1 e1) = false ∧ (k.val < 18 ∨ k.val = 20 ∨ k.val = 21))) ∧
    (∃ (s : State) (k : Fin 32) (uv : Int) (e0 : Option Nat) (e1 : Option Nat), (s.Quiet ∧ s.loopOn = true ∧ s.on (tcfg CMP_TCFG_EN k.val) = true ∧ s.on (cmpTState k.val) = false ∧ s.cmpBeyond k.val uv = true ∧
      (s.cmpWindow k.val 0 e0 || s.cmpWindow k.val 1 e1) = false ∧ (k.val = 18 ∨ k.val = 19 ∨ k.val = 22))) ∧
    (∃ (s : State) (k : Fin 32) (uv : Int) (e0 : Option Nat) (e1 : Option Nat), s.Quiet ∧ s.loopOn = true ∧ s.on (tcfg CMP_TCFG_EN k.val) = true ∧ s.on (cmpTState k.val) = false ∧ s.cmpBeyond k.val uv = true ∧
      (s.cmpWindow k.val 0 e0 || s.cmpWindow k.val 1 e1) = false ∧ 23 ≤ k.val ∧ k.val ≠ 22) ∧
    (∃ (s : State) (k : Fin 32) (uv : Int) (e0 : Option Nat) (e1 : Option Nat), s.Quiet ∧ s.loopOn = true ∧ s.on (tcfg CMP_TCFG_EN k.val) = true ∧ s.on (cmpTState k.val) = false ∧ s.cmpBeyond k.val uv = true ∧
      (s.cmpWindow k.val 0 e0 || s.cmpWindow k.val 1 e1) = true) ∧
    (∃ (s : State) (k : Fin 32) (uv : Int) (e0 : Option Nat) (e1 : Option Nat), (s.Quiet ∧ (s.loopOn = false ∨ s.on (tcfg CMP_TCFG_EN k.val) = false ∨ (s.on (cmpTState k.val) = false ∧
      s.cmpBeyond k.val uv = false) ∨ (s.on (cmpTState k.val) = true ∧ (s.cmpWindow k.val 0 e0 || s.cmpWindow k.val 1 e1) = false)))) ∧
    (∃ (s : State) (k : Fin 32) (uv : Int), s.on (cmpTState k.val) = true ∧ s.cmpReturned k.val uv = true) ∧
    (∃ (s : State) (k : Fin 32) (uv : Int), (s.on (cmpTState k.val) = false ∨ s.cmpReturned k.val uv = false)) ∧
    (∃ (s : State) (k : Fin 32), (s.Quiet ∧ bitOf s.cmp.blanked k.val = true ∧ s.on (cmpTState k.val) = true ∧ (k.val < 18 ∨ k.val = 20 ∨ k.val = 21))) ∧
    (∃ (s : State) (k : Fin 32), (s.Quiet ∧ bitOf s.cmp.blanked k.val = true ∧ s.on (cmpTState k.val) = true ∧ (k.val = 18 ∨ k.val = 19 ∨ k.val = 22))) ∧
    (∃ (s : State) (k : Fin 32), s.Quiet ∧ bitOf s.cmp.blanked k.val = true ∧ s.on (cmpTState k.val) = true ∧ 23 ≤ k.val) ∧
    (∃ (s : State) (k : Fin 32), s.Quiet ∧ bitOf s.cmp.blanked k.val = false) ∧
    (∃ (s : State) (m : Master), s.accepts m = true ∧ hostMaster m = true) ∧
    (∃ (s : State) (n : Fin 16) (uv : Int), (s.mode = .run ∧ (s.monContinuous n.val = true ∨ (bitOf s.cmp.due n.val = true ∧ s.monSampled n.val = true)) ∧
      (s.cmp.mons[n]).inj = 0 ∧ s.get (CMP_WTHR_LO.el n) ≤ s.get (CMP_WTHR_HI.el n) ∧ s.monSide n.val (s.cmp.mons[n]).last uv = 0)) ∧
    (∃ (s : State) (n : Fin 16), (s.Quiet ∧ s.monContinuous n.val = false ∧ (bitOf s.cmp.due n.val = false ∨ s.monSampled n.val = false))) ∧
    (∃ (s : State) (m : Master), s.accepts m = true ∧ s.injOn PG_CMP 0 = false) := by
  refine ⟨?_, ?_, ?_, ?_, ?_, ?_, ?_, ?_, ?_, ?_, ?_, ?_, ?_, ?_, ?_⟩
  · exact ⟨(((atMode .run).put (tcfg CMP_TCFG_EN 3) 1).put (tcfg CMP_TCFG_TRIP 3) 1).put (tcfg CMP_TCFG_DIR 3) 1, 3, 2000000, none, none, by unfold State.Quiet State.Calm; decide +kernel⟩
  · exact ⟨(((atMode .run).put (tcfg CMP_TCFG_EN 18) 1).put (tcfg CMP_TCFG_TRIP 18) 1).put (tcfg CMP_TCFG_DIR 18) 1, 18, 2000000, none, none, by unfold State.Quiet State.Calm; decide +kernel⟩
  · exact ⟨(((atMode .run).put (tcfg CMP_TCFG_EN 24) 1).put (tcfg CMP_TCFG_TRIP 24) 1).put (tcfg CMP_TCFG_DIR 24) 1, 24, 2000000, none, none, by unfold State.Quiet State.Calm; decide +kernel⟩
  · exact ⟨(((((atMode .run).put (tcfg CMP_TCFG_EN 3) 1).put (tcfg CMP_TCFG_TRIP 3) 1).put (tcfg CMP_TCFG_DIR 3) 1).put (tcfg CMP_TCFG_BLANK 3) 9).put (tcfg CMP_TCFG_BEDGE 3) 1, 3, 2000000, (some 2), none, by unfold State.Quiet State.Calm; decide +kernel⟩
  · exact ⟨atMode .run, 3, 2000000, none, none, by unfold State.Quiet State.Calm; decide +kernel⟩
  · exact ⟨((atMode .run).put (cmpTState 3) 1).put (tcfg CMP_TCFG_DIR 3) 1, 3, (-5000000), by decide +kernel⟩
  · exact ⟨atMode .run, 3, 0, by decide +kernel⟩
  · exact ⟨{ ((atMode .run).put (tcfg CMP_TCFG_KILL 3) 1).put (cmpTState 3) 1 with cmp := { (atMode .run).cmp with blanked := 8 } }, 3, by unfold State.Quiet State.Calm; decide +kernel⟩
  · exact ⟨{ ((atMode .run).put (tcfg CMP_TCFG_KILL 19) 1).put (cmpTState 19) 1 with cmp := { (atMode .run).cmp with blanked := 2 ^ 19 } }, 19, by unfold State.Quiet State.Calm; decide +kernel⟩
  · exact ⟨{ ((atMode .run).put (tcfg CMP_TCFG_KILL 25) 1).put (cmpTState 25) 1 with cmp := { (atMode .run).cmp with blanked := 2 ^ 25 } }, 25, by unfold State.Quiet State.Calm; decide +kernel⟩
  · exact ⟨atMode .run, 3, by unfold State.Quiet State.Calm; decide +kernel⟩
  · exact ⟨((atMode .run).put (cmpHold 3) 1).put (cmpHold 4) 1, Master.spi, by decide +kernel⟩
  · exact ⟨(((atMode .run).put (CMP_WTHR_HI.el 3) 100).put (CMP_WCFG_EN.el 3) 1).put (CMP_WCFG_SEL.el 3) 1, 3, 50000, by decide +kernel⟩
  · exact ⟨atMode .run, 3, by unfold State.Quiet State.Calm; decide +kernel⟩
  · exact ⟨(atMode .run).wr (hdrAddr PG_CMP 0x1CC) 0x80000012, Master.spi, by decide +kernel⟩

/-- Each clause of StringLinks has a state and operands that meet its hypotheses. -/
theorem witness_StringLinks :
    (∃ (s : State) (m : Master) (n : Fin 16) (key : BitVec 16), s.accepts m = true ∧ hostMaster m = true ∧ key = 0x5C1E ∧ (s.lk n).phase = .idle ∧ (s.lk n).ended = none ∧ s.modules n ≠ 0) ∧
    (∃ (s : State) (m : Master) (n : Fin 16) (key : BitVec 16), (s.accepts m = true ∧ hostMaster m = true ∧ (key ≠ 0x5C1E ∨ (s.lk n).phase ≠ .idle) ∧ (s.lk n).ended = none)) ∧
    (∃ (s : State) (m : Master) (n : Fin 16) (key : BitVec 16), s.accepts m = true ∧ hostMaster m = true ∧ key = 0x5C1E ∧ (s.lk n).phase = .idle ∧ (s.lk n).ended = none ∧ s.modules n = 0) ∧
    (∃ (s : State) (m : Master) (n : Fin 16) (key : BitVec 16) (k : Nat) (r : List Nat), s.reachable n = k :: r ∧ (s.accepts m = true ∧ hostMaster m = true ∧ key = 0x5C1E ∧ (s.lk n).phase = .idle ∧ (s.lk n).ended = none ∧
      s.usable n = true)) ∧
    (∃ (s : State) (m : Master) (n : Fin 16) (key : BitVec 16), (s.accepts m = true ∧ hostMaster m = true ∧ (key ≠ 0x5C1E ∨ (s.lk n).phase ≠ .idle ∨ s.usable n = false) ∧ (s.lk n).ended = none)) ∧
    (∃ (s : State) (m : Master) (n : Fin 16) (key : BitVec 16) (template : BitVec 5), (s.accepts m = true ∧ hostMaster m = true ∧ key = 0x5C1E ∧ (s.lk n).phase = .idle ∧ s.usable n = true ∧ s.twoArmed n = false ∧
      2 ≤ (s.linkTemplate n .host template.toNat 0x3F).typ ∧ (s.linkTemplate n .host template.toNat 0x3F).typ ≤ 5 ∧
      s.linkBeyond n template.toNat (s.linkTemplate n .host template.toNat 0x3F) = false ∧
      (s.linkTemplate n .host template.toNat 0x3F).payload.length ≤ linkMost ∧ ((s.linkTemplate n .host template.toNat 0x3F).bc = true ∨
      (s.linkTemplate n .host template.toNat 0x3F).addr = 0x3F ∨ s.nodeReach n (s.linkTemplate n .host template.toNat 0x3F).addr = true))) ∧
    (∃ (s : State) (m : Master) (n : Fin 16) (key : BitVec 16), s.accepts m = true ∧ hostMaster m = true ∧ key = 0x5C1E ∧ (s.lk n).phase ≠ .idle ∧ (s.lk n).ended = none ∧ s.Quiet ∧ s.balCur n = 0) ∧
    (∃ (s : State) (n : Fin 16) (rt : Nat), ((s.lk n).phase = .frame ∧ (s.lk n).cmd.waitA = true ∧ (s.lk n).cmd.waitB = true ∧ (s.lk n).ended = none ∧
      s.injOn (linkPage n) 2 = false ∧ s.injOn (linkPage n) 1 = false ∧
      s.inWindow n false ((s.lk n).tx.any fun f => f.pairB == false && bitOf f.hdr 16) rt = true)) ∧
    (∃ (s : State) (n : Fin 16) (rt : Nat) (bytes : List Byte), ((s.lk n).phase = .frame ∧ (s.lk n).cmd.waitA = false ∧ (s.lk n).cmd.waitB = true ∧ (s.lk n).cmd.bad = false ∧
      (s.lk n).cmd.nak = false ∧ (s.lk n).ended = none ∧ (s.lk n).cmd.typ ≠ 3 ∧ (s.lk n).cmd.source = .slot ∧
      s.injOn (linkPage n) 2 = false ∧ s.injOn (linkPage n) 1 = false ∧
      s.inWindow n true ((s.lk n).tx.any fun f => f.pairB == true && bitOf f.hdr 16) rt = true ∧
      linkParse (s.lk n).cmd.typ (s.lk n).cmd.fetch bytes = (true, []) ∧ s.expectedNodes n (s.lk n).cmd = [])) ∧
    (∃ (s : State) (n : Fin 16) (pairB : Bool), (((s.lk n).phase = .idle ∨ (if pairB then (s.lk n).cmd.waitB else (s.lk n).cmd.waitA) = false) ∧ (s.lk n).ended = none)) ∧
    (∃ (s : State) (n : Fin 16) (fits : Bool), ((fits = false ∨ min 2 (s.get (SLINK_TIMING_RETRY.at n)) ≤ (s.lk n).cmd.retries) ∧ (s.on (SLINK_CFG_ARMS.at n) = false ∨
      (s.lk n).cmd.anyReturn = true) ∧ (s.lk n).phase = .frame ∧ ((s.lk n).cmd.waitA = true ∨ (s.lk n).cmd.waitB = true) ∧
      (s.lk n).ended = none ∧ (s.lk n).cmd.nak = false ∧ (s.lk n).cmd.noRetry = false ∧ (s.lk n).cmd.source = .slot ∧
      (s.lk n).cmd.typ ≠ 3)) ∧
    (∃ (s : State) (n : Fin 16), ((s.lk n).cmd.retries < min 2 (s.get (SLINK_TIMING_RETRY.at n)) ∧ s.twoArmed n = false ∧ (s.lk n).phase = .frame ∧
      ((s.lk n).cmd.waitA = true ∨ (s.lk n).cmd.waitB = true) ∧ (s.lk n).ended = none ∧ (s.lk n).cmd.nak = false ∧
      (s.lk n).cmd.noRetry = false ∧ (s.lk n).cmd.source = .slot ∧ (s.lk n).cmd.typ ≠ 3)) ∧
    (∃ (s : State) (n : Fin 16), (s.lk n).cmd.waitA = false ∧ (s.lk n).cmd.waitB = false ∧ (s.lk n).ended = none) ∧
    (∃ (s : State) (n : Fin 16), ((s.lk n).stale = false ∧ s.modules n ≠ 0 ∧ s.get (SLINK_STALE_T_STALE.at n) ≤ (s.lk n).rounds ∧ ((s.lk n).phase ≠ .frame ∨
      (s.lk n).cmd.retries = 0) ∧ (s.lk n).ended = none)) ∧
    (∃ (s : State) (n : Fin 16), (s.lk n).stale = false ∧ s.modules n ≠ 0 ∧ s.get (SLINK_STALE_T_STALE.at n) ≤ (s.lk n).rounds ∧ (s.lk n).phase = .frame ∧
      0 < (s.lk n).cmd.retries ∧ (s.lk n).ended = none) ∧
    (∃ (s : State) (n : Fin 16), (((s.lk n).stale = true ∨ s.modules n = 0 ∨ (s.lk n).rounds < s.get (SLINK_STALE_T_STALE.at n)) ∧ (s.lk n).ended = none)) ∧
    (∃ (s : State) (n : Fin 16), ((s.lk n).phase = .desel ∧ ((s.lk n).todo = [] ∨ 3 ≤ (s.lk n).tries) ∧ (s.lk n).ended = none)) ∧
    (∃ (s : State) (n : Fin 16) (k : Nat), (s.lk n).phase = .desel ∧ (s.lk n).todo = [k] ∧ (s.lk n).tries < 3 ∧ (s.lk n).ended = none) ∧
    (∃ (s : State) (n : Fin 16), (s.lk n).phase ≠ .desel ∧ (s.lk n).ended = none) ∧
    (∃ (s : State) (m : Master) (n : Fin 16) (key : BitVec 16) (node : BitVec 6), s.accepts m = true ∧ hostMaster m = true ∧ key = 0x0D5E ∧ 1 ≤ node.toNat ∧ node.toNat ≤ 40 ∧ (s.lk n).ended = none) ∧
    (∃ (s : State) (m : Master) (n : Fin 16) (key : BitVec 16) (node : BitVec 6), (s.accepts m = true ∧ hostMaster m = true ∧ (key ≠ 0x0D5E ∨ 40 < node.toNat) ∧ (s.lk n).ended = none)) := by
  refine ⟨?_, ?_, ?_, ?_, ?_, ?_, ?_, ?_, ?_, ?_, ?_, ?_, ?_, ?_, ?_, ?_, ?_, ?_, ?_, ?_, ?_⟩
  · exact ⟨(atMode .safe).put (SLINK_CFG_MODULES.at 2) 3, Master.spi, 2, 0x5C1E, by decide +kernel⟩
  · exact ⟨atMode .safe, Master.spi, 2, 0x5C1F, by decide +kernel⟩
  · exact ⟨atMode .safe, Master.spi, 2, 0x5C1E, by decide +kernel⟩
  · exact ⟨(((atMode .safe).put (SLINK_STATE_USABLE.at 2) 1).put (SLINK_CFG_MODULES.at 2) 1).setLk 2 { linkIdle with nodes := [⟨0, true, false⟩, ⟨1, false, false⟩] }, Master.spi, 2, 0x5C1E, 0, ([1] : List Nat), rfl, by decide +kernel⟩
  · exact ⟨atMode .safe, Master.spi, 2, 0x5C1E, by decide +kernel⟩
  · exact ⟨((((atMode .safe).put (SLINK_STATE_USABLE.at 2) 1).put ((SLINK_TPL_A_TYPE.el 3).at 2) 4).put ((SLINK_TPL_A_ADDR.el 3).at 2) 0x3F).put ((SLINK_TPL_B_DST.el 3).at 2) 0xFFFF, Master.spi, 2, 0x5C1E, 3, by decide +kernel⟩
  · exact ⟨(atMode .safe).setLk 2 { linkIdle with phase := .frame }, Master.spi, 2, 0x5C1E, by unfold State.Quiet State.Calm; decide +kernel⟩
  · exact ⟨(atMode .safe).setLk 2 { linkIdle with phase := .frame, cmd := { linkNoCmd with waitA := true, waitB := true, typ := 4 } }, 2, 5000, by decide +kernel⟩
  · exact ⟨(atMode .safe).setLk 2 { linkIdle with phase := .frame, cmd := { linkNoCmd with source := .slot, waitB := true, typ := 2, bc := true, addr := 0x3F } }, 2, 5000, (LinkTx.bytes ⟨false, linkHdr 2 0x3F 0 true false 0, []⟩), by decide +kernel⟩
  · exact ⟨atMode .safe, 2, true, by decide +kernel⟩
  · exact ⟨(atMode .safe).setLk 2 { linkIdle with phase := .frame, cmd := { linkNoCmd with source := .slot, anyReturn := true, waitB := true, typ := 4, addr := 1 } }, 2, false, by decide +kernel⟩
  · exact ⟨((atMode .safe).setLk 2 { linkIdle with phase := .frame, cmd := { linkNoCmd with source := .slot, anyReturn := true, waitB := true, typ := 4, addr := 1 } }).put (SLINK_TIMING_RETRY.at 2) 2, 2, by decide +kernel⟩
  · exact ⟨atMode .safe, 2, by decide +kernel⟩
  · exact ⟨((atMode .safe).setLk 2 { linkIdle with rounds := 65535 }).put (SLINK_CFG_MODULES.at 2) 3, 2, by decide +kernel⟩
  · exact ⟨((atMode .safe).setLk 2 { linkIdle with rounds := 65535, phase := .frame, cmd := { linkNoCmd with retries := 1 } }).put (SLINK_CFG_MODULES.at 2) 3, 2, by decide +kernel⟩
  · exact ⟨atMode .safe, 2, by decide +kernel⟩
  · exact ⟨(atMode .safe).setLk 2 { linkIdle with phase := .desel }, 2, by decide +kernel⟩
  · exact ⟨(atMode .safe).setLk 2 { linkIdle with phase := .desel, todo := [4] }, 2, 4, by decide +kernel⟩
  · exact ⟨atMode .safe, 2, by decide +kernel⟩
  · exact ⟨((atMode .safe).setSel 2 5 1), Master.spi, 2, 0x0D5E, 5, by decide +kernel⟩
  · exact ⟨atMode .safe, Master.spi, 2, 0x0D5E, 45, by decide +kernel⟩

/-- Each clause of TrackingAndHealth has a state and operands that meet its hypotheses. -/
theorem witness_TrackingAndHealth :
    (∃ (s : State), ((s.mode = .run ∨ s.mode = .ride ∨ s.mode = .safe ∨ s.mode = .service) ∧ (∀ n : Fin 16, s.tracked n = false))) ∧
    (∃ (s : State), ((s.mode = .run ∨ s.mode = .ride ∨ s.mode = .safe ∨ s.mode = .service))) ∧
    (∃ (s : State), (¬(s.mode = .run ∨ s.mode = .ride ∨ s.mode = .safe ∨ s.mode = .service))) ∧
    (∃ (s : State) (n : Fin 16), s.tracked n = true ∧ s.mode.counts = true ∧ (s.lk n).stale = false ∧
      bitsOf ((s.rd ((PG_ADC + 3) * 0x400 + 0x300 + 4 * (16 * s.get (estF EST_WINSRC_ISEQ n) + s.get (estF EST_WINSRC_IENT n)))).toNat) 12 3 ≠ 7 ∧
      s.inFallback n = false ∧ (s.es n).wins = [] ∧ (s.es n).readings = []) ∧
    (∃ (s : State) (n : Fin 16), (s.tracked n = false ∨ s.mode.counts = false ∨ (s.lk n).stale = false ∧
      bitsOf ((s.rd ((PG_ADC + 3) * 0x400 + 0x300 + 4 * (16 * s.get (estF EST_WINSRC_ISEQ n) + s.get (estF EST_WINSRC_IENT n)))).toNat) 12 3 = 7)) ∧
    (∃ (s : State) (m : Master) (addr : BitVec 24), s.accepts m = true ∧ hostMaster m = true ∧ s.Quiet ∧ addr.toNat % 4 = 0 ∧ 0x100000 ≤ addr.toNat ∧ addr.toNat < 0x180000) ∧
    (∃ (s : State) (m : Master) (key : BitVec 16), s.accepts m = true ∧ hostMaster m = true ∧ s.Quiet ∧ key = 0x57C1) ∧
    (∃ (s : State) (m : Master) (key : BitVec 16), s.accepts m = true ∧ hostMaster m = true ∧ s.Quiet ∧ key ≠ 0x57C1) ∧
    (∃ (s : State) (m : Master) (key : BitVec 16), s.accepts m = true ∧ hostMaster m = true ∧ s.Quiet ∧ key = 0x57C1) ∧
    (∃ (s : State) (m : Master) (key : BitVec 16), s.accepts m = true ∧ hostMaster m = true ∧ s.Quiet ∧ key ≠ 0x57C1) ∧
    (∃ (s : State) (m : Master) (v : BitVec 31), s.accepts m = true ∧ hostMaster m = true ∧
      (s.tone (getBits (BitVec.ofNat 32 (0x80000000 + v.toNat)) HEALTH_PERTN_TONE.lo HEALTH_PERTN_TONE.w)).isSome = true) ∧
    (∃ (s : State) (m : Master) (v : BitVec 31), s.accepts m = true ∧ hostMaster m = true ∧
      (s.tone (getBits (BitVec.ofNat 32 (0x80000000 + v.toNat)) HEALTH_PERTN_TONE.lo HEALTH_PERTN_TONE.w)) = none) ∧
    (∃ (s : State) (m : Master) (key : BitVec 16), s.accepts m = true ∧ hostMaster m = true ∧ s.Quiet ∧ key = 0x4EA1) ∧
    (∃ (s : State) (m : Master) (key : BitVec 16), s.accepts m = true ∧ hostMaster m = true ∧ s.Quiet ∧ key ≠ 0x4EA1) ∧
    (∃ (s : State) (m : Master) (key : BitVec 16), s.accepts m = true ∧ hostMaster m = true ∧ s.Quiet ∧ key = 0x4EA1) ∧
    (∃ (s : State), ((s.mode = .run ∨ s.mode = .ride ∨ s.mode = .safe ∨ s.mode = .service) ∧ s.busy = false ∧ s.Quiet)) ∧
    (∃ (s : State), ((s.mode = .run ∨ s.mode = .ride ∨ s.mode = .safe ∨ s.mode = .service) ∧ s.busy = true ∧ s.Quiet)) ∧
    (∃ (s : State), (¬(s.mode = .run ∨ s.mode = .ride ∨ s.mode = .safe ∨ s.mode = .service) ∧ s.Quiet)) ∧
    (∃ (s : State) (m : Master) (key : BitVec 16), s.accepts m = true ∧ hostMaster m = true ∧ s.Quiet ∧ key ≠ 0x4EA1) := by
  refine ⟨?_, ?_, ?_, ?_, ?_, ?_, ?_, ?_, ?_, ?_, ?_, ?_, ?_, ?_, ?_, ?_, ?_, ?_, ?_⟩
  · exact ⟨(atMode .run).putI PACK_ROUNDQ_Q (-400), by decide +kernel⟩
  · exact ⟨((atMode .run).putI PACK_ROUNDQ_Q (-400)).put (estF EST_STRCFG_EN 2) 1, by decide +kernel⟩
  · exact ⟨atMode .rise, by decide +kernel⟩
  · exact ⟨(((((atMode .run).put (estF EST_ISTRCAL_GAIN 2) 777).put (estF EST_STRCFG_EN 2) 1).put (estF EST_WINSRC_ISEQ 2) 0).put (estF EST_WINSRC_IENT 2) 0).wr ((PG_ADC + 3) * 0x400 + 0x300) 0x2345, 2, by decide +kernel⟩
  · exact ⟨atMode .run, 2, by decide +kernel⟩
  · exact ⟨atMode .run, Master.spi, 0x178004, by unfold State.Quiet State.Calm; decide +kernel⟩
  · exact ⟨atMode .run, Master.spi, 0x57C1, by unfold State.Quiet State.Calm; decide +kernel⟩
  · exact ⟨atMode .run, Master.spi, 0x57C2, by unfold State.Quiet State.Calm; decide +kernel⟩
  · exact ⟨atMode .run, Master.spi, 0x57C1, by unfold State.Quiet State.Calm; decide +kernel⟩
  · exact ⟨atMode .run, Master.spi, 0x57C2, by unfold State.Quiet State.Calm; decide +kernel⟩
  · exact ⟨(((atMode .run).put (HEALTH_TONE_FREQ.el 0) 100).put (HEALTH_TONE_RATE.el 0) 1).put (HEALTH_TONE_NPER.el 0) 2, Master.spi, 0, by decide +kernel⟩
  · exact ⟨(atMode .run).put (HEALTH_TONE_FREQ.el 0) 0, Master.spi, 0, by decide +kernel⟩
  · exact ⟨atMode .run, Master.spi, 0x4EA1, by unfold State.Quiet State.Calm; decide +kernel⟩
  · exact ⟨atMode .run, Master.spi, 0x4EA2, by unfold State.Quiet State.Calm; decide +kernel⟩
  · exact ⟨atMode .run, Master.spi, 0x4EA1, by unfold State.Quiet State.Calm; decide +kernel⟩
  · exact ⟨atMode .run, by unfold State.Quiet State.Calm; decide +kernel⟩
  · exact ⟨(atMode .run).put DEV_LONGOP_RUN 4, by unfold State.Quiet State.Calm; decide +kernel⟩
  · exact ⟨atMode .rise, by unfold State.Quiet State.Calm; decide +kernel⟩
  · exact ⟨atMode .run, Master.spi, 0x4EA2, by unfold State.Quiet State.Calm; decide +kernel⟩

/-- Each clause of PeriodBoundaries has a state and operands that meet its hypotheses. -/
theorem witness_PeriodBoundaries :
    (∃ (s : State) (k : Fin 4), s.Quiet ∧ railRuns (s.rs ⟨k.val + 1, by omega⟩).phase = false) ∧
    (∃ (s : State) (k : Fin 2), s.Quiet ∧ railRuns (s.rs ⟨k.val + 5, by omega⟩).phase = false) := by
  refine ⟨?_, ?_⟩
  · exact ⟨({ atMode .run with pwm := (atMode .run).pwm.set 39 ⟨1, 2, 3, 4, 5, 6, 7, 8, 9⟩ } : State), 1, by unfold State.Quiet State.Calm; decide +kernel⟩
  · exact ⟨({ atMode .run with pwm := (atMode .run).pwm.set 39 ⟨1, 2, 3, 4, 5, 6, 7, 8, 9⟩ } : State), 1, by unfold State.Quiet State.Calm; decide +kernel⟩

/-- Each clause of ChannelTimers has a state and operands that meet its hypotheses. -/
theorem witness_ChannelTimers :
    (∃ (s : State) (n : Fin 16), s.balCode n = 5) ∧
    (∃ (s : State) (n : Fin 16), s.balCode n ≠ 5) ∧
    (∃ (s : State) (n : Fin 16), balRunning (s.balCode n) = true ∧ (s.bs n).refs = true) ∧
    (∃ (s : State) (n : Fin 16), ((balRunning (s.balCode n) = false ∨ (s.bs n).refs = false) ∧ s.Quiet)) ∧
    (∃ (s : State) (n : Fin 16), s.balCode n = 2) ∧
    (∃ (s : State) (n : Fin 16), s.balCode n ≠ 2) ∧
    (∃ (s : State) (n : Fin 16), (s.Quiet ∧ (s.bs n).checkDue = true ∧ s.balCode n = 4 ∧ s.selStep n ≠ 1 ∧ s.injOn (balPage n) 3 = false ∧ (s.lk n).ended = none ∧
      (s.balCur n = 0 ∨ s.sel n (s.balCur n) = 1))) ∧
    (∃ (s : State) (n : Fin 16), (s.Quiet ∧ (s.bs n).checkDue = true ∧ s.balCode n = 4 ∧ s.selStep n = 1 ∧ s.injOn (balPage n) 3 = false ∧ (s.lk n).ended = none ∧
      (s.balCur n = 0 ∨ s.sel n (s.balCur n) = 1) ∧ (100 * s.get (BAL_SOFT_I_ZERO.at n) < (s.getI (BAL_I_CS_I.at n)).natAbs))) ∧
    (∃ (s : State) (n : Fin 16), s.Quiet ∧ (s.bs n).checkDue = false) ∧
    (∃ (s : State) (n : Fin 16), (s.bs n).selCut = false ∧ (s.lk n).phase = .idle ∧ s.usable n = true ∧ s.twoArmed n = false ∧ s.selStep n = 2 ∧
      (s.bs n).selOld ≤ 40 ∧ s.nodeReach n (s.bs n).selOld = true) ∧
    (∃ (s : State) (n : Fin 16), (s.bs n).selCut = false ∧ (s.lk n).phase = .idle ∧ s.usable n = true ∧ s.twoArmed n = false ∧ s.selStep n = 4 ∧
      (s.selTarget n) ≤ 40 ∧ s.nodeReach n (s.selTarget n) = true) ∧
    (∃ (s : State) (n : Fin 16), (((s.lk n).phase ≠ .idle ∨ (s.selStep n ≠ 2 ∧ s.selStep n ≠ 4) ∨ (s.bs n).selCut = true) ∧ (s.lk n).ended = none)) ∧
    (∃ (s : State) (n : Fin 16), (s.Quiet ∧ s.selStep n = 2 ∧ (s.bs n).selCut = false ∧ (s.lk n).ended = none ∧ (s.balCur n = 0 ∨ s.sel n (s.balCur n) = 1))) ∧
    (∃ (s : State) (n : Fin 16), ((s.selStep n ≠ 2 ∨ (s.bs n).selCut = true) ∧ (s.lk n).ended = none)) ∧
    (∃ (s : State) (n : Fin 16), (s.bs n).selCut = false ∧ (s.lk n).phase = .idle ∧ s.usable n = true ∧ s.twoArmed n = false ∧ s.selStep n = 4 ∧ 1 ≤ s.selTarget n ∧
      s.selTarget n ≤ 40 ∧ s.nodeReach n (s.selTarget n) = true ∧ (s.lk n).ended = none) ∧
    (∃ (s : State) (n : Fin 16), s.selStep n ≠ 4 ∧ (s.lk n).ended = none) ∧
    (∃ (s : State) (n : Fin 16), (s.bs n).selCut = false ∧ (s.lk n).phase = .idle ∧ s.usable n = true ∧ s.twoArmed n = false ∧ s.selStep n = 5 ∧ 1 ≤ s.selTarget n ∧
      s.selTarget n ≤ 40 ∧ s.nodeReach n (s.selTarget n) = true ∧ (s.lk n).ended = none) ∧
    (∃ (s : State) (n : Fin 16), s.selStep n ≠ 5 ∧ (s.lk n).ended = none) := by
  refine ⟨?_, ?_, ?_, ?_, ?_, ?_, ?_, ?_, ?_, ?_, ?_, ?_, ?_, ?_, ?_, ?_, ?_, ?_⟩
  · exact ⟨(atMode .run).put (BAL_STATE_CODE.at 5) 5, 5, by decide +kernel⟩
  · exact ⟨atMode .run, 5, by decide +kernel⟩
  · exact ⟨((atMode .run).put (BAL_STATE_CODE.at 5) 3).setBs 5 { (atMode .run).bs 5 with refs := true }, 5, by decide +kernel⟩
  · exact ⟨atMode .run, 5, by unfold State.Quiet State.Calm; decide +kernel⟩
  · exact ⟨(atMode .run).put (BAL_STATE_CODE.at 5) 2, 5, by decide +kernel⟩
  · exact ⟨atMode .run, 5, by decide +kernel⟩
  · exact ⟨((atMode .run).put (BAL_STATE_CODE.at 5) 4).setBs 5 { (atMode .run).bs 5 with checkDue := true }, 5, by unfold State.Quiet State.Calm; decide +kernel⟩
  · exact ⟨((((atMode .run).put (BAL_STATE_CODE.at 5) 4).put (BAL_SELSTATE_STEP.at 5) 1).putI (BAL_I_CS_I.at 5) 900).setBs 5 { (atMode .run).bs 5 with checkDue := true }, 5, by unfold State.Quiet State.Calm; decide +kernel⟩
  · exact ⟨atMode .run, 5, by unfold State.Quiet State.Calm; decide +kernel⟩
  · exact ⟨((((((atMode .run).put (SLINK_STATE_USABLE.at 5) 1).put (SLINK_CFG_MODULES.at 5) 3).put (BAL_SELSTATE_STEP.at 5) 2).put (BAL_SELSTATE_TARGET.at 5) 2).setLk 5 { linkIdle with nodes := [⟨1, false, false⟩, ⟨2, false, false⟩] }).setBs 5 { (atMode .run).bs 5 with selOld := 1 }, 5, by decide +kernel⟩
  · exact ⟨((((((atMode .run).put (SLINK_STATE_USABLE.at 5) 1).put (SLINK_CFG_MODULES.at 5) 3).put (BAL_SELSTATE_STEP.at 5) 4).put (BAL_SELSTATE_TARGET.at 5) 2).setLk 5 { linkIdle with nodes := [⟨1, false, false⟩, ⟨2, false, false⟩] }).setBs 5 { (atMode .run).bs 5 with selOld := 1 }, 5, by decide +kernel⟩
  · exact ⟨atMode .run, 5, by decide +kernel⟩
  · exact ⟨((atMode .run).put (BAL_SELSTATE_STEP.at 5) 2), 5, by unfold State.Quiet State.Calm; decide +kernel⟩
  · exact ⟨atMode .run, 5, by decide +kernel⟩
  · exact ⟨((((((atMode .run).put (SLINK_STATE_USABLE.at 5) 1).put (SLINK_CFG_MODULES.at 5) 3).put (BAL_SELSTATE_STEP.at 5) 4).put (BAL_SELSTATE_TARGET.at 5) 2).setLk 5 { linkIdle with nodes := [⟨1, false, false⟩, ⟨2, false, false⟩] }).setBs 5 { (atMode .run).bs 5 with selOld := 1 }, 5, by decide +kernel⟩
  · exact ⟨atMode .run, 5, by decide +kernel⟩
  · exact ⟨((((((atMode .run).put (SLINK_STATE_USABLE.at 5) 1).put (SLINK_CFG_MODULES.at 5) 3).put (BAL_SELSTATE_STEP.at 5) 5).put (BAL_SELSTATE_TARGET.at 5) 2).setLk 5 { linkIdle with nodes := [⟨1, false, false⟩, ⟨2, false, false⟩] }).setBs 5 { (atMode .run).bs 5 with selOld := 1 }, 5, by decide +kernel⟩
  · exact ⟨atMode .run, 5, by decide +kernel⟩

/-- Each clause of InputPath has a state and operands that meet its hypotheses. -/
theorem witness_InputPath :
    (∃ (s : State), s.Quiet) ∧
    (∃ (s : State), s.Quiet) ∧
    (∃ (s : State), s.Quiet) ∧
    (∃ (s : State), s.inpCode = 1) ∧
    (∃ (s : State), s.inpCode ≠ 1) ∧
    (∃ (s : State), s.inpCode = 1) ∧
    (∃ (s : State), s.inpCode ≠ 1) ∧
    (∃ (s : State), (s.mode ≠ .hibernate ∧ (s.inpCode = 2 ∨ s.inpCode = 3))) ∧
    (∃ (s : State), s.mode = .hibernate) ∧
    (∃ (s : State), s.mode ≠ .hibernate ∧ s.inpCode ≠ 2 ∧ s.inpCode ≠ 3) ∧
    (∃ (s : State), s.inpCode = 2) ∧
    (∃ (s : State), s.inpCode ≠ 2) ∧
    (∃ (s : State), (s.mode ≠ .hibernate ∧ (s.inpCode = 1 ∨ s.inpCode = 2 ∨ s.inpCode = 3))) ∧
    (∃ (s : State), s.mode ≠ .hibernate ∧ s.inpCode ≠ 1 ∧ s.inpCode ≠ 2 ∧ s.inpCode ≠ 3) ∧
    (∃ (s : State), (s.mode ≠ .hibernate ∧ (s.inpCode = 1 ∨ s.inpCode = 2 ∨ s.inpCode = 3))) ∧
    (∃ (s : State), s.mode ≠ .hibernate ∧ s.inpCode ≠ 1 ∧ s.inpCode ≠ 2 ∧ s.inpCode ≠ 3) ∧
    (∃ (s : State), s.mode = .hibernate) ∧
    (∃ (s : State), s.inpCode = 5 ∧ s.mode ≠ .ride) ∧
    (∃ (s : State), s.inpCode = 5 ∧ s.mode = .ride) ∧
    (∃ (s : State), s.inpCode ≠ 5) ∧
    (∃ (s : State), s.inpCode = 6 ∧ s.mode ≠ .ride ∧ s.getI INPATH_TJ_T ≤ 16 * ((s.get INPATH_TFET_T_FET_MAX : Int) - 20)) ∧
    (∃ (s : State), s.inpCode = 6 ∧ s.mode = .ride ∧ s.getI INPATH_TJ_T ≤ 16 * ((s.get INPATH_TFET_T_FET_MAX : Int) - 20)) ∧
    (∃ (s : State), (s.inpCode ≠ 6 ∨ 16 * ((s.get INPATH_TFET_T_FET_MAX : Int) - 20) < s.getI INPATH_TJ_T)) ∧
    (∃ (s : State), (s.inpCode = 2 ∨ s.inpCode = 4)) ∧
    (∃ (s : State), s.inpCode ≠ 2 ∧ s.inpCode ≠ 4) := by
  refine ⟨?_, ?_, ?_, ?_, ?_, ?_, ?_, ?_, ?_, ?_, ?_, ?_, ?_, ?_, ?_, ?_, ?_, ?_, ?_, ?_, ?_, ?_, ?_, ?_, ?_⟩
  · exact ⟨atMode .run, by unfold State.Quiet State.Calm; decide +kernel⟩
  · exact ⟨atMode .run, by unfold State.Quiet State.Calm; decide +kernel⟩
  · exact ⟨atMode .run, by unfold State.Quiet State.Calm; decide +kernel⟩
  · exact ⟨(atMode .run).put INPATH_STATE_CODE 1, by decide +kernel⟩
  · exact ⟨atMode .run, by decide +kernel⟩
  · exact ⟨(atMode .run).put INPATH_STATE_CODE 1, by decide +kernel⟩
  · exact ⟨atMode .run, by decide +kernel⟩
  · exact ⟨(atMode .run).put INPATH_STATE_CODE 2, by decide +kernel⟩
  · exact ⟨atMode .hibernate, by decide +kernel⟩
  · exact ⟨atMode .run, by decide +kernel⟩
  · exact ⟨(atMode .run).put INPATH_STATE_CODE 2, by decide +kernel⟩
  · exact ⟨atMode .run, by decide +kernel⟩
  · exact ⟨(atMode .run).put INPATH_STATE_CODE 2, by decide +kernel⟩
  · exact ⟨atMode .run, by decide +kernel⟩
  · exact ⟨(atMode .run).put INPATH_STATE_CODE 2, by decide +kernel⟩
  · exact ⟨atMode .run, by decide +kernel⟩
  · exact ⟨atMode .hibernate, by decide +kernel⟩
  · exact ⟨(atMode .run).put INPATH_STATE_CODE 5, by decide +kernel⟩
  · exact ⟨(atMode .ride).put INPATH_STATE_CODE 5, by decide +kernel⟩
  · exact ⟨atMode .run, by decide +kernel⟩
  · exact ⟨(((atMode .run).put INPATH_STATE_CODE 6).put INPATH_TFET_T_FET_MAX 150), by decide +kernel⟩
  · exact ⟨((atMode .ride).put INPATH_STATE_CODE 6).put INPATH_TFET_T_FET_MAX 150, by decide +kernel⟩
  · exact ⟨atMode .run, by decide +kernel⟩
  · exact ⟨((atMode .run).put INPATH_STATE_CODE 2).put INPATH_STATE_CONSEC 2, by decide +kernel⟩
  · exact ⟨atMode .run, by decide +kernel⟩

/-- Each clause of RideAndPack has a state and operands that meet its hypotheses. -/
theorem witness_RideAndPack :
    (∃ (s : State), ((s.nDet ≤ s.pack.lowRun ∨ s.pathDown = true ∨ s.inp.lost = true) ∧ (s.mode = .run ∨ s.mode = .ride) ∧ s.on PACK_STATE_LOSS = false)) ∧
    (∃ (s : State), ((s.nDet ≤ s.pack.lowRun ∨ s.pathDown = true ∨ s.inp.lost = true) ∧ s.mode ≠ .run ∧ s.mode ≠ .ride)) ∧
    (∃ (s : State), ((s.pack.lowRun < s.nDet ∧ s.pathDown = false ∧ s.inp.lost = false) ∨ ((s.mode = .run ∨ s.mode = .ride) ∧
      s.on PACK_STATE_LOSS = true))) ∧
    (∃ (s : State), s.mode = .ride ∧ s.get PACK_RETURN_T_RETURN * 1000 ≤ s.pack.retUs ∧ s.inpReady = true ∧ s.enabled PG_INPATH = true ∧ s.inpCode ≠ 7) ∧
    (∃ (s : State), (s.mode ≠ .ride ∨ s.pack.retUs < s.get PACK_RETURN_T_RETURN * 1000 ∨ s.inpReady = false ∨ s.enabled PG_INPATH = false ∨
      s.inpCode = 7)) ∧
    (∃ (s : State), s.mode = .ride ∧ s.rshed < 3 ∧ atLeast1 (s.get PACK_UNSHED_N_RSHED) ≤ s.pack.shedRun) ∧
    (∃ (s : State), (s.mode ≠ .ride ∨ 3 ≤ s.rshed ∨ s.pack.shedRun < atLeast1 (s.get PACK_UNSHED_N_RSHED))) ∧
    (∃ (s : State), s.mode = .ride ∧ s.get PACK_UNSHED_T_RUNSHED * 1000000 ≤ s.pack.unshedUs ∧ s.get PACK_HANDBACK_RIDE_SHED0 < s.rshed) ∧
    (∃ (s : State), (s.mode ≠ .ride ∨ s.rshed ≤ s.get PACK_HANDBACK_RIDE_SHED0 ∨ s.pack.unshedUs < s.get PACK_UNSHED_T_RUNSHED * 1000000)) ∧
    (∃ (s : State) (det : Bool), (decide (s.packMv PACK_VCELL1_V_LOWV_C ≤ 20 * s.vPack) && (!s.on PACK_CFG_DETEN || (det && !s.bankLow 1))) = true) ∧
    (∃ (s : State) (det : Bool), (decide (s.packMv PACK_VCELL1_V_LOWV_C ≤ 20 * s.vPack) && (!s.on PACK_CFG_DETEN || (det && !s.bankLow 1))) = false) ∧
    (∃ (s : State), s.packCode = 2 ∧ atLeast1 (s.get PACK_TERM_T_PRE) * 60000 ≤ s.pack.preMs) ∧
    (∃ (s : State), (s.packCode ≠ 2 ∨ s.pack.preMs < atLeast1 (s.get PACK_TERM_T_PRE) * 60000)) ∧
    (∃ (s : State), s.packCode = 4 ∧ s.get PACK_TERM_T_TERM * 1000 ≤ s.pack.termMs) ∧
    (∃ (s : State), (s.packCode ≠ 4 ∨ s.pack.termMs < s.get PACK_TERM_T_TERM * 1000)) ∧
    (∃ (s : State), ((s.packCode = 3 ∨ s.packCode = 4 ∨ s.packCode = 6) ∧ atLeast1 (s.get PACK_SAFE_T_SAFE) * 120000 ≤ s.pack.safeHalf)) ∧
    (∃ (s : State), ((s.packCode ≠ 3 ∧ s.packCode ≠ 4 ∧ s.packCode ≠ 6) ∨ s.pack.safeHalf < atLeast1 (s.get PACK_SAFE_T_SAFE) * 120000)) ∧
    (∃ (s : State) (m : Master) (key : BitVec 16), s.accepts m = true ∧ hostMaster m = true ∧ s.Quiet ∧ key = 0x9AC6 ∧ s.on PACK_STATE_TOLATCH = true) ∧
    (∃ (s : State) (m : Master) (key : BitVec 16), s.accepts m = true ∧ hostMaster m = true ∧ s.Quiet ∧ key = 0x9AC6) ∧
    (∃ (s : State) (m : Master) (key : BitVec 16), s.accepts m = true ∧ hostMaster m = true ∧ s.Quiet ∧ key = 0x9AC6) ∧
    (∃ (s : State) (m : Master) (key : BitVec 16), s.accepts m = true ∧ hostMaster m = true ∧ s.Quiet ∧ key = 0x9AC6 ∧ s.on PACK_STATE_TOLATCH = false) ∧
    (∃ (s : State) (m : Master) (key : BitVec 16), s.accepts m = true ∧ hostMaster m = true ∧ s.Quiet ∧ key ≠ 0x9AC6) ∧
    (∃ (s : State) (m : Master) (key : BitVec 16), s.accepts m = true ∧ hostMaster m = true ∧ s.Quiet ∧ key ≠ 0x9AC6) ∧
    (∃ (s : State) (m : Master) (key : BitVec 16), s.accepts m = true ∧ hostMaster m = true ∧ s.Quiet ∧ key ≠ 0x9AC6) ∧
    (∃ (s : State), s.packCode = 10 ∧ s.pack.hicFrom < 10) ∧
    (∃ (s : State), s.packCode ≠ 10) ∧
    (∃ (s : State), s.packRunning = true ∧ 4 ≤ s.pack.noCs) ∧
    (∃ (s : State), (s.packRunning = false ∨ s.pack.noCs < 4)) := by
  refine ⟨?_, ?_, ?_, ?_, ?_, ?_, ?_, ?_, ?_, ?_, ?_, ?_, ?_, ?_, ?_, ?_, ?_, ?_, ?_, ?_, ?_, ?_, ?_, ?_, ?_, ?_, ?_, ?_⟩
  · exact ⟨{ atMode .run with inp := { (atMode .run).inp with lost := true } }, by decide +kernel⟩
  · exact ⟨{ atMode .safe with inp := { (atMode .safe).inp with lost := true } }, by decide +kernel⟩
  · exact ⟨((atMode .run).put INPATH_STATE_CODE 2), by decide +kernel⟩
  · exact ⟨({ ((atMode .ride).put INPATH_STATE_CODE 2).wr (hdrAddr PG_INPATH hdrCTRL) 1 with pack := { (atMode .ride).pack with retUs := 100000000 }, inp := { (atMode .ride).inp with ready := true } } : State), by decide +kernel⟩
  · exact ⟨atMode .run, by decide +kernel⟩
  · exact ⟨{ atMode .ride with pack := { (atMode .ride).pack with shedRun := 300 } }, by decide +kernel⟩
  · exact ⟨atMode .run, by decide +kernel⟩
  · exact ⟨{ ((atMode .ride).put PACK_STATE_RSHED 3).put PACK_HANDBACK_RIDE_SHED0 0 with pack := { (atMode .ride).pack with unshedUs := 1000000000 } }, by decide +kernel⟩
  · exact ⟨atMode .run, by decide +kernel⟩
  · exact ⟨(atMode .run).put PACK_MEAS_V_PACK 60000, true, by decide +kernel⟩
  · exact ⟨atMode .run, false, by decide +kernel⟩
  · exact ⟨{ (atMode .run).put PACK_STATE_CODE 2 with pack := { (atMode .run).pack with preMs := 100000000 } }, by decide +kernel⟩
  · exact ⟨atMode .run, by decide +kernel⟩
  · exact ⟨{ (atMode .run).put PACK_STATE_CODE 4 with pack := { (atMode .run).pack with termMs := 100000000 } }, by decide +kernel⟩
  · exact ⟨atMode .run, by decide +kernel⟩
  · exact ⟨{ (atMode .run).put PACK_STATE_CODE 3 with pack := { (atMode .run).pack with safeHalf := 100000000 } }, by decide +kernel⟩
  · exact ⟨atMode .run, by decide +kernel⟩
  · exact ⟨((atMode .run).put PACK_STATE_CODE 7).put PACK_STATE_TOLATCH 1, Master.spi, 0x9AC6, by unfold State.Quiet State.Calm; decide +kernel⟩
  · exact ⟨(atMode .run).put PACK_STATE_CODE 5, Master.spi, 0x9AC6, by unfold State.Quiet State.Calm; decide +kernel⟩
  · exact ⟨(atMode .run).put PACK_STATE_CODE 3, Master.spi, 0x9AC6, by unfold State.Quiet State.Calm; decide +kernel⟩
  · exact ⟨(atMode .run).put PACK_STATE_CODE 7, Master.spi, 0x9AC6, by unfold State.Quiet State.Calm; decide +kernel⟩
  · exact ⟨(atMode .run).put PACK_STATE_CODE 3, Master.spi, 0x9AC7, by unfold State.Quiet State.Calm; decide +kernel⟩
  · exact ⟨(atMode .run).put PACK_STATE_CODE 3, Master.spi, 0x9AC7, by unfold State.Quiet State.Calm; decide +kernel⟩
  · exact ⟨(atMode .run).put PACK_STATE_CODE 3, Master.spi, 0x9AC7, by unfold State.Quiet State.Calm; decide +kernel⟩
  · exact ⟨{ (atMode .run).put PACK_STATE_CODE 10 with pack := { (atMode .run).pack with hicFrom := 3 } }, by decide +kernel⟩
  · exact ⟨atMode .run, by decide +kernel⟩
  · exact ⟨{ (atMode .run).put PACK_STATE_CODE 4 with pack := { (atMode .run).pack with noCs := 4 } }, by decide +kernel⟩
  · exact ⟨atMode .run, by decide +kernel⟩

/-- Each clause of BranchFeeds has a state and operands that meet its hypotheses. -/
theorem witness_BranchFeeds :
    (∃ (s : State) (n : Fin 8), s.feedCode n ≠ 3 ∧ s.feedCode n ≠ 4) ∧
    (∃ (s : State) (n : Fin 8), (s.feedCode n = 3 ∨ s.feedCode n = 4)) ∧
    (∃ (s : State) (n : Fin 8), ((s.feedCode n = 3 ∨ s.feedCode n = 4) ∧ (s.fd n).above = true ∧
      (atLeast1 (s.get (feedF FEEDS_LIM_T_OC n)) : Int) * 400000 ≤ (s.fd n).span)) ∧
    (∃ (s : State) (n : Fin 8), ((s.feedCode n ≠ 3 ∧ s.feedCode n ≠ 4) ∨ (s.fd n).above = false ∨
      (s.fd n).span < (atLeast1 (s.get (feedF FEEDS_LIM_T_OC n)) : Int) * 400000)) ∧
    (∃ (s : State) (n : Fin 8), ((s.feedCode n = 3 ∨ s.feedCode n = 4) ∧ 4 ≤ (s.fd n).noRes)) ∧
    (∃ (s : State) (n : Fin 8), ((s.feedCode n ≠ 3 ∧ s.feedCode n ≠ 4) ∨ (s.fd n).noRes < 4)) ∧
    (∃ (s : State) (n : Fin 8), s.bankLow 1 = false ∧ s.dev.pll = true ∧ s.seated n = false) ∧
    (∃ (s : State) (n : Fin 8), (s.bankLow 1 = true ∨ s.dev.pll = false ∨ s.seated n = true)) ∧
    (∃ (s : State) (n : Fin 8), s.dev.pll = true ∧ s.feedCode n ≠ 0) ∧
    (∃ (s : State), s.dev.pll = false) ∧
    (∃ (s : State) (n : Fin 8), s.dev.pll = true ∧ s.feedCode n = 0) ∧
    (∃ (s : State) (n : Fin 8), s.feedTurn n = true ∧ s.on (cmpHold (24 + n.val)) = false) ∧
    (∃ (s : State) (n : Fin 8), s.feedTurn n = true ∧ s.on (cmpHold (24 + n.val)) = true ∧ s.on (cmpTState (24 + n.val)) = true) ∧
    (∃ (s : State) (n : Fin 8), s.feedTurn n = false) ∧
    (∃ (s : State) (n : Fin 8) (u : Int), (s.fd n).pgSince = some u ∧ (s.feedCode n = 3 ∧ u + 400000 ≤ s.tMarker)) ∧
    (∃ (s : State) (n : Fin 8), (s.feedCode n ≠ 3 ∨ (s.fd n).pgSince = none)) ∧
    (∃ (s : State) (n : Fin 8) (u : Int), (s.fd n).pgSince = some u ∧ s.tMarker < u + 400000) ∧
    (∃ (s : State) (n : Fin 8) (u : Int), (s.fd n).startT = some u ∧ (s.feedCode n = 3 ∧ u + (atLeast1 (s.get FEEDS_LIMITS_T_START_MAX) : Int) * 400000 ≤ s.tMarker)) ∧
    (∃ (s : State) (n : Fin 8), (s.feedCode n ≠ 3 ∨ (s.fd n).startT = none)) ∧
    (∃ (s : State) (n : Fin 8) (u : Int), (s.fd n).startT = some u ∧ s.tMarker < u + (atLeast1 (s.get FEEDS_LIMITS_T_START_MAX) : Int) * 400000) ∧
    (∃ (s : State) (n : Fin 8), (s.feedCode n = 6 ∧ (s.fd n).offLeft = 0 ∧ s.on (feedF FEEDS_CFG_AUTO n) = true ∧ s.seated n = true ∧ s.mode ≠ .service ∧
      ((s.fd n).hotTrip = false ∨ s.getI (feedF FEEDS_TJ_T n) ≤ 16 * ((s.get FEEDS_LIMITS_T_FET_MAX : Int) - 20)))) ∧
    (∃ (s : State) (n : Fin 8), (s.feedCode n ≠ 6 ∨ (s.fd n).offLeft ≠ 0 ∨ s.on (feedF FEEDS_CFG_AUTO n) = false ∨ s.seated n = false ∨ s.mode = .service ∨
      ((s.fd n).hotTrip = true ∧ 16 * ((s.get FEEDS_LIMITS_T_FET_MAX : Int) - 20) < s.getI (feedF FEEDS_TJ_T n)))) ∧
    (∃ (s : State) (n : Fin 8), s.feedCode n = 4 ∧ (s.fd n).onT + (s.get FEEDS_GOOD_T_GOOD : Int) * 400000000 ≤ s.tMarker) ∧
    (∃ (s : State) (n : Fin 8), (s.feedCode n ≠ 4 ∨ s.tMarker < (s.fd n).onT + (s.get FEEDS_GOOD_T_GOOD : Int) * 400000000)) ∧
    (∃ (s : State), s.mode ≠ .service) ∧
    (∃ (s : State), s.mode = .service ∧ s.on FAULT_HOLDS_SHED = false) ∧
    (∃ (s : State) (m : Master) (key : BitVec 16), s.accepts m = true ∧ hostMaster m = true ∧ s.Quiet ∧ key = 0x3F0D) ∧
    (∃ (s : State) (m : Master) (key : BitVec 16), s.accepts m = true ∧ hostMaster m = true ∧ s.Quiet ∧ key = 0x3F0D ∧ s.mode ≠ .service) ∧
    (∃ (s : State) (m : Master) (key : BitVec 16), s.accepts m = true ∧ hostMaster m = true ∧ s.Quiet ∧ key = 0x3F0D ∧ s.mode = .service) ∧
    (∃ (s : State) (m : Master) (key : BitVec 16), s.accepts m = true ∧ hostMaster m = true ∧ s.Quiet ∧ key ≠ 0x3F0D) ∧
    (∃ (s : State) (m : Master) (key : BitVec 16), s.accepts m = true ∧ hostMaster m = true ∧ s.Quiet ∧ key ≠ 0x3F0D) := by
  refine ⟨?_, ?_, ?_, ?_, ?_, ?_, ?_, ?_, ?_, ?_, ?_, ?_, ?_, ?_, ?_, ?_, ?_, ?_, ?_, ?_, ?_, ?_, ?_, ?_, ?_, ?_, ?_, ?_, ?_, ?_, ?_⟩
  · exact ⟨((atMode .run).put (feedF FEEDS_STATE_CODE 2) 5), 2, by decide +kernel⟩
  · exact ⟨((atMode .run).put (feedF FEEDS_STATE_CODE 2) 4), 2, by decide +kernel⟩
  · exact ⟨(((atMode .run).put (feedF FEEDS_STATE_CODE 2) 4)).setFd 2 { (atMode .run).fd 2 with above := true, span := 100000000000 }, 2, by decide +kernel⟩
  · exact ⟨atMode .run, 2, by decide +kernel⟩
  · exact ⟨(((atMode .run).put (feedF FEEDS_STATE_CODE 2) 4)).setFd 2 { (atMode .run).fd 2 with noRes := 4 }, 2, by decide +kernel⟩
  · exact ⟨atMode .run, 2, by decide +kernel⟩
  · exact ⟨((atMode .run).put (feedF FEEDS_STATE_CODE 2) 1), 2, by decide +kernel⟩
  · exact ⟨{ atMode .run with dev := { (atMode .run).dev with vddioLow := 2 } }, 2, by decide +kernel⟩
  · exact ⟨((atMode .run).put (feedF FEEDS_STATE_CODE 2) 4), 2, by decide +kernel⟩
  · exact ⟨{ atMode .run with dev := { (atMode .run).dev with pll := false } }, by decide +kernel⟩
  · exact ⟨atMode .run, 2, by decide +kernel⟩
  · exact ⟨((atMode .run).put (feedF FEEDS_STATE_CODE 2) 2), 2, by decide +kernel⟩
  · exact ⟨((((atMode .run).put (feedF FEEDS_STATE_CODE 2) 2)).put (cmpHold 26) 1).put (cmpTState 26) 1, 2, by decide +kernel⟩
  · exact ⟨atMode .run, 2, by decide +kernel⟩
  · exact ⟨(((atMode .run).put (feedF FEEDS_STATE_CODE 2) 3)).setFd 2 { (atMode .run).fd 2 with pgSince := some (-400000) }, 2, (-400000), rfl, by decide +kernel⟩
  · exact ⟨atMode .run, 2, by decide +kernel⟩
  · exact ⟨(((atMode .run).put (feedF FEEDS_STATE_CODE 2) 3)).setFd 2 { (atMode .run).fd 2 with pgSince := some 0 }, 2, 0, rfl, by decide +kernel⟩
  · exact ⟨(((atMode .run).put (feedF FEEDS_STATE_CODE 2) 3)).setFd 2 { (atMode .run).fd 2 with startT := some (-400000000) }, 2, (-400000000), rfl, by decide +kernel⟩
  · exact ⟨atMode .run, 2, by decide +kernel⟩
  · exact ⟨(((atMode .run).put (feedF FEEDS_STATE_CODE 2) 3)).setFd 2 { (atMode .run).fd 2 with startT := some 0 }, 2, 0, rfl, by decide +kernel⟩
  · exact ⟨((((atMode .run).put (feedF FEEDS_STATE_CODE 2) 6).put (feedF FEEDS_CFG_AUTO 2) 1).put FEEDS_LIMITS_T_FET_MAX 150).setSeat 2 true, 2, by decide +kernel⟩
  · exact ⟨atMode .run, 2, by decide +kernel⟩
  · exact ⟨(((atMode .run).put (feedF FEEDS_STATE_CODE 2) 4).put (feedF FEEDS_STATE_CONSEC 2) 3).setFd 2 { (atMode .run).fd 2 with onT := -400000000000000 }, 2, by decide +kernel⟩
  · exact ⟨atMode .run, 2, by decide +kernel⟩
  · exact ⟨(((atMode .run).put (feedF FEEDS_STATE_CODE 2) 4).put FEEDS_LEVEL_L 2).put DISPATCH_INCAP_SHEDLVL 3, by decide +kernel⟩
  · exact ⟨((atMode .service).put (feedF FEEDS_STATE_CODE 2) 5), by decide +kernel⟩
  · exact ⟨((atMode .run).put (feedF FEEDS_STATE_CODE 2) 7), Master.spi, 0x3F0D, by unfold State.Quiet State.Calm; decide +kernel⟩
  · exact ⟨((atMode .run).put (feedF FEEDS_STATE_CODE 2) 6), Master.spi, 0x3F0D, by unfold State.Quiet State.Calm; decide +kernel⟩
  · exact ⟨((atMode .service).put (feedF FEEDS_STATE_CODE 2) 6), Master.spi, 0x3F0D, by unfold State.Quiet State.Calm; decide +kernel⟩
  · exact ⟨((atMode .run).put (feedF FEEDS_STATE_CODE 2) 7), Master.spi, 0x3F0E, by unfold State.Quiet State.Calm; decide +kernel⟩
  · exact ⟨((atMode .run).put (feedF FEEDS_STATE_CODE 2) 7), Master.spi, 0x3F0E, by unfold State.Quiet State.Calm; decide +kernel⟩

/-- Each clause of RailJudgements has a state and operands that meet its hypotheses. -/
theorem witness_RailJudgements :
    (∃ (s : State) (r : Fin 15) (uv : Nat), s.Quiet ∧ (match railPage r.val with | some pg => s.injOn pg 1 | none => false) = false ∧ (s.rs r).phase ≠ .falling ∧
      s.railWindow r = true ∧ s.railUnder r uv = false ∧ s.railOver r uv = false) ∧
    (∃ (s : State) (r : Fin 15), s.Quiet ∧ (match railPage r.val with | some pg => s.injOn pg 1 | none => false) = false ∧ (s.rs r).phase ≠ .falling ∧
      s.railOn r.val = false) ∧
    (∃ (s : State) (r : Fin 15) (uv : Nat), s.Quiet ∧ (match railPage r.val with | some pg => s.injOn pg 1 | none => false) = false ∧ (s.rs r).phase = .falling ∧
      s.railBelow r uv = true) ∧
    (∃ (s : State) (r : Fin 15) (uv : Nat), s.Quiet ∧ (match railPage r.val with | some pg => s.injOn pg 1 | none => false) = false ∧ (s.rs r).phase = .good ∧
      s.railOn r.val = true ∧ s.railPg r.val = true ∧ s.seqPhase ≠ 3 ∧ s.get SEQ_FIRST_KIND = 0 ∧ s.railUnder r uv = true ∧
      s.railOver r uv = false) ∧
    (∃ (s : State) (r : Fin 15) (uv : Nat), s.Quiet ∧ (match railPage r.val with | some pg => s.injOn pg 1 | none => false) = false ∧ (s.rs r).phase = .good ∧
      s.railOn r.val = true ∧ s.railPg r.val = true ∧ s.seqPhase ≠ 3 ∧ s.get SEQ_FIRST_KIND = 0 ∧ s.railOver r uv = true) ∧
    (∃ (s : State) (uv : Nat), s.Quiet ∧ s.injOn PG_SEQ 1 = false ∧ s.seq.hold = true ∧ uv < 10000 * s.vhbFallAt) ∧
    (∃ (s : State) (uv : Nat), s.Quiet ∧ s.injOn PG_SEQ 1 = false ∧ 10000 * s.vhbFallAt ≤ uv ∧ uv ≤ 10000 * s.get SEQ_VHB_V_HBON) ∧
    (∃ (s : State) (r : Fin 15), s.Quiet ∧ (s.rs r).phase = .delay) ∧
    (∃ (s : State) (r : Fin 15), s.Quiet ∧ (s.rs r).phase ≠ .delay) ∧
    (∃ (s : State) (r : Fin 15), (s.rs r).phase = .ramp) ∧
    (∃ (s : State) (r : Fin 15), (s.rs r).phase ≠ .ramp) ∧
    (∃ (s : State) (r : Fin 15), s.Quiet ∧ (s.rs r).phase = .ready ∧ (s.rs r).inside = true) ∧
    (∃ (s : State) (r : Fin 15), (s.Quiet ∧ ((s.rs r).phase ≠ .ready ∨ (s.rs r).inside = false))) ∧
    (∃ (s : State) (r : Fin 15), (s.Quiet ∧ ((s.rs r).phase = .delay ∨ (s.rs r).phase = .ramp ∨ (s.rs r).phase = .ready ∨ (s.rs r).phase = .hiccup) ∧ s.seqPhase = 1)) ∧
    (∃ (s : State) (r : Fin 15), (s.Quiet ∧ ((s.rs r).phase = .off ∨ (s.rs r).phase = .good ∨ (s.rs r).phase = .falling ∨ s.seqPhase ≠ 1))) ∧
    (∃ (s : State) (r : Fin 15), s.Quiet ∧ (s.rs r).phase = .falling) ∧
    (∃ (s : State) (r : Fin 15), s.Quiet ∧ (s.rs r).phase ≠ .falling) ∧
    (∃ (s : State) (r : Fin 15), (s.Quiet ∧ (s.rs r).phase ≠ .hiccup ∨ s.Quiet ∧ (s.rs r).blocked = true)) ∧
    (∃ (s : State) (r : Fin 15), s.Quiet ∧ (s.rs r).phase = .hiccup ∧ (s.rs r).blocked = false) ∧
    (∃ (s : State), s.Quiet ∧ s.get SVC_STATE_CODE = 4) ∧
    (∃ (s : State) (r : Fin 7), (s.rs (Fin.castLE (by decide) r)).native = false ∧ 4 ≤ (s.rs (Fin.castLE (by decide) r)).noComp) ∧
    (∃ (s : State) (r : Fin 7), ((s.rs (Fin.castLE (by decide) r)).native = true ∨ (s.rs (Fin.castLE (by decide) r)).noComp < 4)) ∧
    (∃ (s : State), s.Quiet) := by
  refine ⟨?_, ?_, ?_, ?_, ?_, ?_, ?_, ?_, ?_, ?_, ?_, ?_, ?_, ?_, ?_, ?_, ?_, ?_, ?_, ?_, ?_, ?_, ?_⟩
  · exact ⟨((atMode .run).setRs 3 { railOff with phase := .good, vref := 600000 }), (3 : Fin 15), 600000, by unfold State.Quiet State.Calm; decide +kernel⟩
  · exact ⟨((atMode .run).setRs 3 { railOff with phase := .off, vref := 600000 }), (3 : Fin 15), by unfold State.Quiet State.Calm; decide +kernel⟩
  · exact ⟨((atMode .run).setRs 3 { railOff with phase := .falling, vref := 600000 }), (3 : Fin 15), 100, by unfold State.Quiet State.Calm; decide +kernel⟩
  · exact ⟨(((atMode .run).setRs 3 { railOff with phase := .good, vref := 600000 }).put SEQ_PGOOD_ON 8).put SEQ_PGOOD_PG 8, (3 : Fin 15), 100, by unfold State.Quiet State.Calm; decide +kernel⟩
  · exact ⟨(((atMode .run).setRs 3 { railOff with phase := .good, vref := 600000 }).put SEQ_PGOOD_ON 8).put SEQ_PGOOD_PG 8, (3 : Fin 15), 5000000, by unfold State.Quiet State.Calm; decide +kernel⟩
  · exact ⟨({ (atMode .run).put SEQ_VHB_V_HBFALL 900 with seq := { (atMode .run).seq with hold := true } } : State), 1000, by unfold State.Quiet State.Calm; decide +kernel⟩
  · exact ⟨(((atMode .run).put SEQ_VHB_V_HBFALL 900).put SEQ_VHB_V_HBON 2000), 15000000, by unfold State.Quiet State.Calm; decide +kernel⟩
  · exact ⟨((atMode .run).setRs 3 { railOff with phase := .delay }), (3 : Fin 15), by unfold State.Quiet State.Calm; decide +kernel⟩
  · exact ⟨atMode .run, (3 : Fin 15), by unfold State.Quiet State.Calm; decide +kernel⟩
  · exact ⟨((atMode .run).setRs 3 { railOff with phase := .ramp }), (3 : Fin 15), by decide +kernel⟩
  · exact ⟨atMode .run, (3 : Fin 15), by decide +kernel⟩
  · exact ⟨((atMode .run).setRs 3 { railOff with phase := .ready, inside := true }), (3 : Fin 15), by unfold State.Quiet State.Calm; decide +kernel⟩
  · exact ⟨atMode .run, (3 : Fin 15), by unfold State.Quiet State.Calm; decide +kernel⟩
  · exact ⟨(((atMode .run).setRs 3 { railOff with phase := .ready })).put SEQ_STATE_PHASE 1, (3 : Fin 15), by unfold State.Quiet State.Calm; decide +kernel⟩
  · exact ⟨atMode .run, (3 : Fin 15), by unfold State.Quiet State.Calm; decide +kernel⟩
  · exact ⟨((atMode .run).setRs 3 { railOff with phase := .falling }), (3 : Fin 15), by unfold State.Quiet State.Calm; decide +kernel⟩
  · exact ⟨atMode .run, (3 : Fin 15), by unfold State.Quiet State.Calm; decide +kernel⟩
  · exact ⟨atMode .run, (3 : Fin 15), by unfold State.Quiet State.Calm; decide +kernel⟩
  · exact ⟨((atMode .run).setRs 3 { railOff with phase := .hiccup }), (3 : Fin 15), by unfold State.Quiet State.Calm; decide +kernel⟩
  · exact ⟨(atMode .run).put SVC_STATE_CODE 4, by unfold State.Quiet State.Calm; decide +kernel⟩
  · exact ⟨((atMode .run).setRs 3 { railOff with phase := .good, native := false, noComp := 4 }), (3 : Fin 7), by decide +kernel⟩
  · exact ⟨atMode .run, (3 : Fin 7), by decide +kernel⟩
  · exact ⟨atMode .run, by unfold State.Quiet State.Calm; decide +kernel⟩

/-- Each clause of Sequencer has a state and operands that meet its hypotheses. -/
theorem witness_Sequencer :
    (∃ (s : State) (k : Nat), s.slotNext = some k ∧ s.Quiet) ∧
    (∃ (s : State), (s.Quiet ∧ s.slotNext = none ∧ s.seqPhase = 1 ∧ s.seq.hold = false ∧ (List.finRange 15).all (fun r => s.risen r) = true)) ∧
    (∃ (s : State) (top : Nat), s.fallNext = some top ∧ s.Quiet) ∧
    (∃ (s : State), s.Quiet ∧ s.fallNext = none ∧ s.seqPhase ≠ 3) ∧
    (∃ (s : State), s.mode = .cellar ∧ s.dev.onAtFall = true ∧ s.dev.bias ≠ .none) ∧
    (∃ (s : State), s.mode ≠ .cellar ∧ s.mode ≠ .fall ∧ s.seqPhase = 5 ∧ s.Quiet) ∧
    (∃ (s : State) (g : Fin 4), s.resetMay g.val = true) ∧
    (∃ (s : State) (g : Fin 4), s.resetMay g.val = false) := by
  refine ⟨?_, ?_, ?_, ?_, ?_, ?_, ?_, ?_⟩
  · exact ⟨((atMode .run).put SEQ_STATE_PHASE 1).put (SEQ_RAIL_EN.el 8) 1, ((((atMode .run).put SEQ_STATE_PHASE 1).put (SEQ_RAIL_EN.el 8) 1).railOrder 8), rfl, by unfold State.Quiet State.Calm; decide +kernel⟩
  · exact ⟨(atMode .run).put SEQ_STATE_PHASE 1, by unfold State.Quiet State.Calm; decide +kernel⟩
  · exact ⟨((((atMode .safe).setRs 3 { railOff with phase := .good })).put SEQ_STATE_PHASE 3).put SEQ_PGOOD_ON 8, (({ ((((atMode .safe).setRs 3 { railOff with phase := .good }).put SEQ_STATE_PHASE 3).put SEQ_PGOOD_ON 8) with fresh := 0 } : State).fallKey 3), rfl, by unfold State.Quiet State.Calm; decide +kernel⟩
  · exact ⟨atMode .safe, by unfold State.Quiet State.Calm; decide +kernel⟩
  · exact ⟨{ State.reset with dev := { State.reset.dev with bias := .vib, onAtFall := true } }, by decide +kernel⟩
  · exact ⟨(atMode .safe).put SEQ_STATE_PHASE 5, by unfold State.Quiet State.Calm; decide +kernel⟩
  · exact ⟨((atMode .safe).put SEQ_STATE_PHASE 2).put (SEQ_RSTG_MASK.el 1) 0, 1, by decide +kernel⟩
  · exact ⟨((atMode .safe).put SEQ_STATE_PHASE 3).put (SEQ_RSTG_MASK.el 1) 0, 1, by decide +kernel⟩

/-- Each clause of TemperaturesAndThrottling has a state and operands that meet its hypotheses. -/
theorem witness_TemperaturesAndThrottling :
    (∃ (s : State) (table : Fin 4) (entry : Fin 16) (k : Fin 8), bitsOf ((s.resultCfg 3 (16 * (table.val % 4) + entry.val % 16))) 0 6 = 16 + k.val ∧ s.get (THERM_AUXCFG_MODE.el k.val) = 2 ∧
      s.injOn PG_THERM 2 = false) ∧
    (∃ (s : State) (table : Fin 4) (entry : Fin 16) (k : Fin 12), bitsOf ((s.resultCfg 3 (16 * (table.val % 4) + entry.val % 16))) 0 6 = 40 + k.val ∧
      bitsOf ((s.resultCfg 3 (16 * (table.val % 4) + entry.val % 16))) 12 2 ≠ 0 ∧
      ((s.rd (adcPage 3 * 0x400 + 0x300 + 4 * (16 * (table.val % 4) + entry.val % 16))).toNat % 4096) = 4095) ∧
    (∃ (s : State) (table : Fin 4) (entry : Fin 16), ((bitsOf ((s.resultCfg 3 (16 * (table.val % 4) + entry.val % 16))) 0 6 < 16 ∨
      (23 < bitsOf ((s.resultCfg 3 (16 * (table.val % 4) + entry.val % 16))) 0 6 ∧
      bitsOf ((s.resultCfg 3 (16 * (table.val % 4) + entry.val % 16))) 0 6 < 40) ∨
      51 < bitsOf ((s.resultCfg 3 (16 * (table.val % 4) + entry.val % 16))) 0 6))) ∧
    (∃ (s : State) (m : Master), s.accepts m = true ∧ hostMaster m = true ∧ s.enabled PG_THERM = true ∧ s.dev.freset.contains PG_THERM = false) ∧
    (∃ (s : State) (m : Master), s.accepts m = true ∧ hostMaster m = true ∧ s.enabled PG_THERM = false ∧ s.dev.freset.contains PG_THERM = false) ∧
    (∃ (s : State), s.enabled PG_THERM = true) ∧
    (∃ (s : State), s.enabled PG_THERM = false) ∧
    (∃ (s : State), s.injOn PG_THERM 1 = false) := by
  refine ⟨?_, ?_, ?_, ?_, ?_, ?_, ?_, ?_⟩
  · exact ⟨(((atMode .run).setBank 3 { (atMode .run).bank 3 with conv := [(1, 19)] }).wr (adcPage 3 * 0x400 + 0x304) 1000).put (THERM_AUXCFG_MODE.el 3) 2, 0, 1, 3, by decide +kernel⟩
  · exact ⟨((atMode .run).setBank 3 { (atMode .run).bank 3 with conv := [(1, 0x102B)] }).wr (adcPage 3 * 0x400 + 0x304) 0xFFF, 0, 1, 3, by decide +kernel⟩
  · exact ⟨atMode .run, 0, 1, by decide +kernel⟩
  · exact ⟨(atMode .run).wr (hdrAddr PG_THERM hdrCTRL) 1, Master.spi, by decide +kernel⟩
  · exact ⟨(atMode .run).wr (hdrAddr PG_THERM hdrCTRL) 0, Master.spi, by decide +kernel⟩
  · exact ⟨(atMode .run).wr (hdrAddr PG_THERM hdrCTRL) 1, by decide +kernel⟩
  · exact ⟨(atMode .run).wr (hdrAddr PG_THERM hdrCTRL) 0, by decide +kernel⟩
  · exact ⟨atMode .run, by decide +kernel⟩

/-- Each clause of FaultLines has a state and operands that meet its hypotheses. -/
theorem witness_FaultLines :
    (∃ (s : State), s.guardRuns = true) ∧
    (∃ (s : State), s.guardRuns = false) ∧
    (∃ (s : State) (sources : List (Fin 64)) (p : LinePulse), s.guardRuns = true ∧ s.Quiet ∧ s.pulsesOf (sources.map Fin.val) = [p] ∧ s.faultSet p.src = false ∧ s.classOf p.src = 0 ∧
      s.on FAULT_REACT_BUSY = false ∧ s.fault.latched = [] ∧ s.on FAULT_HOLDS_SHED = false ∧ s.on FAULT_HOLDS_HALT = false ∧
      s.on FAULT_HOLDS_FULL = false) ∧
    (∃ (s : State) (sources : List (Fin 64)) (p : LinePulse), s.guardRuns = true ∧ s.Quiet ∧ s.pulsesOf (sources.map Fin.val) = [p] ∧ s.faultSet p.src = false ∧ s.classOf p.src = 3 ∧
      s.on FAULT_REACT_BUSY = false ∧ s.mode = .run ∧ p.src ≠ 5 ∧ s.fault.latched = [] ∧ s.on FAULT_HOLDS_SHED = false ∧
      s.on FAULT_HOLDS_HALT = false ∧ s.on FAULT_HOLDS_FULL = false) ∧
    (∃ (s : State) (sources : List (Fin 64)), (s.Quiet ∧ (s.guardRuns = false ∨ s.pulsesOf (sources.map Fin.val) = []))) ∧
    (∃ (s : State), s.guardRuns = true ∧ s.Quiet) ∧
    (∃ (s : State), s.guardRuns = false ∧ s.Quiet) ∧
    (∃ (s : State), (s.on FAULT_REACT_BUSY = true ∧ (s.get FAULT_REACT_CLASS < 2 ∨ s.fault.rbFirst = true))) ∧
    (∃ (s : State), (s.on FAULT_REACT_BUSY = false ∨ (2 ≤ s.get FAULT_REACT_CLASS ∧ s.fault.rbFirst = false))) ∧
    (∃ (s : State), s.guardRuns = true ∧ s.on FAULT_HOLDS_HALT = true ∧ s.injOn PG_FAULT 1 = false) ∧
    (∃ (s : State), (s.guardRuns = false ∨ s.on FAULT_HOLDS_HALT = false)) := by
  refine ⟨?_, ?_, ?_, ?_, ?_, ?_, ?_, ?_, ?_, ?_, ?_⟩
  · exact ⟨atMode .run, by decide +kernel⟩
  · exact ⟨dark, by decide +kernel⟩
  · exact ⟨({ atMode .run with fault := { (atMode .run).fault with lines := [⟨40, false, 0, 0⟩] } } : State).put (classField 40) 0, ([40] : List (Fin 64)), (⟨40, false, 0, 0⟩ : LinePulse), by unfold State.Quiet State.Calm; decide +kernel⟩
  · exact ⟨({ atMode .run with fault := { (atMode .run).fault with lines := [⟨40, false, 0, 0⟩] } } : State).put (classField 40) 3, ([40] : List (Fin 64)), (⟨40, false, 0, 0⟩ : LinePulse), by unfold State.Quiet State.Calm; decide +kernel⟩
  · exact ⟨atMode .run, ([40] : List (Fin 64)), by unfold State.Quiet State.Calm; decide +kernel⟩
  · exact ⟨atMode .run, by unfold State.Quiet State.Calm; decide +kernel⟩
  · exact ⟨dark, by unfold State.Quiet State.Calm; decide +kernel⟩
  · exact ⟨(atMode .run).put FAULT_REACT_BUSY 1, by decide +kernel⟩
  · exact ⟨atMode .run, by decide +kernel⟩
  · exact ⟨(atMode .run).put FAULT_HOLDS_HALT 1, by decide +kernel⟩
  · exact ⟨atMode .run, by decide +kernel⟩

/-- Each clause of FaultRegisters has a state and operands that meet its hypotheses. -/
theorem witness_FaultRegisters :
    (∃ (s : State) (m : Master) (hi : Bool) (v : Word) (k : Nat), s.accepts m = true ∧ hostMaster m = true ∧ s.Quiet ∧ k / 32 = b2n hi ∧ k < 64 ∧ bitOf v.toNat (k % 32) = true ∧
      s.faultSet k = true ∧ s.fault.latched = [(k, 0)] ∧ s.on FAULT_HOLDS_SHED = false ∧ s.on FAULT_HOLDS_HALT = false ∧
      s.on FAULT_HOLDS_FULL = false) ∧
    (∃ (s : State) (m : Master) (hi : Bool) (v : Word) (k : Nat), s.accepts m = true ∧ hostMaster m = true ∧ s.Quiet ∧ k / 32 = b2n hi ∧ k < 64 ∧ bitOf v.toNat (k % 32) = true ∧
      s.faultSet k = true ∧ s.fault.latched = [(k, 1)] ∧ s.srcActive k = true ∧ s.on FAULT_HOLDS_SHED = true ∧
      s.on FAULT_HOLDS_HALT = false ∧ s.on FAULT_HOLDS_FULL = false) ∧
    (∃ (s : State) (m : Master), s.accepts m = true ∧ hostMaster m = true) ∧
    (∃ (s : State) (m : Master), s.accepts m = true ∧ hostMaster m = true) ∧
    (∃ (s : State) (m : Master), s.accepts m = true ∧ hostMaster m = true) ∧
    (∃ (s : State) (m : Master), s.accepts m = true ∧ hostMaster m = true ∧ s.on FAULT_CFG_LOCK = false) ∧
    (∃ (s : State) (m : Master), s.accepts m = true ∧ hostMaster m = true ∧ s.on FAULT_CFG_LOCK = true) ∧
    (∃ (s : State) (e : List Byte) (l : List (List Byte)), s.fault.logq = e :: l ∧ s.busy = false) ∧
    (∃ (s : State), (s.fault.logq = [] ∨ s.busy = true)) := by
  refine ⟨?_, ?_, ?_, ?_, ?_, ?_, ?_, ?_, ?_⟩
  · exact ⟨({ atMode .run with fault := { (atMode .run).fault with latched := [(40, 0)] } } : State).putFault 40 true, Master.spi, true, 0x100, 40, by unfold State.Quiet State.Calm; decide +kernel⟩
  · exact ⟨((({ atMode .run with fault := { (atMode .run).fault with latched := [(57, 1)] } } : State).putFault 57 true).put FAULT_RAISE_SET 1).put FAULT_HOLDS_SHED 1, Master.spi, true, 0x2000000, 57, by unfold State.Quiet State.Calm; decide +kernel⟩
  · exact ⟨atMode .run, Master.spi, by decide +kernel⟩
  · exact ⟨(atMode .run).put FAULT_RAISE_SET 7, Master.spi, by decide +kernel⟩
  · exact ⟨atMode .run, Master.spi, by decide +kernel⟩
  · exact ⟨atMode .run, Master.spi, by decide +kernel⟩
  · exact ⟨(atMode .run).put FAULT_CFG_LOCK 1, Master.spi, by decide +kernel⟩
  · exact ⟨({ (atMode .run).store (faultLog + 8) 4 3 with fault := { (atMode .run).fault with logq := [List.replicate 26 1] } } : State), (List.replicate 26 1 : List Byte), ([] : List (List Byte)), by decide +kernel⟩
  · exact ⟨atMode .run, by decide +kernel⟩

/-- Each clause of RealTimeClock has a state and operands that meet its hypotheses. -/
theorem witness_RealTimeClock :
    (∃ (s : State), s.Quiet ∧ s.injOn PG_RTC 1 = false ∧ s.injOn PG_WDOG 2 = false ∧ s.on (RTC_ALM_HI_EN.el 0) = false ∧
      s.on (RTC_ALM_HI_EN.el 1) = false) ∧
    (∃ (s : State), (s.Quiet ∧ s.injOn PG_RTC 1 = false ∧ s.injOn PG_WDOG 2 = false ∧ s.on (RTC_ALM_HI_EN.el 0) = true ∧
      s.on (RTC_ALM_HI_EN.el 1) = false ∧ s.cellar.count < s.almValue 0 ∧
      s.almValue 0 ≤ (s.cellar.count + (if 10000000 ≤ (s.cellar.trimAcc + s.rtcTrim) then 2 else if (s.cellar.trimAcc + s.rtcTrim) ≤ -10000000 then 0 else 1)) % 2 ^ 48 ∧
      s.get (RTC_ALM_PER_PER.el 0) = 0 ∧ (s.on (RTC_ALM_HI_WAKE.el 0) = false ∨ (s.mode ≠ .cellar ∧ s.mode ≠ .hibernate)))) ∧
    (∃ (s : State), s.cellar.fallback = false) ∧
    (∃ (s : State), s.cellar.fallback = true) ∧
    (∃ (s : State), s.cellar.fallback = true) ∧
    (∃ (s : State), s.cellar.fallback = false) ∧
    (∃ (s : State) (m : Master), s.accepts m = true ∧ s.injOn PG_RTC 0 = false ∧ s.frozenOf (masterId m) = none) ∧
    (∃ (s : State) (m : Master) (v : Nat), s.accepts m = true ∧ s.injOn PG_RTC 0 = false ∧ s.frozenOf (masterId m) = some v) ∧
    (∃ (s : State) (m : Master) (v : Nat), s.accepts m = true ∧ s.injOn PG_RTC 0 = false ∧ s.frozenOf (masterId m) = some v) ∧
    (∃ (s : State) (m : Master), s.accepts m = true ∧ s.injOn PG_RTC 0 = false ∧ s.frozenOf (masterId m) = none) ∧
    (∃ (s : State) (m : Master), (s.frozenOf (masterId m)).isSome = true) ∧
    (∃ (s : State) (m : Master), s.frozenOf (masterId m) = none) ∧
    (∃ (s : State) (m : Master) (key : BitVec 16), s.accepts m = true ∧ hostMaster m = true ∧ key = 0x2C7D) ∧
    (∃ (s : State) (m : Master) (key : BitVec 16), s.accepts m = true ∧ hostMaster m = true ∧ key ≠ 0x2C7D) ∧
    (∃ (s : State) (v : Nat), s.cellar.setWait = some v) ∧
    (∃ (s : State), s.cellar.setWait = none) ∧
    (∃ (s : State) (m : Master), s.accepts m = true ∧ hostMaster m = true) ∧
    (∃ (s : State) (m : Master), s.accepts m = true ∧ hostMaster m = true) ∧
    (∃ (s : State) (m : Master), s.accepts m = true ∧ hostMaster m = true) := by
  refine ⟨?_, ?_, ?_, ?_, ?_, ?_, ?_, ?_, ?_, ?_, ?_, ?_, ?_, ?_, ?_, ?_, ?_, ?_, ?_⟩
  · exact ⟨atMode .run, by unfold State.Quiet State.Calm; decide +kernel⟩
  · exact ⟨((atMode .run).wr (PG_RTC * 0x400 + 0x058) 1).put (RTC_ALM_HI_EN.el 0) 1, by unfold State.Quiet State.Calm; decide +kernel⟩
  · exact ⟨atMode .run, by decide +kernel⟩
  · exact ⟨{ atMode .run with cellar := { (atMode .run).cellar with fallback := true } }, by decide +kernel⟩
  · exact ⟨{ atMode .run with cellar := { (atMode .run).cellar with fallback := true } }, by decide +kernel⟩
  · exact ⟨atMode .run, by decide +kernel⟩
  · exact ⟨{ atMode .run with cellar := { (atMode .run).cellar with count := 0x1200000034, frozen := [(1, 0x500000007)] } }, Master.i2c, by decide +kernel⟩
  · exact ⟨{ atMode .run with cellar := { (atMode .run).cellar with count := 0x1200000034, frozen := [(1, 0x500000007)] } }, Master.spi, 0x500000007, by decide +kernel⟩
  · exact ⟨{ atMode .run with cellar := { (atMode .run).cellar with count := 0x1200000034, frozen := [(1, 0x500000007)] } }, Master.spi, 0x500000007, by decide +kernel⟩
  · exact ⟨{ atMode .run with cellar := { (atMode .run).cellar with count := 0x1200000034, frozen := [(1, 0x500000007)] } }, Master.i2c, by decide +kernel⟩
  · exact ⟨{ atMode .run with cellar := { (atMode .run).cellar with count := 0x1200000034, frozen := [(1, 0x500000007)] } }, Master.spi, by decide +kernel⟩
  · exact ⟨{ atMode .run with cellar := { (atMode .run).cellar with count := 0x1200000034, frozen := [(1, 0x500000007)] } }, Master.i2c, by decide +kernel⟩
  · exact ⟨atMode .run, Master.spi, 0x2C7D, by decide +kernel⟩
  · exact ⟨atMode .run, Master.spi, 0x2C7E, by decide +kernel⟩
  · exact ⟨{ atMode .run with cellar := { (atMode .run).cellar with setWait := some 99 } }, 99, rfl⟩
  · exact ⟨atMode .run, by decide +kernel⟩
  · exact ⟨atMode .run, Master.spi, by decide +kernel⟩
  · exact ⟨(atMode .run).put CELLAR_PWRON_SET 1, Master.spi, by decide +kernel⟩
  · exact ⟨atMode .run, Master.spi, by decide +kernel⟩

/-- Each clause of Watchdog has a state and operands that meet its hypotheses. -/
theorem witness_Watchdog :
    (∃ (s : State) (m : Master), s.accepts m = true ∧ hostMaster m = true ∧ s.wdog.on = false) ∧
    (∃ (s : State) (m : Master), s.accepts m = true ∧ hostMaster m = true ∧ s.wdog.on = true) ∧
    (∃ (s : State) (m : Master) (v : Word) (count : BitVec 16), s.accepts m = true ∧ hostMaster m = true ∧ s.Quiet ∧ s.wdog.on = true ∧ s.wdog.window = true ∧ s.injOn PG_WDOG 1 = false ∧
      v.toNat / 0x10000 = 0x7D1E ∧ atLeast1 (s.get WDOG_WIN_OPEN) ≤ count.toNat ∧ count.toNat < s.wdogClose ∧ s.missingMask = 0) ∧
    (∃ (s : State) (m : Master) (v : Word), s.accepts m = true ∧ hostMaster m = true ∧ s.Quiet ∧ s.wdog.on = true ∧ s.wdog.window = true ∧ s.injOn PG_WDOG 1 = false ∧
      v.toNat / 0x10000 ≠ 0x7D1E ∧ s.on WDOG_CFG_ACTION = true) ∧
    (∃ (s : State) (m : Master) (v : Word) (count : BitVec 16), s.accepts m = true ∧ hostMaster m = true ∧ s.Quiet ∧ s.wdog.on = true ∧ s.wdog.window = true ∧ s.injOn PG_WDOG 1 = false ∧
      v.toNat / 0x10000 = 0x7D1E ∧ count.toNat < atLeast1 (s.get WDOG_WIN_OPEN) ∧ s.on WDOG_CFG_ACTION = true) ∧
    (∃ (s : State) (m : Master) (v : Word) (count : BitVec 16), s.accepts m = true ∧ hostMaster m = true ∧ s.Quiet ∧ s.wdog.on = true ∧ s.wdog.window = true ∧ s.injOn PG_WDOG 1 = false ∧
      v.toNat / 0x10000 = 0x7D1E ∧ atLeast1 (s.get WDOG_WIN_OPEN) ≤ count.toNat ∧ s.missingMask ≠ 0 ∧ s.on WDOG_CFG_ACTION = true) ∧
    (∃ (s : State) (m : Master) (v : Word), s.accepts m = true ∧ hostMaster m = true ∧ s.wdog.on = true ∧ s.wdog.window = true ∧ s.injOn PG_WDOG 1 = false ∧
      v.toNat / 0x10000 ≠ 0x7D1E ∧ s.on WDOG_CFG_ACTION = false) ∧
    (∃ (s : State) (m : Master), (s.accepts m = true ∧ hostMaster m = true ∧ s.Quiet ∧ (s.wdog.on = false ∨ s.wdog.window = false))) ∧
    (∃ (s : State), s.wdogCounting = true ∧ s.wdog.window = true ∧ s.get WDOG_WIN1_WARN ≠ 0) ∧
    (∃ (s : State), (s.wdogCounting = false ∨ s.wdog.window = false ∨ s.get WDOG_WIN1_WARN = 0)) ∧
    (∃ (s : State), s.Quiet ∧ s.wdogCounting = true ∧ s.wdog.window = true ∧ s.on WDOG_CFG_ACTION = true) ∧
    (∃ (s : State), s.wdogCounting = true ∧ s.wdog.window = true ∧ s.on WDOG_CFG_ACTION = false) ∧
    (∃ (s : State), (s.Quiet ∧ (s.wdogCounting = false ∨ s.wdog.window = false))) ∧
    (∃ (s : State), s.guardRuns = true) ∧
    (∃ (s : State), (s.Quiet ∧ s.guardRuns = true ∧ (s.wdog.on = false ∨ s.on WDOG_CFG_CLKSEL = false))) ∧
    (∃ (s : State), s.Quiet ∧ s.guardRuns = true ∧ s.wdog.on = true ∧ s.on WDOG_CFG_CLKSEL = true ∧ s.on WDOG_CFG_ACTION = true) ∧
    (∃ (s : State), s.Quiet ∧ s.guardRuns = false) := by
  refine ⟨?_, ?_, ?_, ?_, ?_, ?_, ?_, ?_, ?_, ?_, ?_, ?_, ?_, ?_, ?_, ?_, ?_⟩
  · exact ⟨atMode .run, Master.spi, by decide +kernel⟩
  · exact ⟨{ atMode .run with wdog := ⟨true, 0, true, List.replicate 16 0, true⟩ }, Master.spi, by decide +kernel⟩
  · exact ⟨((({ atMode .run with wdog := ⟨true, 100, false, List.replicate 16 0, true⟩ }).put WDOG_TASKEN_EN 0).put WDOG_WIN_OPEN 10).put WDOG_WIN_CLOSE 1000, Master.spi, 0x7D1E0000, 200, by unfold State.Quiet State.Calm; decide +kernel⟩
  · exact ⟨({ atMode .run with wdog := ⟨true, 100, false, List.replicate 16 0, true⟩ }).put WDOG_CFG_ACTION 1, Master.spi, 0x7D1F0000, by unfold State.Quiet State.Calm; decide +kernel⟩
  · exact ⟨(({ atMode .run with wdog := ⟨true, 100, false, List.replicate 16 0, true⟩ }).put WDOG_WIN_OPEN 300).put WDOG_CFG_ACTION 1, Master.spi, 0x7D1E0000, 200, by unfold State.Quiet State.Calm; decide +kernel⟩
  · exact ⟨((({ atMode .run with wdog := ⟨true, 100, false, List.replicate 16 0, true⟩ }).put WDOG_TASKEN_EN 2).put ((WDOG_TASKLIM_MIN.el 0).sh 8) 1).put WDOG_CFG_ACTION 1, Master.spi, 0x7D1E0000, 200, by unfold State.Quiet State.Calm; decide +kernel⟩
  · exact ⟨({ atMode .run with wdog := ⟨true, 100, false, List.replicate 16 0, true⟩ }).put WDOG_CFG_ACTION 0, Master.spi, 0x7D1F0000, by decide +kernel⟩
  · exact ⟨atMode .run, Master.spi, by unfold State.Quiet State.Calm; decide +kernel⟩
  · exact ⟨({ atMode .run with wdog := ⟨true, 100, false, List.replicate 16 0, true⟩ }).put WDOG_WIN1_WARN 500, by decide +kernel⟩
  · exact ⟨atMode .run, by decide +kernel⟩
  · exact ⟨({ atMode .run with wdog := ⟨true, 100, false, List.replicate 16 0, true⟩ }).put WDOG_CFG_ACTION 1, by unfold State.Quiet State.Calm; decide +kernel⟩
  · exact ⟨({ atMode .run with wdog := ⟨true, 100, false, List.replicate 16 0, true⟩ }).put WDOG_CFG_ACTION 0, by decide +kernel⟩
  · exact ⟨atMode .run, by unfold State.Quiet State.Calm; decide +kernel⟩
  · exact ⟨atMode .run, by decide +kernel⟩
  · exact ⟨atMode .run, by unfold State.Quiet State.Calm; decide +kernel⟩
  · exact ⟨(({ atMode .run with wdog := ⟨true, 100, false, List.replicate 16 0, true⟩ }).put WDOG_CFG_ACTION 1).put WDOG_CFG_CLKSEL 1, by unfold State.Quiet State.Calm; decide +kernel⟩
  · exact ⟨dark, by unfold State.Quiet State.Calm; decide +kernel⟩

/-- Each clause of EventQueue has a state and operands that meet its hypotheses. -/
theorem witness_EventQueue :
    (∃ (s : State) (f : Firing) (l : List Firing), s.evq.firings = f :: l ∧ s.evqRuns = true ∧ s.on (evqCfg EVQ_CFGA_DONEMODE f.shelfB) = false ∧ s.evqCount f.shelfB ≠ 512) ∧
    (∃ (s : State) (f : Firing) (l : List Firing), s.evq.firings = f :: l ∧ s.evqRuns = true ∧ s.on (evqCfg EVQ_CFGA_DONEMODE f.shelfB) = false ∧ s.evqCount f.shelfB = 512) ∧
    (∃ (s : State) (f : Firing) (l : List Firing), s.evq.firings = f :: l ∧ s.evqRuns = true ∧ s.on (evqCfg EVQ_CFGA_DONEMODE f.shelfB) = true ∧ s.injOn PG_EVQ 1 = false ∧
      s.srcState f.src = none ∧ s.evqCount f.shelfB ≠ 512) ∧
    (∃ (s : State) (f : Firing) (l : List Firing) (x : SrcState), s.evq.firings = f :: l ∧ s.evqRuns = true ∧ s.on (evqCfg EVQ_CFGA_DONEMODE f.shelfB) = true ∧ s.injOn PG_EVQ 1 = false ∧
      s.srcState f.src = some x) ∧
    (∃ (s : State), (s.evq.firings = [] ∨ s.evqRuns = false)) ∧
    (∃ (s : State) (m : Master) (shelfB : Bool) (v : Word), s.accepts m = true ∧ hostMaster m = true ∧ ((v.toNat % 1024 + 1024 - s.get (evqR shelfB)) % 1024) ≤ s.evqCount shelfB) ∧
    (∃ (s : State) (m : Master) (shelfB : Bool) (v : Word), s.accepts m = true ∧ hostMaster m = true ∧ s.evqCount shelfB < ((v.toNat % 1024 + 1024 - s.get (evqR shelfB)) % 1024)) ∧
    (∃ (s : State) (m : Master) (src : BitVec 10), s.accepts m = true ∧ hostMaster m = true ∧ s.injOn PG_EVQ 1 = false ∧ src.toNat < 0x3C8 ∧
      (s.srcState src.toNat).map (·.pend) = some false) ∧
    (∃ (s : State) (m : Master) (src : BitVec 10) (x : SrcState), s.accepts m = true ∧ hostMaster m = true ∧ s.injOn PG_EVQ 1 = false ∧ src.toNat < 0x3C8 ∧ s.srcState src.toNat = some x ∧
      x.pend = true ∧ s.evqCount x.f.shelfB ≠ 512) ∧
    (∃ (s : State) (m : Master) (src : BitVec 10), s.accepts m = true ∧ hostMaster m = true ∧ s.injOn PG_EVQ 1 = false ∧ s.srcState src.toNat = none) ∧
    (∃ (s : State) (shelfB : Bool), (s.evqCount shelfB = 0 ∨ s.enabled PG_EVQ = false)) ∧
    (∃ (s : State) (shelfB : Bool), s.evqCount shelfB ≠ 0 ∧ s.enabled PG_EVQ = true ∧ (s.irqLine shelfB).asserted = false) ∧
    (∃ (s : State) (shelfB : Bool), (s.irqLine shelfB).drained = true) ∧
    (∃ (s : State) (shelfB : Bool), (s.irqLine shelfB).drained = false) ∧
    (∃ (s : State) (shelfB : Bool), (s.irqLine shelfB).notify = true) ∧
    (∃ (s : State) (shelfB : Bool), ((s.irqLine shelfB).notify = false ∧ ((s.irqLine shelfB).asserted = false ∨ s.notifyOn shelfB = false))) := by
  refine ⟨?_, ?_, ?_, ?_, ?_, ?_, ?_, ?_, ?_, ?_, ?_, ?_, ?_, ?_, ?_, ?_⟩
  · exact ⟨({ atMode .run with evq := { (atMode .run).evq with firings := [(⟨0x123, 7, false, false, 5, 6, 7⟩ : Firing)] } } : State).put (evqCfg EVQ_CFGA_DONEMODE false) 0, (⟨0x123, 7, false, false, 5, 6, 7⟩ : Firing), ([] : List Firing), by decide +kernel⟩
  · exact ⟨(({ atMode .run with evq := { (atMode .run).evq with firings := [(⟨0x123, 7, false, false, 5, 6, 7⟩ : Firing)] } } : State).put (evqCfg EVQ_CFGA_DONEMODE false) 0).put EVQ_WPTRA_PTR 512, (⟨0x123, 7, false, false, 5, 6, 7⟩ : Firing), ([] : List Firing), by decide +kernel⟩
  · exact ⟨(({ atMode .run with evq := { (atMode .run).evq with firings := [(⟨0x123, 7, false, false, 5, 6, 7⟩ : Firing)] } } : State).put (evqCfg EVQ_CFGA_DONEMODE false) 0).put (evqCfg EVQ_CFGA_DONEMODE false) 1, (⟨0x123, 7, false, false, 5, 6, 7⟩ : Firing), ([] : List Firing), by decide +kernel⟩
  · exact ⟨(({ atMode .run with evq := { (atMode .run).evq with firings := [(⟨0x123, 7, false, false, 5, 6, 7⟩ : Firing)], active := [⟨0x123, false, (⟨0x123, 7, false, false, 5, 6, 7⟩ : Firing)⟩] } } : State).put (evqCfg EVQ_CFGA_DONEMODE false) 1), (⟨0x123, 7, false, false, 5, 6, 7⟩ : Firing), ([] : List Firing), (⟨0x123, false, (⟨0x123, 7, false, false, 5, 6, 7⟩ : Firing)⟩ : SrcState), by decide +kernel⟩
  · exact ⟨atMode .run, by decide +kernel⟩
  · exact ⟨(atMode .run).put EVQ_WPTRA_PTR 5, Master.spi, false, 3, by decide +kernel⟩
  · exact ⟨(atMode .run).put EVQ_WPTRA_PTR 5, Master.spi, false, 9, by decide +kernel⟩
  · exact ⟨({ atMode .run with evq := { (atMode .run).evq with active := [⟨0x123, false, (⟨0x123, 7, false, false, 5, 6, 7⟩ : Firing)⟩] } } : State), Master.spi, 0x123, by decide +kernel⟩
  · exact ⟨({ atMode .run with evq := { (atMode .run).evq with active := [⟨0x123, true, (⟨0x123, 7, false, false, 5, 6, 7⟩ : Firing)⟩] } } : State), Master.spi, 0x123, (⟨0x123, true, (⟨0x123, 7, false, false, 5, 6, 7⟩ : Firing)⟩ : SrcState), by decide +kernel⟩
  · exact ⟨atMode .run, Master.spi, 0x123, by decide +kernel⟩
  · exact ⟨atMode .run, false, by decide +kernel⟩
  · exact ⟨((atMode .run).wr (hdrAddr PG_EVQ hdrCTRL) 1).put EVQ_WPTRA_PTR 5, false, by decide +kernel⟩
  · exact ⟨{ atMode .run with evq := { (atMode .run).evq with lineA := { (atMode .run).evq.lineA with drained := true } } }, false, by decide +kernel⟩
  · exact ⟨{ atMode .run with evq := { (atMode .run).evq with lineA := { (atMode .run).evq.lineA with drained := false } } }, false, by decide +kernel⟩
  · exact ⟨{ atMode .run with evq := { (atMode .run).evq with lineA := { (atMode .run).evq.lineA with notify := true } } }, false, by decide +kernel⟩
  · exact ⟨atMode .run, false, by decide +kernel⟩

/-- Each clause of SpiFrames has a state and operands that meet its hypotheses. -/
theorem witness_SpiFrames :
    (∃ (s : State) (f : HostFrame), s.bankLow 2 = false ∧ s.portRuns = true ∧ s.injOn PG_SPI 1 = false ∧ crc8 0xFF (frameBytes f true none) = f.crc.toNat ∧
      frameMalformed f true none = false ∧ s.busy = false ∧ frameCount f ≤ f.data.length) ∧
    (∃ (s : State) (f : HostFrame), s.Quiet ∧ s.bankLow 2 = false ∧ s.portRuns = true ∧ s.injOn PG_SPI 1 = false ∧ crc8 0xFF (frameBytes f true none) ≠ f.crc.toNat ∧
      frameCount f ≤ f.data.length) ∧
    (∃ (s : State), s.bankLow 2 = false ∧ s.portRuns = false) ∧
    (∃ (s : State) (f : HostFrame), s.bankLow 2 = false ∧ s.portRuns = true ∧ s.injOn PG_SPI 1 = false ∧ crc8 0xFF (frameBytes f false none) = f.crc.toNat ∧
      frameMalformed f false none = false ∧ s.busy = false) ∧
    (∃ (s : State) (f : HostFrame), s.Quiet ∧ s.bankLow 2 = false ∧ s.portRuns = true ∧ s.injOn PG_SPI 1 = false ∧ crc8 0xFF (frameBytes f false none) ≠ f.crc.toNat) ∧
    (∃ (s : State), s.bankLow 2 = false ∧ s.portRuns = false) ∧
    (∃ (s : State) (dev : BitVec 16) (f : HostFrame), s.bankLow 2 = false ∧ s.portRuns = true ∧ s.injOn PG_SPI 1 = false ∧ crc8 0xFF (frameBytes f true (some dev)) = f.crc.toNat ∧
      frameMalformed f true (some dev) = false ∧ s.busy = false ∧ s.ownNum dev.toNat = false ∧ 512 ≤ dev.toNat ∧ dev ≠ 0xFFFF ∧
      frameCount f ≤ f.data.length) ∧
    (∃ (s : State) (dev : BitVec 16) (f : HostFrame), s.Quiet ∧ s.bankLow 2 = false ∧ s.portRuns = true ∧ s.injOn PG_SPI 1 = false ∧
      crc8 0xFF (frameBytes f true (some dev)) = f.crc.toNat ∧ frameMalformed f true (some dev) = false ∧ s.busy = false ∧
      s.ownNum dev.toNat = false ∧ dev.toNat < 512 ∧ s.postWriteOk = true ∧ frameCount f ≤ f.data.length) ∧
    (∃ (s : State) (dev : BitVec 16) (f : HostFrame), s.Quiet ∧ s.bankLow 2 = false ∧ s.portRuns = true ∧ s.injOn PG_SPI 1 = false ∧
      crc8 0xFF (frameBytes f true (some dev)) = f.crc.toNat ∧ frameMalformed f true (some dev) = false ∧ s.busy = false ∧
      s.ownNum dev.toNat = false ∧ dev.toNat < 512 ∧ s.postWriteOk = false ∧ frameCount f ≤ f.data.length) ∧
    (∃ (s : State) (dev : BitVec 16) (f : HostFrame), s.bankLow 2 = false ∧ s.portRuns = true ∧ s.injOn PG_SPI 1 = false ∧ crc8 0xFF (frameBytes f true (some dev)) = f.crc.toNat ∧
      frameMalformed f true (some dev) = false ∧ s.busy = false ∧ s.ownNum dev.toNat = true ∧ frameCount f ≤ f.data.length) ∧
    (∃ (s : State) (dev : BitVec 16) (f : HostFrame), s.Quiet ∧ s.bankLow 2 = false ∧ s.portRuns = true ∧ s.injOn PG_SPI 1 = false ∧
      crc8 0xFF (frameBytes f false (some dev)) = f.crc.toNat ∧ frameMalformed f false (some dev) = false ∧ s.busy = false ∧
      s.ownNum dev.toNat = false ∧ dev.toNat < 512 ∧ s.postReadOk 1 = true) ∧
    (∃ (s : State) (dev : BitVec 16) (f : HostFrame), s.Quiet ∧ s.bankLow 2 = false ∧ s.portRuns = true ∧ s.injOn PG_SPI 1 = false ∧
      crc8 0xFF (frameBytes f false (some dev)) = f.crc.toNat ∧ frameMalformed f false (some dev) = false ∧ s.busy = false ∧
      s.ownNum dev.toNat = false ∧ dev.toNat < 512 ∧ s.postReadOk 1 = false) ∧
    (∃ (s : State) (f : HostFrame), s.Quiet ∧ s.bankLow 2 = false ∧ s.portRuns = true ∧ s.injOn PG_SPI 1 = false ∧ crc8 0xFF (frameBytes f true none) = f.crc.toNat ∧
      frameMalformed f true none = false ∧ s.busy = true ∧ frameCount f ≤ f.data.length) ∧
    (∃ (s : State) (f : HostFrame), s.Quiet ∧ s.bankLow 2 = false ∧ s.portRuns = true ∧ s.injOn PG_SPI 1 = false ∧ crc8 0xFF (frameBytes f false none) = f.crc.toNat ∧
      frameMalformed f false none = false ∧ s.busy = true) ∧
    (∃ (s : State) (dev : BitVec 16) (f : HostFrame), s.Quiet ∧ s.bankLow 2 = false ∧ s.portRuns = true ∧ s.injOn PG_SPI 1 = false ∧
      crc8 0xFF (frameBytes f true (some dev)) = f.crc.toNat ∧ frameMalformed f true (some dev) = false ∧ s.busy = true ∧
      frameCount f ≤ f.data.length) ∧
    (∃ (s : State) (dev : BitVec 16) (f : HostFrame), s.Quiet ∧ s.bankLow 2 = false ∧ s.portRuns = true ∧ s.injOn PG_SPI 1 = false ∧
      crc8 0xFF (frameBytes f false (some dev)) = f.crc.toNat ∧ frameMalformed f false (some dev) = false ∧ s.busy = true) ∧
    (∃ (s : State) (dev : BitVec 16) (f : HostFrame), s.Quiet ∧ s.bankLow 2 = false ∧ s.portRuns = true ∧ s.injOn PG_SPI 1 = false ∧
      crc8 0xFF (frameBytes f true (some dev)) ≠ f.crc.toNat ∧ frameCount f ≤ f.data.length) ∧
    (∃ (s : State) (dev : BitVec 16) (f : HostFrame), s.Quiet ∧ s.bankLow 2 = false ∧ s.portRuns = true ∧ s.injOn PG_SPI 1 = false ∧
      crc8 0xFF (frameBytes f false (some dev)) ≠ f.crc.toNat) ∧
    (∃ (s : State), s.bankLow 2 = false ∧ s.portRuns = false) ∧
    (∃ (s : State), s.bankLow 2 = false ∧ s.portRuns = false) ∧
    (∃ (s : State), s.bankLow 2 = false ∧ s.portRuns = true) ∧
    (∃ (s : State), (s.bankLow 2 = true ∨ s.portRuns = false)) := by
  refine ⟨?_, ?_, ?_, ?_, ?_, ?_, ?_, ?_, ?_, ?_, ?_, ?_, ?_, ?_, ?_, ?_, ?_, ?_, ?_, ?_, ?_, ?_⟩
  · exact ⟨atMode .run, (⟨0, false, 0x1AF000, 0, [0x12345678], 0xC7⟩ : HostFrame), by decide +kernel⟩
  · exact ⟨atMode .run, (⟨0, false, 0x1AF000, 0, [0x12345678], 0xC6⟩ : HostFrame), by unfold State.Quiet State.Calm; decide +kernel⟩
  · exact ⟨dark, by decide +kernel⟩
  · exact ⟨atMode .run, (⟨0, false, 0x1AF000, 0, [], 0xE0⟩ : HostFrame), by decide +kernel⟩
  · exact ⟨atMode .run, (⟨0, false, 0x1AF000, 0, [], 0xE1⟩ : HostFrame), by unfold State.Quiet State.Calm; decide +kernel⟩
  · exact ⟨dark, by decide +kernel⟩
  · exact ⟨atMode .run, 0x300, (⟨0, false, 0x1AF000, 0, [0x1], 0xD4⟩ : HostFrame), by decide +kernel⟩
  · exact ⟨((((atMode .run).put RING_NUM_VALID 1).put RING_STATE_ENUM 1).put RING_STATE_N 4 |>.wr (hdrAddr PG_RING hdrCTRL) 1), 0x2, (⟨0, false, 0x1AF000, 0, [0x1], 0x79⟩ : HostFrame), by unfold State.Quiet State.Calm; decide +kernel⟩
  · exact ⟨atMode .run, 0x2, (⟨0, false, 0x1AF000, 0, [0x1], 0x79⟩ : HostFrame), by unfold State.Quiet State.Calm; decide +kernel⟩
  · exact ⟨((atMode .run).put RING_NUM_VALID 1).put RING_NUM_DEVNUM 5, 0x5, (⟨0, false, 0x1AF000, 0, [0x1], 0x00⟩ : HostFrame), by decide +kernel⟩
  · exact ⟨((((atMode .run).put RING_NUM_VALID 1).put RING_STATE_ENUM 1).put RING_STATE_N 4 |>.wr (hdrAddr PG_RING hdrCTRL) 1), 0x2, (⟨0, false, 0x1AF000, 0, [], 0xC4⟩ : HostFrame), by unfold State.Quiet State.Calm; decide +kernel⟩
  · exact ⟨atMode .run, 0x2, (⟨0, false, 0x1AF000, 0, [], 0xC4⟩ : HostFrame), by unfold State.Quiet State.Calm; decide +kernel⟩
  · exact ⟨(atMode .run).put DEV_LONGOP_RUN 3, (⟨0, false, 0x1AF000, 0, [0x1], 0xDC⟩ : HostFrame), by unfold State.Quiet State.Calm; decide +kernel⟩
  · exact ⟨(atMode .run).put DEV_LONGOP_RUN 3, (⟨0, false, 0x1AF000, 0, [], 0xE0⟩ : HostFrame), by unfold State.Quiet State.Calm; decide +kernel⟩
  · exact ⟨(atMode .run).put DEV_LONGOP_RUN 3, 0x2, (⟨0, false, 0x1AF000, 0, [0x1], 0x79⟩ : HostFrame), by unfold State.Quiet State.Calm; decide +kernel⟩
  · exact ⟨(atMode .run).put DEV_LONGOP_RUN 3, 0x2, (⟨0, false, 0x1AF000, 0, [], 0xC4⟩ : HostFrame), by unfold State.Quiet State.Calm; decide +kernel⟩
  · exact ⟨atMode .run, 0x2, (⟨0, false, 0x1AF000, 0, [0x1], 0x78⟩ : HostFrame), by unfold State.Quiet State.Calm; decide +kernel⟩
  · exact ⟨atMode .run, 0x2, (⟨0, false, 0x1AF000, 0, [], 0xC5⟩ : HostFrame), by unfold State.Quiet State.Calm; decide +kernel⟩
  · exact ⟨dark, by decide +kernel⟩
  · exact ⟨dark, by decide +kernel⟩
  · exact ⟨atMode .run, by decide +kernel⟩
  · exact ⟨dark, by decide +kernel⟩

/-- Each clause of I2cTransactions has a state and operands that meet its hypotheses. -/
theorem witness_I2cTransactions :
    (∃ (s : State) (addr : BitVec 24) (data : List (BitVec 8)), s.bankLow 2 = false ∧ s.portRuns = true ∧ s.busy = false ∧ s.on I2CT_CFG_PEC = false ∧ data.length = 4 ∧ addr.toNat / 0x400 ≠ 0) ∧
    (∃ (s : State), s.Quiet ∧ s.bankLow 2 = false ∧ s.portRuns = true ∧ s.busy = true) ∧
    (∃ (s : State) (low : BitVec 6), s.Quiet ∧ s.bankLow 2 = false ∧ s.portRuns = true ∧ s.busy = false ∧ low ≠ 0) ∧
    (∃ (s : State), (s.Quiet ∧ (s.bankLow 2 = true ∨ s.portRuns = false))) ∧
    (∃ (s : State) (len : BitVec 8), s.bankLow 2 = false ∧ s.portRuns = true ∧ s.busy = false ∧ s.on I2CT_CFG_PEC = false ∧ len.toNat < 64) ∧
    (∃ (s : State), s.Quiet ∧ s.bankLow 2 = false ∧ s.portRuns = true ∧ s.busy = false) ∧
    (∃ (s : State), (s.Quiet ∧ (s.bankLow 2 = true ∨ s.portRuns = false))) ∧
    (∃ (s : State) (dev : BitVec 16) (len : BitVec 8), s.Quiet ∧ s.bankLow 2 = false ∧ s.portRuns = true ∧ s.busy = false ∧ len.toNat < 64 ∧ dev.toNat < 512 ∧ s.ownNum dev.toNat = false ∧
      s.postReadOk 2 = true) ∧
    (∃ (s : State) (dev : BitVec 16) (len : BitVec 8), s.Quiet ∧ s.bankLow 2 = false ∧ s.portRuns = true ∧ s.busy = false ∧ len.toNat < 64 ∧ dev.toNat < 512 ∧ s.ownNum dev.toNat = false ∧
      s.postReadOk 2 = false) ∧
    (∃ (s : State), s.portRuns = true ∧ s.on I2CT_CFG_TIMEOUT = true) ∧
    (∃ (s : State), (s.portRuns = false ∨ s.on I2CT_CFG_TIMEOUT = false)) ∧
    (∃ (s : State), s.bankLow 2 = false ∧ s.mode = .hibernate ∧ s.dev.stage = 0 ∧ bitOf (s.get CELLAR_WAKEEN_SRC) 1 = true) ∧
    (∃ (s : State), (s.Quiet ∧ (s.bankLow 2 = true ∨ s.mode ≠ .hibernate ∨ bitOf (s.get CELLAR_WAKEEN_SRC) 1 = false))) ∧
    (∃ (s : State), s.bus.tsclHeld = true ∧ s.portRuns = false) ∧
    (∃ (s : State), (s.bus.tsclHeld = false ∨ s.portRuns = true)) ∧
    (∃ (s : State) (m : Master), s.accepts m = true ∧ hostMaster m = true ∧ s.on I2CC_STATE_BUSY = false) ∧
    (∃ (s : State) (m : Master), s.accepts m = true ∧ hostMaster m = true ∧ s.on I2CC_STATE_BUSY = true) ∧
    (∃ (s : State) (m : Master), s.accepts m = true ∧ hostMaster m = true ∧ s.on I2CC_STATE_BUSY = false) ∧
    (∃ (s : State) (m : Master), s.accepts m = true ∧ hostMaster m = true ∧ s.on I2CC_STATE_BUSY = true) ∧
    (∃ (s : State), s.on I2CC_STATE_BUSY = true ∧ s.bus.clearOnly = false ∧ s.injOn PG_I2CC 1 = false) ∧
    (∃ (s : State), s.on I2CC_STATE_BUSY = true ∧ s.bus.clearOnly = false ∧ s.injOn PG_I2CC 1 = false) ∧
    (∃ (s : State), s.on I2CC_STATE_BUSY = true ∧ s.bus.clearOnly = false ∧ s.injOn PG_I2CC 1 = false) ∧
    (∃ (s : State), s.on I2CC_STATE_BUSY = true ∧ s.bus.clearOnly = false ∧ s.injOn PG_I2CC 1 = false) ∧
    (∃ (s : State), s.on I2CC_STATE_BUSY = true ∧ s.bus.clearOnly = false ∧ s.injOn PG_I2CC 1 = false) ∧
    (∃ (s : State), s.on I2CC_STATE_BUSY = true ∧ s.bus.clearOnly = true) ∧
    (∃ (s : State), s.on I2CC_STATE_BUSY = false) ∧
    (∃ (s : State), s.on I2CC_STATE_BUSY = true) ∧
    (∃ (s : State), s.on I2CC_STATE_BUSY = false) ∧
    (∃ (s : State) (f : HostFrame), s.port.lantern = true ∧ s.portRuns = true ∧ crc8 0xFF (frameBytes f false none) = f.crc.toNat ∧
      frameMalformed f false none = false ∧ s.busy = false) ∧
    (∃ (s : State) (w : Bool) (dev : Option (BitVec 16)) (f : HostFrame), (s.port.lantern = true ∧ s.portRuns = true ∧ (w = true → frameCount f ≤ f.data.length) ∧
      crc8 0xFF (frameBytes f w dev) ≠ f.crc.toNat)) ∧
    (∃ (s : State), s.Quiet ∧ s.port.lantern = false) := by
  refine ⟨?_, ?_, ?_, ?_, ?_, ?_, ?_, ?_, ?_, ?_, ?_, ?_, ?_, ?_, ?_, ?_, ?_, ?_, ?_, ?_, ?_, ?_, ?_, ?_, ?_, ?_, ?_, ?_, ?_, ?_, ?_⟩
  · exact ⟨(atMode .run).put I2CT_CFG_PEC 0, 0x1AF000, ([1, 2, 3, 4] : List (BitVec 8)), by decide +kernel⟩
  · exact ⟨(atMode .run).put DEV_LONGOP_RUN 3, by unfold State.Quiet State.Calm; decide +kernel⟩
  · exact ⟨atMode .run, 5, by unfold State.Quiet State.Calm; decide +kernel⟩
  · exact ⟨dark, by unfold State.Quiet State.Calm; decide +kernel⟩
  · exact ⟨(atMode .run).put I2CT_CFG_PEC 0, 1, by decide +kernel⟩
  · exact ⟨atMode .run, by unfold State.Quiet State.Calm; decide +kernel⟩
  · exact ⟨dark, by unfold State.Quiet State.Calm; decide +kernel⟩
  · exact ⟨((((atMode .run).put RING_NUM_VALID 1).put RING_STATE_ENUM 1).put RING_STATE_N 4 |>.wr (hdrAddr PG_RING hdrCTRL) 1), 2, 1, by unfold State.Quiet State.Calm; decide +kernel⟩
  · exact ⟨atMode .run, 2, 1, by unfold State.Quiet State.Calm; decide +kernel⟩
  · exact ⟨(atMode .run).put I2CT_CFG_TIMEOUT 1, by decide +kernel⟩
  · exact ⟨dark, by decide +kernel⟩
  · exact ⟨(atMode .hibernate).put CELLAR_WAKEEN_SRC 2, by decide +kernel⟩
  · exact ⟨atMode .run, by unfold State.Quiet State.Calm; decide +kernel⟩
  · exact ⟨{ dark with bus := { dark.bus with tsclHeld := true } }, by decide +kernel⟩
  · exact ⟨atMode .run, by decide +kernel⟩
  · exact ⟨atMode .run, Master.spi, by decide +kernel⟩
  · exact ⟨(atMode .run).put I2CC_STATE_BUSY 1, Master.spi, by decide +kernel⟩
  · exact ⟨atMode .run, Master.spi, by decide +kernel⟩
  · exact ⟨(atMode .run).put I2CC_STATE_BUSY 1, Master.spi, by decide +kernel⟩
  · exact ⟨(atMode .run).put I2CC_STATE_BUSY 1, by decide +kernel⟩
  · exact ⟨(atMode .run).put I2CC_STATE_BUSY 1, by decide +kernel⟩
  · exact ⟨(atMode .run).put I2CC_STATE_BUSY 1, by decide +kernel⟩
  · exact ⟨(atMode .run).put I2CC_STATE_BUSY 1, by decide +kernel⟩
  · exact ⟨(atMode .run).put I2CC_STATE_BUSY 1, by decide +kernel⟩
  · exact ⟨(({ atMode .run with bus := { (atMode .run).bus with clearOnly := true } } : State).put I2CC_STATE_BUSY 1), by decide +kernel⟩
  · exact ⟨atMode .run, by decide +kernel⟩
  · exact ⟨(atMode .run).put I2CC_STATE_BUSY 1, by decide +kernel⟩
  · exact ⟨atMode .run, by decide +kernel⟩
  · exact ⟨({ atMode .run with port := { (atMode .run).port with lantern := true } } : State), (⟨0, false, 0x1AF000, 0, [], 0xE0⟩ : HostFrame), by decide +kernel⟩
  · exact ⟨({ atMode .run with port := { (atMode .run).port with lantern := true } } : State), false, (none : Option (BitVec 16)), (⟨0, false, 0x1AF000, 0, [], 0xE1⟩ : HostFrame), by decide +kernel⟩
  · exact ⟨atMode .run, by unfold State.Quiet State.Calm; decide +kernel⟩

/-- Each clause of TypecPort has a state and operands that meet its hypotheses. -/
theorem witness_TypecPort :
    (∃ (s : State), s.Steady ∧ s.enabled PG_TYPEC = true ∧ s.polTake = s ∧ s.srcOk = true ∧ s.portRole = 0 ∧ s.portCode ≤ 1) ∧
    (∃ (s : State), (s.Quiet ∧ (s.portRuns = false ∨ s.enabled PG_TYPEC = false ∨ s.srcOk = false ∨ s.portRole ≠ 0))) ∧
    (∃ (s : State) (v : BitVec 12), (s.Steady ∧ s.enabled PG_TYPEC = true ∧ (s.portCode = 0 ∨ s.portCode = 2 ∨ s.portCode = 4) ∧ 400 < v.toNat)) ∧
    (∃ (s : State), (s.Steady ∧ s.enabled PG_TYPEC = true ∧ s.portCode = 3 ∧ (s.on TYPEC_CFG_TRYSNK = false ∨ s.port.tried = true))) ∧
    (∃ (s : State), s.Steady ∧ s.enabled PG_TYPEC = true ∧ s.portCode = 3 ∧ s.on TYPEC_CFG_TRYSNK = true ∧ s.port.tried = false) ∧
    (∃ (s : State) (v : BitVec 12), (s.Steady ∧ s.enabled PG_TYPEC = true ∧ (s.portCode = 2 ∨ s.portCode = 4) ∧ v.toNat ≤ 400)) ∧
    (∃ (s : State), (s.Quiet ∧ (s.portRuns = false ∨ s.enabled PG_TYPEC = false))) ∧
    (∃ (s : State), s.Steady ∧ s.portCode = 4) ∧
    (∃ (s : State), s.Quiet ∧ (s.portCode ≠ 4)) ∧
    (∃ (s : State) (vbusLost : Bool), (s.Steady ∧ (s.portCode = 5 ∨ s.portCode = 6) ∧ (vbusLost = true → s.portCode = 5 ∧ s.port.stage.ownsVbus = false))) ∧
    (∃ (s : State), s.Steady ∧ s.portCode = 6) ∧
    (∃ (s : State), s.Quiet ∧ (s.portCode ≤ 1)) ∧
    (∃ (s : State), s.Steady ∧ s.on TYPEC_STATE_VCONN = true) ∧
    (∃ (s : State), s.Steady ∧ s.on TYPEC_STATE_VCONN = false) ∧
    (∃ (s : State) (m : Master) (key : BitVec 16), s.accepts m = true ∧ hostMaster m = true ∧ s.Steady ∧ key = 0x7C2E) ∧
    (∃ (s : State) (m : Master) (key : BitVec 16), s.accepts m = true ∧ hostMaster m = true ∧ s.Steady ∧ key ≠ 0x7C2E) ∧
    (∃ (s : State), s.Steady ∧ s.portCode = 7) ∧
    (∃ (s : State), s.Quiet ∧ (s.portCode ≠ 7)) ∧
    (∃ (s : State) (v : BitVec 12), s.Steady ∧ s.injOn PG_TYPEC 1 = false ∧ s.portCode = 6 ∧ s.port.stage = .toSnkDis ∧ v.toNat < 80) ∧
    (∃ (s : State) (v : BitVec 12), s.Steady ∧ s.injOn PG_TYPEC 1 = false ∧ s.port.stage = .hrDis ∧ v.toNat < 80) ∧
    (∃ (s : State) (v : BitVec 12), s.Steady ∧ s.injOn PG_TYPEC 1 = false ∧ s.port.stage = .hrSink ∧ 475 < v.toNat) ∧
    (∃ (s : State) (v : BitVec 12), s.Steady ∧ s.injOn PG_TYPEC 1 = false ∧ s.port.stage = .frsDrop ∧ v.toNat < 550) ∧
    (∃ (s : State), s.Steady ∧ s.injOn PG_TYPEC 1 = true ∧ s.portCode = 5 ∧ s.port.stage = .idle) ∧
    (∃ (s : State), s.Quiet ∧ (s.portRuns = false)) ∧
    (∃ (s : State) (v : BitVec 12), s.Steady ∧ 2200 < v.toNat) ∧
    (∃ (s : State) (v : BitVec 12), s.Quiet ∧ (v.toNat ≤ 2200)) := by
  refine ⟨?_, ?_, ?_, ?_, ?_, ?_, ?_, ?_, ?_, ?_, ?_, ?_, ?_, ?_, ?_, ?_, ?_, ?_, ?_, ?_, ?_, ?_, ?_, ?_, ?_, ?_⟩
  · exact ⟨(((((((((((((atMode .run).wr (hdrAddr PG_TYPEC hdrCTRL) 1).wr (hdrAddr PG_PD hdrCTRL) 1).wr (hdrAddr PG_SVC hdrCTRL) 1).put PD_CFG_PD_EN 1).put (PD_SRCPDO_PDO.el 0) 0x1912C).put (PD_SNKPDO_PDO.el 0) 0x1912C).polTake).put LAMP_STATE_SOURCE 1).put INPATH_VOLT_V_HB 4800).put TYPEC_SRCCOND_V_HBSRC 400).put SVC_CFG_SAFEON 1)).polTake, by unfold State.Steady State.Calm; decide +kernel⟩
  · exact ⟨((atMode .run).put TYPEC_CFG_ROLE 2).polTake, by unfold State.Quiet State.Calm; decide +kernel⟩
  · exact ⟨(((((((atMode .run).wr (hdrAddr PG_TYPEC hdrCTRL) 1).wr (hdrAddr PG_PD hdrCTRL) 1).wr (hdrAddr PG_SVC hdrCTRL) 1).put PD_CFG_PD_EN 1).put (PD_SRCPDO_PDO.el 0) 0x1912C).put (PD_SNKPDO_PDO.el 0) 0x1912C).polTake, 500, by unfold State.Steady State.Calm; decide +kernel⟩
  · exact ⟨(((((((((atMode .run).wr (hdrAddr PG_TYPEC hdrCTRL) 1).wr (hdrAddr PG_PD hdrCTRL) 1).wr (hdrAddr PG_SVC hdrCTRL) 1).put PD_CFG_PD_EN 1).put (PD_SRCPDO_PDO.el 0) 0x1912C).put (PD_SNKPDO_PDO.el 0) 0x1912C).polTake).put TYPEC_STATE_CODE 3).put TYPEC_CFG_TRYSNK 0, by unfold State.Steady State.Calm; decide +kernel⟩
  · exact ⟨(((((((((atMode .run).wr (hdrAddr PG_TYPEC hdrCTRL) 1).wr (hdrAddr PG_PD hdrCTRL) 1).wr (hdrAddr PG_SVC hdrCTRL) 1).put PD_CFG_PD_EN 1).put (PD_SRCPDO_PDO.el 0) 0x1912C).put (PD_SNKPDO_PDO.el 0) 0x1912C).polTake).put TYPEC_STATE_CODE 3).put TYPEC_CFG_TRYSNK 1, by unfold State.Steady State.Calm; decide +kernel⟩
  · exact ⟨((((((((atMode .run).wr (hdrAddr PG_TYPEC hdrCTRL) 1).wr (hdrAddr PG_PD hdrCTRL) 1).wr (hdrAddr PG_SVC hdrCTRL) 1).put PD_CFG_PD_EN 1).put (PD_SRCPDO_PDO.el 0) 0x1912C).put (PD_SNKPDO_PDO.el 0) 0x1912C).polTake).put TYPEC_STATE_CODE 4, 400, by unfold State.Steady State.Calm; decide +kernel⟩
  · exact ⟨atMode .run, by unfold State.Quiet State.Calm; decide +kernel⟩
  · exact ⟨((((((((atMode .run).wr (hdrAddr PG_TYPEC hdrCTRL) 1).wr (hdrAddr PG_PD hdrCTRL) 1).wr (hdrAddr PG_SVC hdrCTRL) 1).put PD_CFG_PD_EN 1).put (PD_SRCPDO_PDO.el 0) 0x1912C).put (PD_SNKPDO_PDO.el 0) 0x1912C).polTake).put TYPEC_STATE_CODE 4, by unfold State.Steady State.Calm; decide +kernel⟩
  · exact ⟨atMode .run, by unfold State.Quiet State.Calm; decide +kernel⟩
  · exact ⟨(((((((((atMode .run).wr (hdrAddr PG_TYPEC hdrCTRL) 1).wr (hdrAddr PG_PD hdrCTRL) 1).wr (hdrAddr PG_SVC hdrCTRL) 1).put PD_CFG_PD_EN 1).put (PD_SRCPDO_PDO.el 0) 0x1912C).put (PD_SNKPDO_PDO.el 0) 0x1912C).polTake).put TYPEC_STATE_CODE 5), true, by unfold State.Steady State.Calm; decide +kernel⟩
  · exact ⟨(((((((((atMode .run).wr (hdrAddr PG_TYPEC hdrCTRL) 1).wr (hdrAddr PG_PD hdrCTRL) 1).wr (hdrAddr PG_SVC hdrCTRL) 1).put PD_CFG_PD_EN 1).put (PD_SRCPDO_PDO.el 0) 0x1912C).put (PD_SNKPDO_PDO.el 0) 0x1912C).polTake).put TYPEC_STATE_CODE 6), by unfold State.Steady State.Calm; decide +kernel⟩
  · exact ⟨atMode .run, by unfold State.Quiet State.Calm; decide +kernel⟩
  · exact ⟨((((((((((atMode .run).wr (hdrAddr PG_TYPEC hdrCTRL) 1).wr (hdrAddr PG_PD hdrCTRL) 1).wr (hdrAddr PG_SVC hdrCTRL) 1).put PD_CFG_PD_EN 1).put (PD_SRCPDO_PDO.el 0) 0x1912C).put (PD_SNKPDO_PDO.el 0) 0x1912C).polTake).put TYPEC_STATE_CODE 6)).put TYPEC_STATE_VCONN 1, by unfold State.Steady State.Calm; decide +kernel⟩
  · exact ⟨(((((((((atMode .run).wr (hdrAddr PG_TYPEC hdrCTRL) 1).wr (hdrAddr PG_PD hdrCTRL) 1).wr (hdrAddr PG_SVC hdrCTRL) 1).put PD_CFG_PD_EN 1).put (PD_SRCPDO_PDO.el 0) 0x1912C).put (PD_SNKPDO_PDO.el 0) 0x1912C).polTake).put TYPEC_STATE_CODE 5), by unfold State.Steady State.Calm; decide +kernel⟩
  · exact ⟨(((((((((atMode .run).wr (hdrAddr PG_TYPEC hdrCTRL) 1).wr (hdrAddr PG_PD hdrCTRL) 1).wr (hdrAddr PG_SVC hdrCTRL) 1).put PD_CFG_PD_EN 1).put (PD_SRCPDO_PDO.el 0) 0x1912C).put (PD_SNKPDO_PDO.el 0) 0x1912C).polTake).put TYPEC_STATE_CODE 5), Master.spi, 0x7C2E, by unfold State.Steady State.Calm; decide +kernel⟩
  · exact ⟨(((((((((atMode .run).wr (hdrAddr PG_TYPEC hdrCTRL) 1).wr (hdrAddr PG_PD hdrCTRL) 1).wr (hdrAddr PG_SVC hdrCTRL) 1).put PD_CFG_PD_EN 1).put (PD_SRCPDO_PDO.el 0) 0x1912C).put (PD_SNKPDO_PDO.el 0) 0x1912C).polTake).put TYPEC_STATE_CODE 5), Master.spi, 0x7C2F, by unfold State.Steady State.Calm; decide +kernel⟩
  · exact ⟨((((((((atMode .run).wr (hdrAddr PG_TYPEC hdrCTRL) 1).wr (hdrAddr PG_PD hdrCTRL) 1).wr (hdrAddr PG_SVC hdrCTRL) 1).put PD_CFG_PD_EN 1).put (PD_SRCPDO_PDO.el 0) 0x1912C).put (PD_SNKPDO_PDO.el 0) 0x1912C).polTake).put TYPEC_STATE_CODE 7, by unfold State.Steady State.Calm; decide +kernel⟩
  · exact ⟨atMode .run, by unfold State.Quiet State.Calm; decide +kernel⟩
  · exact ⟨({ (((((((((atMode .run).wr (hdrAddr PG_TYPEC hdrCTRL) 1).wr (hdrAddr PG_PD hdrCTRL) 1).wr (hdrAddr PG_SVC hdrCTRL) 1).put PD_CFG_PD_EN 1).put (PD_SRCPDO_PDO.el 0) 0x1912C).put (PD_SNKPDO_PDO.el 0) 0x1912C).polTake).put TYPEC_STATE_CODE 6) with port := { ((((((((((atMode .run).wr (hdrAddr PG_TYPEC hdrCTRL) 1).wr (hdrAddr PG_PD hdrCTRL) 1).wr (hdrAddr PG_SVC hdrCTRL) 1).put PD_CFG_PD_EN 1).put (PD_SRCPDO_PDO.el 0) 0x1912C).put (PD_SNKPDO_PDO.el 0) 0x1912C).polTake).put TYPEC_STATE_CODE 6)).port with stage := .toSnkDis } } : State), 79, by unfold State.Steady State.Calm; decide +kernel⟩
  · exact ⟨({ (((((((((atMode .run).wr (hdrAddr PG_TYPEC hdrCTRL) 1).wr (hdrAddr PG_PD hdrCTRL) 1).wr (hdrAddr PG_SVC hdrCTRL) 1).put PD_CFG_PD_EN 1).put (PD_SRCPDO_PDO.el 0) 0x1912C).put (PD_SNKPDO_PDO.el 0) 0x1912C).polTake).put TYPEC_STATE_CODE 6) with port := { ((((((((((atMode .run).wr (hdrAddr PG_TYPEC hdrCTRL) 1).wr (hdrAddr PG_PD hdrCTRL) 1).wr (hdrAddr PG_SVC hdrCTRL) 1).put PD_CFG_PD_EN 1).put (PD_SRCPDO_PDO.el 0) 0x1912C).put (PD_SNKPDO_PDO.el 0) 0x1912C).polTake).put TYPEC_STATE_CODE 6)).port with stage := .hrDis } } : State), 79, by unfold State.Steady State.Calm; decide +kernel⟩
  · exact ⟨({ (((((((((atMode .run).wr (hdrAddr PG_TYPEC hdrCTRL) 1).wr (hdrAddr PG_PD hdrCTRL) 1).wr (hdrAddr PG_SVC hdrCTRL) 1).put PD_CFG_PD_EN 1).put (PD_SRCPDO_PDO.el 0) 0x1912C).put (PD_SNKPDO_PDO.el 0) 0x1912C).polTake).put TYPEC_STATE_CODE 5) with port := { ((((((((((atMode .run).wr (hdrAddr PG_TYPEC hdrCTRL) 1).wr (hdrAddr PG_PD hdrCTRL) 1).wr (hdrAddr PG_SVC hdrCTRL) 1).put PD_CFG_PD_EN 1).put (PD_SRCPDO_PDO.el 0) 0x1912C).put (PD_SNKPDO_PDO.el 0) 0x1912C).polTake).put TYPEC_STATE_CODE 5)).port with stage := .hrSink } } : State), 476, by unfold State.Steady State.Calm; decide +kernel⟩
  · exact ⟨({ (((((((((atMode .run).wr (hdrAddr PG_TYPEC hdrCTRL) 1).wr (hdrAddr PG_PD hdrCTRL) 1).wr (hdrAddr PG_SVC hdrCTRL) 1).put PD_CFG_PD_EN 1).put (PD_SRCPDO_PDO.el 0) 0x1912C).put (PD_SNKPDO_PDO.el 0) 0x1912C).polTake).put TYPEC_STATE_CODE 6) with port := { ((((((((((atMode .run).wr (hdrAddr PG_TYPEC hdrCTRL) 1).wr (hdrAddr PG_PD hdrCTRL) 1).wr (hdrAddr PG_SVC hdrCTRL) 1).put PD_CFG_PD_EN 1).put (PD_SRCPDO_PDO.el 0) 0x1912C).put (PD_SNKPDO_PDO.el 0) 0x1912C).polTake).put TYPEC_STATE_CODE 6)).port with stage := .frsDrop } } : State), 549, by unfold State.Steady State.Calm; decide +kernel⟩
  · exact ⟨(((((((((((atMode .run).wr (hdrAddr PG_TYPEC hdrCTRL) 1).wr (hdrAddr PG_PD hdrCTRL) 1).wr (hdrAddr PG_SVC hdrCTRL) 1).put PD_CFG_PD_EN 1).put (PD_SRCPDO_PDO.el 0) 0x1912C).put (PD_SNKPDO_PDO.el 0) 0x1912C).polTake).put TYPEC_STATE_CODE 5)).wr (hdrAddr PG_TYPEC hdrERR_INJ) 0x101), by unfold State.Steady State.Calm; decide +kernel⟩
  · exact ⟨dark, by unfold State.Quiet State.Calm; decide +kernel⟩
  · exact ⟨(((((((((atMode .run).wr (hdrAddr PG_TYPEC hdrCTRL) 1).wr (hdrAddr PG_PD hdrCTRL) 1).wr (hdrAddr PG_SVC hdrCTRL) 1).put PD_CFG_PD_EN 1).put (PD_SRCPDO_PDO.el 0) 0x1912C).put (PD_SNKPDO_PDO.el 0) 0x1912C).polTake).put TYPEC_STATE_CODE 5), 2201, by unfold State.Steady State.Calm; decide +kernel⟩
  · exact ⟨atMode .run, 2200, by unfold State.Quiet State.Calm; decide +kernel⟩

/-- Each clause of PowerDelivery has a state and operands that meet its hypotheses. -/
theorem witness_PowerDelivery :
    (∃ (s : State), s.Steady ∧ s.portCode = 6 ∧ s.polTake.pdOn = true ∧ s.port.capsLeft ≠ 0 ∧ s.port.stage = .idle) ∧
    (∃ (s : State), (s.Steady ∧ (s.portCode ≠ 6 ∨ s.port.capsLeft = 0))) ∧
    (∃ (s : State) (caps : List Word), s.Steady ∧ s.portCode = 5 ∧ s.pdOn = true ∧ s.polTake.pdOn = true ∧ s.injOn PG_PD 1 = false ∧ 0 < caps.length ∧ caps.length ≤ 7) ∧
    (∃ (s : State) (caps : List Word), s.Steady ∧ s.pdOn = true ∧ 0 < caps.length ∧ caps.length ≤ 7) ∧
    (∃ (s : State) (rdo : Word), s.Steady ∧ s.portCode = 6 ∧ s.pdOn = true ∧ s.injOn PG_PD 1 = false ∧ 0 < (rdo.toNat / 0x10000000 % 8) ∧
      (rdo.toNat / 0x10000000 % 8) ≤ s.port.offered.length ∧
      (bitsOf rdo.toNat 10 10) ≤ pdoI (nth s.port.offered ((rdo.toNat / 0x10000000 % 8) - 1))) ∧
    (∃ (s : State) (rdo : Word), (s.Steady ∧ s.portCode = 6 ∧ s.pdOn = true ∧ s.injOn PG_PD 1 = false ∧ ((rdo.toNat / 0x10000000 % 8) = 0 ∨
      s.port.offered.length < (rdo.toNat / 0x10000000 % 8) ∨
      pdoI (nth s.port.offered ((rdo.toNat / 0x10000000 % 8) - 1)) < (bitsOf rdo.toNat 10 10)))) ∧
    (∃ (s : State), s.Steady ∧ s.pdOn = true) ∧
    (∃ (s : State), s.Steady ∧ s.portCode = 6 ∧ s.port.stage = .supply ∧ s.svcWithin (s.port.reqV * 5) = true ∧ s.polOn PD_CFG_PD_EN = true) ∧
    (∃ (s : State), s.Steady ∧ s.port.stage = .toSrcSupply ∧ s.svcWithin 500 = true) ∧
    (∃ (s : State), s.Steady ∧ s.port.stage = .supply ∧ s.svcWithin (s.port.reqV * 5) = false) ∧
    (∃ (s : State), s.Steady ∧ s.port.stage ≠ .supply ∧ s.port.stage ≠ .toSrcSupply) ∧
    (∃ (s : State) (x : PdMsg), s.port.last = some x ∧ (s.Steady ∧ s.port.retries < 2 ∧ x ≠ .hardReset)) ∧
    (∃ (s : State) (x : PdMsg), s.port.last = some x ∧ (s.Steady ∧ 2 ≤ s.port.retries ∧
      (match x with | .softReset | .hardReset | .sourceCaps _ | .vdm _ => false | _ => true) = true)) ∧
    (∃ (s : State), s.Steady ∧ s.port.last = none) ∧
    (∃ (s : State), s.Steady ∧ s.pdOn = true ∧ s.injOn PG_PD 1 = false) ∧
    (∃ (s : State), s.Steady ∧ s.pdOn = true ∧ s.injOn PG_PD 1 = false) ∧
    (∃ (s : State), s.Steady ∧ s.pdOn = true ∧ s.injOn PG_PD 1 = false) ∧
    (∃ (s : State), s.Steady ∧ s.pdOn = true ∧ s.injOn PG_PD 1 = false) ∧
    (∃ (s : State), s.Steady ∧ s.pdOn = true ∧ s.injOn PG_PD 1 = false ∧ s.port.stage = .request) ∧
    (∃ (s : State), s.Steady ∧ s.pdOn = true ∧ s.injOn PG_PD 1 = false ∧ s.port.stage = .ready ∧ s.portCode = 5) ∧
    (∃ (s : State) (x : PdMsg), s.Steady ∧ s.pdOn = true ∧ pdMsgOk x = true) ∧
    (∃ (s : State) (x : PdMsg), s.Steady ∧ s.pdOn = false ∧ pdMsgOk x = true) ∧
    (∃ (s : State), s.Steady ∧ s.port.stage = .soft ∧ s.portCode = 5 ∧ s.dev.bias = .vbus) ∧
    (∃ (s : State), s.Steady ∧ s.port.stage = .soft ∧ s.portCode = 5 ∧ s.dev.bias ≠ .vbus ∧ s.port.hrCount < 2) ∧
    (∃ (s : State), s.Steady ∧ s.port.stage ≠ .soft) := by
  refine ⟨?_, ?_, ?_, ?_, ?_, ?_, ?_, ?_, ?_, ?_, ?_, ?_, ?_, ?_, ?_, ?_, ?_, ?_, ?_, ?_, ?_, ?_, ?_, ?_, ?_⟩
  · exact ⟨({ (((((((((atMode .run).wr (hdrAddr PG_TYPEC hdrCTRL) 1).wr (hdrAddr PG_PD hdrCTRL) 1).wr (hdrAddr PG_SVC hdrCTRL) 1).put PD_CFG_PD_EN 1).put (PD_SRCPDO_PDO.el 0) 0x1912C).put (PD_SNKPDO_PDO.el 0) 0x1912C).polTake).put TYPEC_STATE_CODE 6) with port := { ((((((((((atMode .run).wr (hdrAddr PG_TYPEC hdrCTRL) 1).wr (hdrAddr PG_PD hdrCTRL) 1).wr (hdrAddr PG_SVC hdrCTRL) 1).put PD_CFG_PD_EN 1).put (PD_SRCPDO_PDO.el 0) 0x1912C).put (PD_SNKPDO_PDO.el 0) 0x1912C).polTake).put TYPEC_STATE_CODE 6)).port with capsLeft := 50 } } : State), by unfold State.Steady State.Calm; decide +kernel⟩
  · exact ⟨(((((((((atMode .run).wr (hdrAddr PG_TYPEC hdrCTRL) 1).wr (hdrAddr PG_PD hdrCTRL) 1).wr (hdrAddr PG_SVC hdrCTRL) 1).put PD_CFG_PD_EN 1).put (PD_SRCPDO_PDO.el 0) 0x1912C).put (PD_SNKPDO_PDO.el 0) 0x1912C).polTake).put TYPEC_STATE_CODE 5), by unfold State.Steady State.Calm; decide +kernel⟩
  · exact ⟨(((((((((atMode .run).wr (hdrAddr PG_TYPEC hdrCTRL) 1).wr (hdrAddr PG_PD hdrCTRL) 1).wr (hdrAddr PG_SVC hdrCTRL) 1).put PD_CFG_PD_EN 1).put (PD_SRCPDO_PDO.el 0) 0x1912C).put (PD_SNKPDO_PDO.el 0) 0x1912C).polTake).put TYPEC_STATE_CODE 5), ([0x1912C, 0x2D12C] : List Word), by unfold State.Steady State.Calm; decide +kernel⟩
  · exact ⟨(((((((((atMode .run).wr (hdrAddr PG_TYPEC hdrCTRL) 1).wr (hdrAddr PG_PD hdrCTRL) 1).wr (hdrAddr PG_SVC hdrCTRL) 1).put PD_CFG_PD_EN 1).put (PD_SRCPDO_PDO.el 0) 0x1912C).put (PD_SNKPDO_PDO.el 0) 0x1912C).polTake).put TYPEC_STATE_CODE 5), ([0x1912C] : List Word), by unfold State.Steady State.Calm; decide +kernel⟩
  · exact ⟨({ (((((((((atMode .run).wr (hdrAddr PG_TYPEC hdrCTRL) 1).wr (hdrAddr PG_PD hdrCTRL) 1).wr (hdrAddr PG_SVC hdrCTRL) 1).put PD_CFG_PD_EN 1).put (PD_SRCPDO_PDO.el 0) 0x1912C).put (PD_SNKPDO_PDO.el 0) 0x1912C).polTake).put TYPEC_STATE_CODE 6) with port := { ((((((((((atMode .run).wr (hdrAddr PG_TYPEC hdrCTRL) 1).wr (hdrAddr PG_PD hdrCTRL) 1).wr (hdrAddr PG_SVC hdrCTRL) 1).put PD_CFG_PD_EN 1).put (PD_SRCPDO_PDO.el 0) 0x1912C).put (PD_SNKPDO_PDO.el 0) 0x1912C).polTake).put TYPEC_STATE_CODE 6)).port with offered := [0x1912C] } } : State), 0x10019064, by unfold State.Steady State.Calm; decide +kernel⟩
  · exact ⟨({ (((((((((atMode .run).wr (hdrAddr PG_TYPEC hdrCTRL) 1).wr (hdrAddr PG_PD hdrCTRL) 1).wr (hdrAddr PG_SVC hdrCTRL) 1).put PD_CFG_PD_EN 1).put (PD_SRCPDO_PDO.el 0) 0x1912C).put (PD_SNKPDO_PDO.el 0) 0x1912C).polTake).put TYPEC_STATE_CODE 6) with port := { ((((((((((atMode .run).wr (hdrAddr PG_TYPEC hdrCTRL) 1).wr (hdrAddr PG_PD hdrCTRL) 1).wr (hdrAddr PG_SVC hdrCTRL) 1).put PD_CFG_PD_EN 1).put (PD_SRCPDO_PDO.el 0) 0x1912C).put (PD_SNKPDO_PDO.el 0) 0x1912C).polTake).put TYPEC_STATE_CODE 6)).port with offered := [0x1912C] } } : State), 0x20019064, by unfold State.Steady State.Calm; decide +kernel⟩
  · exact ⟨(((((((((atMode .run).wr (hdrAddr PG_TYPEC hdrCTRL) 1).wr (hdrAddr PG_PD hdrCTRL) 1).wr (hdrAddr PG_SVC hdrCTRL) 1).put PD_CFG_PD_EN 1).put (PD_SRCPDO_PDO.el 0) 0x1912C).put (PD_SNKPDO_PDO.el 0) 0x1912C).polTake).put TYPEC_STATE_CODE 6), by unfold State.Steady State.Calm; decide +kernel⟩
  · exact ⟨({ (((((((((((atMode .run).wr (hdrAddr PG_TYPEC hdrCTRL) 1).wr (hdrAddr PG_PD hdrCTRL) 1).wr (hdrAddr PG_SVC hdrCTRL) 1).put PD_CFG_PD_EN 1).put (PD_SRCPDO_PDO.el 0) 0x1912C).put (PD_SNKPDO_PDO.el 0) 0x1912C).polTake).put TYPEC_STATE_CODE 6)).put SVC_MEAS_V 500) with port := { ((((((((((((atMode .run).wr (hdrAddr PG_TYPEC hdrCTRL) 1).wr (hdrAddr PG_PD hdrCTRL) 1).wr (hdrAddr PG_SVC hdrCTRL) 1).put PD_CFG_PD_EN 1).put (PD_SRCPDO_PDO.el 0) 0x1912C).put (PD_SNKPDO_PDO.el 0) 0x1912C).polTake).put TYPEC_STATE_CODE 6)).put SVC_MEAS_V 500)).port with stage := .supply, reqRdo := 0x10019064, reqV := 100, reqI := 100 } } : State), by unfold State.Steady State.Calm; decide +kernel⟩
  · exact ⟨({ (((((((((((atMode .run).wr (hdrAddr PG_TYPEC hdrCTRL) 1).wr (hdrAddr PG_PD hdrCTRL) 1).wr (hdrAddr PG_SVC hdrCTRL) 1).put PD_CFG_PD_EN 1).put (PD_SRCPDO_PDO.el 0) 0x1912C).put (PD_SNKPDO_PDO.el 0) 0x1912C).polTake).put TYPEC_STATE_CODE 6)).put SVC_MEAS_V 500) with port := { ((((((((((((atMode .run).wr (hdrAddr PG_TYPEC hdrCTRL) 1).wr (hdrAddr PG_PD hdrCTRL) 1).wr (hdrAddr PG_SVC hdrCTRL) 1).put PD_CFG_PD_EN 1).put (PD_SRCPDO_PDO.el 0) 0x1912C).put (PD_SNKPDO_PDO.el 0) 0x1912C).polTake).put TYPEC_STATE_CODE 6)).put SVC_MEAS_V 500)).port with stage := .toSrcSupply } } : State), by unfold State.Steady State.Calm; decide +kernel⟩
  · exact ⟨({ (((((((((atMode .run).wr (hdrAddr PG_TYPEC hdrCTRL) 1).wr (hdrAddr PG_PD hdrCTRL) 1).wr (hdrAddr PG_SVC hdrCTRL) 1).put PD_CFG_PD_EN 1).put (PD_SRCPDO_PDO.el 0) 0x1912C).put (PD_SNKPDO_PDO.el 0) 0x1912C).polTake).put TYPEC_STATE_CODE 6) with port := { ((((((((((atMode .run).wr (hdrAddr PG_TYPEC hdrCTRL) 1).wr (hdrAddr PG_PD hdrCTRL) 1).wr (hdrAddr PG_SVC hdrCTRL) 1).put PD_CFG_PD_EN 1).put (PD_SRCPDO_PDO.el 0) 0x1912C).put (PD_SNKPDO_PDO.el 0) 0x1912C).polTake).put TYPEC_STATE_CODE 6)).port with stage := .supply, reqRdo := 0x10019064, reqV := 100, reqI := 100 } } : State), by unfold State.Steady State.Calm; decide +kernel⟩
  · exact ⟨(((((((((atMode .run).wr (hdrAddr PG_TYPEC hdrCTRL) 1).wr (hdrAddr PG_PD hdrCTRL) 1).wr (hdrAddr PG_SVC hdrCTRL) 1).put PD_CFG_PD_EN 1).put (PD_SRCPDO_PDO.el 0) 0x1912C).put (PD_SNKPDO_PDO.el 0) 0x1912C).polTake).put TYPEC_STATE_CODE 5), by unfold State.Steady State.Calm; decide +kernel⟩
  · exact ⟨({ (((((((((atMode .run).wr (hdrAddr PG_TYPEC hdrCTRL) 1).wr (hdrAddr PG_PD hdrCTRL) 1).wr (hdrAddr PG_SVC hdrCTRL) 1).put PD_CFG_PD_EN 1).put (PD_SRCPDO_PDO.el 0) 0x1912C).put (PD_SNKPDO_PDO.el 0) 0x1912C).polTake).put TYPEC_STATE_CODE 5) with port := { ((((((((((atMode .run).wr (hdrAddr PG_TYPEC hdrCTRL) 1).wr (hdrAddr PG_PD hdrCTRL) 1).wr (hdrAddr PG_SVC hdrCTRL) 1).put PD_CFG_PD_EN 1).put (PD_SRCPDO_PDO.el 0) 0x1912C).put (PD_SNKPDO_PDO.el 0) 0x1912C).polTake).put TYPEC_STATE_CODE 5)).port with last := some .accept } } : State), (.accept : PdMsg), rfl, by unfold State.Steady State.Calm; decide +kernel⟩
  · exact ⟨({ (((((((((atMode .run).wr (hdrAddr PG_TYPEC hdrCTRL) 1).wr (hdrAddr PG_PD hdrCTRL) 1).wr (hdrAddr PG_SVC hdrCTRL) 1).put PD_CFG_PD_EN 1).put (PD_SRCPDO_PDO.el 0) 0x1912C).put (PD_SNKPDO_PDO.el 0) 0x1912C).polTake).put TYPEC_STATE_CODE 5) with port := { ((((((((((atMode .run).wr (hdrAddr PG_TYPEC hdrCTRL) 1).wr (hdrAddr PG_PD hdrCTRL) 1).wr (hdrAddr PG_SVC hdrCTRL) 1).put PD_CFG_PD_EN 1).put (PD_SRCPDO_PDO.el 0) 0x1912C).put (PD_SNKPDO_PDO.el 0) 0x1912C).polTake).put TYPEC_STATE_CODE 5)).port with last := some .accept, retries := 2 } } : State), (.accept : PdMsg), rfl, by unfold State.Steady State.Calm; decide +kernel⟩
  · exact ⟨(((((((((atMode .run).wr (hdrAddr PG_TYPEC hdrCTRL) 1).wr (hdrAddr PG_PD hdrCTRL) 1).wr (hdrAddr PG_SVC hdrCTRL) 1).put PD_CFG_PD_EN 1).put (PD_SRCPDO_PDO.el 0) 0x1912C).put (PD_SNKPDO_PDO.el 0) 0x1912C).polTake).put TYPEC_STATE_CODE 5), by unfold State.Steady State.Calm; decide +kernel⟩
  · exact ⟨(((((((((atMode .run).wr (hdrAddr PG_TYPEC hdrCTRL) 1).wr (hdrAddr PG_PD hdrCTRL) 1).wr (hdrAddr PG_SVC hdrCTRL) 1).put PD_CFG_PD_EN 1).put (PD_SRCPDO_PDO.el 0) 0x1912C).put (PD_SNKPDO_PDO.el 0) 0x1912C).polTake).put TYPEC_STATE_CODE 5), by unfold State.Steady State.Calm; decide +kernel⟩
  · exact ⟨(((((((((atMode .run).wr (hdrAddr PG_TYPEC hdrCTRL) 1).wr (hdrAddr PG_PD hdrCTRL) 1).wr (hdrAddr PG_SVC hdrCTRL) 1).put PD_CFG_PD_EN 1).put (PD_SRCPDO_PDO.el 0) 0x1912C).put (PD_SNKPDO_PDO.el 0) 0x1912C).polTake).put TYPEC_STATE_CODE 5), by unfold State.Steady State.Calm; decide +kernel⟩
  · exact ⟨(((((((((atMode .run).wr (hdrAddr PG_TYPEC hdrCTRL) 1).wr (hdrAddr PG_PD hdrCTRL) 1).wr (hdrAddr PG_SVC hdrCTRL) 1).put PD_CFG_PD_EN 1).put (PD_SRCPDO_PDO.el 0) 0x1912C).put (PD_SNKPDO_PDO.el 0) 0x1912C).polTake).put TYPEC_STATE_CODE 5), by unfold State.Steady State.Calm; decide +kernel⟩
  · exact ⟨(((((((((atMode .run).wr (hdrAddr PG_TYPEC hdrCTRL) 1).wr (hdrAddr PG_PD hdrCTRL) 1).wr (hdrAddr PG_SVC hdrCTRL) 1).put PD_CFG_PD_EN 1).put (PD_SRCPDO_PDO.el 0) 0x1912C).put (PD_SNKPDO_PDO.el 0) 0x1912C).polTake).put TYPEC_STATE_CODE 5), by unfold State.Steady State.Calm; decide +kernel⟩
  · exact ⟨({ (((((((((atMode .run).wr (hdrAddr PG_TYPEC hdrCTRL) 1).wr (hdrAddr PG_PD hdrCTRL) 1).wr (hdrAddr PG_SVC hdrCTRL) 1).put PD_CFG_PD_EN 1).put (PD_SRCPDO_PDO.el 0) 0x1912C).put (PD_SNKPDO_PDO.el 0) 0x1912C).polTake).put TYPEC_STATE_CODE 5) with port := { ((((((((((atMode .run).wr (hdrAddr PG_TYPEC hdrCTRL) 1).wr (hdrAddr PG_PD hdrCTRL) 1).wr (hdrAddr PG_SVC hdrCTRL) 1).put PD_CFG_PD_EN 1).put (PD_SRCPDO_PDO.el 0) 0x1912C).put (PD_SNKPDO_PDO.el 0) 0x1912C).polTake).put TYPEC_STATE_CODE 5)).port with stage := .request } } : State), by unfold State.Steady State.Calm; decide +kernel⟩
  · exact ⟨({ (((((((((atMode .run).wr (hdrAddr PG_TYPEC hdrCTRL) 1).wr (hdrAddr PG_PD hdrCTRL) 1).wr (hdrAddr PG_SVC hdrCTRL) 1).put PD_CFG_PD_EN 1).put (PD_SRCPDO_PDO.el 0) 0x1912C).put (PD_SNKPDO_PDO.el 0) 0x1912C).polTake).put TYPEC_STATE_CODE 5) with port := { ((((((((((atMode .run).wr (hdrAddr PG_TYPEC hdrCTRL) 1).wr (hdrAddr PG_PD hdrCTRL) 1).wr (hdrAddr PG_SVC hdrCTRL) 1).put PD_CFG_PD_EN 1).put (PD_SRCPDO_PDO.el 0) 0x1912C).put (PD_SNKPDO_PDO.el 0) 0x1912C).polTake).put TYPEC_STATE_CODE 5)).port with stage := .ready, reqRdo := 0x10019064, reqV := 100, reqI := 100 } } : State), by unfold State.Steady State.Calm; decide +kernel⟩
  · exact ⟨(((((((((atMode .run).wr (hdrAddr PG_TYPEC hdrCTRL) 1).wr (hdrAddr PG_PD hdrCTRL) 1).wr (hdrAddr PG_SVC hdrCTRL) 1).put PD_CFG_PD_EN 1).put (PD_SRCPDO_PDO.el 0) 0x1912C).put (PD_SNKPDO_PDO.el 0) 0x1912C).polTake).put TYPEC_STATE_CODE 5), (.accept : PdMsg), by unfold State.Steady State.Calm; decide +kernel⟩
  · exact ⟨atMode .run, (.accept : PdMsg), by unfold State.Steady State.Calm; decide +kernel⟩
  · exact ⟨({ ({ (((((((((atMode .run).wr (hdrAddr PG_TYPEC hdrCTRL) 1).wr (hdrAddr PG_PD hdrCTRL) 1).wr (hdrAddr PG_SVC hdrCTRL) 1).put PD_CFG_PD_EN 1).put (PD_SRCPDO_PDO.el 0) 0x1912C).put (PD_SNKPDO_PDO.el 0) 0x1912C).polTake).put TYPEC_STATE_CODE 5) with port := { ((((((((((atMode .run).wr (hdrAddr PG_TYPEC hdrCTRL) 1).wr (hdrAddr PG_PD hdrCTRL) 1).wr (hdrAddr PG_SVC hdrCTRL) 1).put PD_CFG_PD_EN 1).put (PD_SRCPDO_PDO.el 0) 0x1912C).put (PD_SNKPDO_PDO.el 0) 0x1912C).polTake).put TYPEC_STATE_CODE 5)).port with stage := .soft } } : State) with dev := { ((((((((((atMode .run).wr (hdrAddr PG_TYPEC hdrCTRL) 1).wr (hdrAddr PG_PD hdrCTRL) 1).wr (hdrAddr PG_SVC hdrCTRL) 1).put PD_CFG_PD_EN 1).put (PD_SRCPDO_PDO.el 0) 0x1912C).put (PD_SNKPDO_PDO.el 0) 0x1912C).polTake).put TYPEC_STATE_CODE 5)).dev with bias := .vbus } } : State), by unfold State.Steady State.Calm; decide +kernel⟩
  · exact ⟨({ (((((((((atMode .run).wr (hdrAddr PG_TYPEC hdrCTRL) 1).wr (hdrAddr PG_PD hdrCTRL) 1).wr (hdrAddr PG_SVC hdrCTRL) 1).put PD_CFG_PD_EN 1).put (PD_SRCPDO_PDO.el 0) 0x1912C).put (PD_SNKPDO_PDO.el 0) 0x1912C).polTake).put TYPEC_STATE_CODE 5) with port := { ((((((((((atMode .run).wr (hdrAddr PG_TYPEC hdrCTRL) 1).wr (hdrAddr PG_PD hdrCTRL) 1).wr (hdrAddr PG_SVC hdrCTRL) 1).put PD_CFG_PD_EN 1).put (PD_SRCPDO_PDO.el 0) 0x1912C).put (PD_SNKPDO_PDO.el 0) 0x1912C).polTake).put TYPEC_STATE_CODE 5)).port with stage := .soft } } : State), by unfold State.Steady State.Calm; decide +kernel⟩
  · exact ⟨(((((((((atMode .run).wr (hdrAddr PG_TYPEC hdrCTRL) 1).wr (hdrAddr PG_PD hdrCTRL) 1).wr (hdrAddr PG_SVC hdrCTRL) 1).put PD_CFG_PD_EN 1).put (PD_SRCPDO_PDO.el 0) 0x1912C).put (PD_SNKPDO_PDO.el 0) 0x1912C).polTake).put TYPEC_STATE_CODE 5), by unfold State.Steady State.Calm; decide +kernel⟩

/-- Each clause of PortSwapsAndResets has a state and operands that meet its hypotheses. -/
theorem witness_PortSwapsAndResets :
    (∃ (s : State), s.Steady ∧ s.pdOn = true ∧ s.injOn PG_PD 1 = false ∧ s.port.stage = .idle ∧ s.polOn PD_CFG_ACC_DRS = true) ∧
    (∃ (s : State) (k : PdSwap) (vconnIn : Bool), s.Steady ∧ s.pdOn = true ∧ s.injOn PG_PD 1 = false ∧ s.port.stage = .idle ∧ s.swapAllowed k vconnIn = false) ∧
    (∃ (s : State), s.Steady ∧ s.pdOn = true ∧ s.injOn PG_PD 1 = false ∧ s.port.stage = .idle ∧ s.portCode = 6 ∧ s.polOn PD_CFG_ACC_PRS = true) ∧
    (∃ (s : State), s.Steady ∧ s.pdOn = true ∧ s.injOn PG_PD 1 = false ∧ s.port.stage = .idle ∧ s.portCode = 5 ∧ s.polOn PD_CFG_ACC_PRS = true ∧
      s.srcOk = true) ∧
    (∃ (s : State) (vconnIn : Bool), (s.Steady ∧ s.pdOn = true ∧ s.injOn PG_PD 1 = false ∧ s.port.stage = .idle ∧ s.polOn PD_CFG_ACC_VCS = true ∧
      (s.on PD_CONTRACT_VCONNSRC = true ∨ vconnIn = true))) ∧
    (∃ (s : State), s.Steady ∧ s.pdOn = true) ∧
    (∃ (s : State), (s.Steady ∧ (s.port.stage = .toSnkWait ∨ s.port.stage = .toSrcWait ∨ s.port.stage = .toSrcSupply))) ∧
    (∃ (s : State), s.Steady ∧ s.port.stage = .idle) ∧
    (∃ (s : State) (m : Master) (key : BitVec 16), s.accepts m = true ∧ hostMaster m = true ∧ s.Steady ∧ key = 0x5D3A ∧ s.pdOn = true ∧ s.portCode = 5 ∧
      s.on PD_CONTRACT_VALID = true ∧ s.get TYPEC_STATE_RPSEEN ≠ 2 ∧ s.port.stage = .idle) ∧
    (∃ (s : State) (m : Master) (key : BitVec 16), s.accepts m = true ∧ hostMaster m = true ∧ s.Steady ∧ key = 0x5D3A ∧ s.pdOn = true ∧ s.portCode = 5 ∧
      s.on PD_CONTRACT_VALID = true ∧ s.get TYPEC_STATE_RPSEEN ≠ 2 ∧ s.port.stage = .idle) ∧
    (∃ (s : State) (m : Master) (key : BitVec 16), s.accepts m = true ∧ hostMaster m = true ∧ s.Steady ∧ key = 0x5D3A ∧ s.pdOn = true ∧ s.portCode = 5 ∧
      s.on PD_CONTRACT_VALID = true ∧ s.get TYPEC_STATE_RPSEEN ≠ 2 ∧ s.port.stage = .idle) ∧
    (∃ (s : State) (m : Master) (key : BitVec 16), s.accepts m = true ∧ hostMaster m = true ∧ s.Steady ∧ key = 0x5D3A ∧ s.pdOn = true ∧ s.portCode = 5 ∧
      s.on PD_CONTRACT_VALID = true ∧ s.get TYPEC_STATE_RPSEEN ≠ 2 ∧ s.port.stage = .idle) ∧
    (∃ (s : State) (m : Master) (key : BitVec 16), s.accepts m = true ∧ hostMaster m = true ∧ s.Steady ∧ key = 0x5D3A ∧ s.pdOn = true ∧ s.portCode = 5 ∧
      s.on PD_CONTRACT_VALID = true ∧ s.get TYPEC_STATE_RPSEEN ≠ 2 ∧ s.port.stage = .idle) ∧
    (∃ (s : State) (m : Master) (key : BitVec 16), (s.accepts m = true ∧ hostMaster m = true ∧ s.Steady ∧ key = 0x5D3A ∧ s.pdOn = true ∧ (s.portCode = 6 ∨
      s.on PD_CONTRACT_VALID = false ∨ s.get TYPEC_STATE_RPSEEN = 2) ∧ s.port.stage = .idle)) ∧
    (∃ (s : State) (m : Master) (key : BitVec 16), s.accepts m = true ∧ hostMaster m = true ∧ s.Steady ∧ key ≠ 0x5D3A) ∧
    (∃ (s : State) (m : Master) (key : BitVec 16), (s.accepts m = true ∧ hostMaster m = true ∧ s.Steady ∧ key = 0x5D3A ∧ s.pdOn = true ∧ (s.portCode = 6 ∨
      s.on PD_CONTRACT_VALID = false ∨ s.get TYPEC_STATE_RPSEEN = 2) ∧ s.port.stage = .idle)) ∧
    (∃ (s : State) (m : Master) (key : BitVec 16), s.accepts m = true ∧ hostMaster m = true ∧ s.Steady ∧ key ≠ 0x5D3A) ∧
    (∃ (s : State) (m : Master) (key : BitVec 16), (s.accepts m = true ∧ hostMaster m = true ∧ s.Steady ∧ key = 0x5D3A ∧ s.pdOn = true ∧ (s.portCode = 6 ∨
      s.on PD_CONTRACT_VALID = false ∨ s.get TYPEC_STATE_RPSEEN = 2) ∧ s.port.stage = .idle)) ∧
    (∃ (s : State) (m : Master) (key : BitVec 16), s.accepts m = true ∧ hostMaster m = true ∧ s.Steady ∧ key ≠ 0x5D3A) ∧
    (∃ (s : State) (m : Master) (key : BitVec 16), (s.accepts m = true ∧ hostMaster m = true ∧ s.Steady ∧ key = 0x5D3A ∧ s.pdOn = true ∧ (s.portCode = 6 ∨
      s.on PD_CONTRACT_VALID = false ∨ s.get TYPEC_STATE_RPSEEN = 2) ∧ s.port.stage = .idle)) ∧
    (∃ (s : State) (m : Master) (key : BitVec 16), s.accepts m = true ∧ hostMaster m = true ∧ s.Steady ∧ key ≠ 0x5D3A) ∧
    (∃ (s : State) (m : Master) (key : BitVec 16), s.accepts m = true ∧ hostMaster m = true ∧ s.Steady ∧ key = 0x5D3A ∧ s.pdOn = true ∧ s.portCode = 5 ∧ s.port.stage = .idle ∧
      s.port.hrCount < 2) ∧
    (∃ (s : State) (m : Master) (key : BitVec 16), s.accepts m = true ∧ hostMaster m = true ∧ s.Steady ∧ key ≠ 0x5D3A) ∧
    (∃ (s : State) (m : Master) (key : BitVec 16), s.accepts m = true ∧ hostMaster m = true ∧ s.Steady ∧ key = 0x5D3A ∧ s.pdOn = true ∧ s.portCode = 6 ∧ s.port.stage = .idle ∧
      s.port.hrCount < 2) ∧
    (∃ (s : State) (m : Master) (key : BitVec 16), s.accepts m = true ∧ hostMaster m = true ∧ s.Steady ∧ key = 0x5D3A ∧ s.pdOn = true ∧ s.port.stage = .idle ∧ 2 ≤ s.port.hrCount) ∧
    (∃ (s : State) (m : Master) (key : BitVec 16), s.accepts m = true ∧ hostMaster m = true ∧ s.Steady ∧ key = 0x5D3A ∧ s.pdOn = true) ∧
    (∃ (s : State) (m : Master) (key : BitVec 16), s.accepts m = true ∧ hostMaster m = true ∧ s.Steady ∧ key ≠ 0x5D3A) ∧
    (∃ (s : State) (m : Master) (key : BitVec 16), (s.accepts m = true ∧ hostMaster m = true ∧ s.Steady ∧ key = 0x5D3A ∧ s.pdOn = true ∧ (s.portCode = 6 ∨
      s.on PD_CONTRACT_VALID = false ∨ s.get TYPEC_STATE_RPSEEN = 2))) ∧
    (∃ (s : State) (m : Master) (key : BitVec 16), s.accepts m = true ∧ hostMaster m = true ∧ s.Steady ∧ key ≠ 0x5D3A) ∧
    (∃ (s : State), s.Steady ∧ s.pdOn = true ∧ s.portCode = 5 ∧ s.port.stage = .idle) ∧
    (∃ (s : State), s.Steady ∧ s.pdOn = true ∧ s.portCode = 6 ∧ s.port.stage = .idle) ∧
    (∃ (s : State), s.Steady ∧ s.pdOn = false) ∧
    (∃ (s : State), s.Steady ∧ s.port.stage = .hrSink) ∧
    (∃ (s : State), s.Steady ∧ s.port.stage ≠ .hrSink) ∧
    (∃ (s : State), s.Steady ∧ s.port.stage = .hrHold) ∧
    (∃ (s : State), s.Steady ∧ s.portCode = 6 ∧ s.port.stage = .hrOff ∧ s.srcOk = true) ∧
    (∃ (s : State), s.Steady ∧ s.port.stage = .hrOff ∧ s.srcOk = false) ∧
    (∃ (s : State), s.Steady ∧ s.port.stage = .idle) ∧
    (∃ (s : State), s.Steady ∧ s.pdOn = true ∧ s.on TYPEC_STATE_FRSARM = true ∧ s.port.stage = .idle) ∧
    (∃ (s : State), s.Steady ∧ s.on TYPEC_STATE_FRSARM = false) ∧
    (∃ (s : State), s.Steady ∧ s.port.stage = .frsReq) ∧
    (∃ (s : State), s.Steady ∧ s.port.stage ≠ .frsReq) ∧
    (∃ (s : State), (s.Steady ∧ s.srcOk = false ∧ s.portCode = 6 ∧ s.port.stage = .idle ∧ (s.on PD_CONTRACT_VALID = false ∨
      s.polOn PD_CFG_FRS_SRC_EN = false ∨ s.get PD_PARTNER_FRSCUR = 0))) ∧
    (∃ (s : State), s.Steady ∧ s.srcOk = false ∧ s.portCode = 6 ∧ s.port.stage = .idle ∧ s.on PD_CONTRACT_VALID = true ∧
      s.polOn PD_CFG_FRS_SRC_EN = true ∧ s.get PD_PARTNER_FRSCUR ≠ 0) ∧
    (∃ (s : State), (s.Steady ∧ (s.srcOk = true ∨ (s.portCode ≠ 6 ∧ s.port.stage = .idle)))) := by
  refine ⟨?_, ?_, ?_, ?_, ?_, ?_, ?_, ?_, ?_, ?_, ?_, ?_, ?_, ?_, ?_, ?_, ?_, ?_, ?_, ?_, ?_, ?_, ?_, ?_, ?_, ?_, ?_, ?_, ?_, ?_, ?_, ?_, ?_, ?_, ?_, ?_, ?_, ?_, ?_, ?_, ?_, ?_, ?_, ?_, ?_⟩
  · exact ⟨(((((((((((atMode .run).wr (hdrAddr PG_TYPEC hdrCTRL) 1).wr (hdrAddr PG_PD hdrCTRL) 1).wr (hdrAddr PG_SVC hdrCTRL) 1).put PD_CFG_PD_EN 1).put (PD_SRCPDO_PDO.el 0) 0x1912C).put (PD_SNKPDO_PDO.el 0) 0x1912C).polTake).put TYPEC_STATE_CODE 5)).put PD_CFG_ACC_DRS 1).polTake, by unfold State.Steady State.Calm; decide +kernel⟩
  · exact ⟨(((((((((((atMode .run).wr (hdrAddr PG_TYPEC hdrCTRL) 1).wr (hdrAddr PG_PD hdrCTRL) 1).wr (hdrAddr PG_SVC hdrCTRL) 1).put PD_CFG_PD_EN 1).put (PD_SRCPDO_PDO.el 0) 0x1912C).put (PD_SNKPDO_PDO.el 0) 0x1912C).polTake).put TYPEC_STATE_CODE 5)).put PD_CFG_ACC_DRS 0).polTake, PdSwap.data, false, by unfold State.Steady State.Calm; decide +kernel⟩
  · exact ⟨(((((((((((atMode .run).wr (hdrAddr PG_TYPEC hdrCTRL) 1).wr (hdrAddr PG_PD hdrCTRL) 1).wr (hdrAddr PG_SVC hdrCTRL) 1).put PD_CFG_PD_EN 1).put (PD_SRCPDO_PDO.el 0) 0x1912C).put (PD_SNKPDO_PDO.el 0) 0x1912C).polTake).put TYPEC_STATE_CODE 6)).put PD_CFG_ACC_PRS 1).polTake, by unfold State.Steady State.Calm; decide +kernel⟩
  · exact ⟨(((((((((((((((((atMode .run).wr (hdrAddr PG_TYPEC hdrCTRL) 1).wr (hdrAddr PG_PD hdrCTRL) 1).wr (hdrAddr PG_SVC hdrCTRL) 1).put PD_CFG_PD_EN 1).put (PD_SRCPDO_PDO.el 0) 0x1912C).put (PD_SNKPDO_PDO.el 0) 0x1912C).polTake).put TYPEC_STATE_CODE 5)).put LAMP_STATE_SOURCE 1).put INPATH_VOLT_V_HB 4800).put TYPEC_SRCCOND_V_HBSRC 400).put SVC_CFG_SAFEON 1)).polTake).put PD_CFG_ACC_PRS 1).polTake, by unfold State.Steady State.Calm; decide +kernel⟩
  · exact ⟨(((((((((((atMode .run).wr (hdrAddr PG_TYPEC hdrCTRL) 1).wr (hdrAddr PG_PD hdrCTRL) 1).wr (hdrAddr PG_SVC hdrCTRL) 1).put PD_CFG_PD_EN 1).put (PD_SRCPDO_PDO.el 0) 0x1912C).put (PD_SNKPDO_PDO.el 0) 0x1912C).polTake).put TYPEC_STATE_CODE 5)).put PD_CFG_ACC_VCS 1).polTake, true, by unfold State.Steady State.Calm; decide +kernel⟩
  · exact ⟨(((((((((atMode .run).wr (hdrAddr PG_TYPEC hdrCTRL) 1).wr (hdrAddr PG_PD hdrCTRL) 1).wr (hdrAddr PG_SVC hdrCTRL) 1).put PD_CFG_PD_EN 1).put (PD_SRCPDO_PDO.el 0) 0x1912C).put (PD_SNKPDO_PDO.el 0) 0x1912C).polTake).put TYPEC_STATE_CODE 5), by unfold State.Steady State.Calm; decide +kernel⟩
  · exact ⟨({ (((((((((atMode .run).wr (hdrAddr PG_TYPEC hdrCTRL) 1).wr (hdrAddr PG_PD hdrCTRL) 1).wr (hdrAddr PG_SVC hdrCTRL) 1).put PD_CFG_PD_EN 1).put (PD_SRCPDO_PDO.el 0) 0x1912C).put (PD_SNKPDO_PDO.el 0) 0x1912C).polTake).put TYPEC_STATE_CODE 5) with port := { ((((((((((atMode .run).wr (hdrAddr PG_TYPEC hdrCTRL) 1).wr (hdrAddr PG_PD hdrCTRL) 1).wr (hdrAddr PG_SVC hdrCTRL) 1).put PD_CFG_PD_EN 1).put (PD_SRCPDO_PDO.el 0) 0x1912C).put (PD_SNKPDO_PDO.el 0) 0x1912C).polTake).put TYPEC_STATE_CODE 5)).port with stage := .toSnkWait } } : State), by unfold State.Steady State.Calm; decide +kernel⟩
  · exact ⟨(((((((((atMode .run).wr (hdrAddr PG_TYPEC hdrCTRL) 1).wr (hdrAddr PG_PD hdrCTRL) 1).wr (hdrAddr PG_SVC hdrCTRL) 1).put PD_CFG_PD_EN 1).put (PD_SRCPDO_PDO.el 0) 0x1912C).put (PD_SNKPDO_PDO.el 0) 0x1912C).polTake).put TYPEC_STATE_CODE 5), by unfold State.Steady State.Calm; decide +kernel⟩
  · exact ⟨(((((((((((atMode .run).wr (hdrAddr PG_TYPEC hdrCTRL) 1).wr (hdrAddr PG_PD hdrCTRL) 1).wr (hdrAddr PG_SVC hdrCTRL) 1).put PD_CFG_PD_EN 1).put (PD_SRCPDO_PDO.el 0) 0x1912C).put (PD_SNKPDO_PDO.el 0) 0x1912C).polTake).put TYPEC_STATE_CODE 5)).put PD_CONTRACT_VALID 1), Master.spi, 0x5D3A, by unfold State.Steady State.Calm; decide +kernel⟩
  · exact ⟨(((((((((((atMode .run).wr (hdrAddr PG_TYPEC hdrCTRL) 1).wr (hdrAddr PG_PD hdrCTRL) 1).wr (hdrAddr PG_SVC hdrCTRL) 1).put PD_CFG_PD_EN 1).put (PD_SRCPDO_PDO.el 0) 0x1912C).put (PD_SNKPDO_PDO.el 0) 0x1912C).polTake).put TYPEC_STATE_CODE 5)).put PD_CONTRACT_VALID 1), Master.spi, 0x5D3A, by unfold State.Steady State.Calm; decide +kernel⟩
  · exact ⟨(((((((((((atMode .run).wr (hdrAddr PG_TYPEC hdrCTRL) 1).wr (hdrAddr PG_PD hdrCTRL) 1).wr (hdrAddr PG_SVC hdrCTRL) 1).put PD_CFG_PD_EN 1).put (PD_SRCPDO_PDO.el 0) 0x1912C).put (PD_SNKPDO_PDO.el 0) 0x1912C).polTake).put TYPEC_STATE_CODE 5)).put PD_CONTRACT_VALID 1), Master.spi, 0x5D3A, by unfold State.Steady State.Calm; decide +kernel⟩
  · exact ⟨(((((((((((atMode .run).wr (hdrAddr PG_TYPEC hdrCTRL) 1).wr (hdrAddr PG_PD hdrCTRL) 1).wr (hdrAddr PG_SVC hdrCTRL) 1).put PD_CFG_PD_EN 1).put (PD_SRCPDO_PDO.el 0) 0x1912C).put (PD_SNKPDO_PDO.el 0) 0x1912C).polTake).put TYPEC_STATE_CODE 5)).put PD_CONTRACT_VALID 1), Master.spi, 0x5D3A, by unfold State.Steady State.Calm; decide +kernel⟩
  · exact ⟨(((((((((((atMode .run).wr (hdrAddr PG_TYPEC hdrCTRL) 1).wr (hdrAddr PG_PD hdrCTRL) 1).wr (hdrAddr PG_SVC hdrCTRL) 1).put PD_CFG_PD_EN 1).put (PD_SRCPDO_PDO.el 0) 0x1912C).put (PD_SNKPDO_PDO.el 0) 0x1912C).polTake).put TYPEC_STATE_CODE 5)).put PD_CONTRACT_VALID 1), Master.spi, 0x5D3A, by unfold State.Steady State.Calm; decide +kernel⟩
  · exact ⟨(((((((((atMode .run).wr (hdrAddr PG_TYPEC hdrCTRL) 1).wr (hdrAddr PG_PD hdrCTRL) 1).wr (hdrAddr PG_SVC hdrCTRL) 1).put PD_CFG_PD_EN 1).put (PD_SRCPDO_PDO.el 0) 0x1912C).put (PD_SNKPDO_PDO.el 0) 0x1912C).polTake).put TYPEC_STATE_CODE 5), Master.spi, 0x5D3A, by unfold State.Steady State.Calm; decide +kernel⟩
  · exact ⟨(((((((((atMode .run).wr (hdrAddr PG_TYPEC hdrCTRL) 1).wr (hdrAddr PG_PD hdrCTRL) 1).wr (hdrAddr PG_SVC hdrCTRL) 1).put PD_CFG_PD_EN 1).put (PD_SRCPDO_PDO.el 0) 0x1912C).put (PD_SNKPDO_PDO.el 0) 0x1912C).polTake).put TYPEC_STATE_CODE 5), Master.spi, 0x5D3B, by unfold State.Steady State.Calm; decide +kernel⟩
  · exact ⟨(((((((((atMode .run).wr (hdrAddr PG_TYPEC hdrCTRL) 1).wr (hdrAddr PG_PD hdrCTRL) 1).wr (hdrAddr PG_SVC hdrCTRL) 1).put PD_CFG_PD_EN 1).put (PD_SRCPDO_PDO.el 0) 0x1912C).put (PD_SNKPDO_PDO.el 0) 0x1912C).polTake).put TYPEC_STATE_CODE 5), Master.spi, 0x5D3A, by unfold State.Steady State.Calm; decide +kernel⟩
  · exact ⟨(((((((((atMode .run).wr (hdrAddr PG_TYPEC hdrCTRL) 1).wr (hdrAddr PG_PD hdrCTRL) 1).wr (hdrAddr PG_SVC hdrCTRL) 1).put PD_CFG_PD_EN 1).put (PD_SRCPDO_PDO.el 0) 0x1912C).put (PD_SNKPDO_PDO.el 0) 0x1912C).polTake).put TYPEC_STATE_CODE 5), Master.spi, 0x5D3B, by unfold State.Steady State.Calm; decide +kernel⟩
  · exact ⟨(((((((((atMode .run).wr (hdrAddr PG_TYPEC hdrCTRL) 1).wr (hdrAddr PG_PD hdrCTRL) 1).wr (hdrAddr PG_SVC hdrCTRL) 1).put PD_CFG_PD_EN 1).put (PD_SRCPDO_PDO.el 0) 0x1912C).put (PD_SNKPDO_PDO.el 0) 0x1912C).polTake).put TYPEC_STATE_CODE 5), Master.spi, 0x5D3A, by unfold State.Steady State.Calm; decide +kernel⟩
  · exact ⟨(((((((((atMode .run).wr (hdrAddr PG_TYPEC hdrCTRL) 1).wr (hdrAddr PG_PD hdrCTRL) 1).wr (hdrAddr PG_SVC hdrCTRL) 1).put PD_CFG_PD_EN 1).put (PD_SRCPDO_PDO.el 0) 0x1912C).put (PD_SNKPDO_PDO.el 0) 0x1912C).polTake).put TYPEC_STATE_CODE 5), Master.spi, 0x5D3B, by unfold State.Steady State.Calm; decide +kernel⟩
  · exact ⟨(((((((((atMode .run).wr (hdrAddr PG_TYPEC hdrCTRL) 1).wr (hdrAddr PG_PD hdrCTRL) 1).wr (hdrAddr PG_SVC hdrCTRL) 1).put PD_CFG_PD_EN 1).put (PD_SRCPDO_PDO.el 0) 0x1912C).put (PD_SNKPDO_PDO.el 0) 0x1912C).polTake).put TYPEC_STATE_CODE 5), Master.spi, 0x5D3A, by unfold State.Steady State.Calm; decide +kernel⟩
  · exact ⟨(((((((((atMode .run).wr (hdrAddr PG_TYPEC hdrCTRL) 1).wr (hdrAddr PG_PD hdrCTRL) 1).wr (hdrAddr PG_SVC hdrCTRL) 1).put PD_CFG_PD_EN 1).put (PD_SRCPDO_PDO.el 0) 0x1912C).put (PD_SNKPDO_PDO.el 0) 0x1912C).polTake).put TYPEC_STATE_CODE 5), Master.spi, 0x5D3B, by unfold State.Steady State.Calm; decide +kernel⟩
  · exact ⟨(((((((((atMode .run).wr (hdrAddr PG_TYPEC hdrCTRL) 1).wr (hdrAddr PG_PD hdrCTRL) 1).wr (hdrAddr PG_SVC hdrCTRL) 1).put PD_CFG_PD_EN 1).put (PD_SRCPDO_PDO.el 0) 0x1912C).put (PD_SNKPDO_PDO.el 0) 0x1912C).polTake).put TYPEC_STATE_CODE 5), Master.spi, 0x5D3A, by unfold State.Steady State.Calm; decide +kernel⟩
  · exact ⟨(((((((((atMode .run).wr (hdrAddr PG_TYPEC hdrCTRL) 1).wr (hdrAddr PG_PD hdrCTRL) 1).wr (hdrAddr PG_SVC hdrCTRL) 1).put PD_CFG_PD_EN 1).put (PD_SRCPDO_PDO.el 0) 0x1912C).put (PD_SNKPDO_PDO.el 0) 0x1912C).polTake).put TYPEC_STATE_CODE 5), Master.spi, 0x5D3B, by unfold State.Steady State.Calm; decide +kernel⟩
  · exact ⟨(((((((((atMode .run).wr (hdrAddr PG_TYPEC hdrCTRL) 1).wr (hdrAddr PG_PD hdrCTRL) 1).wr (hdrAddr PG_SVC hdrCTRL) 1).put PD_CFG_PD_EN 1).put (PD_SRCPDO_PDO.el 0) 0x1912C).put (PD_SNKPDO_PDO.el 0) 0x1912C).polTake).put TYPEC_STATE_CODE 6), Master.spi, 0x5D3A, by unfold State.Steady State.Calm; decide +kernel⟩
  · exact ⟨({ (((((((((atMode .run).wr (hdrAddr PG_TYPEC hdrCTRL) 1).wr (hdrAddr PG_PD hdrCTRL) 1).wr (hdrAddr PG_SVC hdrCTRL) 1).put PD_CFG_PD_EN 1).put (PD_SRCPDO_PDO.el 0) 0x1912C).put (PD_SNKPDO_PDO.el 0) 0x1912C).polTake).put TYPEC_STATE_CODE 5) with port := { ((((((((((atMode .run).wr (hdrAddr PG_TYPEC hdrCTRL) 1).wr (hdrAddr PG_PD hdrCTRL) 1).wr (hdrAddr PG_SVC hdrCTRL) 1).put PD_CFG_PD_EN 1).put (PD_SRCPDO_PDO.el 0) 0x1912C).put (PD_SNKPDO_PDO.el 0) 0x1912C).polTake).put TYPEC_STATE_CODE 5)).port with hrCount := 2 } } : State), Master.spi, 0x5D3A, by unfold State.Steady State.Calm; decide +kernel⟩
  · exact ⟨(((((((((atMode .run).wr (hdrAddr PG_TYPEC hdrCTRL) 1).wr (hdrAddr PG_PD hdrCTRL) 1).wr (hdrAddr PG_SVC hdrCTRL) 1).put PD_CFG_PD_EN 1).put (PD_SRCPDO_PDO.el 0) 0x1912C).put (PD_SNKPDO_PDO.el 0) 0x1912C).polTake).put TYPEC_STATE_CODE 5), Master.spi, 0x5D3A, by unfold State.Steady State.Calm; decide +kernel⟩
  · exact ⟨(((((((((atMode .run).wr (hdrAddr PG_TYPEC hdrCTRL) 1).wr (hdrAddr PG_PD hdrCTRL) 1).wr (hdrAddr PG_SVC hdrCTRL) 1).put PD_CFG_PD_EN 1).put (PD_SRCPDO_PDO.el 0) 0x1912C).put (PD_SNKPDO_PDO.el 0) 0x1912C).polTake).put TYPEC_STATE_CODE 5), Master.spi, 0x5D3B, by unfold State.Steady State.Calm; decide +kernel⟩
  · exact ⟨(((((((((atMode .run).wr (hdrAddr PG_TYPEC hdrCTRL) 1).wr (hdrAddr PG_PD hdrCTRL) 1).wr (hdrAddr PG_SVC hdrCTRL) 1).put PD_CFG_PD_EN 1).put (PD_SRCPDO_PDO.el 0) 0x1912C).put (PD_SNKPDO_PDO.el 0) 0x1912C).polTake).put TYPEC_STATE_CODE 5), Master.spi, 0x5D3A, by unfold State.Steady State.Calm; decide +kernel⟩
  · exact ⟨(((((((((atMode .run).wr (hdrAddr PG_TYPEC hdrCTRL) 1).wr (hdrAddr PG_PD hdrCTRL) 1).wr (hdrAddr PG_SVC hdrCTRL) 1).put PD_CFG_PD_EN 1).put (PD_SRCPDO_PDO.el 0) 0x1912C).put (PD_SNKPDO_PDO.el 0) 0x1912C).polTake).put TYPEC_STATE_CODE 5), Master.spi, 0x5D3B, by unfold State.Steady State.Calm; decide +kernel⟩
  · exact ⟨(((((((((atMode .run).wr (hdrAddr PG_TYPEC hdrCTRL) 1).wr (hdrAddr PG_PD hdrCTRL) 1).wr (hdrAddr PG_SVC hdrCTRL) 1).put PD_CFG_PD_EN 1).put (PD_SRCPDO_PDO.el 0) 0x1912C).put (PD_SNKPDO_PDO.el 0) 0x1912C).polTake).put TYPEC_STATE_CODE 5), by unfold State.Steady State.Calm; decide +kernel⟩
  · exact ⟨(((((((((atMode .run).wr (hdrAddr PG_TYPEC hdrCTRL) 1).wr (hdrAddr PG_PD hdrCTRL) 1).wr (hdrAddr PG_SVC hdrCTRL) 1).put PD_CFG_PD_EN 1).put (PD_SRCPDO_PDO.el 0) 0x1912C).put (PD_SNKPDO_PDO.el 0) 0x1912C).polTake).put TYPEC_STATE_CODE 6), by unfold State.Steady State.Calm; decide +kernel⟩
  · exact ⟨(((((((atMode .run).wr (hdrAddr PG_TYPEC hdrCTRL) 1).wr (hdrAddr PG_PD hdrCTRL) 1).wr (hdrAddr PG_SVC hdrCTRL) 1).put PD_CFG_PD_EN 1).put (PD_SRCPDO_PDO.el 0) 0x1912C).put (PD_SNKPDO_PDO.el 0) 0x1912C).polTake, by unfold State.Steady State.Calm; decide +kernel⟩
  · exact ⟨({ (((((((((atMode .run).wr (hdrAddr PG_TYPEC hdrCTRL) 1).wr (hdrAddr PG_PD hdrCTRL) 1).wr (hdrAddr PG_SVC hdrCTRL) 1).put PD_CFG_PD_EN 1).put (PD_SRCPDO_PDO.el 0) 0x1912C).put (PD_SNKPDO_PDO.el 0) 0x1912C).polTake).put TYPEC_STATE_CODE 5) with port := { ((((((((((atMode .run).wr (hdrAddr PG_TYPEC hdrCTRL) 1).wr (hdrAddr PG_PD hdrCTRL) 1).wr (hdrAddr PG_SVC hdrCTRL) 1).put PD_CFG_PD_EN 1).put (PD_SRCPDO_PDO.el 0) 0x1912C).put (PD_SNKPDO_PDO.el 0) 0x1912C).polTake).put TYPEC_STATE_CODE 5)).port with stage := .hrSink } } : State), by unfold State.Steady State.Calm; decide +kernel⟩
  · exact ⟨(((((((((atMode .run).wr (hdrAddr PG_TYPEC hdrCTRL) 1).wr (hdrAddr PG_PD hdrCTRL) 1).wr (hdrAddr PG_SVC hdrCTRL) 1).put PD_CFG_PD_EN 1).put (PD_SRCPDO_PDO.el 0) 0x1912C).put (PD_SNKPDO_PDO.el 0) 0x1912C).polTake).put TYPEC_STATE_CODE 5), by unfold State.Steady State.Calm; decide +kernel⟩
  · exact ⟨({ (((((((((atMode .run).wr (hdrAddr PG_TYPEC hdrCTRL) 1).wr (hdrAddr PG_PD hdrCTRL) 1).wr (hdrAddr PG_SVC hdrCTRL) 1).put PD_CFG_PD_EN 1).put (PD_SRCPDO_PDO.el 0) 0x1912C).put (PD_SNKPDO_PDO.el 0) 0x1912C).polTake).put TYPEC_STATE_CODE 6) with port := { ((((((((((atMode .run).wr (hdrAddr PG_TYPEC hdrCTRL) 1).wr (hdrAddr PG_PD hdrCTRL) 1).wr (hdrAddr PG_SVC hdrCTRL) 1).put PD_CFG_PD_EN 1).put (PD_SRCPDO_PDO.el 0) 0x1912C).put (PD_SNKPDO_PDO.el 0) 0x1912C).polTake).put TYPEC_STATE_CODE 6)).port with stage := .hrHold } } : State), by unfold State.Steady State.Calm; decide +kernel⟩
  · exact ⟨({ (((((((((((((((atMode .run).wr (hdrAddr PG_TYPEC hdrCTRL) 1).wr (hdrAddr PG_PD hdrCTRL) 1).wr (hdrAddr PG_SVC hdrCTRL) 1).put PD_CFG_PD_EN 1).put (PD_SRCPDO_PDO.el 0) 0x1912C).put (PD_SNKPDO_PDO.el 0) 0x1912C).polTake).put TYPEC_STATE_CODE 6)).put LAMP_STATE_SOURCE 1).put INPATH_VOLT_V_HB 4800).put TYPEC_SRCCOND_V_HBSRC 400).put SVC_CFG_SAFEON 1)).polTake with port := { ((((((((((((((((atMode .run).wr (hdrAddr PG_TYPEC hdrCTRL) 1).wr (hdrAddr PG_PD hdrCTRL) 1).wr (hdrAddr PG_SVC hdrCTRL) 1).put PD_CFG_PD_EN 1).put (PD_SRCPDO_PDO.el 0) 0x1912C).put (PD_SNKPDO_PDO.el 0) 0x1912C).polTake).put TYPEC_STATE_CODE 6)).put LAMP_STATE_SOURCE 1).put INPATH_VOLT_V_HB 4800).put TYPEC_SRCCOND_V_HBSRC 400).put SVC_CFG_SAFEON 1)).polTake).port with stage := .hrOff } } : State), by unfold State.Steady State.Calm; decide +kernel⟩
  · exact ⟨({ (((((((((atMode .run).wr (hdrAddr PG_TYPEC hdrCTRL) 1).wr (hdrAddr PG_PD hdrCTRL) 1).wr (hdrAddr PG_SVC hdrCTRL) 1).put PD_CFG_PD_EN 1).put (PD_SRCPDO_PDO.el 0) 0x1912C).put (PD_SNKPDO_PDO.el 0) 0x1912C).polTake).put TYPEC_STATE_CODE 6) with port := { ((((((((((atMode .run).wr (hdrAddr PG_TYPEC hdrCTRL) 1).wr (hdrAddr PG_PD hdrCTRL) 1).wr (hdrAddr PG_SVC hdrCTRL) 1).put PD_CFG_PD_EN 1).put (PD_SRCPDO_PDO.el 0) 0x1912C).put (PD_SNKPDO_PDO.el 0) 0x1912C).polTake).put TYPEC_STATE_CODE 6)).port with stage := .hrOff } } : State), by unfold State.Steady State.Calm; decide +kernel⟩
  · exact ⟨(((((((((atMode .run).wr (hdrAddr PG_TYPEC hdrCTRL) 1).wr (hdrAddr PG_PD hdrCTRL) 1).wr (hdrAddr PG_SVC hdrCTRL) 1).put PD_CFG_PD_EN 1).put (PD_SRCPDO_PDO.el 0) 0x1912C).put (PD_SNKPDO_PDO.el 0) 0x1912C).polTake).put TYPEC_STATE_CODE 5), by unfold State.Steady State.Calm; decide +kernel⟩
  · exact ⟨((((((((((atMode .run).wr (hdrAddr PG_TYPEC hdrCTRL) 1).wr (hdrAddr PG_PD hdrCTRL) 1).wr (hdrAddr PG_SVC hdrCTRL) 1).put PD_CFG_PD_EN 1).put (PD_SRCPDO_PDO.el 0) 0x1912C).put (PD_SNKPDO_PDO.el 0) 0x1912C).polTake).put TYPEC_STATE_CODE 5)).put TYPEC_STATE_FRSARM 1, by unfold State.Steady State.Calm; decide +kernel⟩
  · exact ⟨(((((((((atMode .run).wr (hdrAddr PG_TYPEC hdrCTRL) 1).wr (hdrAddr PG_PD hdrCTRL) 1).wr (hdrAddr PG_SVC hdrCTRL) 1).put PD_CFG_PD_EN 1).put (PD_SRCPDO_PDO.el 0) 0x1912C).put (PD_SNKPDO_PDO.el 0) 0x1912C).polTake).put TYPEC_STATE_CODE 5), by unfold State.Steady State.Calm; decide +kernel⟩
  · exact ⟨({ (((((((((atMode .run).wr (hdrAddr PG_TYPEC hdrCTRL) 1).wr (hdrAddr PG_PD hdrCTRL) 1).wr (hdrAddr PG_SVC hdrCTRL) 1).put PD_CFG_PD_EN 1).put (PD_SRCPDO_PDO.el 0) 0x1912C).put (PD_SNKPDO_PDO.el 0) 0x1912C).polTake).put TYPEC_STATE_CODE 5) with port := { ((((((((((atMode .run).wr (hdrAddr PG_TYPEC hdrCTRL) 1).wr (hdrAddr PG_PD hdrCTRL) 1).wr (hdrAddr PG_SVC hdrCTRL) 1).put PD_CFG_PD_EN 1).put (PD_SRCPDO_PDO.el 0) 0x1912C).put (PD_SNKPDO_PDO.el 0) 0x1912C).polTake).put TYPEC_STATE_CODE 5)).port with stage := .frsReq } } : State), by unfold State.Steady State.Calm; decide +kernel⟩
  · exact ⟨(((((((((atMode .run).wr (hdrAddr PG_TYPEC hdrCTRL) 1).wr (hdrAddr PG_PD hdrCTRL) 1).wr (hdrAddr PG_SVC hdrCTRL) 1).put PD_CFG_PD_EN 1).put (PD_SRCPDO_PDO.el 0) 0x1912C).put (PD_SNKPDO_PDO.el 0) 0x1912C).polTake).put TYPEC_STATE_CODE 5), by unfold State.Steady State.Calm; decide +kernel⟩
  · exact ⟨(((((((((atMode .run).wr (hdrAddr PG_TYPEC hdrCTRL) 1).wr (hdrAddr PG_PD hdrCTRL) 1).wr (hdrAddr PG_SVC hdrCTRL) 1).put PD_CFG_PD_EN 1).put (PD_SRCPDO_PDO.el 0) 0x1912C).put (PD_SNKPDO_PDO.el 0) 0x1912C).polTake).put TYPEC_STATE_CODE 6), by unfold State.Steady State.Calm; decide +kernel⟩
  · exact ⟨((((((((((((atMode .run).wr (hdrAddr PG_TYPEC hdrCTRL) 1).wr (hdrAddr PG_PD hdrCTRL) 1).wr (hdrAddr PG_SVC hdrCTRL) 1).put PD_CFG_PD_EN 1).put (PD_SRCPDO_PDO.el 0) 0x1912C).put (PD_SNKPDO_PDO.el 0) 0x1912C).polTake).put TYPEC_STATE_CODE 6)).put PD_CONTRACT_VALID 1 |>.put PD_CFG_FRS_SRC_EN 1).put PD_PARTNER_FRSCUR 1).polTake, by unfold State.Steady State.Calm; decide +kernel⟩
  · exact ⟨(((((((((atMode .run).wr (hdrAddr PG_TYPEC hdrCTRL) 1).wr (hdrAddr PG_PD hdrCTRL) 1).wr (hdrAddr PG_SVC hdrCTRL) 1).put PD_CFG_PD_EN 1).put (PD_SRCPDO_PDO.el 0) 0x1912C).put (PD_SNKPDO_PDO.el 0) 0x1912C).polTake).put TYPEC_STATE_CODE 5), by unfold State.Steady State.Calm; decide +kernel⟩

/-- Each clause of PortVdmsAndLantern has a state and operands that meet its hypotheses. -/
theorem witness_PortVdmsAndLantern :
    (∃ (s : State) (words : List Word), s.Steady ∧ s.pdOn = true ∧ s.injOn PG_PD 1 = false ∧ 0 < words.length ∧ words.length ≤ 7 ∧
      bitOf (nth (words.map BitVec.toNat) 0) 15 = true ∧ s.lanternFor (words.map BitVec.toNat) = false ∧ s.on PD_RXINFO_FULL = false) ∧
    (∃ (s : State) (words : List Word), s.Steady ∧ s.pdOn = true ∧ s.injOn PG_PD 1 = false ∧ 0 < words.length ∧ words.length ≤ 7 ∧
      bitOf (nth (words.map BitVec.toNat) 0) 15 = true ∧ s.lanternFor (words.map BitVec.toNat) = false ∧ s.on PD_RXINFO_FULL = true) ∧
    (∃ (s : State) (words : List Word), s.Steady ∧ s.pdOn = true ∧ s.injOn PG_PD 1 = false ∧ 0 < words.length ∧ words.length ≤ 7 ∧
      bitOf (nth (words.map BitVec.toNat) 0) 15 = false) ∧
    (∃ (s : State) (words : List Word), s.Steady ∧ s.pdOn = true ∧ 0 < words.length ∧ words.length ≤ 7) ∧
    (∃ (s : State), s.Steady ∧ s.port.vdmWait = true ∧ s.pdOn = true) ∧
    (∃ (s : State), (s.Steady ∧ (s.port.vdmWait = false ∨ s.pdOn = false))) ∧
    (∃ (s : State) (words : List Word), s.Steady ∧ s.pdOn = true ∧ s.injOn PG_PD 1 = false ∧ 0 < words.length ∧ words.length ≤ 7 ∧
      s.lanternFor (words.map BitVec.toNat) = true ∧ bitsOf (nth (words.map BitVec.toNat) 0) 0 5 = 1 ∧
      nth (words.map BitVec.toNat) 0 / 65536 % 65536 = 0xFF00) ∧
    (∃ (s : State) (words : List Word), s.Steady ∧ s.pdOn = true ∧ s.injOn PG_PD 1 = false ∧ 0 < words.length ∧ words.length ≤ 7 ∧
      s.lanternFor (words.map BitVec.toNat) = true ∧ bitsOf (nth (words.map BitVec.toNat) 0) 0 5 = 4 ∧
      nth (words.map BitVec.toNat) 0 / 65536 % 65536 = s.get PD_SVID_SVID ∧ bitsOf (nth (words.map BitVec.toNat) 0) 8 3 = 1) ∧
    (∃ (s : State) (words : List Word), s.Steady ∧ s.pdOn = true ∧ s.injOn PG_PD 1 = false ∧ 0 < words.length ∧ words.length ≤ 7 ∧
      s.lanternFor (words.map BitVec.toNat) = true ∧ bitsOf (nth (words.map BitVec.toNat) 0) 0 5 = 5 ∧
      nth (words.map BitVec.toNat) 0 / 65536 % 65536 = s.get PD_SVID_SVID) ∧
    (∃ (s : State) (words : List Word), s.Steady ∧ s.pdOn = true ∧ s.injOn PG_PD 1 = false ∧ 0 < words.length ∧ words.length ≤ 7 ∧
      s.lanternFor (words.map BitVec.toNat) = false) ∧
    (∃ (s : State) (words : List Word), s.Steady ∧ s.pdOn = true ∧ 0 < words.length ∧ words.length ≤ 7) := by
  refine ⟨?_, ?_, ?_, ?_, ?_, ?_, ?_, ?_, ?_, ?_, ?_⟩
  · exact ⟨(((((((((((atMode .run).wr (hdrAddr PG_TYPEC hdrCTRL) 1).wr (hdrAddr PG_PD hdrCTRL) 1).wr (hdrAddr PG_SVC hdrCTRL) 1).put PD_CFG_PD_EN 1).put (PD_SRCPDO_PDO.el 0) 0x1912C).put (PD_SNKPDO_PDO.el 0) 0x1912C).polTake).put TYPEC_STATE_CODE 5)).put PD_CFG_LANTERN_AUTO 0).polTake, ([0xFF008001, 7] : List Word), by unfold State.Steady State.Calm; decide +kernel⟩
  · exact ⟨((((((((((((atMode .run).wr (hdrAddr PG_TYPEC hdrCTRL) 1).wr (hdrAddr PG_PD hdrCTRL) 1).wr (hdrAddr PG_SVC hdrCTRL) 1).put PD_CFG_PD_EN 1).put (PD_SRCPDO_PDO.el 0) 0x1912C).put (PD_SNKPDO_PDO.el 0) 0x1912C).polTake).put TYPEC_STATE_CODE 5)).put PD_CFG_LANTERN_AUTO 0).put PD_RXINFO_FULL 1).polTake, ([0xFF008001, 7] : List Word), by unfold State.Steady State.Calm; decide +kernel⟩
  · exact ⟨(((((((((atMode .run).wr (hdrAddr PG_TYPEC hdrCTRL) 1).wr (hdrAddr PG_PD hdrCTRL) 1).wr (hdrAddr PG_SVC hdrCTRL) 1).put PD_CFG_PD_EN 1).put (PD_SRCPDO_PDO.el 0) 0x1912C).put (PD_SNKPDO_PDO.el 0) 0x1912C).polTake).put TYPEC_STATE_CODE 5), ([0xFF000001] : List Word), by unfold State.Steady State.Calm; decide +kernel⟩
  · exact ⟨(((((((((atMode .run).wr (hdrAddr PG_TYPEC hdrCTRL) 1).wr (hdrAddr PG_PD hdrCTRL) 1).wr (hdrAddr PG_SVC hdrCTRL) 1).put PD_CFG_PD_EN 1).put (PD_SRCPDO_PDO.el 0) 0x1912C).put (PD_SNKPDO_PDO.el 0) 0x1912C).polTake).put TYPEC_STATE_CODE 5), ([0xFF008001] : List Word), by unfold State.Steady State.Calm; decide +kernel⟩
  · exact ⟨({ (((((((((atMode .run).wr (hdrAddr PG_TYPEC hdrCTRL) 1).wr (hdrAddr PG_PD hdrCTRL) 1).wr (hdrAddr PG_SVC hdrCTRL) 1).put PD_CFG_PD_EN 1).put (PD_SRCPDO_PDO.el 0) 0x1912C).put (PD_SNKPDO_PDO.el 0) 0x1912C).polTake).put TYPEC_STATE_CODE 5) with port := { ((((((((((atMode .run).wr (hdrAddr PG_TYPEC hdrCTRL) 1).wr (hdrAddr PG_PD hdrCTRL) 1).wr (hdrAddr PG_SVC hdrCTRL) 1).put PD_CFG_PD_EN 1).put (PD_SRCPDO_PDO.el 0) 0x1912C).put (PD_SNKPDO_PDO.el 0) 0x1912C).polTake).put TYPEC_STATE_CODE 5)).port with vdmWait := true } } : State), by unfold State.Steady State.Calm; decide +kernel⟩
  · exact ⟨(((((((((atMode .run).wr (hdrAddr PG_TYPEC hdrCTRL) 1).wr (hdrAddr PG_PD hdrCTRL) 1).wr (hdrAddr PG_SVC hdrCTRL) 1).put PD_CFG_PD_EN 1).put (PD_SRCPDO_PDO.el 0) 0x1912C).put (PD_SNKPDO_PDO.el 0) 0x1912C).polTake).put TYPEC_STATE_CODE 5), by unfold State.Steady State.Calm; decide +kernel⟩
  · exact ⟨(((((((((((atMode .run).wr (hdrAddr PG_TYPEC hdrCTRL) 1).wr (hdrAddr PG_PD hdrCTRL) 1).wr (hdrAddr PG_SVC hdrCTRL) 1).put PD_CFG_PD_EN 1).put (PD_SRCPDO_PDO.el 0) 0x1912C).put (PD_SNKPDO_PDO.el 0) 0x1912C).polTake).put TYPEC_STATE_CODE 5)).put PD_CFG_LANTERN_AUTO 1).polTake, ([0xFF008001] : List Word), by unfold State.Steady State.Calm; decide +kernel⟩
  · exact ⟨((((((((((((atMode .run).wr (hdrAddr PG_TYPEC hdrCTRL) 1).wr (hdrAddr PG_PD hdrCTRL) 1).wr (hdrAddr PG_SVC hdrCTRL) 1).put PD_CFG_PD_EN 1).put (PD_SRCPDO_PDO.el 0) 0x1912C).put (PD_SNKPDO_PDO.el 0) 0x1912C).polTake).put TYPEC_STATE_CODE 5)).put PD_CFG_LANTERN_AUTO 1).polTake).put PD_SVID_SVID 0x1234, ([0x12348104] : List Word), by unfold State.Steady State.Calm; decide +kernel⟩
  · exact ⟨((((((((((((atMode .run).wr (hdrAddr PG_TYPEC hdrCTRL) 1).wr (hdrAddr PG_PD hdrCTRL) 1).wr (hdrAddr PG_SVC hdrCTRL) 1).put PD_CFG_PD_EN 1).put (PD_SRCPDO_PDO.el 0) 0x1912C).put (PD_SNKPDO_PDO.el 0) 0x1912C).polTake).put TYPEC_STATE_CODE 5)).put PD_CFG_LANTERN_AUTO 1).polTake).put PD_SVID_SVID 0x1234, ([0x12348105] : List Word), by unfold State.Steady State.Calm; decide +kernel⟩
  · exact ⟨(((((((((((atMode .run).wr (hdrAddr PG_TYPEC hdrCTRL) 1).wr (hdrAddr PG_PD hdrCTRL) 1).wr (hdrAddr PG_SVC hdrCTRL) 1).put PD_CFG_PD_EN 1).put (PD_SRCPDO_PDO.el 0) 0x1912C).put (PD_SNKPDO_PDO.el 0) 0x1912C).polTake).put TYPEC_STATE_CODE 5)).put PD_CFG_LANTERN_AUTO 0).polTake, ([0x12348104] : List Word), by unfold State.Steady State.Calm; decide +kernel⟩
  · exact ⟨(((((((((atMode .run).wr (hdrAddr PG_TYPEC hdrCTRL) 1).wr (hdrAddr PG_PD hdrCTRL) 1).wr (hdrAddr PG_SVC hdrCTRL) 1).put PD_CFG_PD_EN 1).put (PD_SRCPDO_PDO.el 0) 0x1912C).put (PD_SNKPDO_PDO.el 0) 0x1912C).polTake).put TYPEC_STATE_CODE 5), ([0xFF008001] : List Word), by unfold State.Steady State.Calm; decide +kernel⟩

/-- Each clause of RingFrames has a state and operands that meet its hypotheses. -/
theorem witness_RingFrames :
    (∃ (s : State) (west : Bool) (f : RingFrame) (crc : BitVec 32), s.Quiet ∧ ringFrameOk f = true ∧ s.ringRuns = true ∧ crc.toNat = ringCrc f ∧ s.injOn PG_RING 1 = false ∧ s.ring.unusable = false ∧
      f.typ = 2 ∧ f.bc = false ∧ f.turned = false ∧ s.frameOwn f = false ∧ f.dst ≠ s.devNum ∧ 1 < f.hops ∧ s.portUp (!west) = true) ∧
    (∃ (s : State) (west : Bool) (f : RingFrame), s.Quiet ∧ ringFrameOk f = true ∧ s.ringRuns = true ∧ s.injOn PG_RING 1 = false ∧ s.ring.unusable = false ∧ f.typ = 2 ∧
      f.bc = false ∧ f.turned = false ∧ s.frameOwn f = false ∧ f.dst ≠ s.devNum ∧ 1 < f.hops ∧ s.portUp (!west) = true) ∧
    (∃ (s : State) (west : Bool) (f : RingFrame) (crc : BitVec 32), s.Quiet ∧ ringFrameOk f = true ∧ s.ringRuns = true ∧ crc.toNat = ringCrc f ∧ s.injOn PG_RING 1 = false ∧ s.ring.unusable = false ∧
      f.typ = 2 ∧ f.bc = false ∧ f.turned = false ∧ s.frameOwn f = false ∧ 1 < f.hops ∧ s.portUp (!west) = false ∧ s.portUp west = true ∧
      f.dst ≠ s.devNum) ∧
    (∃ (s : State) (f : RingFrame) (crc : BitVec 32), (s.Quiet ∧ ringFrameOk f = true ∧ s.ringRuns = true ∧ crc.toNat = ringCrc f ∧ s.injOn PG_RING 1 = false ∧ (f.typ = 2 ∨ f.typ = 3) ∧
      s.frameTarget f = false ∧ s.frameOwn f = false ∧ f.hops ≤ 1)) ∧
    (∃ (s : State) (west : Bool) (f : RingFrame) (crc : BitVec 32), s.Quiet ∧ ringFrameOk f = true ∧ s.ringRuns = true ∧ crc.toNat ≠ ringCrc f ∧ s.ring.unusable = false ∧ f.typ = 2 ∧ f.bc = false ∧
      f.turned = false ∧ s.frameOwn f = false ∧ f.dst ≠ s.devNum ∧ 1 < f.hops ∧ s.portUp (!west) = true) ∧
    (∃ (s : State) (west : Bool) (f : RingFrame) (crc : BitVec 32), s.Quiet ∧ ringFrameOk f = true ∧ s.ringRuns = true ∧ crc.toNat = ringCrc f ∧ s.injOn PG_RING 1 = false ∧ s.ring.unusable = false ∧
      f.typ = 3 ∧ f.bc = false ∧ f.turned = false ∧ s.frameOwn f = false ∧ s.hasNum = true ∧ f.dst = s.devNum ∧ 1 < f.hops ∧
      s.portUp (!west) = true ∧ s.enabled PG_RING = true ∧ s.dev.freset.contains PG_RING = false ∧ s.busy = false ∧ s.ring.txq.length < 8) ∧
    (∃ (s : State) (f : RingFrame) (crc : BitVec 32), s.Quiet ∧ ringFrameOk f = true ∧ s.ringRuns = true ∧ crc.toNat = ringCrc f ∧ s.injOn PG_RING 1 = false ∧ f.typ = 1 ∧
      s.isHead = true ∧ f.turned = false ∧ s.frameOwn f = false) ∧
    (∃ (s : State) (f : RingFrame), s.Quiet ∧ ringFrameOk f = true ∧ s.ringRuns = false) ∧
    (∃ (s : State) (tag : BitVec 8) (r : RingRead), s.ring.reads.find? (·.tag == tag.toNat) = some r ∧ 32 ≤ r.tag ∧ r.tag < 160) ∧
    (∃ (s : State) (tag : BitVec 8) (r : RingRead) (a : Nat), s.ring.reads.find? (·.tag == tag.toNat) = some r ∧ r.tag < 32 ∧ r.result = some a ∧ a % 4 = 0 ∧ 0x1A0000 ≤ a ∧ a < 0x1E0000) ∧
    (∃ (s : State) (tag : BitVec 8), s.ring.reads.find? (·.tag == tag.toNat) = none) ∧
    (∃ (s : State) (b1 : BitVec 8) (b2 : BitVec 8) (b3 : BitVec 8) (chk : BitVec 8), s.Quiet ∧ s.ringRuns = true ∧ chk.toNat = setCrc 1 b1.toNat b2.toNat b3.toNat ∧ s.injOn PG_RING 2 = false ∧
      s.ownSnuff (setOrigin b1.toNat b2.toNat) b3.toNat = false ∧ s.ring.seen.contains ((setOrigin b1.toNat b2.toNat), b3.toNat) = false) ∧
    (∃ (s : State) (b1 : BitVec 8) (b2 : BitVec 8) (b3 : BitVec 8) (chk : BitVec 8), s.Quiet ∧ s.ringRuns = true ∧ chk.toNat = setCrc 1 b1.toNat b2.toNat b3.toNat ∧ s.injOn PG_RING 2 = false ∧
      s.ownSnuff (setOrigin b1.toNat b2.toNat) b3.toNat = false ∧ s.ring.seen.contains ((setOrigin b1.toNat b2.toNat), b3.toNat) = true) ∧
    (∃ (s : State) (b1 : BitVec 8) (b2 : BitVec 8) (b3 : BitVec 8) (chk : BitVec 8), s.Quiet ∧ s.ringRuns = true ∧ chk.toNat = setCrc 1 b1.toNat b2.toNat b3.toNat ∧ s.injOn PG_RING 2 = false ∧
      s.ownSnuff (setOrigin b1.toNat b2.toNat) b3.toNat = true) ∧
    (∃ (s : State) (b1 : BitVec 8) (b2 : BitVec 8) (b3 : BitVec 8) (chk : BitVec 8), s.Quiet ∧ s.ringRuns = true ∧ chk.toNat = setCrc 2 b1.toNat b2.toNat b3.toNat ∧ s.injOn PG_RING 2 = false ∧ s.isHead = false) ∧
    (∃ (s : State) (b1 : BitVec 8) (b2 : BitVec 8) (b3 : BitVec 8) (chk : BitVec 8), s.Quiet ∧ s.ringRuns = true ∧ chk.toNat = setCrc 4 b1.toNat b2.toNat b3.toNat ∧ s.injOn PG_RING 2 = false) ∧
    (∃ (s : State) (o : BitVec 8) (b1 : BitVec 8) (b2 : BitVec 8) (b3 : BitVec 8) (chk : BitVec 8), s.Quiet ∧ s.ringRuns = true ∧ chk.toNat ≠ setCrc o.toNat b1.toNat b2.toNat b3.toNat) ∧
    (∃ (s : State) (west : Bool) (b1 : BitVec 8) (b2 : BitVec 8) (b3 : BitVec 8) (chk : BitVec 8), s.Quiet ∧ s.ringRuns = true ∧ chk.toNat = setCrc 3 b1.toNat b2.toNat b3.toNat ∧ s.injOn PG_RING 2 = false ∧ s.portUp west = true) ∧
    (∃ (s : State) (west : Bool) (b1 : BitVec 8) (b2 : BitVec 8) (b3 : BitVec 8) (chk : BitVec 8), s.Quiet ∧ s.ringRuns = true ∧ chk.toNat = setCrc 5 b1.toNat b2.toNat b3.toNat ∧ s.injOn PG_RING 2 = false ∧
      (s.probe west).out = true ∧ (s.probe west).left = 0) ∧
    (∃ (s : State), s.Quiet ∧ s.ringRuns = false) ∧
    (∃ (s : State), s.ringRuns = true ∧ s.ring.snuffLeft ≠ 0) ∧
    (∃ (s : State), (s.ringRuns = false ∨ s.ring.snuffLeft = 0)) ∧
    (∃ (s : State) (west : Bool), s.Quiet ∧ s.portUp west = true) ∧
    (∃ (s : State) (west : Bool), s.Quiet ∧ s.portUp west = false) ∧
    (∃ (s : State), s.Quiet ∧ s.ringRuns = true ∧ s.injOn PG_RING 3 = false) ∧
    (∃ (s : State), s.Quiet ∧ s.ringRuns = false) ∧
    (∃ (s : State) (west : Bool), s.ringRuns = true ∧ s.portUp west = false ∧ s.portQuiet west = false) ∧
    (∃ (s : State) (west : Bool), (s.ringRuns = false ∨ s.portUp west = true ∨ s.portQuiet west = true)) ∧
    (∃ (s : State) (west : Bool), s.Quiet ∧ s.ringRuns = true ∧ s.portUp west = false) ∧
    (∃ (s : State) (west : Bool), (s.Quiet ∧ (s.ringRuns = false ∨ s.portUp west = true))) ∧
    (∃ (s : State), s.Quiet ∧ s.ringRuns = true ∧ s.portUp false = true ∧ s.portUp true = true) ∧
    (∃ (s : State), (s.Quiet ∧ (s.ringRuns = false ∨ s.portUp false = false ∨ s.portUp true = false))) := by
  refine ⟨?_, ?_, ?_, ?_, ?_, ?_, ?_, ?_, ?_, ?_, ?_, ?_, ?_, ?_, ?_, ?_, ?_, ?_, ?_, ?_, ?_, ?_, ?_, ?_, ?_, ?_, ?_, ?_, ?_, ?_, ?_, ?_⟩
  · exact ⟨((((((((atMode .run).wr (hdrAddr PG_RING hdrCTRL) 1).put RING_NUM_VALID 1).put RING_NUM_DEVNUM 5).put RING_STATE_ENUM 1).put RING_STATE_N 8)).put RING_STATE_EUP 1 |>.put RING_STATE_WUP 1), true, ({ typ := 2, turned := false, bc := false, hops := 10, src := 9, unasg := false, dst := 3, tag := 40, rcount := 0, claimed := false, outcome := 0, addr := 0, payload := [7] } : RingFrame), (BitVec.ofNat 32 (ringCrc ({ typ := 2, turned := false, bc := false, hops := 10, src := 9, unasg := false, dst := 3, tag := 40, rcount := 0, claimed := false, outcome := 0, addr := 0, payload := [7] } : RingFrame))), by unfold State.Quiet State.Calm; decide +kernel⟩
  · exact ⟨((((((((atMode .run).wr (hdrAddr PG_RING hdrCTRL) 1).put RING_NUM_VALID 1).put RING_NUM_DEVNUM 5).put RING_STATE_ENUM 1).put RING_STATE_N 8)).put RING_STATE_EUP 1 |>.put RING_STATE_WUP 1), true, ({ typ := 2, turned := false, bc := false, hops := 10, src := 9, unasg := false, dst := 3, tag := 40, rcount := 0, claimed := false, outcome := 0, addr := 0, payload := [7] } : RingFrame), by unfold State.Quiet State.Calm; decide +kernel⟩
  · exact ⟨(((((((atMode .run).wr (hdrAddr PG_RING hdrCTRL) 1).put RING_NUM_VALID 1).put RING_NUM_DEVNUM 5).put RING_STATE_ENUM 1).put RING_STATE_N 8)).put RING_STATE_WUP 1, true, ({ typ := 2, turned := false, bc := false, hops := 10, src := 9, unasg := false, dst := 3, tag := 40, rcount := 0, claimed := false, outcome := 0, addr := 0, payload := [7] } : RingFrame), (BitVec.ofNat 32 (ringCrc ({ typ := 2, turned := false, bc := false, hops := 10, src := 9, unasg := false, dst := 3, tag := 40, rcount := 0, claimed := false, outcome := 0, addr := 0, payload := [7] } : RingFrame))), by unfold State.Quiet State.Calm; decide +kernel⟩
  · exact ⟨((((((((atMode .run).wr (hdrAddr PG_RING hdrCTRL) 1).put RING_NUM_VALID 1).put RING_NUM_DEVNUM 5).put RING_STATE_ENUM 1).put RING_STATE_N 8)).put RING_STATE_EUP 1 |>.put RING_STATE_WUP 1), ({ typ := 2, turned := false, bc := false, hops := 1, src := 9, unasg := false, dst := 3, tag := 40, rcount := 0, claimed := false, outcome := 0, addr := 0, payload := [7] } : RingFrame), (BitVec.ofNat 32 (ringCrc ({ typ := 2, turned := false, bc := false, hops := 1, src := 9, unasg := false, dst := 3, tag := 40, rcount := 0, claimed := false, outcome := 0, addr := 0, payload := [7] } : RingFrame))), by unfold State.Quiet State.Calm; decide +kernel⟩
  · exact ⟨((((((((atMode .run).wr (hdrAddr PG_RING hdrCTRL) 1).put RING_NUM_VALID 1).put RING_NUM_DEVNUM 5).put RING_STATE_ENUM 1).put RING_STATE_N 8)).put RING_STATE_EUP 1 |>.put RING_STATE_WUP 1), true, ({ typ := 2, turned := false, bc := false, hops := 10, src := 9, unasg := false, dst := 3, tag := 40, rcount := 0, claimed := false, outcome := 0, addr := 0, payload := [7] } : RingFrame), 0, by unfold State.Quiet State.Calm; decide +kernel⟩
  · exact ⟨((((((((atMode .run).wr (hdrAddr PG_RING hdrCTRL) 1).put RING_NUM_VALID 1).put RING_NUM_DEVNUM 5).put RING_STATE_ENUM 1).put RING_STATE_N 8)).put RING_STATE_EUP 1 |>.put RING_STATE_WUP 1), true, ({ typ := 3, turned := false, bc := false, hops := 10, src := 9, unasg := false, dst := 5, tag := 40, rcount := 1, claimed := false, outcome := 0, addr := 0, payload := [] } : RingFrame), (BitVec.ofNat 32 (ringCrc ({ typ := 3, turned := false, bc := false, hops := 10, src := 9, unasg := false, dst := 5, tag := 40, rcount := 1, claimed := false, outcome := 0, addr := 0, payload := [] } : RingFrame))), by unfold State.Quiet State.Calm; decide +kernel⟩
  · exact ⟨((((((((atMode .run).wr (hdrAddr PG_RING hdrCTRL) 1).put RING_STATE_HEAD 1).put RING_NUM_VALID 1).put RING_STATE_ENUM 1).put RING_STATE_N 8)).put RING_STATE_EUP 1 |>.put RING_STATE_WUP 1), ({ typ := 1, turned := false, bc := false, hops := 10, src := 9, unasg := false, dst := 3, tag := 40, rcount := 0, claimed := false, outcome := 0, addr := 0, payload := [0, 8] } : RingFrame), (BitVec.ofNat 32 (ringCrc ({ typ := 1, turned := false, bc := false, hops := 10, src := 9, unasg := false, dst := 3, tag := 40, rcount := 0, claimed := false, outcome := 0, addr := 0, payload := [0, 8] } : RingFrame))), by unfold State.Quiet State.Calm; decide +kernel⟩
  · exact ⟨dark, ({ typ := 2, turned := false, bc := false, hops := 10, src := 9, unasg := false, dst := 3, tag := 40, rcount := 0, claimed := false, outcome := 0, addr := 0, payload := [7] } : RingFrame), by unfold State.Quiet State.Calm; decide +kernel⟩
  · exact ⟨({ ((((((((atMode .run).wr (hdrAddr PG_RING hdrCTRL) 1).put RING_NUM_VALID 1).put RING_NUM_DEVNUM 5).put RING_STATE_ENUM 1).put RING_STATE_N 8)).put RING_STATE_EUP 1 |>.put RING_STATE_WUP 1) with ring := { (((((((((atMode .run).wr (hdrAddr PG_RING hdrCTRL) 1).put RING_NUM_VALID 1).put RING_NUM_DEVNUM 5).put RING_STATE_ENUM 1).put RING_STATE_N 8)).put RING_STATE_EUP 1 |>.put RING_STATE_WUP 1)).ring with reads := [(⟨40, 3, 1, false, none⟩ : RingRead)] } } : State), 40, (⟨40, 3, 1, false, none⟩ : RingRead), by decide +kernel⟩
  · exact ⟨({ ((((((((atMode .run).wr (hdrAddr PG_RING hdrCTRL) 1).put RING_NUM_VALID 1).put RING_NUM_DEVNUM 5).put RING_STATE_ENUM 1).put RING_STATE_N 8)).put RING_STATE_EUP 1 |>.put RING_STATE_WUP 1) with ring := { (((((((((atMode .run).wr (hdrAddr PG_RING hdrCTRL) 1).put RING_NUM_VALID 1).put RING_NUM_DEVNUM 5).put RING_STATE_ENUM 1).put RING_STATE_N 8)).put RING_STATE_EUP 1 |>.put RING_STATE_WUP 1)).ring with reads := [(⟨4, 3, 1, false, some 0x1A0100⟩ : RingRead)] } } : State), 4, (⟨4, 3, 1, false, some 0x1A0100⟩ : RingRead), 0x1A0100, by decide +kernel⟩
  · exact ⟨((((((((atMode .run).wr (hdrAddr PG_RING hdrCTRL) 1).put RING_NUM_VALID 1).put RING_NUM_DEVNUM 5).put RING_STATE_ENUM 1).put RING_STATE_N 8)).put RING_STATE_EUP 1 |>.put RING_STATE_WUP 1), 40, by decide +kernel⟩
  · exact ⟨((((((((atMode .run).wr (hdrAddr PG_RING hdrCTRL) 1).put RING_NUM_VALID 1).put RING_NUM_DEVNUM 5).put RING_STATE_ENUM 1).put RING_STATE_N 8)).put RING_STATE_EUP 1 |>.put RING_STATE_WUP 1), 0, 9, 3, (BitVec.ofNat 8 (setCrc 1 0 9 3)), by unfold State.Quiet State.Calm; decide +kernel⟩
  · exact ⟨({ ((((((((atMode .run).wr (hdrAddr PG_RING hdrCTRL) 1).put RING_NUM_VALID 1).put RING_NUM_DEVNUM 5).put RING_STATE_ENUM 1).put RING_STATE_N 8)).put RING_STATE_EUP 1 |>.put RING_STATE_WUP 1) with ring := { (((((((((atMode .run).wr (hdrAddr PG_RING hdrCTRL) 1).put RING_NUM_VALID 1).put RING_NUM_DEVNUM 5).put RING_STATE_ENUM 1).put RING_STATE_N 8)).put RING_STATE_EUP 1 |>.put RING_STATE_WUP 1)).ring with seen := [(9, 3)] } } : State), 0, 9, 3, (BitVec.ofNat 8 (setCrc 1 0 9 3)), by unfold State.Quiet State.Calm; decide +kernel⟩
  · exact ⟨((((((((atMode .run).wr (hdrAddr PG_RING hdrCTRL) 1).put RING_NUM_VALID 1).put RING_NUM_DEVNUM 5).put RING_STATE_ENUM 1).put RING_STATE_N 8)).put RING_STATE_EUP 1 |>.put RING_STATE_WUP 1), 0, 5, 3, (BitVec.ofNat 8 (setCrc 1 0 5 3)), by unfold State.Quiet State.Calm; decide +kernel⟩
  · exact ⟨(((((((((atMode .run).wr (hdrAddr PG_RING hdrCTRL) 1).put RING_NUM_VALID 1).put RING_NUM_DEVNUM 5).put RING_STATE_ENUM 1).put RING_STATE_N 8)).put RING_STATE_EUP 1 |>.put RING_STATE_WUP 1)).put RING_STATE_HEADLOST 1, 0, 9, 3, (BitVec.ofNat 8 (setCrc 2 0 9 3)), by unfold State.Quiet State.Calm; decide +kernel⟩
  · exact ⟨((((((((atMode .run).wr (hdrAddr PG_RING hdrCTRL) 1).put RING_NUM_VALID 1).put RING_NUM_DEVNUM 5).put RING_STATE_ENUM 1).put RING_STATE_N 8)).put RING_STATE_EUP 1 |>.put RING_STATE_WUP 1), 0, 9, 3, (BitVec.ofNat 8 (setCrc 4 0 9 3)), by unfold State.Quiet State.Calm; decide +kernel⟩
  · exact ⟨((((((((atMode .run).wr (hdrAddr PG_RING hdrCTRL) 1).put RING_NUM_VALID 1).put RING_NUM_DEVNUM 5).put RING_STATE_ENUM 1).put RING_STATE_N 8)).put RING_STATE_EUP 1 |>.put RING_STATE_WUP 1), 1, 0, 9, 3, 0, by unfold State.Quiet State.Calm; decide +kernel⟩
  · exact ⟨((((((((atMode .run).wr (hdrAddr PG_RING hdrCTRL) 1).put RING_NUM_VALID 1).put RING_NUM_DEVNUM 5).put RING_STATE_ENUM 1).put RING_STATE_N 8)).put RING_STATE_EUP 1 |>.put RING_STATE_WUP 1), true, 0, 9, 3, (BitVec.ofNat 8 (setCrc 3 0 9 3)), by unfold State.Quiet State.Calm; decide +kernel⟩
  · exact ⟨({ ((((((((atMode .run).wr (hdrAddr PG_RING hdrCTRL) 1).put RING_NUM_VALID 1).put RING_NUM_DEVNUM 5).put RING_STATE_ENUM 1).put RING_STATE_N 8)).put RING_STATE_EUP 1 |>.put RING_STATE_WUP 1) with ring := { (((((((((atMode .run).wr (hdrAddr PG_RING hdrCTRL) 1).put RING_NUM_VALID 1).put RING_NUM_DEVNUM 5).put RING_STATE_ENUM 1).put RING_STATE_N 8)).put RING_STATE_EUP 1 |>.put RING_STATE_WUP 1)).ring with probeW := { ringIdle.probeW with out := true } } } : State), true, 0, 9, 3, (BitVec.ofNat 8 (setCrc 5 0 9 3)), by unfold State.Quiet State.Calm; decide +kernel⟩
  · exact ⟨dark, by unfold State.Quiet State.Calm; decide +kernel⟩
  · exact ⟨({ ((((((((atMode .run).wr (hdrAddr PG_RING hdrCTRL) 1).put RING_NUM_VALID 1).put RING_NUM_DEVNUM 5).put RING_STATE_ENUM 1).put RING_STATE_N 8)).put RING_STATE_EUP 1 |>.put RING_STATE_WUP 1) with ring := { (((((((((atMode .run).wr (hdrAddr PG_RING hdrCTRL) 1).put RING_NUM_VALID 1).put RING_NUM_DEVNUM 5).put RING_STATE_ENUM 1).put RING_STATE_N 8)).put RING_STATE_EUP 1 |>.put RING_STATE_WUP 1)).ring with snuffLeft := 2 } } : State), by decide +kernel⟩
  · exact ⟨atMode .run, by decide +kernel⟩
  · exact ⟨((((((((atMode .run).wr (hdrAddr PG_RING hdrCTRL) 1).put RING_NUM_VALID 1).put RING_NUM_DEVNUM 5).put RING_STATE_ENUM 1).put RING_STATE_N 8)).put RING_STATE_EUP 1 |>.put RING_STATE_WUP 1), true, by unfold State.Quiet State.Calm; decide +kernel⟩
  · exact ⟨atMode .run, true, by unfold State.Quiet State.Calm; decide +kernel⟩
  · exact ⟨((((((atMode .run).wr (hdrAddr PG_RING hdrCTRL) 1).put RING_NUM_VALID 1).put RING_NUM_DEVNUM 5).put RING_STATE_ENUM 1).put RING_STATE_N 8), by unfold State.Quiet State.Calm; decide +kernel⟩
  · exact ⟨dark, by unfold State.Quiet State.Calm; decide +kernel⟩
  · exact ⟨((((((atMode .run).wr (hdrAddr PG_RING hdrCTRL) 1).put RING_NUM_VALID 1).put RING_NUM_DEVNUM 5).put RING_STATE_ENUM 1).put RING_STATE_N 8), true, by decide +kernel⟩
  · exact ⟨((((((((atMode .run).wr (hdrAddr PG_RING hdrCTRL) 1).put RING_NUM_VALID 1).put RING_NUM_DEVNUM 5).put RING_STATE_ENUM 1).put RING_STATE_N 8)).put RING_STATE_EUP 1 |>.put RING_STATE_WUP 1), true, by decide +kernel⟩
  · exact ⟨((((((atMode .run).wr (hdrAddr PG_RING hdrCTRL) 1).put RING_NUM_VALID 1).put RING_NUM_DEVNUM 5).put RING_STATE_ENUM 1).put RING_STATE_N 8), true, by unfold State.Quiet State.Calm; decide +kernel⟩
  · exact ⟨((((((((atMode .run).wr (hdrAddr PG_RING hdrCTRL) 1).put RING_NUM_VALID 1).put RING_NUM_DEVNUM 5).put RING_STATE_ENUM 1).put RING_STATE_N 8)).put RING_STATE_EUP 1 |>.put RING_STATE_WUP 1), true, by unfold State.Quiet State.Calm; decide +kernel⟩
  · exact ⟨(((((((((atMode .run).wr (hdrAddr PG_RING hdrCTRL) 1).put RING_STATE_HEAD 1).put RING_NUM_VALID 1).put RING_STATE_ENUM 1).put RING_STATE_N 8)).put RING_STATE_EUP 1 |>.put RING_STATE_WUP 1)).put RING_BRKPOS_VALID 1, by unfold State.Quiet State.Calm; decide +kernel⟩
  · exact ⟨((((((atMode .run).wr (hdrAddr PG_RING hdrCTRL) 1).put RING_NUM_VALID 1).put RING_NUM_DEVNUM 5).put RING_STATE_ENUM 1).put RING_STATE_N 8), by unfold State.Quiet State.Calm; decide +kernel⟩

/-- Each clause of RingTimeAndCommands has a state and operands that meet its hypotheses. -/
theorem witness_RingTimeAndCommands :
    (∃ (s : State) (m : Master) (key : BitVec 16), (s.accepts m = true ∧ hostMaster m = true ∧ key = 0x61E5 ∧ s.Calm ∧ s.isHead = true ∧ s.ringRuns = true ∧ s.blockOn PG_RING = true ∧
      s.busy = false ∧ (s.portUp false = false ∧ s.portQuiet false = false ∨ s.portUp true = false ∧ s.portQuiet true = false))) ∧
    (∃ (s : State) (m : Master) (key : BitVec 16), s.accepts m = true ∧ hostMaster m = true ∧ key = 0x61E5 ∧ s.Calm ∧ s.isHead = true ∧ s.ringRuns = true ∧ s.blockOn PG_RING = true ∧
      s.busy = false ∧ s.portUp false = true ∧ s.portUp true = true) ∧
    (∃ (s : State) (m : Master) (key : BitVec 16), s.accepts m = true ∧ hostMaster m = true ∧ s.Quiet ∧ key = 0x61E5 ∧ s.isHead = false) ∧
    (∃ (s : State) (m : Master) (key : BitVec 16), s.accepts m = true ∧ hostMaster m = true ∧ s.Quiet ∧ key ≠ 0x61E5) ∧
    (∃ (s : State), s.Calm ∧ s.enumerating = true ∧ 1 ≤ s.ring.step ∧ s.ring.step ≤ 5 ∧ s.ring.tries < 3) ∧
    (∃ (s : State), s.Quiet) ∧
    (∃ (s : State) (west : Bool), s.ringRuns = true ∧ s.portUp west = true) ∧
    (∃ (s : State) (west : Bool), (s.ringRuns = false ∨ s.portUp west = false)) ∧
    (∃ (s : State) (m : Master) (key : BitVec 16), s.accepts m = true ∧ hostMaster m = true ∧ s.Quiet ∧ key = 0x61E5 ∧ s.ringRuns = true ∧ s.portUp false = true ∧ s.portUp true = true) ∧
    (∃ (s : State) (m : Master) (key : BitVec 16), s.accepts m = true ∧ hostMaster m = true ∧ s.Quiet ∧ key ≠ 0x61E5) ∧
    (∃ (s : State), s.isHead = true ∧ s.ringRuns = true) ∧
    (∃ (s : State), (s.isHead = false ∨ s.ringRuns = false)) ∧
    (∃ (s : State), s.isHead = false ∧ s.ringRuns = true ∧ s.on RING_STATE_HEADLOST = false) ∧
    (∃ (s : State), (s.isHead = true ∨ s.ringRuns = false ∨ s.on RING_STATE_HEADLOST = true)) ∧
    (∃ (s : State) (ws : List Nat), s.ring.summary = some ws ∧ (s.isHead = false ∧ s.mayOriginate = true ∧ s.on RING_CFG_SUMEN = true ∧ s.ring.txq.length < 8)) ∧
    (∃ (s : State), (s.ring.summary = none ∨ s.isHead = true ∨ s.mayOriginate = false ∨ s.on RING_CFG_SUMEN = false)) ∧
    (∃ (s : State), s.isHead = true ∧ s.ringRuns = true ∧ s.on RING_STATE_ENUM = true ∧ s.enumerating = false ∧ s.on RING_CFG_SUMEN = true) ∧
    (∃ (s : State), (s.isHead = false ∨ s.ringRuns = false ∨ s.on RING_CFG_SUMEN = false ∨ s.on RING_STATE_ENUM = false ∨ s.enumerating = true)) ∧
    (∃ (s : State) (m : Master) (key : BitVec 16), s.accepts m = true ∧ hostMaster m = true ∧ s.Quiet ∧ key = 0x61E5 ∧ s.ringRuns = true) ∧
    (∃ (s : State) (m : Master) (key : BitVec 16), s.accepts m = true ∧ hostMaster m = true ∧ s.Quiet ∧ key ≠ 0x61E5) ∧
    (∃ (s : State) (m : Master) (key : BitVec 16), s.accepts m = true ∧ hostMaster m = true ∧ s.Quiet ∧ key = 0x61E5 ∧ s.ringRuns = true ∧ s.portQuiet false = true ∧
      s.portQuiet true = true) ∧
    (∃ (s : State) (m : Master) (key : BitVec 16), s.accepts m = true ∧ hostMaster m = true ∧ s.Quiet ∧ key ≠ 0x61E5) ∧
    (∃ (s : State) (m : Master) (key : BitVec 16), s.accepts m = true ∧ hostMaster m = true ∧ s.Quiet ∧ key = 0x61E5 ∧ s.isHead = true ∧ s.mode = .service) ∧
    (∃ (s : State) (m : Master) (key : BitVec 16), s.accepts m = true ∧ hostMaster m = true ∧ s.Quiet ∧ key ≠ 0x61E5) ∧
    (∃ (s : State) (m : Master) (key : BitVec 16), (s.accepts m = true ∧ hostMaster m = true ∧ s.Quiet ∧ key = 0x61E5 ∧ (s.isHead = false ∨ s.mode ≠ .service))) := by
  refine ⟨?_, ?_, ?_, ?_, ?_, ?_, ?_, ?_, ?_, ?_, ?_, ?_, ?_, ?_, ?_, ?_, ?_, ?_, ?_, ?_, ?_, ?_, ?_, ?_, ?_⟩
  · exact ⟨((((((atMode .run).wr (hdrAddr PG_RING hdrCTRL) 1).put RING_STATE_HEAD 1).put RING_NUM_VALID 1).put RING_STATE_ENUM 1).put RING_STATE_N 8), Master.spi, 0x61E5, by unfold State.Calm; decide +kernel⟩
  · exact ⟨((((((((atMode .run).wr (hdrAddr PG_RING hdrCTRL) 1).put RING_STATE_HEAD 1).put RING_NUM_VALID 1).put RING_STATE_ENUM 1).put RING_STATE_N 8)).put RING_STATE_EUP 1 |>.put RING_STATE_WUP 1), Master.spi, 0x61E5, by unfold State.Calm; decide +kernel⟩
  · exact ⟨((((((atMode .run).wr (hdrAddr PG_RING hdrCTRL) 1).put RING_NUM_VALID 1).put RING_NUM_DEVNUM 5).put RING_STATE_ENUM 1).put RING_STATE_N 8), Master.spi, 0x61E5, by unfold State.Quiet State.Calm; decide +kernel⟩
  · exact ⟨((((((atMode .run).wr (hdrAddr PG_RING hdrCTRL) 1).put RING_STATE_HEAD 1).put RING_NUM_VALID 1).put RING_STATE_ENUM 1).put RING_STATE_N 8), Master.spi, 0x61E6, by unfold State.Quiet State.Calm; decide +kernel⟩
  · exact ⟨(({ ((((((((atMode .run).wr (hdrAddr PG_RING hdrCTRL) 1).put RING_STATE_HEAD 1).put RING_NUM_VALID 1).put RING_STATE_ENUM 1).put RING_STATE_N 8)).put RING_STATE_EUP 1 |>.put RING_STATE_WUP 1) with ring := { (((((((((atMode .run).wr (hdrAddr PG_RING hdrCTRL) 1).put RING_STATE_HEAD 1).put RING_NUM_VALID 1).put RING_STATE_ENUM 1).put RING_STATE_N 8)).put RING_STATE_EUP 1 |>.put RING_STATE_WUP 1)).ring with step := 4, tries := 1, await := 1, closed := true } } : State)).put DEV_LONGOP_RUN 7, by unfold State.Calm; decide +kernel⟩
  · exact ⟨((((((atMode .run).wr (hdrAddr PG_RING hdrCTRL) 1).put RING_NUM_VALID 1).put RING_NUM_DEVNUM 5).put RING_STATE_ENUM 1).put RING_STATE_N 8), by unfold State.Quiet State.Calm; decide +kernel⟩
  · exact ⟨((((((((atMode .run).wr (hdrAddr PG_RING hdrCTRL) 1).put RING_NUM_VALID 1).put RING_NUM_DEVNUM 5).put RING_STATE_ENUM 1).put RING_STATE_N 8)).put RING_STATE_EUP 1 |>.put RING_STATE_WUP 1), true, by decide +kernel⟩
  · exact ⟨((((((atMode .run).wr (hdrAddr PG_RING hdrCTRL) 1).put RING_NUM_VALID 1).put RING_NUM_DEVNUM 5).put RING_STATE_ENUM 1).put RING_STATE_N 8), true, by decide +kernel⟩
  · exact ⟨((((((((atMode .run).wr (hdrAddr PG_RING hdrCTRL) 1).put RING_NUM_VALID 1).put RING_NUM_DEVNUM 5).put RING_STATE_ENUM 1).put RING_STATE_N 8)).put RING_STATE_EUP 1 |>.put RING_STATE_WUP 1), Master.spi, 0x61E5, by unfold State.Quiet State.Calm; decide +kernel⟩
  · exact ⟨((((((((atMode .run).wr (hdrAddr PG_RING hdrCTRL) 1).put RING_NUM_VALID 1).put RING_NUM_DEVNUM 5).put RING_STATE_ENUM 1).put RING_STATE_N 8)).put RING_STATE_EUP 1 |>.put RING_STATE_WUP 1), Master.spi, 0x61E6, by unfold State.Quiet State.Calm; decide +kernel⟩
  · exact ⟨((((((((atMode .run).wr (hdrAddr PG_RING hdrCTRL) 1).put RING_STATE_HEAD 1).put RING_NUM_VALID 1).put RING_STATE_ENUM 1).put RING_STATE_N 8)).put RING_STATE_EUP 1 |>.put RING_STATE_WUP 1), by decide +kernel⟩
  · exact ⟨atMode .run, by decide +kernel⟩
  · exact ⟨((((((((atMode .run).wr (hdrAddr PG_RING hdrCTRL) 1).put RING_NUM_VALID 1).put RING_NUM_DEVNUM 5).put RING_STATE_ENUM 1).put RING_STATE_N 8)).put RING_STATE_EUP 1 |>.put RING_STATE_WUP 1), by decide +kernel⟩
  · exact ⟨(((((((((atMode .run).wr (hdrAddr PG_RING hdrCTRL) 1).put RING_NUM_VALID 1).put RING_NUM_DEVNUM 5).put RING_STATE_ENUM 1).put RING_STATE_N 8)).put RING_STATE_EUP 1 |>.put RING_STATE_WUP 1)).put RING_STATE_HEADLOST 1, by decide +kernel⟩
  · exact ⟨(({ ((((((((atMode .run).wr (hdrAddr PG_RING hdrCTRL) 1).put RING_NUM_VALID 1).put RING_NUM_DEVNUM 5).put RING_STATE_ENUM 1).put RING_STATE_N 8)).put RING_STATE_EUP 1 |>.put RING_STATE_WUP 1) with ring := { (((((((((atMode .run).wr (hdrAddr PG_RING hdrCTRL) 1).put RING_NUM_VALID 1).put RING_NUM_DEVNUM 5).put RING_STATE_ENUM 1).put RING_STATE_N 8)).put RING_STATE_EUP 1 |>.put RING_STATE_WUP 1)).ring with summary := some [1, 2] } } : State)).put RING_CFG_SUMEN 1, ([1, 2] : List Nat), rfl, by decide +kernel⟩
  · exact ⟨atMode .run, by decide +kernel⟩
  · exact ⟨((((((((((atMode .run).wr (hdrAddr PG_RING hdrCTRL) 1).put RING_STATE_HEAD 1).put RING_NUM_VALID 1).put RING_STATE_ENUM 1).put RING_STATE_N 8)).put RING_STATE_EUP 1 |>.put RING_STATE_WUP 1)).put RING_CFG_SUMEN 1).put RING_PTIME_E_E 7, by decide +kernel⟩
  · exact ⟨atMode .run, by decide +kernel⟩
  · exact ⟨((((((((atMode .run).wr (hdrAddr PG_RING hdrCTRL) 1).put RING_NUM_VALID 1).put RING_NUM_DEVNUM 5).put RING_STATE_ENUM 1).put RING_STATE_N 8)).put RING_STATE_EUP 1 |>.put RING_STATE_WUP 1), Master.spi, 0x61E5, by unfold State.Quiet State.Calm; decide +kernel⟩
  · exact ⟨((((((((atMode .run).wr (hdrAddr PG_RING hdrCTRL) 1).put RING_NUM_VALID 1).put RING_NUM_DEVNUM 5).put RING_STATE_ENUM 1).put RING_STATE_N 8)).put RING_STATE_EUP 1 |>.put RING_STATE_WUP 1), Master.spi, 0x61E6, by unfold State.Quiet State.Calm; decide +kernel⟩
  · exact ⟨((((((((atMode .run).wr (hdrAddr PG_RING hdrCTRL) 1).put RING_NUM_VALID 1).put RING_NUM_DEVNUM 5).put RING_STATE_ENUM 1).put RING_STATE_N 8)).put RING_STATE_EQUIET 1).put RING_STATE_WQUIET 1, Master.spi, 0x61E5, by unfold State.Quiet State.Calm; decide +kernel⟩
  · exact ⟨((((((((atMode .run).wr (hdrAddr PG_RING hdrCTRL) 1).put RING_NUM_VALID 1).put RING_NUM_DEVNUM 5).put RING_STATE_ENUM 1).put RING_STATE_N 8)).put RING_STATE_EQUIET 1).put RING_STATE_WQUIET 1, Master.spi, 0x61E6, by unfold State.Quiet State.Calm; decide +kernel⟩
  · exact ⟨((((atMode .service).wr (hdrAddr PG_RING hdrCTRL) 1).put RING_STATE_HEAD 1)), Master.spi, 0x61E5, by unfold State.Quiet State.Calm; decide +kernel⟩
  · exact ⟨((((atMode .service).wr (hdrAddr PG_RING hdrCTRL) 1).put RING_STATE_HEAD 1)), Master.spi, 0x61E6, by unfold State.Quiet State.Calm; decide +kernel⟩
  · exact ⟨((((((((atMode .run).wr (hdrAddr PG_RING hdrCTRL) 1).put RING_STATE_HEAD 1).put RING_NUM_VALID 1).put RING_STATE_ENUM 1).put RING_STATE_N 8)).put RING_STATE_EUP 1 |>.put RING_STATE_WUP 1), Master.spi, 0x61E5, by unfold State.Quiet State.Calm; decide +kernel⟩

/-- Each clause of UnmappedAccessesHaveNoEffect has a state and operands that meet its hypotheses. -/
theorem witness_UnmappedAccessesHaveNoEffect :
    (∃ (s : State) (m : Master) (addr : BitVec 24), (s.accepts m = true ∧ s.Quiet ∧ (region addr.toNat = .none ∨ addr.toNat % 4 ≠ 0))) ∧
    (∃ (s : State) (m : Master) (addr : BitVec 24), (s.accepts m = true ∧ s.Quiet ∧ (region addr.toNat = .none ∨ addr.toNat % 4 ≠ 0))) := by
  refine ⟨?_, ?_⟩
  · exact ⟨atMode .run, Master.spi, 0xF00000, by unfold State.Quiet State.Calm; decide +kernel⟩
  · exact ⟨atMode .run, Master.spi, 0x100001, by unfold State.Quiet State.Calm; decide +kernel⟩

/-- Each clause of BiasComesFromTheFirstSource has a state and operands that meet its hypotheses. -/
theorem witness_BiasComesFromTheFirstSource : ∃ (s : State) (vib : Bool) (startUp : Bool) (vbus : Bool), s.Quiet ∧ ((vib && s.railPg 0) || startUp || vbus) = true := by
  exact ⟨atMode .run, false, true, true, by unfold State.Quiet State.Calm; decide +kernel⟩

/-- Each clause of RepeatedPulsesOnlyCount has a state and operands that meet its hypotheses. -/
theorem witness_RepeatedPulsesOnlyCount : ∃ (s : State) (sources : List (Fin 64)) (p : LinePulse), s.guardRuns = true ∧ s.Quiet ∧ s.pulsesOf (sources.map Fin.val) = [p] ∧ s.faultSet p.src = true := by
  exact ⟨(({ atMode .run with fault := { (atMode .run).fault with lines := [⟨40, false, 0, 0⟩] } } : State).putFault 40 true), ([40] : List (Fin 64)), (⟨40, false, 0, 0⟩ : LinePulse), by unfold State.Quiet State.Calm; decide +kernel⟩

/-- Each clause of CheckInsCountPerTask has a state and operands that meet its hypotheses. -/
theorem witness_CheckInsCountPerTask :
    (∃ (s : State) (m : Master) (mask : BitVec 16) (count : BitVec 16), (s.accepts m = true ∧ hostMaster m = true ∧ s.Quiet ∧ s.wdog.on = true ∧ s.wdog.window = true ∧ count.toNat < s.wdogClose ∧
      ((List.range 16).any fun k => bitOf (s.get WDOG_TASKEN_EN) k && decide (s.taskMax k < nth ((List.range 16).map fun k => if bitOf mask.toNat k && bitOf (s.get WDOG_TASKEN_EN) k then min 15 (nth s.wdog.checkins k + 1) else nth s.wdog.checkins k) k)) = false)) ∧
    (∃ (s : State) (m : Master) (mask : BitVec 16) (count : BitVec 16), (s.accepts m = true ∧ hostMaster m = true ∧ s.Quiet ∧ s.wdog.on = true ∧ s.wdog.window = true ∧ count.toNat < s.wdogClose ∧
      s.on WDOG_CFG_ACTION = true ∧
      ((List.range 16).any fun k => bitOf (s.get WDOG_TASKEN_EN) k && decide (s.taskMax k < nth ((List.range 16).map fun k => if bitOf mask.toNat k && bitOf (s.get WDOG_TASKEN_EN) k then min 15 (nth s.wdog.checkins k + 1) else nth s.wdog.checkins k) k)) = true)) ∧
    (∃ (s : State) (m : Master) (mask : BitVec 16) (count : BitVec 16), (s.accepts m = true ∧ hostMaster m = true ∧ s.wdog.on = true ∧ s.wdog.window = true ∧ count.toNat < s.wdogClose ∧
      s.on WDOG_CFG_ACTION = false ∧
      ((List.range 16).any fun k => bitOf (s.get WDOG_TASKEN_EN) k && decide (s.taskMax k < nth ((List.range 16).map fun k => if bitOf mask.toNat k && bitOf (s.get WDOG_TASKEN_EN) k then min 15 (nth s.wdog.checkins k + 1) else nth s.wdog.checkins k) k)) = true)) ∧
    (∃ (s : State) (m : Master) (count : BitVec 16), s.accepts m = true ∧ hostMaster m = true ∧ s.Quiet ∧ s.wdog.on = true ∧ s.wdog.window = true ∧ s.wdogClose ≤ count.toNat ∧
      s.on WDOG_CFG_ACTION = true) ∧
    (∃ (s : State) (m : Master), (s.accepts m = true ∧ hostMaster m = true ∧ s.Quiet ∧ (s.wdog.on = false ∨ s.wdog.window = false))) := by
  refine ⟨?_, ?_, ?_, ?_, ?_⟩
  · exact ⟨(({ atMode .run with wdog := ⟨true, 0, true, List.replicate 16 0, true⟩ } : State)).put WDOG_TASKEN_EN 0, Master.spi, 3, 0, by unfold State.Quiet State.Calm; decide +kernel⟩
  · exact ⟨((({ atMode .run with wdog := ⟨true, 0, true, List.replicate 16 15, true⟩ } : State)).put WDOG_CFG_ACTION 1).put WDOG_TASKEN_EN 3, Master.spi, 3, 0, by unfold State.Quiet State.Calm; decide +kernel⟩
  · exact ⟨((({ atMode .run with wdog := ⟨true, 0, true, List.replicate 16 15, true⟩ } : State)).put WDOG_CFG_ACTION 0).put WDOG_TASKEN_EN 3, Master.spi, 3, 0, by decide +kernel⟩
  · exact ⟨((({ atMode .run with wdog := ⟨true, 0, true, List.replicate 16 0, true⟩ } : State)).put WDOG_CFG_ACTION 1).put WDOG_TASKEN_EN 3, Master.spi, 0xFFFF, by unfold State.Quiet State.Calm; decide +kernel⟩
  · exact ⟨atMode .run, Master.spi, by unfold State.Quiet State.Calm; decide +kernel⟩

/-- Each clause of RingFunctionReset has a state and operands that meet its hypotheses. -/
theorem witness_RingFunctionReset : ∃ (s : State) (m : Master) (pg : Fin 1024), s.accepts m = true ∧ hostMaster m = true ∧ s.Quiet ∧ pg.val = PG_RING := by
  exact ⟨({ atMode .run with ring := { (atMode .run).ring with reads := [⟨40, 3, 1, false, none⟩], txq := [] } } : State), Master.spi, (Fin.ofNat 1024 PG_RING), by unfold State.Quiet State.Calm; decide +kernel⟩

/-- Each clause of AccessoriesAreReportedOnce has a state and operands that meet its hypotheses. -/
theorem witness_AccessoriesAreReportedOnce :
    (∃ (s : State), (s.Steady ∧ (s.portCode = 1 ∨ s.portCode = 3) ∧ s.port.accessory = false)) ∧
    (∃ (s : State), (s.Steady ∧ ((s.portCode ≠ 1 ∧ s.portCode ≠ 3) ∨ s.port.accessory = true))) := by
  refine ⟨?_, ?_⟩
  · exact ⟨((((((((atMode .run).wr (hdrAddr PG_TYPEC hdrCTRL) 1).wr (hdrAddr PG_PD hdrCTRL) 1).wr (hdrAddr PG_SVC hdrCTRL) 1).put PD_CFG_PD_EN 1).put (PD_SRCPDO_PDO.el 0) 0x1912C).put (PD_SNKPDO_PDO.el 0) 0x1912C).polTake).put TYPEC_STATE_CODE 3, by unfold State.Steady State.Calm; decide +kernel⟩
  · exact ⟨(((((((((atMode .run).wr (hdrAddr PG_TYPEC hdrCTRL) 1).wr (hdrAddr PG_PD hdrCTRL) 1).wr (hdrAddr PG_SVC hdrCTRL) 1).put PD_CFG_PD_EN 1).put (PD_SRCPDO_PDO.el 0) 0x1912C).put (PD_SNKPDO_PDO.el 0) 0x1912C).polTake).put TYPEC_STATE_CODE 5), by unfold State.Steady State.Calm; decide +kernel⟩

end Sys2Proof.Tests
end

/-! SUPPORT. Quiet states when a command begins and under changes of `dev`, the order of the bias sources, and the statement of R20. -/

namespace Sys2Proof.Machine

/-! ### Quiet states -/

/-- What the last command put on the ring and on SOP bears on nothing that follows. -/
theorem State.begin_quiet {s : State} (h : s.Quiet) : s.begin.Quiet := by
  obtain ⟨hcalm, henum, htgt, hcode, hval, harm, hport⟩ := h
  refine ⟨hcalm, henum, htgt, hcode, hval, harm, hport.imp id fun ⟨hcode0, hblank⟩ => ⟨hcode0, ?_⟩⟩
  calc s.begin.port = { s.port with sent := [] } := rfl
    _ = { s.polTake.portBlank with sent := [] } := congrArg (fun p : PortS => { p with sent := [] }) hblank
    _ = s.begin.polTake.portBlank := rfl

/-- Of `dev` only the stage, the waiting enumeration and the PLL bear on whether a state is quiet. -/
theorem State.quiet_of_dev {s : State} (h : s.Quiet) {d : DevS} (hstage : d.stage = s.dev.stage)
    (hdue : d.enumDue = s.dev.enumDue) (hpll : d.pll = s.dev.pll) : ({ s with dev := d } : State).Quiet := by
  obtain ⟨⟨hstage0, hdue0, hflush⟩, henum, htgt, hcode, hval, harm, hport⟩ := h
  have hruns : ({ s with dev := d } : State).portRuns = s.portRuns := by
    unfold State.portRuns State.ringRuns
    rw [hpll]
  exact ⟨⟨hstage.trans hstage0, hdue.trans hdue0, hflush⟩, henum, htgt, hcode, hval, harm, hport.imp hruns.trans id⟩

theorem PortOnly.dev {as : List Nat} {s t : State} (h : PortOnly as s t) : t.dev = s.dev := by
  obtain ⟨-, r, p, rfl⟩ := h
  rfl

/-! ### The bias sources (R20) -/

theorem State.biasMask_quiet {s : State} (h : s.Quiet) (mask : Nat) : (s.biasMask mask).Quiet :=
  State.quiet_of_dev h rfl rfl rfl

/-- No source counts where none is present; VIB counts only with the intermediate bus converter's power-good. -/
theorem State.biasCounts_biasBits_eq_zero (s : State) (vib startUp vbus : Bool) :
    s.biasCounts (biasBits vib startUp vbus) = 0 ↔ ((vib && s.railPg 0) || startUp || vbus) = false := by
  unfold State.biasCounts
  generalize s.railPg 0 = good
  revert vib startUp vbus good
  decide

/-- The order in which the sources that count are taken. -/
theorem State.biasFirst_biasCounts (s : State) (vib startUp vbus : Bool) :
    biasFirst (s.biasCounts (biasBits vib startUp vbus)) =
      if vib && s.railPg 0 then .vib else if startUp then .startUp else if vbus then .vbus else .none := by
  unfold State.biasCounts
  generalize s.railPg 0 = good
  revert vib startUp vbus good
  decide

/-- VBUS_BIAS is what remains where a source is left that counts and neither VIB nor the start-up regulator is one. -/
theorem State.biasMask_bias {s : State} {vib startUp vbus : Bool} (h : ((vib && s.railPg 0) || startUp || vbus) = true) :
    (s.biasMask (biasBits vib startUp vbus)).dev.bias = if vib && s.railPg 0 then .vib else if startUp then .startUp else .vbus := by
  refine (s.biasFirst_biasCounts vib startUp vbus).trans ?_
  by_cases hvib : (vib && s.railPg 0) = true
  · rw [if_pos hvib, if_pos hvib]
  · by_cases hstart : startUp = true
    · rw [if_neg hvib, if_neg hvib, if_pos hstart, if_pos hstart]
    · have hvbus : vbus = true := by simpa [hvib, hstart] using h
      rw [if_neg hvib, if_neg hvib, if_neg hstart, if_neg hstart, if_pos hvbus]

/-- With a source left that counts, a change of the sources present sets the sources and the bias. -/
theorem State.biasChange_eq_biasMask {s : State} {vib startUp vbus : Bool} (h : ((vib && s.railPg 0) || startUp || vbus) = true) :
    s.biasChange (biasBits vib startUp vbus) = s.biasMask (biasBits vib startUp vbus) :=
  if_neg fun hnone => Bool.false_ne_true (((s.biasCounts_biasBits_eq_zero vib startUp vbus).mp hnone).symm.trans h)

/-- Settles O55: only the sources and the bias change, and the quiet state that results settles in the port alone. -/
theorem biasComesFromTheFirstSource : Obligations.BiasComesFromTheFirstSource := by
  unfold Obligations.BiasComesFromTheFirstSource
  intro s vib startUp vbus ⟨hquiet, hleft⟩
  have hbegin : ((vib && s.begin.railPg 0) || startUp || vbus) = true := hleft
  have heffect := State.biasChange_eq_biasMask hbegin
  obtain ⟨t, hexec, honly⟩ := effect_quiet (f := fun u => u.biasChange (biasBits vib startUp vbus)) (s := s)
    (heffect ▸ State.biasMask_quiet (State.begin_quiet hquiet) _)
  rw [heffect] at honly
  refine ⟨t, hexec, ?_, ?_, honly.frame⟩
  · rw [honly.dev]
    exact State.biasMask_bias hbegin
  · rw [honly.dev]
    rfl

end Sys2Proof.Machine

/-! SUPPORT. What an occurrence on a status bit changes, quiet states under such changes, what an unmapped access does, and the statement of R30. -/

namespace Sys2Proof.Machine

/-! ### Occurrences on status bits (R36, R409) -/

/-- The state differs in the registers `as` and in the event queue alone. -/
def EvqOnly (as : List Nat) (s t : State) : Prop := (∀ a, a ∉ as → t.rd a = s.rd a) ∧ ∃ r e, t = { s with regs := r, evq := e }

theorem EvqOnly.refl (as : List Nat) (s : State) : EvqOnly as s s := ⟨fun _ _ => rfl, s.regs, s.evq, rfl⟩

theorem EvqOnly.wr {as : List Nat} {s t : State} (h : EvqOnly as s t) {a : Nat} (v : Word) (ha : a ∈ as) : EvqOnly as s (t.wr a v) := by
  obtain ⟨hrd, r, e, rfl⟩ := h
  refine ⟨fun b hb => ?_, _, e, rfl⟩
  have hne : a ≠ b := fun hab => hb (hab ▸ ha)
  rw [State.rd_wr_other _ _ hne]
  exact hrd b hb

theorem EvqOnly.evq {as : List Nat} {s t : State} (h : EvqOnly as s t) (x : EvqS) : EvqOnly as s { t with evq := x } := by
  obtain ⟨hrd, r, e, rfl⟩ := h
  exact ⟨hrd, r, x, rfl⟩

/-- A firing goes to the event queue or is held; only HOLD shows what is held and what is lost. -/
theorem EvqOnly.fire {as : List Nat} {s t : State} (h : EvqOnly as s t) (hold : EVQ_HOLD_LOST.addr ∈ as) (f : Firing) :
    EvqOnly as s (t.fire f) := by
  have hheld : EvqOnly as s (if t.evq.held.length < 16 then
      { (t.put EVQ_HOLD_LEVEL (t.evq.held.length + 1)) with evq.held := t.evq.held ++ [f] }
      else t.put EVQ_HOLD_LOST (satInc 255 (t.get EVQ_HOLD_LOST))) := by
    split
    · exact (h.wr (a := EVQ_HOLD_LEVEL.addr) _ hold).evq _
    · exact h.wr _ hold
  unfold State.fire
  split
  · exact h
  · exact hheld
  · exact hheld
  · exact h.evq _

theorem EvqOnly.fireStatus {as : List Nat} {s t : State} (h : EvqOnly as s t) (hold : EVQ_HOLD_LOST.addr ∈ as) (pg k : Nat) :
    EvqOnly as s (t.fireStatus pg k) := by
  unfold State.fireStatus
  split
  · exact h
  · split
    · exact h.fire hold _
    · exact h

/-- An occurrence on a status bit writes the page's STATUS, and HOLD where its event is held. -/
theorem State.raise_evqOnly (s : State) (pg k : Nat) :
    EvqOnly [hdrAddr pg hdrSTATUS, EVQ_HOLD_LOST.addr] s (s.raise pg k) :=
  ((EvqOnly.refl _ s).wr _ (by simp)).fireStatus (by simp) pg k

theorem bitOf_toNat (x : Word) (k : Nat) : bitOf x.toNat k = x.getLsbD k := by
  rw [← BitVec.testBit_toNat, Nat.testBit_eq_decide_div_mod_eq]
  rfl

/-- HOLD is no page's STATUS. -/
theorem hdrSTATUS_ne_hold (pg : Nat) : hdrAddr pg hdrSTATUS ≠ EVQ_HOLD_LOST.addr := by
  simp only [hdrAddr, hdrSTATUS, Fld.addr]
  omega

/-- An occurrence leaves its status bit set. -/
theorem State.statusOf_raise (s : State) (pg : Nat) {k : Nat} (hk : k < 32) : (s.raise pg k).statusOf pg k = true := by
  have hfire := (EvqOnly.refl [EVQ_HOLD_LOST.addr] (s.wr (hdrAddr pg hdrSTATUS) (s.rd (hdrAddr pg hdrSTATUS) ||| (1#32 <<< k)))).fireStatus
    (by simp) pg k
  unfold State.statusOf State.hdr State.raise
  rw [hfire.1 _ (by simp [hdrSTATUS_ne_hold]), State.rd_wr_same, bitOf_toNat]
  simp [hk]

/-! ### Quiet states and the event queue -/

/-- The registers on which it bears whether a state is quiet: DEV.LONGOP, TYPEC.STATE, PD.CONTRACT and the policy of the service port. -/
def quietRegs : List Nat :=
  [DEV_LONGOP_RUN.addr, TYPEC_STATE_CODE.addr, PD_CONTRACT_VALID.addr, hdrAddr PG_TYPEC 0x40, hdrAddr PG_TYPEC 0x44, hdrAddr PG_PD 0x40]

/-- Neither the event queue nor a register that is none of `quietRegs` bears on whether a state is quiet. -/
theorem EvqOnly.quiet {as : List Nat} {s t : State} (h : EvqOnly as s t) (has : ∀ a ∈ quietRegs, a ∉ as) (hq : s.Quiet) : t.Quiet := by
  obtain ⟨hrd, r, e, rfl⟩ := h
  obtain ⟨hcalm, henum, htgt, hcode, hval, harm, hport⟩ := hq
  have hget (f : Fld) (hf : f.addr ∈ quietRegs) : State.get { s with regs := r, evq := e } f = s.get f := by
    unfold State.get
    rw [hrd _ (has _ hf)]
  have hcode' : State.portCode { s with regs := r, evq := e } = s.portCode := hget _ (by decide)
  have hpol : State.polTake { s with regs := r, evq := e } = { s.polTake with regs := r, evq := e } := by
    unfold State.polTake State.hdr
    rw [hrd _ (has (hdrAddr PG_TYPEC 0x40) (by decide)), hrd _ (has (hdrAddr PG_TYPEC 0x44) (by decide)),
      hrd _ (has (hdrAddr PG_PD 0x40) (by decide))]
  refine ⟨hcalm, ?_, htgt, Nat.le_trans (Nat.le_of_eq hcode') hcode, ?_, ?_, hport.imp id fun ⟨hcode0, hblank⟩ => ⟨hcode'.trans hcode0, ?_⟩⟩
  · unfold State.enumerating at henum ⊢
    rw [hget _ (by decide)]
    exact henum
  · unfold State.on at hval ⊢
    rw [hget _ (by decide)]
    exact hval
  · unfold State.on at harm ⊢
    rw [hget _ (by decide)]
    exact harm
  · rw [hpol]
    exact hblank

/-! ### Unmapped accesses (R30) -/

/-- An address of no region, or one whose low bits are not 0. -/
def Unmapped (a : Nat) : Prop := region a = .none ∨ a % 4 ≠ 0

theorem State.hostWrite_unmapped {s : State} {m : Master} {a : Nat} (hm : s.accepts m = true) (ha : Unmapped a) (v : Word) :
    s.hostWrite m a v = s.unmapped := by
  unfold State.hostWrite State.writeWord
  rw [if_pos hm]
  by_cases hlow : a % 4 ≠ 0
  · rw [if_pos hlow]
  · rw [if_neg hlow, ha.resolve_right hlow]

theorem State.readWord_unmapped (s : State) (m : Master) {a : Nat} (ha : Unmapped a) : s.readWord m a = (0, s.unmapped) := by
  unfold State.readWord
  by_cases hlow : a % 4 ≠ 0
  · rw [if_pos hlow]
  · rw [if_neg hlow, ha.resolve_right hlow]

/-- A read of one word is that word's read, wherever it starts. -/
theorem State.readWords_one (s : State) (m : Master) (a : Nat) : s.readWords m a 1 = ([(s.readWord m a).1], (s.readWord m a).2) := by
  unfold State.readWords
  split
  · rfl
  · exact ite_self _

theorem State.hostRead_unmapped {s : State} {m : Master} {a : Nat} (hm : s.accepts m = true) (ha : Unmapped a) :
    s.hostRead m a 1 = s.unmapped.reply [0] := by
  unfold State.hostRead
  rw [if_pos hm, State.readWords_one, State.readWord_unmapped s m ha]

/-- What a command does whose effect is that of an unmapped access, answered with the words `ws`. -/
theorem effect_unmapped {f : State → State} {s : State} {ws : List Nat} (hq : s.Quiet) (hf : f s.begin = s.begin.unmapped.reply ws) :
    ∃ t, effect f s = .next t ∧ t.answer = ws ∧ t.statusOf PG_DEV DEV_ST_UNMAPPED = true ∧ t.dev = s.dev ∧ t.op = s.op ∧
      FrameA [hdrAddr PG_DEV hdrSTATUS, EVQ_HOLD_LOST.addr] s t := by
  have hraise : EvqOnly [hdrAddr PG_DEV hdrSTATUS, EVQ_HOLD_LOST.addr] s.begin s.begin.unmapped := State.raise_evqOnly _ _ _
  have hset : s.begin.unmapped.statusOf PG_DEV DEV_ST_UNMAPPED = true := State.statusOf_raise _ _ (by decide)
  have hquiet : (s.begin.unmapped.reply ws).Quiet := hraise.quiet (by decide) (State.begin_quiet hq)
  obtain ⟨t, hexec, hsettle⟩ := effect_quiet (f := f) (s := s) (hf ▸ hquiet)
  rw [hf] at hsettle
  generalize s.begin.unmapped = u at hraise hset hsettle
  obtain ⟨hrd, r, e, rfl⟩ := hraise
  obtain ⟨hshow, r', p, rfl⟩ := hsettle
  refine ⟨_, hexec, rfl, ?_, rfl, rfl, fun a ha hs => (hshow a hs).trans (hrd a ha), fun _ => rfl, rfl⟩
  unfold State.statusOf State.hdr at hset ⊢
  rw [hshow _ (by decide)]
  exact hset

/-- Settles O54: the access raises DEV.STATUS.UNMAPPED, a read answers 0 besides, and the quiet state that results settles in the port alone. -/
theorem unmappedAccessesHaveNoEffect : Obligations.UnmappedAccessesHaveNoEffect := by
  unfold Obligations.UnmappedAccessesHaveNoEffect
  refine ⟨fun s m addr v ⟨hm, hquiet, haddr⟩ => ?write, fun s m addr ⟨hm, hquiet, haddr⟩ => ?read⟩
  case write =>
    obtain ⟨t, hexec, -, hrest⟩ := effect_unmapped (f := fun u => u.hostAccessWord m addr.toNat (some v)) hquiet
      (State.hostWrite_unmapped (s := s.begin) hm haddr v)
    exact ⟨t, hexec, hrest⟩
  case read =>
    exact effect_unmapped (f := fun u => u.hostAccessWord m addr.toNat none) hquiet
      (State.hostRead_unmapped (s := s.begin) hm haddr)

end Sys2Proof.Machine

/-! SUPPORT. What a pulse on a source whose status bit is set does in the fault collector, and the statement of R368. -/

namespace Sys2Proof.Machine

/-! ### Occurrences and firings (R36, R409) -/

theorem EvqOnly.get {as : List Nat} {s t : State} (h : EvqOnly as s t) (f : Fld) (hf : f.addr ∉ as) : t.get f = s.get f := by
  unfold State.get
  rw [h.1 _ hf]

/-- An occurrence on a status bit among the registers that may differ. -/
theorem EvqOnly.raise {as : List Nat} {s t : State} (h : EvqOnly as s t) {pg : Nat} (status : hdrAddr pg hdrSTATUS ∈ as)
    (hold : EVQ_HOLD_LOST.addr ∈ as) (k : Nat) : EvqOnly as s (t.raise pg k) :=
  (h.wr _ status).fireStatus hold pg k

/-- A firing is queued at most once: where it is held, lost or cannot occur, the queue stays. -/
theorem State.fire_firings_length_le (s : State) (f : Firing) : (s.fire f).evq.firings.length ≤ s.evq.firings.length + 1 := by
  unfold State.fire
  split
  · exact Nat.le_succ _
  · split <;> exact Nat.le_succ _
  · split <;> exact Nat.le_succ _
  · exact Nat.le_of_eq List.length_append

theorem State.fireStatus_firings_length_le (s : State) (pg k : Nat) :
    (s.fireStatus pg k).evq.firings.length ≤ s.evq.firings.length + 1 := by
  unfold State.fireStatus
  split
  · exact Nat.le_succ _
  · split
    · exact s.fire_firings_length_le _
    · exact Nat.le_succ _

/-- An occurrence on a status bit queues one firing at most. -/
theorem State.raise_firings_length_le (s : State) (pg k : Nat) :
    (s.raise pg k).evq.firings.length ≤ s.evq.firings.length + 1 :=
  (s.wr _ _).fireStatus_firings_length_le pg k

/-! ### A pulse on a set bit (R368) -/

/-- A count that saturates stays within its field. -/
theorem satInc_le {m v : Nat} : satInc m v ≤ m := by
  unfold satInc
  split <;> omega

/-- The pulses on their way and the other records of the collector do not bear on whether a state is quiet. -/
theorem State.quiet_of_fault {s : State} (h : s.Quiet) (x : FaultS) : ({ s with fault := x } : State).Quiet := h

/-- The one pulse that waits from the sources leaves the lines and reaches the collector. -/
theorem State.linePulses_single {s : State} {sources : List Nat} {p : LinePulse} (hrun : s.guardRuns = true)
    (hp : s.pulsesOf sources = [p]) : s.linePulses sources = (s.dropPulses [p]).latch p := by
  unfold State.linePulses
  rw [if_pos hrun, hp]
  rfl

section
variable {s : State} {p : LinePulse}

/-- A pulse on a set bit is counted and reported, and nothing else. -/
theorem State.latch_of_faultSet (hset : s.faultSet p.src = true) :
    s.latch p = (s.put FAULT_COUNTS_REPEAT (satInc 4095 (s.get FAULT_COUNTS_REPEAT))).raise PG_FAULT FAULT_ST_REPEAT :=
  if_pos hset

/-- A pulse on a set bit writes COUNTS, the page's STATUS and, where its event is held, HOLD. -/
theorem State.latch_evqOnly_of_faultSet (hset : s.faultSet p.src = true) :
    EvqOnly [FAULT_COUNTS_REPEAT.addr, hdrAddr PG_FAULT hdrSTATUS, EVQ_HOLD_LOST.addr] s (s.latch p) := by
  rw [State.latch_of_faultSet hset]
  exact ((EvqOnly.refl _ s).wr _ (by simp)).raise (by simp) (by simp) _

/-- A pulse on a set bit counts in COUNTS.REPEAT. -/
theorem State.latch_get_repeat_of_faultSet (hset : s.faultSet p.src = true) :
    (s.latch p).get FAULT_COUNTS_REPEAT = satInc 4095 (s.get FAULT_COUNTS_REPEAT) := by
  have hfits : satInc 4095 (s.get FAULT_COUNTS_REPEAT) < 2 ^ FAULT_COUNTS_REPEAT.w := Nat.lt_succ_of_le satInc_le
  have hraise : FAULT_COUNTS_REPEAT.addr ∉ [hdrAddr PG_FAULT hdrSTATUS, EVQ_HOLD_LOST.addr] := by decide
  calc (s.latch p).get FAULT_COUNTS_REPEAT
    _ = ((s.put FAULT_COUNTS_REPEAT (satInc 4095 (s.get FAULT_COUNTS_REPEAT))).raise PG_FAULT FAULT_ST_REPEAT).get FAULT_COUNTS_REPEAT := by
      rw [State.latch_of_faultSet hset]
    _ = (s.put FAULT_COUNTS_REPEAT (satInc 4095 (s.get FAULT_COUNTS_REPEAT))).get FAULT_COUNTS_REPEAT :=
      (State.raise_evqOnly _ _ _).get _ hraise
    _ = satInc 4095 (s.get FAULT_COUNTS_REPEAT) := State.get_put_same _ _ hfits (by decide)

/-- A pulse on a set bit queues its report at most. -/
theorem State.latch_firings_length_le_of_faultSet (hset : s.faultSet p.src = true) :
    (s.latch p).evq.firings.length ≤ s.evq.firings.length + 1 := by
  rw [State.latch_of_faultSet hset]
  exact (s.put _ _).raise_firings_length_le _ _

end

/-- Settles O56: the collector counts and reports the pulse, and the quiet state that results settles in the port alone. -/
theorem repeatedPulsesOnlyCount : Obligations.RepeatedPulsesOnlyCount := by
  unfold Obligations.RepeatedPulsesOnlyCount
  intro s sources p ⟨hrun, hquiet, hpulse, hset⟩
  have htake : s.begin.linePulses (sources.map Fin.val) = (s.begin.dropPulses [p]).latch p := State.linePulses_single hrun hpulse
  have hset' : (s.begin.dropPulses [p]).faultSet p.src = true := hset
  have hlatch := State.latch_evqOnly_of_faultSet hset'
  have hcount := State.latch_get_repeat_of_faultSet hset'
  have hfire := State.latch_firings_length_le_of_faultSet hset'
  have hafter : ((s.begin.dropPulses [p]).latch p).Quiet := hlatch.quiet (by decide) (State.quiet_of_fault (State.begin_quiet hquiet) _)
  obtain ⟨t, hexec, hsettle⟩ := effect_quiet (f := fun u => u.linePulses (sources.map Fin.val)) (s := s) (htake ▸ hafter)
  rw [htake] at hsettle
  have hcount' := (hsettle.get FAULT_COUNTS_REPEAT (by decide)).trans hcount
  generalize (s.begin.dropPulses [p]).latch p = u at hlatch hfire hsettle
  obtain ⟨hrd, r, e, rfl⟩ := hlatch
  obtain ⟨hshow, r', port, rfl⟩ := hsettle
  exact ⟨_, hexec, hcount', rfl, hfire, fun a ha hs => (hshow a hs).trans (hrd a ha), fun _ => rfl, rfl⟩

end Sys2Proof.Machine

/-! SUPPORT. Which conditions keep a state quiet, the writer's note, what a device reset leaves, what a bite of the watchdog does, the counts after
a check-in, and the statement of R390. -/

namespace Sys2Proof.Machine

/-! ### What bears on quiet states -/

/-- Whether a state is quiet rests on the port, on its clock and on the registers `quietRegs`, besides what `Calm` names. -/
theorem State.quiet_of_agree {s t : State} (hq : s.Quiet) (hcalm : t.Calm) (hruns : s.portRuns = true → t.portRuns = true)
    (hport : t.port = s.port) (hrd : ∀ a ∈ quietRegs, t.rd a = s.rd a) : t.Quiet := by
  obtain ⟨-, henum, htgt, hcode, hval, harm, hrun⟩ := hq
  have hget (f : Fld) (hf : f.addr ∈ quietRegs) : t.get f = s.get f := by
    unfold State.get
    rw [hrd _ hf]
  have hon (f : Fld) (hf : f.addr ∈ quietRegs) : t.on f = s.on f := by
    unfold State.on
    rw [hget f hf]
  have hcode' : t.portCode = s.portCode := hget _ (by decide)
  have hpol : t.polTake.portBlank = s.polTake.portBlank := by
    unfold State.polTake State.portBlank State.hdr
    rw [hrd (hdrAddr PG_TYPEC 0x40) (by decide), hrd (hdrAddr PG_TYPEC 0x44) (by decide), hrd (hdrAddr PG_PD 0x40) (by decide)]
  refine ⟨hcalm, ?_, hport ▸ htgt, hcode' ▸ hcode, (hon _ (by decide)).trans hval, (hon _ (by decide)).trans harm,
    hrun.imp hruns fun ⟨hcode0, hblank⟩ => ⟨hcode'.trans hcode0, ?_⟩⟩
  · unfold State.enumerating at henum ⊢
    rw [hget _ (by decide)]
    exact henum
  · rw [hport, hpol]
    exact hblank

theorem PortOnly.mode {as : List Nat} {s t : State} (h : PortOnly as s t) : t.mode = s.mode := by
  obtain ⟨-, r, p, rfl⟩ := h
  rfl

/-! ### The writer's note (R43) -/

/-- The registers in which an accepted write to the WDOG page leaves its note. -/
def wdogNoteRegs : List Nat :=
  [DEV_SEQCNT_CNT_LO.addr, (DEV_SEQCNT_CNT_LO.el 1).addr, (DEV_SEQCNT_CNT_LO.el 2).addr, hdrAddr PG_WDOG hdrLAST_WRITER]

theorem seqCounter_addr_mem (m : Master) : (seqCounter m).addr ∈ wdogNoteRegs := by
  cases m with
  | lamplighter => decide
  | spi => decide
  | i2c => decide
  | ring d =>
    have hcounter : seqCounter (.ring d) = DEV_SEQCNT_CNT_HI.el 1 := by simp [seqCounter, masterId]
    rw [hcounter]
    decide
  | debug => decide
  | preload => decide

/-- The state in which the effect of a heard write to the WDOG page begins. -/
def State.noted (s : State) (m : Master) : State := s.begin.noteWrite m PG_WDOG

theorem State.noted_evqOnly (s : State) (m : Master) : EvqOnly wdogNoteRegs s.begin (s.noted m) :=
  ((EvqOnly.refl _ _).wr _ (seqCounter_addr_mem m)).wr _ (by decide)

/-- The note stands in no register of the watchdog's own. -/
theorem State.noted_get (s : State) (m : Master) {f : Fld} (hf : hdrAddr PG_WDOG 0x40 ≤ f.addr) : (s.noted m).get f = s.get f := by
  refine (s.noted_evqOnly m).get f fun hmem => ?_
  have hbelow : ∀ a ∈ wdogNoteRegs, a < hdrAddr PG_WDOG 0x40 := by decide
  exact Nat.not_le_of_lt (hbelow _ hmem) hf

theorem State.noted_quiet {s : State} (m : Master) (hq : s.Quiet) : (s.noted m).Quiet :=
  (s.noted_evqOnly m).quiet (by decide) (State.begin_quiet hq)

theorem State.noted_wdog (s : State) (m : Master) : (s.noted m).wdog = s.wdog := rfl

/-- The write of a host that is heard is noted, then has its effect. -/
theorem State.hostAct_of_hostMaster {s : State} {m : Master} (hm : s.accepts m = true) (hhost : hostMaster m = true) (pg : Nat)
    (f : State → State) : s.hostAct m pg f = f (s.noteWrite m pg) := by
  unfold State.hostAct
  rw [hm]
  cases m with
  | lamplighter => exact absurd hhost Bool.false_ne_true
  | preload => exact absurd hhost Bool.false_ne_true
  | spi => rfl
  | i2c => rfl
  | ring d => rfl
  | debug => rfl

/-- A host is not heard in CELLAR (R45). -/
theorem State.mode_ne_cellar_of_accepts {s : State} {m : Master} (hm : s.accepts m = true) (hhost : hostMaster m = true) :
    s.mode ≠ .cellar := by
  intro hcellar
  have hruns : s.ringRuns = false := by
    unfold State.ringRuns
    rw [hcellar]
  cases m with
  | lamplighter => exact Bool.false_ne_true hhost
  | preload => exact Bool.false_ne_true hhost
  | spi => simp [State.accepts, State.portRuns, hruns] at hm
  | i2c => simp [State.accepts, State.portRuns, hruns] at hm
  | ring d => simp [State.accepts, hruns] at hm
  | debug => simp [State.accepts, State.portRuns, hruns] at hm

/-! ### Device reset (R488) -/

/-- A table keeps no entry of a key that a filter on keys refuses. -/
theorem Sparse.get_filter_key {α : Type} (d : Nat → α) (p : Nat → Bool) {k : Nat} (hk : p k = false) (l : List (Nat × α)) :
    Sparse.get d (l.filter fun e => p e.1) k = d k := by
  have hlook : Sparse.look (l.filter fun e => p e.1) k = none := by
    induction l with
    | nil => rfl
    | cons e l ih =>
      by_cases he : p e.1 = true
      · have hne : e.1 ≠ k := fun h => Bool.false_ne_true (hk.symm.trans (h ▸ he))
        rw [List.filter_cons_of_pos (p := fun e : Nat × α => p e.1) he, Sparse.look_cons, if_neg hne, ih]
      · rw [List.filter_cons_of_neg (p := fun e : Nat × α => p e.1) he, ih]
  unfold Sparse.get
  rw [hlook]
  rfl

/-- A register that is not of domain POR reads its reset value in device reset; those of the cellar have their own rules. -/
theorem State.inReset_rd (s : State) {a : Nat} (hdom : regDom a ≠ .por) (hst : a ≠ hdrAddr PG_CELLAR hdrSTATUS)
    (hraw : a ≠ hdrAddr PG_CELLAR hdrRAW) : s.inReset.rd a = regReset a := by
  unfold State.inReset
  rw [State.rd_wr_other _ _ hraw.symm, State.rd_wr_other _ _ hst.symm]
  exact Sparse.get_filter_key regReset (fun k => regDom k == .por) (by simpa using hdom) s.regs

theorem regDom_quietRegs : ∀ a ∈ quietRegs, regDom a ≠ .por := by decide

theorem State.reset_quiet : State.reset.Quiet := by
  unfold State.Quiet State.Calm
  decide

/-- A change of mode writes DEV.MODE and DEV.STATUS, and HOLD where its event is held. -/
theorem State.setMode_evqOnly (s : State) (m : Mode) (cause : Nat) :
    EvqOnly [DEV_MODE_CAUSE.addr, hdrAddr PG_DEV hdrSTATUS, EVQ_HOLD_LOST.addr] { s with mode := m, lamp.switchPending := true }
      (s.setMode m cause) :=
  (((EvqOnly.refl _ _).wr _ (by decide)).wr _ (by decide)).raise (by decide) (by decide) _

theorem State.setMode_get_cause (s : State) (m : Mode) {cause : Nat} (hcause : cause < 16) :
    (s.setMode m cause).get DEV_MODE_CAUSE = cause :=
  ((State.raise_evqOnly _ PG_DEV DEV_ST_MODECHG).get DEV_MODE_CAUSE (by decide)).trans (State.get_put_same _ _ hcause (by decide))

/-- The registers that the rise after a device reset writes. -/
def riseRegs : List Nat := [DEV_MODE_CAUSE.addr, hdrAddr PG_DEV hdrSTATUS, EVQ_HOLD_LOST.addr, DEV_BOOT_RISECAUSE.addr]

theorem EvqOnly.mono {as bs : List Nat} {s t : State} (h : EvqOnly as s t) (hsub : ∀ a ∈ as, a ∈ bs) : EvqOnly bs s t :=
  ⟨fun a ha => h.1 a fun hmem => ha (hsub a hmem), h.2⟩

theorem State.riseReset_evqOnly (s : State) (cause riseCause : Nat) :
    EvqOnly riseRegs { s.inReset with mode := .rise, lamp.switchPending := true } (s.riseReset cause riseCause) :=
  ((s.inReset.setMode_evqOnly .rise cause).mono (by decide)).wr _ (by decide)

/-- Nothing follows at once from the state in which a rise begins. -/
theorem State.riseReset_quiet (s : State) (cause riseCause : Nat) : (s.riseReset cause riseCause).Quiet := by
  have hrise := s.riseReset_evqOnly cause riseCause
  have hstart : ({ s.inReset with mode := .rise, lamp.switchPending := true } : State).Quiet := by
    refine State.quiet_of_agree State.reset_quiet ⟨rfl, rfl, rfl⟩ (fun hruns => absurd hruns Bool.false_ne_true) rfl fun a ha => ?_
    have hcellar : ∀ b ∈ quietRegs, b ≠ hdrAddr PG_CELLAR hdrSTATUS ∧ b ≠ hdrAddr PG_CELLAR hdrRAW := by decide
    exact s.inReset_rd (regDom_quietRegs a ha) (hcellar a ha).1 (hcellar a ha).2
  exact hrise.quiet (by decide) hstart

theorem State.riseReset_mode (s : State) (cause riseCause : Nat) : (s.riseReset cause riseCause).mode = .rise := by
  obtain ⟨-, r, e, heq⟩ := s.riseReset_evqOnly cause riseCause
  rw [heq]

theorem State.riseReset_get_cause (s : State) {cause : Nat} (riseCause : Nat) (hcause : cause < 16) :
    (s.riseReset cause riseCause).get DEV_MODE_CAUSE = cause :=
  (State.get_put_reg _ _ (by decide)).trans (s.inReset.setMode_get_cause .rise hcause)

theorem State.riseReset_get_riseCause (s : State) (cause : Nat) {riseCause : Nat} (hrise : riseCause < 16) :
    (s.riseReset cause riseCause).get DEV_BOOT_RISECAUSE = riseCause :=
  State.get_put_same _ _ hrise (by decide)

/-- Out of CELLAR a device reset is a rise with cause 3, from a state with the record area written. -/
theorem State.deviceReset_eq_riseReset {s : State} (hmode : s.mode ≠ .cellar) (riseCause : Nat) :
    ∃ u : State, s.deviceReset riseCause = u.riseReset 3 riseCause :=
  ⟨_, if_neg hmode⟩

/-! ### A bite (R392) -/

/-- The state differs in the memory alone. -/
def MemOnly (s t : State) : Prop := ∃ l, t = { s with mem := l }

theorem memOnly_free (s : State) : Free (MemOnly s) [.mem] := by
  intro p hp
  obtain rfl : p = .mem := by simpa using hp
  rintro t l - ⟨-, rfl⟩
  exact ⟨l, rfl⟩

/-- A bite's record stands in memory. -/
theorem State.biteRecord_memOnly (s : State) (cause missing excess : Nat) : MemOnly s (s.biteRecord cause missing excess) :=
  State.biteRecord_free (memOnly_free s) ⟨s.mem, rfl⟩ cause missing excess

/-- The state differs in the registers `as`, the memory, the event queue, the fault collector and the watchdog alone. -/
def WdogOnly (as : List Nat) (s t : State) : Prop :=
  (∀ a, a ∉ as → t.rd a = s.rd a) ∧ ∃ r l e f w, t = { s with regs := r, mem := l, evq := e, fault := f, wdog := w }

section
variable {as : List Nat} {s t u : State}

theorem WdogOnly.refl (as : List Nat) (s : State) : WdogOnly as s s := ⟨fun _ _ => rfl, _, _, _, _, _, rfl⟩

theorem WdogOnly.trans (hst : WdogOnly as s t) (htu : WdogOnly as t u) : WdogOnly as s u := by
  obtain ⟨hrd, r, l, e, f, w, rfl⟩ := hst
  obtain ⟨hrd', r', l', e', f', w', rfl⟩ := htu
  exact ⟨fun a ha => (hrd' a ha).trans (hrd a ha), r', l', e', f', w', rfl⟩

theorem EvqOnly.wdogOnly (h : EvqOnly as s t) : WdogOnly as s t := by
  obtain ⟨hrd, r, e, rfl⟩ := h
  exact ⟨hrd, r, s.mem, e, s.fault, s.wdog, rfl⟩

theorem MemOnly.wdogOnly (h : MemOnly s t) : WdogOnly as s t := by
  obtain ⟨l, rfl⟩ := h
  exact ⟨fun _ _ => rfl, s.regs, l, s.evq, s.fault, s.wdog, rfl⟩

theorem WdogOnly.wdog (h : WdogOnly as s t) (w : WdogS) : WdogOnly as s { t with wdog := w } := by
  obtain ⟨hrd, r, l, e, f, _, rfl⟩ := h
  exact ⟨hrd, r, l, e, f, w, rfl⟩

theorem WdogOnly.fault (h : WdogOnly as s t) (f : FaultS) : WdogOnly as s { t with fault := f } := by
  obtain ⟨hrd, r, l, e, _, w, rfl⟩ := h
  exact ⟨hrd, r, l, e, f, w, rfl⟩

theorem WdogOnly.get (h : WdogOnly as s t) (f : Fld) (hf : f.addr ∉ as) : t.get f = s.get f := by
  unfold State.get
  rw [h.1 _ hf]

theorem WdogOnly.mode (h : WdogOnly as s t) : t.mode = s.mode := by
  obtain ⟨-, r, l, e, f, w, rfl⟩ := h
  rfl

theorem WdogOnly.quiet (h : WdogOnly as s t) (has : ∀ a ∈ quietRegs, a ∉ as) (hq : s.Quiet) : t.Quiet := by
  obtain ⟨hrd, r, l, e, f, w, rfl⟩ := h
  exact State.quiet_of_agree hq hq.1 id rfl fun a ha => hrd a (has a ha)

end

/-- What a bite has written before it acts: BITE0, BITE1 and its record. -/
def State.biteNoted (s : State) (cause count : Nat) : State :=
  ((((s.put WDOG_BITE0_MISSING s.missingMask).put WDOG_BITE0_EXCESS s.excessMask).put WDOG_BITE1_CAUSE cause).put WDOG_BITE1_COUNT count).biteRecord
    cause s.missingMask s.excessMask

/-- The registers a bite writes that is no device reset. -/
def biteRegs : List Nat := [WDOG_BITE0_MISSING.addr, WDOG_BITE1_CAUSE.addr, hdrAddr PG_WDOG hdrSTATUS, EVQ_HOLD_LOST.addr]

theorem State.biteNoted_wdogOnly (s : State) (cause count : Nat) : WdogOnly biteRegs s (s.biteNoted cause count) := by
  have hputs : EvqOnly biteRegs s ((((s.put WDOG_BITE0_MISSING s.missingMask).put WDOG_BITE0_EXCESS s.excessMask).put WDOG_BITE1_CAUSE cause).put
      WDOG_BITE1_COUNT count) :=
    ((((EvqOnly.refl _ s).wr _ (by decide)).wr _ (by decide)).wr _ (by decide)).wr _ (by decide)
  exact hputs.wdogOnly.trans (State.biteRecord_memOnly _ _ _ _).wdogOnly

theorem State.biteNoted_get_cause (s : State) {cause : Nat} (count : Nat) (hcause : cause < 8) :
    (s.biteNoted cause count).get WDOG_BITE1_CAUSE = cause := by
  have hrecord (u : State) : (u.biteRecord cause s.missingMask s.excessMask).get WDOG_BITE1_CAUSE = u.get WDOG_BITE1_CAUSE :=
    (u.biteRecord_memOnly _ _ _).wdogOnly.get (as := []) _ (by decide)
  unfold State.biteNoted
  have hcount (u : State) : (u.put WDOG_BITE1_COUNT count).get WDOG_BITE1_CAUSE = u.get WDOG_BITE1_CAUSE :=
    u.get_put_fld count rfl (by decide) (by decide)
  rw [hrecord, hcount]
  exact State.get_put_same _ WDOG_BITE1_CAUSE hcause (by decide)

/-- With ACTION 1 a bite reports BITE, pulses line 4 and begins a first window. -/
theorem State.wdogBite_of_action {s : State} (hact : s.on WDOG_CFG_ACTION = true) (cause count : Nat) :
    s.wdogBite cause count = (((s.biteNoted cause count).raise PG_WDOG WDOG_ST_BITE).pulse
      { src := 4, inj := false, lo := s.missingMask, hi := s.excessMask }).wdogWindow true :=
  if_pos hact

/-- With ACTION 0 a bite is a device reset. -/
theorem State.wdogBite_of_no_action {s : State} (hact : s.on WDOG_CFG_ACTION = false) (cause count : Nat) :
    s.wdogBite cause count = ((s.biteNoted cause count).recBump 0x04 2).deviceReset 4 :=
  if_neg (hact ▸ Bool.false_ne_true)

/-- A bite with ACTION 0 begins a rise with cause 3 and rise cause 4. -/
theorem State.wdogBite_eq_riseReset {s : State} (hact : s.on WDOG_CFG_ACTION = false) (hmode : s.mode ≠ .cellar) (cause count : Nat) :
    ∃ u : State, s.wdogBite cause count = u.riseReset 3 4 := by
  have hbump : MemOnly (s.biteNoted cause count) ((s.biteNoted cause count).recBump 0x04 2) :=
    State.recBump_free (memOnly_free _) ⟨(s.biteNoted cause count).mem, rfl⟩ _ _
  have hkeep : ((s.biteNoted cause count).recBump 0x04 2).mode = s.mode :=
    ((s.biteNoted_wdogOnly cause count).trans hbump.wdogOnly).mode
  rw [State.wdogBite_of_no_action hact]
  exact State.deviceReset_eq_riseReset (fun hcellar => hmode (hkeep.symm.trans hcellar)) 4

/-- What is seen of a bite that was no device reset: STATUS.BITE is set, line 4 has pulsed and the window is a first one. -/
def State.Bitten (s : State) : Prop := s.statusOf PG_WDOG WDOG_ST_BITE = true ∧ 4 ∈ s.lineSrcs ∧ s.wdog.first = true

section
variable {s : State} (hact : s.on WDOG_CFG_ACTION = true) (cause count : Nat)
include hact

theorem State.wdogBite_wdogOnly : WdogOnly biteRegs s (s.wdogBite cause count) := by
  have hraise : WdogOnly biteRegs (s.biteNoted cause count) ((s.biteNoted cause count).raise PG_WDOG WDOG_ST_BITE) :=
    ((EvqOnly.refl _ _).raise (by decide) (by decide) _).wdogOnly
  rw [State.wdogBite_of_action hact]
  exact (((s.biteNoted_wdogOnly cause count).trans hraise).fault _).wdog _

theorem State.wdogBite_bitten : (s.wdogBite cause count).Bitten := by
  rw [State.wdogBite_of_action hact]
  refine ⟨(s.biteNoted cause count).statusOf_raise PG_WDOG (by decide), ?_, rfl⟩
  exact List.mem_map.mpr ⟨_, List.mem_append_right _ (List.mem_singleton.mpr rfl), rfl⟩

theorem State.wdogBite_get_cause (hcause : cause < 8) : (s.wdogBite cause count).get WDOG_BITE1_CAUSE = cause := by
  rw [State.wdogBite_of_action hact]
  exact ((State.raise_evqOnly _ PG_WDOG WDOG_ST_BITE).get WDOG_BITE1_CAUSE (by decide)).trans (s.biteNoted_get_cause count hcause)

end

/-! ### Check-ins (R390) -/

/-- The counts of the tasks after the enabled ones in `mask` have checked in. -/
def State.countsAfter (s : State) (mask : Nat) : List Nat :=
  (List.range 16).map fun k =>
    if bitOf mask k && bitOf (s.get WDOG_TASKEN_EN) k then min 15 (nth s.wdog.checkins k + 1) else nth s.wdog.checkins k

/-- The state with check-ins counted and not yet judged. -/
def State.checkedIn (s : State) (mask count : Nat) : State :=
  { s with wdog := { s.wdog with checkins := s.countsAfter mask, count := count } }

/-- Whether an enabled task's count exceeds its maximum once the tasks in `mask` have checked in. -/
def State.exceeds (s : State) (mask : Nat) : Bool :=
  (List.range 16).any fun k => bitOf (s.get WDOG_TASKEN_EN) k && decide (s.taskMax k < nth (s.countsAfter mask) k)

/-- A sum of powers of two over the elements with a property is 0 where no element has it. -/
theorem foldl_add_two_pow_eq_zero (p : Nat → Bool) (l : List Nat) (n : Nat) :
    l.foldl (fun m k => if p k then m + 2 ^ k else m) n = 0 ↔ n = 0 ∧ l.any p = false := by
  induction l generalizing n with
  | nil => simp
  | cons k l ih =>
    rw [List.foldl_cons, ih, List.any_cons]
    cases hk : p k with
    | true => simp
    | false => simp

theorem State.excessMask_checkedIn_eq_zero (s : State) (mask count : Nat) :
    (s.checkedIn mask count).excessMask = 0 ↔ s.exceeds mask = false :=
  (foldl_add_two_pow_eq_zero _ _ 0).trans ⟨And.right, fun h => ⟨rfl, h⟩⟩

/-- Without a window that runs a check-in does nothing. -/
theorem State.taskCheckin_of_idle {s : State} (h : s.wdog.on = false ∨ s.wdog.window = false) (mask count : Nat) :
    s.taskCheckin mask count = s :=
  if_pos (by simpa using h)

/-- In a window that runs a check-in counts, and an excess bites. -/
theorem State.taskCheckin_of_window {s : State} (hon : s.wdog.on = true) (hwin : s.wdog.window = true) (mask count : Nat) :
    s.taskCheckin mask count = if s.exceeds mask = true then (s.checkedIn mask count).wdogBite 4 count else s.checkedIn mask count := by
  have hcounts : s.taskCheckin mask count =
      if (s.checkedIn mask count).excessMask = 0 then s.checkedIn mask count else (s.checkedIn mask count).wdogBite 4 count :=
    if_neg (by simp [hon, hwin])
  rw [hcounts]
  cases hexc : s.exceeds mask with
  | true => rw [if_neg fun h => Bool.false_ne_true (((s.excessMask_checkedIn_eq_zero mask count).mp h).symm.trans hexc), if_pos rfl]
  | false => rw [if_pos ((s.excessMask_checkedIn_eq_zero mask count).mpr hexc), if_neg Bool.false_ne_true]

/-- With ACTION 1 a check-in after a bite leaves it to be seen, whether it counts, bites again or does nothing. -/
theorem State.taskCheckin_of_bitten {s : State} (hact : s.on WDOG_CFG_ACTION = true) (hbit : s.Bitten) (mask count : Nat) :
    (s.taskCheckin mask count).Bitten ∧ WdogOnly biteRegs s (s.taskCheckin mask count) := by
  have hcounted : WdogOnly biteRegs s (s.checkedIn mask count) := (WdogOnly.refl _ s).wdog _
  have hact' : (s.checkedIn mask count).on WDOG_CFG_ACTION = true := hact
  by_cases hidle : s.wdog.on = false ∨ s.wdog.window = false
  · rw [State.taskCheckin_of_idle hidle]
    exact ⟨hbit, WdogOnly.refl _ s⟩
  · have hrun : s.wdog.on = true ∧ s.wdog.window = true := by simpa using hidle
    rw [State.taskCheckin_of_window hrun.1 hrun.2]
    split
    · exact ⟨State.wdogBite_bitten hact' 4 count, hcounted.trans (State.wdogBite_wdogOnly hact' 4 count)⟩
    · exact ⟨hbit, hcounted⟩

/-- Before the end of the window that runs, if one does, a CHECKIN write is the check-in of its tasks. -/
theorem State.wdogCheckin_of_not_late {s : State} {count : Nat}
    (h : s.wdog.on = false ∨ s.wdog.window = false ∨ count < s.wdogClose) (mask : Nat) :
    s.wdogCheckin mask count = s.taskCheckin mask count := by
  refine if_neg fun hlate => ?_
  simp only [Bool.and_eq_true, decide_eq_true_eq] at hlate
  obtain ⟨⟨hon, hwin⟩, hclose⟩ := hlate
  rcases h with h | h | h
  · exact Bool.false_ne_true (h.symm.trans hon)
  · exact Bool.false_ne_true (h.symm.trans hwin)
  · exact Nat.not_le_of_lt h hclose

/-- At or after the end of the window the bite LATE comes first, and the check-in belongs to the next window. -/
theorem State.wdogCheckin_of_late {s : State} {count : Nat} (hon : s.wdog.on = true) (hwin : s.wdog.window = true)
    (hclose : s.wdogClose ≤ count) (mask : Nat) : s.wdogCheckin mask count = (s.wdogBite 2 s.wdogClose).taskCheckin mask 0 :=
  if_pos (by simp [hon, hwin, hclose])

/-! ### What a check-in rests on after the note of its write -/

section
variable (s : State) (m : Master)

theorem State.noted_on_action : (s.noted m).on WDOG_CFG_ACTION = s.on WDOG_CFG_ACTION := by
  unfold State.on
  rw [State.noted_get _ _ (by decide)]

theorem State.noted_wdogClose : (s.noted m).wdogClose = s.wdogClose := by
  unfold State.wdogClose
  rw [State.noted_wdog, State.noted_get _ _ (by decide), State.noted_get _ _ (by decide), State.noted_get _ _ (by decide)]

theorem State.noted_taskMax (k : Nat) : (s.noted m).taskMax k = s.taskMax k := by
  have haddr (f : Fld) (hf : hdrAddr PG_WDOG 0x40 ≤ f.addr) : hdrAddr PG_WDOG 0x40 ≤ ((f.el (k / 4)).sh (8 * (k % 4))).addr :=
    Nat.le_trans hf (Nat.add_le_add_left (Nat.le_add_right _ _) _)
  unfold State.taskMax State.taskMin
  rw [State.noted_get _ _ (haddr _ (by decide)), State.noted_get _ _ (haddr _ (by decide))]

theorem State.noted_countsAfter (mask : Nat) : (s.noted m).countsAfter mask = s.countsAfter mask := by
  unfold State.countsAfter
  rw [State.noted_wdog, State.noted_get _ _ (by decide)]

theorem State.noted_exceeds (mask : Nat) : (s.noted m).exceeds mask = s.exceeds mask := by
  unfold State.exceeds
  rw [State.noted_get _ _ (by decide), State.noted_countsAfter]
  simp only [State.noted_taskMax]

end

/-- Before the end of the window that runs a CHECKIN write counts, and an excess bites. -/
theorem State.noted_wdogCheckin_of_window {s : State} {count : Nat} (hon : s.wdog.on = true) (hwin : s.wdog.window = true)
    (hclose : count < s.wdogClose) (m : Master) (mask : Nat) :
    (s.noted m).wdogCheckin mask count =
      if s.exceeds mask = true then ((s.noted m).checkedIn mask count).wdogBite 4 count else (s.noted m).checkedIn mask count := by
  rw [State.wdogCheckin_of_not_late (.inr (.inr ((s.noted_wdogClose m).symm ▸ hclose))),
    State.taskCheckin_of_window (s := s.noted m) hon hwin, State.noted_exceeds]

/-! ### The statement of R390 -/

/-- A register outside every page of `as` is none of `as`. -/
theorem not_mem_of_page {as ps : List Nat} (hpages : ∀ a ∈ as, a / 0x400 ∈ ps) {a : Nat} (ha : a / 0x400 ∉ ps) : a ∉ as :=
  fun hmem => ha (hpages a hmem)

section
variable {s u : State} {m : Master} {mask count : BitVec 16}

/-- A host's CHECKIN write is noted and has its effect; from there the port alone settles. -/
theorem exec_wdogCheckin (hm : s.accepts m = true) (hhost : hostMaster m = true)
    (heffect : (s.noted m).wdogCheckin mask.toNat count.toNat = u) (hquiet : u.Quiet) :
    ∃ t, exec (.wdogCheckin m mask count) s = .next t ∧ PortOnly portShows u t := by
  have hact : s.begin.hostAct m PG_WDOG (fun v => v.wdogCheckin mask.toNat count.toNat) = u :=
    (State.hostAct_of_hostMaster (s := s.begin) hm hhost PG_WDOG _).trans heffect
  obtain ⟨t, hexec, hsettle⟩ := effect_quiet (f := fun v => v.hostAct m PG_WDOG fun w => w.wdogCheckin mask.toNat count.toNat) (hact ▸ hquiet)
  exact ⟨t, hexec, hact ▸ hsettle⟩

/-- A CHECKIN write that changes but the watchdog's record to `w` leaves `w` and the frame of the write. -/
theorem completes_wdogCheckin_of_counted (hm : s.accepts m = true) (hhost : hostMaster m = true) (hq : s.Quiet) {w : WdogS}
    (heffect : (s.noted m).wdogCheckin mask.toNat count.toNat = { s.noted m with wdog := w }) :
    Completes (.wdogCheckin m mask count) s fun t => t.wdog = w ∧ FrameE [PG_DEV, PG_WDOG] s t := by
  have hnote := s.noted_evqOnly m
  have hquiet := (hnote.wdogOnly.wdog w).quiet (by decide) (State.begin_quiet hq)
  obtain ⟨t, hexec, hshow, r, p, rfl⟩ := exec_wdogCheckin hm hhost heffect hquiet
  exact ⟨_, hexec, rfl, fun a ha hs => (hshow a hs).trans (hnote.1 a (not_mem_of_page (by decide) ha)), fun _ => rfl, rfl⟩

/-- A CHECKIN write that has bitten with ACTION 1 leaves the bite to be seen and the frame of the write. -/
theorem completes_wdogCheckin_of_bitten (hm : s.accepts m = true) (hhost : hostMaster m = true) (hq : s.Quiet)
    (heffect : (s.noted m).wdogCheckin mask.toNat count.toNat = u) (honly : WdogOnly biteRegs (s.noted m) u) (hbit : u.Bitten) :
    Completes (.wdogCheckin m mask count) s fun t =>
      t.get WDOG_BITE1_CAUSE = u.get WDOG_BITE1_CAUSE ∧ t.Bitten ∧ RegsButE [PG_DEV, PG_WDOG, PG_EVQ] s t ∧ t.mode = s.mode := by
  obtain ⟨t, hexec, hsettle⟩ := exec_wdogCheckin hm hhost heffect (honly.quiet (by decide) (State.noted_quiet m hq))
  have hcause := hsettle.get WDOG_BITE1_CAUSE (by decide)
  have hmode : u.mode = s.mode := honly.mode
  obtain ⟨hstatus, hline, hfirst⟩ := hbit
  obtain ⟨hshow, r, p, rfl⟩ := hsettle
  refine ⟨_, hexec, hcause, ⟨?_, hline, hfirst⟩, fun a ha hs => ?_, hmode⟩
  · unfold State.statusOf State.hdr at hstatus ⊢
    rw [hshow _ (by decide)]
    exact hstatus
  · rw [hshow a hs, honly.1 a (not_mem_of_page (by decide) ha)]
    exact (s.noted_evqOnly m).1 a (not_mem_of_page (by decide) ha)

end

/-- Settles O57: the write is noted, which leaves what the check-in rests on; each clause is then a case of what the check-in does. -/
theorem checkInsCountPerTask : Obligations.CheckInsCountPerTask := by
  unfold Obligations.CheckInsCountPerTask
  refine ⟨fun s m mask count ⟨hm, hhost, hq, hon, hwin, hclose, hexc⟩ => ?counted,
    fun s m mask count ⟨hm, hhost, hq, hon, hwin, hclose, hact, hexc⟩ => ?excess,
    fun s m mask count ⟨hm, hhost, hon, hwin, hclose, hact, hexc⟩ => ?reset,
    fun s m mask count ⟨hm, hhost, hq, hon, hwin, hclose, hact⟩ => ?late,
    fun s m mask count ⟨hm, hhost, hq, hidle⟩ => ?idle⟩
  case counted =>
    have hexc' : s.exceeds mask.toNat = false := hexc
    refine completes_wdogCheckin_of_counted hm hhost hq ?_
    rw [State.noted_wdogCheckin_of_window hon hwin hclose, if_neg (ne_true_of_eq_false hexc')]
    unfold State.checkedIn
    rw [State.noted_countsAfter]
    rfl
  case excess =>
    have hexc' : s.exceeds mask.toNat = true := hexc
    have hact' : ((s.noted m).checkedIn mask.toNat count.toNat).on WDOG_CFG_ACTION = true := (s.noted_on_action m).trans hact
    have honly := ((WdogOnly.refl _ (s.noted m)).wdog _).trans (State.wdogBite_wdogOnly hact' 4 count.toNat)
    have heffect := (State.noted_wdogCheckin_of_window hon hwin hclose m mask.toNat).trans (if_pos hexc')
    obtain ⟨t, hexec, hcause, ⟨hstatus, hline, -⟩, hframe⟩ :=
      completes_wdogCheckin_of_bitten hm hhost hq heffect honly (State.wdogBite_bitten hact' 4 _)
    exact ⟨t, hexec, hcause.trans (State.wdogBite_get_cause hact' 4 _ (by decide)), hstatus, hline, hframe⟩
  case reset =>
    have hexc' : s.exceeds mask.toNat = true := hexc
    have hact' : ((s.noted m).checkedIn mask.toNat count.toNat).on WDOG_CFG_ACTION = false := (s.noted_on_action m).trans hact
    have hmode : ((s.noted m).checkedIn mask.toNat count.toNat).mode ≠ .cellar :=
      State.mode_ne_cellar_of_accepts (s := s) hm hhost
    obtain ⟨u, hrise⟩ := State.wdogBite_eq_riseReset hact' hmode 4 count.toNat
    have heffect := ((State.noted_wdogCheckin_of_window hon hwin hclose m mask.toNat).trans (if_pos hexc')).trans hrise
    obtain ⟨t, hexec, hsettle⟩ := exec_wdogCheckin hm hhost heffect (u.riseReset_quiet 3 4)
    exact ⟨t, hexec, hsettle.mode.trans (u.riseReset_mode 3 4),
      (hsettle.get _ (by decide)).trans (u.riseReset_get_cause 4 (by decide)),
      (hsettle.get _ (by decide)).trans (u.riseReset_get_riseCause 3 (by decide))⟩
  case late =>
    have hact' : (s.noted m).on WDOG_CFG_ACTION = true := (s.noted_on_action m).trans hact
    have hbite := State.wdogBite_wdogOnly hact' 2 (s.noted m).wdogClose
    have hact'' : ((s.noted m).wdogBite 2 (s.noted m).wdogClose).on WDOG_CFG_ACTION = true :=
      (congrArg (· != 0) (hbite.get WDOG_CFG_ACTION (by decide))).trans hact'
    obtain ⟨hbit, honly⟩ := State.taskCheckin_of_bitten hact'' (State.wdogBite_bitten hact' 2 _) mask.toNat 0
    have heffect := State.wdogCheckin_of_late (s := s.noted m) hon hwin ((s.noted_wdogClose m).symm ▸ hclose) mask.toNat
    obtain ⟨t, hexec, -, ⟨hstatus, hline, hfirst⟩, hframe⟩ :=
      completes_wdogCheckin_of_bitten hm hhost hq heffect (hbite.trans honly) hbit
    exact ⟨t, hexec, hstatus, hline, hfirst, hframe⟩
  case idle =>
    have hnone : (s.noted m).wdogCheckin mask.toNat count.toNat = (s.noted m).taskCheckin mask.toNat count.toNat :=
      State.wdogCheckin_of_not_late (s := s.noted m) (hidle.imp id .inl) _
    exact completes_wdogCheckin_of_counted hm hhost hq (hnone.trans (State.taskCheckin_of_idle (s := s.noted m) hidle _ _))

end Sys2Proof.Machine

/-! SUPPORT. What a function reset leaves of a page's registers, how reads in progress time out, and the statement of R483. -/

namespace Sys2Proof.Machine

/-! ### The registers of a page in function reset (R34) -/

/-- A table keeps what stands under a key that a filter on keys lets through. -/
theorem Sparse.get_filter_key_of_kept {α : Type} (d : Nat → α) (p : Nat → Bool) {k : Nat} (hk : p k = true) (l : List (Nat × α)) :
    Sparse.get d (l.filter fun e => p e.1) k = Sparse.get d l k := by
  have hlook : Sparse.look (l.filter fun e => p e.1) k = Sparse.look l k := by
    induction l with
    | nil => rfl
    | cons e l ih =>
      by_cases he : p e.1 = true
      · rw [List.filter_cons_of_pos (p := fun e : Nat × α => p e.1) he, Sparse.look_cons, Sparse.look_cons, ih]
      · have hne : e.1 ≠ k := fun h => he (h ▸ hk)
        rw [List.filter_cons_of_neg (p := fun e : Nat × α => p e.1) he, Sparse.look_cons, if_neg hne, ih]
  unfold Sparse.get
  rw [hlook]

/-- The registers of the page in domain FR read their reset values, the others what they held. -/
theorem State.clearFR_rd (s : State) (pg a : Nat) :
    (s.clearFR pg).rd a = if a / 0x400 = pg ∧ regDom a = .fr then regReset a else s.rd a := by
  have hsel : (a / 0x400 == pg && regDom a == .fr) = true ↔ a / 0x400 = pg ∧ regDom a = .fr := by
    simp only [Bool.and_eq_true, beq_iff_eq]
  by_cases ha : a / 0x400 = pg ∧ regDom a = .fr
  · rw [if_pos ha]
    exact Sparse.get_filter_key regReset (fun k => !(k / 0x400 == pg && regDom k == .fr)) (congrArg not (hsel.mpr ha)) s.regs
  · rw [if_neg ha]
    exact Sparse.get_filter_key_of_kept regReset (fun k => !(k / 0x400 == pg && regDom k == .fr))
      (congrArg not (Bool.eq_false_iff.mpr fun h => ha (hsel.mp h))) s.regs

/-- Which pages are in function reset stands in no register. -/
theorem State.rd_of_freset (s : State) (pages : List Nat) (a : Nat) : ({ s with dev.freset := pages } : State).rd a = s.rd a := rfl

/-! ### Reads in progress that time out (R476, R483) -/

/-- The masters' copies after one read in progress has timed out; the lamplighter, master 0, has none. -/
def timedOut (copies : Vector RmtCopy 5) (r : RingRead) : Vector RmtCopy 5 :=
  if r.tag / 32 = 0 then copies else copies.setIfInBounds (r.tag / 32) ⟨2, 3, 0, r.dev, []⟩

/-- The reads in progress without one of them. -/
def withoutRead (reads : List RingRead) (r : RingRead) : List RingRead := reads.filter fun x => x.tag != r.tag

/-- A read that times out leaves the reads in progress and completes its master's copy; the lamplighter's result goes to memory. -/
theorem State.readDone_timeout (s : State) (r : RingRead) :
    ∃ l, s.readDone r 3 [] =
      { s with mem := l, ring := { s.ring with reads := withoutRead s.ring.reads r, rmt := timedOut s.ring.rmt r } } := by
  unfold State.readDone timedOut
  by_cases hlamp : r.tag / 32 = 0
  · rw [if_pos hlamp, if_pos hlamp]
    cases r.result with
    | none => exact ⟨s.mem, rfl⟩
    | some a => exact State.store_free (memOnly_free { s with ring.reads := withoutRead s.ring.reads r }) ⟨s.mem, rfl⟩ a 4 _
  · rw [if_neg hlamp, if_neg hlamp]
    exact ⟨s.mem, rfl⟩

/-- Reads that time out one after the other. -/
theorem State.foldl_readDone_timeout (l : List RingRead) (s : State) :
    ∃ b, l.foldl (fun (t : State) (r : RingRead) => t.readDone r 3 []) s =
      { s with mem := b, ring := { s.ring with reads := l.foldl withoutRead s.ring.reads, rmt := l.foldl timedOut s.ring.rmt } } := by
  induction l generalizing s with
  | nil => exact ⟨s.mem, rfl⟩
  | cons r l ih =>
    obtain ⟨b, hread⟩ := s.readDone_timeout r
    rw [List.foldl_cons, hread]
    exact ih _

/-- Once every read in progress has ended none is left. -/
theorem foldl_withoutRead_eq_nil (l : List RingRead) {reads : List RingRead} (h : reads ⊆ l) : l.foldl withoutRead reads = [] := by
  induction l generalizing reads with
  | nil => exact List.subset_nil.mp h
  | cons r l ih =>
    refine ih fun x hx => ?_
    obtain ⟨hmem, htag⟩ := List.mem_filter.mp hx
    exact (List.mem_cons.mp (h hmem)).resolve_left fun hxr => bne_iff_ne.mp htag (congrArg RingRead.tag hxr)

/-- A copy that shows a read complete with TIMEOUT and no word. -/
def RmtCopy.isTimeout (c : RmtCopy) : Bool := c.state == 2 && c.outcome == 3 && c.words.isEmpty

/-- The copy of one master. -/
def copyOf (copies : Vector RmtCopy 5) (m : Nat) : RmtCopy := (copies[m]?).getD ⟨0, 0, 0, 0, []⟩

theorem State.rmtOf_eq_copyOf (s : State) (m : Nat) : s.rmtOf m = copyOf s.ring.rmt m := rfl

section
variable {m : Nat} (hlow : m ≠ 0) (hhigh : m < 5)
include hlow hhigh

/-- A time-out completes the copy of the read's master and leaves the others. -/
theorem copyOf_timedOut (copies : Vector RmtCopy 5) (r : RingRead) :
    copyOf (timedOut copies r) m = if r.tag / 32 = m then ⟨2, 3, 0, r.dev, []⟩ else copyOf copies m := by
  unfold copyOf timedOut
  by_cases hm : r.tag / 32 = m
  · rw [if_pos hm, hm, if_neg hlow, Vector.getElem?_setIfInBounds_self_of_lt hhigh]
    rfl
  · rw [if_neg hm]
    split
    · rfl
    · rw [Vector.getElem?_setIfInBounds_ne hm]

/-- A copy that shows a time-out still shows one after others. -/
theorem copyOf_foldl_timedOut_of_isTimeout (l : List RingRead) {copies : Vector RmtCopy 5} (h : (copyOf copies m).isTimeout = true) :
    (copyOf (l.foldl timedOut copies) m).isTimeout = true := by
  induction l generalizing copies with
  | nil => exact h
  | cons r l ih =>
    refine ih ?_
    rw [copyOf_timedOut hlow hhigh]
    split
    · rfl
    · exact h

/-- A master whose read was among those that time out finds it complete with TIMEOUT and no word. -/
theorem copyOf_foldl_timedOut_of_mem {l : List RingRead} {r : RingRead} (hr : r ∈ l) (hm : r.tag / 32 = m) (copies : Vector RmtCopy 5) :
    (copyOf (l.foldl timedOut copies) m).isTimeout = true := by
  induction l generalizing copies with
  | nil => exact absurd hr List.not_mem_nil
  | cons x l ih =>
    rcases List.mem_cons.mp hr with rfl | hl
    · refine copyOf_foldl_timedOut_of_isTimeout hlow hhigh l ?_
      rw [copyOf_timedOut hlow hhigh, if_pos hm]
      rfl
    · exact ih hl _

end

/-! ### A function reset of RING (R483) -/

/-- The ring engine after its function reset. -/
def RingS.afterReset (x : RingS) : RingS := { x with txq := [], reads := [], rmt := x.reads.foldl timedOut x.rmt }

theorem State.ringFuncReset_eq (s : State) : ∃ b, s.ringFuncReset = { s with mem := b, ring := s.ring.afterReset } := by
  obtain ⟨b, hreads⟩ := State.foldl_readDone_timeout s.ring.reads { s with ring.txq := [] }
  refine ⟨b, hreads.trans ?_⟩
  rw [foldl_withoutRead_eq_nil s.ring.reads (List.Subset.refl _)]
  rfl

/-- The reads that time out leave every register as it is. -/
theorem State.ringFuncReset_rd (s : State) (a : Nat) : s.ringFuncReset.rd a = s.rd a := by
  obtain ⟨b, hreset⟩ := s.ringFuncReset_eq
  rw [hreset]
  rfl

/-- A function reset of RING marks the page and clears it, then resets the ring engine. -/
theorem State.funcReset_ring (s : State) :
    s.funcReset PG_RING = State.ringFuncReset { (s.clearFR PG_RING).put (fresetFld PG_RING) 1 with
      dev.freset := PG_RING :: s.dev.freset.filter fun p => p != PG_RING } := rfl

/-- Beside the registers a function reset of RING changes memory, the list of the pages in reset and the ring engine alone. -/
theorem State.funcReset_ring_parts (s : State) :
    ∃ r b f, s.funcReset PG_RING = { s with regs := r, mem := b, dev.freset := f, ring := s.ring.afterReset } := by
  obtain ⟨r, hregs⟩ : ∃ r, (s.clearFR PG_RING).put (fresetFld PG_RING) 1 = { s with regs := r } := ⟨_, rfl⟩
  rw [State.funcReset_ring, hregs]
  obtain ⟨b, hreset⟩ := State.ringFuncReset_eq { s with
    regs := r, dev.freset := PG_RING :: s.dev.freset.filter fun p => p != PG_RING }
  exact ⟨r, b, _, hreset⟩

/-- But for CTRL, a register of the RING page in domain FR reads its reset value in function reset, and every other what it held. -/
theorem State.funcReset_ring_rd (s : State) {a : Nat} (ha : a ≠ hdrAddr PG_RING hdrCTRL) :
    (s.funcReset PG_RING).rd a = if a / 0x400 = PG_RING ∧ regDom a = .fr then regReset a else s.rd a := by
  rw [State.funcReset_ring, State.ringFuncReset_rd, State.rd_of_freset, State.rd_put_other _ (fresetFld PG_RING) 1 ha.symm,
    State.clearFR_rd]

/-! ### The write of CTRL -/

/-- A host's write of CTRL to a page with a block is noted and reaches the header. -/
theorem State.regWrite_ctrl_of_hostMaster (s : State) {m : Master} (hhost : hostMaster m = true) {pg : Nat}
    (hblock : alwaysEnabled pg = false) (r : RegInfo) (v : Word) :
    s.regWrite m (hdrAddr pg hdrCTRL) r v = (s.noteWrite m pg).headerWrite pg hdrCTRL v := by
  have hpg : hdrAddr pg hdrCTRL / 0x400 = pg := by simp only [hdrAddr, hdrCTRL]; omega
  have hoff : hdrAddr pg hdrCTRL % 0x400 = hdrCTRL := by simp only [hdrAddr, hdrCTRL]; omega
  have hwritable : writable pg hdrCTRL r = true := by
    unfold writable
    rw [if_pos rfl, hblock]
    rfl
  have hunlocked : s.lockedNow pg hdrCTRL = false := by
    have hwdog : decide (0x40 ≤ hdrCTRL) = false := by decide
    have hclass : decide (0x80 ≤ hdrCTRL) = false := by decide
    unfold State.lockedNow
    simp only [hwdog, hclass, Bool.and_false, Bool.false_and, Bool.or_false]
  have hown : (m == .lamplighter) = false ∧ (m == .preload) = false := by
    cases m with
    | lamplighter => exact absurd hhost Bool.false_ne_true
    | preload => exact absurd hhost Bool.false_ne_true
    | spi => decide
    | i2c => decide
    | ring d => exact ⟨rfl, rfl⟩
    | debug => decide
  obtain ⟨hlamp, hpreload⟩ := hown
  unfold State.regWrite
  simp only [hpg, hoff, hwritable, hunlocked, hlamp, hpreload, Bool.not_true, Bool.false_and, Bool.or_false,
    Bool.false_eq_true, if_false, if_pos (show hdrCTRL < 0x40 by decide)]

/-- The registers in which a host's write of RING.CTRL stands before the function reset begins. -/
def ringCtrlRegs : List Nat := hdrAddr PG_RING hdrLAST_WRITER :: hdrAddr PG_RING hdrCTRL :: wdogNoteRegs

/-- The state with a host's write of RING.CTRL noted and ENABLE stored. -/
def State.ringCtrlStored (s : State) (m : Master) (enable : Bool) : State :=
  (s.begin.noteWrite m PG_RING).put ⟨PG_RING, hdrCTRL, 0, 0, 1⟩ (b2n enable)

theorem State.ringCtrlStored_evqOnly (s : State) (m : Master) (enable : Bool) :
    EvqOnly ringCtrlRegs s.begin (s.ringCtrlStored m enable) :=
  have hcounter : (seqCounter m).addr ∈ ringCtrlRegs := List.mem_cons_of_mem _ (List.mem_cons_of_mem _ (seqCounter_addr_mem m))
  (((EvqOnly.refl _ _).wr _ hcounter).wr _ (by decide)).wr _ (by decide)

/-- The value of a FUNCTION_RESET write: FRESET set, ENABLE as given. -/
theorem fresetWord_bits (enable : Bool) :
    (BitVec.ofNat 32 (2 + b2n enable)).toNat % 2 = b2n enable ∧ bitOf (BitVec.ofNat 32 (2 + b2n enable)).toNat 1 = true := by
  revert enable
  decide

/-- The state in which a host's function reset of RING leaves the device, before the service port follows it. -/
def State.ringReset (s : State) (m : Master) (enable : Bool) : State := (s.ringCtrlStored m enable).funcReset PG_RING

/-- A host's write of CTRL.FRESET to RING is noted and stores ENABLE, then the function reset begins. -/
theorem State.hostWrite_ring_freset {s : State} {m : Master} (hm : s.accepts m = true) (hhost : hostMaster m = true) (enable : Bool) :
    s.begin.hostWrite m (hdrAddr PG_RING hdrCTRL) (BitVec.ofNat 32 (2 + b2n enable)) = s.ringReset m enable := by
  obtain ⟨henable, hfreset⟩ := fresetWord_bits enable
  have hm' : s.begin.accepts m = true := hm
  have hpage : region (hdrAddr PG_RING hdrCTRL) = .page := by decide
  obtain ⟨r, hr⟩ : ∃ r, regInfo (hdrAddr PG_RING hdrCTRL) = some r := ⟨_, rfl⟩
  calc s.begin.hostWrite m (hdrAddr PG_RING hdrCTRL) (BitVec.ofNat 32 (2 + b2n enable))
    _ = s.begin.regWrite m (hdrAddr PG_RING hdrCTRL) r (BitVec.ofNat 32 (2 + b2n enable)) := by
      unfold State.hostWrite State.writeWord
      rw [if_pos hm', if_neg (by decide), hpage, hr]
    _ = (s.begin.noteWrite m PG_RING).headerWrite PG_RING hdrCTRL (BitVec.ofNat 32 (2 + b2n enable)) :=
      State.regWrite_ctrl_of_hostMaster _ hhost (by decide) _ _
    _ = s.ringReset m enable := by
      unfold State.headerWrite
      rw [if_pos rfl, hfreset, henable]
      rfl

/-! ### What the function reset leaves -/

section
variable (s : State) (m : Master) (enable : Bool)

theorem State.ringReset_parts :
    ∃ r b e f, s.ringReset m enable = { s.begin with regs := r, mem := b, evq := e, dev.freset := f, ring := s.begin.ring.afterReset } := by
  obtain ⟨-, r, e, hstored⟩ := s.ringCtrlStored_evqOnly m enable
  obtain ⟨r', b, f, hreset⟩ := (s.ringCtrlStored m enable).funcReset_ring_parts
  refine ⟨r', b, e, f, hreset.trans ?_⟩
  rw [hstored]

/-- A register in domain FR of the page reads its reset value, CTRL excepted. -/
theorem State.ringReset_rd_of_fr {a : Nat} (hpage : a / 0x400 = PG_RING) (hdom : regDom a = .fr) (hctrl : a ≠ hdrAddr PG_RING hdrCTRL) :
    (s.ringReset m enable).rd a = regReset a :=
  ((s.ringCtrlStored m enable).funcReset_ring_rd hctrl).trans (if_pos ⟨hpage, hdom⟩)

/-- A register that neither the write nor its note reaches, and that the page's reset does not clear, holds its value. -/
theorem State.ringReset_rd_of_kept {a : Nat} (ha : a ∉ ringCtrlRegs) (hdom : ¬(a / 0x400 = PG_RING ∧ regDom a = .fr)) :
    (s.ringReset m enable).rd a = s.rd a := by
  have hctrl : a ≠ hdrAddr PG_RING hdrCTRL := fun h => ha (h ▸ by decide)
  rw [State.ringReset, State.funcReset_ring_rd _ hctrl, if_neg hdom]
  exact (s.ringCtrlStored_evqOnly m enable).1 a ha

end

theorem State.ringReset_quiet {s : State} (hq : s.Quiet) (m : Master) (enable : Bool) : (s.ringReset m enable).Quiet := by
  have hregs : ∀ a ∈ quietRegs, (s.ringReset m enable).rd a = s.begin.rd a := fun a ha =>
    have hout : ∀ b ∈ quietRegs, b ∉ ringCtrlRegs ∧ b / 0x400 ≠ PG_RING := by decide
    s.ringReset_rd_of_kept m enable (hout a ha).1 fun h => (hout a ha).2 h.1
  obtain ⟨r, b, e, f, hparts⟩ := s.ringReset_parts m enable
  rw [hparts] at hregs ⊢
  exact State.quiet_of_agree (State.begin_quiet hq) hq.1 id rfl hregs

/-- A host's FUNCTION_RESET of RING has the effect of the function reset; from there the port alone settles. -/
theorem exec_functionReset_ring {s : State} {m : Master} (hm : s.accepts m = true) (hhost : hostMaster m = true) (hq : s.Quiet)
    {pg : Fin 1024} (hpg : pg.val = PG_RING) (enable : Bool) :
    ∃ t, exec (.functionReset m pg enable) s = .next t ∧ PortOnly portShows (s.ringReset m enable) t := by
  have heffect : s.begin.hostWrite m (hdrAddr pg.val hdrCTRL) (BitVec.ofNat 32 (2 + b2n enable)) = s.ringReset m enable :=
    hpg ▸ State.hostWrite_ring_freset hm hhost enable
  obtain ⟨t, hexec, hsettle⟩ := effect_quiet (s := s)
    (f := fun u => u.hostWrite m (hdrAddr pg.val hdrCTRL) (BitVec.ofNat 32 (2 + b2n enable))) (heffect ▸ State.ringReset_quiet hq m enable)
  exact ⟨t, hexec, heffect ▸ hsettle⟩

/-- The registers that hold the device's place in the ring: its number, STATE, STEER and OFFSET. -/
def ringPlace : List Nat := [RING_NUM_DEVNUM.addr, RING_STATE_TOPO.addr, RING_STEER_STEER.addr, RING_OFFSET_THETA.addr]

/-- Settles O58: the function reset clears the page, ends the reads one after the other and leaves the rest of the ring; the quiet state that
results settles in the port alone. -/
theorem ringFunctionReset : Obligations.RingFunctionReset := by
  unfold Obligations.RingFunctionReset
  intro s m pg enable ⟨hm, hhost, hq, hpg⟩
  obtain ⟨t, hexec, hsettle⟩ := exec_functionReset_ring hm hhost hq hpg enable
  have hpage : ∀ a, a / 0x400 = PG_RING → t.rd a = (s.ringReset m enable).rd a := fun a ha =>
    have hout : ∀ b ∈ portShows, b / 0x400 ≠ PG_RING := by decide
    hsettle.1 a fun h => hout a h ha
  have hplace : ∀ a ∈ ringPlace, t.rd a = s.rd a := fun a ha =>
    have hout : ∀ b ∈ ringPlace, b / 0x400 = PG_RING ∧ b ∉ ringCtrlRegs ∧ regDom b ≠ .fr := by decide
    have ⟨hring, hwrite, hdom⟩ := hout a ha
    (hpage a hring).trans (s.ringReset_rd_of_kept m enable hwrite fun h => hdom h.2)
  have hparts : t.ring = s.begin.ring.afterReset ∧ t.mode = s.mode := by
    obtain ⟨r, b, e, f, hreset⟩ := s.ringReset_parts m enable
    rw [hreset] at hsettle
    obtain ⟨-, r', p, rfl⟩ := hsettle
    exact ⟨rfl, rfl⟩
  obtain ⟨hring, hmode⟩ := hparts
  refine ⟨t, hexec, congrArg RingS.txq hring, congrArg RingS.reads hring, List.all_eq_true.mpr fun r hr => ?copies,
    fun a hin hdom hbut => ?cleared, hplace _ (by decide), hplace _ (by decide), hplace _ (by decide), hplace _ (by decide), ?ring, hmode⟩
  case copies =>
    have hrmt : t.ring.rmt = s.ring.reads.foldl timedOut s.ring.rmt := congrArg RingS.rmt hring
    have hcopy (hlow : 32 ≤ r.tag) (hhigh : r.tag < 160) : (t.rmtOf (r.tag / 32)).isTimeout = true := by
      rw [State.rmtOf_eq_copyOf, hrmt]
      exact copyOf_foldl_timedOut_of_mem (by omega) (by omega) hr rfl _
    unfold RmtCopy.isTimeout at hcopy
    by_cases htag : 32 ≤ r.tag ∧ r.tag < 160
    · rw [hcopy htag.1 htag.2, Bool.or_true]
    · rw [← Bool.decide_and, decide_eq_false htag]
      rfl
  case cleared =>
    exact (hpage a hin).trans (s.ringReset_rd_of_fr m enable hin hdom (fun h => hbut (List.mem_singleton.mpr h)))
  case ring =>
    rw [hring]
    rfl

end Sys2Proof.Machine
